-- ==== Sys2Proof/Word.lean ====
section
/-! DEFINITION. The word types of the HKV-32K panel: bytes and the register widths the manual uses. -/

namespace Sys2Proof

/-- One byte of any memory of the panel. -/
abbrev Byte := BitVec 8

/-- A 16-bit field: sequence numbers (R211), route-table entries (R229). -/
abbrev W16 := BitVec 16

/-- A 32-bit register or count. -/
abbrev W32 := BitVec 32

/-- A 64-bit word: fabric addresses (R33), header words (R209), core registers (R167). -/
abbrev W64 := BitVec 64

end Sys2Proof
end

