-- ==== Sys2Proof/Syntax.lean ====
section
/-! DEFINITION. The commands of the panel: one constructor of `Instr` for each row of the opcode table, with the operands a command
brings from outside (a register value, a completion from the host, a measurement, a training result). -/

namespace Sys2Proof

/-- The opcodes of fabric packets (R210). -/
inductive Opc where
  | write | read | cnt | rdata | rerr | wack | svc
deriving DecidableEq, Repr, Inhabited

/-- A fabric packet: the fields of the header flit (R209) and its payload bytes. -/
structure Packet where
  opc     : Opc
  last    : Bool
  dctr    : Nat
  spart   : Nat
  epoch   : Nat
  ctx     : Nat
  seq     : W16
  len     : Nat
  dest    : W64
  src     : W64
  total   : W32
  status  : BitVec 8
  hops    : Nat
  payload : List Byte
deriving DecidableEq, Repr, Inhabited

/-- What a read of a protected word or burst found (R253, R268, R280). -/
inductive MemErr where
  | clean | corrected | uncorrectable
deriving DecidableEq, Repr, Inhabited

/-- The fault causes of the engine (R73); the code of ENG_STATUS.CAUSE is `EngCause.code` (R79). -/
inductive EngCause where
  | clinker | wparity | dupcmp | accUncorr | loadCount | sramUncorr
deriving DecidableEq, Repr, Inhabited

/-- How far the youngest MMA in the array has streamed (R51, R64): it waits for the end of the stream before it, its last slice has not begun, streams, or has ended. -/
inductive Stream where
  | waits | early | last | drains
deriving DecidableEq, Repr, Inhabited

/-- A change that a fault makes to the exact sum of one accumulation block of an MMA, in accumulator units (R75, R89): the row of the command, the
column, the block in ascending K, and the change. -/
structure BlockUpset where
  row : Nat
  col : Nat
  block : Nat
  delta : Int
deriving DecidableEq, Repr, Inhabited

/-- What happens to an engine command in the hardware: faults in its first run and, where it is re-executed, in the retry (R73 to R76), a changed
block sum in either (R75), accumulator words corrected, and how far the array has streamed. Faults that the model computes by itself (a wrong density
field, an uncorrectable word, a changed block sum that the clinker check sees) are not brought in as causes. -/
structure EngHw where
  first : Option EngCause
  retry : Option EngCause
  corrected : Nat
  upset : Option BlockUpset := none
  upsetRetry : Option BlockUpset := none
  stream : Stream := .waits
deriving DecidableEq, Repr, Inhabited

/-- The three units of an engine (R50). -/
inductive EngUnit where
  | loader | array | packer
deriving DecidableEq, Repr, Inhabited

/-- The faces of a site or tile position (R229, R528). -/
inductive Face where
  | north | east | south | west
deriving DecidableEq, Repr, Inhabited

/-- A mesh link: at tile position (row, pos) of a physical site toward a face (R240, R528). -/
structure LinkId where
  site : Nat
  row  : Nat
  pos  : Nat
  face : Face
deriving DecidableEq, Repr, Inhabited

/-- What happens to a packet at a router beside its route entry: it has found no credit for 32 cycles (R233), or a flit of it fails its CRC (R244). -/
structure HopEnv where
  starved   : Bool
  parityBad : Bool
deriving DecidableEq, Repr, Inhabited

/-- The outcome of a host read (R301, R311, R317). -/
inductive HostResult where
  | data (bytes : List Byte)
  | ur | ca | poisoned
  | badEcrc (bytes : List Byte)
deriving DecidableEq, Repr, Inhabited

/-- What a host port's link partner supports (R286): lane counts, and rates in units of 0.1 GT/s. -/
structure LinkMode where
  widths : List Nat
  rates  : List Nat
deriving DecidableEq, Repr, Inhabited

/-- A rail of a site (R387). -/
inductive Rail where
  | vc | vs | vb
deriving DecidableEq, Repr, Inhabited

/-- A unit that self-test judges (R443, R456): KIND, PC, PR, TROW, TPOS, FACE, LINK of DEFECT word 0; 5 stands for a router and 6 for a site cache slice, which have
no KIND of their own (log entry 99). -/
structure BadUnit where
  kind : Nat
  pc   : Nat
  pr   : Nat
  trow : Nat
  tpos : Nat
  face : Nat
  link : Nat
deriving DecidableEq, Repr, Inhabited

/-- The kinds of a DDR 5 module (R273). -/
inductive DimmKind where
  | rdimm | mrdimm | udimm
deriving DecidableEq, Repr, Inhabited

/-- A module in a DDR channel as its serial presence detect declares it, how training ended, and the recorded rows whose bank group still has a spare row
(R273, R274, R282). -/
structure Dimm where
  channel   : Nat
  kind      : DimmKind
  gb        : Nat
  by4       : Bool
  eccBits   : Nat
  stack     : Nat
  fails8800 : Bool
  fails6400 : Bool
  spareRows : List Nat
deriving DecidableEq, Repr, Inhabited

/-- What bring-up meets outside itself (R438, R441, R443, R546): straps, references, verification by each service die's own run,
self-test findings, soft starts that fail three times, links that do not train and the failing wires of those that do, modules. -/
structure BringUpEnv where
  vin         : Nat
  strapRecov  : Bool
  strapProv   : Bool
  flashAlive  : Bool
  svaReads    : Bool
  svbChecks   : Bool
  refA        : Bool
  refB        : Bool
  foundBad    : List BadUnit
  suspects    : List BadUnit
  baseFails   : List Nat
  coreFails   : List Nat
  nodeFails   : List Nat
  convFails   : List Nat
  linksDown   : List LinkId
  wires       : List (LinkId × List Nat)
  dimms       : List Dimm
deriving DecidableEq, Repr, Inhabited

/-- Temperatures of a site's three dies (R426): a reading in °C for each die, none where a die gives no reading, and whether two sensors of a die
disagree. -/
structure TempReading where
  comp : Option Nat
  sram : Option Nat
  base : Option Nat
  disagree : Option Nat
deriving DecidableEq, Repr, Inhabited

/-- One millisecond's measurements of a site (R406): currents in 10 mA, branch current in mA, voltages in mV, path resistance in % of
baseline. -/
structure SiteMeas where
  site : Nat
  ivc  : Nat
  ivs  : Nat
  ivb  : Nat
  ibr  : Nat
  vvc  : Nat
  vvs  : Nat
  vvb  : Nat
  vbr  : Nat
  tsub : Nat
deriving DecidableEq, Repr, Inhabited

/-- One millisecond's measurements of a converter (R406). -/
structure ConvMeas where
  conv : Nat
  pout : Nat
  vout : Nat
  vin  : Nat
deriving DecidableEq, Repr, Inhabited

/-- What the power-monitor dies and base dies report for one allocation (R410, R413, R415): panel power and each site's branch power and
compute-rail, SRAM-rail and base-rail power, all in mW, as means over the last millisecond. -/
structure PowerMeas where
  panel : Nat
  sites : List (Nat × Nat × Nat × Nat × Nat)
deriving DecidableEq, Repr, Inhabited

/-- A half of a margin sweep (R484 to R486): its begin, which banks the site, or its end with what the search met: the lowest voltage in mV at which each of the
16 monitors passes at steps 15, 11, 7 and 3, and at which each of the 8 sentinels passes. -/
structure SweepMeas where
  begins : Bool
  at15 : List Nat
  at11 : List Nat
  at7  : List Nat
  at3  : List Nat
  sents : List Nat
deriving DecidableEq, Repr, Inhabited

/-- The end of an update (R460 to R462): 0 where the region has been written and reads back, 9 an erase or program error, 10 a readback mismatch; and the levels of the
recovery and the provision strap, which a restart of bring-up samples then (R546). -/
structure UpdateEnd where
  result : Nat
  strap  : Bool
  prov   : Bool
deriving DecidableEq, Repr, Inhabited

/-- What the meter measures in one second (R510). -/
structure MeterMeas where
  energy : Nat
  pmin   : Nat
  pmax   : Nat
  vmean  : Nat
  imean  : Nat
  tamper : Bool
  range  : Bool
  refFail : Bool
deriving DecidableEq, Repr, Inhabited

/-- A meter record as it is sent (R510): the fields of its body and the signature. -/
structure MeterRec where
  flags  : W16
  seq    : W64
  time   : W64
  boots  : W32
  energy : W64
  pmin   : W32
  pmax   : W32
  vmean  : W32
  imean  : W32
  fwdig  : List Byte
  sig    : List Byte
deriving DecidableEq, Repr, Inhabited

/-- A frame of the meter's one-way link (R512). -/
inductive MeterFrame where
  | record (r : MeterRec)
  | key (bytes : List Byte)
deriving DecidableEq, Repr, Inhabited

/-- A flit slot of a cascade codeword (R349): the flit of a packet by its number, or the header flit with OPC 0x0 of a slot that carries none. -/
inductive CwSlot where
  | idle
  | flit (p : Packet) (k : Nat)
deriving DecidableEq, Repr, Inhabited

/-- A received cascade codeword (R349): whether it decoded, its control field, and its ten flit slots. -/
structure Codeword where
  good  : Bool
  cseq  : BitVec 8
  ack   : BitVec 8
  nak   : Bool
  slots : List CwSlot
deriving DecidableEq, Repr, Inhabited

/-- The partner's side of a cascade training (R352): what passes training and what the partner announces (R348). -/
structure CasPartner where
  width  : Nat
  rate   : Nat
  detok  : Bool
  spare  : Bool
  panel  : Nat
  port   : Nat
  serial : W64
deriving DecidableEq, Repr, Inhabited

/-- An XT.EVT of core `core` (R184, R196): whether the event path accepts an event of the core at once. -/
structure EvtOffer where
  core  : Nat
  taken : Bool
deriving DecidableEq, Repr, Inhabited

/-- Flit `flit` of packet `i` as it reaches the receiver of a link (R208, R241): the CRC it arrives with, and the packets that are in doubt where the link is
declared down for it. -/
structure FlitArrival where
  i       : Nat
  flit    : Nat
  crc     : W16
  inDoubt : List Nat
deriving DecidableEq, Repr, Inhabited

/-- The training of a link that is down (R242): the wires that failed in each group of 64. -/
structure LinkTraining where
  link  : LinkId
  fails : List Nat
deriving DecidableEq, Repr, Inhabited

/-- How an announcement reaches the master (R345, R347): the port it comes through, and the serial numbers of the panels at the announcer's trained links. -/
structure Announcement where
  port     : Nat
  partners : List W64
deriving DecidableEq, Repr, Inhabited

/-- The end of a step stop (R371, R373): how long it took in ns, and whether the PLL locked at the previous step because it failed to at the new one. -/
structure StopEnd where
  ns   : Nat
  back : Bool
deriving DecidableEq, Repr, Inhabited

/-- The commands: one constructor for each row of the opcode table, in the table's order. A tile is named by its tile number N (R16), a core by
0..3, a site by its physical position PC × 16 + PR where its base die acts, a packet by its place in the list of packets in flight, a host port by 0..3. -/
inductive Instr where
  | rvInstruction (t c : Nat) (mismatch : Bool)
  | ecallExit (t c : Nat)
  | coreDone (t c : Nat)
  | xtPut (t c : Nat)
  | xtGet (t c : Nat)
  | xtProbe (t c : Nat)
  | xtEnq (t c : Nat)
  | xtCset (t c : Nat)
  | xtCadd (t c : Nat)
  | xtCarm (t c : Nat)
  | xtCwait (t c : Nat)
  | cwaitResume (t c : Nat)
  | xtEvt (t : Nat) (e : EvtOffer)
  | transferPacketIssue (t : Nat)
  | launchStart (i : Nat)
  | loadTileStart (i : Nat)
  | loadEnd (t : Nat)
  | loadw (t : Nat) (hw : EngHw)
  | mma (t : Nat) (hw : EngHw)
  | store (t : Nat) (hw : EngHw)
  | zero (t : Nat) (hw : EngHw)
  | nop (t : Nat)
  | engineRetire (t : Nat) (u : EngUnit)
  | engCtrlClear (t : Nat)
  | write (i : Nat)
  | writeToOwner (i : Nat)
  | read (i : Nat) (joins : Bool)
  | cnt (i : Nat)
  | rdata (i : Nat)
  | rerr (i : Nat)
  | wack (i : Nat)
  | routerHop (i : Nat) (env : HopEnv)
  | routeEntryRewrite (site idx : Nat)
  | flitRefused (l : LinkId) (a : FlitArrival)
  | linkUp (x : LinkTraining)
  | seamRetrain (l : LinkId) (fails : List Nat)
  | trackerTimeout (t k : Nat)
  | trackerReuse (t k : Nat)
  | baseDieFault (site : Nat)
  | republish (port : Nat)
  | republishDone
  | listAppend (i : Nat)
  | listClose (i : Nat)
  | listArm (i : Nat)
  | scrubAccess (t : Nat) (found : MemErr) (word : Nat)
  | cacheRead (i : Nat) (joins : Bool) (err : MemErr)
  | cacheFillReturn (i : Nat)
  | cacheWrite (i : Nat)
  | maintInvalidateLine (site : Nat)
  | maintInvalidateRange (site : Nat)
  | maintInvalidateAll (site : Nat)
  | maintReserved (site : Nat)
  | ddrChannelDown (ch : Nat)
  | patrolRead (ch burst : Nat) (found : MemErr) (n : Nat)
  | ddrRegionCommit (port p : Nat)
  | prtBevWrite (port k : Nat) (v : W32)
  | portDown (port : Nat)
  | portUp (port : Nat) (mode : LinkMode)
  | functionLevelReset (port : Nat)
  | busMasterDisable (port : Nat)
  | perstRelease (port : Nat) (mode : LinkMode)
  | hostCompletionTimeout (id : Nat)
  | sqTail (port ctx : Nat) (v : W32)
  | cqHead (port ctx : Nat) (v : W32)
  | descriptorFetch (id : Nat) (res : HostResult)
  | nopDescriptor (ctx : Nat)
  | copy (ctx : Nat)
  | launch (ctx : Nat)
  | load (ctx : Nat)
  | wait (ctx : Nat)
  | waitPoll (ctx n : Nat)
  | signal (ctx : Nat)
  | phase (ctx : Nat)
  | barrier (ctx : Nat)
  | fence (ctx : Nat)
  | predict (ctx : Nat)
  | mark (ctx : Nat)
  | reservedOpcode (ctx : Nat)
  | descriptorComplete (ctx n : Nat)
  | ctxSel (port : Nat) (v : W32)
  | configure (port : Nat)
  | release (port : Nat)
  | restart (port ctx : Nat) (doorbell : Bool)
  | restartDone (ctx : Nat)
  | halt (port : Nat)
  | contextFault (i : Nat)
  | stepWatchdog (ctx : Nat)
  | edgeTrackerTimeout (pe k : Nat)
  | evtHead (port : Nat) (v : W32)
  | evtCfg (port : Nat) (v : W32)
  | msixUnmask (port vec : Nat) (v : W32)
  | define (port p : Nat)
  | delete (port p : Nat)
  | warmReset (port p : Nat)
  | warmResetDone (p : Nat) (found suspects : List BadUnit)
  | prtUpdate (port p : Nat)
  | cascadeCodeword (n : Nat) (cw : Codeword)
  | replayTimeout (n : Nat)
  | cascadePortDown (n : Nat) (inDoubt : List Nat)
  | cascadePortUp (n : Nat) (partner : CasPartner)
  | casPcfg (port n : Nat) (v : W32)
  | rickAnnounce (panel : Nat) (serial : W64) (via : Announcement)
  | publish (port : Nat)
  | rickRoutes (gen : Nat)
  | rrestart (port : Nat) (v : W32)
  | timebaseSync (master : Nat)
  | masterLost
  | rickBarrierArrival (panel id : Nat) (count : W32)
  | rickBarrierRelease (id : Nat) (stamp : W64)
  | clkRefLoss (input : Nat)
  | clkRefRestored (input : Nat)
  | edgeHoldoverExpiry (edge : Nat)
  | clkDecoupled (site : Nat) (faces : BitVec 4)
  | clkRecoupled (site : Nat)
  | timeMessage (site : Nat) (rate : Nat)
  | stepChange (site k : Nat)
  | railSettled (site : Nat)
  | stepStopEnd (site : Nat) (x : StopEnd)
  | clkStepFault (site : Nat)
  | clkCeil (port p : Nat) (v : W32)
  | bank (port : Nat) (v : W32)
  | unbank (port : Nat) (v : W32)
  | bankReturn (site : Nat)
  | inputWarn (mv us : Nat)
  | orderlyStop (mv : Nat)
  | inputHigh (mv : Nat)
  | inputOvervoltage (mv : Nat)
  | inputLoss (mv : Nat)
  | pwrInRestored (mv : Nat)
  | converterFail (g : Nat)
  | phaseLost (site ph : Nat)
  | reservoirEngage (site : Nat) (rail : Rail) (stillLow : Bool)
  | fastBubbleEnd (site : Nat)
  | railDip (site : Nat) (rail : Rail) (depth ns : Nat)
  | dipLimitRise (site : Nat)
  | railReset (site : Nat) (rail : Rail) (depth : Nat)
  | inputSwitchOpen (site cause : Nat) (rail : Rail)
  | pathAnomaly (site ratio : Nat)
  | clearPath (port : Nat)
  | isolate (port : Nat)
  | restore (port : Nat)
  | softStart (site : Nat)
  | softStartDone (site : Nat)
  | softStartAbandon (site : Nat)
  | softStartRetry (site : Nat)
  | telemetryTick (sites : List SiteMeas) (convs : List ConvMeas)
  | pwrCap (port : Nat) (v : W32)
  | budgetAllocation (m : PowerMeas)
  | paceLock (port p : Nat) (v : W32)
  | pacerUpdate (site m mv : Nat)
  | capLimitUpdate (site : Nat)
  | clearProfiles (port p : Nat)
  | profileMirror
  | tempSample (site : Nat) (r : TempReading)
  | thermalTurn
  | thmUnbank (site : Nat)
  | thmOn (site : Nat)
  | telHead (port : Nat) (v : W32)
  | telCfg (port : Nat) (v : W32)
  | coldPowerOn (env : BringUpEnv)
  | ready
  | svBTakeover
  | panelReset (port : Nat) (env : BringUpEnv)
  | settingsCommit (port : Nat)
  | update (port : Nat)
  | updateDone (x : UpdateEnd)
  | siteRejoin (site : Nat)
  | siteRejoined (site : Nat) (found suspects : List BadUnit) (wires : List (LinkId × List Nat))
  | learnedAppend
  | logFlush
  | selfTestSlice (t : Nat) (passed : Bool)
  | healthHourly
  | confirmingRetestDone (t : Nat) (passed : Bool)
  | remap (port : Nat) (v : W32)
  | tileRemapStopEnd (site : Nat)
  | retire (port : Nat) (v : W32)
  | keep (port : Nat) (v : W32)
  | hole (port : Nat) (v : W32)
  | clear (port : Nat) (v : W32)
  | treset (port : Nat) (v : W32)
  | sreset (port : Nat) (v : W32)
  | computeResetDone (site : Bool) (x : Nat)
  | svHeartbeat
  | svFailover (reported : Bool)
  | svStandbyLost (reported : Bool)
  | svLost
  | svReset (port : Nat) (v : W32)
  | svRestored (aOk bOk : Bool)
  | sweepGrant (port : Nat) (v : W32)
  | marginSweep (site : Nat) (m : SweepMeas)
  | marginOverdue (site : Nat)
  | loadClassUpdate (site : Nat) (busyPct : Nat) (surged : Bool)
  | cellCeilingRise (site cell : Nat)
  | hltSclr (port : Nat) (v : W32)
  | hltEclr (port : Nat) (v : W32)
  | hltDbclr (port : Nat) (v : W32)
  | hltLsel (port : Nat) (v : W32)
  | challenge (port : Nat)
  | challengeExpiry (port : Nat)
  | sesOpen (port : Nat)
  | lockoutExpiry (port : Nat)
  | sesClose (port : Nat)
  | sessionDeadline (entry : Nat)
  | attest (port : Nat)
  | pubkey (port : Nat)
  | armOwner (port : Nat)
  | armSvn (port : Nat)
  | commitFuse (port : Nat)
  | meterRecord (m : MeterMeas)
  | mtrSeal
  | meterFrame (f : MeterFrame)
  | mtrLinkLost
  | mtrSelect (port : Nat) (v : W32)
  | mtrRhead (port : Nat) (v : W32)
  | mtrRcfg (port : Nat) (v : W32)
  | dbgRead (port : Nat)
  | dbgWrite (port : Nat)
  | dbgLock (port : Nat) (v : W32)
  | dbgTest (port : Nat) (v : W32)
  | registerWrite (port bar off width : Nat) (v : W64)
  | hostReadCompletion (id : Nat) (res : HostResult)
  | pathBaselineFrozen (site base : Nat)
  | sweepWindowEnd
  | settingsCommitDone
  | deleteDone (p : Nat)
  | rrestartDone
  | fuseArmExpiry (port : Nat)
deriving DecidableEq, Repr

end Sys2Proof
end

