-- ==== Sys2Proof/Config.lean ====
section
/-! DEFINITION. What an implementation fixes and the manual leaves open: opaque constants without a body, so that no proof can
rest on a value of one. -/

namespace Sys2Proof.Config

/-- A free byte, for a byte the manual leaves unpredictable although the step that meets it goes on. The argument is the
free-value counter of the state, read and advanced by the step (log entry 3). -/
opaque freeByte : Nat → Byte

/-- A free 32-bit value (log entry 3). -/
opaque free32 : Nat → W32

/-- A free 64-bit value (log entry 3). -/
opaque free64 : Nat → W64

/-- A free number (log entry 3). -/
opaque freeNat : Nat → Nat

/-- Free writes, as places and values: what a driver error of R61 or R331 may leave behind (log entry 53). -/
opaque freePuts : Nat → List (Nat × Nat)

/-- A free bit (log entry 3). -/
opaque freeBool : Nat → Bool

/-- What DATA1 of RETIRE_DEFERRED holds, in hours since the row's last automatic retirement, where the row has had none: the manual does not say. The
argument is the time of the event (R474; log entry 5). -/
opaque hoursOfNone : Nat → W32

/-- The faces that the service die's tables name for a destination (R229, R234): the manual gives the layout of an entry, what a router does with it and what
every set of tables must achieve, and leaves the choice of faces to the service die. Arguments: the publication (a count of publications), the site remap
and the DARK sites for which it was computed, the physical site, and the destination index (0..255 site, 256 + edge id); the value is VALID in bit 14 and
P0, P1, D0, D1 in [13:11], [10:8], [7:5], [4:2]. A router uses a set only where it achieves what R232 to R236 ask (log entry 8). -/
opaque routeFaces : Nat → List (Nat × List Nat) → List Nat → Nat → Nat → BitVec 15

/-- The faces' permitted cascade edge die toward another panel, chosen by the master (R355): publication, destination panel. The value
holds VALID in bit 12, EDGE in [11:6] and ALT in [5:0] (log entry 8). -/
opaque rickRoute : Nat → Nat → BitVec 13

/-- The mask of its own ports that a cascade edge die holds toward a panel (R355): publication, edge id, destination panel
(log entry 8). -/
opaque rickPortMask : Nat → Nat → Nat → BitVec 4

/-- ML-DSA-65 verification in the pure form with an empty context string (R495): public key, message, signature. A
standard's function that the manual names and does not spell out (log entry 6). -/
opaque mldsaVerify : List Byte → List Byte → List Byte → Bool

/-- The signature that the panel's identity key makes over the given bytes (R496). -/
opaque identitySign : List Byte → List Byte

/-- The panel's identity public key, 1,952 bytes, derived from a fused seed (R496). -/
opaque identityKey : List Byte

/-- Guldaden's firmware key in the mask ROM of the service dies (R497). -/
opaque firmwareKey : List Byte

/-- The sealed meter's public key (R508). -/
opaque meterKey : List Byte

/-- The signature that the meter's own key makes over a record body (R510). -/
opaque meterSign : List Byte → List Byte

/-- SHAKE256 digests of the service-die mask ROM, the tile boot ROM and the meter's mask ROM (R498, R510). -/
opaque svRomDigest : List Byte
opaque tileRomDigest : List Byte
opaque meterRomDigest : List Byte

/-- The panel's serial number, from its fuses (R522). -/
opaque serial : W64

/-- SPI_DEV: log2 of the serial memory's bytes in [31:24] and its bus clock in MHz in [23:16], as the device declares them (R450, R463). -/
opaque spiDev : W32

/-- The silicon stepping, MAJOR in [15:8] and MINOR in [7:0], from its fuses (R522). -/
opaque stepping : W16

/-- The fuse defect map, written at manufacture and never changed (R444): DEFECT words 0 as R456 lays them out. -/
opaque fuseDefects : List W64

/-- The baseline path resistance of a physical site in micro-ohms, as manufacturing test measured it (R401). -/
opaque pathBaseline : Nat → W16

end Sys2Proof.Config
end

