-- ==== Sys2Proof/Machine/Table.lean ====
section
/-! DEFINITION. Sparse tables as sorted association lists in one canonical form: keys strictly rising, and no entry equal to the
value that an unlisted key reads as. Every memory, register file and per-tile or per-site collection of the state is one. -/

namespace Sys2Proof.Machine

/-- A sparse table keyed by a number. -/
abbrev Tbl (α : Type) := List (Nat × α)

/-- The entry at a key, or the default of the table. -/
def tget {α : Type} (d : α) : Tbl α → Nat → α
  | [], _ => d
  | (k', v) :: m, k => if k = k' then v else tget d m k

/-- Puts a value into a table without regard to the default. -/
def tins {α : Type} (m : Tbl α) (k : Nat) (v : α) : Tbl α :=
  match m with
  | [] => [(k, v)]
  | (k', v') :: r =>
    if k = k' then (k, v) :: r
    else if k < k' then (k, v) :: (k', v') :: r
    else (k', v') :: tins r k v

/-- Removes a key from a table. -/
def tdel {α : Type} (m : Tbl α) (k : Nat) : Tbl α :=
  match m with
  | [] => []
  | (k', v') :: r =>
    if k = k' then tdel r k
    else (k', v') :: tdel r k

/-- Writes a table in its canonical form: writing the default removes the entry. -/
def tput {α : Type} [DecidableEq α] (d : α) (m : Tbl α) (k : Nat) (v : α) : Tbl α :=
  if v = d then tdel m k else tins m k v

/-- Applies a function to the entry at a key. -/
def tmod {α : Type} [DecidableEq α] (d : α) (m : Tbl α) (k : Nat) (f : α → α) : Tbl α :=
  tput d m k (f (tget d m k))

/-- Applies a function to every entry, keeping the canonical form. -/
def tmap {α : Type} [DecidableEq α] (d : α) (f : α → α) : Tbl α → Tbl α
  | [] => []
  | (k, v) :: m => if f v = d then tmap d f m else (k, f v) :: tmap d f m

/-- Every key of the table lies above a bound and rises, and no entry is the default. -/
def tWfFrom {α : Type} [DecidableEq α] (d : α) : Nat → Tbl α → Bool
  | _, [] => true
  | lo, (k, v) :: m => decide (lo ≤ k) && decide (v ≠ d) && tWfFrom d (k + 1) m

/-- The canonical form of a table. -/
def tWf {α : Type} [DecidableEq α] (d : α) (m : Tbl α) : Bool := tWfFrom d 0 m

/-- A memory: bytes by address (Host.Cell), 0 where nothing is listed (R258, R438: every memory of the panel is zeroed before
use). -/
abbrev Mem := Tbl Byte

/-- One byte of a memory. -/
def memGet (m : Mem) (a : Nat) : Byte := tget (0 : Byte) m a

/-- Writes one byte of a memory. -/
def memPut (m : Mem) (a : Nat) (b : Byte) : Mem := tput (0 : Byte) m a b

/-- Writes consecutive bytes from an address upward. -/
def memPutList (m : Mem) (a : Nat) : List Byte → Mem
  | [] => m
  | b :: bs => memPutList (memPut m a b) (a + 1) bs

/-- Reads consecutive bytes from an address upward. -/
def memGetList (m : Mem) (a : Nat) : Nat → List Byte
  | 0 => []
  | n + 1 => memGet m a :: memGetList m (a + 1) n

/-- The canonical form of a memory. -/
def Memory.wf (m : Mem) : Bool := tWf (0 : Byte) m

/-- A little-endian word of `n` bytes from a list of bytes. -/
def leWord : List Byte → Nat
  | [] => 0
  | b :: bs => b.toNat + 256 * leWord bs

/-- The `n` low bytes of a number, little-endian. -/
def leBytes : Nat → Nat → List Byte
  | 0, _ => []
  | n + 1, v => BitVec.ofNat 8 v :: leBytes n (v / 256)

/-- Reads `n` bytes of a memory as a little-endian number. -/
def memWord (m : Mem) (a n : Nat) : Nat := leWord (memGetList m a n)

/-- Writes the `n` low bytes of a number, little-endian. -/
def memPutWord (m : Mem) (a n v : Nat) : Mem := memPutList m a (leBytes n v)

/-- The entry of a list at a place, or a default. -/
def lget {α : Type} (d : α) : List α → Nat → α
  | [], _ => d
  | x :: _, 0 => x
  | _ :: xs, n + 1 => lget d xs n

/-- Replaces the entry of a list at a place; a place beyond the list changes nothing. -/
def lset {α : Type} : List α → Nat → α → List α
  | [], _, _ => []
  | _ :: xs, 0, y => y :: xs
  | x :: xs, n + 1, y => x :: lset xs n y

/-- Removes the entry of a list at a place. -/
def ldel {α : Type} : List α → Nat → List α
  | [], _ => []
  | _ :: xs, 0 => xs
  | x :: xs, n + 1 => x :: ldel xs n

/-- The entry of a list at a place, if there is one. -/
def lget? {α : Type} : List α → Nat → Option α
  | [], _ => none
  | x :: _, 0 => some x
  | _ :: xs, n + 1 => lget? xs n

/-- `a, a + 1, …`, `n` numbers. -/
def rangeFrom (a : Nat) : Nat → List Nat
  | 0 => []
  | n + 1 => a :: rangeFrom (a + 1) n

/-- The smaller of two numbers of a list, starting from a bound. -/
def lmin (d : Nat) : List Nat → Nat
  | [] => d
  | x :: xs => lmin (if x < d then x else d) xs

/-- The larger of two numbers of a list, starting from a bound. -/
def lmax (d : Nat) : List Nat → Nat
  | [] => d
  | x :: xs => lmax (if d < x then x else d) xs

/-- The sum of a list. -/
def lsum : List Nat → Nat
  | [] => 0
  | x :: xs => x + lsum xs

/-- Division rounded up; 0 where the divisor is 0. -/
def ceilDiv (a b : Nat) : Nat := (a + b - 1) / b

/-- Adds to a count that saturates at 0xFFFF_FFFF (R527, R283). -/
def satAdd (c : W32) (n : Nat) : W32 :=
  if c.toNat + n < 4294967296 then BitVec.ofNat 32 (c.toNat + n) else 0xFFFFFFFF#32

/-- Adds to a count that saturates at 0xFFFF (R172, R407). -/
def satAdd16 (c : W16) (n : Nat) : W16 :=
  if c.toNat + n < 65536 then BitVec.ofNat 16 (c.toNat + n) else 0xFFFF#16

/-- Bits [hi:lo] of a word as a number. -/
def bitsOf {w : Nat} (x : BitVec w) (hi lo : Nat) : Nat := (x.toNat / 2 ^ lo) % 2 ^ (hi + 1 - lo)

/-- Bit `i` of a word. -/
def bitOf {w : Nat} (x : BitVec w) (i : Nat) : Bool := x.getLsbD i

/-- A bit as a number. -/
def b2n (b : Bool) : Nat := if b then 1 else 0

/-- The number of set bits among the lowest `n` bits. -/
def popBelow {w : Nat} (x : BitVec w) : Nat → Nat
  | 0 => 0
  | n + 1 => popBelow x n + b2n (x.getLsbD n)

/-- The number of set bits of a word. -/
def popcount {w : Nat} (x : BitVec w) : Nat := popBelow x w

/-- A number of `n` bits read as a signed number. -/
def toSigned (n v : Nat) : Int := if v % 2 ^ n < 2 ^ (n - 1) then (v % 2 ^ n : Nat) else ((v % 2 ^ n : Nat) : Int) - ((2 ^ n : Nat) : Int)

/-- A signed number as `n` bits. -/
def ofSigned (n : Nat) (v : Int) : BitVec n := BitVec.ofInt n v

end Sys2Proof.Machine
end

