-- ==== Sys2Proof/Machine/State.lean ====
section
/-! DEFINITION. The state of the panel as plain data: everything the manual gives it, each field with its value after cold power-on
as its default, and the queue of waiting commands. -/

namespace Sys2Proof.Machine

/-! ### Tiles: cores, engine, list ports, trackers -/

/-- The states of a small core (R174). -/
inductive CoreSt where
  | idle | run | wait | done | trap | stop
deriving DecidableEq, Repr, Inhabited

/-- A transfer in a core's queue (R185, R187): what is left of it to issue. -/
structure Transfer where
  put    : Bool
  remote : W64
  local_ : Nat
  left   : Nat
  ctr    : Nat
  last   : Bool
  total  : W32
  lden   : Bool
  lctr   : Nat
  pc     : W64
deriving DecidableEq, Repr, Inhabited

/-- The privilege modes of a core (R167). -/
inductive Priv where
  | user | machine
deriving DecidableEq, Repr, Inhabited

/-- A program event that a core has raised and the event path has not accepted (R184, R196): code, payload, and the context and epoch it is raised for. -/
structure ProgEvt where
  code    : Nat
  payload : W64
  ctx     : Option (Nat × Nat)
  /-- When it arose, and the partition of its tile then (R328). -/
  at_     : Nat := 0
  part    : Nat := 0
deriving DecidableEq, Repr, Inhabited

/-- One small core (R167 to R177, R207). -/
structure Core where
  /-- Integer registers x1 to x31 (R167, R173). -/
  x : Tbl W64 := []
  /-- Floating-point registers f0 to f31, binary32 (R167, R173). -/
  f : Tbl W32 := []
  /-- Vector registers v0 to v31, VLEN 256 (R168, R173). -/
  v : Tbl (BitVec 256) := []
  /-- Program counter (R173). -/
  pc : W64 := 0
  /-- fcsr: frm in [7:5], fflags in [4:0] (R173). -/
  fcsr : BitVec 8 := 0
  /-- vl (R173). -/
  vl : Nat := 0
  /-- vtype; vill is bit 63 (R173). -/
  vtype : W64 := 0x8000000000000000#64
  /-- vstart (R168). -/
  vstart : Nat := 0
  /-- vcsr: vxrm in [2:1], vxsat in [0] (R168). -/
  vcsr : BitVec 3 := 0
  /-- Machine mode or user mode, and the machine CSRs of a trap: mstatus, mepc, mcause, mtval (R167, R173, R176). -/
  priv : Priv := .machine
  mstatus : W64 := 0
  mepc : W64 := 0
  mcause : W64 := 0
  mtval : W64 := 0
  /-- The program event that the event path has not accepted yet (R184, R196). -/
  evt : Option ProgEvt := none
  /-- The reservation of LR: the address and size it covers (R179). -/
  resv : Option (Nat × Nat) := none
  /-- A write that no core makes has met the reserved bytes since (R179). -/
  resvHit : Bool := false
  /-- The cycle CSR: cycles since compute reset (R172). -/
  cycle : W64 := 0
  /-- The instret CSR: instructions retired since compute reset (R172). -/
  instret : W64 := 0
  /-- xtgerr.ERR, the first status and the count of error completions (R172). -/
  gerrErr : Bool := false
  gerrStatus : BitVec 8 := 0
  gerrCount : W16 := 0
  /-- CORE_STAT.STATE (R174, R207). -/
  st : CoreSt := .idle
  /-- CORE_STAT.NOSTART (R205, R207). -/
  nostart : Bool := false
  /-- CORE_STAT.CAUSE (R207). -/
  cause : BitVec 8 := 0
  /-- CORE_STAT.EXIT (R175, R207). -/
  exit : W16 := 0
  /-- CORE_EPC (R176, R207). -/
  epc : W32 := 0
  /-- CORE_TVAL (R176, R207). -/
  tval : W32 := 0
  /-- CORE_CTX: VALID, PARTITION, EPOCH, CONTEXT; xtctx reads the same fields (R172, R207). -/
  ctxv : Bool := false
  part : Nat := 0
  epoch : Nat := 0
  ctx : Nat := 0
  /-- The LAUNCH that started the core, by its count on the ring, while that LAUNCH reports its end (R307, R312). -/
  launch : Option W32 := none
  /-- The transfer queue, oldest first, at most 4 (R184). -/
  tq : List Transfer := []
  /-- The counter a core in WAIT awaits and the register that takes its VALUE (R193). -/
  waiting : Option (Nat × Nat) := none
  /-- The program has executed its ending ECALL and its transfer queue is not yet empty (R175). -/
  ending : Bool := false
  /-- PRD_POLICY: MODE and AUDN (R134). -/
  mode : Nat := 0
  audn : Nat := 0
  /-- PRD_THETA (R134). -/
  theta : W32 := 0
deriving DecidableEq, Repr, Inhabited

/-- A completion counter (R181). -/
structure Ctr where
  value  : W32 := 0
  target : W32 := 0
deriving DecidableEq, Repr, Inhabited

/-- An engine command in the queue: its four words, and the core, context and policy it was enqueued with (R49, R133, R156). -/
structure EngCmd where
  w0   : W64
  w1   : W64
  w2   : W64
  w3   : W64
  core : Nat
  ctx  : Nat
  mode : Nat
  audn : Nat
deriving DecidableEq, Repr, Inhabited

/-- A panel slot of the operand buffer (R43, R58): filled by a LOADW that may not have retired yet. Elements, position codes and scales are
kept by K position and column, k × 64 + n. -/
structure Slot where
  /-- A LOADW to the slot has retired since the last clear (R43). -/
  loaded : Bool := false
  etype : Nat := 0
  fmt : Nat := 0
  klen : Nat := 0
  /-- Raw elements by stored row × 64 + column (R43, R108). -/
  elems : Tbl W32 := []
  /-- S24 position codes by group row × 64 + column (R108). -/
  codes : Tbl (BitVec 4) := []
  /-- MX scale bytes by K group × 64 + column; 0x7F, exponent 0, where the block has none (R83 to R85). -/
  scales : Tbl Byte := []
  /-- The special flags by K group (R115). -/
  special : Tbl Bool := []
deriving DecidableEq, Repr, Inhabited

/-- How a command fares: it runs, it runs on its retry, or it halts the engine with a cause (R73, R76). -/
inductive Fare where
  | runs
  | retried (c : EngCause)
  | halts (c : EngCause)
deriving DecidableEq, Repr, Inhabited

/-- A command dispatched to a unit and not yet retired or faulted (R50 to R53, R77). It reads, and its results are formed, when it ends (log entry 7). -/
structure Running where
  cmd : EngCmd
  /-- What the hardware does to it (R73 to R76). -/
  hw : EngHw := { first := none, retry := none, corrected := 0 }
  /-- An uncorrectable word that its dispatch has read (R73). -/
  own : Option EngCause := none
  /-- Of an MMA: its effective M (R55), its effective mask (R136), its panel (R43), and its path, none where it has no choice of one: true is sparse (R120). -/
  rows : Nat := 0
  cols : W64 := BitVec.allOnes 64
  panel : Slot := {}
  path : Option Bool := none
  /-- What a STORE writes at its retirement: its block and its mask word (R59, R69, R70). -/
  block : List Byte := []
  mask : Option W64 := none
  /-- A driver error under R61. -/
  bad : Bool := false
  /-- The words of tile SRAM that it reads and that have changed since it dispatched (R52). -/
  hits : List Nat := []
deriving DecidableEq, Repr, Inhabited

/-- The matrix engine of a tile (R40 to R79, R123). -/
structure Engine where
  queue : List EngCmd := []
  loader : List Running := []
  array : List Running := []
  packer : List Running := []
  slot0 : Slot := {}
  slot1 : Slot := {}
  /-- Accumulator words by row × 64 + column (R48). -/
  acc : Tbl W32 := []
  /-- Class bits by row: true for INT (R48). -/
  cls : Tbl Bool := []
  /-- ENG_STATUS.HALT, CAUSE and FTAG (R77, R79). -/
  halt : Bool := false
  cause : Option EngCause := none
  ftag : Byte := 0
  /-- ENG_CTRL.RETRY_EN (R79). -/
  retryEn : Bool := true
  retired : W32 := 0
  skipped : W32 := 0
  retries : W32 := 0
  corrected : W32 := 0
  busycyc : W32 := 0
  discard : W32 := 0
  spath : W32 := 0
  dpath : W32 := 0
  deadpass : W32 := 0
deriving DecidableEq, Repr, Inhabited

/-- A list port (R157 to R162). -/
structure ListPort where
  base : Nat := 0
  cap : Nat := 0
  obase : Nat := 0
  ocap : Nat := 0
  en : Bool := false
  nsrc : Nat := 0
  actr : Nat := 0
  dctr : Nat := 0
  closed : Bool := false
  excess : Bool := false
  closes : Nat := 0
  acc : W32 := 0
  ovf : W32 := 0
  drop : W32 := 0
  sent : W32 := 0
  /-- The first drop since arming (or compute reset) has raised its event (R161). -/
  dropSeen : Bool := false
deriving DecidableEq, Repr, Inhabited

/-- The state of an outstanding-request tracker (R226 to R228). -/
inductive TrkSt where
  | free | live | ended
deriving DecidableEq, Repr, Inhabited

/-- A tracker of a tile: local range, counter, core, context, epoch and SEQ of its READ (R226). -/
structure Trk where
  st : TrkSt := .free
  /-- The local address where the response's bytes go (R178, R189). -/
  local_ : Nat := 0
  len : Nat := 0
  ctr : Nat := 0
  core : Nat := 0
  /-- The READ belongs to the image loader (R190, R203). -/
  loader : Bool := false
  part : Nat := 0
  ctx : Nat := 0
  epoch : Nat := 0
  seq : W16 := 0
  /-- The time at which the READ was issued or the tracker ended (R227, R228). -/
  since : Nat := 0
deriving DecidableEq, Repr, Inhabited

/-- A LOAD at a tile: the request of a LOAD descriptor (R202 to R206, R313). -/
structure LoadReq where
  tile : Nat
  ctx : Nat
  part : Nat
  epoch : Nat
  n : W32
  src : W64
  scratch : Bool
  cores : Nat
  sitelocal : Bool
  doff : Nat
  len : Nat
  digest : List Byte
deriving DecidableEq, Repr, Inhabited

/-- The image loader of a tile (R203 to R207). -/
structure Loader where
  cur : Option LoadReq := none
  waiting : List LoadReq := []
  /-- Bytes asked for and bytes hashed of the running load, and the pieces that arrived ahead of a gap, as offsets and lengths (R203). -/
  asked : Nat := 0
  hashed : Nat := 0
  ahead : List (Nat × Nat) := []
  image : Mem := []
  readErr : Bool := false
  abort : Bool := false
  /-- LD_STATUS.STATE and CORES, LD_BYTES (R207). -/
  status : Nat := 0
  lastCores : Nat := 0
  bytes : W32 := 0
deriving DecidableEq, Repr, Inhabited

/-- A line of the merge buffer (R247). -/
abbrev MergeLine := Nat

/-- Tile states (R30). -/
inductive TileSt where
  | active | suspect | fenced | hole
deriving DecidableEq, Repr, Inhabited

/-- One tile, under its tile number N (R16, R17). -/
structure Tile where
  st : TileSt := .active
  /-- TILE_STATE.GUARDED: guarded mode in force (R197, R207). -/
  guarded : Bool := false
  cores : Tbl Core := []
  ctrs : Tbl Ctr := []
  eng : Engine := {}
  lists : Tbl ListPort := []
  trks : Tbl Trk := []
  ld : Loader := {}
  /-- Tile SRAM, 1.5 MiB (R251). -/
  sram : Mem := []
  /-- Private scratch of cores 0 to 3 at n × 0x1_0000 (R34, R178). -/
  scr : Mem := []
  /-- The checkers' copies of scratch in guarded mode (R199). -/
  scrCopy : Mem := []
  /-- Uncorrectable words of tile SRAM by word number, and of scratch (R254). -/
  badSram : List Nat := []
  badScr : List Nat := []
  /-- Words that hold a single-bit error no read has met yet, by word number, scratch from 196,608 upward (R182, R253). -/
  flips : List Nat := []
  /-- Predict records whose execution is open, each with the core and the context that opened it (R128, R131). -/
  opened : List (Nat × Nat × Nat) := []
  /-- Lines held in the merge buffer, oldest first, at most 8 (R247). -/
  merge : List MergeLine := []
  /-- The core whose transfer queue is served next (R190). -/
  rotor : Nat := 0
  /-- SEQ stream of each context (R211). -/
  seqs : Tbl W16 := []
  scrCorr : W32 := 0
  sramCorr : W32 := 0
  sramUncorr : W32 := 0
  /-- SRAM_ERRADDR, in 8-byte units, kept across compute reset; none recorded yet (R254, R259). -/
  errAddr : Nat := 0
  errSeen : Bool := false
  scrubPass : W32 := 0
  /-- Accesses made in the scrubber's present pass (R256, R257). -/
  scrubAt : Nat := 0
  fabStale : W32 := 0
  fabLate : W32 := 0
  fabTimeout : W32 := 0
  fabServed : W32 := 0
  fabMerged : W32 := 0
  fabBadaddr : W32 := 0
  prdExec : W32 := 0
  prdSkipcol : W32 := 0
  prdProbes : W32 := 0
  prdProbepos : W32 := 0
  prdMadeup : W32 := 0
  prdAudits : W32 := 0
  prdAudpred : W32 := 0
  prdAudseen : W32 := 0
  prdAudlost : W32 := 0
  prdAudfalse : W32 := 0
  /-- A compute reset of the tile is running (R477). -/
  resetting : Bool := false
  /-- Health score (R471). -/
  score : Nat := 255
  /-- HLT_TSTAT.CAND, RETEST, DEFER, LASTCAUSE (R491). -/
  cand : Bool := false
  retest : Bool := false
  defer_ : Bool := false
  lastCause : Nat := 0
  /-- How the tile became a candidate, and by which command a retest runs (R473 to R476): 1 score, 2 self-test slice; retest of 0 automatic
  path, 1 deferred slice, 2 RETIRE, 3 CLEAR. -/
  candBy : Nat := 0
  retestOf : Nat := 0
  /-- The time of the last penalty or rise, and the corrections counted when the running hour began (R471). -/
  quietSince : Nat := 0
  corrBase : Nat := 0
  /-- The time of the last self-test slice (R469); what a missing service die leaves to be looked at: 0 nothing, 1 the score, 2 a failed slice (R482); when
  RETIRE_DEFERRED was last raised (R474); the cell and step at which a failed slice arose (R490). -/
  sliceAt : Option Nat := none
  due : Nat := 0
  deferAt : Nat := 0
  detCell : Nat := 0
  detStep : Nat := 0
deriving DecidableEq, Repr, Inhabited

/-! ### Sites -/

/-- Site states (R28). -/
inductive SiteSt where
  | active | banked | held | reset | off | dark
deriving DecidableEq, Repr, Inhabited

/-- A line of a site cache slice (R260): bits [63:8] of its address, its way, its bytes, and whether a READ has read the array for it since it was
installed or written, so that a coinciding READ can join that one (R249). -/
structure CLine where
  line : Nat
  way : Nat
  bytes : Mem
  fresh : Bool := false
deriving DecidableEq, Repr, Inhabited

/-- A fill buffer (R264): the line, the READs joined to the fill, the bytes of WRITEs that met it, and whether its line was invalidated. -/
structure Fill where
  line : Nat
  joined : List Packet
  patch : Mem
  patchMask : List Nat
  dropped : Bool
deriving DecidableEq, Repr, Inhabited

/-- The site cache slice and its maintenance queue (R260 to R272). -/
structure Cache where
  lines : List CLine := []
  /-- Tree pseudo-LRU bits of each set (R260). -/
  plru : Tbl (BitVec 15) := []
  fills : List Fill := []
  /-- Queued maintenance commands: their packets (R270). -/
  mq : List Packet := []
  hits : W32 := 0
  misses : W32 := 0
  merged : W32 := 0
  corr : W32 := 0
  refetch : W32 := 0
  inval : W32 := 0
deriving DecidableEq, Repr, Inhabited

/-- Phases of a step change (R371): none, waiting for the raised voltage, in the stop. -/
inductive StepPh where
  | none | volt | stop
deriving DecidableEq, Repr, Inhabited

/-- The state of a site's input switch (R407). -/
inductive SwSt where
  | on | softstart | off | isolated
deriving DecidableEq, Repr, Inhabited

/-- Soft-start progress of a site (R403 to R405, R448): none, waiting its turn, ramping, abandoned. -/
inductive SoftSt where
  | none | queued | ramping | abandoned
deriving DecidableEq, Repr, Inhabited

/-- Why a soft start runs (R403): a return from OFF for heat, for a VS reset, a RESTORE or a base-die reset. -/
inductive SoftFor where
  | rejoin | heat | vsReset
deriving DecidableEq, Repr, Inhabited

/-- The pacer's mode (R421, R434). -/
inductive PaceMode where
  | bubbles | draught
deriving DecidableEq, Repr, Inhabited

/-- The drop counts of a site (R526, R527): HLT_SPART, SDROP, SNOROUTE, SHOP, SPAR, SSTALE, and the first-drop marks. -/
structure SiteCnt where
  spart : W32 := 0
  sdrop : W32 := 0
  snoroute : W32 := 0
  shop : W32 := 0
  spar : W32 := 0
  sstale : W32 := 0
  sdropSeen : Bool := false
  snorouteSeen : Bool := false
deriving DecidableEq, Repr, Inhabited

/-- A site's node, step and banking (R363 to R382). -/
structure SiteClk where
  /-- SC_NODE.PRESENT and COUPLED, SC_STEP.DECOUPLED and HOLD (R381). -/
  present : BitVec 4 := 0
  coupled : BitVec 4 := 0
  decoupled : Bool := false
  hold : Bool := false
  /-- A node that dropped all its neighbours free-runs (R375). -/
  freeRun : Bool := false
  /-- The step is held for a loss of coupling, until the node recouples (R375, R376). -/
  lossHold : Bool := false
  /-- The rate of a free-running node in parts per million as last measured (R377). -/
  tickRate : Nat := 1000000
  /-- SC_STEP.CUR and REQ, the running change, the step before it, the request kept for later, and the places of both in the order of requests (R371,
  R372, R373, R381). -/
  cur : Nat := 0
  req : Nat := 0
  ph : StepPh := .none
  prev : Nat := 0
  nextReq : Option Nat := none
  reqTurn : Nat := 0
  chgTurn : Nat := 0
  /-- SC_STEP.LIMITBY, SC_STEPCNT, SC_STOPLAST (R381), and the end of the last stop (R372). -/
  limitBy : Nat := 0
  stepCnt : W32 := 0
  stopLast : W16 := 0
  stopAt : Nat := 0
  lastStop : Option Nat := none
  /-- Routers on the bridge clock after a PLL that failed twice (R373). -/
  pllBad : Bool := false
  /-- What banks the site: driver, heat, path (PATHBANK), margin sweep, spare (R380, R402, R426, R485, R26); a return that is running. -/
  bankDrv : Bool := false
  bankHeat : Bool := false
  bankPath : Bool := false
  bankSweep : Bool := false
  bankSpare : Bool := false
  returning : Bool := false
  /-- The limits of R370 as they last were, and the order in which each reached its value. -/
  lims : List Nat := []
  limAt : List Nat := []
  /-- Cap, pace-lock, thermal and dip limits (R370, R396, R423, R424, R427), and the thermal draught k of R428. -/
  capLim : Nat := 15
  paceLim : Nat := 15
  thmLim : Nat := 15
  dipLim : Nat := 15
  thmK : Nat := 16
deriving DecidableEq, Repr, Inhabited

/-- A site's power stage (R387 to R407). -/
structure SitePwr where
  /-- PWR_SITESTAT.SW and the cause of isolation (R400, R407, R408). -/
  sw : SwSt := .off
  isoCause : Nat := 0
  /-- PHFAIL, and the rail of each phase: 0 VC, 1 VS, 2 VB, 3 switched out (R387, R390). -/
  phFail : BitVec 12 := 0
  phRail : List Nat := [0, 0, 0, 0, 0, 0, 0, 0, 1, 1, 2, 2]
  /-- Setpoints VC, VS, VB in mV, and whether the rails are settled (R387 to R389). -/
  vc : Nat := 0
  vs : Nat := 0
  vb : Nat := 0
  settled : Bool := true
  settleAt : Nat := 0
  /-- PATHLIM, the baseline of the path in micro-ohms where refinement replaced the manufactured one, RATIO, and the 72 h refinement
  (R401, R402, R407). -/
  pathLim : Bool := false
  pathBase : Option W16 := none
  pathRatio : Nat := 100
  refining : Bool := true
  refineSince : Nat := 0
  /-- When the reservoirs of VC and VS last engaged (R393), and fast bubbles in force (R394). -/
  resVc : Option Nat := none
  resVs : Option Nat := none
  fastBub : Bool := false
  /-- The charge their last engagement left in them, in ns of full supply (R393). -/
  leftVc : Nat := 200
  leftVs : Nat := 200
  /-- Times of the ridden dips of the last 10 ms that no reduction has used, the last dip and reduction, and the second of the last
  PWR_RAIL_DIP (R395, R396, R421). -/
  dips : List Nat := []
  lastDip : Option Nat := none
  lastReduce : Option Nat := none
  /-- The last rise of the dip limit (R396). -/
  lastRise : Option Nat := none
  dipEvtSec : Option Nat := none
  /-- Ridden dips of the present millisecond for the telemetry sample: number, deepest, its duration (R406). -/
  telDips : Nat := 0
  telDepth : Nat := 0
  telNs : Nat := 0
  /-- Soft start: progress, reason, failed attempts, place in the order of requests, and since when (R403 to R405). -/
  soft : SoftSt := .none
  softFor : SoftFor := .rejoin
  attempts : Nat := 0
  softTurn : Nat := 0
  softSince : Nat := 0
  /-- How long the soft start has been held in all, with the hold that runs, and until when that runs (R405). -/
  held : Nat := 0
  holdEnd : Nat := 0
  /-- A rejoin is due after a RESTORE or a base-die reset; one is running, and since when (R448). -/
  rejoinDue : Bool := false
  rejoining : Bool := false
  rejoinAt : Nat := 0
  /-- Last millisecond's measurements (R406). -/
  meas : Option SiteMeas := none
deriving DecidableEq, Repr, Inhabited

/-- A site's budget, pacer and demand (R413 to R425). -/
structure SiteCtl where
  /-- Branch power, VC power, and VS, VB and stage power of the last allocation, in mW (R413, R418, R420). -/
  power : Nat := 0
  pVc : Nat := 0
  pOther : Nat := 0
  /-- Bubble fraction in 1/64ths, the pacer's mode and draught k, failover's draught and the draught of a panel without service dies
  (R420 to R422, R386, R482). -/
  bubble : Nat := 0
  mode : PaceMode := .bubbles
  pacerK : Nat := 16
  convK : Nat := 16
  lostSvK : Nat := 16
  highRuns : Nat := 0
  fullSince : Option Nat := none
  raisedAt : Nat := 0
  drtEvtSec : Option Nat := none
  /-- Updates since the last cap turn: how many, the sum of bubble fractions, how many with the draught limit, and when either last acted
  (R423). -/
  capN : Nat := 0
  capSum : Nat := 0
  capDr : Nat := 0
  lastActed : Nat := 0
  /-- The last change or review of the cap limit (R423). -/
  capAt : Option Nat := none
  /-- The same of the present millisecond: updates, the sum of bubble fractions, and whether the draught limit acted (R415). -/
  msN : Nat := 0
  msSum : Nat := 0
  msDr : Bool := false
  /-- Bubble fractions and smallest k of the telemetry interval (R431). -/
  telSum : Nat := 0
  telN : Nat := 0
  kMin : Nat := 16
  /-- Budget and expected demand in mW, and the demand referred to step 15 (R415 to R418). -/
  budget : Nat := 0
  demand : Nat := 0
  e15 : Nat := 0
  /-- Demand samples of the running occurrence: their sum in 10 mW units and their number (R415). -/
  sampSum : Nat := 0
  sampN : Nat := 0
  /-- The site was HELD for longer than 10 µs in the present millisecond (R415). -/
  heldLong : Bool := false
deriving DecidableEq, Repr, Inhabited

/-- A site's temperatures and thermal state (R426 to R434). -/
structure SiteThm where
  tComp : Nat := 0
  tSram : Nat := 0
  tBase : Nat := 0
  tMax : Nat := 0
  tPeak : Nat := 0
  /-- Sensors not trusted, and since when they read validly again; a die that gives no reading, since when (R426). -/
  sensorBad : Bool := false
  sensorSince : Option Nat := none
  silentSince : List (Option Nat) := []
  /-- OFF for heat; the thermal limit when banked; the time since which the site is cool (R427). -/
  heatOff : Bool := false
  thmAtBank : Nat := 15
  coolSince : Option Nat := none
  /-- PWR_SITETHM.THROTTLES, and the second of the last THM_THROTTLE (R434, R436). -/
  throttles : W16 := 0
  thrEvtSec : Option Nat := none
deriving DecidableEq, Repr, Inhabited

/-- A site's margins and ageing (R484 to R492). -/
structure SiteMrg where
  siteCeil : Nat := 15
  cellCeil : Tbl Nat := []
  /-- Times of the timing detections of each cell (R490), and when a cell's ceiling last rose or fell. -/
  cellFlt : Tbl (List Nat) := []
  cellAt : Tbl Nat := []
  /-- Trims in mV by step; vmin of the monitors at step 15 and of the sentinels, mV, at the last sweep. -/
  trims : Tbl Nat := []
  mons : Tbl Nat := []
  sents : Tbl Nat := []
  margin15 : Nat := 0
  sweeps : Nat := 0
  age : Nat := 0
  firstV15 : Option Nat := none
  /-- The last 16 sweeps: the time and vmin of step 15 of each, newest first (R487); word 1 of the MARGIN entry of the last sweep (R493). -/
  v15s : List (Nat × Nat) := []
  sweptWord : W64 := 0
  /-- When a sweep that banks the site began (R485). -/
  sweepAt : Nat := 0
  lastSweep : Option Nat := none
  sweptIn : Nat := 0
  overdueAt : Option Nat := none
  /-- The setpoint of VS that the sentinels plan, in mV (R387, R488). -/
  vsSet : Nat := 750
  /-- Temperature bin, load-pattern class, and the time of the last SURGE (R489). -/
  bin : Nat := 2
  cls : Nat := 0
  surgeAt : Option Nat := none
deriving DecidableEq, Repr, Inhabited

/-- One site, by its physical position PC × 16 + PR. -/
structure Site where
  st : SiteSt := .off
  /-- The tile row held by a tile-remap stop (R21). -/
  heldRow : Option Nat := none
  /-- The partition that owns the site (R38, R334). -/
  part : Option Nat := none
  /-- Tile remap of each tile row: the 16 entries (R18); identity with the spare at position 16. -/
  tmap : Tbl (List Nat) := []
  cnt : SiteCnt := {}
  /-- The publication whose route tables the site holds, 0 for none; entries that fail parity (R229, R234, R244). -/
  routeGen : Nat := 0
  badRoutes : List Nat := []
  cache : Cache := {}
  /-- SC_CCTRL.SCRUB_EN (R272). -/
  scrubEn : Bool := true
  clk : SiteClk := {}
  pwr : SitePwr := {}
  ctl : SiteCtl := {}
  thm : SiteThm := {}
  mrg : SiteMrg := {}
  /-- A compute reset of the site is running (R477). -/
  resetting : Bool := false
deriving DecidableEq, Repr, Inhabited

/-! ### Packets in flight, starts, links -/

/-- Where a packet in flight stands (R230 to R232, R349): at the router of a tile position of a physical site, delivered to the site (a tile's port or the control port), at
an edge die, or parked at a site. -/
inductive Place where
  | router (site row pos : Nat)
  | dest (site : Nat)
  | edge (id : Nat)
  | parked (site : Nat)
deriving DecidableEq, Repr, Inhabited

/-- What a packet heads for (R231, R232, R262): a tile, a site's control port, a slice as first stop, an edge die. -/
inductive Goal where
  | tile (n : Nat)
  | control (s : Nat)
  | slice (s : Nat)
  | edge (id : Nat)
  | nowhere
deriving DecidableEq, Repr, Inhabited

/-- A packet in flight (R208): its goal, its place, whether it took the escape channel (R233), the slice a fill READ or its answer belongs to (R264), the link,
by its sending end, over which it came into the buffer that holds it (R240), none at its source, and the slice that a WRITE has passed (R265). -/
structure Flight where
  pkt : Packet
  goal : Goal
  place : Place
  escape : Bool
  fill : Option (Nat × Nat)
  via : Option LinkId := none
  thru : Option Nat := none
deriving DecidableEq, Repr, Inhabited

/-- A start that a LAUNCH sends to a tile (R312). -/
structure StartMsg where
  tile : Nat
  ctx : Nat
  part : Nat
  epoch : Nat
  n : W32
  arg : W64
  cores : Nat
  detach : Bool
  entry : Nat
  mode : Nat
  audn : Nat
  theta : W32
deriving DecidableEq, Repr, Inhabited

/-- A link-down record (R528): KIND, PC, PR, TROW, TPOS, FACE, the in-doubt packets and the time. -/
structure LinkRec where
  kind : Nat
  pc : Nat
  pr : Nat
  trow : Nat
  tpos : Nat
  face : Nat
  time : Nat
  doubt : List Packet
deriving DecidableEq, Repr, Inhabited

/-- The flit at the head of a link direction's retry buffer after a refusal (R241): its packet by SRC, CTX and SEQ, its number, and how often it was refused. -/
structure Refused where
  link : LinkId
  src : W64
  ctx : Nat
  seq : W16
  flit : Nat
  n : Nat
deriving DecidableEq, Repr, Inhabited

/-- The mesh (R208 to R250). -/
structure Fabric where
  flights : List Flight := []
  starts : List StartMsg := []
  loads : List LoadReq := []
  /-- Links that are down, those that stay so until cold power-on, the refused flits, and the failing wires of each group of a link that training has mapped onto
  its spares (R241, R242). -/
  down : List LinkId := []
  dead : List LinkId := []
  refused : List Refused := []
  wires : List (LinkId × List Nat) := []
  /-- The input channel that each router output served last (R215). -/
  turns : Tbl Nat := []
  /-- Publications of route tables so far, the DARK sites for which each was computed, and whether a republish runs (R234). -/
  gen : Nat := 0
  pubs : Tbl (List Nat) := []
  republishing : Bool := false
  /-- Counts of every edge die: HLT_ESTALE and HLT_EPART by edge id (R526). -/
  estale : Tbl W32 := []
  epart : Tbl W32 := []
  /-- SEQ streams of the edge and service dies, by edge id × 4096 + context (R211). -/
  seqs : Tbl W16 := []
  /-- Link-down records, newest first, at most 64, and HLT_LCNT (R526, R528). -/
  recs : List LinkRec := []
  lcnt : W32 := 0
deriving DecidableEq, Repr, Inhabited

/-! ### DDR -/

/-- One DDR 5 channel (R273 to R283). -/
structure Chan where
  /-- MEC_STATUS: STATE 0 absent, 1 down, 2 up; KIND; RATE; CAP in units of 8 GB. -/
  st : Nat := 0
  kind : Nat := 0
  rate : Nat := 0
  cap : Nat := 0
  /-- The channel turned down at run time (R275). -/
  failed : Bool := false
  dram : Mem := []
  /-- Uncorrectable 64-byte bursts (R278, R280). -/
  bad : List Nat := []
  /-- Bursts that hold a correctable error no access has met yet (R280). -/
  flips : List Nat := []
  ce : W32 := 0
  ue : W32 := 0
  ueaddr : Nat := 0
  /-- Patrol passes, and the next burst of the patrol (R281). -/
  patrols : W32 := 0
  patrolAt : Nat := 0
  /-- Rows repaired at the last cold power-on, and rows recorded without repair (R282, R283). -/
  repaired : Nat := 0
  rows : List Nat := []
  drop : W32 := 0
  /-- The log of corrected errors: channel address, rank and device, newest first (R280). -/
  ceLog : List (Nat × Nat × Nat) := []
  /-- Corrected reads of each row in the patrol interval (R282), by burst. -/
  rowCe : Tbl Nat := []
deriving DecidableEq, Repr, Inhabited

/-- A DDR region definition (R279). -/
structure Region where
  base : Nat := 0
  size : Nat := 0
  cbase : Nat := 0
  mode : Nat := 0
  gran : Nat := 0
  nlog2 : Nat := 0
  mask : W32 := 0
deriving DecidableEq, Repr, Inhabited

/-- The DDR registers of a partition (R279): staging set, region in force, ERR and ECODE. -/
structure DdrReg where
  stage : Region := {}
  cur : Region := {}
  err : Bool := false
  ecode : Nat := 0
deriving DecidableEq, Repr, Inhabited

/-! ### Host ports, contexts, events -/

/-- What the panel sends to the host (R303, R305, R326): a posted write with its relaxed-ordering mark, or an MSI-X message. -/
inductive HostTxn where
  | write (port : Nat) (addr : Nat) (bytes : List Byte) (relaxed ecrc : Bool)
  | msix (port : Nat) (addr : Nat) (data : W32) (ecrc : Bool)
deriving DecidableEq, Repr, Inhabited

/-- What a host read is for (R301, R311, R316, R325, R460). -/
inductive HostFor where
  | fetch (ctx : Nat) (first : W32) (count : Nat)
  | copy (ctx : Nat) (n : W32) (at_ : Nat)
  | tileRead (pkt : Packet) (fill : Option (Nat × Nat))
  | flush (ctx : Nat) (n : W32)
  | image (at_ : Nat)
deriving DecidableEq, Repr, Inhabited

/-- An outstanding host read (R288). -/
structure HostRead where
  id : Nat
  port : Nat
  addr : Nat
  len : Nat
  for_ : HostFor
  since : Nat
deriving DecidableEq, Repr, Inhabited

/-- The staging set of a port (R295): CTX_CFG to CTX_IRQ. -/
structure CtxCfg where
  part : Nat := 0
  port : Nat := 0
  roEn : Bool := false
  irqEn : Bool := false
  wdog : Nat := 0
  sqBase : Nat := 0
  sqLog2 : Nat := 0
  cqBase : Nat := 0
  cqLog2 : Nat := 0
  cvec : Nat := 0
deriving DecidableEq, Repr, Inhabited

/-- An entry of a port's MSI-X table (R530). -/
structure MsixEnt where
  addrLo : W32 := 0
  addrHi : W32 := 0
  data : W32 := 0
  mask : Bool := true
  /-- Pending bit of the entry (R292, R536). -/
  pend : Bool := false
deriving DecidableEq, Repr, Inhabited

/-- A host port (R285 to R292) with its port-local registers (R507, R535). -/
structure Port where
  /-- The link is trained, with its width and its rate in 0.1 GT/s; PERST# released (R286, R439). -/
  link : Bool := false
  width : Nat := 0
  gts10 : Nat := 0
  /-- The causes that cut the port off: link, function level reset, Bus Master Enable cleared (R287). -/
  cutLink : Bool := true
  cutFlr : Bool := false
  cutBme : Bool := false
  /-- PORT_DOWN has been raised for the present cut. -/
  downSeen : Bool := true
  /-- Function Mask of the MSI-X capability (R530). -/
  fmask : Bool := false
  /-- Completion Timeout Value, and Completion Timeout Disable (R288). -/
  cto : Nat := 0
  ctoOff : Bool := false
  /-- Maximum read request size and maximum payload size in bytes, 10-bit tags enabled as requester, D3hot, ECRC generation and checking enabled, and the
  uncorrectable error status of AER (R285). -/
  mrrs : Nat := 512
  mps : Nat := 128
  tag10 : Bool := false
  d3hot : Bool := false
  ecrcGen : Bool := false
  ecrcChk : Bool := false
  aer : W32 := 0
  msix : Tbl MsixEnt := []
  /-- CTX_SEL and the staging set, ERR and ECODE of the last command (R295, R296). -/
  ctxSel : Nat := 0
  stage : CtxCfg := {}
  err : Bool := false
  ecode : Nat := 0
  /-- HLT_DBDROP of the port and its first-drop mark (R291, R526). -/
  dbdrop : W32 := 0
  dbSeen : Bool := false
  /-- ID_SCRATCH (R522). -/
  scratch : W32 := 0
  /-- EVT_ALERT: EN and AVEC (R327). -/
  alertEn : Bool := false
  avec : Nat := 0
  /-- Selects: HLT_TSEL, RSEL, DSEL, SSEL, ESEL, LSEL, PWR_GRPSEL, PWR_SITESEL, MTR_SELLO, SELHI, WPAGE (R518). -/
  tsel : W32 := 0
  rsel : W32 := 0
  dsel : W32 := 0
  ssel : W32 := 0
  esel : W32 := 0
  lsel : W32 := 0
  grpsel : W32 := 0
  sitesel : W32 := 0
  mselLo : W32 := 0
  mselHi : W32 := 0
  wpage : W32 := 0
  /-- The view of the link-down record selected by HLT_LSEL (R528). -/
  lview : Option LinkRec := none
  /-- The record window of the meter: MTR_WSTAT.STATE, the record awaited and the record shown with its receipt time (R513, R514). -/
  mwst : Nat := 0
  mwseq : W64 := 0
  mwrec : Option (MeterRec × Nat) := none
  /-- LO/HI latches by the offset of the HI register (R517). -/
  latch : Tbl W32 := []
  /-- SES_ARG, SES_BSEL, the 8 KiB buffer, ERR, ECODE, LASTCMD (R507). -/
  sarg : W32 := 0
  bsel : W32 := 0
  buf : Mem := []
  serr : Bool := false
  secode : Nat := 0
  lastcmd : Nat := 0
  /-- The challenge: its bytes, port-bound slot, minutes, PROV, and when it was issued (R501). -/
  chal : Option (List Byte × Nat × Nat × Bool × Nat) := none
  /-- Times of the refusals that count toward a lockout, and the end of a lockout (R502). -/
  refusals : List Nat := []
  locked : Option Nat := none
  /-- The armed fuse command: 1 owner hash with its bytes, 2 SVN; and when (R506). -/
  arm : Option (Nat × List Byte × Nat) := none
deriving DecidableEq, Repr, Inhabited

/-- A descriptor (R308): its count on the ring and its eight words. -/
structure Desc where
  n : W32
  ws : List W64
deriving DecidableEq, Repr, Inhabited

/-- What ends a descriptor: status, RESULT and SKIPPED (R302, R307, R318). -/
structure Ending where
  status : Nat
  result : W64
  skipped : Bool
deriving DecidableEq, Repr, Inhabited

/-- The progress of a started descriptor (R307): a COPY holds what it has asked for and written, its reads out, the SEQ of the WRITEs whose WACKs it awaits, and
the bytes that have arrived. -/
inductive Prog where
  | plain
  | copy (asked wrote out : Nat) (wacks : List W16) (got : Mem) (have_ : List (Nat × Nat))
  | launch (gate : Bool) (targets reported : Nat) (live : List (Nat × Nat)) (exits : List (Nat × Nat)) (started : Nat)
      (fails : List (Nat × Nat))
  | load (targets ended skipped loaded : Nat) (fails : List (Nat × Nat)) (lost : List Nat)
  | wait (out : Bool) (lastRead : Nat)
  | barrier
  | fence (out : Nat)
deriving DecidableEq, Repr, Inhabited

/-- A descriptor in flight (R306). -/
structure InFl where
  d : Desc
  prog : Prog
  fin : Option Ending
deriving DecidableEq, Repr, Inhabited

/-- The states of a context (R293). -/
inductive CtxSt where
  | free | ready | active | halted | resetting
deriving DecidableEq, Repr, Inhabited

/-- A context (R293 to R306, R525). -/
structure Ctx where
  st : CtxSt := .free
  epoch : Nat := 0
  cfg : CtxCfg := {}
  /-- CTX_STATUS.CAUSE and STATUS, CTX_FAULT INDEX, TILEV, TILE (R295). -/
  cause : Nat := 0
  status : Nat := 0
  findex : W16 := 0
  ftile : Option Nat := none
  sqHead : W32 := 0
  sqTail : W32 := 0
  cqTail : W32 := 0
  cqHead : W32 := 0
  /-- A completion interrupt has been sent since the last CQ_HEAD write (R305). -/
  irqSent : Bool := false
  /-- Descriptors for which reads have been issued (R301). -/
  asked : W32 := 0
  /-- Fetched descriptors not yet started, and descriptors in flight, oldest first (R306). -/
  ready : List Desc := []
  inflight : List InFl := []
  /-- The step watchdog's start, while it runs (R321). -/
  wdogAt : Nat := 0
  /-- Policy of the context: MODE, AUDN, THETA (R132). -/
  mode : Nat := 0
  audn : Nat := 0
  theta : W32 := 0
  /-- Ports that carried space 4 writes since the last FENCE (R316). -/
  ports4 : List Nat := []
  /-- A warm reset restarts the context; its restart ends with it (R298, R337). -/
  byWarm : Bool := false
  /-- During a restart: the endpoints, sites by their place and edge dies by 512 + id, whose epoch tables hold the new epoch, and whether EPOCH is still to rise
  (R222, R223, R297). -/
  told : List Nat := []
  epochDue : Bool := false
  /-- The 64-bit prediction counters (R156, R525). -/
  pexec : W64 := 0
  pskipcol : W64 := 0
  pprobes : W64 := 0
  pprobepos : W64 := 0
  pmadeup : W64 := 0
  paudits : W64 := 0
  paudpred : W64 := 0
  paudseen : W64 := 0
  paudlost : W64 := 0
  paudfalse : W64 := 0
deriving DecidableEq, Repr, Inhabited

/-- A cause of a context fault that has arisen and is not yet acted on (R319): context, CAUSE, descriptor with its ending, tile. -/
structure FaultNote where
  ctx : Nat
  cause : Nat
  n : Option W32
  ending : Option Ending
  tile : Option Nat
deriving DecidableEq, Repr, Inhabited

/-- What a tracker of a PCIe edge die reads for (R323); a gate read keeps the policy that its LAUNCH met at its start (R132). -/
inductive EdgeFor where
  | copy (n : W32) (at_ len : Nat)
  | wait (n : W32)
  | gate (n : W32) (mode audn : Nat) (theta : W32)
  | dbg
deriving DecidableEq, Repr, Inhabited

/-- A tracker of a PCIe edge die (R323). -/
structure ETrk where
  id : Nat
  ctx : Nat
  epoch : Nat
  part : Nat
  seq : W16
  for_ : EdgeFor
  since : Nat
  ended : Bool
deriving DecidableEq, Repr, Inhabited

/-- A host window (R324). -/
structure Win where
  base : Nat := 0
  pages : Nat := 0
  en : Bool := false
  part : Nat := 0
  oneCtx : Bool := false
  port : Nat := 0
  mode : Nat := 0
  ctx : Nat := 0
deriving DecidableEq, Repr, Inhabited

/-- A barrier (R316, R361): COUNT of its round, arrivals so far, and who waits (for a rick barrier, the panels). -/
structure Barrier where
  count : Nat := 0
  arrived : Nat := 0
  waiters : List (Nat × W32) := []
deriving DecidableEq, Repr, Inhabited

/-- The event ring (R327 to R330). -/
structure EvtRing where
  base : Nat := 0
  log2 : Nat := 0
  en : Bool := false
  irqEn : Bool := false
  port : Nat := 0
  vec : Nat := 0
  tail : W32 := 0
  head : W32 := 0
  lost : W32 := 0
  /-- Events lost since the last EVT_OVERFLOW record, and whether a message was sent since the last EVT_HEAD write. -/
  since : Nat := 0
  sent : Bool := false
deriving DecidableEq, Repr, Inhabited

/-- The telemetry ring (R430, R435). -/
structure TelRing where
  base : Nat := 0
  log2 : Nat := 0
  shadow : Nat := 0
  en : Bool := false
  irqEn : Bool := false
  port : Nat := 0
  kmask : BitVec 7 := 0x7F
  vec : Nat := 0
  tail : W32 := 0
  head : W32 := 0
  lost : W32 := 0
  since : Nat := 0
  sent : Bool := false
  /-- Records of descriptors of the present millisecond, by KIND, which wait for its end (R430). -/
  held : List (Nat × List Nat) := []
deriving DecidableEq, Repr, Inhabited

/-- The host side (R285 to R331). -/
structure HostIf where
  ports : Tbl Port := []
  ctxs : Tbl Ctx := []
  wins : Tbl Win := []
  evt : EvtRing := {}
  tel : TelRing := {}
  /-- Everything sent to the host, oldest first (R326). -/
  out : List HostTxn := []
  reads : List HostRead := []
  nextRead : Nat := 0
  /-- Trackers of PE-0 and PE-1 (R323). -/
  etrk0 : List ETrk := []
  etrk1 : List ETrk := []
  nextTag : Nat := 0
  /-- The context that each PCIe edge die serves first when places are short (R306). -/
  turns : Tbl Nat := []
  faults : List FaultNote := []
  /-- Partition barriers by partition × 64 + ID (R316). -/
  bars : Tbl Barrier := []
deriving DecidableEq, Repr, Inhabited

/-! ### Partitions and rick -/

/-- Partition states (R332). -/
inductive PartSt where
  | undefined | defined | resetting
deriving DecidableEq, Repr, Inhabited

/-- The definition of a partition (R332). -/
structure PartDef where
  sc : Nat := 0
  sr : Nat := 0
  wm1 : Nat := 0
  hm1 : Nat := 0
  count : Nat := 0
  first : Nat := 0
  guarded : Bool := true
  rickbar : Bool := false
  rto : Nat := 4
  mask : W32 := 0
deriving DecidableEq, Repr, Inhabited

/-- A partition (R332 to R337, R414, R433). -/
structure Part where
  stage : PartDef := {}
  cur : PartDef := {}
  st : PartSt := .undefined
  /-- GUARDED staged for the next warm reset (R197, R334). -/
  gstaged : Bool := true
  /-- The running reset ends a DELETE (R334); the physical sites that entered RESET in its step 3 (R337, R340). -/
  deleting : Bool := false
  warming : List Nat := []
  err : Bool := false
  ecode : Nat := 0
  /-- The home table: logical sites (R263). -/
  home : List Nat := []
  /-- Phase tag, the start of its occurrence and whether one runs (R414). -/
  tag : Nat := 0
  occAt : Nat := 0
  /-- PWR_PACE: LOCK, ENGAGED, LOCKSTEP, THROTTLED, SLOW (R433). -/
  lock : Bool := false
  engaged : Bool := false
  lockstep : Nat := 15
  throttled : Nat := 0
  slow : Nat := 0
  /-- PWR_PCMD.ERR (R433). -/
  perr : Bool := false
  /-- CLK_CEIL (R382). -/
  ceil : Nat := 15
  ddr : DdrReg := {}
deriving DecidableEq, Repr, Inhabited

/-- A codeword in the replay buffer: its CSEQ, its slots, how often it was resent, and when it was begun (R349, R350). -/
structure Sent where
  cseq : BitVec 8
  slots : List CwSlot
  resends : Nat
  at_ : Nat
deriving DecidableEq, Repr, Inhabited

/-- A cascade port (R349 to R353). -/
structure CasPort where
  en : Bool := true
  maxw : Nat := 0
  maxr : Nat := 0
  detok : Bool := false
  /-- CAS_PST: STATE 0 DOWN, 1 TRAINING, 2 UP, 3 ISOLATED; WIDTH, RATE, FEC, SPARE, PPANEL, PPORT. -/
  st : Nat := 0
  width : Nat := 0
  rate : Nat := 0
  fec : Bool := false
  spare : Bool := false
  ppanel : Nat := 0
  pport : Nat := 0
  pserial : W64 := 0
  /-- The replay buffer, oldest first; the next CSEQ to send; the last CSEQ received in order; a NAK is due (R349, R350). -/
  replay : List Sent := []
  nextSeq : BitVec 8 := 0
  lastSeq : BitVec 8 := 0xFF
  sendNak : Bool := false
  /-- The packet of which flits have arrived, with the number of its next flit (R349). -/
  rx : Option (Packet × Nat) := none
  /-- LINK_DOWN has been raised and LINK_UP not yet (R350). -/
  downSeen : Bool := false
  /-- Since when the oldest codeword waits for its acknowledgement (R350). -/
  since : Nat := 0
deriving DecidableEq, Repr, Inhabited

/-- The rick (R345 to R362). -/
structure Rick where
  ports : Tbl CasPort := []
  /-- CAS_ID: MASTER, INRICK, TSYNC, CONFLICT, PANEL (R354). -/
  master : Bool := false
  inrick : Bool := false
  tsync : Bool := false
  conflict : Bool := false
  panel : Nat := 0
  /-- CAS_CTL: BUSY, ERR, CONTEXT (R354). -/
  busy : Bool := false
  err : Bool := false
  context : Nat := 0
  /-- The running command of CAS_CTL is a PUBLISH (R354). -/
  publishing : Bool := false
  /-- On the master: the admitted panels with their serial numbers, the trained links between panels by serial numbers, and the other panels numbered 0 that it has
  reported (R345, R347, R348, R354). -/
  admitted : List (Nat × W64) := []
  edges : List (W64 × W64) := []
  rivals : List W64 := []
  /-- Rick routes in force: the publication, and the panels it reaches (R354, R355). -/
  gen : Nat := 0
  routed : List Nat := []
  /-- Publications computed by the master (R355). -/
  pubs : Nat := 0
  /-- Rick barriers counted by the master (R361): waiters are panels; and the contexts of this panel that wait, by ID. -/
  bars : Tbl Barrier := []
  waiting : Tbl (List (Nat × W32)) := []
  /-- The correction of the timebase still to be slewed, in ns (R360). -/
  slew : Nat := 0
  holdNs : Nat := 0
deriving DecidableEq, Repr, Inhabited

/-! ### Clocking, power, cap -/

/-- The panel's clocking (R364, R375, R382). -/
structure Clk where
  /-- Step requests and limit changes so far: their order (R370, R373). -/
  turns : Nat := 0
  refA : Bool := false
  refB : Bool := false
  holdover : Bool := false
  locked : Bool := false
  /-- Absent references with the time of the loss: 0 REFCLK-A, 1 REFCLK-B, otherwise an edge id (R375, R376). -/
  losses : List (Nat × Nat) := []
  /-- CLK_SITESEL and CLK_BANK (R382). -/
  sitesel : Nat := 0
  bankErr : Bool := false
  bankS : Nat := 0
deriving DecidableEq, Repr, Inhabited

/-- A bus converter (R385, R386): 0 OK, 1 FAILED, 2 carrying its partner, 3 not enabled. -/
structure Conv where
  st : Nat := 0
  pout : Nat := 0
  vout : Nat := 0
  budget : Nat := 1500
deriving DecidableEq, Repr, Inhabited

/-- Power delivery (R384 to R408). -/
structure Pwr where
  /-- The panel is powered: the input has not fallen below 30 V nor exceeded 60 V since the last cold power-on (R384). -/
  powered : Bool := false
  vin : Nat := 0
  warn : Bool := false
  stopped : Bool := false
  warns : W16 := 0
  vmin : Nat := 65535
  warnTimes : List Nat := []
  warnEvtAt : Option Nat := none
  warned : Bool := false
  convs : Tbl Conv := []
  /-- Converters are enabled (R438). -/
  convOn : Bool := false
  softTurns : Nat := 0
  /-- PWR_SITECMD: ERR, ECODE (R407). -/
  cmdErr : Bool := false
  cmdCode : Nat := 0
deriving DecidableEq, Repr, Inhabited

/-- The cap controller (R409 to R435). -/
structure Cap where
  cap : Nat := 40000
  capErr : Bool := false
  pool : Nat := 0
  ppanel : Nat := 0
  /-- Panel power and the sum of branch powers of budgeted sites at the last allocation, mW. -/
  psites : Nat := 0
  /-- PWR_ENERGY in mJ, with the part below 1 mJ in µJ (R410); PWR_CTL.RUN follows the time of the last allocation (R432). -/
  energy : Nat := 0
  energyUj : Nat := 0
  lastAlloc : Option Nat := none
  static_ : Bool := false
  tthr : Nat := 95
  unmetSec : Option Nat := none
  /-- Learned profiles: by (partition × 256 + tag) × 256 + site, the newest of 8 occurrence means first, in 10 mW (R417). -/
  prof : Tbl (List Nat) := []
  mirror : Tbl (List Nat) := []
  /-- Milliseconds of telemetry so far (R431: kind 0x03 every 10 ms). -/
  telMs : Nat := 0
deriving DecidableEq, Repr, Inhabited

/-! ### Bring-up, serial memory, health, sessions, meter, debug -/

/-- A settings copy in the serial memory (R452). -/
structure Settings where
  seq : W32
  fields : List Byte
  digest : List Byte
  sig : List Byte
deriving DecidableEq, Repr, Inhabited

/-- An entry of the learned-record journal (R456). -/
structure Learned where
  type : Nat
  seq : W32
  payload : List W64
  /-- CHK as it stands in the serial memory. -/
  chk : W64 := 0
deriving DecidableEq, Repr, Inhabited

/-- A half of the learned-record section (R455): its generation, its COMPLETE mark, and its entries in order from offset 64. -/
structure LrHalf where
  gen : Nat := 0
  complete : Bool := false
  entries : List Learned := []
deriving DecidableEq, Repr, Inhabited

/-- A log record (R457): the words of the event layout. -/
structure LogRec where
  w0 : W64
  w1 : W64
  w2 : W64
  w3 : W64
deriving DecidableEq, Repr, Inhabited

/-- Bring-up stages, SPI_BOOT.STAGE (R463). -/
inductive Stage where
  | rom | image | base | train | compute | selftest | publish | ready | recovery | failed
deriving DecidableEq, Repr, Inhabited

/-- A DEFECT of the reconciled map with its sources (R444, R491). -/
structure Defect where
  word0 : W64
  srcFuse : Bool
  srcLearned : Bool
  srcTest : Bool
  seq : W32
deriving DecidableEq, Repr, Inhabited

/-- Bring-up and the serial memory (R437 to R463). -/
structure Spi where
  stage : Stage := .rom
  setdef : Bool := false
  lrlost : Bool := false
  svbok : Bool := false
  strap : Bool := false
  strapProv : Bool := false
  cause : Nat := 0
  bootMs : Nat := 0
  bootNum : W32 := 0
  /-- The moment t0 of the running bring-up (R437). -/
  t0 : Nat := 0
  /-- DDR zeroing of step 13 has ended (R438). -/
  ddrZeroed : Bool := false
  /-- The two settings copies and which is in use; the fields in force; the staging page (R452 to R454, R463). -/
  copyA : Option Settings := none
  copyB : Option Settings := none
  useB : Bool := false
  fields : List Byte := []
  staging : Mem := []
  /-- The firmware image region, header first (R458), and the running image's header and digest. -/
  image : Mem := []
  imageLen : Nat := 0
  runHdr : List Byte := []
  runDig : List Byte := []
  /-- The two halves of the learned-record section and which is in use; how far a compaction is: 0 none, 1 the other half holds the state without its COMPLETE mark, 2 it
  has the mark and the old half is to be erased; the next SEQ, and the entries waiting to be written (R455). -/
  lrA : LrHalf := {}
  lrB : LrHalf := {}
  lrUseB : Bool := false
  lrPhase : Nat := 0
  lrNext : W32 := 0
  lrWait : List Learned := []
  /-- The records of the log ring, newest last, and the place in the ring of the next one; its count, the buffer, and records lost (R457). -/
  log : List LogRec := []
  logPos : Nat := 0
  logCnt : W32 := 0
  logBuf : List LogRec := []
  logLost : Nat := 0
  /-- SPI_UPLO, UPHI, UPLEN, WSEL (R463). -/
  upBase : Nat := 0
  upLen : Nat := 0
  wsel : W32 := 0
  /-- SPI_CMDSTAT: STATE, ECODE, CMD, PROGRESS (R463). -/
  cmdSt : Nat := 0
  cmdEcode : Nat := 0
  cmdLast : Nat := 0
  progress : Nat := 0
  /-- The update buffer: bytes received and asked for (R460). -/
  upBuf : Mem := []
  upGot : Nat := 0
  upAsked : Nat := 0
  /-- A settings commit is running, with the field area it writes (R454). -/
  committing : Option (List Byte) := none
  /-- What the present bring-up meets outside the panel (R438, R441): kept for SV-B's takeover and for the restart after a recovery update (R462). -/
  boot : Option BringUpEnv := none
deriving DecidableEq, Repr, Inhabited

/-- States of a service die (R491). -/
inductive SvSt where
  | active | standby | failed | resetting
deriving DecidableEq, Repr, Inhabited

/-- Health, defect map, service dies, sweeps (R464 to R494). -/
structure Hlt where
  /-- Site remap of each site row: the 16 entries (R23); identity with the spare at PC 16. -/
  smap : Tbl (List Nat) := []
  /-- The reconciled defect map in HLT_DSEL index order (R444, R491). -/
  defects : List Defect := []
  /-- HLT_CMD: BUSY, ERR, ECODE, TARGET; HLT_CMDARG (R491). -/
  busy : Bool := false
  err : Bool := false
  ecode : Nat := 0
  target : Nat := 0
  cmdarg : W32 := 0
  /-- The running command of HLT_CMD: its code and its tile or site (R475). -/
  run : Option (Nat × Nat) := none
  /-- The row, by physical site × 8 + tile row, whose spare position a CLEAR retests (R476). -/
  spareTest : Option Nat := none
  /-- HLT_CFG: RETTHR, SUSTHR, AUTO, SUSCAD, CADENCE (R491). -/
  retthr : Nat := 64
  susthr : Nat := 192
  auto : Bool := true
  suscad : Nat := 0
  cadence : Nat := 3
  /-- HLTDEF values not in HLT_CFG (R493). -/
  recover : Nat := 8
  guard : Nat := 30
  vsguard : Nat := 40
  penalties : List Nat := [16, 64, 64, 64, 64, 16, 32]
  corrlim : Nat := 64
  /-- Time of the last automatic retirement of each tile row, by physical site × 8 + row (R474). -/
  rowRet : Tbl (Option Nat) := []
  /-- HLT_PROMISE.HOLDS as last reported, and units unsettled (R464, R465). -/
  holds : Bool := false
  promise : BitVec 5 := 0
  unsettled : List (Nat × Nat) := []
  /-- HLT_SVSTAT, and what runs (R478 to R483, R491). -/
  sva : SvSt := .active
  svb : SvSt := .standby
  failovers : W16 := 0
  lastBeat : Nat := 0
  svLostAt : Option Nat := none
  /-- HLT_GRANT and HLT_GRANTST (R485, R491). -/
  grantS0 : Nat := 0
  grantS1 : Nat := 0
  grantMin : Nat := 0
  grantEn : Bool := false
  grantOpen : Bool := false
  grantAt : Nat := 0
  swept : Nat := 0
  /-- Self-test fault history: cell tags of results and happenings, newest first (R470). -/
  history : List (Nat × Nat × Nat) := []
  /-- The time of the last hourly turn. -/
  hourAt : Nat := 0
deriving DecidableEq, Repr, Inhabited

/-- An open management session (R501, R507). -/
structure Session where
  port : Nat
  slot : Nat
  prov : Bool
  minutes : Nat
  opened : Nat
deriving DecidableEq, Repr, Inhabited

/-- Sessions and fuses (R495 to R507). -/
structure Ses where
  /-- SES_INFO0 to SES_INFO3 (R507). -/
  ents : Tbl (Option Session) := []
  denied : W32 := 0
  deniedSec : Option Nat := none
  fails : W32 := 0
  /-- Fused owner key hash and minimum SVN (R497). -/
  owner : Option (List Byte) := none
  svnMin : Nat := 0
  /-- Provisioning is in force (R500). -/
  prov : Bool := false
deriving DecidableEq, Repr, Inhabited

/-- The sealed meter and its host side (R508 to R515). -/
structure Mtr where
  /-- The meter itself: its clock, boots, energy, next SEQ, latched seal, unpowered since the last record, and its store (R510, R511). -/
  seq : Nat := 0
  timeMs : Nat := 0
  boots : Nat := 0
  energy : Nat := 0
  sealBit : Bool := false
  sealSeen : Bool := false
  gap : Bool := false
  store : List MeterRec := []
  /-- When the newest record was formed, on the panel's timebase (R510). -/
  lastAt : Option Nat := none
  /-- The panel's side: verified records with receipt time, newest first (R513); key received; last frame; counts. -/
  recs : List (MeterRec × Nat) := []
  keyOk : Bool := false
  lastFrame : Option Nat := none
  lost : Bool := false
  badsig : W32 := 0
  rangeMin : Option Nat := none
  rbase : Nat := 0
  ren : Bool := false
  rport : Nat := 0
  rlog2 : Nat := 0
  rtail : W32 := 0
  rhead : W32 := 0
  rlost : W32 := 0
deriving DecidableEq, Repr, Inhabited

/-- The debug block (R531 to R534). -/
structure Dbg where
  locked : Bool := false
  dctr : Nat := 0
  ctx : Nat := 0
  addr : W64 := 0
  data : W64 := 0
  busy : Bool := false
  err : Bool := false
  ecode : Nat := 0
  status : BitVec 8 := 0
deriving DecidableEq, Repr, Inhabited

/-- The panel. -/
structure State where
  /-- Commands waiting, first in first out. -/
  pending : List Instr := []
  /-- The panel's timebase in ns, from cold power-on (R354, R360). -/
  time : Nat := 0
  /-- The model's own: the counter of free values (log entry 3). -/
  freeN : Nat := 0
  tiles : Tbl Tile := []
  sites : Tbl Site := []
  fab : Fabric := {}
  chans : Tbl Chan := []
  /-- Break-even thresholds PRT_BEV_T0 to T6, [15:0] each, and PRT_BEV_CTRL.MODE (R121). -/
  bev : List W32 := [0x077C, 0x0770, 0x0770, 0x0770, 0x0770, 0x0338, 0x0770]
  bevMode : Nat := 0
  host : HostIf := {}
  parts : Tbl Part := []
  rick : Rick := {}
  clk : Clk := {}
  pwr : Pwr := {}
  cap : Cap := {}
  spi : Spi := {}
  hlt : Hlt := {}
  ses : Ses := {}
  mtr : Mtr := {}
  dbg : Dbg := {}
deriving DecidableEq, Repr, Inhabited

/-- Why the panel stops: for no reason. The manual gives every command an effect, driver errors included (R61, R195, R331), so no step ends in a fault. -/
inductive Fault where
deriving DecidableEq, Repr

/-- Why a command has no meaning. -/
inductive Refusal where
  /-- Raised by an arm of `exec` whose command has not been modelled. Safe. -/
  | notModelled (mnemonic : String)
  /-- Raised by a BAR0 write across an 8-byte boundary, which R516 calls unsupported and gives no effect (log entry 71). Safe. -/
  | notInManual (what : String)
deriving DecidableEq, Repr

/-- The panel right after its power comes on, before bring-up: every register at the value the manual's field maps give for cold power-on. -/
def State.reset : State := {}

end Sys2Proof.Machine
end

