-- ==== Sys2Proof/Machine/Ops.lean ====
section
/-! DEFINITION. Named operations over the state: reading and updating tiles, sites, ports, contexts, partitions and channels, the coordinates
of R14 to R16 and the remaps of R18 and R23, free values, and the panel's notion of time. -/

namespace Sys2Proof.Machine

/-- The outcome of every meaning. -/
abbrev Out := Host.Outcome State Fault Refusal

/-- The next state. -/
def ok (s : State) : Out := .next s

/-! ### Tables of the state -/

def State.tile (s : State) (n : Nat) : Tile := tget {} s.tiles n
def State.setTile (s : State) (n : Nat) (t : Tile) : State := { s with tiles := tput {} s.tiles n t }
def State.modTile (s : State) (n : Nat) (f : Tile → Tile) : State := s.setTile n (f (s.tile n))

def State.site (s : State) (p : Nat) : Site := tget {} s.sites p
def State.setSite (s : State) (p : Nat) (x : Site) : State := { s with sites := tput {} s.sites p x }
def State.modSite (s : State) (p : Nat) (f : Site → Site) : State := s.setSite p (f (s.site p))

def State.chan (s : State) (c : Nat) : Chan := tget {} s.chans c
def State.setChan (s : State) (c : Nat) (x : Chan) : State := { s with chans := tput {} s.chans c x }
def State.modChan (s : State) (c : Nat) (f : Chan → Chan) : State := s.setChan c (f (s.chan c))

def State.setHost (s : State) (h : HostIf) : State := { s with host := h }
def State.modHost (s : State) (f : HostIf → HostIf) : State := s.setHost (f s.host)

def State.port (s : State) (p : Nat) : Port := tget {} s.host.ports p
def State.setPort (s : State) (p : Nat) (x : Port) : State := s.modHost fun h => { h with ports := tput {} h.ports p x }
def State.modPort (s : State) (p : Nat) (f : Port → Port) : State := s.setPort p (f (s.port p))

def State.ctx (s : State) (c : Nat) : Ctx := tget {} s.host.ctxs c
def State.setCtx (s : State) (c : Nat) (x : Ctx) : State := s.modHost fun h => { h with ctxs := tput {} h.ctxs c x }
def State.modCtx (s : State) (c : Nat) (f : Ctx → Ctx) : State := s.setCtx c (f (s.ctx c))

def State.partn (s : State) (p : Nat) : Part := tget {} s.parts p
def State.setPart (s : State) (p : Nat) (x : Part) : State := { s with parts := tput {} s.parts p x }
def State.modPart (s : State) (p : Nat) (f : Part → Part) : State := s.setPart p (f (s.partn p))

def State.win (s : State) (w : Nat) : Win := tget {} s.host.wins w
def State.modWin (s : State) (w : Nat) (f : Win → Win) : State := s.modHost fun h => { h with wins := tmod {} h.wins w f }

def State.cas (s : State) (n : Nat) : CasPort := tget {} s.rick.ports n
def State.modRick (s : State) (f : Rick → Rick) : State := { s with rick := f s.rick }
def State.modCas (s : State) (n : Nat) (f : CasPort → CasPort) : State := s.modRick fun r => { r with ports := tmod {} r.ports n f }

def State.modFab (s : State) (f : Fabric → Fabric) : State := { s with fab := f s.fab }
def State.modClk (s : State) (f : Clk → Clk) : State := { s with clk := f s.clk }
def State.modPwr (s : State) (f : Pwr → Pwr) : State := { s with pwr := f s.pwr }
def State.modCap (s : State) (f : Cap → Cap) : State := { s with cap := f s.cap }
def State.modSpi (s : State) (f : Spi → Spi) : State := { s with spi := f s.spi }
def State.modHlt (s : State) (f : Hlt → Hlt) : State := { s with hlt := f s.hlt }
def State.modSes (s : State) (f : Ses → Ses) : State := { s with ses := f s.ses }
def State.modMtr (s : State) (f : Mtr → Mtr) : State := { s with mtr := f s.mtr }
def State.modDbg (s : State) (f : Dbg → Dbg) : State := { s with dbg := f s.dbg }

/-- Advances the counter of free values (log entry 3). -/
def State.spend (s : State) : State := { s with freeN := s.freeN + 1 }
def State.spendN (s : State) (n : Nat) : State := { s with freeN := s.freeN + n }

/-! ### Parts of a tile -/

def Tile.core (t : Tile) (c : Nat) : Core := tget {} t.cores c
def Tile.setCore (t : Tile) (c : Nat) (x : Core) : Tile := { t with cores := tput {} t.cores c x }
def Tile.modCore (t : Tile) (c : Nat) (f : Core → Core) : Tile := t.setCore c (f (t.core c))
def Tile.ctr (t : Tile) (k : Nat) : Ctr := tget {} t.ctrs k
def Tile.setCtr (t : Tile) (k : Nat) (x : Ctr) : Tile := { t with ctrs := tput {} t.ctrs k x }
def Tile.list (t : Tile) (l : Nat) : ListPort := tget {} t.lists l
def Tile.setList (t : Tile) (l : Nat) (x : ListPort) : Tile := { t with lists := tput {} t.lists l x }
def Tile.trk (t : Tile) (k : Nat) : Trk := tget {} t.trks k
def Tile.setTrk (t : Tile) (k : Nat) (x : Trk) : Tile := { t with trks := tput {} t.trks k x }
def Tile.setEng (t : Tile) (e : Engine) : Tile := { t with eng := e }
def Tile.modEng (t : Tile) (f : Engine → Engine) : Tile := t.setEng (f t.eng)

/-- Adds to VALUE of a counter, modulo 2^32 (R181, R217). -/
def Tile.bump (t : Tile) (k n : Nat) : Tile :=
  let c := t.ctr k
  t.setCtr k { c with value := c.value + BitVec.ofNat 32 n }

/-- VALUE + 1, and TARGET := TOTAL where LAST = 1 (R217, R219). -/
def Tile.land_ (t : Tile) (k : Nat) (last : Bool) (total : W32) : Tile :=
  let c := t.ctr k
  t.setCtr k { value := c.value + 1, target := if last then total else c.target }

def State.core (s : State) (t c : Nat) : Core := (s.tile t).core c
def State.modCore (s : State) (t c : Nat) (f : Core → Core) : State := s.modTile t fun T => T.modCore c f
def State.bump (s : State) (t k n : Nat) : State := s.modTile t fun T => T.bump k n

/-! ### Coordinates -/

/-- The site number S of a tile (R14 to R16). -/
def tileSite (n : Nat) : Nat := (n / 256 / 8) * 16 + (n % 256) / 16
/-- The logical tile row TR and column TC of a tile in its site (R14). -/
def tileTR (n : Nat) : Nat := (n / 256) % 8
def tileTC (n : Nat) : Nat := n % 16
/-- The tile at (X, Y) (R16). -/
def tileAt (x y : Nat) : Nat := y * 256 + x
/-- The tile of site S at (TR, TC) (R14). -/
def tileOf (S tr tc : Nat) : Nat := tileAt ((S % 16) * 16 + tc) ((S / 16) * 8 + tr)
/-- The 128 tiles of a site. -/
def siteTiles (S : Nat) : List Nat := (rangeFrom 0 128).map fun k => tileOf S (k / 16) (k % 16)

/-- The site remap of a row: with no entry held, the spare is at physical column 16 (R23, R24). -/
def State.smapRow (s : State) (sr : Nat) : List Nat :=
  let m := tget [] s.hlt.smap sr
  if m = [] then rangeFrom 0 16 else m
/-- The physical site that serves logical site S (R23). -/
def State.phys (s : State) (S : Nat) : Nat := lget 16 (s.smapRow (S / 16)) (S % 16) * 16 + S / 16
def idxOf (x : Nat) : List Nat → Nat → Option Nat
  | [], _ => none
  | y :: ys, k => if x = y then some k else idxOf x ys (k + 1)
/-- The logical site that a physical site serves, none for the row's spare (R23). -/
def State.logical (s : State) (p : Nat) : Option Nat :=
  (idxOf (p / 16) (s.smapRow (p % 16)) 0).map fun sc => (p % 16) * 16 + sc
/-- The spare column of a site row (R23). -/
def State.spareCol (s : State) (sr : Nat) : Nat :=
  ((rangeFrom 0 17).find? fun c => !(s.smapRow sr).contains c).getD 16

/-- The tile remap of a tile row of a physical site: with no entry held, the spare is at position 16 (R18, R19). -/
def Site.tmapRow (x : Site) (tr : Nat) : List Nat :=
  let m := tget [] x.tmap tr
  if m = [] then rangeFrom 0 16 else m
/-- The spare position of a tile row (R18). -/
def Site.sparePos (x : Site) (tr : Nat) : Nat :=
  ((rangeFrom 0 17).find? fun c => !(x.tmapRow tr).contains c).getD 16

/-- The physical site of a tile. -/
def State.tilePhys (s : State) (n : Nat) : Nat := s.phys (tileSite n)
def State.tileSt (s : State) (n : Nat) : Site := s.site (s.tilePhys n)
/-- The physical position of a tile in its row (R18). -/
def State.tilePos (s : State) (n : Nat) : Nat := lget 16 ((s.tileSt n).tmapRow (tileTR n)) (tileTC n)

/-- The engines and cores of a tile run: its site is ACTIVE, or HELD for a tile-remap stop of another row (R21, R28, R67, R171), the tile is in
service (R30) and no compute reset of it or its site runs (R477). -/
def State.runs (s : State) (n : Nat) : Bool :=
  let x := s.tileSt n
  (x.st == .active || (x.st == .held && x.heldRow.isSome && x.heldRow != some (tileTR n)))
    && ((s.tile n).st == .active || (s.tile n).st == .suspect) && !(s.tile n).resetting && !x.resetting

/-! ### Words of memory -/

/-- The `n` bytes from an address lie in an 8-byte word, in whole or in part. -/
def covers (a n w : Nat) : Bool := decide (n ≠ 0 ∧ a / 8 ≤ w ∧ w ≤ (a + n - 1) / 8)
/-- They cover all of it. -/
def coversWhole (a n w : Nat) : Bool := decide (a ≤ w * 8 ∧ w * 8 + 8 ≤ a + n)
/-- `k` free bytes from the counter of free values (log entry 3). -/
def anyBytes (n : Nat) : Nat → List Byte
  | 0 => []
  | k + 1 => Config.freeByte n :: anyBytes (n + 1) k

/-! ### Tiles and sites named by commands -/

/-- A meaning on a tile of the panel; a number that names no tile changes nothing (log entry 2). -/
def onTile (s : State) (t : Nat) (f : Tile → Out) : Out := if t < 32768 then f (s.tile t) else ok s
def onSite (s : State) (p : Nat) (f : Site → Out) : Out := if p < 272 then f (s.site p) else ok s
def onPort (s : State) (p : Nat) (f : Port → Out) : Out := if p < 4 then f (s.port p) else ok s
def onPart (s : State) (p : Nat) (f : Part → Out) : Out := if p < 16 then f (s.partn p) else ok s
def onCtx (s : State) (c : Nat) (f : Ctx → Out) : Out := if c < 3072 then f (s.ctx c) else ok s
def onCas (s : State) (n : Nat) (f : CasPort → Out) : Out := if n < 32 then f (s.cas n) else ok s

/-- Where a condition on the state fails, the command's event cannot have happened: the state stays as it is (log entry 2). -/
def when_ (b : Bool) (s : State) (f : Out) : Out := if b then f else ok s

/-- Runs meanings one after the other until one stops. -/
def foldOut {α : Type} (f : State → α → Out) : State → List α → Out
  | s, [] => ok s
  | s, a :: r =>
    match f s a with
    | .next s' => foldOut f s' r
    | o => o

/-- Runs a second meaning after a first. -/
def andThen (o : Out) (f : State → Out) : Out :=
  match o with
  | .next s => f s
  | .fault r => .fault r
  | .refused r => .refused r

/-! ### Time -/

def us : Nat := 1000
def ms : Nat := 1000000
def sec : Nat := 1000000000

/-- The second of the timebase in which the panel is. -/
def State.second (s : State) : Nat := s.time / sec

/-- The panel is ready (R437, R439): no host access is served before. -/
def State.isReady (s : State) : Bool := s.spi.stage == .ready
def State.inRecovery (s : State) : Bool := s.spi.stage == .recovery
/-- The sideband outputs PNL_READY, and PNL_FAULT# pulled low (R545). -/
def State.pnlReady (s : State) : Bool := s.isReady
def State.pnlFault (s : State) : Bool := s.spi.stage == .failed || s.inRecovery || s.pwr.stopped

/-! ### Faces and neighbours of the physical grid (R12, R229) -/

def faceCode : Face → Nat
  | .north => 1
  | .east => 2
  | .south => 3
  | .west => 4
def faceOfCode : Nat → Option Face
  | 1 => some .north
  | 2 => some .east
  | 3 => some .south
  | 4 => some .west
  | _ => none
def faceOpp : Face → Face
  | .north => .south
  | .south => .north
  | .east => .west
  | .west => .east
/-- The neighbouring physical site on a face (R12). -/
def siteNeighbour (p : Nat) : Face → Option Nat
  | .north => if p % 16 = 0 then none else some (p - 1)
  | .south => if p % 16 = 15 then none else some (p + 1)
  | .west => if p / 16 = 0 then none else some (p - 16)
  | .east => if p / 16 = 16 then none else some (p + 16)
def allFaces : List Face := [.north, .east, .south, .west]

/-- The physical sites to which an edge die attaches, with the face (R12). -/
def edgeAttach : Nat → List (Nat × Face)
  | 0x00 => [(0 * 16 + 1, .west)]
  | 0x01 => [(0 * 16 + 14, .west)]
  | 0x08 => [(2 * 16 + 0, .north)]
  | 0x09 => [(14 * 16 + 0, .north)]
  | 0x0A => [(16 * 16 + 3, .east)]
  | 0x0B => [(16 * 16 + 12, .east)]
  | 0x0C => [(2 * 16 + 15, .south)]
  | 0x0D => [(14 * 16 + 15, .south)]
  | 0x0E => [(0 * 16 + 3, .west)]
  | 0x0F => [(0 * 16 + 12, .west)]
  | 0x10 => [(5 * 16 + 0, .north)]
  | 0x11 => [(11 * 16 + 0, .north)]
  | 0x12 => [(16 * 16 + 5, .east), (16 * 16 + 6, .east)]
  | 0x13 => [(16 * 16 + 9, .east), (16 * 16 + 10, .east)]
  | 0x14 => [(5 * 16 + 15, .south)]
  | 0x15 => [(11 * 16 + 15, .south)]
  | 0x16 => [(0 * 16 + 5, .west), (0 * 16 + 6, .west)]
  | 0x17 => [(0 * 16 + 9, .west), (0 * 16 + 10, .west)]
  | 0x20 => [(0, .north), (0, .west)]
  | 0x21 => [(16 * 16 + 15, .south), (16 * 16 + 15, .east)]
  | _ => []
/-- The edge id is one of R12 (R13). -/
def edgeValid (id : Nat) : Bool := edgeAttach id != []

/-- The PCIe edge die of a host port, the memory edge die of a channel, the cascade edge die of a cascade port (R12). -/
def portEdge (p : Nat) : Nat := p / 2
def chanEdge (c : Nat) : Nat := 0x08 + c / 4
def casEdge (n : Nat) : Nat := 0x10 + n / 4

/-! ### Fabric addresses (R33, R34) -/

def aPanel (a : W64) : Nat := bitsOf a 63 58
def aSpace (a : W64) : Nat := bitsOf a 57 55
def aX (a : W64) : Nat := bitsOf a 54 47
def aY (a : W64) : Nat := bitsOf a 46 40
def aOff (a : W64) : Nat := bitsOf a 39 0
def aSite (a : W64) : Nat := bitsOf a 54 47
def aDdr (a : W64) : Nat := bitsOf a 41 0
def aWin (a : W64) : Nat := bitsOf a 54 48
def aWinOff (a : W64) : Nat := bitsOf a 47 0
def aEdge (a : W64) : Nat := bitsOf a 54 49
def aEdgeOff (a : W64) : Nat := bitsOf a 48 0
/-- The tile an address of space 0 or 1 names. -/
def aTile (a : W64) : Nat := tileAt (aX a) (aY a)
/-- Builds an address of space 0 or 1 (R33). -/
def tileAddr (panel space n off : Nat) : W64 :=
  BitVec.ofNat 64 (panel * 2 ^ 58 + space * 2 ^ 55 + (n % 256) * 2 ^ 47 + (n / 256) * 2 ^ 40 + off)
/-- Builds the SRC of an edge or service die (R212). -/
def edgeAddr (panel id tag : Nat) : W64 := BitVec.ofNat 64 (panel * 2 ^ 58 + 5 * 2 ^ 55 + id * 2 ^ 49 + tag % 65536)

/-- Status codes of packets (R213). -/
def stBadAddress : Nat := 0x01
def stNoRoute : Nat := 0x02
def stHole : Nat := 0x03
def stNotReady : Nat := 0x04
def stSiteOff : Nat := 0x05
def stSiteDark : Nat := 0x06
def stTimeout : Nat := 0x07
def stUncorr : Nat := 0x08
def stHostErr : Nat := 0x09

end Sys2Proof.Machine
end

