-- ==== Sys2Proof/Machine/Events.lean ====
section
/-! DEFINITION. What every family raises: MSI-X messages (R292), the event ring (R327 to R330) with the log's copy (R457), completion records (R302 to
R305), endings of descriptors, and causes of context faults (R319). -/

namespace Sys2Proof.Machine

/-- A port is cut off from the host (R287). -/
def Port.cut (p : Port) : Bool := p.cutLink || p.cutFlr || p.cutBme

/-- Appends to what the panel sends to the host. -/
def State.send (s : State) (x : HostTxn) : State := s.modHost fun h => { h with out := h.out ++ [x] }

/-- A port issues no request: it is cut off, or in D3hot (R285, R287; log entry 93). -/
def Port.mute (p : Port) : Bool := p.cut || p.d3hot
/-- The writes on the link that carry bytes: none longer than the maximum payload size or across a 4 KiB boundary (R285; log entry 93). -/
def linkWrites (mps : Nat) : Nat → Nat → List Byte → List (Nat × List Byte)
  | 0, _, _ => []
  | n + 1, a, bs =>
    if bs.length ≤ min mps (4096 - a % 4096) then [(a, bs)]
    else (a, bs.take (min mps (4096 - a % 4096))) :: linkWrites mps n (a + min mps (4096 - a % 4096)) (bs.drop (min mps (4096 - a % 4096)))
/-- A posted write through a port; nothing goes through a port that is cut off or in D3hot (R285, R287). -/
def State.hostWrite (s : State) (port addr : Nat) (bytes : List Byte) (relaxed : Bool) : State :=
  let p := s.port port
  if p.mute then s else (linkWrites p.mps (bytes.length + 1) addr bytes).foldl (fun s w => s.send (.write port w.1 w.2 relaxed p.ecrcGen)) s

/-- The message of an MSI-X vector: pending where the entry or the function is masked, lost where the port is cut off (R287, R292). -/
def State.sendMsix (s : State) (port vec : Nat) : State :=
  let p := s.port port
  if p.mute then s
  else
    let e := tget {} p.msix vec
    if e.mask || p.fmask then s.modPort port fun p => { p with msix := tput {} p.msix vec { e with pend := true } }
    else s.send (.msix port (e.addrHi.toNat * 2 ^ 32 + e.addrLo.toNat) e.data p.ecrcGen)

/-- What an event says beside its time (R328). -/
structure Ev where
  code : Nat
  part : Nat := 0
  /-- The context and its epoch, where one is concerned. -/
  ctx : Option (Nat × Nat) := none
  core : Nat := 0
  cont : Bool := false
  kind : Nat := 0
  source : Nat := 0
  d0 : Nat := 0
  d1 : Nat := 0
deriving DecidableEq, Repr, Inhabited

/-- Word 0 of an event record, PHASE left out (R328). -/
def Ev.word0 (e : Ev) : Nat :=
  e.code % 65536 * 2 ^ 48 + e.part % 16 * 2 ^ 44 +
    (match e.ctx with
      | some (c, ep) => 2 ^ 43 + c % 4096 * 2 ^ 31 + ep % 16 * 2 ^ 27
      | none => 0) +
    e.core % 4 * 2 ^ 25 + b2n e.cont * 2 ^ 24 + e.kind % 16 * 2 ^ 20 + e.source % 32768 * 2

/-- The event ring takes records (R330). -/
def State.evtOpen (s : State) : Bool :=
  let r := s.host.evt
  r.en && decide (6 ≤ r.log2 ∧ r.log2 ≤ 20) && !(s.port r.port).mute
def State.evtRoom (s : State) : Bool :=
  s.evtOpen && (s.host.evt.tail - s.host.evt.head).toNat != 2 ^ s.host.evt.log2

/-- Writes one record into the ring: words 1 to 3 first, then word 0 with PHASE, then the message (R328, R330). -/
def State.evtRecord (s : State) (w0 w1 w2 w3 : Nat) : State :=
  let r := s.host.evt
  let k := r.tail.toNat
  let a := r.base + 32 * (k % 2 ^ r.log2)
  let ph := (k / 2 ^ r.log2 + 1) % 2
  let s := s.hostWrite r.port (a + 8) (leBytes 8 w1 ++ leBytes 8 w2 ++ leBytes 8 w3) false
  let s := s.hostWrite r.port a (leBytes 8 (w0 + ph)) false
  let s := s.modHost fun h => { h with evt := { h.evt with tail := h.evt.tail + 1 } }
  if r.irqEn && !r.sent then (s.modHost fun h => { h with evt := { h.evt with sent := true } }).sendMsix r.port r.vec else s

/-- An event lost to the ring (R330). -/
def State.evtLose (s : State) : State :=
  s.modHost fun h => { h with evt := { h.evt with lost := satAdd h.evt.lost 1, since := h.evt.since + 1 } }

/-- A service die runs (R478, R482): none does before power-on. -/
def State.svRuns (s : State) : Bool := s.pwr.powered && (s.hlt.sva == .active || s.hlt.svb == .active)

/-- Brings a record to the ring, behind an EVT_OVERFLOW record where events were lost (R330). -/
def State.evtPut (s : State) (w0 w1 w2 w3 : Nat) : State :=
  if s.evtRoom then
    let n := s.host.evt.since
    let s1 :=
      if n = 0 then s
      else
        let s' := s.modHost fun h => { h with evt := { h.evt with since := 0 } }
        s'.evtRecord ({ code := 0x0013 : Ev }).word0 s.time n 0
    if s1.evtRoom then s1.evtRecord w0 w1 w2 w3 else s1.evtLose
  else s.evtLose

/-- The records that the ring still takes. -/
def State.evtFree (s : State) : Nat := if s.evtOpen then 2 ^ s.host.evt.log2 - (s.host.evt.tail - s.host.evt.head).toNat else 0
/-- Brings the two records of one event to the ring (R329, R330): where the first is discarded the second is too, as one event; a second that finds no room is discarded
alone (log entry 23). -/
def State.evtPut2 (s : State) (a0 a1 a2 a3 b0 b1 b2 b3 : Nat) : State :=
  let s1 := s.evtPut a0 a1 a2 a3
  if s.evtFree < (if s.host.evt.since = 0 then 1 else 2) then s1 else s1.evtPut b0 b1 b2 b3

/-- A record for the log: lost where the buffer holds 128 (R457). -/
def State.logPut (s : State) (w0 w1 w2 w3 : Nat) : State :=
  s.modSpi fun p =>
    if p.logBuf.length < 128 then
      { p with logBuf := p.logBuf ++ [{ w0 := BitVec.ofNat 64 w0, w1 := BitVec.ofNat 64 w1, w2 := BitVec.ofNat 64 w2, w3 := BitVec.ofNat 64 w3 }] }
    else { p with logLost := p.logLost + 1 }

/-- A bring-up record of the log: SRCKIND 7 (R457). -/
def State.bootLog (s : State) (code d0 d1 : Nat) : State :=
  s.logPut (code * 2 ^ 48 + 7 * 2 ^ 20) s.time d0 d1

/-- The events that the PCIe edge dies raise themselves while no service die runs (R482): DOORBELL_DROP, PORT_DOWN, PORT_UP, SV_LOST. -/
def edgeRaised (code : Nat) : Bool := code == 0x0012 || code == 0x0014 || code == 0x0015 || code == 0x050C

/-- Raises an event that arose at a time (R328): the ring takes it (R327 to R330), and the log those of codes 0x0100 to 0x06FF (R457). While no service die runs, log writing
stops and every event but those of the PCIe edge dies is lost (R482). -/
def State.raiseAt (s : State) (at_ : Nat) (e : Ev) : State :=
  if !s.svRuns then (if edgeRaised e.code then s.evtPut e.word0 at_ e.d0 e.d1 else s)
  else
  let s := if 0x0100 ≤ e.code ∧ e.code ≤ 0x06FF then s.logPut e.word0 at_ e.d0 e.d1 else s
  s.evtPut e.word0 at_ e.d0 e.d1
/-- Raises an event that arises now. -/
def State.raise (s : State) (e : Ev) : State := s.raiseAt s.time e

/-- Raises an event of two records (R329, R330): both go to the ring, or the event is lost as one. -/
def State.raise2 (s : State) (a b : Ev) : State :=
  if !s.svRuns then s
  else
    let s := (s.logPut a.word0 s.time a.d0 a.d1).logPut b.word0 s.time b.d0 b.d1
    s.evtPut2 a.word0 s.time a.d0 a.d1 b.word0 s.time b.d0 b.d1

/-- The partition of the site that serves a tile, 0 where it is in none. -/
def State.tilePart (s : State) (t : Nat) : Nat := (s.tileSt t).part.getD 0

/-- An event of a tile (SRCKIND 1), of a site by its site number (2), of an edge die (3), of a host port (4), of the panel (0). -/
def State.raiseTile (s : State) (code t core : Nat) (ctx : Option (Nat × Nat)) (d0 d1 : Nat) : State :=
  s.raise { code, part := s.tilePart t, ctx, core, kind := 1, source := t, d0, d1 }
/-- An event of a physical site. SOURCE is its site number, 0x1FF for a spare site (R408; log entry 9). -/
def State.siteSource (s : State) (p : Nat) : Nat := (s.logical p).getD 0x1FF
def State.raiseSite (s : State) (code p d0 d1 : Nat) : State :=
  s.raise { code, part := (s.site p).part.getD 0, kind := 2, source := s.siteSource p, d0, d1 }
def State.raiseEdge (s : State) (code id d0 d1 : Nat) : State := s.raise { code, kind := 3, source := id, d0, d1 }
def State.raisePort (s : State) (code port d0 d1 : Nat) : State := s.raise { code, kind := 4, source := port, d0, d1 }
def State.raisePanel (s : State) (code d0 d1 : Nat) : State := s.raise { code, d0, d1 }
def State.raiseCtx (s : State) (code c d0 d1 : Nat) : State :=
  let x := s.ctx c
  s.raise { code, part := x.cfg.part, ctx := some (c, x.epoch), d0, d1 }

/-! ### Completion records -/

/-- TAG, IRQ and ORD of a descriptor's word 0 (R308). -/
def Desc.w (d : Desc) (k : Nat) : W64 := lget 0 d.ws k
def Desc.opc (d : Desc) : Nat := bitsOf (d.w 0) 63 56
def Desc.irq (d : Desc) : Bool := bitOf (d.w 0) 55
def Desc.ord (d : Desc) : Bool := bitOf (d.w 0) 54
def Desc.tag (d : Desc) : Nat := bitsOf (d.w 0) 31 0

/-- Writes one completion record: word 1, then word 0 (R302, R303), and its interrupt (R305); lost through a port that is cut off (R287). The step
watchdog starts anew (R321). -/
def State.complete (s : State) (c : Nat) (n : W32) (tag : Nat) (irq : Bool) (e : Ending) : State :=
  let x := s.ctx c
  let s := s.setCtx c { x with wdogAt := s.time }
  if (s.port x.cfg.port).mute then s
  else
    let k := x.cqTail.toNat
    let a := x.cfg.cqBase + 16 * (k % 2 ^ x.cfg.cqLog2)
    let ph := (k / 2 ^ x.cfg.cqLog2 + 1) % 2
    let w0 := tag * 2 ^ 32 + n.toNat % 65536 * 2 ^ 16 + e.status * 2 ^ 8 + b2n e.skipped * 2 ^ 7 + ph
    let s := s.hostWrite x.cfg.port (a + 8) (leBytes 8 e.result.toNat) false
    let s := s.hostWrite x.cfg.port a (leBytes 8 w0) false
    let s := s.modCtx c fun x => { x with cqTail := x.cqTail + 1 }
    if x.cfg.irqEn && irq && !x.irqSent then (s.modCtx c fun x => { x with irqSent := true }).sendMsix x.cfg.port x.cfg.cvec else s

/-- RESULT of a status other than OK (R318). -/
def errResult (count detail core : Nat) (tile : Option Nat) : W64 :=
  BitVec.ofNat 64 (count * 2 ^ 32 + detail % 256 * 2 ^ 24 + core % 4 * 2 ^ 16 +
    match tile with
    | some t => 2 ^ 15 + t % 32768
    | none => 0)

def okEnding (result : Nat) : Ending := { status := 0, result := BitVec.ofNat 64 result, skipped := false }
def errEnding (status count detail core : Nat) (tile : Option Nat) : Ending :=
  { status, result := errResult count detail core tile, skipped := false }

/-- A cause of a context fault has arisen (R319). -/
def State.note (s : State) (x : FaultNote) : State := s.modHost fun h => { h with faults := h.faults ++ [x] }

/-- Updates a descriptor in flight. -/
def modInfl (f : InFl → InFl) (n : W32) : List InFl → List InFl
  | [] => []
  | x :: r => if x.d.n = n then f x :: r else x :: modInfl f n r
def State.modDesc (s : State) (c : Nat) (n : W32) (f : InFl → InFl) : State :=
  s.modCtx c fun x => { x with inflight := modInfl f n x.inflight }
def State.desc (s : State) (c : Nat) (n : W32) : Option InFl := (s.ctx c).inflight.find? fun x => x.d.n = n

/-- A descriptor in flight has reached its end: OK waits for DESCRIPTOR_COMPLETE, any other status but ABORTED faults the context with cause
DESCRIPTOR (R307, R317, R319). A descriptor that has ended keeps its first ending. -/
def State.endDesc (s : State) (c : Nat) (n : W32) (e : Ending) : State :=
  match s.desc c n with
  | none => s
  | some x =>
    if x.fin.isSome then s
    else
      let s := s.modDesc c n fun x => { x with fin := some e }
      if e.status = 0 then s
      else s.note { ctx := c, cause := 1, n := some n, ending := some e,
                    tile := if bitOf e.result 15 then some (bitsOf e.result 14 0) else none }

/-! ### LAUNCH and what its tiles report (R307, R312) -/

def minKey : List (Nat × Nat) → Option (Nat × Nat)
  | [] => none
  | x :: r =>
    match minKey r with
    | none => some x
    | some y => if y.1 < x.1 then some y else some x

/-- The first non-zero exit code in tile-number order (R307); entries are (tile × 4 + core, exit). -/
def firstExit (exits : List (Nat × Nat)) : Nat :=
  match minKey (exits.filter fun e => e.2 != 0) with
  | some e => e.2
  | none => 0

/-- Ends a LAUNCH whose condition of R307 or R312 holds: every tile has reported; then the failure of the lowest-numbered tile, or with DETACH the
acceptance, or the end of every started core. -/
def State.launchCheck (s : State) (c : Nat) (n : W32) : State :=
  match s.desc c n with
  | none => s
  | some x =>
    match x.prog with
    | .launch false targets reported live exits started fails =>
      if reported < targets then s
      else
        match minKey fails with
        | some (t, st) => s.endDesc c n (errEnding st 0 0 0 (some t))
        | none =>
          if bitOf (x.d.w 2) 27 then s.endDesc c n (okEnding started)
          else if live.isEmpty then s.endDesc c n (okEnding (firstExit exits * 2 ^ 32 + started))
          else s
    | _ => s

/-- A core that a LAUNCH watches has entered DONE with an exit code. -/
def State.launchCoreDone (s : State) (c : Nat) (n : W32) (t core exit : Nat) : State :=
  (s.modDesc c n fun x =>
    match x.prog with
    | .launch g tg rep live exits started fails =>
      { x with prog := .launch g tg rep (live.filter fun p => p != (t, core)) (exits ++ [(t * 4 + core, exit)]) started fails }
    | _ => x).launchCheck c n

/-- A tile has reported on its start (R312): the cores it started, or a failure status. -/
def State.launchReport (s : State) (c : Nat) (n : W32) (t : Nat) (cores : List Nat) (fail : Nat) : State :=
  (s.modDesc c n fun x =>
    match x.prog with
    | .launch g tg rep live exits started fails =>
      { x with prog := .launch g tg (rep + 1) (live ++ cores.map fun k => (t, k)) exits (started + cores.length)
                  (if fail = 0 then fails else fails ++ [(t, fail)]) }
    | _ => x).launchCheck c n

/-! ### Traps and engine halts as causes of a context fault -/

/-- The panel faults the context of a core that entered TRAP: its LAUNCH reports it where one with DETACH = 0 is in flight, otherwise cause
CORE_TRAP (R176, R317, R319). -/
def State.noteTrap (s : State) (t core : Nat) (k : Core) : State :=
  if !k.ctxv then s
  else
    match k.launch with
    | some n =>
      match s.desc k.ctx n with
      | some _ => s.endDesc k.ctx n (errEnding 0x08 0 k.cause.toNat core (some t))
      | none => s.note { ctx := k.ctx, cause := 2, n := none, ending := none, tile := some t }
    | none => s.note { ctx := k.ctx, cause := 2, n := none, ending := none, tile := some t }

/-- The contexts with a program on a tile, each once, with the LAUNCH that reports for it (R77, R207). -/
def Tile.programs (s : State) (t : Tile) : List (Nat × Option W32) :=
  [0, 1, 2, 3].foldl (fun acc c =>
    let k := t.core c
    if k.ctxv && decide ((s.ctx k.ctx).epoch = k.epoch) && !(acc.any fun p => p.1 == k.ctx && (p.2.isSome || k.launch.isNone)) then
      (acc.filter fun p => p.1 != k.ctx) ++ [(k.ctx, k.launch)]
    else acc) []

/-- The panel faults every context with a program on a tile whose engine halted (R77, R319). -/
def State.noteHalt (s : State) (t : Nat) (code : Nat) : State :=
  (Tile.programs s (s.tile t)).foldl (fun s p =>
    match p.2 with
    | some n =>
      match s.desc p.1 n with
      | some _ => s.endDesc p.1 n (errEnding 0x09 0 code 0 (some t))
      | none => s.note { ctx := p.1, cause := 3, n := none, ending := none, tile := some t }
    | none => s.note { ctx := p.1, cause := 3, n := none, ending := none, tile := some t }) s

/-- The contexts with a program on a tile that is lost: cause TILE_LOST (R319); only programs still running are lost with it. -/
def State.noteLost (s : State) (t : Nat) : State :=
  let T := s.tile t
  ([0, 1, 2, 3].foldl (fun acc c =>
    let k := T.core c
    if k.ctxv && (k.st == .run || k.st == .wait) && !acc.contains k.ctx then acc ++ [k.ctx] else acc) []).foldl
    (fun s c => s.note { ctx := c, cause := 5, n := none, ending := none, tile := some t }) s

/-! ### Stopping a context's programs (R177, R226) -/

/-- Stops the cores of a context on one tile and frees its trackers; a load of the context ends with ABORT (R177, R205, R226). -/
def Core.stop (k : Core) : Core := { k with st := .stop, tq := [], waiting := none, ending := false, launch := none, resv := none }
def Tile.stopCtx (t : Tile) (c : Nat) : Tile :=
  let cores := tmap {} (fun k => if k.ctxv && k.ctx == c && (k.st == .run || k.st == .wait) then k.stop else k) t.cores
  let trks := t.trks.filter fun e => !(e.2.ctx == c)
  let ld := t.ld
  let mine := match ld.cur with
    | some r => r.ctx == c
    | none => false
  { t with cores := cores, trks := trks,
           ld := { ld with abort := ld.abort || mine, waiting := ld.waiting.filter fun r => r.ctx != c } }
/-- Stops a context everywhere; starts and loads on their way to a tile are discarded (R177, R205, R320). -/
def State.stopCtx (s : State) (c : Nat) : State :=
  { s with tiles := tmap {} (fun T => T.stopCtx c) s.tiles,
           fab := { s.fab with starts := s.fab.starts.filter (fun m => m.ctx != c), loads := s.fab.loads.filter (fun r => r.ctx != c) } }

end Sys2Proof.Machine
end

