-- ==== Sys2Proof/Machine/HealthOps.lean ====
section
/-! DEFINITION. What faults do to a tile's health (R470 to R474, R490): penalties, SUSPECT, candidates, fencing, defects and learned records, cell
ceilings, and uncorrectable words (R254). -/

namespace Sys2Proof.Machine

/-! ### Learned records and defects (R446, R456) -/

/-- A learned-record entry takes the next SEQ and waits to be written (R455, R456). -/
def State.learn (s : State) (type : Nat) (payload : List W64) : State :=
  s.modSpi fun p => { p with lrWait := p.lrWait ++ [{ type, seq := p.lrNext, payload }], lrNext := p.lrNext + 1 }

/-- DEFECT word 0 (R456). -/
def defectWord (kind pc pr trow tpos face link cause : Nat) : W64 :=
  BitVec.ofNat 64 (kind * 2 ^ 60 + pc * 2 ^ 55 + pr * 2 ^ 51 + trow * 2 ^ 48 + tpos * 2 ^ 43 + face * 2 ^ 41 + link * 2 ^ 36 + cause * 2 ^ 24)

/-- The unit a DEFECT names: word 0 without its cause. -/
def unitOf (w : W64) : Nat := bitsOf w 63 36
/-- Word 0 of the first piece of a REMAP map; the other pieces carry their number (log entry 61). -/
def remapHead (k : Nat) : W64 := BitVec.ofNat 64 (0xA * 2 ^ 60 + k)

/-- Seconds since t0 (R456). -/
def State.bootSec (s : State) : Nat := (s.time - s.spi.t0) / sec

/-- Writes a DEFECT entry: the map holds the unit with the entry's SEQ (R444, R456, R491). -/
def State.addDefect (s : State) (w0 : W64) (selfTest : Bool) : State :=
  let q := s.spi.lrNext
  let s := s.learn 1 [w0, BitVec.ofNat 64 (s.spi.bootNum.toNat * 2 ^ 32 + s.bootSec % 2 ^ 32)]
  s.modHlt fun h =>
    if h.defects.any fun d => unitOf d.word0 == unitOf w0 then
      { h with defects := h.defects.map fun d =>
          if unitOf d.word0 = unitOf w0 then { d with word0 := w0, srcLearned := true, srcTest := d.srcTest || selfTest, seq := q } else d }
    else { h with defects := h.defects ++ [{ word0 := w0, srcFuse := false, srcLearned := true, srcTest := selfTest, seq := q }] }

/-- A finding of self-test that gets no entry: the map names the unit (R444, R476). -/
def State.foundOnly (s : State) (w0 : W64) : State :=
  s.modHlt fun h => { h with defects := h.defects ++ [{ word0 := w0, srcFuse := false, srcLearned := false, srcTest := true, seq := 0 }] }

/-- A tile position is bad under R444. -/
def State.posBad (s : State) (p tr pos : Nat) : Bool :=
  let u := unitOf (defectWord 0 (p / 16) (p % 16) tr pos 0 0 0)
  s.hlt.defects.any fun d => unitOf d.word0 == u
/-- A die of a site is bad: KIND 1 base, 2 compute, 3 SRAM (R456). -/
def State.dieBad (s : State) (kind p : Nat) : Bool :=
  let u := unitOf (defectWord kind (p / 16) (p % 16) 0 0 0 0 0)
  s.hlt.defects.any fun d => unitOf d.word0 == u

/-- The row of a tile has a usable spare position (R473). -/
def State.spareOk (s : State) (t : Nat) : Bool :=
  let p := s.tilePhys t
  !s.posBad p (tileTR t) ((s.site p).sparePos (tileTR t))

/-- The DEFECT word of a tile's present position. -/
def State.tileDefect (s : State) (t cause : Nat) : W64 :=
  let p := s.tilePhys t
  defectWord 0 (p / 16) (p % 16) (tileTR t) (s.tilePos t) 0 0 cause

/-! ### Cells and timing detections (R489, R490) -/

def SiteMrg.cell (m : SiteMrg) : Nat := (m.bin - 2) * 3 + m.cls
def SiteMrg.cellCeilOf (m : SiteMrg) (c : Nat) : Nat := tget 15 m.cellCeil c
/-- The ageing ceiling of R370 and R490. -/
def SiteMrg.ceiling (m : SiteMrg) : Nat := min m.siteCeil (m.cellCeilOf m.cell)
def week : Nat := 604800 * sec

/-- Nibble-packed and byte-packed words of a site's margin state (R492, R493). -/
def nibbles (f : Nat → Nat) (base n : Nat) : Nat := (rangeFrom 0 n).foldl (fun a i => a + f (base + i) % 16 * 16 ^ i) 0
def bytesOf (f : Nat → Nat) (base n : Nat) : Nat := (rangeFrom 0 n).foldl (fun a i => a + f (base + i) % 256 * 256 ^ i) 0
def SiteMrg.fltCount (m : SiteMrg) (now c : Nat) : Nat :=
  let k := ((tget [] m.cellFlt c).filter fun t => decide (now < t + week)).length
  if 15 < k then 15 else k
/-- VSSET of R492: (VS − 0.700 V) in 5 mV units. -/
def SiteMrg.vsset (m : SiteMrg) : Nat := (m.vsSet - 700) / 5

/-- The MARGIN payload of a site (R493). -/
def State.marginPayload (s : State) (p : Nat) : List W64 :=
  let m := (s.site p).mrg
  let ceilW (b : Nat) : Nat := nibbles m.cellCeilOf b 16
  let fltW (b : Nat) : Nat := nibbles (m.fltCount s.time) b 16
  [BitVec.ofNat 64 (p / 16 * 2 ^ 59 + p % 16 * 2 ^ 55 + m.siteCeil % 16 * 2 ^ 48 + m.age % 65536 * 2 ^ 32 + m.sweeps % 65536 * 2 ^ 16
      + m.vsset % 256 * 2 ^ 8 + m.margin15 % 256),
   m.sweptWord,
   BitVec.ofNat 64 (bytesOf (fun i => tget 0 m.trims i) 0 8), BitVec.ofNat 64 (bytesOf (fun i => tget 0 m.trims i) 8 8),
   BitVec.ofNat 64 (ceilW 0), BitVec.ofNat 64 (ceilW 16), BitVec.ofNat 64 (fltW 0), BitVec.ofNat 64 (fltW 16)]
def State.learnMargin (s : State) (p : Nat) : State := s.learn 5 (s.marginPayload p)

/-- A change of a ceiling: a MARGIN entry and one CELL_CEILING event (R490, R494). -/
def State.ceilingChanged (s : State) (p cell ceil : Nat) : State :=
  (s.learnMargin p).raiseSite 0x0512 p (s.siteSource p) ((cell / 3 + 2) * 256 + cell % 3 * 16 + ceil % 16)

/-- A timing detection on a site in a cell and at a step (R490): counted, and acted on by the service die. -/
def State.detectAt (s : State) (p c k : Nat) : State :=
  let x := s.site p
  let keep (l : List Nat) : List Nat := l.filter fun t => decide (s.time < t + week)
  let flt : Tbl (List Nat) := (x.mrg.cellFlt.map fun e => (e.1, keep e.2)).filter fun e => !e.2.isEmpty
  let here := tget [] flt c ++ [s.time]
  let flt := tput [] flt c here
  let s := s.modSite p fun x => { x with mrg := { x.mrg with cellFlt := flt, cellAt := tput 0 x.mrg.cellAt c s.time } }
  let others := flt.any fun e => e.1 != c
  if s.svRuns = false then s
  else if others then
    if x.mrg.siteCeil = 0 then s
    else
      let s := s.modSite p fun x => { x with mrg := { x.mrg with siteCeil := x.mrg.siteCeil - 1 } }
      s.ceilingChanged p c (x.mrg.siteCeil - 1)
  else if 2 ≤ here.length ∧ k - 1 < x.mrg.cellCeilOf c then
    let s := s.modSite p fun x => { x with mrg := { x.mrg with cellCeil := tput 15 x.mrg.cellCeil c (k - 1) } }
    s.ceilingChanged p c (k - 1)
  else s
/-- A timing detection that arises now. -/
def State.timingDetect (s : State) (p : Nat) : State := s.detectAt p (s.site p).mrg.cell (s.site p).clk.cur

/-! ### Scores and candidates (R471 to R474) -/

/-- A self-test result with the cell it was taken in (R470): 0 passed, 1 failed. -/
def State.tag (s : State) (p : Nat) (failed : Bool) : State := s.modHlt fun h => { h with history := (p, (s.site p).mrg.cell, b2n failed) :: h.history }

/-- The tile leaves service: FENCED, its contexts fault with TILE_LOST, its cores enter STOP (R473). -/
def State.fence (s : State) (t : Nat) : State :=
  let s := s.noteLost t
  s.modTile t fun T =>
    { T with st := .fenced,
             cores := T.cores.map fun e => (e.1, if e.2.st == .run || e.2.st == .wait then e.2.stop else e.2) }

def hour : Nat := 3600 * sec
def State.rowKey (s : State) (t : Nat) : Nat := s.tilePhys t * 8 + tileTR t
/-- The automatic path may run in the row of a tile (R473, R474). -/
def State.autoPermitted (s : State) (t : Nat) : Bool :=
  s.hlt.auto && match tget none s.hlt.rowRet (s.rowKey t) with
    | none => true
    | some at_ => decide (at_ + 24 * hour ≤ s.time)
/-- Hours since the row's last automatic retirement; where there is none the manual states no value, and it is free (R474, R494; log entry 5). -/
def State.rowHours (s : State) (t : Nat) : Nat :=
  match tget none s.hlt.rowRet (s.rowKey t) with
  | none => (Config.hoursOfNone s.time).toNat
  | some at_ => (s.time - at_) / hour

/-- A tile becomes a candidate by its score (1) or a failed self-test slice (2) (R472 to R474). -/
def State.candidate (s : State) (t by_ : Nat) : State :=
  if (s.tile t).cand then s
  else if s.autoPermitted t then
    let s := s.modTile t fun T => { T with cand := true, candBy := by_ }
    let s := s.raiseTile 0x0501 t 0 none t by_
    (s.fence t).modTile t fun T => { T with retest := true, retestOf := 0 }
  else
    let s := s.modTile t fun T => { T with cand := true, defer_ := true, candBy := by_, deferAt := s.time }
    let s := s.raiseTile 0x0504 t 0 none t (s.rowHours t)
    if by_ = 2 then (s.fence t).modTile t fun T => { T with retest := true, retestOf := 1 } else s

/-- After a fall of the score: SUSPECT below SUSTHR, a candidate at or below RETTHR (R472); without a service die this waits (R482). -/
def State.scoreCheck (s : State) (t : Nat) : State :=
  if s.svRuns = false then s.modTile t fun T => { T with due := max 1 T.due }
  else
  let T := s.tile t
  let s :=
    if T.st = .active ∧ T.score < s.hlt.susthr then
      (s.modTile t fun T => { T with st := .suspect }).raiseTile 0x0500 t 0 none t T.score
    else s
  if T.score ≤ s.hlt.retthr ∧ (T.st = .active ∨ T.st = .suspect) then s.candidate t 1 else s

/-- A happening of R471 by its place in the table of penalties: 0 retry, 1 engine halt, 2 SRAM_UE, 3 scratch, 4 lockstep, 5 corrections, 6 router
parity. -/
def State.penalise (s : State) (t kind : Nat) : State :=
  let n := lget 0 s.hlt.penalties kind
  let p := s.tilePhys t
  let s := s.modHlt fun h => { h with history := (p, (s.site p).mrg.cell, 16 + kind) :: h.history }
  (s.modTile t fun T => { T with score := T.score - n, quietSince := s.time }).scoreCheck t

/-- A reader meets an uncorrectable word of tile SRAM (R254): counted and recorded; an event and a penalty where the word is not the one already
recorded. A scratch word comes with its word number in scratch (R182; DESIGN CHOICE, log entry 108). -/
def State.sramUe (s : State) (t word : Nat) : State :=
  let T := s.tile t
  let known := T.errSeen && T.errAddr == word
  let s := s.setTile t { T with sramUncorr := T.sramUncorr + 1, errAddr := word, errSeen := true }
  if known then s else (s.raiseTile 0x0300 t 0 none (word * 8) 0).penalise t 2

/-- A reader meets every uncorrectable word of a list (R254). -/
def State.sramUes (s : State) (t : Nat) (ws : List Nat) : State := ws.foldl (fun s w => s.sramUe t w) s

/-- The first uncorrectable word of a range of tile SRAM. -/
def firstBad (bad : List Nat) (a n : Nat) : Option Nat := if n = 0 then none else bad.find? fun w => decide (a / 8 ≤ w ∧ w ≤ (a + n - 1) / 8)
/-- All the uncorrectable words of a range. -/
def allBad (bad : List Nat) (a n : Nat) : List Nat := bad.filter (covers a n)

end Sys2Proof.Machine
end

