-- ==== Sys2Proof/Machine/Float.lean ====
section
/-! DEFINITION. Number formats and arithmetic of the engine and packer (chapter Number Formats and Arithmetic): element types as exact
dyadic values, the one rounding into FP32, the accumulator's additions, and the packer's conversions. -/

namespace Sys2Proof.Machine

/-- An exact value: NaN, an infinity, or `m × 2^e` (R87, R88). -/
inductive Val where
  | nan
  | inf (neg : Bool)
  | fin (m : Int) (e : Int)
deriving DecidableEq, Repr, Inhabited

/-- Zero. -/
def Val.zero : Val := .fin 0 0

/-- Whether a value is zero; NaN and infinities are not (R95, R127). -/
def Val.isZero : Val → Bool
  | .fin m _ => m == 0
  | _ => false

/-- Element width in bits (R80, R81). -/
def etBits : Nat → Nat
  | 0 => 16
  | 1 => 8
  | 2 => 8
  | 3 => 6
  | 4 => 6
  | 5 => 4
  | 6 => 8
  | 7 => 32
  | _ => 8

/-- Exponent bits, mantissa bits and bias of a floating element type (R80). -/
def etShape : Nat → Nat × Nat × Nat
  | 0 => (8, 7, 127)
  | 1 => (4, 3, 7)
  | 2 => (5, 2, 15)
  | 3 => (3, 2, 3)
  | 4 => (2, 3, 1)
  | 5 => (2, 1, 1)
  | _ => (8, 23, 127)

/-- The finite value of exponent field `ef` and mantissa field `mf` (R80). -/
def finVal (neg : Bool) (mb bias ef mf : Nat) : Val :=
  let m : Nat := if ef = 0 then mf else 2 ^ mb + mf
  let e : Int := (if ef = 0 then 1 else (ef : Int)) - (bias : Int) - (mb : Int)
  .fin (if neg then -(m : Int) else m) e

/-- The value of an encoded element (R80, R87): INT8 is two's complement; E4M3 keeps one NaN pattern; BF16, E5M2 and FP32 have infinities and
NaN; FP6 and FP4 have neither. -/
def decodeElem (et raw : Nat) : Val :=
  if et = 6 then .fin (toSigned 8 raw) 0
  else
    let (eb, mb, bias) := etShape et
    let neg := (raw / 2 ^ (eb + mb)) % 2 == 1
    let ef := (raw / 2 ^ mb) % 2 ^ eb
    let mf := raw % 2 ^ mb
    if et = 1 then
      if ef = 15 ∧ mf = 7 then .nan else finVal neg mb bias ef mf
    else if et = 0 ∨ et = 2 ∨ et = 7 then
      if ef = 2 ^ eb - 1 then (if mf = 0 then .inf neg else .nan) else finVal neg mb bias ef mf
    else finVal neg mb bias ef mf

/-- `m / 2^sh` rounded to nearest, ties to even. -/
def rne (m sh : Nat) : Nat :=
  let q := m / 2 ^ sh
  let r := m % 2 ^ sh
  if r * 2 < 2 ^ sh then q
  else if 2 ^ sh < r * 2 then q + 1
  else if sh = 0 then q
  else q + q % 2

/-- The canonical FP32 NaN (R82). -/
def fp32Nan : W32 := 0x7FC00000#32
/-- An FP32 infinity. -/
def fp32Inf (neg : Bool) : W32 := if neg then 0xFF800000#32 else 0x7F800000#32
/-- An FP32 zero of a sign. -/
def fp32Zero (neg : Bool) : W32 := if neg then 0x80000000#32 else 0#32

/-- round_fp32 (R90): 24 significant bits, nearest, ties to even, exponent unbounded; then infinity from 2^128, and zero of the sign below
2^−126; an exact zero gives +0. -/
def roundFp32 (m : Int) (e : Int) : W32 :=
  if m = 0 then 0
  else
    let neg := decide (m < 0)
    let a := m.natAbs
    let sh := Nat.log2 a - 23
    let r := rne a sh
    let lg := Nat.log2 r
    let ex : Int := (lg : Int) + e + (sh : Int)
    if 128 ≤ ex then fp32Inf neg
    else if ex < -126 then fp32Zero neg
    else
      let frac := if lg ≤ 23 then r * 2 ^ (23 - lg) else r / 2 ^ (lg - 23)
      let bits := (ex + 127).toNat * 2 ^ 23 + (frac - 2 ^ 23)
      BitVec.ofNat 32 ((if neg then 2 ^ 31 else 0) + bits)

/-- An FP32 word as a value. -/
def fp32Val (w : W32) : Val := decodeElem 7 w.toNat

/-- The exact sum of two dyadic numbers. -/
def dyAdd (m1 : Int) (e1 : Int) (m2 : Int) (e2 : Int) : Int × Int :=
  if m1 = 0 then (m2, e2)
  else if m2 = 0 then (m1, e1)
  else if e1 ≤ e2 then (m1 + m2 * ((2 : Int) ^ (e2 - e1).toNat), e1)
  else (m1 * ((2 : Int) ^ (e1 - e2).toNat) + m2, e2)

/-- The FP32 addition of the accumulator (R91). -/
def fp32Add (a b : W32) : W32 :=
  match fp32Val a, fp32Val b with
  | .nan, _ => fp32Nan
  | _, .nan => fp32Nan
  | .inf x, .inf y => if x = y then fp32Inf x else fp32Nan
  | .inf x, _ => fp32Inf x
  | _, .inf y => fp32Inf y
  | .fin m1 e1, .fin m2 e2 =>
    if m1 = 0 ∧ m2 = 0 then fp32Zero (a.getLsbD 31 && b.getLsbD 31)
    else roundFp32 (dyAdd m1 e1 m2 e2).1 (dyAdd m1 e1 m2 e2).2

/-- The INT32 addition that saturates (R46). -/
def satInt32 (v : Int) : Int := if v < -2147483648 then -2147483648 else if 2147483647 < v then 2147483647 else v
def int32Add (a b : W32) : W32 := ofSigned 32 (satInt32 (a.toInt + b.toInt))

/-- A running accumulation block: the exact sum, and what special products it has met (R45, R88). -/
structure Block where
  m : Int := 0
  e : Int := 0
  nan : Bool := false
  pinf : Bool := false
  ninf : Bool := false
deriving DecidableEq, Repr, Inhabited

/-- Adds the product of two elements to a block (R45, R88). -/
def Block.mac (b : Block) (x y : Val) : Block :=
  match x, y with
  | .nan, _ => { b with nan := true }
  | _, .nan => { b with nan := true }
  | .inf s, .inf t => if s = t then { b with pinf := true } else { b with ninf := true }
  | .inf s, .fin m _ =>
    if m = 0 then { b with nan := true } else if s = decide (m < 0) then { b with pinf := true } else { b with ninf := true }
  | .fin m _, .inf t =>
    if m = 0 then { b with nan := true } else if t = decide (m < 0) then { b with pinf := true } else { b with ninf := true }
  | .fin m1 e1, .fin m2 e2 =>
    let r := dyAdd b.m b.e (m1 * m2) (e1 + e2)
    { b with m := r.1, e := r.2 }

/-- A block whose exact sum has changed by `d` units of 2^`unit` (R75, R89). -/
def Block.changed (b : Block) (d unit : Int) : Block :=
  let r := dyAdd b.m b.e d unit
  { b with m := r.1, e := r.2 }
/-- The exact sum in units of 2^`unit`, the lowest bit of its class. -/
def Block.units (b : Block) (unit : Int) : Int := b.m * (2 : Int) ^ (b.e - unit).toNat

/-- The residues that the clinker check compares (R72, R73). -/
def residues (x : Int) : Int × Int := (x % 3, x % 7)
/-- The clinker check sees that a block sum is not the expected one (R72, R75). -/
def clinker (expected actual : Int) : Bool := residues expected != residues actual

/-- The exponent a scale byte stands for (R83). -/
def scaleExp (b : Byte) : Int := (b.toNat : Int) - 127

/-- The block sum v of a floating class (R46, R86, R88). -/
def Block.v (b : Block) (sa sb : Byte) : W32 :=
  if b.nan ∨ (b.pinf ∧ b.ninf) ∨ sa = 0xFF ∨ sb = 0xFF then fp32Nan
  else if b.pinf then fp32Inf false
  else if b.ninf then fp32Inf true
  else roundFp32 b.m (b.e + scaleExp sa + scaleExp sb)

/-- The block sum of the INT8 class (R46). -/
def Block.vInt (b : Block) : W32 := BitVec.ofInt 32 (b.m * ((2 : Int) ^ b.e.toNat))

/-! ### The packer's conversions (R93 to R96) -/

/-- A magnitude `a × 2^e` (a not 0) in a floating format with `mb` mantissa bits and a bias: the encoding without sign, one rounding to nearest even,
gradual below the smallest normal. The encodings rise with the values, so an overflow shows as a code above the largest finite one. -/
def encMag (mb bias : Nat) (a : Nat) (e : Int) : Nat :=
  let lg : Int := (Nat.log2 a : Int) + e
  let emin : Int := 1 - (bias : Int)
  let q : Int := (if lg < emin then emin else lg) - (mb : Int)
  let r : Nat := if q ≤ e then a * 2 ^ (e - q).toNat else rne a (q - e).toNat
  (q - emin + (mb : Int)).toNat * 2 ^ mb + r

/-- The largest finite encoding of each type, without its sign (R80, R94). -/
def maxFinite : Nat → Nat
  | 0 => 0x7F7F
  | 1 => 0x7E
  | 2 => 0x7B
  | 3 => 0x1F
  | 4 => 0x1F
  | 5 => 0x7
  | _ => 0x7F7FFFFF

/-- Stage 3: a value in OTYPE (R94, R95). `intRow` marks a row whose class bit is INT; for OTYPE 0x7 the 32-bit result is that of stage 2. -/
def convert (ot : Nat) (v : Val) : Nat :=
  let (eb, mb, bias) := etShape ot
  let sgn (neg : Bool) : Nat := if neg then 2 ^ (eb + mb) else 0
  let infOf (neg : Bool) : Nat :=
    if ot = 0 ∨ ot = 2 ∨ ot = 7 then sgn neg + (2 ^ eb - 1) * 2 ^ mb else sgn neg + maxFinite ot
  if ot = 6 then
    match v with
    | .nan => 0
    | .inf neg => if neg then 0x80 else 0x7F
    | .fin m e =>
      let a := if 0 ≤ e then m.natAbs * 2 ^ e.toNat else rne m.natAbs (-e).toNat
      if m < 0 then (if 128 ≤ a then 0x80 else (256 - a) % 256) else (if 127 ≤ a then 0x7F else a)
  else
    match v with
    | .nan => if ot = 0 then 0x7FC0 else if ot = 1 then 0x7F else if ot = 2 then 0x7E else if ot = 7 then 0x7FC00000 else 0
    | .inf neg => infOf neg
    | .fin m e =>
      if m = 0 then 0
      else
        let neg := decide (m < 0)
        let r := encMag mb bias m.natAbs e
        if r = 0 then 0
        else if maxFinite ot < r then (if ot = 0 ∨ ot = 7 then infOf neg else sgn neg + maxFinite ot)
        else sgn neg + r

/-- The exponent of the largest normal of OTYPE (R96). -/
def emax : Nat → Int
  | 1 => 8
  | 2 => 15
  | 3 => 4
  | 4 => 2
  | _ => 2

/-- Multiplies a value by 2^k, exactly. -/
def Val.scale (v : Val) (k : Int) : Val :=
  match v with
  | .fin m e => .fin m (e + k)
  | x => x

/-- Stage 1 on an accumulator word (R68, R93): FP32 with overflow to infinity and underflow to zero; INT32 with rounding half to even and
saturation. -/
def shiftStage (int : Bool) (sh : Int) (w : W32) : Val :=
  if int then
    let x := w.toInt
    let r : Int :=
      if 0 ≤ sh then x * ((2 : Int) ^ sh.toNat)
      else
        let a := rne x.natAbs (-sh).toNat
        if x < 0 then -(a : Int) else a
    .fin (satInt32 r) 0
  else
    match fp32Val w with
    | .fin m e => fp32Val (roundFp32 m (e + sh))
    | x => x

/-- Stage 2, ReLU (R93). -/
def reluStage (act : Nat) (v : Val) : Val :=
  if act = 1 then
    match v with
    | .inf true => Val.zero
    | .fin m e => if m < 0 then Val.zero else .fin m e
    | x => x
  else v

/-- floor(log2) of a magnitude `a × 2^e`, a not 0. -/
def floorLog2 (a : Nat) (e : Int) : Int := (Nat.log2 a : Int) + e

/-- The scale of a group of 32 values (R96). -/
def mxScale (ot : Nat) (vs : List Val) : Byte :=
  if vs.any (fun v => match v with | .fin _ _ => false | _ => true) then 0xFF
  else
    let lg : Option Int := vs.foldl (fun acc v =>
      match v with
      | .fin m e =>
        if m = 0 then acc
        else
          let l := floorLog2 m.natAbs e
          match acc with
          | none => some l
          | some k => some (if k < l then l else k)
      | _ => acc) none
    match lg with
    | none => 0x7F
    | some l =>
      let x := l - emax ot
      let x := if x < -127 then -127 else if 127 < x then 127 else x
      BitVec.ofNat 8 (x + 127).toNat

/-- The elements of a group against its scale (R96). -/
def mxElems (ot : Nat) (sc : Byte) (vs : List Val) : List Nat :=
  if sc = 0xFF then vs.map fun _ => 0
  else vs.map fun v => convert ot (v.scale (127 - (sc.toNat : Int)))

end Sys2Proof.Machine
end

