-- ==== Sys2Proof/Machine/Blocks.lean ====
section
/-! DEFINITION. Operand blocks in tile SRAM (chapter Sparse Formats): headers, the four storage formats, scales, and what a command reads. -/

namespace Sys2Proof.Machine

/-- Bytes of tile SRAM (R34, R251). -/
def sramSize : Nat := 0x180000

/-- A block header (R101). -/
structure Hdr where
  fmt : Nat
  etype : Nat
  rows : Nat
  cols : Nat
  density : Nat
  scaleptr : Nat
  /-- A reserved bit is set. -/
  resv : Bool
deriving DecidableEq, Repr, Inhabited

/-- Reads the header at an offset (R101). -/
def readHdr (m : Mem) (off : Nat) : Hdr :=
  let w0 := memWord m off 8
  let w1 := memWord m (off + 8) 8
  { fmt := w0 / 2 ^ 60 % 16, etype := w0 / 2 ^ 56 % 16, rows := w0 / 2 ^ 32 % 65536, cols := w0 / 2 ^ 16 % 65536,
    density := w1 / 2 ^ 32 % 2 ^ 32, scaleptr := w1 % 2 ^ 21,
    resv := w0 / 2 ^ 48 % 256 != 0 || w0 % 65536 != 0 || w1 / 2 ^ 21 % 2048 != 0 }

/-- The bytes of a header (R101). -/
def hdrBytes (h : Hdr) : List Byte :=
  leBytes 8 (h.fmt * 2 ^ 60 + h.etype * 2 ^ 56 + h.rows * 2 ^ 32 + h.cols * 2 ^ 16) ++ leBytes 8 (h.density * 2 ^ 32 + h.scaleptr)

/-- Row pitch P(n) (chapter Sparse Formats, Data layouts). -/
def pitch (et n : Nat) : Nat := ceilDiv (n * etBits et) 64 * 8

def Hdr.tr (h : Hdr) : Nat := ceilDiv h.rows 16
def Hdr.tc (h : Hdr) : Nat := ceilDiv h.cols 16

/-- Bytes of the bitmap (R106). -/
def Hdr.bitmapBytes (h : Hdr) : Nat :=
  if h.fmt = 2 then ceilDiv (h.tr * h.tc) 64 * 8 else if h.fmt = 3 then h.rows * (ceilDiv h.cols 64 * 8) else 0

/-- Bytes of the data area (R106). -/
def Hdr.dataBytes (h : Hdr) : Nat :=
  match h.fmt with
  | 0 => h.rows * pitch h.etype h.cols
  | 1 => h.rows / 2 * pitch h.etype h.cols + h.rows / 4 * (ceilDiv h.cols 16 * 8)
  | 2 => h.bitmapBytes + h.density * (32 * etBits h.etype)
  | _ => h.bitmapBytes + ceilDiv (h.density * etBits h.etype) 64 * 8

/-- MX scales are in use (R84). -/
def Hdr.scaled (h : Hdr) : Bool := decide (1 ≤ h.etype ∧ h.etype ≤ 5 ∧ h.scaleptr ≠ 0)

/-- The header and its block keep the rules of R103 and R108 for an A operand (`b` false) or a B operand. -/
def Hdr.good (h : Hdr) (off : Nat) (b : Bool) : Bool :=
  decide (off % 16 = 0 ∧ h.fmt ≤ 3 ∧ h.etype ≤ 7 ∧ h.rows ≠ 0 ∧ h.cols ≠ 0 ∧ off + 16 + h.dataBytes ≤ sramSize) && !h.resv
    && (!h.scaled || decide (h.scaleptr + (if b then h.cols * ceilDiv h.rows 32 else h.rows * ceilDiv h.cols 32) ≤ sramSize))
    && (h.fmt != 1 || h.rows % 32 == 0)

/-- One bit of a bitmap whose first byte is at `base`. -/
def memBit (m : Mem) (base i : Nat) : Bool := (memGet m (base + i / 8)).getLsbD (i % 8)

/-- The set bits among the first `n` bits of a bitmap. -/
def bitRank (m : Mem) (base : Nat) : Nat → Nat
  | 0 => 0
  | n + 1 => bitRank m base n + b2n (memBit m base n)

/-- The bit of EB8's bitmap for an element: byte g of a row covers columns 8g to 8g + 7 (R111). -/
def Hdr.ebBit (h : Hdr) (r c : Nat) : Nat := r * (ceilDiv h.cols 64 * 64) + c

/-- The set bits of the whole bitmap, padding ignored (R107, R114). -/
def Hdr.bitCount (h : Hdr) (m : Mem) (off : Nat) : Nat :=
  if h.fmt = 2 then bitRank m (off + 16) (h.tr * h.tc)
  else lsum ((rangeFrom 0 h.rows).map fun r => lsum ((rangeFrom 0 h.cols).map fun c => b2n (memBit m (off + 16) (h.ebBit r c))))

/-- Stored elements of an EB8 block before an element (R111). -/
def Hdr.ebRank (h : Hdr) (m : Mem) (off r c : Nat) : Nat :=
  lsum ((rangeFrom 0 r).map fun r' => lsum ((rangeFrom 0 h.cols).map fun c' => b2n (memBit m (off + 16) (h.ebBit r' c'))))
    + lsum ((rangeFrom 0 c).map fun c' => b2n (memBit m (off + 16) (h.ebBit r c')))

/-- The place of an element in bits from the start of the data area, none where the block leaves it out (R106 to R111). For S24, `r` is a stored
row. -/
def Hdr.elemPos (h : Hdr) (m : Mem) (off r c : Nat) : Option Nat :=
  match h.fmt with
  | 2 =>
    let i := r / 16 * h.tc + c / 16
    if memBit m (off + 16) i then
      some (h.bitmapBytes * 8 + (bitRank m (off + 16) i * 256 + r % 16 * 16 + c % 16) * etBits h.etype)
    else none
  | 3 => if memBit m (off + 16) (h.ebBit r c) then some (h.bitmapBytes * 8 + h.ebRank m off r c * etBits h.etype) else none
  | _ => some (r * pitch h.etype h.cols * 8 + c * etBits h.etype)

/-- `n` bits from a bit position of a memory. -/
def memBits (m : Mem) (base pos n : Nat) : Nat := memWord m (base + pos / 8) 5 / 2 ^ (pos % 8) % 2 ^ n

/-- Stored rows of the block: half the logical K under S24 (R101). -/
def Hdr.stored (h : Hdr) : Nat := if h.fmt = 1 then h.rows / 2 else h.rows

/-- The raw element at a (stored) row and a column; zero beyond the block and where absent (R57, R107, R110, R111). -/
def Hdr.elem (h : Hdr) (m : Mem) (off r c : Nat) : Nat :=
  if r < h.stored ∧ c < h.cols then
    match h.elemPos m off r c with
    | some p => memBits m (off + 16) p (etBits h.etype)
    | none => 0
  else 0

/-- The position code of group (q, n) of an S24 block; 0x4 beyond the block (R108). -/
def Hdr.code (h : Hdr) (m : Mem) (off q n : Nat) : Nat :=
  if q < h.rows / 4 ∧ n < h.cols then
    let b := memGet m (off + 16 + h.rows / 2 * pitch h.etype h.cols + q * (ceilDiv h.cols 16 * 8) + n / 2)
    if n % 2 = 0 then b.toNat % 16 else b.toNat / 16
  else 4

/-- The scale byte of an A block's row and group; 0x7F (exponent 0) where there is none (R83 to R85). -/
def Hdr.scaleA (h : Hdr) (m : Mem) (r g : Nat) : Byte :=
  if h.scaled ∧ r < h.rows ∧ g < ceilDiv h.cols 32 then memGet m (h.scaleptr + r * ceilDiv h.cols 32 + g) else 0x7F
/-- The scale byte of a B block's column and group (R83 to R85). -/
def Hdr.scaleB (h : Hdr) (m : Mem) (n g : Nat) : Byte :=
  if h.scaled ∧ n < h.cols ∧ g < ceilDiv h.rows 32 then memGet m (h.scaleptr + n * ceilDiv h.rows 32 + g) else 0x7F

/-- A range of bytes holds an uncorrectable word (R73, R254). -/
def badIn (bad : List Nat) (a n : Nat) : Bool := n != 0 && bad.any fun w => decide (a / 8 ≤ w ∧ w ≤ (a + n - 1) / 8)

/-- Of `n` scale bytes from index `g0`, those that exist: at most `total` (R85). -/
def scaleSpan (g0 n total : Nat) : Nat := min (g0 + n) total - g0

/-- Reading rows `r0 ..` and columns `c0 ..` of a block meets a word of the list: header, whole bitmap, and the elements present, in BB16 with the padding of
their tiles (R73, R113). -/
def Hdr.readsBad (h : Hdr) (bad : List Nat) (m : Mem) (off r0 nr c0 nc : Nat) : Bool :=
  !bad.isEmpty && (badIn bad off (16 + h.bitmapBytes) ||
    (rangeFrom r0 nr).any fun r => (rangeFrom c0 nc).any fun c =>
      (if h.fmt = 2 then decide (r / 16 < h.tr ∧ c / 16 < h.tc) else decide (r < h.stored ∧ c < h.cols)) &&
        match h.elemPos m off r c with
        | some p => badIn bad (off + 16 + p / 8) ((p % 8 + etBits h.etype + 7) / 8)
        | none => false)

end Sys2Proof.Machine
end

