-- ==== Sys2Proof/Machine/EngineOps.lean ====
section
/-! DEFINITION. The engine's operations: command fields, panels, exact block products, the packer, predictive executions, dispatch conditions,
faults and retries (chapters The Matrix Engine, Sparse Formats, Predicted Activity). -/

namespace Sys2Proof.Machine

/-! ### Command fields (R56 to R60) -/

def EngCmd.op (c : EngCmd) : Nat := bitsOf c.w0 63 60
def EngCmd.ord (c : EngCmd) : Bool := bitOf c.w0 59
def EngCmd.gen (c : EngCmd) : Bool := bitOf c.w0 58
def EngCmd.gctr (c : EngCmd) : Nat := bitsOf c.w0 57 52
def EngCmd.gsig (c : EngCmd) : Bool := bitOf c.w0 51
def EngCmd.den (c : EngCmd) : Bool := bitOf c.w0 50
def EngCmd.dctr (c : EngCmd) : Nat := bitsOf c.w0 49 44
def EngCmd.tag (c : EngCmd) : Nat := bitsOf c.w0 43 36
def EngCmd.b35 (c : EngCmd) : Bool := bitOf c.w0 35
def EngCmd.slot (c : EngCmd) : Bool := bitOf c.w0 34
def EngCmd.pred (c : EngCmd) : Bool := bitOf c.w0 33
def EngCmd.mrows (c : EngCmd) : Bool := bitOf c.w0 32
def EngCmd.accrow (c : EngCmd) : Nat := bitsOf c.w0 15 8
def EngCmd.mm1 (c : EngCmd) : Nat := bitsOf c.w0 7 0
def EngCmd.hdr (c : EngCmd) : Nat := bitsOf c.w1 52 32
def EngCmd.maskptr (c : EngCmd) : Nat := bitsOf c.w1 20 0
def EngCmd.hi16 (c : EngCmd) : Nat := bitsOf c.w2 63 48
def EngCmd.mid16 (c : EngCmd) : Nat := bitsOf c.w2 47 32
def EngCmd.klen (c : EngCmd) : Nat := bitsOf c.w2 31 16
def EngCmd.otype (c : EngCmd) : Nat := bitsOf c.w0 35 32
def EngCmd.ofmt (c : EngCmd) : Nat := bitsOf c.w0 31 30
def EngCmd.act (c : EngCmd) : Nat := bitsOf c.w0 29 28
def EngCmd.mxgen (c : EngCmd) : Bool := bitOf c.w0 27
def EngCmd.maskout (c : EngCmd) : Bool := bitOf c.w0 26
def EngCmd.keepacc (c : EngCmd) : Bool := bitOf c.w0 25
def EngCmd.shift (c : EngCmd) : Int := toSigned 8 (bitsOf c.w0 23 16)

/-- The accumulator rows of a command before MROWS (R48, R51). -/
def EngCmd.rows (c : EngCmd) : List Nat := (rangeFrom c.accrow (c.mm1 + 1)).map (· % 256)
def EngCmd.overlaps (c d : EngCmd) : Bool := c.rows.any d.rows.contains

/-- The fields that R57 to R59, R61 and R552 forbid (reserved bits, alignment, range). A KLEN of 0 is a multiple of every slice and names no panel: the model
counts it among them (log entry 82). MASKPTR counts only where the command uses it, with PRED or MASKOUT (DESIGN CHOICE, log entry 82). -/
def loadwFieldsBad (c : EngCmd) : Bool :=
  bitOf c.w0 35 || bitsOf c.w0 33 0 != 0 || bitsOf c.w1 63 53 != 0 || bitsOf c.w1 31 0 != 0 || bitsOf c.w2 15 0 != 0 || c.w3 != 0
    || c.hdr % 16 != 0 || c.hi16 % 32 != 0 || c.mid16 % 16 != 0 || c.klen % 32 != 0 || c.klen == 0
def mmaFieldsBad (c : EngCmd) : Bool :=
  bitsOf c.w0 31 16 != 0 || bitsOf c.w1 63 53 != 0 || bitsOf c.w1 31 21 != 0 || bitsOf c.w2 31 0 != 0 || c.w3 != 0 || c.hdr % 16 != 0
    || c.mid16 % 32 != 0
    || (c.pred && (c.maskptr % 8 != 0 || decide (16 ≤ c.maskptr % 32) || decide (sramSize < c.maskptr - c.maskptr % 32 + 32)
          || (c.maskptr % 32 == 8 && !c.b35)))
def storeFieldsBad (c : EngCmd) : Bool :=
  bitOf c.w0 24 || decide (64 ≤ c.mm1) || bitsOf c.w1 63 53 != 0 || bitsOf c.w1 31 21 != 0 || c.w2 != 0 || c.w3 != 0 || decide (8 ≤ c.otype)
    || decide (2 ≤ c.act) || c.hdr % 16 != 0 || (c.maskout && (c.maskptr % 8 != 0 || decide (sramSize < c.maskptr + 8)))

/-! ### Rate classes (R41) -/

/-- A rate class: cycles of a pass, slice and K max for an unpruned panel. -/
structure RateClass where
  int8 : Bool
  c : Nat
  slice : Nat
  kmax : Nat
  /-- The exponent of the accumulator's lowest bit (R89). -/
  unit : Int
deriving DecidableEq, Repr, Inhabited

def isFp8 (t : Nat) : Bool := decide (1 ≤ t ∧ t ≤ 4)
/-- The class of an A type against a B type and format; none outside the table of R41. -/
def rateClass (at_ bt bf : Nat) : Option RateClass :=
  let k := if bf = 1 then 2 else 1
  if bf = 3 then none
  else if at_ = 0 ∧ bt = 0 then some { int8 := false, c := 4, slice := 32 * k, kmax := 128 * k, unit := -266 }
  else if isFp8 at_ ∧ isFp8 bt then some { int8 := false, c := 1, slice := 32 * k, kmax := 256 * k, unit := -32 }
  else if isFp8 at_ ∧ bt = 5 then some { int8 := false, c := 1, slice := 32 * k, kmax := 512 * k, unit := -32 }
  else if at_ = 6 ∧ bt = 6 then some { int8 := true, c := 1, slice := 32 * k, kmax := 256 * k, unit := 0 }
  else if at_ = 5 ∧ bt = 5 then some { int8 := false, c := 1, slice := 64 * k, kmax := 512 * k, unit := -2 }
  else none
/-- K max of a panel by its own type and format (R41). -/
def panelKmax (bt bf : Nat) : Nat :=
  (if bt = 0 then 128 else if bt = 5 then 512 else 256) * (if bf = 1 then 2 else 1)

/-! ### LOADW (R58, R108 to R115) -/

/-- A weight is NaN or infinite. -/
def isSpecial (et raw : Nat) : Bool :=
  match decodeElem et raw with
  | .fin _ _ => false
  | _ => true

/-- The panel that a LOADW places: rows of the block from K0, 64 columns from N0 (R58, R108, R113, R115). -/
def loadPanel (m : Mem) (c : EngCmd) : Slot :=
  let h := readHdr m c.hdr
  let s24 := decide (h.fmt = 1)
  let nrows := if s24 then c.klen / 2 else c.klen
  let k0 := if s24 then c.hi16 / 2 else c.hi16
  let cols := rangeFrom 0 64
  let elems : Tbl W32 := (rangeFrom 0 nrows).foldl (fun acc k => cols.foldl (fun acc n =>
    tput 0 acc (k * 64 + n) (BitVec.ofNat 32 (h.elem m c.hdr (k0 + k) (c.mid16 + n)))) acc) []
  let codes : Tbl (BitVec 4) :=
    if s24 then (rangeFrom 0 (c.klen / 4)).foldl (fun acc q => cols.foldl (fun acc n =>
      tput 4#4 acc (q * 64 + n) (BitVec.ofNat 4 (h.code m c.hdr (c.hi16 / 4 + q) (c.mid16 + n)))) acc) []
    else []
  let scales : Tbl Byte := (rangeFrom 0 (c.klen / 32)).foldl (fun acc g => cols.foldl (fun acc n =>
    tput (0x7F : Byte) acc (g * 64 + n) (h.scaleB m (c.mid16 + n) (c.hi16 / 32 + g))) acc) []
  let per := if s24 then 16 else 32
  let special : Tbl Bool := (rangeFrom 0 (c.klen / 32)).foldl (fun acc g =>
    tput false acc g (cols.any fun n =>
      tget (0x7F : Byte) scales (g * 64 + n) == 0xFF
        || (rangeFrom (g * per) per).any fun k => isSpecial h.etype (tget (0 : W32) elems (k * 64 + n)).toNat)) []
  { loaded := false, etype := h.etype, fmt := h.fmt, klen := c.klen, elems, codes, scales, special }

/-- A position code with i0 ≥ i1 in a group that the LOADW covers (R109). -/
def codesBad (sl : Slot) : Bool :=
  sl.fmt == 1 && (rangeFrom 0 (sl.klen / 4)).any fun q => (rangeFrom 0 64).any fun n =>
    let k := (tget 4#4 sl.codes (q * 64 + n)).toNat
    decide (k / 4 ≤ k % 4)

/-- Driver errors of a LOADW in what it reads (R41, R58, R61, R103, R109). -/
def loadwBad (m : Mem) (c : EngCmd) : Bool :=
  let h := readHdr m c.hdr
  !h.good c.hdr true || h.fmt == 3 || h.etype == 7 || decide (panelKmax h.etype h.fmt < c.klen) || (h.fmt == 1 && c.klen % 64 != 0)
    || codesBad (loadPanel m c)

/-- A LOADW reads a word: header, bitmap, the elements of its range and their scales. -/
def loadwReads (m : Mem) (c : EngCmd) (w : Nat) : Bool :=
  let h := readHdr m c.hdr
  let per := if h.fmt = 1 then 2 else 1
  h.readsBad [w] m c.hdr (c.hi16 / per) (c.klen / per) c.mid16 64
    || (h.scaled && (rangeFrom 0 64).any fun n => decide (c.mid16 + n < h.cols)
          && badIn [w] (h.scaleptr + (c.mid16 + n) * ceilDiv h.rows 32 + c.hi16 / 32) (scaleSpan (c.hi16 / 32) (c.klen / 32) (ceilDiv h.rows 32)))
/-- The loader's own check of the count (R114) and of what it reads (R73); an uncorrectable word is taken before a wrong count (DESIGN CHOICE, log entry 83). -/
def loadwCause (m : Mem) (bad : List Nat) (c : EngCmd) (sl : Slot) : Option EngCause :=
  let h := readHdr m c.hdr
  if bad.any (loadwReads m c) then some .sramUncorr
  else if h.fmt = 2 then (if h.bitCount m c.hdr = h.density then none else some .loadCount)
  else if h.fmt = 1 ∧ c.hi16 = 0 ∧ c.mid16 = 0 ∧ h.rows ≤ c.klen ∧ h.cols ≤ 64 then
    (if (sl.elems.filter fun e => !(decodeElem h.etype e.2.toNat).isZero).length = h.density then none else some .loadCount)
  else none

/-! ### MMA (R44 to R48, R57, R71, R116 to R120, R136, R140) -/

/-- The slot's scale of a column and group, and the products of one accumulation block. -/
def blockOf (h : Hdr) (m : Mem) (aoff row acol : Nat) (sl : Slot) (g n : Nat) : Block :=
  let a (k : Nat) : Val := decodeElem h.etype (h.elem m aoff row (acol + k))
  let w (k : Nat) : Val := decodeElem sl.etype (tget (0 : W32) sl.elems (k * 64 + n)).toNat
  if sl.fmt = 1 then
    (rangeFrom (8 * g) 8).foldl (fun b q =>
      let cd := (tget 4#4 sl.codes (q * 64 + n)).toNat
      (b.mac (a (4 * q + cd % 4)) (w (2 * q))).mac (a (4 * q + cd / 4)) (w (2 * q + 1))) {}
  else (rangeFrom (32 * g) 32).foldl (fun b k => b.mac (a k) (w k)) {}

/-- One word of the accumulator after the blocks of a row (R46); `up` changes the sum of one block (R75). -/
def accumulate (cl : RateClass) (accBit : Bool) (h : Hdr) (m : Mem) (aoff row acol : Nat) (sl : Slot) (n : Nat) (up : Option (Nat × Int)) (c0 : W32) : W32 :=
  ((rangeFrom 0 (sl.klen / 32)).foldl (fun (st : W32 × Bool) g =>
    let b := blockOf h m aoff row acol sl g n
    let b := match up with
      | some (k, d) => if k = g then b.changed d cl.unit else b
      | none => b
    let v := if cl.int8 then b.vInt else b.v (h.scaleA m row (acol / 32 + g)) (tget (0x7F : Byte) sl.scales (g * 64 + n))
    if st.2 then (v, false) else ((if cl.int8 then int32Add st.1 v else fp32Add st.1 v), false)) (c0, !accBit)).1

/-- The part of a changed block sum that falls to an output. -/
def upsetAt (u : Option BlockUpset) (r n : Nat) : Option (Nat × Int) :=
  match u with
  | some u => if u.row = r ∧ u.col = n then some (u.block, u.delta) else none
  | none => none
/-- The clinker check sees a changed block sum of an MMA: the block is one that the command forms, and the residues differ (R72, R75). -/
def clinkerSees (h : Hdr) (m : Mem) (c : EngCmd) (sl : Slot) (cl : RateClass) (mr : Nat) (mask : W64) (u : Option BlockUpset) : Bool :=
  match u with
  | some u =>
    let x := (blockOf h m c.hdr (c.hi16 + u.row) c.mid16 sl u.block u.col).units cl.unit
    decide (u.row < mr ∧ u.col < 64 ∧ u.block < sl.klen / 32) && mask.getLsbD u.col && clinker x (x + u.delta)
  | none => false

/-- The result of an MMA over `mr` rows and an effective mask: words and class bits. A row whose class bit differs under ACC = 1 takes free values
(R48; log entry 10). -/
def mmaRun (e : Engine) (m : Mem) (c : EngCmd) (sl : Slot) (cl : RateClass) (mr : Nat) (mask : W64) (up : Option BlockUpset) (freeN : Nat) : Engine :=
  let h := readHdr m c.hdr
  let rows := rangeFrom 0 mr
  let acc := rows.foldl (fun acc r =>
    let ar := (c.accrow + r) % 256
    let mixed := c.b35 && (tget false e.cls ar != cl.int8)
    (rangeFrom 0 64).foldl (fun acc n =>
      let k := ar * 64 + n
      if !mask.getLsbD n then (if c.b35 then acc else tput 0 acc k 0)
      else if mixed then tput 0 acc k (Config.free32 (freeN + k))
      else tput 0 acc k (accumulate cl c.b35 h m c.hdr (c.hi16 + r) c.mid16 sl n (upsetAt up r n) (tget 0 acc k))) acc) e.acc
  let cls := rows.foldl (fun cls r => tput false cls ((c.accrow + r) % 256) cl.int8) e.cls
  { e with acc, cls }

/-- A pass of a row through a slice is dead (R116): in BB16 by the tiles that cover it, in EB8 by its bits. -/
def passDead (h : Hdr) (m : Mem) (c : EngCmd) (sl : Slot) (slice r j : Nat) : Bool :=
  let row := c.hi16 + r
  let c0 := c.mid16 + slice * j
  ((rangeFrom 0 slice).all fun k =>
      if h.fmt = 2 then !(decide (row / 16 < h.tr ∧ (c0 + k) / 16 < h.tc) && memBit m (c.hdr + 16) (row / 16 * h.tc + (c0 + k) / 16))
      else !(decide (row < h.rows ∧ c0 + k < h.cols) && memBit m (c.hdr + 16) (h.ebBit row (c0 + k))))
    && ((rangeFrom 0 (slice / 32)).all fun g => h.scaleA m row (c0 / 32 + g) != 0xFF)
    && ((rangeFrom 0 (slice / 32)).all fun g => !tget false sl.special (j * (slice / 32) + g))

/-- The fold factor of L live columns (R140); 0 where none is live (R141). -/
def foldFactor (live : Nat) : Nat := if live = 0 then 0 else if live ≤ 16 then 4 else if live ≤ 32 then 2 else 1

/-- The path of R120 for an A block in BB16 or EB8: true is sparse. -/
def sparsePath (bev : List W32) (mode : Nat) (h : Hdr) : Bool :=
  let units := if h.fmt = 2 then h.tr * h.tc else h.rows * h.cols
  let t := lget 0 bev h.etype
  let thr := if h.fmt = 2 then bitsOf t 7 0 else bitsOf t 15 8
  if mode = 1 then false else if mode = 2 then true else decide (h.density * 256 ≤ thr * units)

/-- Passes issued and dead component passes not issued on the sparse path (R118, R123, R142). -/
def sparsePasses (h : Hdr) (m : Mem) (c : EngCmd) (sl : Slot) (slice mr f : Nat) : Nat × Nat :=
  let s := sl.klen / slice
  if f = 0 then (0, 0)
  else
    (rangeFrom 0 (ceilDiv s f)).foldl (fun acc j =>
      (rangeFrom 0 mr).foldl (fun (acc : Nat × Nat) r =>
        let parts := (rangeFrom (j * f) f).filter fun k => decide (k < s)
        if parts.all fun k => passDead h m c sl slice r k then (acc.1, acc.2 + parts.length) else (acc.1 + 1, acc.2)) acc) (0, 0)

/-- The cycles in which an MMA issues a pass (each of c cycles, log entry 83), and the dead passes it does not issue (R79, R118, R123, R141, R142). -/
def mmaPasses (path : Option Bool) (h : Hdr) (m : Mem) (c : EngCmd) (sl : Slot) (cl : RateClass) (mr live : Nat) : Nat × Nat :=
  let f := if c.pred then foldFactor live else 1
  let s := sl.klen / cl.slice
  if path = some true then
    let p := sparsePasses h m c sl cl.slice mr f
    (p.1 * cl.c, p.2)
  else ((if f = 0 then 0 else ceilDiv s f * mr) * cl.c, 0)
/-- The choice of path that an MMA's dispatch makes (R120); a DENSE block leaves none. -/
def pathOf (bev : List W32) (mode : Nat) (h : Hdr) : Option Bool := if h.fmt = 2 ∨ h.fmt = 3 then some (sparsePath bev mode h) else none
/-- The path of an MMA that is a driver error (R61, R120, R123): R120's where the header gives one, else free. -/
def badPath (bev : List W32) (mode : Nat) (h : Hdr) (c : EngCmd) (n : Nat) : Option Bool :=
  if c.hdr % 16 = 0 ∧ h.fmt ≤ 1 then none
  else if c.hdr % 16 = 0 ∧ h.fmt ≤ 3 ∧ h.etype ≤ 6 ∧ h.resv = false then pathOf bev mode h
  else if c.hdr % 16 = 0 ∧ h.fmt ≤ 3 then some (Config.freeBool n)
  else if Config.freeBool (n + 1) then some (Config.freeBool n) else none
/-- An MMA that has run is counted by its path (R123). -/
def Engine.countPath (e : Engine) (path : Option Bool) : Engine :=
  match path with
  | none => e
  | some true => { e with spath := e.spath + 1 }
  | some false => { e with dpath := e.dpath + 1 }

def Engine.slotOf (e : Engine) (b : Bool) : Slot := if b then e.slot1 else e.slot0
def Engine.setSlot (e : Engine) (b : Bool) (x : Slot) : Engine := if b then { e with slot1 := x } else { e with slot0 := x }

/-- Driver errors of an MMA in its panel and what it reads (R42, R43, R61, R103, R112, R120). -/
def mmaBad (sl : Slot) (m : Mem) (c : EngCmd) : Bool :=
  let h := readHdr m c.hdr
  !sl.loaded || !h.good c.hdr false || h.fmt == 1 ||
    match rateClass h.etype sl.etype sl.fmt with
    | none => true
    | some cl => sl.klen % cl.slice != 0 || decide (cl.kmax < sl.klen)

/-- An MMA streams at least one pass: not a predictive one without a live column, which reads the header alone (R141; log entry 84). -/
def mmaStreams (c : EngCmd) (mask : W64) : Bool := !(c.pred && mask == 0)
/-- An MMA reads a word: header, bitmap, the elements of its rows and their scales. Its record it reads at dispatch. -/
def mmaReads (m : Mem) (c : EngCmd) (sl : Slot) (mr : Nat) (streams : Bool) (w : Nat) : Bool :=
  let h := readHdr m c.hdr
  badIn [w] c.hdr 16
    || (streams && (h.readsBad [w] m c.hdr c.hi16 mr c.mid16 sl.klen
      || (h.scaled && (rangeFrom 0 mr).any fun r => decide (c.hi16 + r < h.rows)
            && badIn [w] (h.scaleptr + (c.hi16 + r) * ceilDiv h.cols 32 + c.mid16 / 32) (scaleSpan (c.mid16 / 32) (sl.klen / 32) (ceilDiv h.cols 32)))))
/-- The loader's check of the count, and of what it reads (R73, R114); an uncorrectable word is taken before a wrong count (DESIGN CHOICE, log entry 83). -/
def mmaCause (m : Mem) (bad : List Nat) (c : EngCmd) (sl : Slot) (mr : Nat) (streams : Bool) : Option EngCause :=
  let h := readHdr m c.hdr
  if bad.any (mmaReads m c sl mr streams) then some .sramUncorr
  else if streams = true ∧ (h.fmt = 2 ∨ h.fmt = 3) then (if h.bitCount m c.hdr = h.density then none else some .loadCount)
  else none

/-! ### Predictive executions (R128, R135 to R137) -/

/-- What an update of a record adds to the tallies (R135, R147, R155). -/
structure Tally where
  exec : Nat := 0
  skipcol : Nat := 0
  probes : Nat := 0
  probepos : Nat := 0
  madeup : Nat := 0
  audits : Nat := 0
  audpred : Nat := 0
  audseen : Nat := 0
  audlost : Nat := 0
  audfalse : Nat := 0
deriving DecidableEq, Repr, Inhabited

/-- The tile's tallies (R155). -/
def Tile.tally (t : Tile) (x : Tally) : Tile :=
  let n (v : Nat) : W32 := BitVec.ofNat 32 v
  { t with prdExec := t.prdExec + n x.exec, prdSkipcol := t.prdSkipcol + n x.skipcol, prdProbes := t.prdProbes + n x.probes,
           prdProbepos := t.prdProbepos + n x.probepos, prdMadeup := t.prdMadeup + n x.madeup, prdAudits := t.prdAudits + n x.audits,
           prdAudpred := t.prdAudpred + n x.audpred, prdAudseen := t.prdAudseen + n x.audseen, prdAudlost := t.prdAudlost + n x.audlost,
           prdAudfalse := t.prdAudfalse + n x.audfalse }
/-- The context's 64-bit counters (R156). -/
def Ctx.tally (c : Ctx) (x : Tally) : Ctx :=
  let n (v : Nat) : W64 := BitVec.ofNat 64 v
  { c with pexec := c.pexec + n x.exec, pskipcol := c.pskipcol + n x.skipcol, pprobes := c.pprobes + n x.probes,
           pprobepos := c.pprobepos + n x.probepos, pmadeup := c.pmadeup + n x.madeup, paudits := c.paudits + n x.audits,
           paudpred := c.paudpred + n x.audpred, paudseen := c.paudseen + n x.audseen, paudlost := c.paudlost + n x.audlost,
           paudfalse := c.paudfalse + n x.audfalse }

/-- The record at an offset as four words. -/
structure PredRec where
  w0 : W64
  w1 : W64
  w2 : W64
  w3 : W64
deriving DecidableEq, Repr, Inhabited
def readRec (m : Mem) (a : Nat) : PredRec :=
  { w0 := BitVec.ofNat 64 (memWord m a 8), w1 := BitVec.ofNat 64 (memWord m (a + 8) 8),
    w2 := BitVec.ofNat 64 (memWord m (a + 16) 8), w3 := BitVec.ofNat 64 (memWord m (a + 24) 8) }
def PredRec.open_ (r : PredRec) : Bool := bitOf r.w3 0
def PredRec.merge (r : PredRec) : Bool := bitOf r.w3 1
def PredRec.aud (r : PredRec) : Bool := bitOf r.w3 2
/-- A reserved bit of word 3 is set: a driver error of the command that reads the record (R61, R128; log entry 94). -/
def PredRec.resv (r : PredRec) : Bool := bitsOf r.w3 31 3 != 0
def PredRec.exec (r : PredRec) : Nat := bitsOf r.w3 63 32
def recWord3 (exec : Nat) (aud merge open_ : Bool) : W64 :=
  BitVec.ofNat 64 (exec % 2 ^ 32 * 2 ^ 32 + b2n aud * 4 + b2n merge * 2 + b2n open_)

/-- The update that begins an execution (R135). -/
def beginExec (r : PredRec) (mode audn : Nat) : PredRec × Tally :=
  let ty : Tally :=
    if r.aud then
      let miss := r.w0 &&& ~~~r.w1
      { audpred := popcount (~~~r.w1), audseen := popcount (miss &&& r.w2), audlost := popcount (miss &&& ~~~r.w2),
        audfalse := popcount (r.w2 &&& ~~~r.w0) }
    else if mode = 3 then { madeup := popcount r.w1 } else {}
  let w0 := if mode = 2 ∨ mode = 3 then r.w0 ||| r.w2 else r.w0
  let aud := decide (mode ≠ 0 ∧ audn ≠ 0 ∧ r.exec % 2 ^ audn = 0)
  let w1 := if aud then w0 else 0
  let ty := if mode = 0 then ty
    else if aud then { ty with exec := 1, audits := 1 } else { ty with exec := 1, skipcol := popcount (~~~w0) }
  ({ w0, w1, w2 := 0, w3 := recWord3 (r.exec + 1) aud false true }, ty)

/-- The effective mask (R136); `makeUp` for MASKPTR = record + 8. -/
def effMask (r : PredRec) (mode : Nat) (makeUp : Bool) : W64 :=
  if mode = 0 then (if makeUp then 0 else BitVec.allOnes 64)
  else if r.aud then (if makeUp then 0 else BitVec.allOnes 64)
  else if makeUp then (if mode = 3 then r.w1 else 0)
  else r.w0

/-! ### Single-bit errors (R182, R253) -/

/-- The number of the first word of scratch in `Tile.flips`: the words of tile SRAM come first. -/
def scrWord0 : Nat := 196608
/-- A read of some words: each single-bit error among them is corrected, written back and counted (R182, R253). -/
def Tile.meet (t : Tile) (reads : Nat → Bool) : Tile :=
  let met := t.flips.filter reads
  { t with flips := t.flips.filter (fun w => !reads w),
           sramCorr := t.sramCorr + BitVec.ofNat 32 (met.filter fun w => decide (w < scrWord0)).length,
           scrCorr := t.scrCorr + BitVec.ofNat 32 (met.filter fun w => !decide (w < scrWord0)).length }
/-- A read of bytes of tile SRAM. -/
def Tile.meetSram (t : Tile) (a n : Nat) : Tile := t.meet (covers a n)
/-- A read of bytes of scratch. -/
def Tile.meetScr (t : Tile) (a n : Nat) : Tile := t.meet (covers (scrWord0 * 8 + a) n)
/-- In guarded mode the checker reads its own copy, whose words have the numbers of the window that does not exist (R199; log entry 106). -/
def Tile.meetPair (t : Tile) (a n : Nat) : Tile := if t.guarded then (t.meetScr a n).meetScr (a + 0x10000) n else t.meetScr a n
/-- A core's read of bytes at a local address (R178). -/
def Tile.meetLocal (t : Tile) (a n : Nat) : Tile := if 0x1000000 ≤ a then t.meetSram (a - 0x1000000) n else if a < 0x40000 then t.meetPair a n else t
/-- A write: a word that it covers in part is read first, and one that it covers whole has fresh check bits (R253). -/
def Tile.overwrite (t : Tile) (a n : Nat) : Tile :=
  let t := t.meet fun w => covers a n w && !coversWhole a n w
  { t with flips := t.flips.filter (fun w => !coversWhole a n w) }

/-! ### Writes to tile SRAM -/

/-- The predict record that a command names (R129, R137). -/
def EngCmd.names (c : EngCmd) : Option Nat :=
  if c.op = 2 ∧ c.pred = true then some (c.maskptr - c.maskptr % 32)
  else if c.op = 3 ∧ c.maskout = true ∧ c.maskptr % 32 = 0 then some c.maskptr
  else none
/-- A core of the tile runs a context's program. -/
def Tile.runsCtx (t : Tile) (ctx : Nat) : Bool := (rangeFrom 0 4).any fun c => (t.core c).ctx == ctx && ((t.core c).st == .run || (t.core c).st == .wait)
/-- The records that a queued or running command names, or whose OPEN is 1 while the program that opened the execution runs on some core (R131). -/
def Tile.recsHeld (t : Tile) : List Nat :=
  let e := t.eng
  ((e.queue ++ (e.loader ++ e.array ++ e.packer).map (·.cmd)).filterMap EngCmd.names)
    ++ (t.opened.filter fun o => bitOf (BitVec.ofNat 64 (memWord t.sram (o.1 + 24) 8)) 0 && t.runsCtx o.2.2).map (·.1)
/-- A program of a context starts: what an earlier one had opened is no longer its own (R131). -/
def Tile.newProgram (t : Tile) (ctx : Nat) : Tile := if t.runsCtx ctx then t else { t with opened := t.opened.filter fun o => o.2.2 != ctx }

/-- The words that `n` bytes from an address meet. -/
def wordsOf (a n : Nat) : List Nat := if n = 0 then [] else rangeFrom (a / 8) ((a + n - 1) / 8 + 1 - a / 8)
/-- A running command reads a word for its results: a STORE has read, and a driver error's reads have no bounds but R61's. -/
def Running.reads (r : Running) (m : Mem) (w : Nat) : Bool :=
  !r.bad && match r.cmd.op with
    | 1 => loadwReads m r.cmd w
    | 2 => mmaReads m r.cmd r.panel r.rows (mmaStreams r.cmd r.cols) w
    | _ => false
/-- A STORE that has not retired writes a word. -/
def Running.writes (r : Running) (w : Nat) : Bool := covers r.cmd.hdr r.block.length w || (r.mask.isSome && w == r.cmd.maskptr / 8)
/-- Written bytes that a running command reads or has yet to write: those words are unpredictable to it (R52, R179). -/
def Running.touched (m : Mem) (a n : Nat) (r : Running) : Running := { r with hits := r.hits ++ (wordsOf a n).filter fun w => r.reads m w || r.writes w }
/-- Bytes of tile SRAM change while commands run (R52). -/
def Engine.touched (e : Engine) (m : Mem) (a n : Nat) : Engine :=
  { e with loader := e.loader.map (Running.touched m a n), array := e.array.map (Running.touched m a n), packer := e.packer.map (Running.touched m a n) }

/-- A write that no core makes, at a local address, meets the bytes that a core has reserved: its store-conditional then leaves unpredictable bytes (R179). -/
def Tile.hitResv (t : Tile) (a n : Nat) : Tile :=
  { t with cores := t.cores.map fun e =>
      (e.1, match e.2.resv with
        | some (b, m) => if b < a + n ∧ a < b + m then { e.2 with resvHit := true } else e.2
        | none => e.2) }
/-- Writes bytes to tile SRAM: held lines of the merge buffer go (R248), a word written whole has valid check bits again (R253), and running commands that read
them read unpredictable bits (R52). -/
def Tile.sramPut (t : Tile) (a : Nat) (bs : List Byte) : Tile :=
  let n := bs.length
  { t.overwrite a n with
    sram := memPutList t.sram a bs,
    eng := t.eng.touched t.sram a n,
    merge := t.merge.filter (fun l => !decide (n ≠ 0 ∧ a / 256 ≤ l ∧ l ≤ (a + n - 1) / 256)),
    badSram := t.badSram.filter (fun w => !coversWhole a n w) }

/-- Writes a record back. -/
def Tile.putRec (t : Tile) (a : Nat) (r : PredRec) : Tile :=
  t.sramPut a (leBytes 8 r.w0.toNat ++ leBytes 8 r.w1.toNat ++ leBytes 8 r.w2.toNat ++ leBytes 8 r.w3.toNat)

/-! ### Driver errors (R61) -/

/-- A panel of free contents; a slot that is empty stays so until a LOADW retires. -/
def wildSlot (n : Nat) (x : Slot) : Slot :=
  { loaded := x.loaded, etype := Config.freeNat n % 16, fmt := Config.freeNat (n + 1) % 16, klen := Config.freeNat (n + 2) % 65536,
    elems := (Config.freePuts n).foldl (fun e p => tput 0 e (p.1 % 65536) (BitVec.ofNat 32 p.2)) [],
    codes := (Config.freePuts (n + 1)).foldl (fun e p => tput 4#4 e (p.1 % 16384) (BitVec.ofNat 4 p.2)) [],
    scales := (Config.freePuts (n + 2)).foldl (fun e p => tput (0x7F : Byte) e (p.1 % 2048) (BitVec.ofNat 8 p.2)) [],
    special := (Config.freePuts (n + 3)).foldl (fun e p => tput false e (p.1 % 32) (p.2 % 2 == 1)) [] }
/-- Free writes to words of tile SRAM. -/
def Tile.wildSram (t : Tile) (n : Nat) : Tile :=
  (Config.freePuts n).foldl (fun t p => t.sramPut (8 * (p.1 % scrWord0)) (leBytes 8 p.2)) t
/-- What a driver error of R61 may change: words of tile SRAM, rows of the accumulator store, both panel slots and the completion counters, all by free
values. -/
def Tile.wild (t : Tile) (n : Nat) : Tile :=
  let t := t.wildSram n
  let t := (Config.freePuts (n + 1)).foldl (fun t p =>
    t.setCtr (p.1 % 64) { value := BitVec.ofNat 32 p.2, target := BitVec.ofNat 32 (p.2 / 2 ^ 32) }) t
  t.modEng fun e =>
    { e with acc := (Config.freePuts (n + 2)).foldl (fun a p => tput 0 a (p.1 % 16384) (BitVec.ofNat 32 p.2)) e.acc,
             cls := (Config.freePuts (n + 3)).foldl (fun a p => tput false a (p.1 % 256) (p.2 % 2 == 1)) e.cls,
             slot0 := wildSlot (n + 4) e.slot0, slot1 := wildSlot (n + 8) e.slot1 }
/-- The free values that `Tile.wild` uses. -/
def wildSpan : Nat := 16
/-- A driver error of R61 in a tile. -/
def State.wild (s : State) (t : Nat) : State := (s.modTile t fun T => T.wild s.freeN).spendN wildSpan

/-- An ordinary store of a core, or a remote write, into tile SRAM: one that changes a record in use has the results of a driver error
(R131; log entry 94). -/
def State.sramStore (s : State) (t a : Nat) (bs : List Byte) : State :=
  let T := s.tile t
  let T' := T.sramPut a bs
  let s' := s.setTile t T'
  if T.recsHeld.any fun r => memGetList T.sram r 32 != memGetList T'.sram r 32 then s'.wild t else s'

/-! ### STORE (R68 to R70, R93 to R96, R124 to R127) -/

/-- The values of a row after stages 1 and 2. -/
def storeRow (e : Engine) (c : EngCmd) (i : Nat) : List Val :=
  let ar := (c.accrow + i) % 256
  let int := tget false e.cls ar
  (rangeFrom 0 64).map fun n => reluStage c.act (shiftStage int c.shift (tget 0 e.acc (ar * 64 + n)))

def splitAt32 (l : List Val) : List Val × List Val := (l.take 32, l.drop 32)

/-- The converted elements of a row and its two scales (none without MXGEN). -/
def packRow (e : Engine) (c : EngCmd) (i : Nat) : List Nat × List Byte :=
  let vs := storeRow e c i
  if c.mxgen && decide (1 ≤ c.otype ∧ c.otype ≤ 5) then
    let (a, b) := splitAt32 vs
    let sa := mxScale c.otype a
    let sb := mxScale c.otype b
    (mxElems c.otype sa a ++ mxElems c.otype sb b, [sa, sb])
  else if c.otype = 7 ∧ tget false e.cls ((c.accrow + i) % 256) = true then
    (vs.map fun v => match v with
      | .fin m _ => (BitVec.ofInt 32 m).toNat
      | _ => 0, [])
  else (vs.map (convert c.otype), [])

/-- Packs elements of `bits` bits, the first lowest (R81). -/
def packBits (bits : Nat) : List Nat → Nat
  | [] => 0
  | x :: xs => x % 2 ^ bits + 2 ^ bits * packBits bits xs

/-- The data area of a block in a format (R106, R110, R111, R127), from its rows of elements. -/
def packData (fmt et : Nat) (rows : List (List Nat)) : List Byte :=
  let bits := etBits et
  let p := pitch et 64
  match fmt with
  | 2 =>
    let tr := ceilDiv rows.length 16
    let el (r n : Nat) : Nat := lget 0 (lget [] rows r) n
    let tileEls (i : Nat) : List Nat := (rangeFrom 0 256).map fun k => el (i / 4 * 16 + k / 16) (i % 4 * 16 + k % 16)
    let idx := rangeFrom 0 (tr * 4)
    let present (i : Nat) : Bool := (tileEls i).any (· != 0)
    leBytes (ceilDiv (tr * 4) 64 * 8) (packBits 1 (idx.map fun i => b2n (present i)))
      ++ ((idx.filter present).map fun i => leBytes (32 * bits) (packBits bits (tileEls i))).flatten
  | 3 =>
    let stream := (rows.map fun r => r.filter (· != 0)).flatten
    (rows.map fun r => leBytes 8 (packBits 1 (r.map fun x => b2n (x != 0)))).flatten
      ++ leBytes (ceilDiv (stream.length * bits) 64 * 8) (packBits bits stream)
  | _ => (rows.map fun r => leBytes p (packBits bits r)).flatten

/-- DENSITY in a format's unit (R102, R127). -/
def packDensity (fmt : Nat) (rows : List (List Nat)) : Nat :=
  if fmt = 2 then
    let el (r n : Nat) : Nat := lget 0 (lget [] rows r) n
    ((rangeFrom 0 (ceilDiv rows.length 16 * 4)).filter fun i =>
      (rangeFrom 0 256).any fun k => el (i / 4 * 16 + k / 16) (i % 4 * 16 + k % 16) != 0).length
  else lsum (rows.map fun r => (r.filter (· != 0)).length)

/-- What a STORE writes at OHDR: header, data and scales, in the requested format where that is smaller than DENSE (R69, R124, R125). -/
def storeBlock (e : Engine) (c : EngCmd) : List Byte :=
  let packed := (rangeFrom 0 (c.mm1 + 1)).map (packRow e c)
  let rows := packed.map (·.1)
  let want := if c.ofmt = 2 then 2 else if c.ofmt = 3 then 3 else 0
  let dense := packData 0 c.otype rows
  let req := packData want c.otype rows
  let fmt := if req.length < dense.length then want else 0
  let data := if fmt = 0 then dense else req
  let scales := (packed.map (·.2)).flatten
  let h : Hdr := { fmt, etype := c.otype, rows := c.mm1 + 1, cols := 64, density := packDensity fmt rows,
                   scaleptr := if scales.isEmpty then 0 else c.hdr + 16 + data.length, resv := false }
  hdrBytes h ++ data ++ scales

/-- The observed mask (R70). -/
def observedMask (e : Engine) (c : EngCmd) : W64 :=
  let rows := (rangeFrom 0 (c.mm1 + 1)).map fun i => (packRow e c i).1
  BitVec.ofNat 64 (packBits 1 ((rangeFrom 0 64).map fun n => b2n (rows.any fun r => lget 0 r n != 0)))

/-- The mask word that a STORE writes (R70, R137). -/
def storeMask (r : PredRec) (c : EngCmd) (obs : W64) : W64 := if c.maskptr % 32 = 0 ∧ r.open_ = false ∧ r.merge = true then r.w0 ||| obs else obs

/-- A STORE of `n` bytes reads a word: one that its block covers in part, and what it reads of its record (R137, R253). -/
def storeReads (m : Mem) (c : EngCmd) (n w : Nat) : Bool :=
  let r := readRec m c.maskptr
  (covers c.hdr n w && !coversWhole c.hdr n w)
    || (c.maskout && c.maskptr % 32 == 0 && (badIn [w] (c.maskptr + 24) 8 || (r.merge && !r.open_ && badIn [w] c.maskptr 8)))

/-- Bytes written by an engine: a word of `free` stands as it was or is written, by a free bit (R52, R248). -/
def Tile.putFree (t : Tile) (a : Nat) (bs : List Byte) (free : Nat → Bool) (n : Nat) : Tile :=
  (wordsOf a bs.length).foldl (fun t w =>
    let lo := max a (8 * w)
    if !free w || Config.freeBool (n + w - a / 8) then t.sramPut lo ((bs.drop (lo - a)).take (8 * w + 8 - lo)) else t) (t.hitResv (0x1000000 + a) bs.length)
/-- A STORE finds the words of its record that it reads uncorrectable: it then writes nothing there (R253, R254). -/
def storeRecBad (m : Mem) (bad : List Nat) (c : EngCmd) : Bool :=
  let r := readRec m c.maskptr
  c.maskout && c.maskptr % 32 == 0 && bad.any fun w => badIn [w] (c.maskptr + 24) 8 || (r.merge && !r.open_ && badIn [w] c.maskptr 8)
/-- A STORE is dispatched (log entry 11): the words of its block and its mask word are old or new, and an open record closes (R137, R138). -/
def Tile.storeBegins (t : Tile) (c : EngCmd) (bs : List Byte) (mask : Option W64) (n : Nat) : Tile :=
  let r := readRec t.sram c.maskptr
  let recBad := storeRecBad t.sram t.badSram c
  let t := t.putFree c.hdr bs (fun _ => true) n
  match mask with
  | none => t
  | some w =>
    if recBad then t
    else
      let t := t.putFree c.maskptr (leBytes 8 w.toNat) (fun _ => true) (n + bs.length)
      if c.maskptr % 32 = 0 ∧ r.open_ = true then
        { t with opened := t.opened.filter fun o => o.1 != c.maskptr }.sramPut (c.maskptr + 24) (leBytes 8 ((r.w3 &&& ~~~(1#64)) ||| 2#64).toNat) else t
/-- A STORE retires: its block and its mask word stand, but for words that others have written since it began (R52, R179). -/
def Tile.storeEnds (t : Tile) (c : EngCmd) (bs : List Byte) (mask : Option W64) (hits : List Nat) (n : Nat) : Tile :=
  let t := t.putFree c.hdr bs hits.contains n
  match mask with
  | none => t
  | some w => t.putFree c.maskptr (leBytes 8 w.toNat) hits.contains (n + bs.length)

/-! ### Rows zeroed, the halt, and dispatch (R48, R50 to R55, R76 to R78) -/

def zeroRows (e : Engine) (rows : List Nat) : Engine :=
  { e with acc := e.acc.filter (fun w => !rows.contains (w.1 / 64)), cls := e.cls.filter (fun w => !rows.contains w.1) }

def causeCode : EngCause → Nat
  | .clinker => 1
  | .wparity => 2
  | .dupcmp => 3
  | .accUncorr => 4
  | .loadCount => 5
  | .sramUncorr => 6

/-- The causes that a retry may clear (R76). -/
def causeRetriable : EngCause → Bool
  | .accUncorr => false
  | .sramUncorr => false
  | _ => true

/-- The hardware faults that can strike a command, by its operation and by whether the loader decodes a BB16, EB8 or S24 block for it (R73, R76, R114): the parts of the
datapath that it uses. -/
def causeFits (op : Nat) (decodes : Bool) (k : EngCause) : Bool :=
  match op, k with
  | 1, .loadCount => decodes
  | 2, .sramUncorr => false
  | 2, .loadCount => decodes
  | 2, _ => true
  | 3, .dupcmp => true
  | 3, .accUncorr => true
  | 4, .dupcmp => true
  | 4, .accUncorr => true
  | _, _ => false
/-- What happens to a command, with what cannot strike it left out: only an MMA and a STORE read accumulator words. -/
def fitHw (hw : EngHw) (op : Nat) (decodes : Bool) : EngHw :=
  { hw with first := hw.first.filter (causeFits op decodes), retry := hw.retry.filter (causeFits op decodes), corrected := if op = 2 ∨ op = 3 then hw.corrected else 0 }

def fare (retryEn mayRetry : Bool) (hw : EngHw) (own : Option EngCause) : Fare :=
  match hw.first.orElse fun _ => own with
  | none => .runs
  | some c =>
    if retryEn && mayRetry && causeRetriable c then
      match hw.retry.orElse fun _ => own with
      | none => .retried c
      | some c2 => .halts c2
    else .halts c

/-- The running commands of a unit. -/
def Engine.unit (e : Engine) (u : EngUnit) : List Running :=
  match u with
  | .loader => e.loader
  | .array => e.array
  | .packer => e.packer
def Engine.setUnit (e : Engine) (u : EngUnit) (l : List Running) : Engine :=
  match u with
  | .loader => { e with loader := l }
  | .array => { e with array := l }
  | .packer => { e with packer := l }

/-- The engine halts on the oldest command of a unit (R77): the queue and the commands behind it in its unit are discarded and counted; commands in
the other units stay to finish. An MMA behind it that streams already over its drain, of which the manual says nothing, is discarded with the others and has no effect
(DESIGN CHOICE, log entry 85). -/
def Engine.haltOn (e : Engine) (u : EngUnit) (c : EngCmd) (k : EngCause) : Engine :=
  { e.setUnit u [] with halt := true, cause := some k, ftag := BitVec.ofNat 8 c.tag,
                        discard := e.discard + BitVec.ofNat 32 (e.queue.length + ((e.unit u).drop 1).length), queue := [] }

/-- Leaving the halt (R78): a command still running keeps its place; a running LOADW brings its panel, and a running MMA adds to the zeroed store (DESIGN CHOICE, log entry
85). -/
def Engine.clear (e : Engine) : Engine :=
  if e.halt then
    { e with queue := [], slot0 := { e.slot0 with loaded := false }, slot1 := { e.slot1 with loaded := false }, acc := [], cls := [], halt := false,
             cause := none, ftag := 0 }
  else e

def Engine.idle (e : Engine) : Bool := e.loader.isEmpty && e.array.isEmpty && e.packer.isEmpty

/-- How many of the youngest MMAs have yet to end their last slice. -/
def Stream_behind (st : Stream) : Nat := match st with
  | .waits => 2
  | .early => 1
  | .last => 1
  | .drains => 0
/-- Every MMA in the array that uses a slot has streamed its last slice (R51): they stream one after the other. -/
def Engine.streamed (e : Engine) (st : Stream) (slot : Bool) : Bool :=
  let mmas := e.array.filter fun r => r.cmd.op == 2
  (mmas.drop (mmas.length - Stream_behind st)).all fun r => r.cmd.slot != slot

/-- The dispatch conditions of R51 for the command at the head of the queue (log entry 7): ZERO and a reserved OP wait behind the array's own commands in the
unit, and not at dispatch. -/
def Engine.mayDispatch (e : Engine) (st : Stream) (c : EngCmd) : Bool :=
  let rowsFree := e.packer.all fun r => r.cmd.keepacc || !r.cmd.overlaps c
  (!c.ord || e.idle) &&
    match c.op with
    | 0 => true
    | 1 => e.loader.isEmpty && e.streamed st c.slot
    | 2 =>
      (e.loader.all fun r => r.cmd.slot != c.slot)
        && (e.array.isEmpty || (st == .last && (e.array.drop (e.array.length - 1)).all fun r => r.cmd.op == 2)) && rowsFree
    | 3 => e.packer.isEmpty && (e.array.all fun r => !r.cmd.overlaps c || decide (5 ≤ r.cmd.op))
    | 4 => rowsFree
    | _ => true

/-- The gate of R54 and R55: the command is skipped. -/
def gateSkips (t : Tile) (c : EngCmd) : Bool :=
  let v := (t.ctr c.gctr).value
  (c.gen && v == 0) || (c.op == 2 && c.mrows && v == 0)

/-- A skipped command (R54): it retires at once, with its increment only under GSIG. -/
def Tile.skip (t : Tile) (c : EngCmd) : Tile :=
  let t := t.modEng fun e => { e with queue := e.queue.drop 1, retired := e.retired + 1, skipped := e.skipped + 1 }
  if c.gsig && c.den then t.bump c.dctr 1 else t

/-- XT.ENQ's command enters the queue (R49), or is discarded by a halted engine (R77). -/
def Tile.enqueue (t : Tile) (c : EngCmd) : Tile :=
  t.modEng fun e => if e.halt then { e with discard := e.discard + 1 } else { e with queue := e.queue ++ [c] }

end Sys2Proof.Machine
end

