-- ==== Sys2Proof/Machine/ListOps.lean ====
section
/-! DEFINITION. List ports (R157 to R162): entries and closes that reach a port's windows, and arming. -/

namespace Sys2Proof.Machine

/-- Raised by the first drop since arming (R161). -/
structure ListHit where
  tile : Tile
  drop : Bool
deriving DecidableEq, Repr, Inhabited

/-- A drop at a port that is not armed or closed (R161); at a closed port the counts are compared again (R160). -/
def Tile.listDrop (t : Tile) (p n : Nat) : ListHit :=
  let l := t.list p
  let l' := { l with drop := l.drop + BitVec.ofNat 32 n, dropSeen := true }
  { tile := t.setList p { l' with excess := l.excess || (l.en && l.closed && decide (l.sent.toNat < (l.acc + l.ovf + l'.drop).toNat)) }, drop := !l.dropSeen }

/-- The port closes where CLOSES equals NSRC and the counts agree; more entries than the closes declared set EXCESS (R159, R160). -/
def Tile.listCheck (t : Tile) (p : Nat) : Tile :=
  let l := t.list p
  if l.closes = l.nsrc ∧ !l.closed then
    if l.acc + l.ovf + l.drop = l.sent then (t.setList p { l with closed := true }).bump l.dctr 1
    else if l.sent.toNat < (l.acc + l.ovf + l.drop).toNat then t.setList p { l with excess := true }
    else t
  else t

/-- One entry of an armed round (R158). -/
def Tile.listEntry (t : Tile) (p : Nat) (e : List Byte) : Tile :=
  let l := t.list p
  if l.acc.toNat < l.cap then
    let a := l.base + 8 * l.acc.toNat
    if a < sramSize then (((t.sramPut a e).hitResv (0x1000000 + a) e.length).setList p { l with acc := l.acc + 1 }).bump l.actr 1
    else t.setList p { l with drop := l.drop + 1 }
  else if l.ovf.toNat < l.ocap then
    let a := l.obase + 8 * l.ovf.toNat
    if a < sramSize then ((t.sramPut a e).hitResv (0x1000000 + a) e.length).setList p { l with ovf := l.ovf + 1 }
    else t.setList p { l with drop := l.drop + 1 }
  else t.setList p { l with drop := l.drop + 1 }

/-- The entries of one write, in payload order: each is taken while the port is armed and not closed (R158, R160, R161). -/
def ListHit.entries (h : ListHit) (p : Nat) : Nat → List Byte → ListHit
  | 0, _ => h
  | n + 1, bs =>
    let l := h.tile.list p
    if !l.en ∨ l.closed then
      let d := h.tile.listDrop p 1
      ({ d with drop := h.drop || d.drop } : ListHit).entries p n (bs.drop 8)
    else ({ h with tile := (h.tile.listEntry p (bs.take 8)).listCheck p } : ListHit).entries p n (bs.drop 8)

/-- A write to the append window (R158, R161). -/
def Tile.listAppend (t : Tile) (p : Nat) (bs : List Byte) : ListHit := ({ tile := t, drop := false } : ListHit).entries p (bs.length / 8) bs

/-- A write to the close window: bits [31:0] are the count (R159 to R161). With EN = 0 a close is dropped and nothing else, also where CLOSES equals NSRC (DESIGN CHOICE, log entry
76). -/
def Tile.listClose (t : Tile) (p v : Nat) : ListHit :=
  let l := t.list p
  if !l.en then t.listDrop p 1
  else if l.closed then
    let d := t.listDrop p 1
    { d with tile := d.tile.setList p { (d.tile.list p) with excess := true } }
  else if l.closes = l.nsrc then { tile := t.setList p { l with excess := true, closes := (l.closes + 1) % 8192, sent := l.sent + BitVec.ofNat 32 v }, drop := false }
  else { tile := (t.setList p { l with closes := l.closes + 1, sent := l.sent + BitVec.ofNat 32 v }).listCheck p, drop := false }

/-- The counts of a port after a driver error are free values (R160). -/
def ListPort.wild (l : ListPort) (n : Nat) : ListPort :=
  { l with acc := Config.free32 n, ovf := Config.free32 (n + 1), drop := Config.free32 (n + 2), sent := Config.free32 (n + 3), closes := Config.freeNat n % 8192 }

/-- A write to LST_CTRL: with EN = 1 it arms a new round (R161, R162). -/
def Tile.listCtrl (t : Tile) (p : Nat) (v : W32) : Tile :=
  let l := t.list p
  let l := { l with en := bitOf v 31, nsrc := bitsOf v 28 16, actr := bitsOf v 11 6, dctr := bitsOf v 5 0 }
  if bitOf v 31 then
    (t.setList p { l with acc := 0, ovf := 0, drop := 0, sent := 0, closes := 0, closed := false, excess := false, dropSeen := false }).listCheck p
  else t.setList p l

/-- A store to a list port register (R162). -/
def Tile.listReg (t : Tile) (p off : Nat) (v : W32) : Tile :=
  let l := t.list p
  match off with
  | 0x00 => t.setList p { l with base := bitsOf v 20 3 * 8 }
  | 0x04 => t.setList p { l with cap := bitsOf v 15 0 }
  | 0x08 => t.setList p { l with obase := bitsOf v 20 3 * 8 }
  | 0x0C => t.setList p { l with ocap := bitsOf v 15 0 }
  | 0x10 => t.listCtrl p v
  | _ => t

/-- A load from a list port register (R162). -/
def Tile.listView (t : Tile) (p off : Nat) : Nat :=
  let l := t.list p
  match off with
  | 0x00 => l.base
  | 0x04 => l.cap
  | 0x08 => l.obase
  | 0x0C => l.ocap
  | 0x10 => b2n l.en * 2 ^ 31 + l.nsrc * 2 ^ 16 + l.actr * 2 ^ 6 + l.dctr
  | 0x14 => b2n l.closed * 2 ^ 31 + b2n l.excess * 2 ^ 30 + l.closes
  | 0x18 => l.acc.toNat
  | 0x1C => l.ovf.toNat
  | 0x20 => l.drop.toNat
  | 0x24 => l.sent.toNat
  | _ => 0

end Sys2Proof.Machine
end

