-- ==== Sys2Proof/Machine/FabricOps.lean ====
section
/-! DEFINITION. Packets (R208 to R213, R217): headers, drop counts, first stops and injection (R262, R277, R325), responses, the checks at a destination
(R28, R222, R225), and what reads and writes of a tile's spaces do. -/

namespace Sys2Proof.Machine

/-! ### Header words (R209, R210) -/

def opcCode : Opc → Nat
  | .write => 1
  | .read => 2
  | .cnt => 3
  | .rdata => 8
  | .rerr => 9
  | .wack => 0xA
  | .svc => 0xF

/-- A request of R210. -/
def Opc_isReq : Opc → Bool
  | .write => true
  | .read => true
  | .cnt => true
  | .svc => true
  | _ => false

def pktWord0 (p : Packet) : Nat :=
  opcCode p.opc * 2 ^ 60 + b2n p.last * 2 ^ 59 + p.dctr % 64 * 2 ^ 50 + p.spart % 16 * 2 ^ 46 + p.epoch % 16 * 2 ^ 42 + p.ctx % 4096 * 2 ^ 30
    + p.seq.toNat * 2 ^ 14 + (match p.opc with
      | .write => p.len
      | .read => p.len
      | .rdata => p.len
      | _ => 0) % 512

/-! ### Flits (R208, R210, R241) -/

/-- A packet's flits: the header and up to four of payload. -/
def Packet_flits (p : Packet) : Nat := 1 + (p.payload.length + 63) / 64
/-- The eight words of the header flit (R209). -/
def pktWords (p : Packet) : List Nat :=
  [pktWord0 p, p.dest.toNat, p.src.toNat, p.total.toNat * 2 ^ 32 + p.status.toNat * 2 ^ 24 + p.hops % 1024, 0, 0, 0, 0]
/-- The 64 bytes of a flit, 0 the header; the bytes beyond LEN in the last flit are 0. -/
def flitBytes (p : Packet) (k : Nat) : List Byte :=
  if k = 0 then ((pktWords p).map fun w => leBytes 8 w).flatten
  else
    let b := (p.payload.drop (64 * (k - 1))).take 64
    b ++ List.replicate (64 - b.length) 0
/-- One bit and one byte into the CRC-16 of x^16 + x^12 + x^5 + 1 (R241). -/
def crcBit (c : W16) (b : Bool) : W16 := if c.getLsbD 15 != b then (c <<< 1) ^^^ 0x1021#16 else c <<< 1
def crcByte (c : W16) (b : Byte) : W16 := [7, 6, 5, 4, 3, 2, 1, 0].foldl (fun c k => crcBit c (b.getLsbD k)) c
/-- The CRC-16 of a flit's bytes. The manual gives the polynomial alone: it begins at 0 and takes byte 0 first, each byte from its bit 7 (log entry 89). -/
def crc16 (bs : List Byte) : W16 := bs.foldl crcByte 0

/-! ### Drop counts (R526, R527) -/

def State.modCnt (s : State) (p : Nat) (f : SiteCnt → SiteCnt) : State := s.modSite p fun x => { x with cnt := f x.cnt }

/-- A write or CNT dropped at a site (R28, R31, R35): the first since the count was cleared raises HOLE_DROP (R31, R527). -/
def State.dropAt (s : State) (p : Nat) : State :=
  let first := !(s.site p).cnt.sdropSeen
  let s := s.modCnt p fun c => { c with sdrop := satAdd c.sdrop 1, sdropSeen := true }
  if first then s.raiseSite 0x0104 p 0 0 else s
/-- A drop under R36 or R237: the first since the count was cleared raises NO_ROUTE with the destination. -/
def State.noRouteAt (s : State) (p : Nat) (dest : W64) : State :=
  let first := !(s.site p).cnt.snorouteSeen
  let s := s.modCnt p fun c => { c with snoroute := satAdd c.snoroute 1, snorouteSeen := true }
  if first then s.raiseSite 0x0204 p dest.toNat 0 else s
def State.partDropAt (s : State) (p : Nat) : State := s.modCnt p fun c => { c with spart := satAdd c.spart 1 }
def State.staleAt (s : State) (p : Nat) : State := s.modCnt p fun c => { c with sstale := satAdd c.sstale 1 }
def State.edgeStale (s : State) (e : Nat) : State := s.modFab fun f => { f with estale := tmod 0 f.estale e fun c => satAdd c 1 }
def State.edgePart (s : State) (e : Nat) : State := s.modFab fun f => { f with epart := tmod 0 f.epart e fun c => satAdd c 1 }

/-! ### Flights -/

def State.addFlight (s : State) (f : Flight) : State := s.modFab fun b => { b with flights := b.flights ++ [f] }
def State.dropFlight (s : State) (i : Nat) : State := s.modFab fun b => { b with flights := ldel b.flights i }
def State.setFlight (s : State) (i : Nat) (f : Flight) : State := s.modFab fun b => { b with flights := lset b.flights i f }
def State.flight (s : State) (i : Nat) : Option Flight := lget? s.fab.flights i

/-- A meaning on a packet in flight; a place that names none changes nothing (log entry 2). -/
def onFlight (s : State) (i : Nat) (f : Flight → Out) : Out :=
  match s.flight i with
  | some x => f x
  | none => ok s

/-- The site where a drop of an edge die's injection counts: its first attached site. -/
def edgeSite (e : Nat) : Nat :=
  match edgeAttach e with
  | (p, _) :: _ => p
  | [] => 0

/-- The router of a tile's physical position. -/
def State.tilePlace (s : State) (t : Nat) : Place := .router (s.tilePhys t) (tileTR t) (s.tilePos t)

/-- The cascade edge die toward another panel (R229, R355); none where the panel has no route. -/
def State.rickEdge (s : State) (q : Nat) : Option Nat :=
  let e := bitsOf (Config.rickRoute s.rick.gen q) 11 6
  if s.rick.gen ≠ 0 ∧ s.rick.routed.contains q = true ∧ (Config.rickRoute s.rick.gen q).getLsbD 12 = true ∧ 0x10 ≤ e ∧ e < 0x18 then some e else none
def State.rickAlt (s : State) (q : Nat) : Nat := bitsOf (Config.rickRoute s.rick.gen q) 5 0

/-- Where a response to a source locator heads (R36, R212, R237): a site's base die, by its control space, takes what its slice has asked for (log entry 90). -/
def State.respGoal (s : State) (src : W64) : Goal :=
  if aPanel src ≠ s.rick.panel then
    match s.rickEdge (aPanel src) with
    | some e => .edge e
    | none => .nowhere
  else if aSpace src = 1 then .tile (aTile src)
  else if aSpace src = 2 then .slice (s.phys (aSite src))
  else .edge (aEdge src)

/-- The fabric address of a site's control space: what the base die of a site, no tile and no edge die, names as SRC (R212 gives it none; log entry 90). -/
def State.siteLoc (s : State) (p : Nat) : W64 := BitVec.ofNat 64 (s.rick.panel * 2 ^ 58 + 2 * 2 ^ 55 + (s.logical p).getD 0 * 2 ^ 47)
/-- The locator of what answers a request at a place (R212). -/
def State.ownLoc (s : State) (goal : Goal) (at_ : Place) : W64 :=
  match at_ with
  | .edge e => edgeAddr s.rick.panel e 0
  | .router p _ _ => (match goal with
    | .tile t => if at_ = s.tilePlace t then tileAddr s.rick.panel 1 t 0 else s.siteLoc p
    | _ => s.siteLoc p)
  | .dest p => s.siteLoc p
  | .parked p => s.siteLoc p

/-- Sends the response to a request from a place: RDATA with its bytes, RERR or WACK with a status; a WACK echoes DCTR, LAST and TOTAL (R217). -/
def State.respond (s : State) (f : Flight) (at_ : Place) (opc : Opc) (status : Nat) (payload : List Byte) : State :=
  let q := f.pkt
  let w := opc == .wack
  let r : Packet :=
    { opc, last := w && q.last, dctr := if w then q.dctr else 0, spart := q.spart, epoch := q.epoch, ctx := q.ctx, seq := q.seq, len := payload.length,
      dest := q.src, src := s.ownLoc f.goal at_, total := if w then q.total else 0, status := BitVec.ofNat 8 status, hops := 0, payload }
  s.addFlight { pkt := r, goal := s.respGoal q.src, place := at_, escape := false, fill := f.fill }

/-! ### First stops (R262, R263, R276, R277, R324, R325) -/

/-- An address lies in a region (R276). -/
def Region.has (r : Region) (a : Nat) : Bool := decide (r.size ≠ 0 ∧ r.base * 2 ^ 26 ≤ a ∧ a < (r.base + r.size) * 2 ^ 26)
/-- The set bits of a channel mask, ascending (R276). -/
def maskBits (m : W32) : List Nat := (rangeFrom 0 32).filter fun c => m.getLsbD c
/-- Channel and channel address of a panel DDR address in a region (R276). -/
def Region.map (r : Region) (a : Nat) : Nat × Nat :=
  let o := a - r.base * 2 ^ 26
  let g := o / 2 ^ (r.gran + 8)
  let n := 2 ^ r.nlog2
  (lget 0 (maskBits r.mask) (g % n), r.cbase * 2 ^ 26 + g / n * 2 ^ (r.gran + 8) + o % 2 ^ (r.gran + 8))

def allParts : List Nat := rangeFrom 0 16
/-- The partition whose region holds a panel DDR address. -/
def State.regionOf (s : State) (a : Nat) : Option Nat := allParts.find? fun p => (s.partn p).ddr.cur.has a

/-- The home site of a line, by the partition's home table (R263); none where the table is empty. -/
def homeOf (home : List Nat) (a : W64) : Option Nat :=
  if home.isEmpty then none
  else
    let l := a.toNat / 256
    let hv := (l ^^^ (l / 2 ^ 11) ^^^ (l / 2 ^ 22)) % 2048
    lget? home (hv % home.length)

/-- What injection makes of a request. -/
inductive Inj where
  | go (g : Goal)
  | partDrop
  | badAddress
  | noRoute
deriving DecidableEq, Repr, Inhabited

/-- The first stop by cache mode: HASHED at the home site, LOCAL at the tile's own site, BYPASS at the owning edge die (R262, R263). -/
def State.firstStop (s : State) (own : Option Nat) (part mode : Nat) (a : W64) (edge : Nat) : Goal :=
  if mode = 0 then
    match homeOf (s.partn part).home a with
    | some S => .slice (s.phys S)
    | none => .edge edge
  else if mode = 1 then
    match own with
    | some p => .slice p
    | none => .edge edge
  else .edge edge

/-- A space 4 access is within an enabled window that the context may use (R325). -/
def Win.allows (w : Win) (ctx off : Nat) : Bool := w.en && decide (off < w.pages * 4096) && (!w.oneCtx || w.ctx == ctx)

/-- Where a request heads (R34 to R36, R262, R277, R325); `own` is the tile's own physical site, none for an edge die. -/
def State.route (s : State) (own : Option Nat) (part ctx : Nat) (a : W64) : Inj :=
  if aPanel a ≠ s.rick.panel then
    match s.rickEdge (aPanel a) with
    | some e => .go (.edge e)
    | none => .noRoute
  else
    match aSpace a with
    | 0 => .go (.tile (aTile a))
    | 1 => .go (.tile (aTile a))
    | 2 => .go (.control (aSite a))
    | 3 =>
      match s.regionOf (aDdr a) with
      | none => .go (.edge 0x08)
      | some q =>
        if q ≠ part then .partDrop
        else
          let r := (s.partn q).ddr.cur
          .go (s.firstStop own part r.mode a (chanEdge (r.map (aDdr a)).1))
    | 4 =>
      let w := s.win (aWin a)
      if w.en ∧ w.part ≠ part then .partDrop
      else if w.allows ctx (aWinOff a) then .go (s.firstStop own part w.mode a (portEdge w.port))
      else .go (.edge (portEdge w.port))
    | 5 => if edgeValid (aEdge a) then .go (.edge (aEdge a)) else .badAddress
    | _ => .badAddress

/-- Injects a request at a place; `own` is the tile's site, `site` the one where a drop at injection counts (R35, R36, R277, R325). -/
def State.inject (s : State) (at_ : Place) (own : Option Nat) (site : Nat) (pkt : Packet) : State :=
  let f : Flight := { pkt, goal := .nowhere, place := at_, escape := false, fill := none }
  match s.route own pkt.spart pkt.ctx pkt.dest with
  | .go g => s.addFlight { f with goal := g }
  | .partDrop => s.partDropAt site
  | .badAddress => if pkt.opc = .read then s.respond f at_ .rerr stBadAddress [] else s.dropAt site
  | .noRoute => if pkt.opc = .read then s.respond f at_ .rerr stNoRoute [] else s.noRouteAt site pkt.dest

/-- The next SEQ of a tile's stream for a context (R211): the packet carries the value before the addition (log entry 13). -/
def State.tileSeq (s : State) (t ctx : Nat) : W16 × State :=
  let q := tget 0 (s.tile t).seqs ctx
  (q, s.modTile t fun T => { T with seqs := tput 0 T.seqs ctx (q + 1) })
def State.edgeSeq (s : State) (e ctx : Nat) : W16 × State :=
  let k := e * 4096 + ctx
  let q := tget 0 s.fab.seqs k
  (q, s.modFab fun f => { f with seqs := tput 0 f.seqs k (q + 1) })

/-! ### A tile's registers -/

def coreStCode : CoreSt → Nat
  | .idle => 0
  | .run => 1
  | .wait => 2
  | .done => 3
  | .trap => 4
  | .stop => 5
def tileStCode : TileSt → Nat
  | .active => 0
  | .suspect => 1
  | .fenced => 2
  | .hole => 3

/-- In guarded mode a checker shows its leader (R198). -/
def Tile.shown (t : Tile) (c : Nat) : Core := t.core (if t.guarded then c - c % 2 else c)

/-- A register of the tile status and control window by its offset from 0x11_0000; 0 where none is (R79, R123, R134, R155, R162, R207, R250, R259). -/
def tileView (n : Nat) (t : Tile) (off : Nat) : Nat :=
  let e := t.eng
  if off = 0x000 then n
  else if off = 0x004 then b2n t.guarded * 256 + tileStCode t.st
  else if 0x010 ≤ off ∧ off < 0x020 then
    let k := t.shown ((off - 0x10) / 4)
    coreStCode k.st * 2 ^ 29 + b2n k.nostart * 2 ^ 28 + k.cause.toNat * 2 ^ 16 + k.exit.toNat
  else if 0x020 ≤ off ∧ off < 0x030 then (t.shown ((off - 0x20) / 4)).epc.toNat
  else if 0x030 ≤ off ∧ off < 0x040 then (t.shown ((off - 0x30) / 4)).tval.toNat
  else if 0x040 ≤ off ∧ off < 0x050 then
    let k := t.shown ((off - 0x40) / 4)
    b2n k.ctxv * 2 ^ 31 + k.part * 2 ^ 16 + k.epoch * 2 ^ 12 + k.ctx
  else if off = 0x050 then
    (t.trks.filter fun x => x.2.loader && x.2.st != .free).length * 2 ^ 16 + t.trks.length
  else if off = 0x054 then t.scrCorr.toNat
  else if off = 0x060 then t.ld.status * 2 ^ 29 + t.ld.lastCores
  else if off = 0x064 then t.ld.bytes.toNat
  else if off = 0x300 then t.sramCorr.toNat
  else if off = 0x304 then t.sramUncorr.toNat
  else if off = 0x308 then t.errAddr * 8
  else if off = 0x30C then t.scrubPass.toNat
  else if off = 0x400 then
    b2n e.halt * 2 ^ 31 + (match e.cause with
      | some c => causeCode c
      | none => 0) * 2 ^ 27 + e.ftag.toNat * 2 ^ 16 + b2n (!e.packer.isEmpty) * 2 ^ 10 + b2n (!e.array.isEmpty) * 2 ^ 9 + b2n (!e.loader.isEmpty) * 2 ^ 8
      + e.queue.length
  else if off = 0x404 then b2n e.retryEn * 2
  else if off = 0x408 then e.retired.toNat
  else if off = 0x40C then e.skipped.toNat
  else if off = 0x410 then e.retries.toNat
  else if off = 0x414 then e.corrected.toNat
  else if off = 0x418 then e.busycyc.toNat
  else if off = 0x41C then e.discard.toNat
  else if off = 0x420 then e.spath.toNat
  else if off = 0x424 then e.dpath.toNat
  else if off = 0x428 then e.deadpass.toNat
  else if 0x500 ≤ off ∧ off < 0x510 then
    let k := t.shown ((off - 0x500) / 4)
    k.audn * 16 + k.mode
  else if 0x510 ≤ off ∧ off < 0x520 then (t.shown ((off - 0x510) / 4)).theta.toNat
  else if off = 0x520 then t.prdExec.toNat
  else if off = 0x524 then t.prdSkipcol.toNat
  else if off = 0x528 then t.prdProbes.toNat
  else if off = 0x52C then t.prdProbepos.toNat
  else if off = 0x530 then t.prdMadeup.toNat
  else if off = 0x534 then t.prdAudits.toNat
  else if off = 0x538 then t.prdAudpred.toNat
  else if off = 0x53C then t.prdAudseen.toNat
  else if off = 0x540 then t.prdAudlost.toNat
  else if off = 0x544 then t.prdAudfalse.toNat
  else if 0x600 ≤ off ∧ off < 0x700 then t.listView ((off - 0x600) / 0x40) (off % 0x40)
  else if off = 0x700 then t.fabStale.toNat
  else if off = 0x704 then t.fabLate.toNat
  else if off = 0x708 then t.fabTimeout.toNat
  else if off = 0x70C then t.fabServed.toNat
  else if off = 0x710 then t.fabMerged.toNat
  else if off = 0x714 then t.fabBadaddr.toNat
  else 0

/-- A 32-bit write to a register of the window: ENG_CTRL, SRAM_ERRADDR and the list port registers take it, the others are read-only (R79, R162, R259). -/
def Tile.regWrite (t : Tile) (off : Nat) (v : W32) : Tile :=
  if off = 0x404 then
    t.modEng fun e =>
      let e := { e with retryEn := bitOf v 1 }
      if bitOf v 0 then e.clear else e
  else if off = 0x308 then { t with errAddr := bitsOf v 20 3 }
  else if 0x600 ≤ off ∧ off < 0x700 then t.listReg ((off - 0x600) / 0x40) (off % 0x40) v
  else t

/-- The windows of tile control space (R34, R157, R178). -/
inductive Window where
  | scratch
  | ctr
  | regs
  | append (p : Nat)
  | close (p : Nat)
  | none
deriving DecidableEq, Repr, Inhabited
/-- The window that holds the `n` bytes from an offset (R34); in guarded mode the scratch of cores 1 and 3 does not exist (R199). -/
def windowOf (guarded : Bool) (off n : Nat) : Window :=
  let last := off + n - 1
  if off < 0x40000 then
    if off / 0x10000 = last / 0x10000 ∧ !(guarded && off / 0x10000 % 2 == 1) then .scratch else .none
  else if 0x100000 ≤ off ∧ last < 0x100200 then .ctr
  else if 0x110000 ≤ off ∧ last < 0x111000 then
    if 0x110800 ≤ off ∧ (off - 0x110800) % 0x200 + n ≤ 0x100 then .append ((off - 0x110800) / 0x200)
    else if 0x110900 ≤ off ∧ (off - 0x110900) % 0x200 = 0 ∧ n ≤ 8 then .close ((off - 0x110900) / 0x200)
    else .regs
  else .none

/-! ### Memory of a tile with its check bits (R182, R199, R253, R254) -/

/-- Bytes as they land beside uncorrectable words: a word that the bytes cover only in part, and that is uncorrectable, keeps its bytes. -/
def guardBytes (m : Mem) (bad : List Nat) (lo hi : Nat) : Nat → List Byte → List Byte
  | _, [] => []
  | a, b :: bs =>
    (if bad.contains (a / 8) && !decide (lo ≤ a / 8 * 8 ∧ a / 8 * 8 + 8 ≤ hi) then memGet m a else b) :: guardBytes m bad lo hi (a + 1) bs
/-- The uncorrectable words that a write covers only in part. -/
def partBad (bad : List Nat) (a n : Nat) : List Nat :=
  bad.filter fun w => decide (a / 8 ≤ w ∧ w ≤ (a + n - 1) / 8) && !decide (a ≤ w * 8 ∧ w * 8 + 8 ≤ a + n)

/-- Writes bytes to scratch: in guarded mode both copies, of which the checker's has the word numbers of the window that does not exist (R199; log entry 106). -/
def Tile.scrPut (t : Tile) (a : Nat) (bs : List Byte) : Tile :=
  let n := bs.length
  let t' := t.overwrite (scrWord0 * 8 + a) n
  { (if t.guarded then t'.overwrite (scrWord0 * 8 + a + 0x10000) n else t') with
    scr := memPutList t.scr a bs, scrCopy := if t.guarded then memPutList t.scrCopy a bs else t.scrCopy,
    badScr := t.badScr.filter fun w => !(coversWhole a n w || (t.guarded && coversWhole (a + 0x10000) n w)) }

/-- A write from the fabric or the image loader into tile SRAM (R254). -/
def State.landSram (s : State) (t a : Nat) (bs : List Byte) : State :=
  let T := s.tile t
  let part := partBad T.badSram a bs.length
  let s := s.sramStore t a (guardBytes T.sram T.badSram a (a + bs.length) a bs)
  (s.modTile t fun T => T.hitResv (0x1000000 + a) bs.length).sramUes t part
/-- The same into scratch; an uncorrectable word is reported as for tile SRAM (R182), with its word number in scratch for the offset (DESIGN CHOICE, log entry 108). -/
def State.landScr (s : State) (t a : Nat) (bs : List Byte) : State :=
  let T := s.tile t
  let part := partBad T.badScr a bs.length
  let s := s.setTile t ((T.scrPut a (guardBytes T.scr T.badScr a (a + bs.length) a bs)).hitResv a bs.length)
  s.sramUes t part

/-- A write to the counter window in 8-byte words, or of one 32-bit half (R181). -/
def Tile.ctrWrite (t : Tile) (off : Nat) : Nat → List Byte → Tile
  | 0, _ => t
  | fuel + 1, bs =>
    if bs.isEmpty then t
    else
      let k := (off - 0x100000) / 8
      let c := t.ctr k
      let w : W32 := BitVec.ofNat 32 (leWord (bs.take 4))
      let c := if off % 8 < 4 then { c with value := w } else { c with target := w }
      (t.setCtr k c).ctrWrite (off + 4) fuel (bs.drop 4)
/-- Writes of registers, 32 bits at a time, the lower offset first. -/
def Tile.regsWrite (t : Tile) (off : Nat) : Nat → List Byte → Tile
  | 0, _ => t
  | fuel + 1, bs => if bs.isEmpty then t else (t.regWrite (off - 0x110000) (BitVec.ofNat 32 (leWord (bs.take 4)))).regsWrite (off + 4) fuel (bs.drop 4)

/-- The first LIST_DROP of a round (R161, R329). -/
def State.listHit (s : State) (t p : Nat) (h : ListHit) : State :=
  let s := s.setTile t h.tile
  if h.drop then s.raiseTile 0x0103 t 0 none p 0 else s

/-- A driver error at a list port (R158 to R160): its lists and counts are unpredictable, as for any driver error. -/
def State.wildList (s : State) (t p : Nat) : State :=
  ((s.wild t).modTile t fun T => T.setList p ((T.list p).wild s.freeN)).spendN 4
/-- After a write to a list port: the event of its first drop, and free values where EXCESS stands or the write was a driver error. -/
def State.listWrote (s : State) (t p : Nat) (h : ListHit) (bad : Bool) : State :=
  let s := s.listHit t p h
  if bad || (h.tile.list p).excess then s.wildList t p else s

/-- A write to a window of tile control space, from the fabric or a core (R157 to R161, R178, R181). A shorter write to a close window carries its bytes
zero-extended (log entry 87). -/
def State.ctlWrite (s : State) (t off : Nat) (bs : List Byte) : State :=
  let T := s.tile t
  match windowOf T.guarded off bs.length with
  | .scratch => s.landScr t off bs
  | .ctr => s.setTile t (T.ctrWrite off (bs.length / 4 + 1) bs)
  | .regs => s.setTile t (T.regsWrite off (bs.length / 4 + 1) bs)
  | .append p => s.listWrote t p (T.listAppend p bs) (bs.length % 8 != 0)
  | .close p => s.listWrote t p (T.listClose p (leWord bs)) (decide (2 ^ 32 ≤ leWord bs))
  | .none => s

/-- The bytes of registers and counters from an offset. -/
def regBytes (n : Nat) (t : Tile) (off : Nat) : Nat → List Byte
  | 0 => []
  | k + 1 => BitVec.ofNat 8 (tileView n t (off / 4 * 4 - 0x110000) / 256 ^ (off % 4)) :: regBytes n t (off + 1) k
def ctrBytes (t : Tile) (off : Nat) : Nat → List Byte
  | 0 => []
  | k + 1 =>
    let c := t.ctr ((off - 0x100000) / 8)
    BitVec.ofNat 8 ((c.value.toNat + c.target.toNat * 2 ^ 32) / 256 ^ (off % 8)) :: ctrBytes t (off + 1) k
/-- Reads a window of tile control space; the list windows read 0 (R157). -/
def ctlRead (n : Nat) (t : Tile) (off len : Nat) : List Byte :=
  match windowOf t.guarded off len with
  | .scratch => memGetList t.scr off len
  | .ctr => ctrBytes t off len
  | .regs => regBytes n t off len
  | _ => List.replicate len 0

/-! ### Arrival at a tile (R21, R28 to R31, R222, R225) -/

/-- How a request fares at its destination. -/
inductive Fate where
  | serve
  | park
  | partDrop
  | stale
  | answer (status : Nat)
deriving DecidableEq, Repr, Inhabited

/-- A restart has raised EPOCH and its spread to the epoch tables runs (R223, R297). -/
def Ctx.restarting (x : Ctx) : Bool := x.st == .resetting && !x.epochDue
/-- The endpoints that hold an epoch table (R222): a base die by its place, an edge die by 512 + its id. -/
def edgeEp (e : Nat) : Nat := 512 + e
/-- At an endpoint the context is not configured, or the epoch differs from its table (R222). -/
def State.staleCtx (s : State) (ep ctx epoch : Nat) : Bool :=
  let x := s.ctx ctx
  x.st == .free || (if x.restarting && !x.told.contains ep then (x.epoch + 15) % 16 else x.epoch) != epoch
/-- A packet for a context whose restart runs reaches an endpoint: the endpoint's epoch table may hold the new epoch by now, a free choice (R222, R223; log
entry 33). -/
def State.tell (s : State) (ep ctx : Nat) : State :=
  if (s.ctx ctx).restarting && !(s.ctx ctx).told.contains ep then
    let b := Config.freeBool s.freeN
    let s := s.spend
    if b then s.modCtx ctx fun x => { x with told := x.told ++ [ep] } else s
  else s

/-- Packets for a tile are parked while its clock is stopped (R21, R28). -/
def State.parksTile (s : State) (t : Nat) : Bool :=
  let x := s.tileSt t
  x.st == .banked || (x.st == .held && (x.heldRow.isNone || x.heldRow == some (tileTR t)))

/-- What the destination tile's port makes of a request (R28 to R31, R222, R225). The rules give no precedence between them: the model takes a stopped clock first,
then the partition, the epoch, the site's state and last HOLE or FENCED, so that such a tile of a stopped, RESET, OFF or DARK site is treated as its site is
(DESIGN CHOICE, log entry 111). -/
def State.tileFate (s : State) (t : Nat) (p : Packet) : Fate :=
  let x := s.tileSt t
  let T := s.tile t
  if s.parksTile t then .park
  else if x.part ≠ some p.spart then .partDrop
  else if s.staleCtx (s.tilePhys t) p.ctx p.epoch then .stale
  else if x.st = .reset ∨ T.resetting = true ∨ x.resetting = true then .answer stNotReady
  else if x.st = .off then .answer stSiteOff
  else if x.st = .dark then .answer stSiteDark
  else if T.st = .fenced ∨ T.st = .hole then .answer stHole
  else .serve

/-- The packets parked at a site (R29). -/
def State.parkedAt (s : State) (p : Nat) : Nat := (s.fab.flights.filter fun f => f.place == .parked p).length

/-- A packet stands at the port of its destination tile or control port, or is parked there. -/
def Flight.arrived (f : Flight) (p : Nat) : Bool := f.place == .dest p || f.place == .parked p

/-- Parks a packet where the buffer has room; otherwise it waits where it stands (R29). -/
def State.park (s : State) (i : Nat) (f : Flight) (p : Nat) : State :=
  if f.place = .parked p then s
  else if s.parkedAt p < 1024 then s.setFlight i { f with place := .parked p, via := none } else s

/-- The request is answered with a status: RERR to a READ, a counted drop of a WRITE or CNT (R28, R31). -/
def State.turnAway (s : State) (i : Nat) (f : Flight) (p : Nat) (at_ : Place) (status : Nat) : State :=
  let s := s.dropFlight i
  if f.pkt.opc = .read then s.respond f at_ .rerr status [] else s.dropAt p

/-- BAD_ADDRESS at a tile (R35, R250). -/
def State.tileBad (s : State) (i : Nat) (f : Flight) (t : Nat) : State :=
  let s := s.modTile t fun T => { T with fabBadaddr := T.fabBadaddr + 1 }
  let s := s.dropFlight i
  if f.pkt.opc = .read then s.respond f (s.tilePlace t) .rerr stBadAddress [] else s

/-- A request at its destination tile: parked, dropped, answered, or served by `k` (R28 to R31, R222, R225). -/
def atTile (s : State) (i : Nat) (f : Flight) (t : Nat) (k : State → Out) : Out :=
  if !f.arrived (s.tilePhys t) then ok s
  else
    let s := s.tell (s.tilePhys t) f.pkt.ctx
    match s.tileFate t f.pkt with
    | .park => ok (s.park i f (s.tilePhys t))
    | .partDrop => ok ((s.dropFlight i).partDropAt (s.tilePhys t))
    | .stale => ok ((s.dropFlight i).modTile t fun T => { T with fabStale := T.fabStale + 1 })
    | .answer st => ok (s.turnAway i f (s.tilePhys t) (s.tilePlace t) st)
    | .serve => k s

/-- An error completion at a core (R172, R189): the first status stays, the count saturates. -/
def Core.gerr (k : Core) (status : Nat) : Core :=
  { k with gerrErr := true, gerrStatus := if k.gerrErr then k.gerrStatus else BitVec.ofNat 8 status, gerrCount := satAdd16 k.gerrCount 1 }
def coreGerr (t : Tile) (c status : Nat) : Tile := t.modCore c fun k => k.gerr status

/-- The tracker that a response's tracker number and SEQ match (R226), live or ended by timeout (R228). -/
def Tile.match_ (t : Tile) (p : Packet) : Option Nat :=
  let k := bitsOf p.dest 4 0
  let x := t.trk k
  if x.st != .free && x.seq == p.seq then some k else none

/-- A response that matches no live tracker (R226). -/
def State.lateResponse (s : State) (t : Nat) (p : Packet) : State :=
  let current := !s.staleCtx (s.tilePhys t) p.ctx p.epoch
  s.modTile t fun T => if current then { T with fabLate := T.fabLate + 1 } else { T with fabStale := T.fabStale + 1 }

/-- The rest of a load's state after a response or a timeout of one of its reads (R203, R205). -/
def Loader.gotErr (l : Loader) : Loader := { l with readErr := true }

/-- A tracker ends with an error (R189, R227): its counter gains 1 and its core's xtgerr records the status; a loader's read ends the load READERR. -/
def Tile.trkError (t : Tile) (k status : Nat) : Tile :=
  let x := t.trk k
  if x.loader then { t with ld := t.ld.gotErr } else coreGerr (t.bump x.ctr 1) x.core status

end Sys2Proof.Machine
end

