-- ==== Sys2Proof/Machine/SiteViews.lean ====
section
/-! DEFINITION. Site control space (R272, R381, R492) and what invalidates a slice (R269). -/

namespace Sys2Proof.Machine

def siteStCode : SiteSt → Nat
  | .active => 0
  | .banked => 1
  | .held => 2
  | .reset => 3
  | .off => 4
  | .dark => 5

/-- The lowest ceiling of R370 with its cause: partition 1, ageing 2, power cap 3, pace lock 4, thermal 5, dip 6. -/
def State.ceilings (s : State) (p : Nat) : List (Nat × Nat) :=
  let x := s.site p
  [(1, match x.part with
      | some q => (s.partn q).ceil
      | none => 15), (2, x.mrg.ceiling), (3, x.clk.capLim), (4, x.clk.paceLim), (5, x.clk.thmLim), (6, x.clk.dipLim)]
def State.stepCeiling (s : State) (p : Nat) : Nat := lmin 15 ((s.ceilings p).map (·.2))
/-- When each limit reached its value: one that has changed takes the present turn (R370). -/
def limitTurns (now : Nat) : List Nat → List Nat → List Nat → List Nat
  | v :: vs, o :: os, a :: as => (if v = o then a else now) :: limitTurns now vs os as
  | _ :: vs, _, _ => now :: limitTurns now vs [] []
  | [], _, _ => []
/-- Of the limits, each a cause, its value and its turn, the cause that sets the step: the lowest value, and of equal ones the one that reached it first (R370). -/
def firstLimit (c : Nat) : List (Nat × Nat) → List Nat → Option (Nat × Nat)
  | (cause, v) :: ls, a :: as =>
    let r := firstLimit c ls as
    if v = c then
      match r with
      | some (d, b) => if b < a then some (d, b) else some (cause, a)
      | none => some (cause, a)
    else r
  | _, _ => none
/-- Keeps what limits a site now, and since when each limit has had its value. -/
def State.relimit (s : State) (p : Nat) : State :=
  let ls := s.ceilings p
  let vs := ls.map (·.2)
  let c := s.stepCeiling p
  let n := s.clk.turns
  ({ s with clk := { s.clk with turns := n + 1 } } : State).modSite p fun x =>
    let at_ := limitTurns n vs x.clk.lims x.clk.limAt
    { x with clk := { x.clk with lims := vs, limAt := at_, limitBy := if c = 15 then 0 else ((firstLimit c ls at_).map (·.1)).getD 0 } }
/-- SC_STEP.LIMITBY (R370, R381). -/
def State.limitBy (s : State) (p : Nat) : Nat := ((s.relimit p).site p).clk.limitBy

/-- Links of a face (R12). -/
def faceLinks (f : Face) : List (Nat × Nat) :=
  match f with
  | .west => (rangeFrom 0 8).map fun r => (r, 0)
  | .east => (rangeFrom 0 8).map fun r => (r, 16)
  | .north => (rangeFrom 0 17).map fun c => (0, c)
  | .south => (rangeFrom 0 17).map fun c => (7, c)
def faceIdx : Face → Nat
  | .north => 0
  | .east => 1
  | .south => 2
  | .west => 3
def faceOfIdx (i : Nat) : Face := if i = 0 then .north else if i = 1 then .east else if i = 2 then .south else .west

/-- The links of a face of a physical site (R12): to a neighbouring site or an attached edge die, each service die's faces having one link. -/
def siteLinks (p : Nat) (f : Face) : List (Nat × Nat) :=
  if (siteNeighbour p f).isSome then faceLinks f
  else if (rangeFrom 0 0x20).any fun e => (edgeAttach e).contains (p, f) then faceLinks f
  else if (edgeAttach 0x20).contains (p, f) then [(0, 0)]
  else if (edgeAttach 0x21).contains (p, f) then [(7, 16)]
  else []

/-- The same link seen from the router at its other end; an edge-face link has an edge die there. -/
def linkMate (l : LinkId) : Option LinkId :=
  if 272 ≤ l.site then none
  else
  match l.face with
  | .east => if l.pos < 16 then some { l with pos := l.pos + 1, face := .west }
      else (siteNeighbour l.site .east).map fun p => { site := p, row := l.row, pos := 0, face := .west }
  | .west => if 0 < l.pos then some { l with pos := l.pos - 1, face := .east }
      else (siteNeighbour l.site .west).map fun p => { site := p, row := l.row, pos := 16, face := .east }
  | .south => if l.row < 7 then some { l with row := l.row + 1, face := .north }
      else (siteNeighbour l.site .south).map fun p => { site := p, row := 0, pos := l.pos, face := .north }
  | .north => if 0 < l.row then some { l with row := l.row - 1, face := .south }
      else (siteNeighbour l.site .north).map fun p => { site := p, row := 7, pos := l.pos, face := .south }
/-- The other end of a link; the edge die's end of an edge-face link carries the attached site's number + 272. -/
def linkOther (l : LinkId) : LinkId :=
  match linkMate l with
  | some m => m
  | none => if l.site < 272 then { l with site := l.site + 272 } else { l with site := l.site - 272 }
/-- A link by its end at a router. -/
def linkRouter (l : LinkId) : LinkId := if l.site < 272 then l else linkOther l
/-- The two ends of a link. -/
def sameLink (l m : LinkId) : Bool := m == l || linkOther l == m
/-- Both directions of a link are down together (R241). -/
def State.linkDown (s : State) (l : LinkId) : Bool := s.fab.down.contains l || s.fab.down.contains (linkOther l)
/-- The failing wires of a link that training has mapped onto its spares (R242). -/
def State.linkWires (s : State) (l : LinkId) : Nat :=
  match s.fab.wires.find? fun w => sameLink l w.1 with
  | some w => w.2.foldl (fun n k => n + k) 0
  | none => 0

def b4 (f : Nat → Bool) : Nat := b2n (f 0) + 2 * b2n (f 1) + 4 * b2n (f 2) + 8 * b2n (f 3)

/-- SC_STEP (R381); REQ shows the last request also while it waits. -/
def State.scStep (s : State) (p : Nat) : Nat :=
  let k := (s.site p).clk
  b2n (k.ph != .none) * 2 ^ 31 + b2n (k.decoupled || k.freeRun) * 2 ^ 30 + b2n k.hold * 2 ^ 29 + b2n ((s.site p).st == .banked) * 2 ^ 28 + s.limitBy p * 2 ^ 20
    + s.stepCeiling p * 2 ^ 12 + k.nextReq.getD k.req * 2 ^ 8 + k.cur

/-- A 32-bit register of site control space; none where the offset is not listed (R272, R381, R492). -/
def State.siteView (s : State) (p off : Nat) : Option Nat :=
  let x := s.site p
  let k := x.clk
  let c := x.cache
  let m := x.mrg
  if off = 0x000 then some (p % 16 * 2 ^ 20 + p / 16 * 2 ^ 15 + (s.logical p).getD 0)
  else if off = 0x004 then
    let home := match x.part, s.logical p with
      | some q, some S => (s.partn q).home.contains S
      | _, _ => false
    some (b2n home * 2 ^ 31 + b2n x.part.isSome * 2 ^ 30 + x.part.getD 0 * 2 ^ 20 + k.cur * 2 ^ 8 + siteStCode x.st)
  else if off = 0x110 then some (b2n x.scrubEn)
  else if off = 0x114 then some (b2n (!c.mq.isEmpty) * 2 ^ 31 + c.mq.length * 2 ^ 16 + c.fills.length)
  else if off = 0x120 then some c.hits.toNat
  else if off = 0x124 then some c.misses.toNat
  else if off = 0x128 then some c.merged.toNat
  else if off = 0x12C then some c.corr.toNat
  else if off = 0x130 then some c.refetch.toNat
  else if off = 0x134 then some c.inval.toNat
  else if off = 0x200 then some (s.scStep p)
  else if off = 0x204 then some k.stepCnt.toNat
  else if off = 0x208 then some k.stopLast.toNat
  else if off = 0x210 then some (k.present.toNat * 16 + k.coupled.toNat)
  else if 0x220 ≤ off ∧ off < 0x230 then
    let f := faceOfIdx ((off - 0x220) / 4)
    let links := (siteLinks p f).map fun l => ({ site := p, row := l.1, pos := l.2, face := f } : LinkId)
    let down := (links.filter s.linkDown).length
    let peer := match siteNeighbour p f with
      | some q => (s.site q).clk.cur
      | none => 15
    some (peer * 2 ^ 28 + (links.length - down) * 2 ^ 21 + down * 2 ^ 16 + min (links.foldl (fun n l => n + s.linkWires l) 0) 255 * 2 ^ 8)
  else if off = 0x400 then
    some (b2n k.bankSweep * 2 ^ 31 + b2n m.overdueAt.isSome * 2 ^ 30 + m.cls * 2 ^ 28 + (m.bin - 2) * 2 ^ 24 + m.siteCeil * 2 ^ 20
      + m.cellCeilOf m.cell * 2 ^ 16 + m.margin15 % 256 * 2 ^ 8 + m.vsset % 256)
  else if off = 0x404 then some (m.sweeps % 65536 * 2 ^ 16 + m.age % 65536)
  else if off = 0x408 then
    some (match m.lastSweep with
      | none => 0xFFFFFFFF
      | some t => min ((s.time - t) / (60 * sec)) 0xFFFFFFFF)
  else if 0x410 ≤ off ∧ off < 0x420 then some (bytesOf (fun i => tget 0 m.trims i / 5) ((off - 0x410) / 4 * 4) 4)
  else if 0x420 ≤ off ∧ off < 0x460 then some (tget 0 m.mons ((off - 0x420) / 4))
  else if 0x460 ≤ off ∧ off < 0x480 then some (tget 0 m.sents ((off - 0x460) / 4))
  else if 0x480 ≤ off ∧ off < 0x490 then some (nibbles m.cellCeilOf ((off - 0x480) / 4 * 8) 8)
  else if 0x490 ≤ off ∧ off < 0x4A0 then some (nibbles (m.fltCount s.time) ((off - 0x490) / 4 * 8) 8)
  else none

/-- The 32 bits at an offset of site control space: a listed register, or 0 for the unlisted half of an 8-byte pair of which the other half is listed (R272;
log entry 91). -/
def State.siteHalf (s : State) (p off : Nat) : Option Nat :=
  (s.siteView p off).orElse fun _ =>
    if (s.siteView p (if off % 8 = 0 then off + 4 else off - 4)).isSome then some 0 else none
/-- The bytes of site control space from an offset; none where no register is listed (R272, R35). -/
def State.siteBytes (s : State) (p off : Nat) : Nat → Option (List Byte)
  | 0 => some []
  | n + 1 =>
    match s.siteHalf p (off / 4 * 4), s.siteBytes p (off + 1) n with
    | some v, some r => some (BitVec.ofNat 8 (v / 256 ^ (off % 4)) :: r)
    | _, _ => none

/-- Invalidates every line of a slice: pending fills still answer and are not installed; the counts clear (R269, R272). -/
def Cache.invalidate (c : Cache) : Cache :=
  { c with lines := [], plru := [], fills := c.fills.map (fun f => { f with dropped := true }), hits := 0, misses := 0, merged := 0, corr := 0, refetch := 0,
           inval := 0 }
def State.invalidateSlice (s : State) (p : Nat) : State := s.modSite p fun x => { x with cache := x.cache.invalidate }
/-- The physical sites of a partition. -/
def State.partSites (s : State) (q : Nat) : List Nat := (s.sites.filter fun e => e.2.part == some q).map (·.1)
def State.invalidatePart (s : State) (q : Nat) : State := (s.partSites q).foldl State.invalidateSlice s

end Sys2Proof.Machine
end

