-- ==== Sys2Proof/Machine/CacheOps.lean ====
section
/-! DEFINITION. The site cache slice (R260, R264, R265, R268, R271): lookup, replacement, installation, invalidation; and DDR accesses of a memory edge
die (R275 to R280, R283). -/

namespace Sys2Proof.Machine

def Cache.find (c : Cache) (line : Nat) : Option CLine := c.lines.find? fun x => x.line == line
def setOf (line : Nat) : Nat := line % 4096

/-- Tree pseudo-LRU over 16 ways: node 1 is the root, node n has children 2n and 2n + 1; a set bit points to the upper half as the next victim (the
direction of the bits is the model's, log entry 15). -/
def plruTouch (b : BitVec 15) (way : Nat) : BitVec 15 :=
  (rangeFrom 0 4).foldl (fun (b : BitVec 15) d =>
    let node := 2 ^ d + way / 2 ^ (4 - d)
    let up := way / 2 ^ (3 - d) % 2 == 1
    let m : BitVec 15 := BitVec.ofNat 15 (2 ^ (node - 1))
    if up then b &&& ~~~m else b ||| m) b
def plruVictim (b : BitVec 15) : Nat :=
  ((rangeFrom 0 4).foldl (fun (n : Nat) _ => 2 * n + b2n (b.getLsbD (n - 1))) 1) - 16

def Cache.touch (c : Cache) (line way : Nat) : Cache := { c with plru := tmod 0 c.plru (setOf line) fun b => plruTouch b way }

/-- A READ of a held line (R249, R264): one that coincides with an array read of it joins that read, any other reads the array. -/
def Cache.hit (c : Cache) (x : CLine) (joined : Bool) : Cache :=
  if joined then { c.touch x.line x.way with merged := c.merged + 1 }
  else { c.touch x.line x.way with hits := c.hits + 1, lines := c.lines.map fun y => if y.line = x.line then { y with fresh := true } else y }

/-- Installs a line: in a free way of its set, or in place of the victim (R260, R264). -/
def Cache.install (c : Cache) (line : Nat) (bytes : Mem) : Cache :=
  let inSet := c.lines.filter fun x => setOf x.line == setOf line
  let way := match (rangeFrom 0 16).find? fun w => inSet.all fun x => x.way != w with
    | some w => w
    | none => plruVictim (tget 0 c.plru (setOf line))
  let lines := c.lines.filter fun x => !(setOf x.line == setOf line && x.way == way) && x.line != line
  let c' : Cache := { c with lines := lines ++ [({ line := line, way := way, bytes := bytes } : CLine)] }
  c'.touch line way

/-- Removes a line, and keeps a pending fill of it from being installed (R268, R269). -/
def Cache.drop (c : Cache) (line : Nat) : Cache :=
  { c with lines := c.lines.filter (fun x => x.line != line),
           fills := c.fills.map fun f => if f.line = line then { f with dropped := true } else f }

/-- The edge die that owns a line for a partition (R262). -/
def State.lineOwner (s : State) (part : Nat) (a : W64) : Option Nat :=
  if aSpace a = 3 then
    if (s.partn part).ddr.cur.has (aDdr a) then some (chanEdge ((s.partn part).ddr.cur.map (aDdr a)).1) else none
  else some (portEdge (s.win (aWin a)).port)

/-- Sends the READ of a whole line to the owning edge die, with the site's locator (R212, R222, R264; log entry 90). -/
def State.fillRead (s : State) (p line part owner : Nat) : State :=
  s.addFlight { pkt := { opc := .read, last := false, dctr := 0, spart := part, epoch := 0, ctx := 0, seq := 0, len := 256,
                         dest := BitVec.ofNat 64 (line * 256), src := s.siteLoc p, total := 0, status := 0, hops := 0, payload := [] },
                goal := .edge owner, place := .router p 0 0, escape := false, fill := some (p, line) }

/-- A WRITE meets a pending fill of its line (R265). -/
def Fill.write (f : Fill) (a : Nat) (bs : List Byte) : Fill :=
  { f with patch := memPutList f.patch a bs, patchMask := f.patchMask ++ rangeFrom a bs.length }
/-- Writes into a held line and into a pending fill (R265). -/
def Cache.write (c : Cache) (a : Nat) (bs : List Byte) : Cache :=
  let line := a / 256
  { c with lines := c.lines.map (fun x => if x.line = line then { x with bytes := memPutList x.bytes (a % 256) bs, fresh := false } else x),
           fills := c.fills.map fun f => if f.line = line then f.write (a % 256) bs else f }

/-- The bytes of a fill after the writes that met it (R265). -/
def Fill.data (f : Fill) (bs : List Byte) : Mem :=
  f.patchMask.foldl (fun m k => memPut m k (memGet f.patch k)) (memPutList [] 0 bs)

/-! ### DDR -/

/-- The channel serves the bytes from a channel address: none, or the status that answers (R275). -/
def Chan.status (c : Chan) (ca n : Nat) : Option Nat :=
  if c.st ≠ 2 then some (if c.failed then stUncorr else stBadAddress)
  else if c.cap * 2 ^ 33 < ca + n then some stBadAddress
  else none

/-- A DRAM row of a burst: 8 KiB of channel addresses (log entry 81). -/
def rowOfBurst (b : Nat) : Nat := b / 128
/-- Records a row in the learned records for repair at the next cold power-on, once (R282). -/
def State.recordRow (s : State) (ch burst : Nat) : State :=
  let r := rowOfBurst burst
  if (s.chan ch).rows.contains r then s
  else (s.modChan ch fun c => { c with rows := c.rows ++ [r] }).learn 3 [BitVec.ofNat 64 (ch * 2 ^ 56 + burst * 64)]
/-- An uncorrectable burst is met (R280), and its row recorded (R282). -/
def State.ddrUe (s : State) (ch burst : Nat) : State :=
  let s := s.modChan ch fun c => { c with ue := satAdd c.ue 1, ueaddr := burst * 64 }
  (s.recordRow ch burst).raiseEdge 0x0301 (chanEdge ch) (burst * 64) ch

/-- A burst read with a correctable error: written back corrected, counted, and logged with its channel address, rank and device, which no word of the manual ties
to an address and which are free values (R280); a row's eighth in a patrol interval is recorded (R282). -/
def State.ddrCe (s : State) (ch burst : Nat) : State :=
  let c := s.chan ch
  let r := rowOfBurst burst
  let n := tget 0 c.rowCe r + 1
  let k := s.freeN
  let s := (s.spendN 2).modChan ch fun c =>
    { c with flips := c.flips.filter (· != burst), ce := satAdd c.ce 1, rowCe := tput 0 c.rowCe r n,
             ceLog := (burst * 64, Config.freeNat k, Config.freeNat (k + 1)) :: c.ceLog }
  if n = 8 then s.recordRow ch burst else s
/-- A read of some bursts. -/
def State.meetDdr (s : State) (ch : Nat) (reads : Nat → Bool) : State := ((s.chan ch).flips.filter reads).foldl (fun s b => s.ddrCe ch b) s

/-- The uncorrectable bursts of some bytes. -/
def Chan.badBursts (c : Chan) (ca n : Nat) : List Nat := if n = 0 then [] else c.bad.filter fun b => decide (ca / 64 ≤ b ∧ b ≤ (ca + n - 1) / 64)

/-- Writes burst by burst: a burst that the bytes cover only in part and that is uncorrectable keeps its bytes (R278). -/
def Chan.write (c : Chan) (ca : Nat) (bs : List Byte) : Chan :=
  let hi := ca + bs.length
  let keep (a : Nat) : Bool := c.bad.contains (a / 64) && !decide (ca ≤ a / 64 * 64 ∧ a / 64 * 64 + 64 ≤ hi)
  let bs' := (bs.zipIdx).map fun x => if keep (ca + x.2) then memGet c.dram (ca + x.2) else x.1
  { c with dram := memPutList c.dram ca bs', bad := c.bad.filter (fun b => !decide (ca ≤ b * 64 ∧ b * 64 + 64 ≤ hi)),
           flips := c.flips.filter fun b => !decide (ca ≤ b * 64 ∧ b * 64 + 64 ≤ hi) }
def Chan.partBad (c : Chan) (ca n : Nat) : List Nat :=
  c.bad.filter fun b => decide (ca / 64 ≤ b ∧ b ≤ (ca + n - 1) / 64) && !decide (ca ≤ b * 64 ∧ b * 64 + 64 ≤ ca + n)

/-- The patrol interval of the settings (R281, R283, R453); default 24 h. -/
def State.patrolCode (s : State) : Nat :=
  let b := (lget (0 : Byte) s.spi.fields 5).toNat
  if b ≤ 4 ∧ (lget (0 : Byte) s.spi.fields 0).getLsbD 1 = true then b else 3

/-- A register of a memory edge die's window (R283); none where none is. -/
def State.mecView (s : State) (e off : Nat) : Option Nat :=
  if e < 0x08 ∨ 0x10 ≤ e ∨ 0x400 ≤ off then none
  else
    let c := s.chan ((e - 8) * 4 + off / 0x100)
    let o := off % 0x100 / 4 * 4
    if o = 0 then some (c.st * 2 ^ 30 + c.kind * 2 ^ 28 + s.patrolCode * 2 ^ 24 + c.rate * 2 ^ 16 + c.cap * 2 ^ 8)
    else if o = 0x04 then some c.ce.toNat
    else if o = 0x08 then some c.ue.toNat
    else if o = 0x0C then some (c.ueaddr % 2 ^ 32)
    else if o = 0x10 then some (c.ueaddr / 2 ^ 32 % 1024)
    else if o = 0x14 then some c.patrols.toNat
    else if o = 0x18 then some (c.repaired % 65536 * 65536 + c.rows.length % 65536)
    else if o = 0x1C then some c.drop.toNat
    else none
def State.mecBytes (s : State) (e off : Nat) : Nat → Option (List Byte)
  | 0 => some []
  | n + 1 =>
    match s.mecView e off, s.mecBytes e (off + 1) n with
    | some v, some r => some (BitVec.ofNat 8 (v / 256 ^ (off % 4)) :: r)
    | _, _ => none

/-! ### Driver errors of descriptors and programs (R331) -/

/-- Free 8-byte words in a tile's scratch. -/
def Tile.wildScr (t : Tile) (n : Nat) : Tile := (Config.freePuts n).foldl (fun t p => t.scrPut (8 * (p.1 % 32768)) (leBytes 8 p.2)) t
/-- Free 8-byte words in the DDR of a region. -/
def State.wildDdr (s : State) (r : Region) (n : Nat) : State :=
  if r.size = 0 then s
  else
    (Config.freePuts n).foldl (fun s p =>
      let m := r.map (r.base * 2 ^ 26 + 8 * (p.1 % (r.size * 2 ^ 23)))
      s.modChan m.1 fun c => c.write m.2 (leBytes 8 p.2)) s
/-- What a driver error of R331 may leave behind in its partition: free words in the SRAM and scratch, the accumulators, slots and counters of its tiles,
and in its DDR region (log entry 53). -/
def State.wildPart (s : State) (q : Nat) : State :=
  let n := s.freeN
  let s := (Config.freePuts n).foldl (fun s p =>
    let t := p.1 % 32768
    if (s.tileSt t).part = some q then
      let s := s.wild t
      (s.modTile t fun T => T.wildScr s.freeN).spend
    else s) (s.spendN 2)
  s.wildDdr (s.partn q).ddr.cur (n + 1)

end Sys2Proof.Machine
end

