-- ==== Sys2Proof/Machine/HostOps.lean ====
section
/-! DEFINITION. The descriptor engine's shared operations (chapter Host Ports): host reads, the trackers of the PCIe edge dies (R323), COPY (R310, R311),
LAUNCH's starts (R312), and the answers to WAIT and gate reads. -/

namespace Sys2Proof.Machine

/-! ### Host reads (R288, R301, R311) -/

/-- Issues a host read through a port. -/
def State.issueRead (s : State) (port addr len : Nat) (for_ : HostFor) : State :=
  s.modHost fun h =>
    { h with reads := h.reads ++ [{ id := h.nextRead, port, addr, len, for_, since := s.time }], nextRead := h.nextRead + 1 }
def State.readOf (s : State) (id : Nat) : Option HostRead := s.host.reads.find? fun r => r.id == id
def State.dropRead (s : State) (id : Nat) : State := s.modHost fun h => { h with reads := h.reads.filter fun r => r.id != id }

/-! ### Trackers of a PCIe edge die (R323) -/

def State.etrks (s : State) (pe : Nat) : List ETrk := if pe = 0 then s.host.etrk0 else s.host.etrk1
def State.setEtrks (s : State) (pe : Nat) (l : List ETrk) : State :=
  s.modHost fun h => if pe = 0 then { h with etrk0 := l } else { h with etrk1 := l }

/-- Trackers ended by timeout are free again after four response timeouts (R228, R323). -/
def State.edgeReuse (s : State) (pe : Nat) : State :=
  s.setEtrks pe ((s.etrks pe).filter fun t => !(t.ended && decide (t.since + 4 * (2 ^ (s.partn t.part).cur.rto * ms) ≤ s.time)))
/-- A READ that a PCIe edge die issues, with its tracker (R212, R323). -/
def State.edgeRead (s : State) (pe ctx : Nat) (a : W64) (len : Nat) (for_ : EdgeFor) : State :=
  let s := s.edgeReuse pe
  let x := s.ctx ctx
  let (q, s) := s.edgeSeq pe ctx
  let id := s.host.nextTag
  let s := s.modHost fun h => { h with nextTag := id + 1 }
  let s := s.setEtrks pe (s.etrks pe ++ [{ id, ctx, epoch := x.epoch, part := x.cfg.part, seq := q, for_, since := s.time, ended := false }])
  s.inject (.edge pe) none (edgeSite pe)
    { opc := .read, last := false, dctr := 0, spart := x.cfg.part, epoch := x.epoch, ctx, seq := q, len, dest := a, src := edgeAddr s.rick.panel pe id,
      total := 0, status := 0, hops := 0, payload := [] }

/-! ### COPY (R310, R311) -/

def Desc.copySrc (d : Desc) : W64 := d.w 1
def Desc.copyDst (d : Desc) : W64 := d.w 2
def Desc.copyLen (d : Desc) : Nat := bitsOf (d.w 3) 31 0
def Desc.copyTotal (d : Desc) : W32 := BitVec.ofNat 32 (bitsOf (d.w 4) 63 32)
def Desc.copyLast (d : Desc) : Bool := bitOf (d.w 4) 31
def Desc.copyCtr (d : Desc) : Nat := bitsOf (d.w 4) 29 24

/-- The source is a host window on one of the die's own ports: read directly from the host (R311). -/
def State.copyDirect (s : State) (pe ctx : Nat) (a : W64) : Option Win :=
  if aSpace a = 4 then
    let w := s.win (aWin a)
    if w.allows ctx (aWinOff a) && w.part == (s.ctx ctx).cfg.part && portEdge w.port == pe then some w else none
  else none

/-- Reads in flight of all COPYs of a die, at most 256 (R311). -/
def State.copyReads (s : State) (pe : Nat) : Nat :=
  ((s.etrks pe).filter fun t => match t.for_ with
    | .copy _ _ _ => !t.ended
    | _ => false).length +
  (s.host.reads.filter fun r => portEdge r.port == pe && match r.for_ with
    | .copy _ _ _ => true
    | _ => false).length

/-- Issues the reads of a COPY, in ascending order, while the die has room (R311). -/
def State.copyAsk (s : State) (pe c : Nat) (n : W32) (d : Desc) : Nat → State
  | 0 => s
  | fuel + 1 =>
    match s.desc c n with
    | some { prog := .copy asked wrote out wacks got have_, fin := none, .. } =>
      if asked < d.copyLen ∧ s.copyReads pe < 256 then
        let a : W64 := d.copySrc + BitVec.ofNat 64 asked
        let left := d.copyLen - asked
        match s.copyDirect pe c a with
        | some w =>
          if (s.port w.port).mute then s.endDesc c n (errEnding 0x03 0 0x11 0 none)
          else
          let h := w.base + aWinOff a
          let k := min left (min (s.port w.port).mrrs (4096 - h % 4096))
          let s := s.modDesc c n fun x => { x with prog := .copy (asked + k) wrote (out + 1) wacks got have_ }
          let s := s.issueRead w.port h k (.copy c n asked)
          s.copyAsk pe c n d fuel
        | none =>
          let k := min left (256 - a.toNat % 256)
          let s := s.modDesc c n fun x => { x with prog := .copy (asked + k) wrote (out + 1) wacks got have_ }
          let s := s.edgeRead pe c a k (.copy n asked k)
          s.copyAsk pe c n d fuel
      else s
    | _ => s

/-- The end of the contiguous bytes that have arrived from an offset. -/
def reach : List (Nat × Nat) → Nat → Nat → Nat
  | [], _, e => e
  | (a, k) :: r, lo, e => reach r lo (if a ≤ e ∧ e < a + k then a + k else e)
def reachAll (l : List (Nat × Nat)) (e : Nat) : Nat → Nat
  | 0 => e
  | n + 1 => reachAll l (reach l e e) n

/-- Writes the pieces whose bytes have arrived, in ascending order, each ending at a 256-byte boundary of DST (R311). -/
def State.copyPut (s : State) (pe c : Nat) (n : W32) (d : Desc) : Nat → State
  | 0 => s
  | fuel + 1 =>
    match s.desc c n with
    | some { prog := .copy asked wrote out wacks got have_, fin := none, .. } =>
      let a : W64 := d.copyDst + BitVec.ofNat 64 wrote
      let k := min (d.copyLen - wrote) (256 - a.toNat % 256)
      if wrote < d.copyLen ∧ wrote + k ≤ reachAll have_ wrote have_.length then
        let x := s.ctx c
        let fin := wrote + k = d.copyLen
        let (q, s) := s.edgeSeq pe c
        let own := decide (aSpace a ≥ 2)
        let s := s.modDesc c n fun y =>
          { y with prog := .copy asked (wrote + k) out (if own then wacks ++ [q] else wacks) (got.filter fun b => decide (wrote + k ≤ b.1))
                      (have_.filter fun h => decide (wrote + k < h.1 + h.2)) }
        let s := s.inject (.edge pe) none (edgeSite pe)
          { opc := .write, last := d.copyLast && decide fin, dctr := d.copyCtr, spart := x.cfg.part, epoch := x.epoch, ctx := c, seq := q, len := k,
            dest := a, src := edgeAddr s.rick.panel pe (c + 0x8000), total := if d.copyLast ∧ fin then d.copyTotal else 0, status := 0, hops := 0,
            payload := memGetList got wrote k }
        s.copyPut pe c n d fuel
      else s
    | _ => s

/-- Advances a COPY: reads, writes, and its end (R307, R311). -/
def State.copyStep (s : State) (c : Nat) (n : W32) : State :=
  match s.desc c n with
  | none => s
  | some x =>
    let pe := portEdge (s.ctx c).cfg.port
    let s := s.copyAsk pe c n x.d 257
    let s := s.copyPut pe c n x.d 8192
    match s.desc c n with
    | some { prog := .copy _ wrote _ wacks _ _, .. } =>
      if wrote = x.d.copyLen ∧ (aSpace x.d.copyDst < 2 ∨ wacks = []) then s.endDesc c n (okEnding x.d.copyLen) else s
    | _ => s

/-- Bytes of a COPY have arrived. -/
def State.copyGot (s : State) (c : Nat) (n : W32) (at_ : Nat) (bs : List Byte) : State :=
  (s.modDesc c n fun x =>
    match x.prog with
    | .copy asked wrote out wacks got have_ =>
      { x with prog := .copy asked wrote (out - 1) wacks (memPutList got at_ bs) (have_ ++ [(at_, bs.length)]) }
    | _ => x).copyStep c n

/-- The COPYs of a die that still have bytes to ask for go on, contexts ascending and the oldest of each first, as reads are free again (R311; log entry 14). -/
def State.copiesAsk (s : State) (pe : Nat) : State :=
  s.host.ctxs.foldl (fun s e =>
    if portEdge e.2.cfg.port = pe then e.2.inflight.foldl (fun s x => match x.prog with
      | .copy _ _ _ _ _ _ => if x.fin.isNone then s.copyAsk pe e.1 x.d.n x.d 257 else s
      | _ => s) s
    else s) s

/-- A WACK of a COPY's WRITE has returned, matched by its SEQ (R211): a status other than OK ends the COPY with FABRIC_ERR (R307, R317). The tag of the WRITE names
the context (log entry 14). -/
def State.copyWack (s : State) (c : Nat) (seq : W16) (status : Nat) : State :=
  match (s.ctx c).inflight.find? fun x => match x.prog with
      | .copy _ _ _ wacks _ _ => wacks.contains seq && x.fin.isNone
      | _ => false with
  | none => s
  | some x =>
    let s := s.modDesc c x.d.n fun x =>
      match x.prog with
      | .copy asked wrote out wacks got have_ => { x with prog := .copy asked wrote out (wacks.erase seq) got have_ }
      | _ => x
    if status = 0 then s.copyStep c x.d.n else s.endDesc c x.d.n (errEnding 0x04 0 status 0 none)

/-! ### Regions, LAUNCH starts (R309, R312) -/

/-- A region lies within the panel (R309). -/
def regionIn (w : W64) : Bool := decide (bitsOf w 63 56 + bitsOf w 55 48 < 256 ∧ bitsOf w 47 41 + bitsOf w 40 34 < 128)
/-- The tiles of a region that the panel has (R309). -/
def regionTiles (w : W64) : List Nat :=
  let x0 := bitsOf w 63 56
  let y0 := bitsOf w 47 41
  (((rangeFrom y0 (bitsOf w 40 34 + 1)).filter (· < 128)).map fun y => ((rangeFrom x0 (bitsOf w 55 48 + 1)).filter (· < 256)).map fun x => tileAt x y).flatten

/-- A LAUNCH sends one start to each tile of its region, with the policy that it met at its own start (R132, R312). -/
def State.sendStarts (s : State) (c : Nat) (n : W32) (d : Desc) (mode audn : Nat) (theta : W32) : State :=
  let tiles := regionTiles (d.w 2)
  let x := s.ctx c
  let msgs := tiles.map fun t =>
    ({ tile := t, ctx := c, part := x.cfg.part, epoch := x.epoch, n, arg := d.w 1, cores := bitsOf (d.w 2) 31 28, detach := bitOf (d.w 2) 27,
       entry := bitsOf (d.w 2) 15 0, mode, audn, theta } : StartMsg)
  let s := s.modFab fun f => { f with starts := f.starts ++ msgs }
  (s.modDesc c n fun y => { y with prog := .launch false tiles.length 0 [] [] 0 [] }).launchCheck c n

/-- The address of a tile's counter. -/
def State.ctrAddr (s : State) (t k : Nat) : W64 := tileAddr s.rick.panel 1 t (0x100000 + 8 * k)

/-! ### Answers to the reads of a PCIe edge die (R166, R312, R314, R323) -/

/-- A read of a descriptor has failed with a status of R213. -/
def State.edgeFail (s : State) (t : ETrk) (status : Nat) : State :=
  match t.for_ with
  | .copy n _ _ => s.endDesc t.ctx n (errEnding 0x04 0 status 0 none)
  | .wait n => s.endDesc t.ctx n (errEnding 0x04 0 status 0 none)
  | .gate n _ _ _ => s.endDesc t.ctx n (errEnding 0x04 0 status 0 none)
  | .dbg => s.modDbg fun d => { d with busy := false, status := BitVec.ofNat 8 status }

/-- A read of a descriptor has its bytes. -/
def State.edgeData (s : State) (t : ETrk) (bs : List Byte) : State :=
  let v : W32 := BitVec.ofNat 32 (leWord (bs.take 4))
  match t.for_ with
  | .copy n at_ _ => s.copyGot t.ctx n at_ bs
  | .wait n =>
    match s.desc t.ctx n with
    | none => s
    | some x =>
      if 0 ≤ (v - BitVec.ofNat 32 (bitsOf (x.d.w 2) 31 0)).toInt then s.endDesc t.ctx n (okEnding v.toNat)
      else s.modDesc t.ctx n fun y => { y with prog := .wait false s.time }
  | .gate n mode audn theta =>
    match s.desc t.ctx n with
    | none => s
    | some x => if v = 0 then s.endDesc t.ctx n { status := 0, result := 0, skipped := true } else s.sendStarts t.ctx n x.d mode audn theta
  | .dbg => s.modDbg fun d => { d with busy := false, data := BitVec.ofNat 64 (leWord (bs.take 8)), status := 0 }

/-- A response at a PCIe edge die: it matches a tracker by tag and SEQ; one ended by timeout is only freed (R226, R228, R323). -/
def State.edgeResponse (s : State) (pe : Nat) (p : Packet) : State :=
  let s := s.edgeReuse pe
  let tag := bitsOf p.dest 15 0
  match (s.etrks pe).find? fun t => t.id % 65536 == tag && t.seq == p.seq with
  | none => s
  | some t =>
    let s := s.setEtrks pe ((s.etrks pe).filter fun u => u.id != t.id)
    (if t.ended then s else if p.opc = .rdata then s.edgeData t p.payload else s.edgeFail t p.status.toNat).copiesAsk pe

end Sys2Proof.Machine
end

