-- ==== Sys2Proof/Machine/RickOps.lean ====
section
/-! DEFINITION. Packets between panels (R349, R350, R355 to R358): leaving through a cascade port, and arriving from one. -/

namespace Sys2Proof.Machine

/-- One flit more: into the newest codeword where it is begun at the same moment and has a slot free, else into a new one (R349; log entry 92). -/
def addSlot (now : Nat) (b : List Sent × BitVec 8) (x : CwSlot) : List Sent × BitVec 8 :=
  match b.1.getLast? with
  | some w =>
    if w.at_ = now ∧ w.resends = 0 ∧ w.slots.length < 10 then (b.1.dropLast ++ [{ w with slots := w.slots ++ [x] }], b.2)
    else (b.1 ++ [{ cseq := b.2, slots := [x], resends := 0, at_ := now }], b.2 + 1)
  | none => ([{ cseq := b.2, slots := [x], resends := 0, at_ := now }], b.2 + 1)
/-- The ten slots of a codeword as it is sent: those that carry no flit hold a header flit with OPC 0x0 (R349). -/
def Sent.sent (w : Sent) : List CwSlot := w.slots ++ List.replicate (10 - w.slots.length) .idle
/-- Puts a packet's flits into codewords of a port's replay buffer (R349, R350). -/
def State.casSend (s : State) (n : Nat) (p : Packet) : State :=
  s.modCas n fun x =>
    let b := ((rangeFrom 0 (Packet_flits p)).map fun k => CwSlot.flit p k).foldl (addSlot s.time) (x.replay, x.nextSeq)
    { x with replay := b.1, nextSeq := b.2, since := if x.replay.isEmpty then s.time else x.since }

/-- The ports of a cascade edge die that lead toward a panel and are UP (R355, R356). -/
def State.casPorts (s : State) (e q : Nat) : List Nat :=
  (rangeFrom (4 * (e - 0x10)) 4).filter fun n => (Config.rickPortMask s.rick.gen e q).getLsbD (n % 4) && (s.cas n).st == 2
/-- The least loaded of some ports: the fewest codewords unacknowledged, the first on a tie (R356). -/
def State.leastLoaded (s : State) : List Nat → Option Nat
  | [] => none
  | n :: r =>
    match s.leastLoaded r with
    | none => some n
    | some m => if (s.cas m).replay.length < (s.cas n).replay.length then some m else some n
/-- The alternate die toward a panel, where the publication names one other than EDGE that has ports toward it (R356; log entry 8). -/
def State.altEdge (s : State) (q : Nat) : Option Nat :=
  let a := s.rickAlt q
  if 0x10 ≤ a ∧ a < 0x18 ∧ s.rickEdge q ≠ some a ∧ Config.rickPortMask s.rick.gen a q ≠ 0 then some a else none

/-- A packet at a cascade edge die leaves toward its panel (R341, R356, R357): in the partition's MASK where it originates here, through the least loaded port that is
UP, where the replay buffer has room; or back into the mesh toward ALT where no port is UP; at ALT, or with none, it finds no way on (R237, R362). -/
def State.casLeave (s : State) (i : Nat) (f : Flight) (e : Nat) : State :=
  let q := aPanel f.pkt.dest
  let ours := aPanel f.pkt.src == s.rick.panel
  let inMask (n : Nat) : Bool := !ours || (s.partn f.pkt.spart).cur.mask.getLsbD n
  let up := s.casPorts e q
  match s.leastLoaded (up.filter inMask) with
  | some n => if (s.cas n).replay.length < 511 then (s.dropFlight i).casSend n f.pkt else s
  | none =>
    if up.isEmpty then
      let at_ : State := let s := s.dropFlight i
        if f.pkt.opc = .read then s.respond f (.edge e) .rerr stNoRoute [] else s.noRouteAt (edgeSite e) f.pkt.dest
      if s.rickEdge q = some e then
        match s.altEdge q with
        | some a => s.setFlight i { f with goal := .edge a, via := none }
        | none => at_
      else at_
    else
      let s := (s.dropFlight i).edgePart e
      if f.pkt.opc = .read then s.respond f (.edge e) .rerr stNoRoute [] else s

/-- The DEFINED partition whose MASK holds a cascade port (R358). -/
def State.portPart (s : State) (n : Nat) : Option Nat :=
  allParts.find? fun p => (s.partn p).st == .defined && (s.partn p).cur.mask.getLsbD n

/-- A packet that has arrived through a cascade port (R357, R358). -/
def State.casArrive (s : State) (n : Nat) (p : Packet) : State :=
  let e := casEdge n
  if aPanel p.dest ≠ s.rick.panel then
    match s.rickEdge (aPanel p.dest) with
    | some e' => s.addFlight { pkt := p, goal := .edge e', place := .edge e, escape := false, fill := none }
    | none => s.addFlight { pkt := p, goal := .nowhere, place := .edge e, escape := false, fill := none }
  else
    match s.portPart n with
    | none => s.edgePart e
    | some q =>
      let d := (s.partn q).cur
      if p.ctx < d.first ∨ d.first + d.count ≤ p.ctx then s.edgePart e
      else if Opc_isReq p.opc then s.inject (.edge e) none (edgeSite e) { p with spart := q }
      else s.addFlight { pkt := { p with spart := q }, goal := s.respGoal p.dest, place := .edge e, escape := false, fill := none }

/-- A flit slot of a codeword in order: an empty one is discarded, the flits of a packet are put together (R349). -/
def State.casFlit (s : State) (n : Nat) : CwSlot → State
  | .idle => s
  | .flit p k =>
    let next := if k = 0 then some 0 else match (s.cas n).rx with
      | some (q, j) => if q = p then some j else none
      | none => none
    if next = some k then
      if k + 1 = Packet_flits p then (s.modCas n fun x => { x with rx := none }).casArrive n p
      else s.modCas n fun x => { x with rx := some (p, k + 1) }
    else s

end Sys2Proof.Machine
end

