-- ==== Sys2Proof/Machine/Routes.lean ====
section
/-! DEFINITION. Route tables (R229 to R238). The service die chooses the faces: a publication's choice stands where it leads every packet home within 700 routers,
leaves the escape channels without a cyclic wait, and keeps the detours within their bounds; elsewhere a table of the model's own stands in its place, which
leads every packet home with any one site DARK (log entry 8). -/

namespace Sys2Proof.Machine

/-- A route entry (R229). -/
structure RouteEnt where
  p0 : Nat
  p1 : Nat
  d0 : Nat
  d1 : Nat
deriving DecidableEq, Repr, Inhabited

/-- A publication of route tables: its count, the site remap and the DARK sites for which the service die computed it (R234). -/
structure Pub where
  gen : Nat
  smap : Tbl (List Nat)
  dark : List Nat
deriving DecidableEq, Repr, Inhabited

/-- The faces that a publication names at a site for a destination index; none where the entry is not valid. -/
def Pub.named (b : Pub) (p idx : Nat) : Option RouteEnt :=
  let w := Config.routeFaces b.gen b.smap b.dark p idx
  if w.getLsbD 14 then some { p0 := bitsOf w 13 11, p1 := bitsOf w 10 8, d0 := bitsOf w 7 5, d1 := bitsOf w 4 2 } else none
/-- An index names an edge die attached to a site. -/
def attachedTo (p idx : Nat) : Bool := decide (256 ≤ idx) && (edgeAttach (idx - 256)).any fun a => a.1 == p
/-- An entry with, at a site attached to the edge die, the site's own edge face first (R232). -/
def withEdgeFace (p idx : Nat) (e : Option RouteEnt) : Option RouteEnt :=
  if attachedTo p idx then some { e.getD { p0 := 0, p1 := 0, d0 := 0, d1 := 0 } with p0 := 5 } else e
/-- The entry that the service die chose. -/
def Pub.ent (b : Pub) (p idx : Nat) : Option RouteEnt := withEdgeFace p idx (b.named p idx)

/-! ### The sites a table must join -/

/-- The physical site of a site number under a site remap (R23). -/
def physIn (smap : Tbl (List Nat)) (S : Nat) : Nat :=
  let m := tget [] smap (S / 16)
  lget 16 (if m = [] then rangeFrom 0 16 else m) (S % 16) * 16 + S / 16
/-- The sites at which a packet for a destination index has arrived, with the face of an edge die. -/
def targets (smap : Tbl (List Nat)) (idx : Nat) : List (Nat × Option Face) :=
  if idx < 256 then [(physIn smap idx, none)] else (edgeAttach (idx - 256)).map fun a => (a.1, some a.2)
/-- The sites that live sites join to a set, in at most `n` seams. -/
def joined (dark : List Nat) : Nat → List Nat → List Nat
  | 0, l => l
  | n + 1, l =>
    joined dark n ((rangeFrom 0 272).filter fun p =>
      l.contains p || (!dark.contains p && allFaces.any fun f => match siteNeighbour p f with
        | some q => l.contains q
        | none => false))
/-- The sites from which a destination can be reached while some sites are DARK. -/
def reachers (smap : Tbl (List Nat)) (dark : List Nat) (idx : Nat) : List Nat :=
  joined dark 272 (((targets smap idx).map (·.1)).filter fun p => idx < 256 || !dark.contains p)

/-! ### Walks over routers -/

/-- A router: site, row, position. -/
abbrev Rtr := Nat × Nat × Nat

/-- The side toward the one link of a service die's face (R12). -/
def towardSv (f : Face) : Face :=
  if f = .west then .north else if f = .north then .west else if f = .south then .east else .south
/-- The step from a position toward a face: to the next position or across a seam; none out of an edge face. -/
def stepFace (r : Rtr) : Face → Option Rtr
  | .east => if r.2.2 < 16 then some (r.1, r.2.1, r.2.2 + 1) else (siteNeighbour r.1 .east).map fun q => (q, r.2.1, 0)
  | .west => if 0 < r.2.2 then some (r.1, r.2.1, r.2.2 - 1) else (siteNeighbour r.1 .west).map fun q => (q, r.2.1, 16)
  | .south => if r.2.1 < 7 then some (r.1, r.2.1 + 1, r.2.2) else (siteNeighbour r.1 .south).map fun q => (q, 0, r.2.2)
  | .north => if 0 < r.2.1 then some (r.1, r.2.1 - 1, r.2.2) else (siteNeighbour r.1 .north).map fun q => (q, 7, r.2.2)

/-- A face leads to a live site, or out of the attached face, while some sites are DARK (R236). -/
def opens (smap : Tbl (List Nat)) (dark : List Nat) (idx p code : Nat) : Option Face :=
  if code = 5 then ((targets smap idx).find? fun t => t.1 == p).bind (·.2)
  else (faceOfCode code).filter fun f => match siteNeighbour p f with
    | some q => !dark.contains q
    | none => false
/-- The faces between which a router chooses: the permitted ones, or the detour faces in their place (R230, R236). -/
def RouteEnt.faces (e : RouteEnt) (open_ : Nat → Option Face) : List Face :=
  let ps := [e.p0, e.p1].filterMap open_
  if ps.isEmpty then [e.d0, e.d1].filterMap open_ else ps
/-- The one face of the escape channel: P0, or D0 where P0 is unusable (R233; log entry 12). -/
def RouteEnt.escape (e : RouteEnt) (open_ : Nat → Option Face) : Option Face := (open_ e.p0).orElse fun _ => open_ e.d0

/-- A packet has no further router to pass: it is in its destination site, at the exit of its edge die, or before its DARK destination (R28, R231, R232). -/
def atEnd (b : Pub) (dark : List Nat) (idx : Nat) (r : Rtr) : Bool :=
  if idx < 256 then
    r.1 == physIn b.smap idx || (dark.contains (physIn b.smap idx) && match b.ent r.1 idx with
      | some e => [e.p0, e.p1].any fun c => match faceOfCode c with
        | some f => siteNeighbour r.1 f == some (physIn b.smap idx)
        | none => false
      | none => false)
  else
    (targets b.smap idx).any fun t => t.1 == r.1 && match t.2 with
      | some f => (siteLinks r.1 f).contains (r.2.1, r.2.2)
      | none => false
/-- The routers to which a packet may move next: along the row or column, and along an edge face to a service die's one link (R230, R232). -/
def nexts (b : Pub) (dark : List Nat) (idx : Nat) (r : Rtr) : List Rtr :=
  match b.ent r.1 idx with
  | none => []
  | some e => (e.faces (opens b.smap dark idx r.1)).filterMap fun f => (stepFace r f).orElse fun _ => stepFace r (towardSv f)

/-- One way out of several; none where one of them does not lead home. -/
def pickWay (pick : Nat × Nat → Nat × Nat → Nat × Nat) : List (Option (Nat × Nat)) → Option (Nat × Nat)
  | [] => none
  | [w] => w
  | w :: ws =>
    match w, pickWay pick ws with
    | some a, some d => some (pick a d)
    | _, _ => none
/-- A way home in router moves and in seams, of those between which credits may choose; none where a choice does not lead home within `n` moves. -/
def wayHome (pick : Nat × Nat → Nat × Nat → Nat × Nat) (b : Pub) (dark : List Nat) (idx : Nat) : Nat → Rtr → Option (Nat × Nat)
  | 0, r => if atEnd b dark idx r then some (0, 0) else none
  | n + 1, r =>
    if atEnd b dark idx r then some (0, 0)
    else pickWay pick ((nexts b dark idx r).map fun q =>
      (wayHome pick b dark idx n q).map fun d => (d.1 + 1, d.2 + if q.1 = r.1 then 0 else 1))
/-- The longest way home. -/
def longest : Pub → List Nat → Nat → Nat → Rtr → Option (Nat × Nat) := wayHome fun a d => (max a.1 d.1, max a.2 d.2)
/-- The shortest way home. -/
def shortest : Pub → List Nat → Nat → Nat → Rtr → Option (Nat × Nat) := wayHome fun a d => if d.1 < a.1 then d else a
/-- The moves inside the destination site: along its 17 positions, then along its 8 rows (R231). -/
def inSiteMoves (idx : Nat) : Nat := if idx < 256 then 16 + 7 else 0

/-! ### The escape channels (R233) -/

/-- The link over which an escape packet for a destination leaves a router. -/
def escapeLink (b : Pub) (dark : List Nat) (idx : Nat) (r : Rtr) : Option LinkId :=
  if atEnd b dark idx r then none
  else (b.ent r.1 idx).bind fun e => (e.escape (opens b.smap dark idx r.1)).map fun f => { site := r.1, row := r.2.1, pos := r.2.2, face := f }
/-- The links of all routers. -/
def allLinks : List LinkId :=
  ((rangeFrom 0 272).map fun p => ((rangeFrom 0 8).map fun r => ((rangeFrom 0 17).map fun c =>
    allFaces.map fun f => ({ site := p, row := r, pos := c, face := f } : LinkId)).flatten).flatten).flatten
/-- A packet on one escape channel may wait for another, under either of two publications (R234). -/
def waitsFor (b b' : Pub) (dark : List Nat) (l m : LinkId) : Bool :=
  match linkMate l with
  | none => false
  | some k => (m.site, m.row, m.pos) == (k.site, k.row, k.pos) && (rangeFrom 0 320).any fun idx =>
      ([b, b'].any fun x => escapeLink x dark idx (l.site, l.row, l.pos) == some l) && [b, b'].any fun x => escapeLink x dark idx (m.site, m.row, m.pos) == some m
/-- No chain of waits from a channel is longer than `n`. -/
def chainEnds (w : LinkId → LinkId → Bool) : Nat → LinkId → Bool
  | 0, _ => false
  | n + 1, l => allLinks.all fun m => !w l m || chainEnds w n m

/-! ### Sets of tables -/

/-- Every packet that can reach its destination gets there within 700 routers, with some sites DARK (R235, R237). -/
def Pub.leads (b : Pub) (dark : List Nat) : Bool :=
  (rangeFrom 0 320).all fun idx => (targets b.smap idx).isEmpty || (reachers b.smap dark idx).all fun p =>
    dark.contains p || (rangeFrom 0 8).all fun r => (rangeFrom 0 17).all fun c =>
      (longest b dark idx 700 (p, r, c)).any fun d => decide (d.1 + inSiteMoves idx < 700)
/-- A further DARK site costs a packet that takes the nearer side at most 18 moves, 8 for traffic along one row of sites, and 2 seams (R236). -/
def Pub.bounded (b : Pub) (x : Nat) : Bool :=
  let dark := b.dark ++ [x]
  (rangeFrom 0 320).all fun idx => (reachers b.smap dark idx).all fun p =>
    dark.contains p || (rangeFrom 0 8).all fun r => (rangeFrom 0 17).all fun c =>
      match shortest b b.dark idx 700 (p, r, c), shortest b dark idx 700 (p, r, c) with
      | some a, some d => decide (d.1 ≤ a.1 + (if (targets b.smap idx).all fun t => t.1 % 16 == p % 16 then 8 else 18)) && decide (d.2 ≤ a.2 + 2)
      | _, _ => true
/-- The distance of two sites in sites. -/
def siteDist (p q : Nat) : Nat := (p / 16 - q / 16) + (q / 16 - p / 16) + ((p % 16 - q % 16) + (q % 16 - p % 16))
/-- While no site is DARK, every table has permitted faces toward both sites of an edge die that has two (R232). -/
def Pub.towardBoth (b : Pub) : Bool :=
  !b.dark.isEmpty || (rangeFrom 0x10 8).all fun e => decide ((edgeAttach e).length < 2) || (edgeAttach e).all fun a => (rangeFrom 0 272).all fun p =>
    ((edgeAttach e).any fun t => t.1 == p) || match b.ent p (256 + e) with
      | none => false
      | some r => [r.p0, r.p1].any fun c => match (faceOfCode c).bind (siteNeighbour p) with
        | some q => decide (siteDist q a.1 < siteDist p a.1)
        | none => false
/-- A set of tables beside the one before it achieves what R232 to R238 ask: as it stands, and with any one further site DARK. -/
def Pub.good (b b' : Pub) : Bool :=
  b.towardBoth && (none :: (rangeFrom 0 272).map some).all fun x =>
    let dark := b.dark ++ x.toList
    b.leads dark && (match x with
      | some p => b.bounded p
      | none => true) && allLinks.all (chainEnds (waitsFor b b' dark) (allLinks.length + 1))

/-! ### The model's own tables (log entry 8) -/

/-- Of the sites of a destination, the one toward which a site sends: of an edge die's two the nearer row's. -/
def aim (p : Nat) : List Nat → Nat
  | [] => p
  | [t] => t
  | t :: u :: _ => if p % 16 ≤ t % 16 then t else u
/-- The entry toward a site while no site is DARK: along the row of sites first, but along the column first one column to the west of the destination, and one to
its east where that is column 0; a detour steps to the west, to the north, or to an edge die's other site. -/
def plainEntry (p : Nat) (ts : List Nat) : RouteEnt :=
  let t := aim p ts
  let v := if p % 16 < t % 16 then 3 else 1
  let h := if p / 16 < t / 16 then 2 else 4
  let dx := p / 16 - t / 16 + (t / 16 - p / 16)
  let dy := p % 16 - t % 16 + (t % 16 - p % 16)
  let two := decide (1 < ts.length)
  if dx = 0 then { p0 := v, p1 := 0, d0 := if p / 16 = 0 then 2 else 4, d1 := 0 }
  else if dy = 0 then { p0 := h, p1 := 0, d0 := if (if two then ts.head? == some t else p % 16 == 0) then 3 else 1, d1 := 0 }
  else
    let vFirst := if t / 16 = 0 then p / 16 = 1 else t / 16 = p / 16 + 1 ∧ (2 ≤ dy ∨ two = true)
    { p0 := if vFirst then v else h, p1 := if 2 ≤ dx ∧ 2 ≤ dy then (if vFirst then h else v) else 0, d0 := if vFirst then h else v, d1 := 0 }
/-- The seams from a site to the nearest site of a destination, around the DARK sites; 273 where there is no way. -/
def seamsTo (dark ts : List Nat) (p : Nat) : Nat := ((rangeFrom 0 273).find? fun n => (joined dark n ts).contains p).getD 273
/-- The entry where sites are DARK at the publication: a face one seam nearer, that of `plainEntry` before another, and a further face for the detour. -/
def darkEntry (dark ts : List Nat) (p : Nat) : Option RouteEnt :=
  let e := plainEntry p ts
  let away (c : Nat) : Nat := ((faceOfCode c).bind (siteNeighbour p)).elim 273 (seamsTo dark ts)
  let live := ([e.p0, e.d0, 2, 4, 1, 3].eraseDups).filter fun c => ts.any (fun t => ((faceOfCode c).bind (siteNeighbour p)) == some t) ||
    ((faceOfCode c).bind (siteNeighbour p)).any fun q => !dark.contains q
  (live.find? fun c => away c < seamsTo dark ts p).map fun c =>
    { p0 := c, p1 := 0, d0 := (live.find? fun g => g != c && away g < 273).getD 0, d1 := 0 }
/-- The model's own entry for a destination index; none where live sites join the site to no site of the destination (R237). -/
def Pub.ownEntry (b : Pub) (p idx : Nat) : Option RouteEnt :=
  let ts := (((targets b.smap idx).map (·.1)).eraseDups).filter fun t => decide (idx < 256) || !b.dark.contains t
  if ts = [] then none
  else if ts.contains p then some { p0 := 0, p1 := 0, d0 := if ts.length < 2 then 0 else if ts.head? = some p then 3 else 1, d1 := 0 }
  else if b.dark = [] then some (plainEntry p ts)
  else darkEntry b.dark ts p

/-- The publication of a count. -/
def State.pub (s : State) (g : Nat) : Pub := { gen := g, smap := s.hlt.smap, dark := tget [] s.fab.pubs g }
/-- The entry that a site's table holds for a destination index (R229, R232): the service die's choice where its set of tables achieves what the rules ask,
else the model's own. -/
def State.tableEntry (s : State) (p idx : Nat) : Option RouteEnt :=
  let b := s.pub (s.site p).routeGen
  if b.good (s.pub (b.gen - 1)) then b.ent p idx else withEdgeFace p idx (b.ownEntry p idx)

end Sys2Proof.Machine
end

