-- ==== Sys2Proof/Machine/Shake.lean ====
section
/-! DEFINITION. SHAKE256 (R7, R203, R452, R498): the Keccak-f[1600] permutation and the sponge of FIPS 202, which the manual names. -/

namespace Sys2Proof.Machine

/-- The 24 round constants of Keccak-f[1600]. -/
def keccakRC : List W64 :=
  [0x0000000000000001, 0x0000000000008082, 0x800000000000808A, 0x8000000080008000, 0x000000000000808B, 0x0000000080000001,
   0x8000000080008081, 0x8000000000008009, 0x000000000000008A, 0x0000000000000088, 0x0000000080008009, 0x000000008000000A] ++
  [0x000000008000808B, 0x800000000000008B, 0x8000000000008089, 0x8000000000008003, 0x8000000000008002, 0x8000000000000080,
   0x000000000000800A, 0x800000008000000A, 0x8000000080008081, 0x8000000000008080, 0x0000000080000001, 0x8000000080008008]

/-- The rotation of lane x + 5y. -/
def keccakRot : List Nat := [0, 1, 62, 28, 27, 36, 44, 6, 55, 20, 3, 10, 43, 25, 39, 41, 45, 15, 21, 8, 18, 2, 61, 56, 14]

def rotl64 (x : W64) (n : Nat) : W64 := (x <<< n) ||| (x >>> (64 - n))

/-- One round on the 25 lanes, lane x + 5y at place x + 5y. -/
def keccakRound (a : List W64) (rc : W64) : List W64 :=
  let g (i : Nat) : W64 := lget 0 a i
  let c := (rangeFrom 0 5).map fun x => g x ^^^ g (x + 5) ^^^ g (x + 10) ^^^ g (x + 15) ^^^ g (x + 20)
  let d := (rangeFrom 0 5).map fun x => lget 0 c ((x + 4) % 5) ^^^ rotl64 (lget 0 c ((x + 1) % 5)) 1
  let th := (rangeFrom 0 25).map fun i => g i ^^^ lget 0 d (i % 5)
  let pi := (rangeFrom 0 25).foldl (fun (m : List W64) i =>
    let x := i % 5
    let y := i / 5
    lset m (y + 5 * ((2 * x + 3 * y) % 5)) (rotl64 (lget 0 th i) (lget 0 keccakRot i))) (List.replicate 25 0)
  let p (i : Nat) : W64 := lget 0 pi i
  let chi := (rangeFrom 0 25).map fun i =>
    let x := i % 5
    let r := i - x
    p i ^^^ (~~~(p (r + (x + 1) % 5)) &&& p (r + (x + 2) % 5))
  lset chi 0 (lget 0 chi 0 ^^^ rc)

def keccakF (a : List W64) : List W64 := keccakRC.foldl keccakRound a

/-- The rate of SHAKE256 in bytes. -/
def shakeRate : Nat := 136

/-- Exclusive-or of a block of at most 136 bytes into the state. -/
def absorbBlock (a : List W64) (bs : List Byte) : List W64 :=
  (rangeFrom 0 25).map fun i => lget 0 a i ^^^ BitVec.ofNat 64 (leWord ((bs.drop (8 * i)).take 8))

/-- Absorbs whole blocks, then the padded last one. -/
def absorb (a : List W64) (bs : List Byte) : Nat → List W64
  | 0 => a
  | fuel + 1 =>
    if bs.length < shakeRate then
      let n := bs.length
      let last : List Byte :=
        if n = shakeRate - 1 then bs ++ [0x9F] else bs ++ [0x1F] ++ List.replicate (shakeRate - n - 2) 0 ++ [0x80]
      keccakF (absorbBlock a last)
    else absorb (keccakF (absorbBlock a (bs.take shakeRate))) (bs.drop shakeRate) fuel

/-- SHAKE256 with 32 bytes of output. -/
def shake256 (bs : List Byte) : List Byte :=
  let a := absorb (List.replicate 25 0) bs (bs.length / shakeRate + 1)
  ((a.take 4).map fun w => leBytes 8 w.toNat).flatten

end Sys2Proof.Machine
end

