-- ==== Sys2Proof/Machine/LoaderOps.lean ====
section
/-! DEFINITION. Trackers of a tile (R226), the image loader (R202 to R206), and a LOAD's report (R313). -/

namespace Sys2Proof.Machine

/-- The lowest free tracker of a tile (R226). -/
def Tile.freeTrk (t : Tile) : Option Nat := (rangeFrom 0 32).find? fun k => (t.trk k).st == .free
/-- Trackers that the image loader holds, and those of them whose response it still awaits (R190, R207, R228). -/
def Tile.loaderTrks (t : Tile) : Nat := (t.trks.filter fun e => e.2.loader && e.2.st != .free).length
def Tile.loaderLive (t : Tile) : Nat := (t.trks.filter fun e => e.2.loader && e.2.st == .live).length

/-- Issues a READ that holds a tracker of the tile (R189, R212, R226). -/
def State.tileRead (s : State) (t k core : Nat) (x : Trk) (a : W64) : State :=
  let (q, s) := s.tileSeq t x.ctx
  let s := s.modTile t fun T => T.setTrk k { x with st := .live, seq := q, since := s.time }
  s.inject (s.tilePlace t) (some (s.tilePhys t)) (s.tilePhys t)
    { opc := .read, last := false, dctr := 0, spart := x.part, epoch := x.epoch, ctx := x.ctx, seq := q, len := x.len, dest := a,
      src := tileAddr s.rick.panel 1 t (core * 32 + k), total := 0, status := 0, hops := 0, payload := [] }

/-- The source of a load: with the site-local option the tile's own site (R204). -/
def loadSrc (t : Nat) (r : LoadReq) : W64 :=
  if r.sitelocal then
    (r.src &&& ~~~(BitVec.ofNat 64 (15 * 2 ^ 51 + 15 * 2 ^ 43)))
      ||| BitVec.ofNat 64 (tileSite t % 16 * 2 ^ 51 + tileSite t / 16 * 2 ^ 43)
  else r.src

/-- Issues the loader's reads in ascending order, at most 16 outstanding (R190, R203). -/
def State.loaderAsk (s : State) (t : Nat) : Nat → State
  | 0 => s
  | fuel + 1 =>
    let T := s.tile t
    match T.ld.cur with
    | none => s
    | some r =>
      if T.ld.asked < r.len ∧ !T.ld.readErr ∧ !T.ld.abort ∧ T.loaderTrks < 16 then
        match T.freeTrk with
        | none => s
        | some k =>
          let a := loadSrc t r + BitVec.ofNat 64 T.ld.asked
          let n := min (r.len - T.ld.asked) (256 - a.toNat % 256)
          let x : Trk := { local_ := T.ld.asked, len := n, loader := true, part := r.part, ctx := r.ctx, epoch := r.epoch }
          let s := s.modTile t fun T => { T with ld := { T.ld with asked := T.ld.asked + n } }
          (s.tileRead t k 0 x a).loaderAsk t fuel
      else s

/-- The loaders of all tiles ask on, as trackers are free again (R190, R203). -/
def State.loadersGo (s : State) : State := (s.tiles.map (·.1)).foldl (fun s t => s.loaderAsk t 17) s
/-- A load begins on a tile (R203, R207). -/
def State.loadBegin (s : State) (t : Nat) (r : LoadReq) : State :=
  (s.modTile t fun T =>
    { T with ld := { T.ld with cur := some r, asked := 0, hashed := 0, ahead := [], image := [], readErr := false, abort := false, status := 1,
                               lastCores := if r.scratch then r.cores else 0, bytes := 0 } }).loaderAsk t 17

/-- The cores that a load writes: in guarded mode the leaders (R202). -/
def loadCores (guarded : Bool) (mask : Nat) : List Nat :=
  (rangeFrom 0 4).filter fun c => mask / 2 ^ c % 2 == 1 && !(guarded && c % 2 == 1)

/-- The bytes that the loader has hashed in address order after a piece arrived: those before the first gap (R203). -/
def hashTo (h : Nat) (ps : List (Nat × Nat)) : Nat → Nat
  | 0 => h
  | fuel + 1 =>
    match ps.find? fun p => p.1 == h && p.2 != 0 with
    | some p => hashTo (h + p.2) ps fuel
    | none => h
def Loader.took (l : Loader) (off : Nat) (bs : List Byte) : Loader :=
  let ps := l.ahead ++ [(off, bs.length)]
  let h := hashTo l.hashed ps ps.length
  { l with hashed := h, ahead := ps.filter fun p => decide (h ≤ p.1), image := memPutList l.image off bs, bytes := BitVec.ofNat 32 h }

/-- Bytes of an image have arrived: written to the destination, and hashed up to the first gap (R202, R203). -/
def State.loadGot (s : State) (t off : Nat) (bs : List Byte) : State :=
  match (s.tile t).ld.cur with
  | none => s
  | some r =>
    let s := s.modTile t fun T => { T with ld := T.ld.took off bs }
    if r.scratch then (loadCores (s.tile t).guarded r.cores).foldl (fun s c => s.landScr t (c * 0x10000 + r.doff + off) bs) s
    else s.landSram t (r.doff + off) bs

/-- Ends a LOAD whose tiles have all reported (R307, R313). -/
def State.loadCheck (s : State) (c : Nat) (n : W32) : State :=
  match s.desc c n with
  | some { prog := .load targets ended skipped loaded fails lost, .. } =>
    if ended < targets then s
    else
      match minKey (lost.map fun t => (t, 0)) with
      | some (t, _) => s.endDesc c n (errEnding 0x0A 0 0 0 (some t))
      | none =>
        match minKey fails with
        | some (t, st) => s.endDesc c n (errEnding 0x05 fails.length st 0 (some t))
        | none => s.endDesc c n (okEnding (skipped * 2 ^ 32 + loaded))
  | _ => s

/-- The LOAD for which a tile's image loader has sent a READ, by the tracker that the READ names (R189, R226). -/
def State.loadOf (s : State) (q : Packet) : Option (Nat × W32) :=
  if aSpace q.src = 1 ∧ aPanel q.src = s.rick.panel then
    let T := s.tile (aTile q.src)
    let x := T.trk (bitsOf q.src 4 0)
    if x.loader && x.st == .live && x.seq == q.seq then T.ld.cur.map fun r => (r.ctx, r.n) else none
  else none

/-- The READs that a host read of a window answers: the READ itself, or those that a slice has joined to its fill (R264). -/
def State.answers (s : State) (pkt : Packet) : Option (Nat × Nat) → List Packet
  | none => [pkt]
  | some (p, line) => (((s.site p).cache.fills.filter fun x => x.line == line).map (·.joined)).flatten
/-- The LOADs whose image a failed host read of a window fetches end with the status that the port met (R317; log entry 14). -/
def State.imageFails (s : State) (pkt : Packet) (fill : Option (Nat × Nat)) (e : Ending) : State :=
  ((s.answers pkt fill).filterMap s.loadOf).foldl (fun s x => s.endDesc x.1 x.2 e) s

/-- What a tile reports to a LOAD: 2 OK, 3 DIGEST, 4 READERR, 5 ABORT as LD_STATUS; 0 skipped, 1 lost. -/
def State.loadReport (s : State) (c : Nat) (n : W32) (t st : Nat) : State :=
  (s.modDesc c n fun x =>
    match x.prog with
    | .load targets ended skipped loaded fails lost =>
      { x with prog := .load targets (ended + 1) (if st = 0 then skipped + 1 else skipped) (if st = 2 then loaded + 1 else loaded)
                  (if 3 ≤ st then fails ++ [(t, st)] else fails) (if st = 1 then lost ++ [t] else lost) }
    | _ => x).loadCheck c n

/-- The status with which the running load ends, where it has ended (R205). -/
def Tile.loadEnds (t : Tile) : Option Nat :=
  match t.ld.cur with
  | none => none
  | some r =>
    if t.ld.abort then some 5
    else if t.ld.readErr then (if t.loaderLive = 0 then some 4 else none)
    else if t.ld.hashed = r.len then (if shake256 (memGetList t.ld.image 0 r.len) = r.digest then some 2 else some 3)
    else none

/-- Where a load has put its bytes after ABORT: free bytes (R205). -/
def State.loadWild (s : State) (t : Nat) (r : LoadReq) : State :=
  let bs := anyBytes s.freeN r.len
  let s := s.spendN r.len
  if r.scratch then (loadCores (s.tile t).guarded r.cores).foldl (fun s c => s.landScr t (c * 0x10000 + r.doff) bs) s else s.landSram t r.doff bs
/-- Ends the running load of a tile with a status: the mark of the named cores (R205) and the report (R313). -/
def State.loadStop (s : State) (t st : Nat) : State :=
  match (s.tile t).ld.cur with
  | none => s
  | some r =>
    let s := if st = 5 then s.loadWild t r else s
    let s := s.modTile t fun T =>
      let cores := if r.scratch then loadCores T.guarded r.cores else []
      let T := cores.foldl (fun T c => T.modCore c fun k => { k with nostart := st != 2 }) T
      { T with ld := { T.ld with cur := none, status := st, image := [], abort := false, readErr := false } }
    s.loadReport r.ctx r.n t st
/-- The load that has waited longest begins (R206). -/
def State.loadNext (s : State) (t : Nat) : State :=
  match (s.tile t).ld.cur, (s.tile t).ld.waiting with
  | none, r :: rest => (s.modTile t fun T => { T with ld := { T.ld with waiting := rest } }).loadBegin t r
  | _, _ => s
/-- Ends the running load of a tile with a status, and begins the next (R205, R206). -/
def State.loadFinish (s : State) (t st : Nat) : State := (s.loadStop t st).loadNext t
/-- A fenced tile's memories are taken from its loads: the running one ends ABORT, waiting ones are skipped (R205; log entry 88). -/
def State.loadsEnd (s : State) (t : Nat) : State :=
  let s := s.loadStop t 5
  let ws := (s.tile t).ld.waiting
  let s := s.modTile t fun T => { T with ld := { T.ld with waiting := [] } }
  ws.foldl (fun s r => s.loadReport r.ctx r.n t 0) s

end Sys2Proof.Machine
end

