-- ==== Sys2Proof/Machine/SiteOps.lean ====
section
/-! DEFINITION. What resets, switch-offs and losses do to tiles and sites (R28, R239, R258, R269, R319, R338, R366, R378, R397, R477), and writes that arrive from the
host with or without a session (R503). -/

namespace Sys2Proof.Machine

/-! ### Host writes (R287, R437, R503) -/

/-- A host write through a port reaches the panel's registers: the port's link is trained and the panel is ready (R287, R437). -/
def State.reach (s : State) (port : Nat) : Bool :=
  decide (port < 4) && (s.port port).link && !(s.port port).cutLink && !(s.port port).cutFlr && !(s.port port).d3hot && s.isReady
/-- An open session is bound to the port (R503). -/
def State.hasSession (s : State) (port : Nat) : Bool :=
  (rangeFrom 0 4).any fun e => match tget none s.ses.ents e with
    | some x => x.port == port && decide (s.time < x.opened + x.minutes * 60 * sec)
    | none => false
/-- A gated write without a session: counted, and the first in each second raises SES_DENIED (R503). -/
def State.denied (s : State) (port off : Nat) : State :=
  let first := s.ses.deniedSec != some s.second
  let s := s.modSes fun x => { x with denied := x.denied + 1, deniedSec := some s.second }
  if first then s.raisePanel 0x0604 port off else s
/-- A write gated on a session (R503), to a register of all ports. -/
def gated (s : State) (port off : Nat) (k : Out) : Out :=
  if !s.reach port then ok s else if s.hasSession port then k else ok (s.denied port off)
/-- A gated write to a block that only port 0 has (R520). -/
def gated0 (s : State) (port off : Nat) (k : Out) : Out := if port = 0 then gated s port off k else ok s

/-- A write to HLT_CMD (R475, R491, R520): on port 0, with a session, a service die and no command running; `v` is the word written. -/
def hltGate (s : State) (port : Nat) (v : Option W32) (k : State → Out) : Out :=
  let refuse (s : State) (c : Nat) : State := s.modHlt fun h => { h with err := true, ecode := c }
  if port ≠ 0 ∨ s.reach port = false then ok s
  else if !s.hasSession port then ok (refuse (s.denied port 0x30010) 1)
  else
    let s := match v with
      | some w => s.modHlt fun h => { h with target := bitsOf w 14 0 }
      | none => s
    if !s.svRuns then ok (refuse s 7)
    else if s.hlt.busy then ok (refuse s 2)
    else k (s.modHlt fun h => { h with err := false, ecode := 0 })

/-! ### Compute reset of a tile (R78, R207, R477) -/

/-- A core after compute reset: IDLE with its registers at reset. -/
def Core.fresh : Core := {}
/-- The cores of a tile after a reset; an event that one has handed to the event path stays there (R184; log entry 52). -/
def Tile.coresReset (t : Tile) : Tbl Core := tmap {} (fun k => { Core.fresh with evt := k.evt }) t.cores

/-- Corrections counted for R471: SRAM_CORR, SCR_CORR and ENG_CORRECTED. -/
def Tile.corrections (t : Tile) : Nat := t.sramCorr.toNat + t.scrCorr.toNat + t.eng.corrected.toNat
/-- The base of the hour's corrections once the counts are 0: what was counted in the hour still counts (R471). -/
def Tile.corrLeft (t : Tile) : Nat := (t.corrBase + 3 * 2 ^ 32 - t.corrections) % 2 ^ 32

/-- A tile after compute reset; its memories, its recorded error offset, its state, mode and health stay (R258, R259, R477). -/
def Tile.computeReset (t : Tile) : Tile :=
  { ({} : Tile) with
    st := t.st, guarded := t.guarded, cores := t.coresReset, sram := t.sram, scr := t.scr, scrCopy := t.scrCopy, badSram := t.badSram, badScr := t.badScr, flips := t.flips, rotor := t.rotor,
    seqs := t.seqs, errAddr := t.errAddr, errSeen := t.errSeen, scrubAt := t.scrubAt, resetting := t.resetting, score := t.score, cand := t.cand,
    retest := t.retest, defer_ := t.defer_, lastCause := t.lastCause, candBy := t.candBy, retestOf := t.retestOf, quietSince := t.quietSince,
    corrBase := t.corrLeft, sliceAt := t.sliceAt, due := t.due, deferAt := t.deferAt, detCell := t.detCell, detStep := t.detStep, ld := { ({} : Loader) with cur := t.ld.cur, waiting := t.ld.waiting } }

/-- A tile whose dies are switched off: what a compute reset leaves, without its memories (R28, R258). -/
def Tile.powerOff (t : Tile) : Tile :=
  { t.computeReset with cores := [], sram := [], scr := [], scrCopy := [], badSram := [], badScr := [], flips := [], scrubAt := 0, ld := {} }

/-- Ends a tile's loads in progress or waiting by reporting them lost (R205, R313). -/
def State.loadsLost (s : State) (t : Nat) : State :=
  let l := (s.tile t).ld
  let rs := (match l.cur with
    | some r => [r]
    | none => []) ++ l.waiting
  let s := s.modTile t fun T => { T with ld := { T.ld with cur := none, waiting := [] } }
  rs.foldl (fun s r => s.loadReport r.ctx r.n t 1) s

/-- The compute reset of one tile; a load in progress ends ABORT and reports it, and a waiting one begins after the reset (R205, R206, R477). -/
def State.tileReset (s : State) (t : Nat) : State := (s.modTile t Tile.computeReset).loadStop t 5

/-- The tiles that a physical site serves. -/
def State.tilesOf (s : State) (p : Nat) : List Nat :=
  match s.logical p with
  | some S => siteTiles S
  | none => []

/-- The tile row of a site that a REMAP in progress stops (R21). -/
def State.remapRow (s : State) (p : Nat) : Option Nat :=
  match s.hlt.run with
  | some (1, t) => if s.tilePhys t = p then some (tileTR t) else none
  | _ => none
/-- An ACTIVE site is HELD for the row of a REMAP in progress (R21, R28); one that a step stop or banking holds when the command comes is HELD when that
ends, and one that waits for a raise's voltage when that change ends (R372). -/
def State.remapHold (s : State) (p : Nat) : State :=
  match s.remapRow p with
  | some r =>
    if (s.site p).st = .active ∧ (s.site p).clk.ph = .none then s.modSite p fun x => { x with st := .held, heldRow := some r, clk := { x.clk with stopAt := s.time } } else s
  | none => s

/-- A running step change is abandoned (R372). -/
def SiteClk.abandon (k : SiteClk) : SiteClk := { k with ph := .none, nextReq := none, returning := false }

/-- A site enters RESET by a compute reset of all its tiles (R28, R477); contexts with programs on it fault (R319). -/
def State.siteReset (s : State) (p : Nat) : State :=
  let ts := s.tilesOf p
  let s := ts.foldl State.noteLost s
  let s := ts.foldl State.tileReset s
  let s := ts.foldl State.loadsLost s
  s.modSite p fun x => { x with st := .reset, heldRow := none, resetting := true, clk := x.clk.abandon }

/-! ### Setpoints (R387 to R389) -/

/-- VC and VS of a site at a step (R387): the trim of the step is added, and the stage never leaves its limits. -/
def Site.vcAt (x : Site) (k : Nat) : Nat := min (600 + 10 * k + tget 0 x.mrg.trims k) 850
def Site.vsAt (x : Site) : Nat := min (max x.mrg.vsSet 700) 800
/-- New setpoints slew at 10 mV per µs and report settled 2 µs after (R388). -/
def State.setRails (s : State) (p vc vs : Nat) : State :=
  s.modSite p fun x =>
    let far (a b : Nat) : Nat := a - b + (b - a)
    let d := max (far vc x.pwr.vc) (far vs x.pwr.vs)
    if d = 0 then x else { x with pwr := { x.pwr with vc, vs, settled := false, settleAt := max x.pwr.settleAt (s.time + d * 100 + 2 * us) } }

/-! ### Banking (R380, R389) -/

/-- Something banks the site. -/
def SiteClk.wantsBank (k : SiteClk) : Bool := k.bankDrv || k.bankHeat || k.bankPath || k.bankSweep || k.bankSpare
/-- An ACTIVE site that something banks enters BANKED at its retention voltages, once no stop runs (R372, R380, R389); parked packets stay parked. One that returns goes back
to them. A raise that waits for its voltage goes on first, but where the step is held: there it cannot, and is abandoned (R376). -/
def State.bankNow (s : State) (p : Nat) : State :=
  let x := s.site p
  if x.clk.wantsBank = false then s
  else if x.st = .banked ∧ x.clk.returning = true then (s.modSite p fun x => { x with clk := { x.clk with returning := false } }).setRails p 550 650
  else if x.st = .active ∧ (x.clk.ph = .none ∨ (x.clk.ph = .volt ∧ x.clk.hold = true)) then
    (s.modSite p fun x => { x with st := .banked, clk := { x.clk with ph := .none } }).setRails p 550 650
  else s
/-! ### The oscillator mesh (R366, R375, R378) -/

def faceBit (f : Face) : BitVec 4 := BitVec.ofNat 4 (2 ^ faceIdx f)
/-- The corner nodes sit at the sites of SV-A and SV-B (R12, R364). -/
def isCorner (p : Nat) : Bool := p == 0 || p == 16 * 16 + 15
/-- A node without coupled neighbours that is no corner node free-runs and holds its step (R366, R375). -/
def Site.alone (x : Site) (p : Nat) : Site :=
  if x.st ≠ .dark ∧ x.clk.decoupled = false ∧ x.clk.coupled = 0 ∧ !isCorner p then { x with clk := { x.clk with freeRun := true, hold := true, lossHold := true } }
  else x
/-- A node of the mesh: powered, coupling, and not free-running (R366, R378). -/
def Site.inMesh (x : Site) : Bool := x.st != .dark && !x.clk.decoupled && !x.clk.freeRun
/-- The coupled neighbours of a node that leaves the mesh drop it (R366, R378). One that has no neighbour left free-runs, with its CLK_DECOUPLED event (R375), and is
dropped in turn by the neighbours that still count it. -/
def State.dropNode : Nat → Nat → State → State
  | 0, _, s => s
  | n + 1, p, s =>
    allFaces.foldl (fun s f =>
      match siteNeighbour p f with
      | none => s
      | some q =>
        let x := s.site q
        let s := s.modSite q fun x => ({ x with clk := { x.clk with coupled := x.clk.coupled &&& ~~~faceBit (faceOpp f) } } : Site).alone q
        if (s.site q).clk.freeRun = true ∧ x.clk.freeRun = false then
          State.dropNode n q ((s.bankNow q).raiseSite 0x0402 q (s.siteSource q) x.clk.coupled.toNat)
        else s) s
/-- Every node free-runs at most once, so the 272 sites bound the chain. -/
def State.nodeDropped (s : State) (p : Nat) : State := State.dropNode 272 p s
/-- Holding ends: the thermal draught becomes 16 and the thermal limit is lowered by 16 − k steps instead (R428). -/
def SiteClk.unhold (k : SiteClk) : SiteClk :=
  if k.hold then { k with hold := false, lossHold := false, thmLim := k.thmLim - (16 - k.thmK), thmK := 16 } else k
/-- The same of a site, with the lowering of its thermal limit counted as one reduction (R434; log entry 105). -/
def Site.unheld (x : Site) : Site :=
  let k := x.clk.unhold
  { x with clk := k, thm := { x.thm with throttles := if k.thmLim < x.clk.thmLim then satAdd16 x.thm.throttles 1 else x.thm.throttles },
           ctl := { x.ctl with msDr := x.ctl.msDr || (x.clk.hold && decide (x.clk.thmK < 16)) } }
/-- A base die that gets or loses VB is seen so by its powered neighbours, and sees them (SC_NODE.PRESENT, R381). -/
def State.nodeSeen (s : State) (p : Nat) (up : Bool) : State :=
  allFaces.foldl (fun s f =>
    match siteNeighbour p f with
    | none => s
    | some q =>
      let put (b : BitVec 4) (g : Face) (on : Bool) : BitVec 4 := if on then b ||| faceBit g else b &&& ~~~faceBit g
      let there := up && (s.site q).st != .dark
      let s := s.modSite q fun x => { x with clk := { x.clk with present := put x.clk.present (faceOpp f) up } }
      s.modSite p fun x => { x with clk := { x.clk with present := put x.clk.present f there } }) s
/-- A site's node leaves the mesh: its neighbours drop it, and with its base die unpowered they no longer see it (R366, R378). -/
def State.nodeLeave (s : State) (p : Nat) (powered : Bool) : State :=
  let s := s.nodeDropped p
  let s := s.modSite p fun x => { x.unheld with clk := { x.clk.unhold with coupled := 0, decoupled := true, freeRun := false } }
  if powered then s else s.nodeSeen p false
/-- A site's node couples with every neighbour of the mesh, in both directions (R366, R379). -/
def State.nodeJoin (s : State) (p : Nat) : State :=
  let s := s.modSite p fun x => { x with clk := { x.clk with decoupled := false, freeRun := false, lossHold := false } }
  allFaces.foldl (fun s f =>
    match siteNeighbour p f with
    | none => s
    | some q =>
      if (s.site q).inMesh then
        let s := s.modSite q fun x => { x with clk := { x.clk with coupled := x.clk.coupled ||| faceBit (faceOpp f) } }
        s.modSite p fun x => { x with clk := { x.clk with coupled := x.clk.coupled ||| faceBit f } }
      else s) s

/-! ### Unsettled units -/

/-- Marks a unit unsettled, and settles it (R465); units are pairs of a kind (1 tile, 2 site, 3 link, 4 service die) and a number. -/
def State.unsettle (s : State) (k n : Nat) : State :=
  if s.hlt.unsettled.contains (k, n) then s else s.modHlt fun h => { h with unsettled := h.unsettled ++ [(k, n)] }
def State.settle (s : State) (k n : Nat) : State := s.modHlt fun h => { h with unsettled := h.unsettled.filter fun u => u != (k, n) }

/-! ### Switch-off and darkness -/

/-- A site's compute and SRAM dies are switched off (R28, R258, R319): OFF unless it is DARK. -/
def State.siteOff (s : State) (p : Nat) : State :=
  let ts := s.tilesOf p
  let s := ts.foldl State.noteLost s
  let s := ts.foldl State.loadsLost s
  let s := ts.foldl (fun s t => s.modTile t Tile.powerOff) s
  s.modSite p fun x =>
    { x with st := if x.st = .dark then .dark else .off, resetting := false, heldRow := none, clk := { x.clk.abandon with cur := 0, bankHeat := false, bankSweep := false },
             pwr := { x.pwr with sw := if x.pwr.sw = .isolated then .isolated else .off, soft := .none, vc := 0, vs := 0, settled := true } }

/-- What a DARK site keeps of its base die's state: nothing of slice, counts, tables and node (R239, R269, R378, R527). -/
def State.siteDark (s : State) (p : Nat) : State :=
  let s := s.siteOff p
  let s := s.modFab fun f => { f with flights := f.flights.filter fun x =>
    match x.place with
    | .router q _ _ => q != p
    | .dest q => q != p
    | .parked q => q != p
    | .edge _ => true }
  let s := s.modSite p fun x =>
    { x with st := .dark, cache := {}, cnt := {}, routeGen := 0, badRoutes := [], scrubEn := true,
             pwr := { x.pwr with vb := 0, vc := 0, vs := 0, rejoining := false, rejoinDue := false, telDips := 0, telDepth := 0, telNs := 0 } }
  s.nodeLeave p false

/-- A site goes DARK with its SITE_DARK event (R239) and is settled (R465); at one that is DARK already a soft start ends. -/
def State.darken (s : State) (p : Nat) : State :=
  if (s.site p).st = .dark then
    s.modSite p fun x => { x with pwr := { x.pwr with soft := .none, rejoining := false, sw := if x.pwr.sw = .isolated then .isolated else .off } }
  else ((s.siteDark p).settle 2 p).raiseSite 0x0206 p (s.siteSource p) 0

/-! ### The single-fault promise (R464, R465) -/

/-- Cadence codes in ms (R491). -/
def cadenceMs (c : Nat) : Nat := if c = 0 then 5 else if c = 1 then 10 else if c = 2 then 20 else if c = 4 then 80 else if c = 5 then 160 else 40

/-- Sites of DEFINED partitions. -/
def State.definedSites (s : State) : List Nat :=
  (s.sites.filter fun e => match e.2.part with
    | some q => (s.partn q).st == .defined
    | none => false).map (·.1)

/-- Patrol scrub is on (R281, R453). -/
def State.patrolOn (s : State) : Bool := s.patrolCode != 0

/-- HLT_PROMISE bits [4:0]: GUARDED, CADENCE, SCRUB, LIMITS, SINGLE (R464, R491). -/
def State.promiseBits (s : State) : BitVec 5 :=
  let ds := s.definedSites
  let guarded := ds.all fun p => (s.tilesOf p).all fun t => (s.tile t).guarded
  let cad := decide (cadenceMs s.hlt.cadence ≤ 40 ∧ cadenceMs s.hlt.suscad ≤ cadenceMs s.hlt.cadence)
  let scrub := (ds.all fun p => (s.site p).scrubEn) && (s.chans.all fun e => e.2.st != 2 || s.patrolOn)
  let limits := decide (44000 ≤ s.pwr.vin ∧ s.pwr.vin ≤ 56000) && !s.clk.holdover &&
    s.sites.all fun e => e.2.st != .active || match e.2.mrg.lastSweep with
      | some t => decide (s.time ≤ t + 48 * hour)
      | none => decide (s.time ≤ s.spi.t0 + 48 * hour)
  let single := decide (s.hlt.unsettled.length ≤ 1)
  BitVec.ofNat 5 (b2n guarded + 2 * b2n cad + 4 * b2n scrub + 8 * b2n limits + 16 * b2n single)

/-- Reports a change of HOLDS (R464, R494). -/
def State.promise (s : State) : State :=
  let b := s.promiseBits
  let was := s.hlt.promise
  let holds := b == 0x1F
  if b = was ∧ holds = s.hlt.holds then s
  else
    let lapsed := was &&& ~~~b
    let s' := s.modHlt fun h => { h with promise := b, holds := holds }
    if s.hlt.holds && !holds then s'.raisePanel 0x0514 lapsed.toNat 0
    else if !s.hlt.holds && holds then s'.raisePanel 0x0515 0 0
    else s'

end Sys2Proof.Machine
end

