-- ==== Sys2Proof/Machine/Fabric.lean ====
section
/-! DEFINITION. The tile mesh's commands: packets arriving at tiles, sites and edge dies, router hops, links, trackers, republish, base-die faults (chapter The
Tile Mesh), and list ports. -/

namespace Sys2Proof.Machine

/-! ### Arrival of WRITE, CNT and responses at tiles (R217, R222, R225, R226) -/

/-- A write covers LST_CTRL of a list port with EN = 1 (R161, R162). -/
def armsList (off : Nat) (bs : List Byte) : Bool :=
  (rangeFrom 0 4).any fun p =>
    let a := 0x110610 + 0x40 * p
    decide (off ≤ a ∧ a + 4 ≤ off + bs.length) && (lget (0 : Byte) bs (a + 3 - off)).getLsbD 7

/-- A WRITE to a tile's space 1 by what it reaches: 0 plain, 1 append window, 2 close window, 3 LST_CTRL with EN = 1. -/
def writeKind (guarded : Bool) (p : Packet) : Nat :=
  if aSpace p.dest = 1 then
    match windowOf guarded (aOff p.dest) p.payload.length with
    | .append _ => 1
    | .close _ => 2
    | .regs => if armsList (aOff p.dest) p.payload then 3 else 0
    | _ => 0
  else 0

/-- The effect of a delivered WRITE to a tile: its bytes, then its counter (R217). -/
def State.writeTile (s : State) (i : Nat) (f : Flight) (t : Nat) : State :=
  let p := f.pkt
  let a := aOff p.dest
  let land_ (s : State) : State := s.modTile t fun T => T.land_ p.dctr p.last p.total
  if aSpace p.dest = 0 then
    if a + p.payload.length ≤ sramSize then land_ ((s.dropFlight i).landSram t a p.payload) else s.tileBad i f t
  else
    match windowOf (s.tile t).guarded a p.payload.length with
    | .none => s.tileBad i f t
    | .append _ => (s.dropFlight i).ctlWrite t a p.payload
    | .close _ => (s.dropFlight i).ctlWrite t a p.payload
    | _ => land_ ((s.dropFlight i).ctlWrite t a p.payload)

/-- A WRITE of a kind at its destination tile. -/
def writeAt (i kind : Nat) (s : State) : Out :=
  onFlight s i fun f =>
    match f.goal with
    | .tile t =>
      if f.pkt.opc = .write ∧ writeKind (s.tile t).guarded f.pkt = kind then atTile s i f t fun s => ok (s.writeTile i f t) else ok s
    | _ => ok s

/-- WRITE: bytes, then VALUE of DCTR + 1, and TARGET with LAST (R217, R222, R225, R28, R31, R35). -/
def execWrite (i : Nat) (s : State) : Out := writeAt i 0 s
/-- LIST_APPEND: entries of a write to an append window (R158, R160, R161). -/
def execListAppend (i : Nat) (s : State) : Out := writeAt i 1 s
/-- LIST_CLOSE: a write to a close window (R159 to R161). -/
def execListClose (i : Nat) (s : State) : Out := writeAt i 2 s
/-- LIST_ARM: a write of LST_CTRL with EN = 1 (R161, R162). -/
def execListArm (i : Nat) (s : State) : Out := writeAt i 3 s

/-- CNT: VALUE of DCTR + 1, and TARGET with LAST (R217). A CNT outside space 1 is out of range (R35). -/
def execCnt (i : Nat) (s : State) : Out :=
  onFlight s i fun f =>
    match f.goal with
    | .tile t =>
      if f.pkt.opc = .cnt then
        atTile s i f t fun s =>
          if aSpace f.pkt.dest = 1 then ok ((s.dropFlight i).modTile t fun T => T.land_ f.pkt.dctr f.pkt.last f.pkt.total)
          else ok (s.tileBad i f t)
      else ok s
    | _ => ok s

/-! ### READ (R217, R247, R254, R255, R272, R275 to R280, R283, R325) -/

/-- The merge buffer takes the line of an array read, in place of the entry held longest (R247). -/
def mergeTake (m : List Nat) (line : Nat) : List Nat :=
  let m := m.filter (· != line)
  (if 8 ≤ m.length then m.drop 1 else m) ++ [line]

/-- A READ served by a tile. -/
def State.readTile (s : State) (i : Nat) (f : Flight) (t : Nat) (joins : Bool) : State :=
  let p := f.pkt
  let a := aOff p.dest
  let T := s.tile t
  let at_ := s.tilePlace t
  if aSpace p.dest = 0 then
    if sramSize < a + p.len then s.tileBad i f t
    else
      let s := s.dropFlight i
      let line := a / 256
      let join := joins && T.merge.contains line
      let s := s.modTile t fun T =>
        { (if join then T else T.meetSram a p.len) with
                 fabServed := T.fabServed + 1, fabMerged := if join then T.fabMerged + 1 else T.fabMerged,
                 merge := if join then T.merge else mergeTake T.merge line }
      match allBad T.badSram a p.len with
      | [] => s.respond f at_ .rdata 0 (memGetList T.sram a p.len)
      | ws => (s.sramUes t ws).respond f at_ .rerr stUncorr []
  else
    match windowOf T.guarded a p.len with
    | .none => s.tileBad i f t
    | .scratch =>
      let s := s.modTile t fun T => T.meetScr a p.len
      match allBad T.badScr a p.len with
      | [] => (s.dropFlight i).respond f at_ .rdata 0 (memGetList T.scr a p.len)
      | ws => ((s.dropFlight i).sramUes t ws).respond f at_ .rerr stUncorr []
    | _ => (s.dropFlight i).respond f at_ .rdata 0 (ctlRead t T a p.len)

/-- The checks of a request at a site's control port (R222, R225); the base die serves it in every site state but DARK (R10). -/
def atControl (s : State) (i : Nat) (f : Flight) (S : Nat) (k : Nat → State → Out) : Out :=
  let p := s.phys S
  if !f.arrived p then ok s
  else if (s.site p).part ≠ some f.pkt.spart then ok ((s.dropFlight i).partDropAt p)
  else
    let s := s.tell p f.pkt.ctx
    if s.staleCtx p f.pkt.ctx f.pkt.epoch then ok ((s.dropFlight i).staleAt p) else k p s

/-- The checks of a request at an edge die: its epoch (R222); a fill carries none. -/
def atEdge (s : State) (i : Nat) (f : Flight) (e : Nat) (k : State → Out) : Out :=
  if f.place ≠ .edge e ∨ aPanel f.pkt.dest ≠ s.rick.panel then ok s
  else if f.fill.isSome then k s
  else
    let s := s.tell (edgeEp e) f.pkt.ctx
    if s.staleCtx (edgeEp e) f.pkt.ctx f.pkt.epoch then ok ((s.dropFlight i).edgeStale e) else k s

/-- What an edge die makes of an address (R225, R275, R276, R283, R325). -/
inductive EdgeHit where
  | ddr (ch ca : Nat)
  | mec
  | window (w : Nat)
  | notOwned
  | bad
deriving DecidableEq, Repr, Inhabited
def State.edgeHit (s : State) (e : Nat) (p : Packet) : EdgeHit :=
  match aSpace p.dest with
  | 3 =>
    match s.regionOf (aDdr p.dest) with
    | none => .bad
    | some q =>
      if q ≠ p.spart then .notOwned
      else
        let m := (s.partn q).ddr.cur.map (aDdr p.dest)
        if chanEdge m.1 = e then .ddr m.1 m.2 else .bad
  | 4 =>
    let w := s.win (aWin p.dest)
    if w.en ∧ w.part ≠ p.spart then .notOwned
    else if w.allows p.ctx (aWinOff p.dest) ∧ portEdge w.port = e then .window (aWin p.dest)
    else .bad
  | 5 =>
    if aEdge p.dest ≠ e ∨ 0x400 ≤ aEdgeOff p.dest ∨ e < 0x08 ∨ 0x10 ≤ e then .bad
    else if (s.partn p.spart).ddr.cur.size ≠ 0 ∧ (s.partn p.spart).ddr.cur.mask.getLsbD ((e - 8) * 4 + aEdgeOff p.dest / 0x100) = true then .mec
    else .notOwned
  | _ => .bad
/-- A fill names its line by address alone; a window restricted to one context serves the slice that already checked it. -/
def State.fillHit (s : State) (e : Nat) (p : Packet) : EdgeHit :=
  if aSpace p.dest = 4 then
    let w := s.win (aWin p.dest)
    if w.part ≠ p.spart then .notOwned
    else if w.en ∧ aWinOff p.dest < w.pages * 4096 ∧ portEdge w.port = e then .window (aWin p.dest) else .bad
  else s.edgeHit e p

/-- A READ served by an edge die. -/
def State.readEdge (s : State) (i : Nat) (f : Flight) (e : Nat) : State :=
  let p := f.pkt
  let err (s : State) (st : Nat) : State := (s.dropFlight i).respond f (.edge e) .rerr st []
  match if f.fill.isSome then s.fillHit e p else s.edgeHit e p with
  | .bad => err s stBadAddress
  | .notOwned => (s.dropFlight i).partDropAt (edgeSite e)
  | .mec =>
    match s.mecBytes e (aEdgeOff p.dest) p.len with
    | some bs => (s.dropFlight i).respond f (.edge e) .rdata 0 bs
    | none => err s stBadAddress
  | .ddr ch ca =>
    match (s.chan ch).status ca p.len with
    | some st => err s st
    | none =>
      let s := s.meetDdr ch fun b => decide (p.len ≠ 0 ∧ ca / 64 ≤ b ∧ b ≤ (ca + p.len - 1) / 64)
      match (s.chan ch).badBursts ca p.len with
      | b :: bs => err ((b :: bs).foldl (fun s b => s.ddrUe ch b) s) stUncorr
      | [] => (s.dropFlight i).respond f (.edge e) .rdata 0 (memGetList (s.chan ch).dram ca p.len)
  | .window w =>
    let W := s.win w
    if (s.port W.port).mute then err (s.imageFails p f.fill (errEnding 3 0 0x11 0 none)) stHostErr
    else (s.dropFlight i).issueRead W.port (W.base + aWinOff p.dest) p.len (.tileRead p f.fill)

/-- READ at its owner: one RDATA or one RERR (R217). -/
def execRead (i : Nat) (joins : Bool) (s : State) : Out :=
  onFlight s i fun f =>
    if f.pkt.opc ≠ .read then ok s
    else
      match f.goal with
      | .tile t => atTile s i f t fun s => ok (s.readTile i f t joins)
      | .control S =>
        atControl s i f S fun p s =>
          let s' := s.dropFlight i
          match s.siteBytes p (aOff f.pkt.dest) f.pkt.len with
          | some bs => ok (s'.respond f (.router p 0 0) .rdata 0 bs)
          | none => ok (s'.respond f (.router p 0 0) .rerr stBadAddress [])
      | .edge e => atEdge s i f e fun s => ok (s.readEdge i f e)
      | _ => ok s

/-! ### WRITE_TO_OWNER (R217, R265, R270, R272, R275, R278, R283, R325) -/

/-- A WRITE served by a site's control port: maintenance commands queue, SC_CCTRL takes its bit, other registers are read-only (R270 to R272). -/
def State.writeControl (s : State) (i : Nat) (f : Flight) (p : Nat) : State :=
  let a := aOff f.pkt.dest
  let n := f.pkt.payload.length
  let bad (s : State) : State := ((s.dropFlight i).dropAt p).respond f (.router p 0 0) .wack stBadAddress []
  if a = 0x100 ∧ n = 16 then
    if (s.site p).cache.mq.length < 8 then
      (s.dropFlight i).modSite p fun x => { x with cache := { x.cache with mq := x.cache.mq ++ [f.pkt] } }
    else s
  else
    match s.siteBytes p a n with
    | none => bad s
    | some _ =>
      let s := s.dropFlight i
      let s := if a ≤ 0x110 ∧ 0x110 < a + n then
          s.modSite p fun x => { x with scrubEn := (lget (0 : Byte) f.pkt.payload (0x110 - a)).getLsbD 0 }
        else s
      (s.promise).respond f (.router p 0 0) .wack 0 []

/-- A WRITE served by an edge die. -/
def State.writeEdge (s : State) (i : Nat) (f : Flight) (e : Nat) : State :=
  let p := f.pkt
  let n := p.payload.length
  let ack (s : State) (st : Nat) : State := (s.dropFlight i).respond f (.edge e) .wack st []
  match s.edgeHit e p with
  | .bad => ack s stBadAddress
  | .notOwned => (s.dropFlight i).partDropAt (edgeSite e)
  | .mec => if (s.mecBytes e (aEdgeOff p.dest) n).isSome then ack s 0 else ack s stBadAddress
  | .ddr ch ca =>
    match (s.chan ch).status ca n with
    | some st => ack (if (s.chan ch).failed then s.modChan ch fun c => { c with drop := satAdd c.drop 1 } else s) st
    | none =>
      let s := s.meetDdr ch fun b => decide (n ≠ 0 ∧ ca / 64 ≤ b ∧ b ≤ (ca + n - 1) / 64) && !decide (ca ≤ b * 64 ∧ b * 64 + 64 ≤ ca + n)
      let bad := (s.chan ch).partBad ca n
      let s := s.modChan ch fun c => c.write ca p.payload
      match bad with
      | [] => ack s 0
      | _ => ack (bad.foldl (fun s b => s.ddrUe ch b) s) stUncorr
  | .window w =>
    let W := s.win w
    if (s.port W.port).mute then ack s stHostErr
    else
      let s := s.hostWrite W.port (W.base + aWinOff p.dest) p.payload (s.ctx p.ctx).cfg.roEn
      let s := s.modCtx p.ctx fun x => if x.ports4.contains W.port then x else { x with ports4 := x.ports4 ++ [W.port] }
      ack s 0

/-- WRITE_TO_OWNER: a WRITE to space 2 to 5 at its owner, which answers one WACK (R217). -/
def execWriteToOwner (i : Nat) (s : State) : Out :=
  onFlight s i fun f =>
    if f.pkt.opc ≠ .write then ok s
    else
      match f.goal with
      | .control S => atControl s i f S fun p s => ok (s.writeControl i f p)
      | .edge e => atEdge s i f e fun s => ok (s.writeEdge i f e)
      | _ => ok s

/-! ### Responses (R189, R203, R217, R223, R226, R323) -/

/-- A response at its tile: parked, or fenced off, or taken by `k`. -/
def respAtTile (s : State) (i : Nat) (f : Flight) (t : Nat) (k : State → Out) : Out :=
  if !f.arrived (s.tilePhys t) then ok s
  else if s.parksTile t then ok (s.park i f (s.tilePhys t))
  else if (s.tileSt t).part ≠ some f.pkt.spart then ok ((s.dropFlight i).partDropAt (s.tilePhys t))
  else k (s.dropFlight i)

/-- Bytes that land at a local address of a tile (R178). -/
def State.landLocal (s : State) (t a : Nat) (bs : List Byte) : State :=
  if 0x1000000 ≤ a then s.landSram t (a - 0x1000000) bs else s.landScr t a bs

/-- RDATA at the requesting tile: bytes to the tracker's range, then its counter; a late one only frees its tracker (R217, R226, R228). -/
def State.rdataTile (s : State) (t : Nat) (p : Packet) : State :=
  match (s.tile t).match_ p with
  | none => s.lateResponse t p
  | some k =>
    let x := (s.tile t).trk k
    let s := s.modTile t fun T => T.setTrk k {}
    let s := if x.st = .ended then s.lateResponse t p
      else if x.loader then s.loadGot t x.local_ p.payload
      else (s.landLocal t x.local_ p.payload).bump t x.ctr 1
    s.loaderAsk t 17

/-- RDATA (R217, R323). -/
def execRdata (i : Nat) (s : State) : Out :=
  onFlight s i fun f =>
    if f.pkt.opc ≠ .rdata then ok s
    else
      match f.goal with
      | .tile t => respAtTile s i f t fun s => ok (s.rdataTile t f.pkt)
      | .edge e => if f.place = .edge e ∧ aPanel f.pkt.dest = s.rick.panel then ok ((s.dropFlight i).edgeResponse e f.pkt) else ok s
      | _ => ok s

/-- RERR: the tracker's counter gains 1 and its core's xtgerr the status (R189, R217). -/
def execRerr (i : Nat) (s : State) : Out :=
  onFlight s i fun f =>
    if f.pkt.opc ≠ .rerr then ok s
    else
      match f.goal with
      | .tile t =>
        respAtTile s i f t fun s =>
          match (s.tile t).match_ f.pkt with
          | none => ok (s.lateResponse t f.pkt)
          | some k =>
            if ((s.tile t).trk k).st = .ended then ok (((s.modTile t fun T => T.setTrk k {}).lateResponse t f.pkt).loaderAsk t 17)
            else ok ((s.modTile t fun T => (T.trkError k f.pkt.status.toNat).setTrk k {}).loaderAsk t 17)
      | .edge e => if f.place = .edge e ∧ aPanel f.pkt.dest = s.rick.panel then ok ((s.dropFlight i).edgeResponse e f.pkt) else ok s
      | _ => ok s

/-- WACK: the source tile's counter DCTR, and its core's xtgerr where the status is not OK (R217, R223); at a PCIe edge die, its COPY (R311) or the debug
block (R532). -/
def execWack (i : Nat) (s : State) : Out :=
  onFlight s i fun f =>
    let p := f.pkt
    if p.opc ≠ .wack then ok s
    else
      match f.goal with
      | .tile t =>
        respAtTile s i f t fun s =>
          let s := s.tell (s.tilePhys t) p.ctx
          if s.staleCtx (s.tilePhys t) p.ctx p.epoch then ok (s.modTile t fun T => { T with fabStale := T.fabStale + 1 })
          else
            ok (s.modTile t fun T =>
              let T := T.land_ p.dctr p.last p.total
              if p.status = 0 then T else coreGerr T (bitsOf p.dest 6 5) p.status.toNat)
      | .edge e =>
        if f.place = .edge e ∧ aPanel p.dest = s.rick.panel then
          let s := s.dropFlight i
          let tag := bitsOf p.dest 15 0
          if tag = 0xFFFF then ok (s.modDbg fun d => { d with busy := false, status := p.status })
          else
            let s := s.tell (edgeEp e) p.ctx
            if s.staleCtx (edgeEp e) p.ctx p.epoch then ok (s.edgeStale e) else ok (s.copyWack (tag - 0x8000) p.seq p.status.toNat)
        else ok s
      | _ => ok s

/-! ### Router hops (R230 to R238, R244) -/

/-- The destination site of a goal, none for an edge die. -/
def State.goalSite (s : State) : Goal → Option Nat
  | .tile n => some (s.tilePhys n)
  | .control S => some (s.phys S)
  | .slice p => some p
  | .edge _ => none
  | .nowhere => none
/-- The position where a goal lies in its site (R231). -/
def State.goalPos (s : State) : Goal → Nat × Nat
  | .tile n => (tileTR n, s.tilePos n)
  | _ => (0, 0)
/-- The index of the route entry for a goal (R229): 0 to 255 a site, 256 + id an edge die. -/
def State.goalIdx (s : State) : Goal → Nat
  | .tile n => tileSite n
  | .control S => S
  | .slice p => (s.logical p).getD 0
  | .edge e => 256 + e
  | .nowhere => 0

/-- The entry that a router of a site reads; none where the entry is not valid or fails parity (R229, R237, R244). A packet for another panel also needs its
panel entry, 320 + panel. An edge die with every attached site DARK has none (R238). -/
def State.routeEntry (s : State) (p : Nat) (f : Flight) : Option RouteEnt :=
  let x := s.site p
  let idx := s.goalIdx f.goal
  let q := aPanel f.pkt.dest
  if f.goal = .nowhere ∨ x.routeGen = 0 ∨ x.badRoutes.contains idx = true then none
  else if q ≠ s.rick.panel ∧ x.badRoutes.contains (320 + q) = true then none
  else
    match f.goal with
    | .edge e => if (edgeAttach e).all fun a => (s.site a.1).st == .dark then none else s.tableEntry p idx
    | _ => s.tableEntry p idx

/-- The face of a site at which an edge die attaches. -/
def attachFace (e p : Nat) : Option Face := ((edgeAttach e).find? fun a => a.1 == p).map (·.2)

/-- Every link of a face is down (R236). -/
def State.faceDown (s : State) (p : Nat) (f : Face) : Bool := (siteLinks p f).all fun l => s.linkDown { site := p, row := l.1, pos := l.2, face := f }
/-- The face that a face code names at a site for a goal. -/
def codeFace (p : Nat) (g : Goal) (code : Nat) : Option Face :=
  if code = 5 then
    match g with
    | .edge e => attachFace e p
    | _ => none
  else faceOfCode code
/-- A face code leads to a usable move (R236). -/
def State.usable (s : State) (p : Nat) (g : Goal) (code : Nat) : Bool :=
  match codeFace p g code with
  | none => false
  | some f =>
    if code = 5 then !s.faceDown p f
    else match siteNeighbour p f with
      | none => false
      | some q => (s.site q).st != .dark && !s.faceDown p f

/-! ### Virtual channels (R215, R233, R240) -/

/-- Flits that a link's buffer of a virtual channel holds: a packet stays in it until it moves on, is parked or is taken. -/
def State.bufUsed (s : State) (l : LinkId) (req escape : Bool) : Nat :=
  s.fab.flights.foldl (fun n f =>
    if f.via == some l && Opc_isReq f.pkt.opc == req && f.escape == escape then n + Packet_flits f.pkt else n) 0
/-- Free credits of a channel: its buffer holds 10 flits (R233). -/
def State.credits (s : State) (l : LinkId) (f : Flight) (escape : Bool) : Nat := 10 - s.bufUsed l (Opc_isReq f.pkt.opc) escape
/-- The next buffer of the channel has room for the whole packet (R240). -/
def State.room (s : State) (l : LinkId) (f : Flight) (escape : Bool) : Bool := decide (Packet_flits f.pkt ≤ s.credits l f escape)

/-- A way on: the link and the place behind it. -/
abbrev Way := LinkId × Place
/-- The way over one link, none where it is down or leads nowhere; `out` is the edge die beyond an edge face. -/
def State.wayOver (s : State) (l : LinkId) (out : Option Nat) : Option Way :=
  if s.linkDown l then none
  else
    match linkMate l with
    | some m => some (l, .router m.site m.row m.pos)
    | none => match out with
      | some e => if (siteLinks l.site l.face).contains (l.row, l.pos) then some (l, .edge e) else none
      | none => none
/-- The two faces at right angles to a face: the side on which a router steps aside first is south or east (R230; log entry 12). -/
def sideFaces (f : Face) : List Face := if f = .east ∨ f = .west then [.south, .north] else [.east, .west]
/-- One position's move toward a face (R230, R232): straight on, else one step aside into an adjacent row or column; along the face to a service die's one
link. -/
def State.moveOver (s : State) (p row pos : Nat) (f : Face) (out : Option Nat) : Option Way :=
  let l (g : Face) : LinkId := { site := p, row, pos, face := g }
  if (linkMate (l f)).isNone && out.isSome && !(siteLinks p f).contains (row, pos) then s.wayOver (l (towardSv f)) none
  else (s.wayOver (l f) out).orElse fun _ =>
    (sideFaces f).findSome? fun g => match linkMate (l g) with
      | some m => if m.site = p then s.wayOver (l g) none else none
      | none => none

/-- Delivery inside the destination site: along the row, then along the column (R231). Next to the destination's column where its link is down, a packet that has
stepped aside moves along its own column first (log entry 12). -/
def State.inSiteFace (s : State) (p row pos tr tp : Nat) : Option Face :=
  let vert : Face := if row < tr then .south else .north
  if row ≠ tr ∧ (pos + 1 = tp ∨ tp + 1 = pos) ∧ s.linkDown { site := p, row, pos := tp, face := vert } = true
      ∧ s.linkDown { site := p, row, pos, face := vert } = false then some vert
  else if pos < tp then some .east
  else if tp < pos then some .west
  else if row ≠ tr then some vert
  else none

/-- What a router does with a packet (R230 to R238): it goes over a link, or to the local port, on a channel; it waits; or it finds its destination DARK, or no
face. -/
inductive Hop where
  | go (link : Option LinkId) (to_ : Place) (escape : Bool)
  | wait
  | dark
  | noRoute
deriving DecidableEq, Repr, Inhabited

/-- The way of most credits that has room; the first on a tie (R230). -/
def State.bestWay (s : State) (f : Flight) : List Way → Option Way
  | [] => none
  | w :: ws =>
    match s.bestWay f ws with
    | none => if s.room w.1 f false then some w else none
    | some v => if s.room w.1 f false && decide (s.credits v.1 f false ≤ s.credits w.1 f false) then some w else some v
/-- On the adaptive channel the best way; a packet that has found no credit there for 32 cycles takes the escape channel; on it, its one way (R233). No credit
means too little for the packet (log entry 12). -/
def State.channel (s : State) (f : Flight) (starved : Bool) (ways : List Way) (escape : Option Way) : Hop :=
  let esc : Hop := match escape with
    | some w => if s.room w.1 f true then .go (some w.1) w.2 true else .wait
    | none => .wait
  if f.escape then esc
  else match s.bestWay f ways with
    | some w => .go (some w.1) w.2 false
    | none => if starved then esc else .wait

/-- The entry's permitted face leads to the destination site and that site is DARK (R28). -/
def State.lastBeforeDark (s : State) (p : Nat) (f : Flight) (codes : List Nat) : Bool :=
  match s.goalSite f.goal with
  | none => false
  | some d => (s.site d).st == .dark && codes.any fun c => match faceOfCode c with
    | some fc => siteNeighbour p fc == some d
    | none => false

/-- The face codes between which a router chooses, and that of the escape channel; none where every face is unusable (R230, R233, R236, R237). -/
def State.hopCodes (s : State) (p : Nat) (g : Goal) (e : RouteEnt) : Option (List Nat × Option Nat) :=
  let ps := [e.p0, e.p1].filter (s.usable p g)
  let ds := [e.d0, e.d1].filter (s.usable p g)
  let esc := if s.usable p g e.p0 then some e.p0 else if s.usable p g e.d0 then some e.d0 else none
  if !ps.isEmpty then some (ps, esc) else if !ds.isEmpty then some (ds, esc) else none

/-- What a router makes of a packet that stands in it. -/
def State.hopPlan (s : State) (f : Flight) (p row pos : Nat) (starved : Bool) : Hop :=
  if s.goalSite f.goal = some p then
    match s.inSiteFace p row pos (s.goalPos f.goal).1 (s.goalPos f.goal).2 with
    | none => .go none (.dest p) f.escape
    | some fc => s.channel f starved (s.moveOver p row pos fc none).toList (s.moveOver p row pos fc none)
  else
    match s.routeEntry p f with
    | none => .noRoute
    | some e =>
      if s.lastBeforeDark p f [e.p0, e.p1] then .dark
      else
        let way (c : Nat) : Option Way := (codeFace p f.goal c).bind fun fc => s.moveOver p row pos fc (if c = 5 then (match f.goal with
          | .edge x => some x
          | _ => none) else none)
        match s.hopCodes p f.goal e with
        | none => .noRoute
        | some (cs, x) => s.channel f starved (cs.filterMap way) (x.bind way)

/-- The number of a router's input virtual channel that holds a packet: its port (0 the local one, 1 to 4 the neighbours', 5 an edge die's), its class, and its
channel (R215). -/
def inputOf (f : Flight) : Nat :=
  (match f.via with
    | none => 0
    | some l => if 272 ≤ l.site then 5 else faceCode (faceOpp l.face)) * 4 + b2n (Opc_isReq f.pkt.opc) * 2 + b2n f.escape
/-- The number of a router's output. -/
def outputOf (p row pos : Nat) (link : Option LinkId) : Nat :=
  ((p * 8 + row) * 17 + pos) * 8 + (match link with
    | none => 0
    | some l => faceCode l.face)
/-- How far an input channel is from its turn at an output (R215). -/
def State.turnOf (s : State) (out : Nat) (f : Flight) : Nat := (inputOf f + 24 - tget 0 s.fab.turns out % 24) % 24
/-- No packet in another input channel that is ready for the same output comes before in rotation (R215). -/
def State.granted (s : State) (f : Flight) (p row pos : Nat) (link : Option LinkId) : Bool :=
  let out := outputOf p row pos link
  s.fab.flights.all fun g =>
    !(g.place == .router p row pos && decide (s.turnOf out g < s.turnOf out f) && match s.hopPlan g p row pos false with
      | .go o _ _ => o == link
      | _ => false)

/-- A packet that finds no face (R237): a READ is answered NO_ROUTE, everything else dropped and counted. -/
def State.hopNoRoute (s : State) (i : Nat) (f : Flight) (p : Nat) (at_ : Place) : State :=
  let s := s.dropFlight i
  if f.pkt.opc = .read then s.respond f at_ .rerr stNoRoute [] else s.noRouteAt p f.pkt.dest
/-- A packet for a DARK site at the last router before it (R28). -/
def State.hopDark (s : State) (i : Nat) (f : Flight) (p : Nat) (at_ : Place) : State :=
  let s := s.dropFlight i
  if f.pkt.opc = .read then s.respond f at_ .rerr stSiteDark []
  else if Opc_isReq f.pkt.opc then s.dropAt p else s.noRouteAt p f.pkt.dest

/-- A site of an older publication may switch to the tables of the running republish, a free choice (R234). -/
def State.mayswitch (s : State) (p : Nat) : State :=
  if s.fab.republishing && (s.site p).routeGen != 0 && (s.site p).routeGen != s.fab.gen then
    let b := Config.freeBool s.freeN
    let s := s.spend
    if b then s.modSite p fun x => { x with routeGen := s.fab.gen, badRoutes := [] } else s
  else s

/-- A router that keeps a packet moves it on, where the packet's input channel has the turn; HOPS counts the routers it leaves (R235). -/
def State.hopMove (s : State) (i : Nat) (f : Flight) (p row pos : Nat) (starved : Bool) : State :=
  let s := s.mayswitch p
  let at_ : Place := .router p row pos
  let f1 := { f with pkt := { f.pkt with hops := f.pkt.hops + 1 } }
  match s.hopPlan f p row pos starved with
  | .wait => s
  | .noRoute => s.hopNoRoute i f1 p at_
  | .dark => s.hopDark i f1 p at_
  | .go link to_ escape =>
    if s.granted f p row pos link then
      (s.setFlight i { f1 with place := to_, escape, via := link.orElse fun _ => f.via }).modFab fun b =>
        { b with turns := tput 0 b.turns (outputOf p row pos link) ((inputOf f + 1) % 24) }
    else s

/-- The attached site of an edge die through which a packet enters the mesh, and the link: the first that is not DARK, over the lowest link of its face that is
not down and has room (R12, R232, R240; log entry 12). -/
def State.edgeGate (s : State) (e : Nat) (f : Flight) : Option Way :=
  (edgeAttach e).findSome? fun a =>
    if (s.site a.1).st = .dark then none
    else (siteLinks a.1 a.2).findSome? fun x =>
      let l : LinkId := { site := a.1 + 272, row := x.1, pos := x.2, face := a.2 }
      if !s.linkDown l && s.room l f false then some (l, .router a.1 x.1 x.2) else none
/-- A packet at an edge die enters the mesh; with every attached site DARK it finds no face (R237, R238). -/
def State.edgeEnter (s : State) (i : Nat) (f : Flight) (e : Nat) : State :=
  if (edgeAttach e).all fun a => (s.site a.1).st == .dark then s.hopNoRoute i f (edgeSite e) (.edge e)
  else
    match s.edgeGate e f with
    | some w => s.setFlight i { f with place := w.2, via := some w.1 }
    | none => s

/-- ROUTER_HOP: a packet at a router moves one position, is delivered, or is dropped; a packet at an edge die enters the mesh, leaves for another panel, or, as
panel control traffic, has reached its service die (R210, R230 to R238, R244, R356, R357). -/
def execRouterHop (i : Nat) (env : HopEnv) (s : State) : Out :=
  onFlight s i fun f =>
    match f.place with
    | .edge e =>
      if f.goal = .edge e then
        if f.pkt.opc = .svc then ok (s.dropFlight i)
        else if aPanel f.pkt.dest ≠ s.rick.panel ∧ 0x10 ≤ e ∧ e < 0x18 then ok (s.casLeave i f e)
        else ok s
      else if f.goal = .nowhere then ok (s.hopNoRoute i f (edgeSite e) (.edge e))
      else ok (s.edgeEnter i f e)
    | .router p row pos =>
      if env.parityBad then
        let s := (s.dropFlight i).modCnt p fun c => { c with spar := satAdd c.spar 1 }
        let s := s.raiseSite 0x0202 p f.pkt.dest.toNat 0
        match (s.tilesOf p).find? fun t => tileTR t == row && s.tilePos t == pos with
        | some t => ok (s.penalise t 6)
        | none => ok s
      else if 1023 ≤ f.pkt.hops then
        let s := (s.dropFlight i).modCnt p fun c => { c with shop := satAdd c.shop 1 }
        let e : Ev := { code := 0x0203, part := (s.site p).part.getD 0, kind := 2, source := s.siteSource p, d0 := pktWord0 f.pkt, d1 := f.pkt.dest.toNat }
        ok (s.raise2 e { e with cont := true, d0 := f.pkt.src.toNat, d1 := 0 })
      else ok (s.hopMove i f p row pos env.starved)
    | _ => ok s

/-- ROUTE_ENTRY_REWRITE: an entry that fails parity is rewritten by the service die; the first strike of a fault marks it (R244). -/
def execRouteEntryRewrite (p idx : Nat) (s : State) : Out :=
  onSite s p fun x =>
    if x.badRoutes.contains idx then ok (s.modSite p fun x => { x with badRoutes := x.badRoutes.filter (· != idx) })
    else if idx < 384 ∧ x.routeGen ≠ 0 then
      ok ((s.modSite p fun x => { x with badRoutes := x.badRoutes ++ [idx] }).raiseSite 0x0202 p idx 0)
    else ok s

/-! ### Links (R241, R242, R528) -/

/-- KIND of a link (R528): 0 inside a base die, 1 a seam, 2 an edge-face link. -/
def linkKind (l : LinkId) : Nat :=
  match linkMate (linkRouter l) with
  | none => 2
  | some m => if m.site = (linkRouter l).site then 0 else 1
/-- HLT_LINK of a record (R528). -/
def LinkRec.word (r : LinkRec) : Nat :=
  r.kind * 2 ^ 30 + r.pc * 2 ^ 25 + r.pr * 2 ^ 21 + r.trow * 2 ^ 18 + r.tpos * 2 ^ 13 + r.face * 2 ^ 11 + r.doubt.length
/-- The link as an event names it: its record's fields without NDOUBT. -/
def linkWord (l : LinkId) : Nat :=
  let m := linkRouter l
  linkKind m * 2 ^ 30 + m.site / 16 * 2 ^ 25 + m.site % 16 * 2 ^ 21 + m.row * 2 ^ 18 + m.pos * 2 ^ 13 + faceIdx m.face * 2 ^ 11
/-- Keeps the newest 64 records and counts them, wrapping as the table of R526 says (R528; log entry 23). -/
def State.linkRec (s : State) (r : LinkRec) : State := s.modFab fun f => { f with recs := (r :: f.recs).take 64, lcnt := f.lcnt + 1 }

/-- A link exists at a position toward a face: inside the site, across a seam, or at an edge face with an edge die; seen from a router or from an edge die. -/
def linkExists (l : LinkId) : Bool :=
  let m := linkRouter l
  decide (m.site < 272 ∧ m.row < 8 ∧ m.pos < 17) && (match linkMate m with
    | some k => k.site == m.site || (siteLinks m.site m.face).contains (m.row, m.pos)
    | none => decide (l.site < 544) && (siteLinks m.site m.face).contains (m.row, m.pos))

/-- The edge die at a face of a site. -/
def faceEdge (p : Nat) (f : Face) : Nat := ((rangeFrom 0 64).find? fun e => (edgeAttach e).contains (p, f)).getD 0
/-- The place at an end of a link: a router or an edge die. -/
def linkPlace (l : LinkId) : Place := if l.site < 272 then .router l.site l.row l.pos else .edge (faceEdge (l.site - 272) l.face)
/-- A packet at the sending end of a link goes over it next (R241). -/
def State.heads (s : State) (f : Flight) (l : LinkId) : Bool :=
  f.place == linkPlace l && [false, true].any fun b =>
    match f.place with
    | .router p row pos => (match s.hopPlan f p row pos b with
      | .go o _ _ => o == some l
      | _ => false)
    | .edge e => (match s.edgeGate e f with
      | some w => w.1 == l
      | none => false)
    | _ => false

/-- How far a packet in doubt has crossed a link (R241): in part, with a flit that the receiver has not accepted; in part or in whole, as only its receiver knows;
in whole, unacknowledged. -/
inductive Crossed where
  | part
  | unknown
  | whole
deriving DecidableEq, Repr, Inhabited
/-- The packet whose flit `k` the receiver refuses is in doubt where a flit has crossed before it: the receiver has not accepted all of it (R241). -/
def State.headDoubt (s : State) (i k : Nat) : List (Nat × Crossed) := if k ≠ 0 ∧ (s.flight i).isSome = true then [(i, .part)] else []
/-- The packet that heads over the other direction, where the command names it as crossed in part (R241). -/
def State.backDoubt (s : State) (l : LinkId) (i : Nat) (named : List Nat) : List (Nat × Crossed) :=
  ((named.eraseDups.filter fun j => j != i && (s.flight j).any fun f => s.heads f (linkOther l)).take 1).map fun j => (j, .unknown)
/-- The packets in a buffer behind the link that the command names as crossed in whole and unacknowledged (R241). -/
def State.wholeDoubt (s : State) (l : LinkId) (i : Nat) (named : List Nat) : List (Nat × Crossed) :=
  (named.eraseDups.filter fun j => j != i && (s.flight j).any fun f =>
    !s.heads f (linkOther l) && (f.via == some l || f.via == some (linkOther l))).map fun j => (j, .whole)
/-- The packets in doubt when a link is declared down over flit `k` of packet `i`, at most 16; a packet of which no flit has crossed is none of them (R241). -/
def State.inDoubt (s : State) (l : LinkId) (i k : Nat) (named : List Nat) : List (Nat × Crossed) :=
  (s.headDoubt i k ++ s.backDoubt l i named ++ s.wholeDoubt l i named).take 16
/-- In-doubt packets at a sender: one not accepted in full is lost, and marked so; whether one of unknown crossing has been delivered is a free choice (R241). -/
def State.doubtful (s : State) (l : LinkId) : List (Nat × Crossed) → State
  | [] => s
  | (i, c) :: r =>
    let s := s.doubtful l r
    match s.flight i with
    | none => s
    | some f =>
      let gone := { f with place := .parked 999, goal := .nowhere }
      match c with
      | .whole => s
      | .part => s.setFlight i gone
      | .unknown =>
        let keep := Config.freeBool s.freeN
        let s := s.spend
        s.setFlight i (if keep then { f with place := linkPlace l, via := some (linkOther l) } else gone)
/-- A link is declared down over flit `k` of packet `i`, with what is in doubt (R241). -/
def State.linkFails (s : State) (l : LinkId) (i k : Nat) (named : List Nat) : State :=
  let ds := s.inDoubt l i k named
  let doubt := ds.filterMap fun x => (s.flight x.1).map (·.pkt)
  let s := s.doubtful l ds
  let m := linkRouter l
  let s := s.modFab fun f =>
    { f with flights := f.flights.filter (fun x => x.place != .parked 999), down := f.down ++ [m], refused := f.refused.filter fun r => !sameLink l r.link }
  let s := s.linkRec { kind := linkKind m, pc := m.site / 16, pr := m.site % 16, trow := m.row, tpos := m.pos, face := faceIdx m.face, time := s.time, doubt }
  s.raiseSite 0x0200 m.site (linkWord m) doubt.length

/-- The refusals of a flit so far (R241). -/
def Refused.of (r : Refused) (l : LinkId) (p : Packet) (k : Nat) : Bool := r.link == l && r.src == p.src && r.ctx == p.ctx && r.seq == p.seq && r.flit == k
/-- FLIT_REFUSED: a flit of a packet reaches the receiver of a link with a CRC. One that agrees with the flit is acknowledged, and the flit leaves the retry
buffer; any other is refused and the flit resent; after 8 failed resends of one flit the link is down (R208, R241). -/
def execFlitRefused (l : LinkId) (a : FlitArrival) (s : State) : Out :=
  onFlight s a.i fun f =>
    let k := a.flit
    if !linkExists l || s.linkDown l || !s.heads f l || decide (Packet_flits f.pkt ≤ k) then ok s
    else
      let other := s.fab.refused.filter fun r => r.link != l
      let n := match s.fab.refused.find? fun r => r.of l f.pkt k with
        | some r => r.n
        | none => 0
      if a.crc = crc16 (flitBytes f.pkt k) then ok (s.modFab fun b => { b with refused := other })
      else if 8 ≤ n then ok (s.linkFails l a.i k a.inDoubt)
      else ok (s.modFab fun b => { b with refused := other ++ [{ link := l, src := f.pkt.src, ctx := f.pkt.ctx, seq := f.pkt.seq, flit := k, n := n + 1 }] })

/-- A link passes training (R242): inside a base die with no failing wire; at a seam or an edge face, which has two spares for each group of 64 wires, with at most
two failing wires in each group. -/
def passes (l : LinkId) (fails : List Nat) : Bool := if linkKind l = 0 then fails.all (· == 0) else fails.all fun n => decide (n ≤ 2)
/-- The failing wires of a link's groups are on its spares (R242). -/
def State.spares (s : State) (l : LinkId) (fails : List Nat) : State :=
  s.modFab fun f => { f with wires := f.wires.filter (fun w => !sameLink l w.1) ++ [(linkRouter l, fails)] }

/-- LINK_UP: a link that is down has trained, with the wires that failed in each group: it returns to service, stays down, or, inside a base die, stays so until cold
power-on (R242). -/
def execLinkUp (x : LinkTraining) (s : State) : Out :=
  let l := x.link
  if !linkExists l || !s.linkDown l || s.fab.dead.any (sameLink l) then ok s
  else if passes l x.fails then
    let s := s.spares l x.fails
    ok ((s.modFab fun f => { f with down := f.down.filter fun m => !sameLink l m }).raiseSite 0x0201 (linkRouter l).site (linkWord l) 0)
  else if linkKind l = 0 then ok (s.modFab fun f => { f with dead := f.dead ++ [linkRouter l] })
  else ok s

/-- SEAM_RETRAIN: a seam retrains in service, loses nothing and repairs wires onto its spares (R242). -/
def execSeamRetrain (l : LinkId) (fails : List Nat) (s : State) : Out :=
  if linkExists l && linkKind l == 1 && !s.linkDown l && passes l fails then ok (s.spares l fails) else ok s

/-! ### Trackers (R227, R228) -/

/-- The response timeout of a tracker's partition in ns (R227). -/
def State.rtoNs (s : State) (part : Nat) : Nat := 2 ^ (s.partn part).cur.rto * ms

/-- TRACKER_TIMEOUT (R227). -/
def execTrackerTimeout (t k : Nat) (s : State) : Out :=
  onTile s t fun T =>
    let x := T.trk k
    if k < 32 ∧ x.st = .live ∧ s.parksTile t = false ∧ x.since + s.rtoNs x.part ≤ s.time then
      ok (s.modTile t fun T =>
        { ((T.trkError k stTimeout).setTrk k { x with st := .ended, since := s.time }) with fabTimeout := T.fabTimeout + 1 })
    else ok s

/-- TRACKER_REUSE: four response timeouts after its end a tracker is free again (R228). -/
def execTrackerReuse (t k : Nat) (s : State) : Out :=
  onTile s t fun T =>
    let x := T.trk k
    if x.st = .ended ∧ x.since + 4 * s.rtoNs x.part ≤ s.time then ok ((s.modTile t fun T => T.setTrk k {}).loaderAsk t 17) else ok s

/-! ### Base dies and republish (R234, R239, R263, R475) -/

/-- BASE_DIE_FAULT: the site goes DARK, with the packets it held (R239, R344). -/
def execBaseDieFault (p : Nat) (s : State) : Out := onSite s p fun _ => ok (s.darken p).promise

/-- A home table: the logical sites of a partition that are not DARK, ascending (R263). -/
def rectSites (d : PartDef) : List Nat :=
  ((rangeFrom d.sr (d.hm1 + 1)).map fun r => (rangeFrom d.sc (d.wm1 + 1)).map fun c => r * 16 + c).flatten
def State.homeTable (s : State) (q : Nat) : List Nat := (rectSites (s.partn q).cur).filter fun S => (s.site (s.phys S)).st != .dark

/-- The sites that are DARK. -/
def State.darkSites (s : State) : List Nat := (rangeFrom 0 272).filter fun p => (s.site p).st == .dark
/-- The service die computes a new publication from the site remaps and site states (R234). -/
def State.newTables (s : State) : State :=
  let d := s.darkSites
  s.modFab fun f => { f with gen := f.gen + 1, pubs := tput [] f.pubs (f.gen + 1) d }
/-- Every powered site holds the newest tables, and home tables are rebuilt; a changed home table invalidates its partition's slices first (R234, R263, R269). -/
def State.tablesIn (s : State) : State :=
  let s := allParts.foldl (fun s q =>
    if (s.partn q).st = .undefined then s
    else
      let h := s.homeTable q
      if h = (s.partn q).home then s else (s.invalidatePart q).modPart q fun x => { x with home := h }) s
  (rangeFrom 0 272).foldl (fun s p =>
    if (s.site p).st = .dark ∨ (s.site p).routeGen = s.fab.gen then s else s.modSite p fun x => { x with routeGen := s.fab.gen, badRoutes := [] }) s
/-- The publication of bring-up (R234, R437). -/
def State.publishRoutes (s : State) : State := s.newTables.tablesIn

/-- Panel control traffic: an SVC packet of the active service die to the other, of 1 to 5 flits; whether one is sent, and how long it is, is the
implementation's (R210, R215; log entry 109). -/
def State.svcSend (s : State) : State :=
  let send := Config.freeBool s.freeN
  let n := Config.freeNat s.freeN % 257
  let s := s.spend
  let (e, o) := if s.hlt.sva = .active then (0x20, 0x21) else (0x21, 0x20)
  if send && s.svRuns then
    s.addFlight { pkt := { opc := .svc, last := false, dctr := 0, spart := 0, epoch := 0, ctx := 0, seq := 0, len := n, dest := edgeAddr s.rick.panel o 0,
                           src := edgeAddr s.rick.panel e 0, total := 0, status := 0, hops := 0, payload := List.replicate n 0 },
                  goal := .edge o, place := .edge e, escape := false, fill := none }
  else s

/-- REPUBLISH: HLT_CMD 8, gated on a session and taken on port 0 (R234, R475, R491). -/
def execRepublish (port : Nat) (s : State) : Out :=
  hltGate s port none fun s => ok ((((s.modHlt fun h => { h with busy := true }).newTables).modFab fun f => { f with republishing := true }).svcSend)

/-- REPUBLISH_DONE: every site's tables are rewritten and ROUTES_PUBLISHED is raised (R234). -/
def execRepublishDone (s : State) : Out :=
  if s.fab.republishing && s.svRuns then
    let s := s.tablesIn
    let s := (s.modFab fun f => { f with republishing := false }).modHlt fun h => { h with busy := false }
    ok (s.raisePanel 0x0205 0 0)
  else ok s

end Sys2Proof.Machine
end

