-- ==== Sys2Proof/Machine/Findings.lean ====
section
/-! DEFINITION. What self-test and retests find (R443 to R447), retirement of a tile (R473, R475), and zeroing (R21, R258, R473). -/

namespace Sys2Proof.Machine

/-- A tile's memories, counters, list ports and accumulators zeroed with valid check bits; cores IDLE (R258, R337, R473). -/
def Tile.zeroed (t : Tile) : Tile :=
  { t.computeReset with sram := [], scr := [], scrCopy := [], badSram := [], badScr := [], flips := [], merge := [] }

/-- The SRAM, scratch, accumulator store and counters of a fenced tile zeroed with valid check bits, its engine queue and panel slots emptied and its cores held in
reset (R21, R473, R475); the counts of its status window stay (R250). -/
def Tile.zeroedKeep (t : Tile) : Tile :=
  { t with cores := t.coresReset, ctrs := [], sram := [], scr := [], scrCopy := [], badSram := [], badScr := [], flips := [], opened := [], merge := [],
           eng := { t.eng with queue := [], loader := [], array := [], packer := [], slot0 := {}, slot1 := {}, acc := [], cls := [] } }
/-- The same in the panel, with the end of the tile's loads. -/
def State.zeroTile (s : State) (t : Nat) : State := (s.loadsEnd t).modTile t Tile.zeroedKeep

/-- A DEFECT entry of a tile's position; its cause is the tile's LASTCAUSE (R456, R491). -/
def State.tileEntry (s : State) (t cause : Nat) (selfTest : Bool) : State :=
  (s.addDefect (s.tileDefect t cause) selfTest).modTile t fun T => { T with lastCause := cause }
/-- A tile becomes a HOLE with TILE_HOLE (R32, R475). -/
def State.holeTile (s : State) (t : Nat) : State := (s.modTile t fun T => { T with st := .hole }).raiseTile 0x0506 t 0 none t 0
/-- A FENCED tile stays so where its row has a usable spare position, and otherwise becomes a HOLE (R32, R473, R475). -/
def State.fencedOrHole (s : State) (t : Nat) : State := if s.spareOk t then s else s.holeTile t
/-- A tile with a new DEFECT entry of its position: TILE_RETIRED; FENCED, or a HOLE where its row has no usable spare (R473, R475). -/
def State.retireTile (s : State) (t cause : Nat) (selfTest : Bool) : State :=
  let q := s.spi.lrNext
  let s := (s.tileEntry t cause selfTest).modTile t fun T => { T with st := .fenced }
  (s.raiseTile 0x0502 t 0 none t q.toNat).fencedOrHole t

/-- The tiles of a row of a physical site. -/
def State.rowTiles (s : State) (p tr : Nat) : List Nat := (s.tilesOf p).filter fun t => tileTR t == tr
/-- A row without a usable spare position: a FENCED tile becomes a HOLE with TILE_HOLE, unless a retest of it runs or it is deferred (R32, R473, R474). -/
def State.rowSpent (s : State) (p tr : Nat) : State :=
  (s.rowTiles p tr).foldl (fun s t =>
    let T := s.tile t
    if T.st = .fenced ∧ T.retest = false ∧ T.defer_ = false then s.fencedOrHole t else s) s

/-- The tile that a tile position of a physical site serves. -/
def State.tileAtPos (s : State) (p tr pos : Nat) : Option Nat :=
  match s.logical p with
  | none => none
  | some S => (idxOf pos ((s.site p).tmapRow tr) 0).map fun tc => tileOf S tr tc

def BadUnit_site (u : BadUnit) : Nat := u.pc * 16 + u.pr
/-- The KIND of a unit's DEFECT word: a router or a site cache slice lies in the base die and is its fault (R443, R456; log entry 99). -/
def BadUnit_kind (u : BadUnit) : Nat := if u.kind = 5 ∨ u.kind = 6 then 1 else u.kind
/-- DEFECT word 0 of a unit, the fields that its KIND does not use 0 (R456). -/
def BadUnit_word (u : BadUnit) (cause : Nat) : W64 :=
  let k := BadUnit_kind u
  defectWord k u.pc u.pr (if k = 0 then u.trow else 0) (if k = 0 then u.tpos else 0) (if k = 4 then u.face else 0) (if k = 4 then u.link else 0) cause
def State.knownBad (s : State) (u : BadUnit) : Bool := s.hlt.defects.any fun d => unitOf d.word0 == unitOf (BadUnit_word u 0)
/-- A link of a face (R456, R528). -/
def faceLink (u : BadUnit) : LinkId :=
  let x := lget (0, 0) (faceLinks (faceOfIdx u.face)) u.link
  { site := BadUnit_site u, row := x.1, pos := x.2, face := faceOfIdx u.face }

/-- A seam or edge-face link as a unit (R456): its index runs along the face. An edge-face link is named from its router. -/
def linkUnit (l : LinkId) : BadUnit :=
  let l := linkRouter l
  { kind := 4, pc := l.site / 16, pr := l.site % 16, trow := 0, tpos := 0, face := faceIdx l.face, link := if l.face = .east ∨ l.face = .west then l.row else l.pos }
/-- The unit that DEFECT word 0 names. -/
def wordUnit (w : W64) : BadUnit :=
  { kind := bitsOf w 63 60, pc := bitsOf w 59 55, pr := bitsOf w 54 51, trow := bitsOf w 50 48, tpos := bitsOf w 47 43, face := bitsOf w 42 41, link := bitsOf w 40 36 }
/-- A bad link is out of service until a bring-up that no longer finds it bad (R242, R444). -/
def State.linkBad (s : State) (l : LinkId) : State :=
  s.modFab fun f => { f with down := if f.down.contains l then f.down else f.down ++ [l], dead := if f.dead.contains l then f.dead else f.dead ++ [l] }

/-- A unit is found bad in service (R444, R445, R447): a new finding is logged and gets its DEFECT entry; a base die's is written in the two cases of R476 alone
(log entry 99). A tile position's tile is retired; a compute or SRAM die takes every tile of its site out of service; a link goes down. -/
def State.foundBad (s : State) (cause : Nat) (u : BadUnit) : State :=
  let w := BadUnit_word u cause
  if s.knownBad u then
    s.modHlt fun h => { h with defects := h.defects.map fun d => if unitOf d.word0 = unitOf w then { d with srcTest := true } else d }
  else
    let s := s.bootLog 0x0007 w.toNat 1
    match BadUnit_kind u with
    | 0 =>
      match s.tileAtPos (BadUnit_site u) u.trow u.tpos with
      | some t => s.retireTile t cause true
      | none => (s.addDefect w true).rowSpent (BadUnit_site u) u.trow
    | 4 => (s.addDefect w true).linkBad (faceLink u)
    | 1 => s.foundOnly w
    | _ => (s.tilesOf (BadUnit_site u)).foldl (fun s t => s.modTile t fun T => { T with st := if T.st = .hole then .hole else .fenced }) (s.addDefect w true)
/-- A unit that failed once and then passed enters service SUSPECT, and is logged (R443). -/
def State.foundSuspect (s : State) (u : BadUnit) : State :=
  let s := s.bootLog 0x0007 (BadUnit_word u 0).toNat 2
  if u.kind ≠ 0 then s
  else
    match s.tileAtPos (BadUnit_site u) u.trow u.tpos with
    | some t => s.modTile t fun T => { T with st := if T.st = .active then .suspect else T.st }
    | none => s
/-- A bad unit that self-test or training judges and passes: DISAGREE, naming the map (R445). `judged` says which units are tested. -/
def State.disagree (s : State) (judged : BadUnit → Bool) (found : List BadUnit) : State :=
  s.hlt.defects.foldl (fun s d =>
    if judged (wordUnit d.word0) && !found.any fun u => unitOf (BadUnit_word u 0) == unitOf d.word0 then
      let s := if d.srcFuse then s.bootLog 0x0006 d.word0.toNat 1 else s
      if d.srcLearned then s.bootLog 0x0006 d.word0.toNat 2 else s
    else s) s
/-! ### REMAP records (R27, R456) -/

/-- Eight entries of a remap row, 5 bits each. -/
def packHalf (l : List Nat) (h : Nat) : Nat := (rangeFrom 0 8).foldl (fun a i => a + lget 0 l (8 * h + i) % 32 * 32 ^ i) 0
/-- A remap row as two words: a kind in [63:60], the row in [59:48], the half in [47], eight entries in [39:0] (log entry 61). -/
def rowWords (kind row : Nat) (l : List Nat) : List W64 :=
  [BitVec.ofNat 64 (kind * 2 ^ 60 + row * 2 ^ 48 + packHalf l 0), BitVec.ofNat 64 (kind * 2 ^ 60 + row * 2 ^ 48 + 2 ^ 47 + packHalf l 1)]
/-- Every site remap and tile remap that is not the identity, and the reconciled defect map. -/
def State.remapWords (s : State) : List W64 :=
  (s.hlt.smap.map fun e => rowWords 8 e.1 e.2).flatten
    ++ (s.sites.map fun e => (e.2.tmap.map fun r => rowWords 9 (e.1 * 8 + r.1) r.2).flatten).flatten
    ++ s.hlt.defects.map fun d => d.word0
/-- A list cut into pieces of at most 509 words, the largest payload of an entry without its first word (R456). -/
def pieces : Nat → List W64 → List (List W64)
  | 0, _ => []
  | n + 1, l => if l.length ≤ 509 then [l] else l.take 509 :: pieces n (l.drop 509)
/-- REMAP entries (R27, R456): pieces of one map, each with its number in its first word. -/
def State.learnRemap (s : State) : State :=
  let l := s.remapWords
  ((pieces (l.length + 1) l).foldl (fun (a : State × Nat) w => (a.1.learn 6 (remapHead a.2 :: w), a.2 + 1)) (s, 0)).1

/-- The results of a self-test with the cells they were taken in (R470): two failures for a unit found bad, a failure and a pass for one that failed once, a pass for a
site where nothing was found. -/
def State.tagTests (s : State) (sites : List Nat) (found suspects : List BadUnit) : State :=
  let s := found.foldl (fun s u => (s.tag (BadUnit_site u) true).tag (BadUnit_site u) true) s
  let s := suspects.foldl (fun s u => (s.tag (BadUnit_site u) true).tag (BadUnit_site u) false) s
  sites.foldl (fun s p => if (found ++ suspects).any fun u => BadUnit_site u == p then s else s.tag p false) s
/-- Self-test of some sites ends (R443 to R447); where their links have trained too, `links`, those are judged as well. -/
def State.findings (s : State) (cause : Nat) (sites : List Nat) (links : Bool) (found suspects : List BadUnit) : State :=
  let mine (l : List BadUnit) : List BadUnit := l.filter fun u => sites.contains (BadUnit_site u)
  let s := s.tagTests sites (mine found) (mine suspects)
  let s := s.disagree (fun u => sites.contains (BadUnit_site u) && (decide (u.kind < 4) || links)) (mine found)
  let s := (mine found).foldl (fun s u => s.foundBad cause u) s
  (mine suspects).foldl State.foundSuspect s

end Sys2Proof.Machine
end

