-- ==== Sys2Proof/Machine/SpiOps.lean ====
section
/-! DEFINITION. The firmware image (R458, R459) and the update buffer (R460). -/

namespace Sys2Proof.Machine

/-! ### Keys and signatures (R495, R496) -/

/-- A list as exactly `n` bytes. -/
def fit (n : Nat) (l : List Byte) : List Byte := (l ++ List.replicate n 0).take n
/-- What the pure form of FIPS 204 signs for some bytes, with an empty context string: a 0, the context's length 0, and the bytes (log entry 6). -/
def pureForm (m : List Byte) : List Byte := 0 :: 0 :: m
/-- The identity public key and the meter's public key, 1,952 bytes each. -/
def idKey : List Byte := fit 1952 Config.identityKey
def meterPub : List Byte := fit 1952 Config.meterKey
/-- The signatures that the identity key and the meter's key make over some bytes, 3,309 bytes each. -/
def idSign (m : List Byte) : List Byte := fit 3309 (Config.identitySign (pureForm m))
def meterSig (m : List Byte) : List Byte := fit 3309 (Config.meterSign (pureForm m))
/-- A signature verifies under a public key: what the private key of one of the panel's own pairs made does (R495, R496, R510). -/
def verifies (key msg sig : List Byte) : Bool :=
  key.length == 1952 && sig.length == 3309 &&
    ((key == idKey && sig == idSign msg) || (key == meterPub && sig == meterSig msg) || Config.mldsaVerify key (pureForm msg) sig)

/-! ### The image -/

/-- Little-endian fields of an image header (R458). -/
def imgMagic (m : Mem) : Nat := memWord m 0 4
def imgFormat (m : Mem) : Nat := memWord m 4 4
def imgLen (m : Mem) : Nat := memWord m 8 4
def imgSvn (m : Mem) : Nat := memWord m 0xC 4
def imgFlags (m : Mem) : Nat := memWord m 0x10 4
def imgBuild (m : Mem) : Nat := memWord m 0x18 8
def imgDigest (m : Mem) : List Byte := memGetList m 0x20 32
/-- The largest and smallest body (R458). -/
def imgLenOk (n : Nat) : Bool := decide (8 ≤ n ∧ n ≤ 15716352 ∧ n % 8 = 0)

/-- The first check of R459 that an image fails, as the ECODE of R463: 4 header, 5 DIGEST or VSIG, 7 SVN, 6 owner countersignature; 0 where it is verified. -/
def imageCheck (m : Mem) (owner : Option (List Byte)) (svnMin : Nat) : Nat :=
  if imgMagic m ≠ 0x4B465731 ∨ imgFormat m ≠ 1 ∨ imgLenOk (imgLen m) = false then 4
  else if imgDigest m ≠ shake256 (memGetList m 0 0x20 ++ memGetList m 0x3000 (imgLen m)) then 5
  else if verifies (fit 1952 Config.firmwareKey) (imgDigest m) (memGetList m 0x40 3309) = false then 5
  else if imgSvn m < svnMin then 7
  else
    match owner with
    | none => 0
    | some h =>
      let key := memGetList m 0x1A40 1952
      if imgFlags m % 2 = 1 ∧ shake256 key = h ∧ verifies key (imgDigest m) (memGetList m 0xD40 3309) = true then 0 else 6
/-- CAUSE of SPI_BOOT for a failed check (R463). -/
def bootCauseOf (ecode : Nat) : Nat := if ecode = 4 then 1 else if ecode = 5 then 2 else if ecode = 6 then 3 else 4

/-- SPI_CMDSTAT (R463). -/
def Spi.cmdStat (p : Spi) : Nat := p.cmdSt * 2 ^ 29 + p.cmdEcode * 2 ^ 24 + p.cmdLast * 2 ^ 16 + p.progress
/-- A command of SPI_CMD is at a state of R463, with none of its work done. -/
def Spi.at_ (p : Spi) (st : Nat) : Spi := { p with cmdSt := st, progress := 0 }
/-- An update ends, DONE with ECODE 0 or FAILED with another, with its FW_UPDATE record (R460, R461, R457). -/
def State.updateEnds (s : State) (ecode : Nat) : State :=
  let s := s.modSpi fun p => if ecode = 0 then { p with cmdSt := 6, cmdEcode := 0, progress := 100 } else { p with cmdSt := 7, cmdEcode := ecode }
  s.bootLog 0x0008 s.spi.cmdStat (imgSvn s.spi.upBuf)
/-- The check of a fetched image (R459, R460): its ECODE, 8 where SPI_UPLEN is not the size that the header gives. -/
def State.updateCheck (s : State) : Nat :=
  let e := imageCheck s.spi.upBuf s.ses.owner s.ses.svnMin
  if e = 0 ∧ s.spi.upLen ≠ 0x3000 + imgLen s.spi.upBuf then 8 else e
/-- An idle cycle of an update: VERIFY applies R459, and where it passes the sectors of the image region are erased, written and checked in turn, a cycle each (R460; log
entry 1). -/
def State.updateTick (s : State) : State :=
  if s.svRuns = false then s
  else if s.spi.cmdSt = 2 then
    if s.updateCheck = 0 then s.modSpi fun p => { p.at_ 3 with image := [], imageLen := 0 } else s.updateEnds s.updateCheck
  else if s.spi.cmdSt = 3 then s.modSpi fun p => p.at_ 4
  else if s.spi.cmdSt = 4 then s.modSpi fun p => p.at_ 5
  else s

/-- A host read of the image has failed (R461): FAILED, ECODE 3. -/
def State.updateLost (s : State) : State := if s.spi.cmdSt = 1 then s.updateEnds 3 else s
/-- Asks for the next 4 KiB of the image; a port that issues nothing is a host read failure (R460, R461). -/
def State.updateAsk (s : State) : State :=
  let p := s.spi
  if p.upAsked < p.upLen then
    if (s.port 0).mute then s.updateLost else
    let n := min 4096 (p.upLen - p.upAsked)
    let s := s.modSpi fun p => { p with upAsked := p.upAsked + n }
    s.issueRead 0 (p.upBase + p.upAsked) n (.image p.upAsked)
  else s

/-- Bytes of a new image arrive; with the last of them STATE is VERIFY (R460). -/
def State.updateGot (s : State) (at_ : Nat) (bs : List Byte) : State :=
  if s.spi.cmdSt ≠ 1 then s
  else
    let s := s.modSpi fun p => { p with upBuf := memPutList p.upBuf at_ bs, upGot := p.upGot + bs.length }
    if s.spi.upGot < s.spi.upLen then (s.modSpi fun p => { p with progress := p.upGot * 100 / p.upLen }).updateAsk else s.modSpi fun p => p.at_ 2

end Sys2Proof.Machine
end

