-- ==== Sys2Proof/Machine/CapOps.lean ====
section
/-! DEFINITION. The telemetry ring (R430, R431, R435), phase tags and occurrences (R414, R415, R417). -/

namespace Sys2Proof.Machine

/-! ### The telemetry ring -/

def State.modTel (s : State) (f : TelRing → TelRing) : State := s.modHost fun h => { h with tel := f h.tel }
/-- The ring takes records (R430). -/
def State.telOpen (s : State) : Bool :=
  let r := s.host.tel
  r.en && decide (10 ≤ r.log2 ∧ r.log2 ≤ 24) && !(s.port r.port).mute && (r.tail - r.head).toNat != 2 ^ r.log2
/-- Writes one record; the interrupt goes out when the ring becomes half full (R430). -/
def State.telRecord (s : State) (w0 w1 w2 w3 : Nat) : State :=
  let r := s.host.tel
  let a := r.base + 32 * (r.tail.toNat % 2 ^ r.log2)
  let s := s.hostWrite r.port a (leBytes 8 w0 ++ leBytes 8 w1 ++ leBytes 8 w2 ++ leBytes 8 w3) false
  let s := s.modTel fun r => { r with tail := r.tail + 1 }
  let r := s.host.tel
  if r.irqEn && !r.sent && (r.tail - r.head).toNat == 2 ^ (r.log2 - 1) then (s.modTel fun r => { r with sent := true }).sendMsix r.port r.vec else s
def State.telLose (s : State) : State := s.modTel fun r => { r with lost := satAdd r.lost 1, since := r.since + 1 }
/-- Brings a record of a kind to the ring, behind an overflow record where records were lost (R430, R431); without a service die
telemetry stops (R482). -/
def State.telPut (s : State) (kind w0 w1 w2 w3 : Nat) : State :=
  let r := s.host.tel
  if s.svRuns = false ∨ r.kmask.getLsbD (kind - 1) = false then s
  else if !s.telOpen then s.telLose
  else
    let s := if r.since = 0 then s
      else
        let s := s.modTel fun r => { r with since := 0 }
        if r.kmask.getLsbD 6 then s.telRecord (7 * 2 ^ 56) 0 (r.since % 2 ^ 32) 0 else s
    if s.telOpen then s.telRecord (kind * 2 ^ 56 + w0) w1 w2 w3 else s.telLose
/-- A record of a descriptor waits for the end of its millisecond, whose records are written in KIND order (R430); without a service die there is none (R482). -/
def State.telHold (s : State) (kind : Nat) (ws : List Nat) : State :=
  if s.svRuns then s.modTel fun r => { r with held := r.held ++ [(kind, ws)] } else s
/-- The records of one kind that wait are written, in their order. -/
def State.telHeld (s : State) (kind : Nat) : State :=
  (s.host.tel.held.filter fun e => e.1 == kind).foldl (fun s e => s.telPut kind (lget 0 e.2 0) (lget 0 e.2 1) (lget 0 e.2 2) (lget 0 e.2 3)) s
/-- The tail shadow, written after the records of each millisecond (R430). -/
def State.telShadow (s : State) : State :=
  let r := s.host.tel
  if r.en ∧ r.shadow ≠ 0 then s.hostWrite r.port r.shadow (leBytes 4 r.tail.toNat) false else s

/-! ### Demand (R415, R416) -/

/-- 11.25 × 10^6 × r(k), as a whole number (R415): (5 + k)(600 + 10 k)^2 / 10^6 over 11.25. -/
def drawNum (k : Nat) : Nat := (5 + k) * (600 + 10 * k) * (600 + 10 * k)
def drawDen : Nat := 11250000
/-- r(15) = 1. -/
def atStep (p k : Nat) : Nat := p * drawNum k / drawDen

/-- The key of a learned profile: partition, tag, site number (R417). -/
def profKey (p tag S : Nat) : Nat := (p * 256 + tag) * 256 + S
def State.means (s : State) (p tag S : Nat) : List Nat := tget [] s.cap.prof (profKey p tag S)
def meanOf (l : List Nat) : Nat := if l.isEmpty then 0 else lsum l / l.length

/-- The running occurrence of a partition ends: the mean of each site's samples joins its last 8 occurrence means (R415). An occurrence of tag 0, one shorter than 1 ms, or
one without a sample stores nothing. -/
def State.occurrenceEnd (s : State) (p : Nat) : State :=
  let q := s.partn p
  (s.partSites p).foldl (fun s i =>
    let c := (s.site i).ctl
    let s := s.modSite i fun x => { x with ctl := { x.ctl with sampSum := 0, sampN := 0 } }
    match s.logical i with
    | none => s
    | some S =>
      if q.tag = 0 ∨ c.sampN = 0 ∨ s.time < q.occAt + ms then s
      else s.modCap fun k => { k with prof := tmod [] k.prof (profKey p q.tag S) fun l => ((c.sampSum / c.sampN) :: l).take 8 }) s

/-- A PHASE of a context sets the partition's tag, ends one occurrence, begins the next, and enters its record (R414, R431). -/
def State.phase (s : State) (ctx tag : Nat) : State :=
  let p := (s.ctx ctx).cfg.part
  let prev := (s.partn p).tag
  let s := s.occurrenceEnd p
  let s := s.modPart p fun q => { q with tag, occAt := s.time }
  s.telHold 6 [p * 2 ^ 44 + ctx * 2 ^ 31, s.time, prev * 256 + tag, s.cap.energy]
/-- A MARK's record (R316, R431). -/
def State.mark (s : State) (ctx id : Nat) : State :=
  s.telHold 5 [(s.ctx ctx).cfg.part * 2 ^ 44 + ctx * 2 ^ 31, s.time, id, 0]
/-- The tag of a partition becomes 0 (R414). -/
def State.tagClear (s : State) (p : Nat) : State :=
  let s := (s.partSites p).foldl (fun s i => s.modSite i fun x => { x with ctl := { x.ctl with sampSum := 0, sampN := 0 } }) s
  s.modPart p fun q => { q with tag := 0, occAt := s.time }
/-- A partition's learned profiles are cleared (R417). -/
def State.profClear (s : State) (p : Nat) : State :=
  s.modCap fun k => { k with prof := k.prof.filter fun e => !decide (e.1 / 65536 = p) }

end Sys2Proof.Machine
end

