-- ==== Sys2Proof/Machine/ClockOps.lean ====
section
/-! DEFINITION. Shared operations of clocking and power: step changes and who waits (R370 to R373), holding
(R376, R428), isolation (R400), dip reductions (R396), draught limits (R422), and soft starts that are asked for (R403). -/

namespace Sys2Proof.Machine

/-- The group of a physical site (R385). -/
def groupOf (p : Nat) : Nat := p / 16 + if p % 16 < 8 then 0 else 17
/-- The physical sites of a group. -/
def groupSites (g : Nat) : List Nat := (rangeFrom (if g < 17 then 0 else 8) 8).map fun r => g % 17 * 16 + r
/-- A site in DATA0 of power, cap and thermal events (R408, R436). -/
def siteWord (p : Nat) : Nat := p / 16 * 256 + p % 16
/-- All physical sites. -/
def allSites : List Nat := rangeFrom 0 272

/-! ### Banking (R380, R389) -/

/-- A BANKED site that nothing banks any more begins its return: the setpoints of its effective step are restored (R380, R389). In RESET, which it has entered while BANKED,
they are restored for its step (log entry 104). -/
def State.unbankNow (s : State) (p : Nat) : State :=
  let x := s.site p
  if x.clk.wantsBank = true then s
  else if x.st = .reset then s.setRails p (x.vcAt x.clk.cur) x.vsAt
  else if x.st ≠ .banked then s
  else
    let k := if x.clk.hold then x.clk.cur else s.stepCeiling p
    (s.modSite p fun x => { x with clk := { x.clk with returning := true, req := k } }).setRails p (x.vcAt k) x.vsAt

/-! ### Step changes (R371 to R373) -/

/-- Sites of a group in a step stop. -/
def State.stops (s : State) (g : Nat) : Nat := ((groupSites g).filter fun q => (s.site q).clk.ph == .stop).length
/-- A dip reduction or a thermal throttle lowers the site: it waits neither for 50 µs nor behind raises (R372, R373). -/
def State.urgent (s : State) (p k : Nat) : Bool := decide (k < (s.site p).clk.cur) && (s.limitBy p == 5 || s.limitBy p == 6)
/-- The site is free to begin a change: ACTIVE, running no change and no tile remap, not held, and 50 µs after its last stop unless the change is urgent (R372, R376). -/
def State.stepFree (s : State) (p k : Nat) : Bool :=
  let x := s.site p
  x.st == .active && x.clk.ph == .none && !x.clk.hold && !x.clk.pllBad && !x.clk.wantsBank && (s.remapRow p).isNone && (s.urgent p k || match x.clk.lastStop with
    | none => true
    | some t => decide (t + 50 * us ≤ s.time))
/-- The stop begins: the site is HELD (R371 step 2). -/
def State.beginStop (s : State) (p : Nat) : State :=
  s.modSite p fun x => { x with st := .held, heldRow := none, clk := { x.clk with ph := .stop, prev := x.clk.cur, stopAt := s.time } }
/-- A change to step k begins (R371): a raise waits for its voltage, a lowering stops at once. -/
def State.beginStep (s : State) (p k : Nat) : State :=
  let x := s.site p
  let s := s.modSite p fun x => { x with clk := { x.clk with req := k, nextReq := none, chgTurn := x.clk.reqTurn } }
  if k = x.clk.cur then s
  else if x.clk.cur < k then
    (s.modSite p fun x => { x with clk := { x.clk with ph := .volt } }).setRails p (x.vcAt k) x.vsAt
  else s.beginStop p
/-- A request that waits could begin now, but for the other stops of its group; or a raise whose voltage has settled waits for its stop (R373). A held site waits
(R376), and without a service die nothing begins (R482). -/
def State.stepWaits (s : State) (p : Nat) : Option Nat :=
  let x := s.site p
  if !s.svRuns then none
  else if x.clk.ph = .volt then (if x.pwr.settled ∧ x.st = .active ∧ x.clk.hold = false then some x.clk.req else none)
  else match x.clk.nextReq with
    | some k => if s.stepFree p k then some k else none
    | none => none
/-- The place of a site's waiting change in the order of requests. -/
def SiteClk.turn (k : SiteClk) : Nat := if k.ph = .volt then k.chgTurn else k.reqTurn
/-- The earliest of the raises that wait in a group before a turn, else that turn. -/
def State.firstRaise (s : State) (g turn : Nat) : Nat :=
  lmin turn ((groupSites g).filterMap fun q =>
    match s.stepWaits q with
    | some k => if (s.site q).clk.cur < k then some (s.site q).clk.turn else none
    | none => none)
/-- Order of waiting changes: that of their requests, but a dip reduction or a thermal throttle goes ahead of the raises that wait (R373). -/
def State.waitKey (s : State) (p k : Nat) : Nat :=
  let t := (s.site p).clk.turn
  if s.urgent p k then s.firstRaise (groupOf p) t * 2 ^ 40 + t else t * 2 ^ 40 + 2 ^ 39
/-- The site with the lowest key. -/
def firstBy (key : Nat → Nat) : List Nat → Option Nat
  | [] => none
  | x :: r =>
    match firstBy key r with
    | none => some x
    | some y => if key y < key x then some y else some x
/-- Begins, in their order, the waiting requests that may begin: at most 4 of the 8 sites of a group are in a stop at once (R373). -/
def State.startWaiting (s : State) : Nat → State
  | 0 => s
  | n + 1 =>
    let ps := (s.sites.map (·.1)).filter fun p => (s.stepWaits p).isSome && decide (s.stops (groupOf p) < 4)
    match firstBy (fun p => s.waitKey p ((s.stepWaits p).getD 0)) ps with
    | none => s
    | some p =>
      let s := if (s.site p).clk.ph = .volt then s.beginStop p else s.beginStep p ((s.stepWaits p).getD 0)
      s.startWaiting n
/-- A step request (R371, R372): the latest one is kept. -/
def State.wantStep (s : State) (p k : Nat) : State :=
  let n := s.clk.turns
  ({ s with clk := { s.clk with turns := n + 1 } } : State).modSite p fun x => { x with clk := { x.clk with nextReq := some k, reqTurn := n } }
/-- A step request that begins at once where it may. -/
def State.askStep (s : State) (p k : Nat) : State := (s.wantStep p k).startWaiting 1
/-- The step that a site is at or on its way to. -/
def SiteClk.goal (k : SiteClk) : Nat := k.nextReq.getD (if k.ph = .none then k.cur else k.req)
/-- The service die may ask a site for a step (R376, R482). -/
def State.mayAsk (s : State) (p : Nat) : Bool :=
  let x := s.site p
  s.svRuns && !x.clk.hold && !x.clk.pllBad && (x.st == .active || x.st == .held)
/-- Asks every site that is not at its effective step for it (R370). -/
def State.followLimits (s : State) : State :=
  s.sites.foldl (fun s e =>
    let k := s.stepCeiling e.1
    if s.mayAsk e.1 && (s.site e.1).clk.goal != k then s.wantStep e.1 k else s) s

/-! ### Holding the step (R375, R376, R428) -/

/-- Holding ends at a site (R376, R428). -/
def State.endHold (s : State) (p : Nat) : State :=
  if (s.site p).clk.hold then (s.modSite p Site.unheld).relimit p else s

/-! ### Draught limits (R422) -/

/-- The draught k in force: the smallest of the pacer's, failover's, the thermal one and that of a panel without service dies (R386, R421, R422, R428, R482). -/
def Site.kNow (x : Site) : Nat := min (min (if x.ctl.mode = .draught then x.ctl.pacerK else 16) x.ctl.convK) (min x.clk.thmK x.ctl.lostSvK)

/-! ### Isolation and dips (R396, R400) -/

/-- The input switch of a site opens (R400): isolated, DARK. -/
def State.isolate (s : State) (p cause : Nat) : State :=
  let s := s.modSite p fun x => { x with pwr := { x.pwr with sw := .isolated, isoCause := cause, rejoining := false, rejoinDue := false } }
  (s.raiseSite 0x0414 p (siteWord p) cause).darken p
/-- A dip reduction: the dip limit falls below the current step, or by one more step (R396); at a site without a step, OFF or DARK, by one step (R398; log entry 104). A
millisecond with one gives no demand sample (R415). -/
def State.dipReduce (s : State) (p : Nat) : State :=
  let x := s.site p
  let k := x.clk
  let lim := (if x.st = .off ∨ x.st = .dark then k.dipLim else min k.dipLim k.cur) - 1
  let s := s.modSite p fun x => { x with clk := { x.clk with dipLim := lim }, pwr := { x.pwr with lastReduce := some s.time }, ctl := { x.ctl with msDr := true } }
  (s.raiseSite 0x0419 p (siteWord p) lim).relimit p

/-! ### Soft starts (R403) -/

/-- A converter feeds the group: its own, or its partner (R386). -/
def State.groupFed (s : State) (g : Nat) : Bool :=
  let up (g : Nat) : Bool := (tget {} s.pwr.convs g).st != 1
  s.pwr.convOn && (up g || up ((g + 17) % 34))
/-- Asks for a soft start, in the order of requests (R403). -/
def State.askSoft (s : State) (p : Nat) (why : SoftFor) : State :=
  let n := s.pwr.softTurns
  let s := s.modPwr fun w => { w with softTurns := n + 1 }
  s.modSite p fun x => { x with pwr := { x.pwr with soft := .queued, softFor := why, softTurn := n, softSince := s.time } }

end Sys2Proof.Machine
end

