-- ==== Sys2Proof/Machine/SerialOps.lean ====
section
/-! DEFINITION. Writing the journal of learned records (R455, R456) and the log (R457). -/

namespace Sys2Proof.Machine

/-- The image region is being written (R461): learned-record and log writes are held. -/
def Spi.holdsWrites (p : Spi) : Bool := decide (3 ≤ p.cmdSt ∧ p.cmdSt ≤ 5)

/-! ### The log (R457) -/

/-- The records of the ring, and the records of a 64 KiB sector. -/
def logCap : Nat := 393216
def logSector : Nat := 2048
/-- A record is written at its place in the ring; at the first place of a sector that still holds the oldest records, that sector is erased first. -/
def Spi.logWrite (p : Spi) (r : LogRec) : Spi :=
  let log := if p.logPos % logSector = 0 ∧ logCap - logSector < p.log.length then p.log.drop logSector else p.log
  { p with log := log ++ [r], logPos := (p.logPos + 1) % logCap, logCnt := p.logCnt + 1 }
/-- The record at a place of the ring; none where it is erased. -/
def Spi.logAt (p : Spi) (k : Nat) : Option LogRec := lget? p.log ((k + logCap - p.logPos % logCap + p.log.length) % logCap)
/-- Writes the buffered records, and behind them a LOG_LOST record where records found the buffer full. -/
def State.flushLog (s : State) : State :=
  if s.spi.holdsWrites then s
  else s.modSpi fun p =>
    let lost : List LogRec :=
      if p.logLost = 0 then [] else [{ w0 := BitVec.ofNat 64 (0xB * 2 ^ 48 + 7 * 2 ^ 20), w1 := BitVec.ofNat 64 s.time, w2 := BitVec.ofNat 64 p.logLost, w3 := 0 }]
    { (p.logBuf ++ lost).foldl Spi.logWrite p with logBuf := [], logLost := 0 }

/-! ### Learned records (R455, R456) -/

def Learned.bytes (e : Learned) : Nat := 16 + 8 * e.payload.length
def Learned.word0 (e : Learned) : W64 := lget 0 e.payload 0
/-- Header word 0 and the payload of an entry, as bytes. -/
def Learned.head (e : Learned) : List Byte := leBytes 8 (e.type * 2 ^ 48 + 8 * e.payload.length * 2 ^ 32 + e.seq.toNat)
def Learned.body (e : Learned) : List Byte := (e.payload.map fun w => leBytes 8 w.toNat).flatten
/-- CHK of an entry: the first 8 bytes of the SHAKE256 output over header word 0 and the payload. -/
def Learned.check (e : Learned) : W64 := BitVec.ofNat 64 (leWord ((shake256 (e.head ++ e.body)).take 8))
def Learned.valid (e : Learned) : Bool := e.chk == e.check
/-- The entries of a half as they are read: in order, up to the first invalid one (R455). -/
def LrHalf.read (h : LrHalf) : List Learned := h.entries.takeWhile Learned.valid
/-- The half with the highest generation that carries a COMPLETE mark; true names the second (R455). -/
def Spi.lrBest (p : Spi) : Option Bool :=
  if p.lrA.complete then some (p.lrB.complete && decide (p.lrA.gen < p.lrB.gen)) else if p.lrB.complete then some true else none
def Spi.half (p : Spi) (b : Bool) : LrHalf := if b then p.lrB else p.lrA
def Spi.modHalf (p : Spi) (b : Bool) (f : LrHalf → LrHalf) : Spi := if b then { p with lrB := f p.lrB } else { p with lrA := f p.lrA }
/-- The entries of the half in use. -/
def Spi.learned (p : Spi) : List Learned := (p.half p.lrUseB).entries
/-- What a later entry of the same type replaces: the site of a PATHBASE or MARGIN, all of BOOT. -/
def Learned.key (e : Learned) : Nat × Nat :=
  (e.type, if e.type = 4 ∨ e.type = 5 then bitsOf e.word0 63 55 else if e.type = 7 then 0 else 1 + e.seq.toNat)
/-- A later entry `f` replaces an entry: one with its key, or the first piece of a newer map for a piece of REMAP (R27). -/
def Learned.replacedBy (e f : Learned) : Bool := if e.type = 6 then f.type == 6 && f.word0 == remapHead 0 else f.key == e.key
/-- A CLEAR entry removes a DEFECT entry by its SEQ (R446). -/
def clears (l : List Learned) (e : Learned) : Bool := e.type == 1 && l.any fun c => c.type == 2 && c.word0 == BitVec.ofNat 64 e.seq.toNat
/-- The entries whose state still stands: what compaction writes into the other half (R455). -/
def compactAll (all : List Learned) : List Learned → List Learned
  | [] => []
  | e :: r =>
    if e.type = 2 ∨ e.type = 0 ∨ 7 < e.type ∨ clears all e = true ∨ (r.any e.replacedBy) = true then compactAll all r
    else e :: compactAll all r
def lrBytes (l : List Learned) : Nat := l.foldl (fun n e => n + e.bytes) 64
/-- Entries are appended to a half with their CHK. -/
def LrHalf.append (h : LrHalf) (l : List Learned) : LrHalf := { h with entries := h.entries ++ l.map fun e => { e with chk := e.check } }
/-- The next step of a compaction: a half in use that is 90 % full is written, as far as its state stands, into the other with the generation one higher; that one gets
its COMPLETE mark and is in use; the old half is erased (R455). -/
def Spi.compactStep (p : Spi) : Spi :=
  let h := p.half p.lrUseB
  if p.lrPhase = 1 then { p.modHalf (!p.lrUseB) fun x => { x with complete := true } with lrUseB := !p.lrUseB, lrPhase := 2 }
  else if p.lrPhase = 2 then { p.modHalf (!p.lrUseB) fun _ => {} with lrPhase := 0 }
  else if 0x200000 * 9 ≤ lrBytes h.entries * 10 then
    { p.modHalf (!p.lrUseB) fun _ => ({ gen := h.gen + 1 } : LrHalf).append (compactAll h.entries h.entries) with lrPhase := 1 }
  else p
/-- Appends the waiting entries to the half in use, and to the copy that a compaction has begun; then the compaction takes its next step (R455). A section without a half
in use begins one, with generation 1. -/
def State.writeLearned (s : State) : State :=
  if s.spi.holdsWrites then s
  else s.modSpi fun p =>
    let p := if (p.half p.lrUseB).complete then p else { p.modHalf p.lrUseB fun _ => { gen := 1, complete := true } with lrPhase := 0 }
    let q := p.modHalf p.lrUseB fun h => h.append p.lrWait
    let q := if p.lrPhase = 1 then q.modHalf (!p.lrUseB) fun h => h.append p.lrWait else q
    { q.compactStep with lrWait := [] }

end Sys2Proof.Machine
end

