-- ==== Sys2Proof/Machine/Power.lean ====
section
/-! DEFINITION. Power delivery (chapter 12, R384 to R408): the input, bus converters, phases, dips, resets by rail, input switches, paths, soft starts. -/

namespace Sys2Proof.Machine

def railCode : Rail → Nat
  | .vc => 0
  | .vs => 1
  | .vb => 2

/-! ### The input (R384, R398, R399, R408) -/

/-- A sample of the input: the lowest, and whether the input is below 40 V now (R407). VIN, the mean of a millisecond, comes with the telemetry. -/
def State.inputAt (s : State) (mv : Nat) : State := s.modPwr fun w => { w with vmin := min w.vmin mv, warn := decide (mv < 40000) }

/-- INPUT_WARN: the input has fallen below 40 V (R398): one event per 10 ms; three warnings within 10 ms lower every site's dip limit. -/
def execInputWarn (mv us_ : Nat) (s : State) : Out :=
  when_ (s.pwr.powered && decide (mv < 40000)) s <|
    let s := s.inputAt mv
    let times := (s.pwr.warnTimes.filter fun t => decide (s.time < t + 10 * ms)) ++ [s.time]
    let due := match s.pwr.warnEvtAt with
      | none => true
      | some t => decide (t + 10 * ms ≤ s.time)
    let three := decide (3 ≤ times.length)
    let s := s.modPwr fun w => { w with warned := true, warnTimes := if three then [] else times }
    let s := if due then
        (s.modPwr fun w => { w with warnEvtAt := some s.time, warns := if w.warns = 0xFFFF then w.warns else w.warns + 1 }).raisePanel 0x0410 mv us_
      else s
    if three ∧ s.svRuns = true then
      ok (allSites.foldl State.dipReduce s)
    else ok s
/-- Steps 1 and 2 of an orderly stop: every site's compute and SRAM dies are OFF (R399). -/
def State.stopAll (s : State) (mv : Nat) : State :=
  let s := (s.inputAt mv).modPwr fun w => { w with stopped := true }
  let s := s.raisePanel 0x0411 mv 0
  allSites.foldl (fun s p => if (s.site p).st = .dark then s else s.siteOff p) s
/-- ORDERLY_STOP (R399, R441, R461): with a service die the pending log and learned records are written; a command of SPI_CMD is abandoned. -/
def execOrderlyStop (mv : Nat) (s : State) : Out :=
  when_ (s.pwr.powered && !s.pwr.stopped && decide (mv < 36000)) s <|
    let s := s.stopAll mv
    let s := s.modSpi fun p => { p with cmdSt := 0, committing := none }
    if s.svRuns then ok s.flushLog.writeLearned.promise else ok s.promise
/-- INPUT_HIGH (R384). -/
def execInputHigh (mv : Nat) (s : State) : Out :=
  when_ (s.pwr.powered && decide (57000 < mv)) s <| ok ((s.inputAt mv).raisePanel 0x0412 mv 0).promise

/-- What the serial memory keeps without power; the written state of its sections (R450 to R458). -/
def Spi.kept (p : Spi) : Spi :=
  { copyA := p.copyA, copyB := p.copyB, image := p.image, imageLen := p.imageLen, lrA := p.lrA, lrB := p.lrB,
    log := p.log, logPos := p.logPos, logCnt := p.logCnt }
/-- The meter's own part (R508, R510). -/
def Mtr.kept (m : Mtr) : Mtr := { seq := m.seq, timeMs := m.timeMs, boots := m.boots, energy := m.energy, sealBit := m.sealBit, gap := m.gap, store := m.store }
/-- The panel without power (R384): the serial memory, the fuses, the meter and what the host has received stand; everything else is as before a cold power-on. -/
def State.unpower (s : State) (mv : Nat) : State :=
  { ({} : State) with
    pending := s.pending, time := s.time, freeN := s.freeN, spi := s.spi.kept, ses := { owner := s.ses.owner, svnMin := s.ses.svnMin }, mtr := s.mtr.kept
    host := { out := s.host.out }, pwr := { vin := mv } }
/-- INPUT_OVERVOLTAGE: above 60 V for 10 µs every converter stops (R384). -/
def execInputOvervoltage (mv : Nat) (s : State) : Out := when_ (s.pwr.powered && decide (60000 < mv)) s <| ok (s.unpower mv)
/-- INPUT_LOSS: below 30 V every converter stops (R384), and the meter is unpowered (R508). -/
def execInputLoss (mv : Nat) (s : State) : Out :=
  when_ (s.pwr.powered && decide (mv < 30000)) s <| ok ((s.unpower mv).modMtr fun m => { m with gap := true })
/-- PWR_IN_RESTORED: after a warning the input has stood at or above 44 V for 100 ms (R408). -/
def execPwrInRestored (mv : Nat) (s : State) : Out :=
  when_ (s.pwr.powered && s.pwr.warned && decide (44000 ≤ mv)) s <|
    ok (((s.inputAt mv).modPwr fun w => { w with warned := false }).raisePanel 0x041C mv 0).promise

/-! ### Converters (R385, R386) -/

def State.modConv (s : State) (g : Nat) (f : Conv → Conv) : State := s.modPwr fun w => { w with convs := tmod {} w.convs g f }
/-- CONVERTER_FAIL (R386): the partner carries both groups at derated budgets; the draught limit of failover stands until a service die has set them. With both
converters of a pair failed, all 16 sites go DARK. -/
def execConverterFail (g : Nat) (s : State) : Out :=
  let h := (g + 17) % 34
  when_ (decide (g < 34) && s.pwr.powered && s.pwr.convOn && (tget {} s.pwr.convs g).st != 1) s <|
    if (tget {} s.pwr.convs h).st = 1 then
      let s := (s.modConv g fun c => { c with st := 1 }).raisePanel 0x0413 g h
      ok ((groupSites g ++ groupSites h).foldl State.darken s).promise
    else
      let s := (s.modConv g fun c => { c with st := 1, budget := if s.svRuns then 700 else c.budget }).modConv h
        fun c => { c with st := 2, budget := if s.svRuns then 700 else c.budget }
      let s := (groupSites g ++ groupSites h).foldl (fun s p => s.modSite p fun x =>
        { x with ctl := { x.ctl with convK := if s.svRuns then x.ctl.convK else 8, msDr := true } }) s
      ok (s.raisePanel 0x0413 g h)

/-! ### Phases (R390 to R392) -/

/-- The highest-numbered phase still on VC. -/
def topVc (rails : List Nat) : Option Nat := ((rangeFrom 0 12).reverse).find? fun k => lget 3 rails k == 0
/-- PHASE_LOST: switched out; a phase of VC replaces one of VS or VB (R390). A fourth loss opens the input switch (R392), and a KIND 1 entry is
written (R476). -/
def execPhaseLost (site ph : Nat) (s : State) : Out :=
  onSite s site fun x =>
    when_ (decide (ph < 12) && x.st != .dark && !x.pwr.phFail.getLsbD ph) s <|
      let r := lget 3 x.pwr.phRail ph
      let rails := lset x.pwr.phRail ph 3
      let rails := if r = 1 ∨ r = 2 then match topVc rails with
          | some k => lset rails k r
          | none => rails
        else rails
      let fails := x.pwr.phFail ||| BitVec.ofNat 12 (2 ^ ph)
      let s := s.modSite site fun x => { x with pwr := { x.pwr with phFail := fails, phRail := rails } }
      let s := s.raiseSite 0x0415 site (siteWord site) fails.toNat
      if 4 ≤ popcount fails ∧ s.svRuns = true then
        ok ((s.isolate site 3).addDefect (defectWord 1 (site / 16) (site % 16) 0 0 0 0 8) false).promise
      else ok s

/-- A site whose phases were lost while no service die ran: four of them open its switch now (R392, R482). -/
def State.phasesChecked (s : State) (p : Nat) : State :=
  let x := s.site p
  if 4 ≤ popcount x.pwr.phFail ∧ x.pwr.sw ≠ .isolated then
    ((s.isolate p 3).addDefect (defectWord 1 (p / 16) (p % 16) 0 0 0 0 8) false).promise
  else s

/-- The lower voltage of a step that was reached while no service die ran to request it (R371, R482). -/
def State.railsFollow (s : State) (p : Nat) : State :=
  let x := s.site p
  if x.st = .active ∧ x.clk.ph = .none then s.setRails p (x.vcAt x.clk.cur) x.vsAt else s
/-- What waited at a site for a service die (R482). -/
def State.siteDue (s : State) (p : Nat) : State := (s.phasesChecked p).railsFollow p

/-! ### Reservoirs, dips, resets (R393 to R397) -/

/-- The charge a reservoir has, in ns of its full supply (R393): 200 once 20 µs have passed since it last engaged, and what it had left then until that time (log
entry 104). -/
def chargeAt (now : Nat) (r : Option Nat) (left : Nat) : Nat := match r with
  | some t => if t + 20 * us ≤ now then 200 else left
  | none => 200
/-- RESERVOIR_ENGAGE: a reservoir supplies its rail with the charge it has; a rail still low 20 ns later starts fast bubbles (R393, R394). How much of the charge a droop
takes is free. VB has no reservoir. -/
def execReservoirEngage (site : Nat) (rail : Rail) (stillLow : Bool) (s : State) : Out :=
  onSite s site fun x =>
    when_ (rail != .vb && x.st != .dark && x.st != .off) s <|
      let took := Config.freeNat s.freeN
      ok ((s.spendN 1).modSite site fun x =>
        let w := x.pwr
        { x with pwr := { w with resVc := if rail = .vc then some s.time else w.resVc, resVs := if rail = .vs then some s.time else w.resVs,
                                 leftVc := if rail = .vc then chargeAt s.time w.resVc w.leftVc - took else w.leftVc,
                                 leftVs := if rail = .vs then chargeAt s.time w.resVs w.leftVs - took else w.leftVs, fastBub := w.fastBub || stillLow } })
/-- FAST_BUBBLE_END: 1 µs after the rail is back within 2 % of its setpoint (R394). -/
def execFastBubbleEnd (site : Nat) (s : State) : Out :=
  onSite s site fun x => when_ x.pwr.fastBub s <| ok (s.modSite site fun x => { x with pwr := { x.pwr with fastBub := false } })

/-- A rail of a site has crossed its warning level, for `ns` up to now: a soft start of its group holds until the rail has been above it for 100 µs, and the time held is
counted (R405). -/
def State.rampHold (s : State) (p ns : Nat) : State :=
  (groupSites (groupOf p)).foldl (fun s q =>
    let w := (s.site q).pwr
    if w.soft = .ramping then
      let from_ := max (max w.softSince (s.time - ns)) w.holdEnd
      let til := s.time + 100 * us
      s.modSite q fun x => { x with pwr := { x.pwr with held := w.held + (til - from_), holdEnd := til } }
    else s) s
/-- RAIL_DIP: a ridden dip is logged for the telemetry sample; the first of a second raises its event; the third within 10 ms lowers the dip limit (R395, R396). -/
def execRailDip (site : Nat) (rail : Rail) (depth ns : Nat) (s : State) : Out :=
  onSite s site fun x =>
    when_ (x.st != .dark && decide (50 < depth) && (rail == .vb || x.st != .off)) s <|
      let s := s.rampHold site ns
      let times := (x.pwr.dips.filter fun t => decide (s.time < t + 10 * ms)) ++ [s.time]
      let three := decide (3 ≤ times.length) && s.svRuns
      let first := x.pwr.dipEvtSec != some s.second
      let deeper := decide (x.pwr.telDepth < depth)
      let s := s.modSite site fun x =>
        { x with pwr := { x.pwr with dips := if three then [] else times, lastDip := some s.time, dipEvtSec := some s.second, telDips := x.pwr.telDips + 1,
                                     telDepth := max x.pwr.telDepth depth, telNs := if deeper then ns else x.pwr.telNs } }
      let s := if first then s.raiseSite 0x0418 site (siteWord site) (railCode rail * 2 ^ 48 + depth % 256 * 2 ^ 40 + ns % 2 ^ 32) else s
      ok (if three then s.dipReduce site else s)
/-- DIP_LIMIT_RISE: after each full second without a further reduction (R396). -/
def execDipLimitRise (site : Nat) (s : State) : Out :=
  onSite s site fun x =>
    match x.pwr.lastReduce with
    | none => ok s
    | some t =>
      when_ (decide (x.clk.dipLim < 15 ∧ max t (x.pwr.lastRise.getD 0) + sec ≤ s.time) && s.svRuns) s <|
        ok ((s.modSite site fun x =>
          { x with clk := { x.clk with dipLim := x.clk.dipLim + 1 }, pwr := { x.pwr with lastRise := some s.time }, ctl := { x.ctl with msDr := true } }).relimit site)

/-- RAIL_RESET: a rail has stayed below its reset level for 50 ns (R397). -/
def execRailReset (site : Nat) (rail : Rail) (depth : Nat) (s : State) : Out :=
  onSite s site fun x =>
    when_ (x.st != .dark && (rail == .vb || x.st != .off)) s <|
      let s := (s.rampHold site 50).raiseSite 0x041A site (siteWord site) (railCode rail * 2 ^ 48 + depth % 256 * 2 ^ 40)
      match rail with
      | .vc => ok ((s.unsettle 2 site).siteReset site).promise
      | .vs => ok (((s.unsettle 2 site).siteOff site).askSoft site .vsReset).promise
      | .vb => ok ((s.darken site).modSite site fun x => { x with pwr := { x.pwr with rejoinDue := true } }).promise

/-! ### Input switches and paths (R400 to R402, R407) -/

/-- INPUT_SWITCH_OPEN: overcurrent (1) or overvoltage of a rail (2) (R400). -/
def execInputSwitchOpen (site cause : Nat) (rail : Rail) (s : State) : Out :=
  onSite s site fun x =>
    when_ (x.pwr.sw != .isolated && s.pwr.convOn && (cause == 1 || cause == 2)) s <|
      ok (s.isolate site (if cause = 2 then 2 + railCode rail * 256 else 1)).promise
/-- PATH_ANOMALY: the path resistance has stayed more than 30 %, or 60 %, above baseline for 10 ms (R402). -/
def execPathAnomaly (site ratio : Nat) (s : State) : Out :=
  onSite s site fun x =>
    when_ (decide (130 < ratio) && x.st != .dark && s.svRuns) s <|
      let s := s.modSite site fun x => { x with pwr := { x.pwr with pathRatio := ratio } }
      let s := if x.pwr.pathLim then s
        else (s.modSite site fun x => { x with pwr := { x.pwr with pathLim := true } }).raiseSite 0x0416 site (siteWord site) ratio
      if 160 < ratio ∧ x.clk.bankPath = false then
        ok (((s.modSite site fun x => { x with clk := { x.clk with bankPath := true } }).bankNow site).raiseSite 0x0417 site (siteWord site) ratio)
      else ok s

/-- A command of PWR_SITECMD for the port's selected site (R407): refused by ECODE where it does not apply. -/
def siteCmd (s : State) (port : Nat) (code : Site → Nat) (k : State → Nat → Out) : Out :=
  gated0 s port 0x10830 <|
    when_ s.svRuns s <|
      let v := (s.port port).sitesel
      let p := bitsOf v 8 4 * 16 + bitsOf v 3 0
      let e := if p < 272 then code (s.site p) else 1
      let s := s.modPwr fun w => { w with cmdErr := e != 0, cmdCode := e }
      if e = 0 then k s p else ok s
/-- CLEAR_PATH: a new 72 h refinement of the baseline; PATHLIM and PATHBANK end (R401, R402). -/
def execClearPath (port : Nat) (s : State) : Out :=
  siteCmd s port (fun x => if x.st = .dark then 1 else 0) fun s p =>
    ok ((s.modSite p fun x => { x with pwr := { x.pwr with pathLim := false, pathBase := none, pathRatio := 100, refining := true, refineSince := s.time },
                                       clk := { x.clk with bankPath := false } }).unbankNow p)
/-- ISOLATE (R400). -/
def execIsolate (port : Nat) (s : State) : Out :=
  siteCmd s port (fun x => if x.pwr.sw = .isolated then 1 else 0) fun s p => ok (s.isolate p 4).promise
/-- RESTORE: an isolated site may rejoin (R407, R448); one with 4 or more lost phases stays isolated (R392). -/
def execRestore (port : Nat) (s : State) : Out :=
  siteCmd s port (fun x => if x.pwr.sw ≠ .isolated then 1 else if 4 ≤ popcount x.pwr.phFail then 2 else 0) fun s p =>
    ok ((s.modSite p fun x => { x with pwr := { x.pwr with sw := .off, isoCause := 0, attempts := 0, rejoinDue := true } }))
/-- PATH_BASELINE_FROZEN: after 72 h the baseline is written to the learned records (R401); the entry holds PC, PR and the baseline in µΩ. -/
def execPathBaselineFrozen (site base : Nat) (s : State) : Out :=
  onSite s site fun x =>
    when_ (x.pwr.refining && decide (x.pwr.refineSince + 72 * hour ≤ s.time) && x.st != .dark && s.svRuns) s <|
      let s := s.modSite site fun x => { x with pwr := { x.pwr with refining := false, pathBase := some (BitVec.ofNat 16 base) } }
      ok (s.learn 4 [BitVec.ofNat 64 (site / 16 * 2 ^ 59 + site % 16 * 2 ^ 55 + base % 65536)])

/-! ### Soft starts (R403 to R405) -/

/-- The service die may schedule a site's soft start (R379, R403): the group is fed and the draw of its sites in the last millisecond, in mW, leaves room for 150 W
more, no other site of the group and no neighbour ramps, none of them asked before, and the node of an OFF site is back in the mesh. -/
def State.maySoft (s : State) (p : Nat) : Bool :=
  let x := s.site p
  let g := groupOf p
  let c := tget {} s.pwr.convs g
  let draw := ((groupSites g).map fun q => (s.site q).ctl.power).foldl (· + ·) 0
  s.svRuns && !s.pwr.stopped && s.groupFed g && decide (draw + 150000 ≤ c.budget * 1000) &&
    let yields (q : Nat) : Bool := (s.site q).pwr.soft != .ramping && !((s.site q).pwr.soft == .queued && decide ((s.site q).pwr.softTurn < x.pwr.softTurn))
    ((groupSites g).all fun q => q == p || yields q) &&
    (allFaces.all fun f => match siteNeighbour p f with
      | some q => yields q
      | none => true) &&
    (x.st == .dark || !x.clk.decoupled)
/-- SOFT_START: a queued soft start is scheduled (R403, R404). -/
def execSoftStart (site : Nat) (s : State) : Out :=
  onSite s site fun x =>
    when_ (x.pwr.soft == .queued && x.pwr.sw != .isolated && s.maySoft site) s <|
      ok (s.modSite site fun x => { x with pwr := { x.pwr with soft := .ramping, sw := .softstart, softSince := s.time, held := 0, holdEnd := s.time } })
/-- How long the ramp takes (R404, R448): VB alone for a DARK site, whose VS and VC follow after its node has recoupled; VS and VC otherwise; with what it was held
(R405). -/
def rampNs (x : Site) : Nat := (if x.st = .dark then 600 * us else 1400 * us) + x.pwr.held
/-- SOFT_START_DONE (R404, R448). With VB up the base die takes its firmware, its tables and remaps, and its node is yet to recouple: the site is OFF and asks for the second part. With VS
and VC up its SRAM and scratch are zeroed (R258) and it stands at step 0: ACTIVE, or in RESET until its rejoin ends. -/
def execSoftStartDone (site : Nat) (s : State) : Out :=
  onSite s site fun x =>
    when_ (x.pwr.soft == .ramping && s.groupFed (groupOf site) && (x.st != .dark || s.svRuns) && decide (x.pwr.softSince + rampNs x ≤ s.time)) s <|
      if x.st = .dark then
        let s := s.modSite site fun x =>
          { x with st := .off, routeGen := s.fab.gen, badRoutes := [], clk := { x.clk with decoupled := true, coupled := 0 },
                   pwr := { x.pwr with sw := .off, soft := .none, attempts := 0, vb := 750, vc := 0, vs := 0 } }
        ok ((s.nodeSeen site true).askSoft site .rejoin)
      else
        let s := (s.tilesOf site).foldl (fun s t => s.modTile t Tile.powerOff) s
        let rejoin := x.pwr.rejoining
        let s := s.modSite site fun x =>
          { x with st := if rejoin then .reset else .active, clk := { x.clk with cur := 0, req := 0, ph := .none, nextReq := none },
                   thm := { x.thm with heatOff := false },
                   pwr := { x.pwr with sw := .on, soft := .none, attempts := 0, vc := x.vcAt 0, vs := x.vsAt, settled := true } }
        ok ((s.bankNow site).remapHold site).promise
/-- How long a soft start has been held until now. -/
def heldFor (x : Site) (now : Nat) : Nat := x.pwr.held - (x.pwr.holdEnd - now)
/-- SOFT_START_ABANDON: held for more than 10 ms in total; after the third failure the site stays as it is (R405). -/
def execSoftStartAbandon (site : Nat) (s : State) : Out :=
  onSite s site fun x =>
    when_ (x.pwr.soft == .ramping && decide (10 * ms < heldFor x s.time)) s <|
      let n := x.pwr.attempts + 1
      let s := s.modSite site fun x =>
        { x with pwr := { x.pwr with soft := if 3 ≤ n then .none else .abandoned, sw := .off, attempts := n, softSince := s.time, rejoining := x.pwr.rejoining && decide (n < 3) } }
      ok (if 3 ≤ n then s.raiseSite 0x041B site (siteWord site) n else s)
/-- SOFT_START_RETRY: 100 ms after the abandon (R405). -/
def execSoftStartRetry (site : Nat) (s : State) : Out :=
  onSite s site fun x =>
    when_ (x.pwr.soft == .abandoned && x.pwr.sw != .isolated && decide (x.pwr.softSince + 100 * ms ≤ s.time) && s.svRuns) s <| ok (s.askSoft site x.pwr.softFor)

end Sys2Proof.Machine
end

