-- ==== Sys2Proof/Machine/Settings.lean ====
section
/-! DEFINITION. The settings of the serial memory (R451 to R454, R493) and their fields in force. -/

namespace Sys2Proof.Machine

/-- The `n` bytes of a field area at an offset, little-endian. -/
def fieldAt (l : List Byte) (off n : Nat) : Nat := leWord ((l.drop off).take n)
/-- A group's PRESENT bit (R453). -/
def present (l : List Byte) (g : Nat) : Bool := (fieldAt l 0 4).testBit g
/-- A number lies in a range. -/
def within (lo hi v : Nat) : Bool := decide (lo ≤ v ∧ v ≤ hi)

/-- A field of a group with its range: group, offset, bytes, lowest, highest. -/
structure Fld where
  group : Nat
  off : Nat
  bytes : Nat
  lo : Nat
  hi : Nat
deriving DecidableEq, Repr, Inhabited
/-- The ranges of R453 and R493; HLTDEF lies at 0x020. -/
def ranges (l : List Byte) : List Fld :=
  let susthr := let v := fieldAt l 0x22 1
    if within 65 254 v then v else 192
  [{ group := 0, off := 4, bytes := 1, lo := 0, hi := 63 }, { group := 1, off := 5, bytes := 1, lo := 0, hi := 4 },
   { group := 2, off := 6, bytes := 2, lo := 8000, hi := 40000 }, { group := 3, off := 0x16, bytes := 1, lo := 0, hi := 2 },
   { group := 4, off := 0x20, bytes := 1, lo := 0, hi := 5 }, { group := 4, off := 0x21, bytes := 1, lo := 0, hi := 5 },
   { group := 4, off := 0x22, bytes := 1, lo := 65, hi := 254 }, { group := 4, off := 0x23, bytes := 1, lo := 1, hi := susthr - 1 },
   { group := 4, off := 0x24, bytes := 1, lo := 0, hi := 1 }, { group := 4, off := 0x25, bytes := 1, lo := 0, hi := 64 },
   { group := 4, off := 0x26, bytes := 1, lo := 20, hi := 60 }, { group := 4, off := 0x27, bytes := 1, lo := 20, hi := 80 },
   { group := 4, off := 0x30, bytes := 2, lo := 1, hi := 65535 }]
/-- A field of a PRESENT group is in its range. -/
def fldOk (l : List Byte) (f : Fld) : Bool := !present l f.group || within f.lo f.hi (fieldAt l f.off f.bytes)
/-- The reserved bytes of the area and of HLTDEF, which are 0. -/
def reservedOk (l : List Byte) : Bool :=
  ((l.drop 0x17).take 9).all (· == 0) && ((l.drop 0x160).take 160).all (· == 0) &&
    (!present l 4 || (fieldAt l 0x2F 1 == 0 && ((l.drop 0x32).take 46).all (· == 0)))
/-- Every range checks (R454). -/
def settingsOk (l : List Byte) : Bool := (ranges l).all (fldOk l) && reservedOk l
/-- The groups with a field out of range (R453, R457). -/
def groupsDefaulted (l : List Byte) : Nat :=
  (rangeFrom 0 5).foldl (fun n g => if (ranges l).any fun f => f.group == g && !fldOk l f then n + 2 ^ g else n) 0

/-- A field's value, or its default where its group is absent or the value is out of range (R453). -/
def setting (l : List Byte) (g off n lo hi d : Nat) : Nat :=
  if present l g = true ∧ within lo hi (fieldAt l off n) = true then fieldAt l off n else d
def setPanel (l : List Byte) : Nat := setting l 0 4 1 0 63 0
def setCap (l : List Byte) : Nat := setting l 2 6 2 8000 40000 40000
/-- Break-even thresholds: the low 16 bits come from the settings, the others are those of the reset values (R121). -/
def setBev (l : List Byte) (dflt : List W32) : List W32 :=
  if present l 3 then (rangeFrom 0 7).map fun i => BitVec.ofNat 32 (fieldAt l (8 + 2 * i) 2) else dflt
def setBevMode (l : List Byte) : Nat := setting l 3 0x16 1 0 2 0
/-- The health defaults of HLTDEF (R491, R493). -/
def setHlt (l : List Byte) (h : Hlt) : Hlt :=
  let susthr := setting l 4 0x22 1 65 254 192
  let ps : List Nat := if present l 4 then (rangeFrom 0 7).map fun i => fieldAt l (0x28 + i) 1 else h.penalties
  { h with cadence := setting l 4 0x20 1 0 5 3, suscad := setting l 4 0x21 1 0 5 0, susthr, retthr := setting l 4 0x23 1 1 (susthr - 1) 64,
           auto := setting l 4 0x24 1 0 1 1 == 1, recover := setting l 4 0x25 1 0 64 8, guard := setting l 4 0x26 1 20 60 30,
           vsguard := setting l 4 0x27 1 20 80 40, penalties := ps, corrlim := setting l 4 0x30 2 1 65535 64 }
/-- An operator slot (R500): the digest of a key, all zeros where empty. -/
def opSlot (l : List Byte) (i : Nat) : List Byte := if present l 5 then (l.drop (0x60 + 32 * i)).take 32 else List.replicate 32 0
def slotEmpty (l : List Byte) (i : Nat) : Bool := (opSlot l i).all (· == 0)

/-! ### Copies (R452) -/

/-- Bytes 0x000 to 0x20F of a copy. -/
def copyHead (seq : W32) (fields : List Byte) : List Byte := leBytes 4 0x48535447 ++ leBytes 4 seq.toNat ++ leBytes 4 512 ++ leBytes 4 0 ++ fields
/-- A copy that the panel writes and signs (R454). -/
def signedCopy (seq : W32) (fields : List Byte) : Settings :=
  let d := shake256 (copyHead seq fields)
  { seq, fields, digest := d, sig := idSign d }
/-- A copy is valid (R452). -/
def Settings.valid (c : Settings) : Bool := c.digest == shake256 (copyHead c.seq c.fields) && verifies idKey c.digest c.sig
def validCopy (o : Option Settings) : Option Settings := match o with
  | some c => if c.valid then some c else none
  | none => none
/-- The valid copy with the higher SEQ: true names copy B. -/
def Spi.bestCopy (p : Spi) : Option (Bool × Settings) :=
  match validCopy p.copyA, validCopy p.copyB with
  | some a, some b => if a.seq < b.seq then some (true, b) else some (false, a)
  | some a, none => some (false, a)
  | none, some b => some (true, b)
  | none, none => none

end Sys2Proof.Machine
end

