-- ==== Sys2Proof/Machine/BringUp.lean ====
section
/-! DEFINITION. Bring-up (R437 to R449), the remaps of cold power-on (R18 to R27), recovery and updates (R460 to R462), settings commits (R454), and the rejoin of a
single site (R448). -/

namespace Sys2Proof.Machine

/-! ### Learned records at bring-up (R444, R446, R455, R456) -/

/-- The entries that a bring-up reads (R455). -/
def Spi.entries (p : Spi) : List Learned := match p.lrBest with
  | some b => (p.half b).read
  | none => []
/-- The learned DEFECT entries in force. -/
def Spi.learnedDefects (p : Spi) : List Learned := p.entries.filter fun e => e.type == 1 && !clears p.entries e
/-- BOOTNUM of the newest BOOT entry. -/
def Spi.lastBoot (p : Spi) : Nat := match (p.entries.filter fun e => e.type == 7).getLast? with
  | some e => e.word0.toNat
  | none => 0
/-- The reconciled map before self-test: fuse map and learned map (R444); a unit both name is one entry. -/
def State.baseDefects (s : State) : List Defect :=
  let fuse : List Defect := Config.fuseDefects.map fun w => { word0 := w, srcFuse := true, srcLearned := false, srcTest := false, seq := 0 }
  s.spi.learnedDefects.foldl (fun l e =>
    if l.any fun d => unitOf d.word0 == unitOf e.word0 then
      l.map fun d => if unitOf d.word0 = unitOf e.word0 then { d with word0 := e.word0, srcLearned := true, seq := e.seq } else d
    else l ++ [{ word0 := e.word0, srcFuse := false, srcLearned := true, srcTest := false, seq := e.seq }]) fuse
/-- A unit found bad at bring-up (R443 to R445): NEW_FINDING and a DEFECT entry unless a map names it already. -/
def State.bootFound (s : State) (u : BadUnit) : State :=
  let w := BadUnit_word u (if u.kind = 4 then 9 else 1)
  if s.knownBad u then
    s.modHlt fun h => { h with defects := h.defects.map fun d => if unitOf d.word0 = unitOf w then { d with srcTest := true } else d }
  else (s.bootLog 0x0007 w.toNat 1).addDefect w true

/-- The margin table of a site from its newest MARGIN entry (R456, R488, R493). Times are those of this bring-up. -/
def marginOf (e : Learned) (m : SiteMrg) : SiteMrg :=
  let w (i : Nat) : Nat := (lget 0 e.payload i).toNat
  let byte (i : Nat) : Nat := w (2 + i / 8) / 256 ^ (i % 8) % 256
  let nib (b i : Nat) : Nat := w (b + i / 16) / 16 ^ (i % 16) % 16
  let trims := (rangeFrom 0 16).foldl (fun t k => tput 0 t k (byte k)) []
  let margin := w 0 % 256
  let v15 := 750 + tget 0 trims 15 - margin
  let age := w 0 / 2 ^ 32 % 65536
  { m with siteCeil := w 0 / 2 ^ 48 % 16, age, sweeps := w 0 / 2 ^ 16 % 65536, vsSet := 700 + 5 * (w 0 / 256 % 256), margin15 := margin, trims
           cellCeil := (rangeFrom 0 30).foldl (fun t k => tput 15 t k (nib 4 k)) [],
           cellFlt := (rangeFrom 0 30).foldl (fun t k => tput [] t k (List.replicate (nib 6 k) 0)) [], firstV15 := some (v15 - age / 2), sweptWord := lget 0 e.payload 1 }
def Spi.newest (p : Spi) (type site : Nat) : Option Learned :=
  (p.entries.filter fun e => e.type == type && bitsOf e.word0 63 59 * 16 + bitsOf e.word0 58 55 == site).getLast?

/-! ### Sites and remaps (R18 to R27) -/

/-- The positions of a tile row that are bad. -/
def State.badPositions (s : State) (p tr : Nat) : List Nat := (rangeFrom 0 17).filter fun pos => s.posBad p tr pos
/-- A remap row built in rising order around a spare (R19, R24); around 16 it is the identity, which has no entry. -/
def remapAround (spare : Nat) : List Nat := if spare = 16 then [] else (rangeFrom 0 17).filter fun x => x != spare
/-- The tile remaps of a site (R19). -/
def State.tileMaps (s : State) (p : Nat) : Tbl (List Nat) :=
  (rangeFrom 0 8).foldl (fun t tr => match s.badPositions p tr with
    | b :: _ => tput [] t tr (remapAround b)
    | [] => t) []
/-- Holes that the rows of a site would hold: bad positions beyond the first of a row. -/
def State.rowHoles (s : State) (p tr : Nat) : Nat := (s.badPositions p tr).length - 1
def State.holesOf (s : State) (p : Nat) : Nat := ((rangeFrom 0 8).map (s.rowHoles p)).foldl (· + ·) 0
/-- The base die failed: no rail came up, or a map or self-test names it (R24, R386, R392, R441). -/
def State.baseBad (s : State) (env : BringUpEnv) (p : Nat) : Bool := s.dieBad 1 p || env.baseFails.contains p || !s.groupFed (groupOf p)
/-- A site whose compute and SRAM dies do not come up: a soft start failed three times, or its node did not recouple (R441). -/
def BringUpEnv_dead (env : BringUpEnv) (p : Nat) : Bool := env.coreFails.contains p || env.nodeFails.contains p
/-- The compute or SRAM die failed, or ranks so (R24, R441). -/
def State.coreBad (s : State) (env : BringUpEnv) (p : Nat) : Bool := s.dieBad 2 p || s.dieBad 3 p || BringUpEnv_dead env p
/-- The rank of a site for its row's spare, lowest first (R24); rank 4 is ordered by the number of holes. -/
def State.spareRank (s : State) (env : BringUpEnv) (p : Nat) : Nat :=
  if s.baseBad env p then 0
  else if s.coreBad env p then 1
  else if 2 < ((rangeFrom 0 8).filter fun tr => 0 < s.rowHoles p tr).length then 2
  else if 0 < s.holesOf p then 1000 - s.holesOf p
  else if p / 16 = 16 then 1000 else 1001
/-- The spare site of a row: the first rank, and within it the highest column (R24). -/
def State.chooseSpare (s : State) (env : BringUpEnv) (row : Nat) : Nat :=
  match firstBy (fun c => s.spareRank env (c * 16 + row) * 32 + (16 - c)) (rangeFrom 0 17) with
  | some c => c
  | none => 16
/-- A site after steps 5 to 8 of bring-up, with its margins and baseline (R438). -/
def State.freshSite (s : State) (env : BringUpEnv) (p : Nat) : Site :=
  if s.baseBad env p then { st := .dark, tmap := s.tileMaps p, pwr := { sw := .off } }
  else
    let off := s.coreBad env p
    let nb (f : Face) : Bool := match siteNeighbour p f with
      | some q => !s.baseBad env q
      | none => false
    let joins (f : Face) : Bool := nb f && !env.nodeFails.contains p && !(siteNeighbour p f).any fun q => env.nodeFails.contains q
    let bits (g : Face → Bool) : BitVec 4 := allFaces.foldl (fun b f => if g f then b ||| faceBit f else b) 0
    let m : SiteMrg := match s.spi.newest 5 p with
      | some e => marginOf e {}
      | none => {}
    let base := (s.spi.newest 4 p).map fun e => BitVec.ofNat 16 e.word0.toNat
    let pwr : SitePwr := { sw := if off then .off else .on, vb := 750, pathBase := base, refining := base.isNone, refineSince := s.time }
    Site.alone { st := if off then .off else .active, tmap := s.tileMaps p, mrg := m,
                 clk := { present := bits nb, coupled := bits joins, decoupled := env.nodeFails.contains p }, pwr } p
/-- Steps 5 to 8 and the remaps of step 11: sites, site remaps, holes, spares, effective steps. A spare site is BANKED whatever chose it, but for a failed base die
(R26); dies that did not come up stay unpowered (R441; log entry 100). -/
def State.kindle (s : State) (env : BringUpEnv) : State :=
  let smap : Tbl (List Nat) := (rangeFrom 0 16).foldl (fun t r => tput [] t r (remapAround (s.chooseSpare env r))) []
  let s := allSites.foldl (fun a p => a.setSite p (s.freshSite env p)) s
  let s := s.modHlt fun h => { h with smap }
  let s := (rangeFrom 0 256).foldl (fun s S =>
    let p := s.phys S
    if s.coreBad env p then (siteTiles S).foldl (fun s t => s.modTile t fun T => { T with st := .hole }) s
    else (siteTiles S).foldl (fun s t => if s.posBad p (tileTR t) (s.tilePos t) then s.modTile t fun T => { T with st := .hole } else s) s) s
  allSites.foldl (fun s p =>
    let x := s.site p
    if x.st = .dark then s
    else if (s.logical p).isNone then
      s.modSite p fun x => { x with st := .banked, clk := { x.clk with bankSpare := true },
                                    pwr := if BringUpEnv_dead env p then x.pwr else { x.pwr with sw := .on, vc := 550, vs := 650 } }
    else if x.st ≠ .active then s
    else
      let k := s.stepCeiling p
      (s.modSite p fun x => { x with clk := { x.clk with cur := k, req := k }, pwr := { x.pwr with vc := x.vcAt k, vs := x.vsAt } }).relimit p) s

/-! ### DDR channels (R273 to R275, R282) -/

/-- A module the panel supports (R273). -/
def dimmOk (d : Dimm) : Bool := (d.gb == 32 || d.gb == 64 || d.gb == 96 || d.gb == 128) && d.kind != .udimm && d.by4 && d.eccBits == 8 && decide (d.stack ≤ 4)
/-- The best mode that trains (R274): RATE of MEC_STATUS, 0 where none does. -/
def dimmRate (d : Dimm) : Nat := if !dimmOk d then 0 else if d.kind = .mrdimm && !d.fails8800 then 2 else if !d.fails6400 then 1 else 0
/-- The recorded row of a DDRROW entry: its channel and its row (R282, R456; log entry 81). -/
def Learned.ddrRow (e : Learned) : Option (Nat × Nat) := if e.type = 3 then some (bitsOf e.word0 63 56, bitsOf e.word0 55 0 / 64 / 128) else none
/-- Trains a channel with its modules (R274, R275): one supported module comes up. A recorded row with a spare row is repaired and leaves the record; the others stay
in it (R282). -/
def State.trainChannel (s : State) (modules : List Dimm) (ch : Nat) : State :=
  match modules.filter fun d => d.channel == ch with
  | [] => s
  | [d] =>
    if dimmRate d = 0 then s.setChan ch { st := 1 }
    else
      let rows := (s.spi.entries.filterMap Learned.ddrRow).filterMap fun r => if r.1 = ch then some r.2 else none
      let mends (r : Nat) : Bool := d.spareRows.contains r
      let s := s.modSpi fun p => p.modHalf p.lrUseB fun h => { h with entries := h.entries.filter fun e => match e.ddrRow with
        | some r => !(r.1 == ch && mends r.2)
        | none => true }
      s.setChan ch { st := 2, kind := if d.kind = .mrdimm then 2 else 1, rate := dimmRate d, cap := d.gb / 8, repaired := (rows.filter mends).length,
                     rows := rows.filter fun r => !mends r }
  | _ => s.setChan ch { st := 1 }

/-! ### Steps of bring-up (R438, R441) -/

/-- Ports 1 to 3 keep their links in Detect (R442, R462). -/
def State.portsDetect (s : State) : State :=
  [1, 2, 3].foldl (fun s q => s.modPort q fun p => { p with link := false, width := 0, gts10 := 0, cutLink := true, downSeen := true }) s
/-- Recovery (R441, R462): only the perimeter dies are powered, on mask ROM. -/
def State.recovery (s : State) (cause : Nat) : State :=
  ((s.modSpi fun p => { p with stage := .recovery, cause }).portsDetect).bootLog 0x0004 cause 0
/-- FAILED: every site is powered down (R442). -/
def State.bootFails (s : State) (cause : Nat) (stage : Nat) : State :=
  let s : State := { s with sites := allSites.map fun p => (p, ({ st := .dark } : Site)), tiles := [], hlt := { s.hlt with smap := [] } }
  let s := s.modPwr fun w => { w with convOn := false }
  ((s.modSpi fun p => { p with stage := .failed, cause }).portsDetect).bootLog 0x0003 cause stage
/-- The converters of step 4, with those that fail (R386, R441). -/
def bootConvs (fails : List Nat) : Tbl Conv :=
  (rangeFrom 0 34).foldl (fun t g =>
    let bad := fails.contains g
    let mate := fails.contains ((g + 17) % 34)
    if bad then tput {} t g { st := 1, budget := 700 } else if mate then tput {} t g { st := 2, budget := 700 } else t) []
/-- The settings take effect from the newest valid copy, else from their defaults, and the boot logs its first records (R438). -/
def State.bootSettings (s : State) (env : BringUpEnv) (svb : SvSt) (byB : Bool) : State :=
  let best := s.spi.bestCopy
  let fields := match best with
    | some (_, c) => c.fields
    | none => List.replicate 512 0
  let s := s.modSpi fun p =>
    { p with stage := .image, setdef := best.isNone, useB := match best with
               | some (b, _) => b
               | none => false
             lrUseB := p.lrBest.getD false, lrPhase := 0
             fields, staging := memPutList [] 0 fields, lrlost := p.lrBest.isNone, bootNum := BitVec.ofNat 32 (p.lastBoot + 1), runHdr := memGetList p.image 0 0x3000,
             runDig := imgDigest p.image, lrNext := match p.entries.getLast? with
               | some e => e.seq + 1
               | none => 0 }
  let s := s.modSpi fun p => p.modHalf p.lrUseB fun h => { h with entries := h.read }
  let s := { s with bev := setBev fields s.bev, bevMode := setBevMode fields }
  let s := s.modCap fun c => { c with cap := setCap fields }
  let s := s.modHlt (setHlt fields)
  let s := s.modRick fun r => { r with panel := setPanel fields, master := setPanel fields == 0 }
  let s := s.modSes fun x => { x with prov := env.strapProv && (rangeFrom 0 8).all (slotEmpty fields) }
  let s := s.bootLog 0x0001 s.spi.bootNum.toNat (imgBuild s.spi.image)
  let s := if s.spi.lrlost then s.bootLog 0x000C 0 0 else s
  let s := if groupsDefaulted fields = 0 then s else s.bootLog 0x0005 (groupsDefaulted fields) 0
  if svb = .failed ∧ byB = false then s.raisePanel 0x050B 1 2 else s
/-- A seam or edge-face link that keeps three or more failing wires of one group is found bad (R443). -/
def foundLinks (wires : List (LinkId × List Nat)) : List BadUnit :=
  (wires.filter fun w => linkKind w.1 != 0 && !passes w.1 w.2).map fun w => linkUnit w.1
/-- Links that have trained: those that pass hold their wires' repairs; a link inside a base die that fails stays down until cold power-on (R242). -/
def State.trainLinks (s : State) (wires : List (LinkId × List Nat)) : State :=
  let s := (wires.filter fun w => passes w.1 w.2).foldl (fun s w => s.spares w.1 w.2) s
  (wires.filter fun w => linkKind w.1 == 0 && !passes w.1 w.2).foldl (fun s w => s.linkBad (linkRouter w.1)) s
/-- Steps 7 and 9 judge a unit: dies, tile positions, routers and slices of a site that has power; a link that trained, between two base dies that have power, or to an
edge die (R443, R445). -/
def BringUpEnv_judges (env : BringUpEnv) (fed : Nat → Bool) (u : BadUnit) : Bool :=
  let p := BadUnit_site u
  if u.kind = 4 then
    let l := faceLink u
    fed p && !env.linksDown.any (sameLink l) && match linkMate l with
      | some m => fed m.site
      | none => true
  else fed p && (u.kind == 1 || !BringUpEnv_dead env p)
/-- The rest of R438 where a reference runs: converters, soft starts, links, the units found bad, health, publishing, DDR. The site numbers of the events of R405 and
R379 are not known before the remaps are built: SOURCE is 0x1FF (log entry 9). STAGE stands at IMAGE; idle cycles show the stages that follow (log entry 1). -/
def State.bootPanel (s : State) (env : BringUpEnv) : State :=
  let s := s.modClk fun k =>
    { k with refA := env.refA, refB := env.refB, locked := true,
             losses := (if env.refA then [] else [(0, s.time)]) ++ (if env.refB then [] else [(1, s.time)]) }
  let s := s.modPwr fun w => { w with convOn := true, convs := bootConvs env.convFails }
  let s := env.convFails.foldl (fun s g => if g < 34 then s.raisePanel 0x0413 g ((g + 17) % 34) else s) s
  let unfed (p : Nat) : Bool := env.baseFails.contains p || !s.groupFed (groupOf p)
  let s := (env.baseFails ++ env.coreFails).foldl (fun s p => if p < 272 then s.raise { code := 0x041B, kind := 2, source := 0x1FF, d0 := siteWord p, d1 := 3 } else s) s
  let s := env.nodeFails.foldl (fun s p => if p < 272 then s.raise { code := 0x0402, kind := 2, source := 0x1FF, d0 := siteWord p, d1 := 15 } else s) s
  let s := s.modFab fun f => { f with down := env.linksDown, dead := [], wires := [] }
  let s := s.modHlt fun h => { h with defects := s.baseDefects }
  let found := env.foundBad ++ foundLinks env.wires
  let s := s.trainLinks env.wires
  let s := s.disagree (BringUpEnv_judges env fun p => !unfed p) found
  let s := s.tagTests (allSites.filter fun p => !unfed p && !BringUpEnv_dead env p) env.foundBad env.suspects
  let s := found.foldl State.bootFound s
  let s := (s.hlt.defects.filter fun d => bitsOf d.word0 63 60 == 4).foldl (fun s d => s.linkBad (faceLink (wordUnit d.word0))) s
  let s := s.learn 7 [BitVec.ofNat 64 s.spi.bootNum.toNat]
  let s := s.kindle env
  let s := env.suspects.foldl State.foundSuspect s
  let s := s.learnRemap
  let s := s.publishRoutes
  let s := (rangeFrom 0 32).foldl (State.trainChannel · env.dimms) s
  if (allSites.any fun p => (s.site p).st == .active) = false then s.bootFails 0x11 6
  else (s.modSpi fun p => { p with ddrZeroed := true }).writeLearned
/-- A service die that has failed is unsettled until it has been reset (R465). -/
def State.svUnsettled (s : State) : State :=
  let s := if s.hlt.sva = .failed then s.unsettle 4 0 else s
  if s.hlt.svb = .failed then s.unsettle 4 1 else s
/-- Steps 3 to 13 by the service die that has the bus. -/
def State.bootFrom (s : State) (env : BringUpEnv) (byB : Bool) : State :=
  let check := imageCheck s.spi.image s.ses.owner s.ses.svnMin
  let svb : SvSt := if byB then .active else if env.svbChecks then .standby else .failed
  let s := (s.modHlt fun h => { h with sva := if byB then .failed else .active, svb }).svUnsettled
  let s := s.modSpi fun p => { p with svbok := !byB && env.svbChecks && check == 0 && env.flashAlive }
  if env.strapRecov then s.recovery 6
  else if !env.flashAlive then s.recovery 5
  else if check ≠ 0 then s.recovery (bootCauseOf check)
  else
    let s := s.bootSettings env svb byB
    if env.refA = false ∧ env.refB = false then s.bootFails 0x10 2 else s.bootPanel env
/-- Bring-up from step 2 (R438, R449): where SV-A does not read the serial memory, it waits for SV-B (R441). -/
def State.bringUp (s : State) (env : BringUpEnv) : State :=
  let s := s.modSpi fun p => { p with boot := some env, strap := env.strapRecov, strapProv := env.strapProv, t0 := s.time }
  let s := s.modPwr fun w => { w with powered := true, vin := env.vin }
  if env.svaReads then s.bootFrom env false else s

/-- COLD_POWER_ON: the input has stood at or above 44 V for 10 ms; the timebase counts from 0 (R360, R437, R438). -/
def execColdPowerOn (env : BringUpEnv) (s : State) : Out :=
  when_ (!s.pwr.powered && decide (44000 ≤ env.vin ∧ env.vin ≤ 60000)) s <|
    let s : State := { s.unpower env.vin with time := 0 }
    let s := s.modMtr fun m => { m with boots := if m.gap ∨ m.boots = 0 then m.boots + 1 else m.boots }
    ok (s.bringUp env)
/-- SV_B_TAKEOVER: SV-A has not read the serial memory 50 ms after reset (R441). -/
def execSvBTakeover (s : State) : Out :=
  match s.spi.boot with
  | some env => when_ (s.pwr.powered && !s.pwr.stopped && s.spi.stage == .rom && !env.svaReads) s <| ok (s.bootFrom env true)
  | none => ok s
/-- Milliseconds from t0. -/
def State.bootMsNow (s : State) : Nat := (s.time - s.spi.t0) / ms
/-- The next stage that SPI_BOOT shows (R463). -/
def Stage.next : Stage → Stage
  | .image => .base
  | .base => .train
  | .train => .compute
  | .compute => .selftest
  | .selftest => .publish
  | x => x
/-- An idle cycle of a bring-up that goes on (R438; log entry 1). -/
def State.bootTick (s : State) : State := if s.pwr.stopped then s else s.modSpi fun p => { p with stage := p.stage.next }
/-- A site is in a state of R437: DARK, ACTIVE at its effective step, BANKED as a spare, or OFF with every tile a HOLE. -/
def State.siteReady (s : State) (p : Nat) : Bool :=
  let x := s.site p
  x.st == .dark || (x.st == .active && x.clk.cur == s.stepCeiling p) || (x.st == .banked && (s.logical p).isNone)
    || (x.st == .off && (s.tilesOf p).all fun t => (s.tile t).st == .hole)
/-- READY (R437, R457): the sites, remaps, routes and DDR are ready. -/
def execReady (s : State) : Out :=
  when_ (s.spi.stage == .publish && s.spi.ddrZeroed && s.pwr.powered && !s.pwr.stopped && allSites.all s.siteReady) s <|
    let n := (allSites.filter fun p => (s.site p).st == .active).length
    let s := s.modSpi fun p => { p with stage := .ready, bootMs := min s.bootMsNow 65535 }
    ok (s.bootLog 0x0002 s.bootMsNow n).promise

/-! ### SPI_CMD (R449, R454, R460 to R463) -/

/-- A command of SPI_CMD is running (R461). -/
def Spi.running (p : Spi) : Bool := decide (1 ≤ p.cmdSt ∧ p.cmdSt ≤ 5) || p.committing.isSome
/-- The port reaches SPI_ registers: port 0 of a ready panel, of one in recovery, or of one that has FAILED (R442, R462, R463). -/
def State.spiReach (s : State) (port : Nat) : Bool :=
  port == 0 && (s.port port).link && !(s.port port).cutLink && !(s.port port).cutFlr && !(s.port port).d3hot &&
    (s.isReady || s.inRecovery || s.spi.stage == .failed) && s.svRuns
/-- A command of SPI_CMD is refused or accepted: CMD and ECODE show it (R463). -/
def State.spiRefuse (s : State) (cmd ecode : Nat) : State := s.modSpi fun p => { p with cmdLast := cmd, cmdEcode := ecode }
/-- A command of SPI_CMD, with the session it needs unless `free` (R461, R463). -/
def spiCmd (s : State) (port cmd : Nat) (free : Bool) (k : State → Out) : Out :=
  if !s.spiReach port then ok s
  else if !free && !s.hasSession port then ok ((s.denied port 0x28054).spiRefuse cmd 1)
  else if s.spi.running then ok (s.spiRefuse cmd 2)
  else k (s.spiRefuse cmd 0)
/-- PANEL_RESET: bring-up runs again from step 2 with the input on (R449); the fields that every reset but a cold power-on keeps, SRAM_ERRADDR, stand. -/
def execPanelReset (port : Nat) (env : BringUpEnv) (s : State) : Out :=
  spiCmd s port 3 (!s.isReady) fun s =>
    let s := ((s.bootLog 0x000A 0 0).flushLog).writeLearned
    let kept := s.tiles
    let s : State := { s.unpower s.pwr.vin with time := 0 }
    let s := s.bringUp { env with vin := s.pwr.vin }
    ok (kept.foldl (fun s e => if e.2.errSeen then s.modTile e.1 fun T => { T with errAddr := e.2.errAddr, errSeen := true } else s) s)

/-- SETTINGS_COMMIT: the staged field area is checked and taken (R454); refused in recovery (R462). -/
def execSettingsCommit (port : Nat) (s : State) : Out :=
  if s.inRecovery && s.spiReach port then ok (s.spiRefuse 2 12)
  else
    spiCmd s port 2 false fun s =>
      let fields := memGetList s.spi.staging 0 512
      if settingsOk fields then ok (s.modSpi fun p => { p with committing := some fields }) else ok (s.spiRefuse 2 11)
/-- SEQ of a commit: one above the newest valid copy. It goes into the copy that is not in use; with neither in use, into the one that is not the newest (R452, R454,
R498; log entry 101). -/
def Spi.nextSeq (p : Spi) : W32 := match p.bestCopy with
  | some (_, c) => c.seq + 1
  | none => 1
def Spi.toB (p : Spi) : Bool := if p.setdef then (match p.bestCopy with
  | some (b, _) => !b
  | none => false) else !p.useB
def Spi.putCopy (p : Spi) (c : Option Settings) : Spi := if p.toB then { p with copyB := c } else { p with copyA := c }
/-- SETTINGS_COMMIT_DONE: the signed copy has been written in the place of the other one and read back (R454): DONE with its record; or, a free choice, FAILED with ECODE
9 for a program error or 10 for a mismatch, and no valid copy in that place (R463; log entry 101). -/
def execSettingsCommitDone (s : State) : Out :=
  match s.spi.committing with
  | none => ok s
  | some fields =>
    when_ s.svRuns s <|
      let c := signedCopy s.spi.nextSeq fields
      let e := if Config.freeBool s.freeN then 0 else if Config.freeBool (s.freeN + 1) then 9 else 10
      let s := s.spendN 2
      let s := s.modSpi fun p => { p.putCopy (if e = 0 then some c else none) with committing := none, cmdSt := if e = 0 then 6 else 7, cmdEcode := e, progress := 100 }
      ok (if e = 0 then s.bootLog 0x0009 c.seq.toNat 0 else s)

/-- UPDATE: the panel begins to fetch the image (R460); recovery needs no session (R462). SPI_UPLEN out of range fails at once (ECODE 8). -/
def execUpdate (port : Nat) (s : State) : Out :=
  spiCmd s port 1 s.inRecovery fun s =>
    if imgLenOk (s.spi.upLen - 0x3000) = false ∨ s.spi.upLen < 0x3000 then
      ok ((s.modSpi fun p => { p with upBuf := [] }).updateEnds 8)
    else ok (s.modSpi fun p => { p with cmdSt := 1, progress := 0, upBuf := [], upGot := 0, upAsked := 0 }).updateAsk
/-- UPDATE_DONE: the end of an update whose sectors have been erased: 9 an erase or program error in any of its steps; with the image written, 10 a readback mismatch, or
0, and R459 is applied again to what was written (R460, R461). From recovery a DONE restarts bring-up from step 2, unless the strap is still asserted (R462, R546). -/
def execUpdateDone (x : UpdateEnd) (s : State) : Out :=
  let checks := s.spi.cmdSt == 5 && (x.result == 0 || x.result == 10)
  let fails := decide (3 ≤ s.spi.cmdSt ∧ s.spi.cmdSt ≤ 5) && x.result == 9
  when_ (s.svRuns && (checks || fails)) s <|
    let e := if x.result = 0 then s.updateCheck else x.result
    let s := if e = 0 then s.modSpi fun p => { p with image := p.upBuf, imageLen := p.upLen } else s
    let s := s.updateEnds e
    match s.spi.boot with
    | some env =>
      if e == 0 && s.inRecovery && !x.strap then
        let s := s.flushLog
        ok (({ s.unpower s.pwr.vin with time := 0 } : State).bringUp { env with strapRecov := false, strapProv := x.prov })
      else ok s
    | none => ok s

/-! ### The journal and the log (R455, R457) -/

/-- LEARNED_APPEND: the waiting entries, or the next step of a compaction. -/
def execLearnedAppend (s : State) : Out := when_ (s.svRuns && (!s.spi.lrWait.isEmpty || s.spi.lrPhase != 0)) s <| ok s.writeLearned
/-- LOG_FLUSH. -/
def execLogFlush (s : State) : Out := when_ (s.svRuns && (!s.spi.logBuf.isEmpty || s.spi.logLost != 0)) s <| ok s.flushLog

/-! ### Rejoining a single site (R448) -/

/-- SITE_REJOIN: after a RESTORE or a base-die reset the service die schedules the first part of the soft start. -/
def execSiteRejoin (site : Nat) (s : State) : Out :=
  onSite s site fun x =>
    when_ (x.pwr.rejoinDue && x.pwr.sw != .isolated && s.svRuns && s.pwr.convOn && !s.pwr.stopped) s <|
      let s := s.modSite site fun x => { x with pwr := { x.pwr with rejoinDue := false, rejoining := true, rejoinAt := s.time } }
      ok (s.askSoft site .rejoin)
/-- The milliseconds of a rejoin from the start of its soft start (R448, R494). -/
def State.rejoinMs (s : State) (p : Nat) : Nat := (s.time - (s.site p).pwr.rejoinAt) / ms
/-- SITE_REJOINED: the training of its links and the rejoin test's findings apply to the site (R242, R443, R447), which is ACTIVE at step 0; a base die that fails the
test, a new finding, goes DARK with its KIND 1 entry (R445, R476). -/
def execSiteRejoined (site : Nat) (found suspects : List BadUnit) (wires : List (LinkId × List Nat)) (s : State) : Out :=
  onSite s site fun x =>
    when_ (x.pwr.rejoining && x.st == .reset && s.svRuns) s <|
      let guarded := match x.part with
        | some q => (s.partn q).cur.guarded && (s.partn q).st != .undefined
        | none => false
      let s := (s.tilesOf site).foldl (fun s t => s.modTile t fun T => { T.zeroed with guarded, ld := {} }) s
      let d1 := s.rejoinMs site
      let s := s.modSite site fun x => { x with st := .active, pwr := { x.pwr with rejoining := false } }
      let mine := wires.filter fun w => (linkRouter w.1).site == site || (linkRouter (linkOther w.1)).site == site
      let s := s.trainLinks mine
      let base := found.any fun u => BadUnit_kind u == 1 && BadUnit_site u == site
      let s := s.findings 0x02 [site] true (found.filter (fun u => BadUnit_kind u != 1) ++ (foundLinks mine).filter fun u => BadUnit_site u == site) suspects
      let s := s.settle 2 site
      if base then
        let w := defectWord 1 (site / 16) (site % 16) 0 0 0 0 8
        let s := if s.dieBad 1 site then s else s.bootLog 0x0007 w.toNat 1
        ok ((s.addDefect w true).darken site).promise
      else ok (((s.bankNow site).remapHold site).raiseSite 0x0507 site (s.siteSource site) d1).promise

end Sys2Proof.Machine
end

