-- ==== Sys2Proof/Machine/Cache.lean ====
section
/-! DEFINITION. Site cache slices, their maintenance, DDR 5 channels, the scrubber, and the registers of the DDR regions and the break-even
thresholds (chapters Tile SRAM, Site Cache and DDR 5 Channels, Sparse Formats). -/

namespace Sys2Proof.Machine

/-! ### Scrubber (R182, R253, R254, R256, R257) -/

/-- An upset in a word of a tile, by its offset in 8-byte units, scratch from 196,608 upward: the word holds a single-bit error, or an uncorrectable one (log
entry 80). -/
def Tile.upset (t : Tile) (found : MemErr) (word : Nat) : Tile :=
  let bad := if word < scrWord0 then t.badSram.contains word else t.badScr.contains (word - scrWord0)
  match found with
  | .clean => t
  | .corrected => if bad ∨ t.flips.contains word = true ∨ 229376 ≤ word then t else { t with flips := t.flips ++ [word] }
  | .uncorrectable =>
    if bad ∨ 229376 ≤ word then t
    else
      let t := { t with flips := t.flips.filter (· != word) }
      if word < scrWord0 then { t with badSram := t.badSram ++ [word] } else { t with badScr := t.badScr ++ [word - scrWord0] }
/-- The scrubber moves on by one access of 64 bytes; 28,672 accesses make a pass. -/
def Tile.scrubOn (t : Tile) : Tile :=
  if t.scrubAt + 1 = 28672 then { t with scrubAt := 0, scrubPass := t.scrubPass + 1 } else { t with scrubAt := t.scrubAt + 1 }
/-- The uncorrectable words of the scrubber's next access. -/
def Tile.scrubBad (t : Tile) : List Nat :=
  t.badSram.filter (fun w => w / 8 == t.scrubAt) ++ t.badScr.filter fun w => (scrWord0 + w) / 8 == t.scrubAt

/-- SCRUB_ACCESS: an upset since the last access, if one is brought in, and one access of a tile's scrubber, which corrects single-bit errors, and records
uncorrectable words and leaves them (R182, R253, R254, R256, R257). -/
def execScrubAccess (t : Nat) (found : MemErr) (word : Nat) (s : State) : Out :=
  onTile s t fun _ =>
    let x := s.tileSt t
    if x.st = .off ∨ x.st = .dark then ok s
    else
      let s := s.modTile t fun T => T.upset found word
      when_ x.scrubEn s <|
        let bad := (s.tile t).scrubBad
        let s := s.modTile t fun T => (T.meet fun w => w / 8 == T.scrubAt).scrubOn
        ok (bad.foldl (fun s w => s.sramUe t w) s)

/-! ### The slice (R222, R225, R260 to R268) -/

/-- A request for space 3 or 4 at its first-stop slice, with its partition and epoch checks (R222, R225). -/
def atSlice (s : State) (i : Nat) (f : Flight) (k : Nat → State → Out) : Out :=
  match f.goal with
  | .slice p =>
    if !f.arrived p || f.fill.isSome then ok s
    else if (s.site p).part ≠ some f.pkt.spart then ok ((s.dropFlight i).partDropAt p)
    else
      let s := s.tell p f.pkt.ctx
      if s.staleCtx p f.pkt.ctx f.pkt.epoch then ok ((s.dropFlight i).staleAt p) else k p s
  | _ => ok s

/-- The bytes of a held line. -/
def CLine.read (x : CLine) (a n : Nat) : List Byte := memGetList x.bytes (a % 256) n

/-- A new fill of a line, which WRITEs that have passed the slice and have not reached their edge die meet (R265, R266). -/
def State.newFill (s : State) (p line : Nat) (q : Packet) : Fill :=
  let ws := (s.fab.flights.filter fun f => f.thru == some p && f.pkt.opc == .write && f.pkt.dest.toNat / 256 == line).map (·.pkt)
  ws.foldl (fun x w => x.write (w.dest.toNat % 256) w.payload) { line, joined := [q], patch := [], patchMask := [], dropped := false }

/-- A miss: joins a pending fill, or takes a fill buffer and reads the whole line; with all 64 busy the READ waits (R264). -/
def State.cacheMiss (s : State) (i : Nat) (f : Flight) (p line : Nat) : State :=
  let c := (s.site p).cache
  if c.fills.any fun x => x.line == line then
    (s.dropFlight i).modSite p fun x =>
      { x with cache := { x.cache with merged := x.cache.merged + 1,
                                       fills := x.cache.fills.map fun y => if y.line = line then { y with joined := y.joined ++ [f.pkt] } else y } }
  else if 64 ≤ c.fills.length then s
  else
    match s.lineOwner f.pkt.spart f.pkt.dest with
    | none => (s.dropFlight i).respond { f with fill := none } (.router p 0 0) .rerr stBadAddress []
    | some e =>
      let s := (s.dropFlight i).modSite p fun x =>
        { x with cache := { x.cache with misses := x.cache.misses + 1,
                                         fills := x.cache.fills ++ [s.newFill p line f.pkt] } }
      s.fillRead p line f.pkt.spart e

/-- CACHE_READ: hit, join or miss; whether it comes within 16 cycles of an array read of its line, and what the slice's own codes find in the line where it
reads the array, are brought in (R249, R264, R268). -/
def execCacheRead (i : Nat) (joins : Bool) (err : MemErr) (s : State) : Out :=
  onFlight s i fun f =>
    if f.pkt.opc ≠ .read then ok s
    else
      atSlice s i f fun p s =>
        let a := f.pkt.dest.toNat
        let line := a / 256
        match (s.site p).cache.find line with
        | none => ok (s.cacheMiss i f p line)
        | some x =>
          let joined := joins && x.fresh
          if err = .uncorrectable ∧ joined = false then
            if 64 ≤ (s.site p).cache.fills.length then ok s
            else
              let s := s.modSite p fun y =>
                { y with cache := { y.cache with lines := y.cache.lines.filter (fun z => z.line != line), refetch := y.cache.refetch + 1 } }
              ok (s.cacheMiss i f p line)
          else
            let s := (s.dropFlight i).modSite p fun y =>
              { y with cache := { y.cache.hit x joined with corr := if err = .corrected ∧ joined = false then y.cache.corr + 1 else y.cache.corr } }
            ok (s.respond f (.router p 0 0) .rdata 0 (x.read a f.pkt.len))

/-- CACHE_FILL_RETURN: the line is installed unless it was invalidated, and every joined READ is answered; an error answers them all and installs
nothing (R264, R265, R269, R280). -/
def execCacheFillReturn (i : Nat) (s : State) : Out :=
  onFlight s i fun f =>
    match f.goal, f.fill with
    | .slice p, some (_, line) =>
      if !f.arrived p || Opc_isReq f.pkt.opc then ok s
      else
        let s := s.dropFlight i
        match (s.site p).cache.fills.find? fun x => x.line == line with
        | none => ok s
        | some x =>
          let s := s.modSite p fun y => { y with cache := { y.cache with fills := y.cache.fills.filter fun z => z.line != line } }
          let answer (s : State) (q : Packet) (opc : Opc) (st : Nat) (bs : List Byte) : State :=
            s.respond { pkt := q, goal := .slice p, place := .dest p, escape := false, fill := none } (.router p 0 0) opc st bs
          if f.pkt.opc = .rdata then
            let m := x.data f.pkt.payload
            let s := if x.dropped then s else s.modSite p fun y => { y with cache := y.cache.install line m }
            ok (x.joined.foldl (fun s q => answer s q .rdata 0 (memGetList m (q.dest.toNat % 256) q.len)) s)
          else ok (x.joined.foldl (fun s q => answer s q .rerr f.pkt.status.toNat []) s)
    | _, _ => ok s

/-- CACHE_WRITE: the slice's copy and a pending fill take the bytes, and the WRITE goes on to the owning edge die unchanged (R265). -/
def execCacheWrite (i : Nat) (s : State) : Out :=
  onFlight s i fun f =>
    if f.pkt.opc ≠ .write then ok s
    else
      atSlice s i f fun p s =>
        let s := s.modSite p fun x => { x with cache := x.cache.write f.pkt.dest.toNat f.pkt.payload }
        match s.lineOwner f.pkt.spart f.pkt.dest with
        | some e => ok (s.setFlight i { f with goal := .edge e, place := .router p 0 0, via := none, thru := some p })
        | none => ok ((s.dropFlight i).respond f (.router p 0 0) .wack stBadAddress [])

/-! ### Maintenance (R269 to R271) -/

def mWord (p : Packet) (k : Nat) : W64 := BitVec.ofNat 64 (leWord ((p.payload.drop (8 * k)).take 8))
def mOp (p : Packet) : Nat := bitsOf (mWord p 0) 3 0
def mLine (p : Packet) : Nat := bitsOf (mWord p 0) 63 8
def mLines (p : Packet) : Nat := bitsOf (mWord p 1) 31 0

/-- The oldest maintenance command of a site, where its OP is one of the row's: it executes and is acknowledged OK (R270, R271). -/
def maintain (p : Nat) (op : Nat → Bool) (hit : Packet → Nat → Bool) (s : State) : Out :=
  onSite s p fun x =>
    match x.cache.mq with
    | [] => ok s
    | q :: rest =>
      if x.st = .dark ∨ op (mOp q) = false then ok s
      else
        let gone := x.cache.lines.filter fun l => hit q l.line
        let c := { x.cache with mq := rest, lines := x.cache.lines.filter (fun l => !hit q l.line),
                                fills := x.cache.fills.map (fun f => if hit q f.line then { f with dropped := true } else f),
                                inval := x.cache.inval + BitVec.ofNat 32 gone.length }
        let s := s.modSite p fun x => { x with cache := c }
        ok (s.respond { pkt := q, goal := .nowhere, place := .dest p, escape := false, fill := none } (.router p 0 0) .wack 0 [])

/-- MAINT_INVALIDATE_LINE: OP 0x1 (R271). -/
def execMaintInvalidateLine (p : Nat) (s : State) : Out := maintain p (fun o => o == 1) (fun q l => l == mLine q) s
/-- MAINT_INVALIDATE_RANGE: OP 0x2, LINES lines from LINE (R271). -/
def execMaintInvalidateRange (p : Nat) (s : State) : Out :=
  maintain p (fun o => o == 2) (fun q l => decide (mLine q ≤ l ∧ l < mLine q + mLines q)) s
/-- MAINT_INVALIDATE_ALL: OP 0x3 (R271). -/
def execMaintInvalidateAll (p : Nat) (s : State) : Out := maintain p (fun o => o == 3) (fun _ _ => true) s
/-- MAINT_RESERVED: every other OP changes nothing and is answered OK (R271). -/
def execMaintReserved (p : Nat) (s : State) : Out := maintain p (fun o => o == 0 || decide (3 < o)) (fun _ _ => false) s

/-! ### DDR channels (R275, R280 to R282) -/

/-- A channel that is up turns down at run time (R275). -/
def State.channelFails (s : State) (ch : Nat) : State :=
  if (s.chan ch).st ≠ 2 then s
  else (s.modChan ch fun c => { c with st := 1, failed := true }).raiseEdge 0x0302 (chanEdge ch) 0 ch
/-- DDR_CHANNEL_DOWN: a channel fails at run time (R275). -/
def execDdrChannelDown (ch : Nat) (s : State) : Out := when_ (decide (ch < 32)) s <| ok (s.channelFails ch).promise

/-- Bursts of a channel (R273). -/
def Chan.bursts (c : Chan) : Nat := c.cap * 2 ^ 27
/-- A burst that takes a correctable or an uncorrectable error (log entry 80). -/
def Chan.upset (c : Chan) (found : MemErr) (b : Nat) : Chan :=
  match found with
  | .clean => c
  | .corrected => if c.bad.contains b ∨ c.flips.contains b = true ∨ c.bursts ≤ b then c else { c with flips := c.flips ++ [b] }
  | .uncorrectable =>
    if c.bad.contains b ∨ c.bursts ≤ b then c else { c with flips := c.flips.filter (· != b), bad := c.bad ++ [b] }

/-- PATROL_READ: the errors that `n` bursts from `burst` on have taken since the last patrol read, if some are brought in, and the next burst of the patrol; its last
burst ends a pass (R280 to R282). -/
def execPatrolRead (ch burst : Nat) (found : MemErr) (n : Nat) (s : State) : Out :=
  let c := s.chan ch
  if 32 ≤ ch ∨ c.st ≠ 2 then ok s
  else
    let s := s.modChan ch fun c => (rangeFrom burst n).foldl (fun c b => c.upset found b) c
    if s.patrolCode = 0 ∨ c.bursts = 0 then ok s
    else
      let b := c.patrolAt
      let s := s.meetDdr ch fun x => x == b
      let s := if (s.chan ch).bad.contains b then s.ddrUe ch b else s
      ok (s.modChan ch fun c => if b + 1 < c.bursts then { c with patrolAt := b + 1 } else { c with patrolAt := 0, patrols := c.patrols + 1, rowCe := [] })

/-! ### DDR regions (R276, R279) -/

/-- Two ranges share an address. -/
def rangesMeet (a n b m : Nat) : Bool := decide (a < b + m ∧ b < a + n)
/-- The share of each channel in units of 64 MiB, rounded up to whole units for the overlap check. -/
def Region.share (r : Region) : Nat := r.size * 2 ^ 26 / 2 ^ r.nlog2
/-- The ECODE of a commit, 0 where the definition passes (R279). -/
def State.regionCheck (s : State) (p : Nat) (r : Region) : Nat :=
  let others := (allParts.filter (· != p)).map fun q => (s.partn q).ddr.cur
  let others := others.filter fun o => o.size != 0
  if others.any fun o => rangesMeet r.base r.size o.base o.size then 1
  else if others.any fun o => (o.mask &&& r.mask) != 0 && rangesMeet (r.cbase * 2 ^ 26) r.share (o.cbase * 2 ^ 26) o.share then 2
  else if r.mode = 3 ∨ 8 < r.gran ∨ 5 < r.nlog2 ∨ popcount r.mask ≠ 2 ^ r.nlog2 ∨ 2 ^ 16 < r.base + r.size then 3
  else if (maskBits r.mask).any fun c => (s.chan c).st != 2 then 4
  else if (maskBits r.mask).any fun c => decide ((s.chan c).cap * 2 ^ 33 < r.cbase * 2 ^ 26 + r.share) then 5
  else 0

/-- PRT_DDRCTL.COMMIT (R269, R279). -/
def State.regionCommit (s : State) (p : Nat) : State :=
  let d := (s.partn p).ddr
  let code := if d.stage.size = 0 then 0 else s.regionCheck p d.stage
  if code = 0 then
    let cur : Region := if d.stage.size = 0 then {} else d.stage
    (s.invalidatePart p).modPart p fun x => { x with ddr := { x.ddr with cur := cur, err := false, ecode := 0 } }
  else s.modPart p fun x => { x with ddr := { x.ddr with err := true, ecode := code } }

/-- DDR_REGION_COMMIT: a gated write of 1 to PRT_DDRCTL.COMMIT (R279). -/
def execDdrRegionCommit (port p : Nat) (s : State) : Out :=
  onPart s p fun _ => gated0 s port (0x2C10 + 0x20 * p) (ok (s.regionCommit p))

/-! ### Break-even thresholds (R121, R122) -/

/-- A write of PRT_BEV_T0 to T6 (0 to 6) or PRT_BEV_CTRL (7). -/
def State.bevWrite (s : State) (k : Nat) (v : W32) : State :=
  if k < 7 then { s with bev := lset s.bev k (v &&& 0xFFFF#32) } else if k = 7 then { s with bevMode := bitsOf v 1 0 } else s

/-- PRT_BEV_WRITE (R121, R122). -/
def execPrtBevWrite (port k : Nat) (v : W32) (s : State) : Out := if 8 ≤ k then ok s else gated0 s port (0x2E00 + 4 * k) (ok (s.bevWrite k v))

end Sys2Proof.Machine
end

