-- ==== Sys2Proof/Machine/CapCtl.lean ====
section
/-! DEFINITION. The cap controller (R409 to R425), telemetry (R406, R430, R431, R435), learned profiles (R417). Powers are in mW and quotients are rounded down (log entry 24). -/

namespace Sys2Proof.Machine

/-! ### PWR_CAP (R412) -/

def execPwrCap (port : Nat) (v : W32) (s : State) : Out :=
  gated0 s port 0x10000 <|
    when_ s.svRuns s <|
      let w := bitsOf v 15 0
      if 8000 ≤ w ∧ w ≤ 40000 then
        let old := s.cap.cap
        ok ((s.modCap fun c => { c with cap := w, capErr := false }).raisePanel 0x0430 w old)
      else ok (s.modCap fun c => { c with capErr := true })

/-! ### Demand (R413, R415, R416) -/

/-- A budgeted site (R413). -/
def Site.budgeted (x : Site) : Bool := x.st == .active || x.st == .held
def State.budgetedSites (s : State) : List Nat := (s.sites.filter fun e => e.2.budgeted && decide (e.1 < 272)).map (·.1)
/-- Branch power referred to step 15 and to issue without bubbles, in mW, by the mean bubble fraction of the millisecond (R415). A site whose every cycle is withheld has no such figure: it is free (log entry 25). -/
def State.live (s : State) (p : Nat) : Nat :=
  let c := (s.site p).ctl
  let n := if c.msN = 0 then 1 else c.msN
  let b := if c.msN = 0 then c.bubble else c.msSum
  if 64 * n ≤ b then (Config.free64 (s.freeN + p)).toNat else c.power * (64 * n) * drawDen / ((64 * n - b) * drawNum (s.site p).clk.cur)
/-- The expected demand before the last line of R416. -/
def State.e15Of (s : State) (p : Nat) : Nat :=
  let live := s.live p
  match (s.site p).part, s.logical p with
  | some q, some S =>
    let l := s.means q (s.partn q).tag S
    if (s.partn q).tag ≠ 0 ∧ l ≠ [] then
      let e := meanOf l * 10
      if 11 * e < live * 10 then live else e
    else live
  | _, _ => live
/-- The lowest of the partition and ageing ceilings. -/
def State.planStep (s : State) (p : Nat) : Nat :=
  min (match (s.site p).part with
    | some q => (s.partn q).ceil
    | none => 15) (s.site p).mrg.ceiling
def State.demandOf (s : State) (p : Nat) : Nat := max (atStep (s.e15Of p) (s.planStep p)) 25000

/-! ### Allocation (R391, R418) -/

/-- Lost phases of a site. -/
def Site.lost (x : Site) : Nat := popcount x.pwr.phFail
/-- The VC ceiling of R391: the current limit by the setpoint. -/
def Site.vcCeil (x : Site) : Nat := (8 - x.lost) * 18 * x.pwr.vc
/-- The site ceiling of R418; none without lost phases and PATHLIM. -/
def Site.ceilMw (x : Site) : Option Nat :=
  let a := if x.lost = 0 then none else some (x.vcCeil + x.ctl.pOther)
  if x.pwr.pathLim then some (match a with
    | some n => min n 96000
    | none => 96000)
  else a
/-- A site in the allocation: its number, expected demand, ceiling and budget. -/
structure Alloc where
  p : Nat
  e : Nat
  ceil : Option Nat
  b : Nat
deriving DecidableEq, Repr, Inhabited
def Alloc.room (a : Alloc) : Nat := match a.ceil with
  | some c => c - a.b
  | none => 2 ^ 40
def sumB (l : List Alloc) : Nat := l.foldl (fun n a => n + a.b) 0
def sumE (l : List Alloc) : Nat := l.foldl (fun n a => n + a.e) 0
def inGroup (g : Nat) (l : List Alloc) : List Alloc := l.filter fun a => groupOf a.p == g
/-- A group over its budget is scaled down to fit. -/
def fitGroup (budget : Nat → Nat) (l : List Alloc) : List Alloc :=
  l.map fun a =>
    let t := sumB (inGroup (groupOf a.p) l)
    let w := budget (groupOf a.p) * 1000
    if w < t then { a with b := a.b * w / t } else a
/-- One round of sharing the excess over the sites below their ceiling and their group's room, in proportion to e. -/
def shareRound (budget : Nat → Nat) (excess : Nat) (l : List Alloc) : List Alloc :=
  let groupRoom (g : Nat) : Nat := budget g * 1000 - sumB (inGroup g l)
  let able (a : Alloc) : Bool := a.room != 0 && groupRoom (groupOf a.p) != 0
  let t := sumE (l.filter able)
  let inc (a : Alloc) : Nat := if able a then min (excess * a.e / t) a.room else 0
  l.map fun a =>
    let g := inGroup (groupOf a.p) l
    let want := g.foldl (fun n a => n + inc a) 0
    let room := groupRoom (groupOf a.p)
    { a with b := a.b + if room < want then inc a * room / want else inc a }
def shareAll (budget : Nat → Nat) (pool : Nat) : Nat → List Alloc → List Alloc
  | 0, l => l
  | n + 1, l =>
    let l' := shareRound budget (pool - sumB l) l
    if sumB l' ≤ sumB l then l else shareAll budget pool n l'
/-- R418. -/
def allocate (budget : Nat → Nat) (pool : Nat) (l : List Alloc) : List Alloc :=
  if pool < 25000 * l.length then l.map fun a => { a with b := pool / l.length }
  else
    let t := sumE l
    let first (a : Alloc) : Alloc :=
      let b := max 25000 (a.e * pool / t)
      { a with b := match a.ceil with
        | some c => min b c
        | none => b }
    shareAll budget pool 320 (fitGroup budget (l.map first))

/-! ### Pace lock (R424) -/

/-- The sites of a partition that take part. -/
def State.paceSites (s : State) (q : Nat) : List Nat := (s.partSites q).filter fun p => (s.site p).budgeted
def SiteClk.paced (k : SiteClk) : Nat := min (min k.capLim k.thmLim) k.dipLim
def State.setPace (s : State) (q lim : Nat) : State :=
  (s.partSites q).foldl (fun s p => (s.modSite p fun x => { x with clk := { x.clk with paceLim := lim } }).relimit p) s
/-- What the controller computes of a partition every millisecond (R424, R433). -/
def State.paceUpdate (s : State) (q : Nat) : State :=
  let ps := s.paceSites q
  let lock := lmin 15 (ps.map fun p => (s.site p).clk.paced)
  let ceil := (s.partn q).ceil
  let slow := lmin 255 ((ps.filter fun p => (s.site p).clk.paced == lock).map s.siteSource)
  let thr := (ps.filter fun p => decide ((s.site p).clk.paced < ceil)).length
  let s := s.modPart q fun x => { x with lockstep := lock, throttled := thr, slow := if ps.isEmpty then 0 else slow }
  let x := s.partn q
  if x.lock ∧ lock < ceil then
    let s := (s.setPace q lock).modPart q fun x => { x with engaged := true }
    if x.engaged then s else s.raise { code := 0x0433, part := q, d0 := q, d1 := lock + x.slow * 256 }
  else if x.engaged then
    ((s.setPace q 15).modPart q fun x => { x with engaged := false }).raise { code := 0x0434, part := q, d0 := q }
  else s
/-- PACE_LOCK: PWR_PACE.LOCK (R424, R433). -/
def execPaceLock (port p : Nat) (v : W32) (s : State) : Out :=
  onPart s p fun _ =>
    gated0 s port (0x10100 + 0x10 * p) <| when_ s.svRuns s <| ok ((s.modPart p fun q => { q with lock := bitOf v 31 }).paceUpdate p)

/-! ### BUDGET_ALLOCATION -/

/-- The millisecond's measurements: panel power, branch, VC and other power of the sites; PWR_ENERGY grows (R410, R413). -/
def State.measured (s : State) (m : PowerMeas) : State :=
  let s := m.sites.foldl (fun s e =>
    if e.1 < 272 then s.modSite e.1 fun x => { x with ctl := { x.ctl with power := e.2.1, pVc := e.2.2.1, pOther := e.2.1 - e.2.2.1 } } else s) s
  s.modCap fun c => { c with ppanel := m.panel, energy := c.energy + (c.energyUj + m.panel) / 1000, energyUj := (c.energyUj + m.panel) % 1000 }
/-- One demand sample of a budgeted site in 10 mW, unless something forbids it (R415). -/
def State.sample (s : State) (p : Nat) : State :=
  let x := s.site p
  match x.part with
  | none => s
  | some q =>
    let heldLong := x.ctl.heldLong || (x.st == .held && decide (x.clk.stopAt + 10 * us < s.time))
    if (s.partn q).tag ≠ 0 ∧ x.kNow = 16 ∧ x.ctl.msDr = false ∧ x.clk.dipLim = 15 ∧ heldLong = false then
      let d := s.live p / 10
      s.modSite p fun x => { x with ctl := { x.ctl with sampSum := x.ctl.sampSum + d, sampN := x.ctl.sampN + 1 } }
    else s
/-- What failover leaves to the service die: the group budgets of a pair with a failed converter, and the end of the draught limits set without it (R386, R482). -/
def State.serveFailover (s : State) : State :=
  let s := (rangeFrom 0 34).foldl (fun s g => if (tget ({} : Conv) s.pwr.convs g).st = 0 then s else s.modConv g fun c => { c with budget := 700 }) s
  allSites.foldl (fun s p => s.modSite p fun x => { x with ctl := { x.ctl with convK := 16, lostSvK := 16 } }) s
/-- BUDGET_ALLOCATION: pool, demand and budgets of every budgeted site (R413, R415 to R418, R424, R411), after what failover has left (R386). -/
def execBudgetAllocation (m : PowerMeas) (s : State) : Out :=
  when_ s.pwr.convOn s <|
    let s := s.measured m
    if !s.svRuns then ok s
    else
      let s := s.serveFailover
      let ps := s.budgetedSites
      let psites := ps.foldl (fun n p => n + (s.site p).ctl.power) 0
      let pool := s.cap.cap * 1000 - (s.cap.ppanel - psites)
      let s := ps.foldl State.sample s
      let l := allocate (fun g => (tget {} s.pwr.convs g).budget) pool (ps.map fun p => { p, e := s.demandOf p, ceil := (s.site p).ceilMw, b := 0 })
      let e15 := s.e15Of
      let s := allSites.foldl (fun s p => s.modSite p fun x =>
        let b := x.budgeted
        { x with ctl := { x.ctl with heldLong := false, msN := 0, msSum := 0, msDr := false, budget := if b then x.ctl.budget else 0, demand := if b then x.ctl.demand else 0 } }) s
      let s := l.foldl (fun s a => s.modSite a.p fun x => { x with ctl := { x.ctl with budget := a.b, demand := a.e, e15 := e15 a.p } }) s
      let s : State := { s with freeN := s.freeN + 272 }
      let s := s.modCap fun c => { c with pool, psites, lastAlloc := some s.time, static_ := false }
      let s := allParts.foldl (fun s q => if (s.partn q).st = .undefined then s else s.paceUpdate q) s
      let atFloor : Bool := l.all fun a => decide (a.b ≤ 25000)
      if (atFloor && decide (s.cap.cap * 1000 < s.cap.ppanel) && s.cap.unmetSec != some s.second) = true then
        ok ((s.modCap fun c => { c with unmetSec := some s.second }).raisePanel 0x0431 (s.cap.ppanel / 1000) s.cap.cap)
      else ok s

/-! ### The pacer (R420 to R422) -/

/-- A fraction (a − b) / a in 64ths, rounded up; 0 where a does not exceed b. -/
def over64 (a b : Nat) : Nat := if b < a then ((a - b) * 64 + a - 1) / a else 0
/-- Something within the last 10 ms. -/
def State.within10 (s : State) : Option Nat → Bool
  | some t => decide (s.time < t + 10 * ms)
  | none => false
/-- PACER_UPDATE: every 10 µs, m and mv in mW (R420, R421). -/
def execPacerUpdate (site m mv : Nat) (s : State) : Out :=
  onSite s site fun x =>
    when_ x.budgeted s <|
      let c := x.ctl
      let b := max (over64 m c.budget) (if x.lost = 0 then 0 else over64 mv x.vcCeil)
      let high := if 32 < b then min 3 (c.highRuns + 1) else 0
      let hand := decide (high = 3) || s.within10 x.pwr.lastDip || s.within10 x.pwr.lastReduce
      let want := max 1 ((64 - b) / 4)
      let enter := c.mode = .bubbles ∧ hand = true
      let k := if c.mode = .bubbles then (if hand then want else 16)
        else if want ≤ c.pacerK then want
        else if c.raisedAt + 100 * us ≤ s.time then c.pacerK + 1 else c.pacerK
      let full := if k < 16 then none else match c.fullSince with
        | some t => some t
        | none => some s.time
      let leave := c.mode = .draught ∧ hand = false ∧ (match full with
        | some t => decide (t + ms ≤ s.time)
        | none => false) = true
      let mode : PaceMode := if enter then .draught else if leave then .bubbles else c.mode
      let bub := if mode = .bubbles then b else 0
      let evt := decide enter && c.drtEvtSec != some s.second
      let s := s.modSite site fun x =>
        { x with ctl := { x.ctl with
            bubble := bub, mode, pacerK := if mode = .draught then k else 16, highRuns := high, fullSince := if mode = .draught then full else none
            raisedAt := if c.mode = .draught ∧ c.pacerK < k then s.time else c.raisedAt, drtEvtSec := if evt then some s.second else c.drtEvtSec } }
      let s := s.modSite site fun x =>
        let kn := x.kNow
        { x with ctl := { x.ctl with
            capN := x.ctl.capN + 1, capSum := x.ctl.capSum + bub, capDr := x.ctl.capDr + b2n (decide (kn < 16)),
            msN := x.ctl.msN + 1, msSum := x.ctl.msSum + bub, msDr := x.ctl.msDr || decide (kn < 16),
            lastActed := if bub = 0 ∧ kn = 16 then x.ctl.lastActed else s.time, telSum := x.ctl.telSum + bub, telN := x.ctl.telN + 1, kMin := min x.ctl.kMin kn } }
      ok (if evt then s.raiseSite 0x0432 site (siteWord site) k else s)

/-- CAP_LIMIT_UPDATE: every 10 ms of a site (R423). -/
def execCapLimitUpdate (site : Nat) (s : State) : Out :=
  onSite s site fun x =>
    let due := match x.ctl.capAt with
      | some t => decide (t + 10 * ms ≤ s.time)
      | none => true
    when_ (x.budgeted && s.svRuns && due) s <|
      let c := x.ctl
      let lower := decide (0 < c.capN ∧ (c.capN * 64 < c.capSum * 10 ∨ c.capDr = c.capN))
      let k := x.clk.cur
      let raise := decide (c.lastActed + 50 * ms ≤ s.time ∧ 105 * c.e15 * drawNum (k + 1) ≤ c.budget * 100 * drawDen)
      let lim := if lower then s.stepCeiling site - 1 else if raise then min 15 (x.clk.capLim + 1) else x.clk.capLim
      ok ((s.modSite site fun x => { x with clk := { x.clk with capLim := lim }, ctl := { x.ctl with capN := 0, capSum := 0, capDr := 0, capAt := some s.time } }).relimit site)

/-! ### Profiles (R417, R433) -/

def execClearProfiles (port p : Nat) (s : State) : Out :=
  onPart s p fun q =>
    gated0 s port (0x1010C + 0x10 * p) <|
      when_ s.svRuns s <|
        let bad := q.st == .undefined
        let s := s.modPart p fun q => { q with perr := bad }
        ok (if bad then s else s.profClear p)
/-- PROFILE_MIRROR: every 100 ms, to a standby that there is. -/
def execProfileMirror (s : State) : Out :=
  when_ (s.svRuns && (s.hlt.sva == .standby || s.hlt.svb == .standby)) s <| ok (s.modCap fun c => { c with mirror := c.prof })

/-! ### Telemetry (R406, R430, R431, R435) -/

/-- MS of a record. -/
def State.telTime (s : State) : Nat := s.time / ms % 2 ^ 32
/-- Word 0 of a site record, KIND left out (R406). -/
def State.siteTel (s : State) (p : Nat) : Nat :=
  p % 16 * 2 ^ 52 + p / 16 * 2 ^ 47 + (match s.logical p with
    | some S => 2 ^ 46 + S * 2 ^ 38
    | none => 0) + s.telTime
/-- PWR_SITETHM.TSTATE (R434). -/
def Site.tstate (x : Site) : Nat :=
  if x.st = .dark then 4 else if x.thm.heatOff then 3 else if x.thm.sensorBad then 5 else if x.clk.bankHeat then 2 else if x.clk.thmLim < 15 ∨ x.clk.thmK < 16 then 1 else 0
/-- The baseline of a site's path, in µΩ (R401). -/
def Site.baseline (x : Site) (p : Nat) : Nat := (x.pwr.pathBase.getD (Config.pathBaseline p)).toNat
/-- The path resistance in µΩ at 25 °C (R401): the voltage lost between the bus and the stage, by the branch current, at 0.39 % per °C of the substrate. -/
def pathMicro (bus stage ma tsub : Nat) : Nat := (bus - stage) * 1000000 * 10000 / (ma * (9025 + 39 * tsub))
/-- RATIO after a millisecond, in % of the baseline: measured only at a branch current of 4 A or more (R401). -/
def State.pathNow (s : State) (bus : Nat) (m : SiteMeas) : Nat :=
  let x := s.site m.site
  if m.ibr < 4000 then x.pwr.pathRatio else pathMicro bus m.vbr m.ibr m.tsub * 100 / x.baseline m.site
/-- The output of the converter that feeds a group (R386), as this millisecond's measurements give it. -/
def State.busMv (s : State) (convs : List ConvMeas) (g : Nat) : Nat :=
  let c := if (tget {} s.pwr.convs g).st = 1 then (g + 17) % 34 else g
  match convs.find? fun m => m.conv == c with
  | some m => m.vout
  | none => (tget {} s.pwr.convs c).vout
/-- KIND 0x01. -/
def State.telSite (convs : List ConvMeas) (s : State) (m : SiteMeas) : State :=
  let x := s.site m.site
  if 272 ≤ m.site ∨ x.st = .dark then s
  else
    let ratio := s.pathNow (s.busMv convs (groupOf m.site)) m
    let s := s.telPut 1 (s.siteTel m.site) (m.ivc % 65536 * 2 ^ 48 + m.ivs % 65536 * 2 ^ 32 + m.ivb % 65536 * 2 ^ 16 + m.ibr % 65536)
      (m.vvc % 65536 * 2 ^ 48 + m.vvs % 65536 * 2 ^ 32 + m.vvb % 65536 * 2 ^ 16 + m.vbr % 65536)
      (x.pwr.phFail.toNat * 2 ^ 52 + x.clk.cur * 2 ^ 48 + min x.pwr.telDips 255 * 2 ^ 40 + x.pwr.telDepth % 256 * 2 ^ 32 + min x.pwr.telNs 65535 * 2 ^ 16
        + min ratio 65535)
    s.modSite m.site fun x => { x with pwr := { x.pwr with telDips := 0, telDepth := 0, telNs := 0, meas := some m, pathRatio := ratio } }
/-- KIND 0x02. -/
def State.telConv (s : State) (m : ConvMeas) : State :=
  if 34 ≤ m.conv then s
  else
    let s := s.modConv m.conv fun c => { c with pout := m.pout, vout := m.vout }
    let c := tget {} s.pwr.convs m.conv
    s.telPut 2 (m.conv * 2 ^ 32 + s.telTime) (m.pout % 65536 * 2 ^ 48 + c.budget * 2 ^ 32 + m.vout % 65536 * 2 ^ 16 + m.vin % 65536) (c.st * 2 ^ 62) 0
/-- KIND 0x03, every 10 ms per powered site. -/
def State.telCtl (s : State) (p : Nat) : State :=
  let x := s.site p
  if x.st = .dark then s
  else
    let c := x.ctl
    let t := x.thm
    let s := s.telPut 3 (s.siteTel p)
      (c.budget / 100 % 65536 * 2 ^ 48 + c.demand / 100 % 65536 * 2 ^ 32 + (if c.telN = 0 then 0 else min 255 (c.telSum * 4 / c.telN)) * 2 ^ 24 + c.kMin * 2 ^ 19
        + x.clk.cur * 2 ^ 12 + x.clk.capLim * 2 ^ 8 + x.clk.thmLim * 2 ^ 4 + x.clk.paceLim)
      (t.tComp % 256 * 2 ^ 56 + t.tSram % 256 * 2 ^ 48 + t.tBase % 256 * 2 ^ 40 + t.tPeak % 256 * 2 ^ 32 + x.tstate * 2 ^ 29) 0
    s.modSite p fun x => { x with ctl := { x.ctl with telSum := 0, telN := 0, kMin := 16 }, thm := { x.thm with tPeak := 0 } }
/-- TELEMETRY_TICK: the records of a millisecond in KIND order, then the tail shadow. -/
def execTelemetryTick (sites : List SiteMeas) (convs : List ConvMeas) (s : State) : Out :=
  when_ s.pwr.convOn s <|
    let s := match convs with
      | m :: _ => (s.inputAt m.vin).modPwr fun w => { w with vin := m.vin }
      | [] => s
    let s := sites.foldl (State.telSite convs) s
    let s := convs.foldl State.telConv s
    let s := s.modCap fun c => { c with telMs := c.telMs + 1 }
    let s := if s.cap.telMs % 10 = 0 then allSites.foldl State.telCtl s else s
    let c := s.cap
    let s := s.telPut 4 s.telTime (c.ppanel / 1000 % 65536 * 2 ^ 48 + c.cap * 2 ^ 32 + c.pool / 1000 % 65536 * 2 ^ 16 + c.psites / 1000 % 65536) c.energy 0
    let s := ((s.telHeld 5).telHeld 6).modTel fun r => { r with held := [] }
    ok (if s.svRuns then s.telShadow else s).promise
/-- TEL_HEAD (R430, R435, R520). -/
def execTelHead (port : Nat) (v : W32) (s : State) : Out := when_ (s.reach port) s <| ok (s.modTel fun r => { r with head := v, sent := false })
/-- TEL_CFG: writing EN from 0 to 1 sets the counts to 0 (R435). -/
def execTelCfg (port : Nat) (v : W32) (s : State) : Out :=
  gated0 s port 0x18008 <| ok (s.modTel fun r =>
    let fresh := bitOf v 31 && !r.en
    let r := { r with en := bitOf v 31, irqEn := bitOf v 30, port := bitsOf v 27 26, kmask := BitVec.ofNat 7 (bitsOf v 22 16), vec := bitsOf v 10 0 }
    if fresh then { r with tail := 0, head := 0, lost := 0, since := 0, sent := false } else r)

end Sys2Proof.Machine
end

