-- ==== Sys2Proof/Machine/HostPorts.lean ====
section
/-! DEFINITION. The host ports (R285 to R292), their reads' ends (R288, R301, R311), doorbells (R290, R291, R300 to R305) and the MSI-X table (R292). -/

namespace Sys2Proof.Machine

/-! ### A port's link (R286, R287, R439) -/

/-- What a port answers to a configuration request. -/
inductive CfgAnswer where
  | none
  | retry
  | normal
deriving DecidableEq, Repr, Inhabited
/-- Without a link nothing; until the panel is ready Configuration Request Retry Status; then, and on port 0 in recovery and in FAILED, as usual (R437, R439, R442, R462). -/
def State.cfgAnswer (s : State) (port : Nat) : CfgAnswer :=
  if !(s.port port).link || (s.port port).cutLink then .none
  else if s.isReady || (port == 0 && (s.inRecovery || s.spi.stage == .failed)) then .normal else .retry

/-- The PCIe link status (R329): negotiated width in [9:4] and the code of the rate in [3:0] (log entry 20). -/
def rateCode (g : Nat) : Nat := if g = 25 then 1 else if g = 50 then 2 else if g = 80 then 3 else if g = 160 then 4 else if g = 320 then 5 else 0
def Port.linkStatus (p : Port) : Nat := if p.link then p.width * 16 + rateCode p.gts10 else 0

/-- The link mode that a port and its partner choose: the widest common width, then the fastest common rate (R285, R286); none where they have none. -/
def LinkMode_best (m : LinkMode) : Option (Nat × Nat) :=
  match [16, 8, 4, 2, 1].find? m.widths.contains, [320, 160, 80, 50, 25].find? m.rates.contains with
  | some w, some g => some (w, g)
  | _, _ => none

/-- The least time in ns of a Completion Timeout Value encoding: 40 ms for the default, and the lower end of the sub-range that PCI Express gives any other (R288;
log entry 93). -/
def ctoNs (c : Nat) : Nat :=
  if c = 1 then 50 * us else if c = 2 then ms else if c = 5 then 16 * ms else if c = 6 then 65 * ms else if c = 9 then 260 * ms
  else if c = 10 then sec else if c = 13 then 4 * sec else if c = 14 then 17 * sec else 40 * ms
/-- The uncorrectable errors of AER that a host read can meet: a completion timeout, a poisoned completion, an ECRC error (R285; log entry 93). -/
def aerTimeout : W32 := 0x4000#32
def aerPoisoned : W32 := 0x1000#32
def aerEcrc : W32 := 0x80000#32
def State.aer (s : State) (port : Nat) (b : W32) : State := s.modPort port fun p => { p with aer := p.aer ||| b }
/-- What a port takes of a completion: with ECRC checking enabled one whose ECRC does not agree is discarded, and its read stays outstanding; without it the bytes
are taken (R285; log entry 93). -/
def Port.takes (p : Port) : HostResult → Option HostResult
  | .badEcrc bs => if p.ecrcChk then none else some (.data bs)
  | r => some r
/-- AER notes a poisoned completion, and an ECRC error that is checked for (R285). -/
def State.noteAer (s : State) (port : Nat) : HostResult → State
  | .poisoned => s.aer port aerPoisoned
  | .badEcrc _ => if (s.port port).ecrcChk then s.aer port aerEcrc else s
  | _ => s

/-- A host read has failed with HOST_TIMEOUT (2) or HOST_ERR (3) and its DETAIL (R301, R311, R317, R461); a LOAD whose image it fetches ends so (R317; log entry 14). -/
def State.hostFail (s : State) (r : HostRead) (status detail : Nat) : State :=
  let e := errEnding status 0 detail 0 none
  match r.for_ with
  | .fetch c first _ => s.note { ctx := c, cause := 1, n := some first, ending := some e, tile := none }
  | .copy c n _ => s.endDesc c n e
  | .tileRead pkt fill =>
    let s := s.imageFails pkt fill e
    s.respond { pkt, goal := .nowhere, place := .edge (portEdge r.port), escape := false, fill } (.edge (portEdge r.port)) .rerr stHostErr []
  | .flush c n => s.endDesc c n e
  | .image _ => s.updateLost

/-- A port has been cut off (R287): its contexts halt with cause PORT, its outstanding host reads end, and the first cause raises PORT_DOWN. -/
def State.cutOff (s : State) (port : Nat) : State :=
  let first := !(s.port port).downSeen
  let s := s.modPort port fun p => { p with downSeen := true }
  let s := s.host.ctxs.foldl (fun s e =>
    if (e.2.st == .ready || e.2.st == .active) && e.2.cfg.port == port then
      s.note { ctx := e.1, cause := 7, n := none, ending := none, tile := none } else s) s
  let rs := s.host.reads.filter fun r => r.port == port
  let s := s.modHost fun h => { h with reads := h.reads.filter fun r => r.port != port }
  let s := rs.foldl (fun s r => s.hostFail r 3 0x11) s
  if first then s.raisePort 0x0014 port (s.port port).linkStatus 0 else s

/-- PORT_DOWN: the link is lost. -/
def execPortDown (port : Nat) (s : State) : Out :=
  onPort s port fun p =>
    when_ (p.link && !p.cutLink) s <| ok ((s.modPort port fun p => { p with link := false, cutLink := true }).cutOff port)
/-- PORT_UP: a cut-off port is restored (R287); a link that was lost has trained in the best mode that it shares with its partner (R286). -/
def execPortUp (port : Nat) (mode : LinkMode) (s : State) : Out :=
  onPort s port fun p =>
    when_ (p.downSeen && p.width != 0) s <|
      match (if p.cutLink then LinkMode_best mode else some (p.width, p.gts10)) with
      | none => ok s
      | some m =>
        let s := s.modPort port fun p => { p with link := true, width := m.1, gts10 := m.2, cutLink := false, cutFlr := false, cutBme := false, downSeen := false }
        ok (s.raisePort 0x0015 port (s.port port).linkStatus 0)
/-- What a function level reset returns to its reset value (R287, R518). -/
def Port.flr (p : Port) : Port :=
  { p with
    cutFlr := true, fmask := false, cto := 0, ctoOff := false, mrrs := 512, mps := 128, tag10 := false, d3hot := false, ecrcGen := false, ecrcChk := false, aer := 0, msix := [], ctxSel := 0, stage := {}, alertEn := false, avec := 0
    scratch := 0, tsel := 0, rsel := 0, dsel := 0, ssel := 0, esel := 0, lsel := 0, grpsel := 0, sitesel := 0, mselLo := 0, mselHi := 0, wpage := 0
    sarg := 0, bsel := 0, buf := [], chal := none }
/-- FUNCTION_LEVEL_RESET: a configuration request (R287, R439, R518). -/
def execFunctionLevelReset (port : Nat) (s : State) : Out :=
  onPort s port fun _ => when_ (s.cfgAnswer port == .normal) s <| ok ((s.modPort port Port.flr).cutOff port)
/-- BUS_MASTER_DISABLE: a configuration request (R287, R439). -/
def execBusMasterDisable (port : Nat) (s : State) : Out :=
  onPort s port fun p => when_ (s.cfgAnswer port == .normal && !p.cutBme) s <| ok ((s.modPort port fun p => { p with cutBme := true }).cutOff port)
/-- PERST_RELEASE: the port trains its link (R286, R439); in recovery and in FAILED ports 1 to 3 keep theirs in Detect (R442, R462). -/
def execPerstRelease (port : Nat) (mode : LinkMode) (s : State) : Out :=
  onPort s port fun p =>
    when_ (!p.link && p.width == 0 && s.pwr.powered && !((s.inRecovery || s.spi.stage == .failed) && port != 0)) s <|
      match LinkMode_best mode with
      | none => ok s
      | some m => ok (s.modPort port fun p => { p with link := true, width := m.1, gts10 := m.2, cutLink := false, downSeen := p.cutFlr || p.cutBme })

/-! ### Ends of host reads (R288, R311, R316, R325) -/

/-- HOST_COMPLETION_TIMEOUT (R288). -/
def execHostCompletionTimeout (id : Nat) (s : State) : Out :=
  match s.readOf id with
  | none => ok s
  | some r =>
    let p := s.port r.port
    when_ (!p.ctoOff && decide (r.since + ctoNs p.cto ≤ s.time)) s <| ok (((s.dropRead id).aer r.port aerTimeout).hostFail r 2 0 |>.copiesAsk (portEdge r.port))

/-- DETAIL of a failed completion (R317). -/
def hostDetail : HostResult → Nat
  | .ur => 1
  | .ca => 4
  | .poisoned => 0x10
  | .data _ => 0
  | .badEcrc _ => 0
/-- A flush read has returned (R316). -/
def State.flushBack (s : State) (c : Nat) (n : W32) : State :=
  match s.desc c n with
  | some { prog := .fence k, .. } =>
    let s := s.modDesc c n fun x => { x with prog := .fence (k - 1) }
    if k ≤ 1 then s.endDesc c n (okEnding 0) else s
  | _ => s
/-- HOST_READ_COMPLETION: for a COPY, a host-window READ, a FENCE's flush or an update (R311, R316, R325, R460). -/
def execHostReadCompletion (id : Nat) (res : HostResult) (s : State) : Out :=
  match s.readOf id with
  | none => ok s
  | some r =>
    match r.for_, (s.port r.port).takes res with
    | .fetch _ _ _, _ => ok s
    | _, none => ok (s.noteAer r.port res)
    | .copy c n at_, some (.data bs) => ok (((s.dropRead id).copyGot c n at_ (bs.take r.len)).copiesAsk (portEdge r.port))
    | .tileRead pkt fill, some (.data bs) =>
      ok ((s.dropRead id).respond { pkt, goal := .nowhere, place := .edge (portEdge r.port), escape := false, fill } (.edge (portEdge r.port)) .rdata 0
        (bs.take r.len))
    | .flush c n, some (.data _) => ok ((s.dropRead id).flushBack c n)
    | .image at_, some (.data bs) => ok ((s.dropRead id).updateGot at_ (bs.take r.len))
    | _, some e =>
      ok ((((s.noteAer r.port res).dropRead id).hostFail r 3 (hostDetail e)).copiesAsk (portEdge r.port))

/-! ### Doorbells (R290, R291, R300 to R305) -/

/-- A doorbell write that is not accepted: counted, and the first since the count was cleared raises DOORBELL_DROP (R291, R526). -/
def State.doorbellDrop (s : State) (port ctx : Nat) : State :=
  let first := !(s.port port).dbSeen
  let s := s.modPort port fun p => { p with dbdrop := satAdd p.dbdrop 1, dbSeen := true }
  if first then s.raisePort 0x0012 port ctx port else s
/-- A doorbell write that arrives through a port for a context (R291). -/
def doorbell (s : State) (port ctx : Nat) (k : Ctx → Out) : Out :=
  if !s.reach port || decide (3072 ≤ ctx) then ok s
  else
    let x := s.ctx ctx
    if x.st == .free || x.cfg.port != port then ok (s.doorbellDrop port ctx) else k x

/-- Issues reads for the pending descriptors: at most 64 each, none wrapping past the end of the ring, longer than the maximum read request size or across a 4 KiB
boundary (R285, R301; log entry 93). Through a port that issues nothing the first fails (R301, R317). -/
def State.fetchAsk (s : State) (c : Nat) : Nat → State
  | 0 => s
  | fuel + 1 =>
    let x := s.ctx c
    let left := (x.sqTail - x.asked).toNat
    if left = 0 then s
    else
      let slot := x.asked.toNat % 2 ^ x.cfg.sqLog2
      let p := s.port x.cfg.port
      let n := min (min left (64 - slot % 64)) (min (2 ^ x.cfg.sqLog2 - slot) (p.mrrs / 64))
      let s := s.modCtx c fun x => { x with asked := x.asked + BitVec.ofNat 32 n }
      if p.mute then s.note { ctx := c, cause := 1, n := some x.asked, ending := some (errEnding 3 0 0x11 0 none), tile := none }
      else (s.issueRead x.cfg.port (x.cfg.sqBase + 64 * slot) (64 * n) (.fetch c x.asked n)).fetchAsk c fuel

/-- SQ_TAIL (R291, R294, R300, R301). A tail that leaves more pending than the ring holds is a driver error: it is taken and fetches nothing, and what else it does is
free within the partition (R331; log entry 53). -/
def execSqTail (port ctx : Nat) (v : W32) (s : State) : Out :=
  doorbell s port ctx fun x =>
    if v = x.sqTail then ok s
    else if x.st = .halted ∨ x.st = .resetting then ok (s.modCtx ctx fun x => { x with sqTail := v })
    else if 2 ^ x.cfg.sqLog2 < (v - x.sqHead).toNat ∨ (v - x.sqHead).toNat < (x.asked - x.sqHead).toNat then
      ok ((s.modCtx ctx fun x => { x with sqTail := v, st := .active }).wildPart x.cfg.part)
    else ok ((s.modCtx ctx fun x => { x with sqTail := v, st := .active }).fetchAsk ctx 32768)
/-- CQ_HEAD (R304, R305). A head beyond ctail is a driver error, taken as it is (R331; log entry 53). -/
def execCqHead (port ctx : Nat) (v : W32) (s : State) : Out :=
  doorbell s port ctx fun x =>
    let s' := s.modCtx ctx fun x => { x with cqHead := v, irqSent := false }
    ok (if 0 < (v - x.cqTail).toInt then s'.wildPart x.cfg.part else s')

/-! ### MSI-X (R292, R530) -/

/-- MSIX_UNMASK: a write to MSI_VCTL; unmasking a vector whose pending bit is set sends its message. -/
def execMsixUnmask (port vec : Nat) (v : W32) (s : State) : Out :=
  onPort s port fun p =>
    when_ (s.reach port && decide (vec < 2048)) s <|
      let e := tget {} p.msix vec
      let mask := bitOf v 0
      let go := e.pend && !mask && !p.fmask && !p.mute
      let s := s.modPort port fun p => { p with msix := tput {} p.msix vec { e with mask, pend := e.pend && !go } }
      if go then ok (s.send (.msix port (e.addrHi.toNat * 2 ^ 32 + e.addrLo.toNat) e.data p.ecrcGen)) else ok s

/-! ### The event ring's registers (R327, R330) -/

/-- EVT_HEAD: no session needed, every port (R327, R330, R535). -/
def execEvtHead (port : Nat) (v : W32) (s : State) : Out :=
  when_ (s.reach port) s <| ok (s.modHost fun h => { h with evt := { h.evt with head := v, sent := false } })
/-- EVT_CFG: writing EN from 0 to 1 starts the counts afresh (R327, R330); only a write of EVT_HEAD lets another interrupt be sent. -/
def execEvtCfg (port : Nat) (v : W32) (s : State) : Out :=
  gated0 s port 0x1C008 <| ok (s.modHost fun h =>
    let r : EvtRing := { h.evt with irqEn := bitOf v 30, port := bitsOf v 27 26, vec := bitsOf v 10 0, en := bitOf v 31 }
    { h with evt := if bitOf v 31 ∧ h.evt.en = false then { r with tail := 0, head := 0, lost := 0, since := 0 } else r })

end Sys2Proof.Machine
end

