-- ==== Sys2Proof/Machine/Descriptors.lean ====
section
/-! DEFINITION. Descriptors: fetched, started and completed (R299 to R318), and the trackers of the PCIe edge dies (R323). -/

namespace Sys2Proof.Machine

/-! ### Fetching (R301) -/

/-- The words of descriptors in fetched bytes (R308). -/
def descsOf (first : W32) (bs : List Byte) : Nat → List Desc
  | 0 => []
  | k + 1 =>
    { n := first, ws := (rangeFrom 0 8).map fun i => BitVec.ofNat 64 (leWord ((bs.drop (8 * i)).take 8)) } :: descsOf (first + 1) (bs.drop 64) k

/-- DESCRIPTOR_FETCH: descriptors arrive and become ready to start; a failed read faults the context (R301). -/
def execDescriptorFetch (id : Nat) (res : HostResult) (s : State) : Out :=
  match s.readOf id with
  | none => ok s
  | some r =>
    match r.for_ with
    | .fetch c first count =>
      let s := s.noteAer r.port res
      match (s.port r.port).takes res with
      | none => ok s
      | some (.data bs) =>
        let s := s.dropRead id
        when_ ((s.ctx c).st == .ready || (s.ctx c).st == .active) s <|
          ok (s.modCtx c fun x => { x with ready := x.ready ++ descsOf first bs count, sqHead := x.sqHead + BitVec.ofNat 32 count })
      | some e => ok ((s.dropRead id).hostFail r 3 (hostDetail e))
    | _ => ok s

/-! ### Starting (R304, R306, R308) -/

/-- The bits a descriptor of an opcode may set in each of its words; the others must be 0 (R308 to R316). -/
def descFields (opc : Nat) : List W64 :=
  let all : W64 := BitVec.allOnes 64
  match opc with
  | 1 => [0xFFC00000FFFFFFFF, all, all, 0x00000000FFFFFFFF, 0xFFFFFFFFBF000000]
  | 2 => [0xFFC00000FFFFFFFF, all, 0xFFFFFFFFF800FFFF - 0x300000000, 0xFFFFFC0000000000]
  | 3 => [0xFFC00000FFFFFFFF, all, 0xFFFFFFFFFC1FFFFF - 0x300000000, 0x00000000FFFFFFFF, all, all, all, all]
  | 4 => [0xFFC00000FFFFFFFF, 0xFFFFF80000000000, 0x00000000FFFFFFFF]
  | 5 => [0xFFC00000FFFFFFFF, 0xFFFFFFFC3F800000, 0x00000000FFFFFFFF]
  | 6 => [0xFFC00000FFFFFFFF, 0x00000000000000FF]
  | 7 => [0xFFC00000FFFFFFFF, 0x8000003FFFFFFFFF]
  | 8 => [0xFFC00000FFFFFFFF, 0x0000000000000001]
  | 9 => [0xFFC00000FFFFFFFF, 0xFFFFFFFF000000F3]
  | 10 => [0xFFC00000FFFFFFFF, 0x00000000FFFFFFFF]
  | _ => [0xFFC00000FFFFFFFF]
def Desc.reservedBad (d : Desc) : Bool :=
  (rangeFrom 0 8).any fun i => d.w i &&& ~~~(lget 0 (descFields d.opc) i) != 0

/-- Descriptors asked for and neither started nor lost: fetched ones, and those of outstanding reads. -/
def State.unstarted (s : State) (c : Nat) : Nat :=
  (s.ctx c).ready.length + lsum (s.host.reads.map fun r => match r.for_ with
    | .fetch d _ k => if d = c then k else 0
    | _ => 0)
/-- The next descriptor in ring order, where it has been fetched (R306). -/
def State.nextDesc (s : State) (c : Nat) : Option Desc :=
  let x := s.ctx c
  x.ready.find? fun d => d.n == x.asked - BitVec.ofNat 32 (s.unstarted c)
/-- Descriptors in flight of a PCIe edge die (R306). -/
def State.dieInflight (s : State) (pe : Nat) : Nat :=
  lsum (s.host.ctxs.map fun e => if portEdge e.2.cfg.port = pe then e.2.inflight.length else 0)
def Prog_holds : InFl → Bool
  | { prog := .wait _ _, .. } => true
  | { prog := .barrier, .. } => true
  | { prog := .fence _, .. } => true
  | _ => false
/-- The conditions under which a descriptor may start (R304, R306). -/
def State.mayStart (s : State) (c : Nat) (d : Desc) : Bool :=
  let x := s.ctx c
  x.st == .active && decide (x.inflight.length < 32 ∧ ((x.cqTail - x.cqHead).toNat + x.inflight.length) < 2 ^ x.cfg.cqLog2)
    && !x.inflight.any Prog_holds && (!(d.ord || d.opc == 8) || x.inflight.isEmpty) && decide (s.dieInflight (portEdge x.cfg.port) < 4096)

/-- A context of a die could start its next descriptor. -/
def State.startable (s : State) (pe c : Nat) : Bool :=
  portEdge (s.ctx c).cfg.port == pe && match s.nextDesc c with
    | some d => s.mayStart c d
    | none => false
/-- How far a context is from its turn at a die (R306). -/
def State.startTurn (s : State) (pe c : Nat) : Nat := (c + 3072 - tget 0 s.host.turns pe % 3072) % 3072
/-- The die's last place goes to the context that comes first in rotation (R306). -/
def State.hasTurn (s : State) (pe c : Nat) : Bool :=
  decide (s.dieInflight pe + 1 < 4096) || s.host.ctxs.all fun e => !(s.startable pe e.1 && decide (s.startTurn pe e.1 < s.startTurn pe c))

/-- A descriptor that is a driver error runs as its fields read, and what else it does is free within its partition (R331; log entry 53). -/
def State.wildDesc (s : State) (c : Nat) (bad : Bool) : State := if bad then s.wildPart (s.ctx c).cfg.part else s

/-- Starts the next descriptor of a context where it is of the given opcodes, may start and has its turn: it goes in flight with its progress, and `k` acts. A
reserved field that is not 0 is a driver error (R331). -/
def starting (s : State) (c : Nat) (is : Nat → Bool) (prog : Prog) (k : State → Desc → Out) : Out :=
  onCtx s c fun x =>
    match s.nextDesc c with
    | none => ok s
    | some d =>
      let pe := portEdge x.cfg.port
      if !is d.opc || !s.mayStart c d || !s.hasTurn pe c then ok s
      else
        let s := s.setCtx c { x with ready := x.ready.filter fun e => e.n != d.n, inflight := x.inflight ++ [{ d, prog, fin := none }],
                                     wdogAt := if x.inflight.isEmpty then s.time else x.wdogAt }
        let s := s.modHost fun h => { h with turns := tput 0 h.turns pe ((c + 1) % 3072) }
        k (s.wildDesc c (decide (d.opc ≤ 10) && d.reservedBad)) d

/-- A descriptor that completes at its start with OK. -/
def State.endOk (s : State) (c : Nat) (d : Desc) (result : Nat) : State := s.endDesc c d.n (okEnding result)

/-- NOP (R307, R316). -/
def execNopDescriptor (c : Nat) (s : State) : Out :=
  starting s c (· == 0) .plain fun s d => ok (s.endOk c d 0)
/-- A reserved opcode starts as a NOP would, and completes with OK (R308). -/
def execReservedOpcode (c : Nat) (s : State) : Out :=
  starting s c (fun o => decide (11 ≤ o)) .plain fun s d => ok (s.endOk c d 0)

/-- COPY (R310, R311). -/
def execCopy (c : Nat) (s : State) : Out :=
  starting s c (· == 1) (.copy 0 0 0 [] [] []) fun s d =>
    let src := d.copySrc
    let dst := d.copyDst
    let own (a : W64) : Bool := aPanel a == s.rick.panel
    let s := s.wildDesc c (!own src || !own dst || !(aSpace src == 0 || aSpace src == 3 || aSpace src == 4) || !(aSpace dst == 0 || aSpace dst == 3 || aSpace dst == 4)
      || d.copyLen % 8 != 0 || d.copyLen == 0)
    let s := if aSpace dst = 4 then
        let w := s.win (aWin dst)
        s.modCtx c fun x => if x.ports4.contains w.port then x else { x with ports4 := x.ports4 ++ [w.port] }
      else s
    ok (s.copyStep c d.n)

/-- The edge die that runs a context's descriptors. -/
def State.peOf (s : State) (c : Nat) : Nat := portEdge (s.ctx c).cfg.port

/-- LAUNCH: with GATE it first reads its gate counter, otherwise it sends its starts (R166, R312). -/
def execLaunch (c : Nat) (s : State) : Out :=
  starting s c (· == 2) (.launch true 0 0 [] [] 0 []) fun s d =>
    let w := d.w 3
    let x := s.ctx c
    let s := s.wildDesc c (bitOf (d.w 2) 0 || !regionIn (d.w 2))
    if bitOf w 63 then
      ok (s.edgeRead (s.peOf c) c (s.ctrAddr (tileAt (bitsOf w 62 55) (bitsOf w 54 48)) (bitsOf w 47 42)) 8 (.gate d.n x.mode x.audn x.theta))
    else ok (s.sendStarts c d.n d x.mode x.audn x.theta)

/-- The load that a LOAD asks of a tile (R202, R204, R313). -/
def loadReqOf (x : Ctx) (c : Nat) (d : Desc) (t : Nat) : LoadReq :=
  { tile := t, ctx := c, part := x.cfg.part, epoch := x.epoch, n := d.n, src := d.w 1, scratch := bitOf (d.w 2) 27, cores := bitsOf (d.w 2) 31 28,
    sitelocal := bitOf (d.w 2) 26, doff := bitsOf (d.w 2) 20 0, len := bitsOf (d.w 3) 31 0,
    digest := leBytes 8 (d.w 4).toNat ++ leBytes 8 (d.w 5).toNat ++ leBytes 8 (d.w 6).toNat ++ leBytes 8 (d.w 7).toNat }
/-- A LOAD outside R202 and R313. -/
def loadBad (r : LoadReq) : Bool :=
  decide (r.len < 8 ∨ 1572864 < r.len) || r.len % 8 != 0 || !(aSpace r.src == 0 || aSpace r.src == 3 || aSpace r.src == 4)
    || decide ((if r.scratch then 0x10000 else sramSize) < r.doff + r.len) || (r.sitelocal && aSpace r.src != 0)
/-- LOAD (R313). -/
def execLoad (c : Nat) (s : State) : Out :=
  starting s c (· == 3) .plain fun s d =>
    let tiles := regionTiles (d.w 2)
    let x := s.ctx c
    let s := s.wildDesc c (!regionIn (d.w 2) || loadBad (loadReqOf x c d 0))
    let s := s.modFab fun f => { f with loads := f.loads ++ tiles.map (loadReqOf x c d) }
    ok ((s.modDesc c d.n fun y => { y with prog := .load tiles.length 0 0 0 [] [] }).loadCheck c d.n)

/-- The counter that a WAIT reads (R314). -/
def State.waitAddr (s : State) (d : Desc) : W64 := s.ctrAddr (tileAt (bitsOf (d.w 1) 63 56) (bitsOf (d.w 1) 55 49)) (bitsOf (d.w 1) 48 43)
/-- WAIT (R314). -/
def execWait (c : Nat) (s : State) : Out :=
  starting s c (· == 4) (.wait true 0) fun s d => ok (s.edgeRead (s.peOf c) c (s.waitAddr d) 8 (.wait d.n))
/-- WAIT_POLL: 1 µs after a read that did not satisfy it, a WAIT reads its counter again (R314). -/
def execWaitPoll (c n : Nat) (s : State) : Out :=
  onCtx s c fun _ =>
    match s.desc c (BitVec.ofNat 32 n) with
    | some { d := d, prog := .wait false last, fin := none } =>
      when_ (decide (last + us ≤ s.time) && (s.ctx c).st == .active) s <|
        ok ((s.modDesc c d.n fun y => { y with prog := .wait true last }).edgeRead (s.peOf c) c (s.waitAddr d) 8 (.wait d.n))
    | _ => ok s

/-- One CNT of a SIGNAL (R212, R315). -/
def State.sendCnt (s : State) (c : Nat) (d : Desc) (t : Nat) : State :=
  let x := s.ctx c
  let pe := s.peOf c
  let (q, s) := s.edgeSeq pe c
  let last := bitOf (d.w 1) 23
  s.inject (.edge pe) none (edgeSite pe)
    { opc := .cnt, last, dctr := bitsOf (d.w 1) 29 24, spart := x.cfg.part, epoch := x.epoch, ctx := c, seq := q, len := 0,
      dest := tileAddr s.rick.panel 1 t 0, src := edgeAddr s.rick.panel pe 0, total := if last then BitVec.ofNat 32 (bitsOf (d.w 2) 31 0) else 0,
      status := 0, hops := 0, payload := [] }
/-- SIGNAL: one CNT to each tile of its region (R307, R315). One whose region reaches outside the context's partition does not complete: the CNTs are dropped there
and the step watchdog ends it (R331, R341; log entry 110). -/
def execSignal (c : Nat) (s : State) : Out :=
  starting s c (· == 5) .plain fun s d =>
    let tiles := regionTiles (d.w 1)
    let strays := tiles.any fun t => (s.tileSt t).part != some (s.ctx c).cfg.part
    let s := tiles.foldl (fun s t => s.sendCnt c d t) (s.wildDesc c (!regionIn (d.w 1)))
    ok (if strays then s else s.endOk c d tiles.length)

/-- PHASE (R307, R414). -/
def execPhase (c : Nat) (s : State) : Out :=
  starting s c (· == 6) .plain fun s d => ok ((s.phase c (bitsOf (d.w 1) 7 0)).endOk c d 0)

/-- An arrival at a barrier: COUNT is that of the round's first arrival (R316, R361). -/
def Barrier.arrive (b : Barrier) (count : Nat) (who : Nat × W32) : Barrier :=
  { count := if b.arrived = 0 then count else b.count, arrived := b.arrived + 1, waiters := b.waiters ++ [who] }
/-- An arrival at the master of the rick (R361): at COUNT the members that contributed get a release stamped with the master's timebase; the master's own
BARRIERs complete at once. -/
def State.rickRelease (s : State) (id : Nat) (stamp : Nat) : State :=
  let ws := tget [] s.rick.waiting id
  let s := s.modRick fun r => { r with waiting := tput [] r.waiting id [] }
  ws.foldl (fun s w => s.endDesc w.1 w.2 (okEnding stamp)) s
def State.rickArrive (s : State) (panel id count : Nat) : State :=
  let b := (tget {} s.rick.bars id).arrive count (panel, 0)
  if b.count ≤ b.arrived then
    let s := s.modRick fun r => { r with bars := tput {} r.bars id {} }
    if b.waiters.any fun w => w.1 == s.rick.panel then s.rickRelease id s.time else s
  else s.modRick fun r => { r with bars := tput {} r.bars id b }
/-- BARRIER at partition scope (R316): the service die counts, and releases at COUNT. -/
def State.partArrive (s : State) (c : Nat) (d : Desc) (id count : Nat) : State :=
  let k := (s.ctx c).cfg.part * 64 + id
  let b := (tget {} s.host.bars k).arrive count (c, d.n)
  if b.count ≤ b.arrived then
    let s := s.modHost fun h => { h with bars := tput {} h.bars k {} }
    b.waiters.foldl (fun s w => s.endDesc w.1 w.2 (okEnding s.time)) s
  else s.modHost fun h => { h with bars := tput {} h.bars k b }
/-- BARRIER (R316, R341, R345, R361). COUNT of 0 is a driver error. -/
def execBarrier (c : Nat) (s : State) : Out :=
  starting s c (· == 7) .barrier fun s d =>
    let w := d.w 1
    let id := bitsOf w 37 32
    let count := bitsOf w 31 0
    let s := s.wildDesc c (count == 0)
    if bitOf w 63 then
      if (s.partn (s.ctx c).cfg.part).cur.rickbar = false ∨ (s.rick.master = false ∧ s.rick.inrick = false) then ok (s.endDesc c d.n (errEnding 0x04 0 stNoRoute 0 none))
      else
        let s := s.modRick fun r => { r with waiting := tmod [] r.waiting id fun l => l ++ [(c, d.n)] }
        if s.rick.master then ok (s.rickArrive s.rick.panel id count) else ok s
    else ok (s.partArrive c d id count)

/-- FENCE (R156, R316): the prediction counters of the model are always up to date; with FLUSH, one read of the completion ring through each port that carried space 4
writes, of one record (log entry 21). -/
def execFence (c : Nat) (s : State) : Out :=
  starting s c (· == 8) (.fence 0) fun s d =>
    let x := s.ctx c
    let s := s.modCtx c fun x => { x with ports4 := [] }
    if bitOf (d.w 1) 0 ∧ x.ports4 ≠ [] then
      let s := s.modDesc c d.n fun y => { y with prog := .fence x.ports4.length }
      ok (x.ports4.foldl (fun s p =>
        if (s.port p).mute then s.endDesc c d.n (errEnding 0x03 0 0x11 0 none) else s.issueRead p x.cfg.cqBase 16 (.flush c d.n)) s)
    else ok (s.endOk c d 0)

/-- PREDICT (R132, R316). -/
def execPredict (c : Nat) (s : State) : Out :=
  starting s c (· == 9) .plain fun s d =>
    let w := d.w 1
    let s := s.modCtx c fun x => { x with mode := bitsOf w 1 0, audn := bitsOf w 7 4, theta := BitVec.ofNat 32 (bitsOf w 63 32) }
    ok (s.endOk c d 0)
/-- MARK (R307, R316). -/
def execMark (c : Nat) (s : State) : Out :=
  starting s c (· == 10) .plain fun s d => ok ((s.mark c (bitsOf (d.w 1) 31 0)).endOk c d s.time)

/-! ### Completion (R294, R302 to R307) -/

/-- DESCRIPTOR_COMPLETE: a descriptor that ended with OK completes; with none left the context is READY. -/
def execDescriptorComplete (c n : Nat) (s : State) : Out :=
  onCtx s c fun x =>
    match s.desc c (BitVec.ofNat 32 n) with
    | some { d := d, prog := _, fin := some e } =>
      when_ (x.st == .active && e.status == 0) s <|
        let s := s.complete c d.n d.tag d.irq e
        ok (s.modCtx c fun x =>
          let l := x.inflight.filter fun y => y.d.n != d.n
          { x with inflight := l, st := if l.isEmpty && x.ready.isEmpty && x.sqTail == x.sqHead then .ready else x.st })
    | _ => ok s

/-! ### Trackers of a PCIe edge die (R227, R228, R323) -/

/-- EDGE_TRACKER_TIMEOUT: as if an RERR with status TIMEOUT had arrived. -/
def execEdgeTrackerTimeout (pe k : Nat) (s : State) : Out :=
  if 2 ≤ pe then ok s
  else
    match lget? (s.etrks pe) k with
    | none => ok s
    | some t =>
      when_ (!t.ended && decide (t.since + s.rtoNs t.part ≤ s.time)) s <|
        ok (((s.setEtrks pe (lset (s.etrks pe) k { t with ended := true, since := s.time })).edgeFail t stTimeout).copiesAsk pe)

end Sys2Proof.Machine
end

