-- ==== Sys2Proof/Machine/Contexts.lean ====
section
/-! DEFINITION. Contexts (R293 to R298, R319 to R321): selection, configuration, release, restart, halt, faults and the step watchdog. -/

namespace Sys2Proof.Machine

def ctxStCode : CtxSt → Nat
  | .free => 0
  | .ready => 1
  | .active => 2
  | .halted => 3
  | .resetting => 4
/-- CTX_STATUS, with ERR and ECODE of the port that reads it (R295); CAUSE is 0 when not HALTED. -/
def Ctx.statusWord (x : Ctx) (err : Bool) (ecode : Nat) : Nat :=
  ctxStCode x.st * 2 ^ 29 + x.epoch * 2 ^ 25 + b2n err * 2 ^ 24 + ecode * 2 ^ 20 + (if x.st = .halted then x.cause else 0) * 2 ^ 8 + x.status
/-- CTX_FAULT (R295). -/
def Ctx.faultWord (x : Ctx) : Nat :=
  x.findex.toNat * 2 ^ 16 + match x.ftile with
    | some t => 2 ^ 15 + t % 32768
    | none => 0

/-! ### Commands (R294 to R297) -/

/-- CTX_SEL: the committed values of the selected context go to the port's staging set (R295). -/
def execCtxSel (port : Nat) (v : W32) (s : State) : Out :=
  gated s port 0x4000 <|
    let c := bitsOf v 11 0
    ok (s.modPort port fun p => { p with ctxSel := c, stage := (s.ctx c).cfg })

/-- The outcome of a command, for CTX_STATUS.ERR and ECODE (R295, R296). -/
def State.ctxCmd (s : State) (port ecode : Nat) : State := s.modPort port fun p => { p with err := ecode != 0, ecode }

/-- The reason to refuse a CONFIGURE (R296). -/
def State.configureCode (s : State) (c : Nat) (g : CtxCfg) : Nat :=
  let q := s.partn g.part
  let p := s.port g.port
  if (s.ctx c).st ≠ .free then 1
  else if q.st = .undefined ∨ 3072 ≤ c ∨ c < q.cur.first ∨ q.cur.first + q.cur.count ≤ c then 2
  else if p.link = false ∨ p.cut = true then 3
  else if g.sqLog2 < 6 ∨ 16 < g.sqLog2 ∨ g.cqLog2 < 6 ∨ 16 < g.cqLog2 ∨ 3600000 < g.wdog then 4
  else 0
/-- A context as CONFIGURE leaves it: counts, policy and prediction counters zero, the epoch kept (R294, R525; log entry 22). -/
def Ctx.configured (x : Ctx) (g : CtxCfg) : Ctx := { st := .ready, epoch := x.epoch, cfg := g }
/-- CONFIGURE (R294 to R296). -/
def execConfigure (port : Nat) (s : State) : Out :=
  gated s port 0x401C <|
    let p := s.port port
    let c := p.ctxSel
    let e := s.configureCode c p.stage
    if e = 0 then ok ((s.modCtx c fun x => x.configured p.stage).ctxCmd port 0) else ok (s.ctxCmd port e)

/-- What a stop of a context takes with it: cores, trackers, starts and loads (R177, R226), its host reads, and the trackers of the edge dies, whose
late responses then change nothing (R323); loads of others go on with the trackers freed (R203). -/
def State.quiet (s : State) (c : Nat) : State :=
  let s := (s.stopCtx c).loadersGo
  s.modHost fun h =>
    let mine (r : HostRead) : Bool := match r.for_ with
      | .fetch d _ _ => d == c
      | .copy d _ _ => d == c
      | .flush d _ => d == c
      | _ => false
    let done (l : List ETrk) : List ETrk := l.map fun t => match t.for_ with
      | .dbg => t
      | _ => if t.ctx = c then { t with ended := true } else t
    { h with reads := h.reads.filter fun r => !mine r, etrk0 := done h.etrk0, etrk1 := done h.etrk1 }
/-- The COPYs of both dies go on as reads are free again (R311). -/
def State.copiesGo (s : State) : State := (s.copiesAsk 0).copiesAsk 1
/-- Causes noted for a context are of no further use, and it waits at no barrier; its arrivals stay counted (R316). -/
def State.forget (s : State) (c : Nat) : State :=
  let s := s.modHost fun h =>
    { h with faults := h.faults.filter (fun x => x.ctx != c),
             bars := h.bars.map fun e => (e.1, { e.2 with waiters := e.2.waiters.filter fun w => w.1 != c }) }
  s.modRick fun r => { r with waiting := r.waiting.map fun e => (e.1, e.2.filter fun w => w.1 != c) }

/-- RELEASE (R294). -/
def execRelease (port : Nat) (s : State) : Out :=
  gated s port 0x401C <|
    let c := (s.port port).ctxSel
    let x := s.ctx c
    if x.st = .ready ∨ x.st = .halted then
      ok ((((s.quiet c).forget c).setCtx c { st := .free, epoch := x.epoch, cfg := x.cfg }).ctxCmd port 0)
    else ok (s.ctxCmd port 1)

/-- Steps 1 to 3 of a restart (R297): EPOCH rises and begins to spread to the epoch tables, where a service die runs; otherwise when one does (R223, R482; log entry
33). -/
def State.restart (s : State) (c : Nat) : State :=
  (((s.quiet c).forget c).modCtx c fun x =>
    { x with st := .resetting, ready := [], inflight := [], told := [], epochDue := !s.svRuns, epoch := if s.svRuns then (x.epoch + 1) % 16 else x.epoch }).copiesGo
/-- RESTART through the doorbell or CTX_CMD, which needs no session (R290, R294, R295, R297). -/
def execRestart (port ctx : Nat) (db : Bool) (s : State) : Out :=
  let may (x : Ctx) : Bool := x.st == .ready || x.st == .active || x.st == .halted
  if db then doorbell s port ctx fun x => when_ (may x) s <| ok (s.restart ctx)
  else if !s.reach port then ok s
  else
    let c := (s.port port).ctxSel
    if may (s.ctx c) then ok ((s.restart c).ctxCmd port 0) else ok (s.ctxCmd port 1)

/-- The end of a restart (R297): every epoch table holds the new epoch, for which a service die is needed (R482); a warm reset's contexts wait for its end (R337). -/
def State.restartDone (s : State) (c : Nat) : State :=
  let s := s.modCtx c fun x =>
    { x with st := .ready, epoch := if x.epochDue then (x.epoch + 1) % 16 else x.epoch, epochDue := false, told := [], sqHead := 0, sqTail := 0, cqTail := 0, cqHead := 0, asked := 0, cause := 0, irqSent := false,
             byWarm := false }
  s.raiseCtx 0x0011 c (s.ctx c).epoch 0
/-- RESTART_DONE. -/
def execRestartDone (c : Nat) (s : State) : Out :=
  onCtx s c fun x => when_ (x.st == .resetting && !x.byWarm && s.svRuns) s <| ok (s.restartDone c)

/-- HALT faults the context with cause DRIVER (R294, R319). -/
def execHalt (port : Nat) (s : State) : Out :=
  gated s port 0x401C <|
    let c := (s.port port).ctxSel
    let x := s.ctx c
    if x.st = .ready ∨ x.st = .active then
      ok ((s.note { ctx := c, cause := 6, n := none, ending := none, tile := none }).ctxCmd port 0)
    else ok (s.ctxCmd port 1)

/-! ### Faults (R319 to R321) -/

/-- The completion records of a fault: the descriptor that caused it with its status, then every other one in flight ABORTED (R320). A descriptor that was never
fetched answers with TAG 0 (R301). -/
def State.faultRecords (s : State) (c : Nat) (n : Option W32) (e : Ending) : State :=
  let l := (s.ctx c).inflight
  let s := match n with
    | none => s
    | some n =>
      match l.find? fun y => y.d.n == n with
      | some y => s.complete c n y.d.tag y.d.irq e
      | none => s.complete c n 0 false e
  (l.filter fun y => n != some y.d.n).foldl (fun s y => s.complete c y.d.n y.d.tag y.d.irq (errEnding 0x01 0 0 0 none)) s
/-- CONTEXT_FAULT: the panel acts on the first cause that has arisen for a context (R320); a cause of a context that is not READY or ACTIVE changes nothing. -/
def execContextFault (i : Nat) (s : State) : Out :=
  match lget? s.host.faults i with
  | none => ok s
  | some f =>
    if (s.host.faults.take i).any fun g => g.ctx == f.ctx then ok s
    else
    let s := s.modHost fun h => { h with faults := ldel h.faults i }
    let x := s.ctx f.ctx
    when_ (x.st == .ready || x.st == .active) s <|
      let e := f.ending.getD (errEnding 0x01 0 0 0 none)
      let s := s.modCtx f.ctx fun x =>
        { x with st := .halted, cause := f.cause, status := (f.ending.map fun e => e.status).getD 0, findex := (f.n.getD 0).setWidth 16, ftile := f.tile,
                 ready := [] }
      let s := s.quiet f.ctx
      let s := s.faultRecords f.ctx f.n e
      let s := (s.modCtx f.ctx fun x => { x with inflight := [] }).copiesGo
      let x := s.ctx f.ctx
      ok (s.raiseCtx 0x0010 f.ctx (x.statusWord false 0) x.faultWord)

/-- STEP_WATCHDOG (R321). -/
def execStepWatchdog (c : Nat) (s : State) : Out :=
  onCtx s c fun x =>
    match x.inflight with
    | [] => ok s
    | y :: _ =>
      when_ (x.st == .active && x.cfg.wdog != 0 && decide (x.wdogAt + x.cfg.wdog * ms ≤ s.time)) s <|
        ok (s.note { ctx := c, cause := 4, n := some y.d.n, ending := some (errEnding 0x0B 0 0 0 none), tile := none })

end Sys2Proof.Machine
end

