-- ==== Sys2Proof/Machine/Rick.lean ====
section
/-! DEFINITION. The rick (R345 to R362): codewords and their replay, cascade ports, admission, routes between panels, the timebase, rick barriers. -/

namespace Sys2Proof.Machine

/-! ### Ports going down and coming up (R350, R352) -/

/-- The packets of which flit slots carry flits, in order, each with whether its header flit is among them (R241, R350); the first argument is the packet of the
flit before. -/
def unackedOf : Option Packet → List CwSlot → List (Packet × Bool)
  | _, [] => []
  | o, .idle :: r => unackedOf o r
  | o, .flit p k :: r => if k ≠ 0 ∧ o = some p then unackedOf o r else (p, k == 0) :: unackedOf (some p) r
/-- The packets of a port's unacknowledged codewords. -/
def CasPort.unacked (x : CasPort) : List (Packet × Bool) := unackedOf none (x.replay.map (·.slots)).flatten

/-- The master computes rick routes anew (R355); what it sends arrives as RICK_ROUTES. -/
def State.recompute (s : State) : State := if s.rick.master then s.modRick fun r => { r with pubs := r.pubs + 1 } else s

/-- An UP port goes down (R350): packets in doubt are discarded and recorded, at most 16; of the others no flit has crossed, and they are routed again from the edge
die (R241). A packet of which flits are already acknowledged has crossed in part. -/
def State.casDown (s : State) (n : Nat) (inDoubt : Nat → Bool) : State :=
  let ps := (s.cas n).unacked
  let at_ (k : Nat) : Packet := (lget default ps k).1
  let lost (k : Nat) : Bool := inDoubt k || !(lget default ps k).2
  let ks := rangeFrom 0 ps.length
  let doubt := ((ks.filter lost).map at_).take 16
  let again := (ks.filter fun k => !lost k).map at_
  let e := casEdge n
  let s := s.modCas n fun x => { x with st := 0, replay := [], nextSeq := 0, lastSeq := 0xFF, sendNak := false, rx := none, downSeen := true }
  let s := again.foldl (fun s p => s.addFlight { pkt := p, goal := .edge e, place := .edge e, escape := false, fill := none }) s
  let s := s.linkRec { kind := 3, pc := 0, pr := 0, trow := 0, tpos := n, face := 0, time := s.time, doubt }
  (s.raiseEdge 0x0200 e n doubt.length).recompute

/-- Resends from the first unacknowledged codeword; after 8 failed resends of it the port goes down with all that it sent in doubt (R350). -/
def State.casResend (s : State) (n : Nat) : State :=
  match (s.cas n).replay with
  | [] => s
  | w :: _ =>
    if 8 ≤ w.resends then s.casDown n fun _ => true
    else s.modCas n fun x => { x with since := s.time, replay := x.replay.map fun w => { w with resends := w.resends + 1 } }

/-- Removes the codewords up to an acknowledged CSEQ (R349); an ACK that names none of them removes none. -/
def ackReplay (ack : BitVec 8) (l : List Sent) : List Sent :=
  if l.any fun w => w.cseq == ack then (l.dropWhile fun w => w.cseq != ack).drop 1 else l

/-- CASCADE_CODEWORD (R349, R350, R358): a codeword that fails decoding is asked for again; one in order delivers its flits; every good one acknowledges. -/
def execCascadeCodeword (n : Nat) (cw : Codeword) (s : State) : Out :=
  onCas s n fun x =>
    when_ (x.st == 2) s <|
      if !cw.good then ok (s.modCas n fun x => { x with sendNak := true })
      else
        let s := s.modCas n fun x =>
          let l := ackReplay cw.ack x.replay
          { x with replay := l, since := if l.length < x.replay.length then s.time else x.since }
        let s :=
          if cw.cseq = x.lastSeq + 1 then
            cw.slots.foldl (fun s x => s.casFlit n x) (s.modCas n fun x => { x with lastSeq := cw.cseq, sendNak := false })
          else s
        ok (if cw.nak then s.casResend n else s)
/-- REPLAY_TIMEOUT: 2 µs without an acknowledgement (R350). -/
def execReplayTimeout (n : Nat) (s : State) : Out :=
  onCas s n fun x => when_ (x.st == 2 && !x.replay.isEmpty && decide (x.since + 2 * us ≤ s.time)) s <| ok (s.casResend n)
/-- CASCADE_PORT_DOWN: the receiver has lost lane lock for 10 µs (R350, R362); `inDoubt` names the unacknowledged packets of which a flit has crossed. -/
def execCascadePortDown (n : Nat) (inDoubt : List Nat) (s : State) : Out :=
  onCas s n fun x => when_ (x.st == 2) s <| ok (s.casDown n inDoubt.contains)

/-- A port is ISOLATED: it carries no traffic (R347, R348). -/
def State.casIsolate (s : State) (n : Nat) : State := s.modCas n fun x => { x with st := 3, replay := [], rx := none }
/-- The panel learns that another panel holds number 0 too (R348): the lower serial number stays master, and each raises RICK_CONFLICT once for the other. -/
def State.rickConflict (s : State) (serial : W64) : State :=
  if Config.serial < serial then
    if s.rick.rivals.contains serial then s
    else (s.modRick fun r => { r with rivals := r.rivals ++ [serial] }).raisePanel 0x0207 serial.toNat 1
  else
    let s := s.modRick fun r => { r with master := false, conflict := true, admitted := [], edges := [] }
    ((rangeFrom 0 32).foldl State.casIsolate s).raisePanel 0x0207 serial.toNat 0

/-- Bring-up has reached step 4, from which cascade ports train (R437, R440). -/
def Stage_trains (x : Stage) : Bool := match x with
  | .rom | .image | .recovery | .failed => false
  | .base | .train | .compute | .selftest | .publish | .ready => true
/-- CASCADE_PORT_UP: training ends in the best mode both support (R352); a port that was down raises LINK_UP (R350). -/
def execCascadePortUp (n : Nat) (partner : CasPartner) (s : State) : Out :=
  onCas s n fun x =>
    when_ (x.en && x.st != 2 && !s.rick.conflict && s.pwr.powered && Stage_trains s.spi.stage) s <|
      let rate := max x.maxr partner.rate
      let s := s.modCas n fun x =>
        { x with st := 2, width := max x.maxw partner.width, rate, fec := rate != 0 && x.detok && partner.detok, spare := partner.spare,
                 ppanel := partner.panel, pport := partner.port, pserial := partner.serial, since := s.time, downSeen := false }
      let s := if x.st = 0 ∨ x.downSeen = true then s.raiseEdge 0x0201 (casEdge n) n 0 else s
      let s := s.recompute
      if s.rick.master ∧ partner.panel = 0 ∧ partner.serial ≠ Config.serial then ok (s.rickConflict partner.serial) else ok s

/-- CAS_PCFG (R353): the limits change and the port trains again, with what its replay buffer holds to be sent after it (log entry 92); with EN 0 it goes down. The
ports of a panel that has stepped down stay ISOLATED (R348). -/
def State.casCfg (s : State) (n : Nat) (v : W32) : State :=
  let up := (s.cas n).st == 2
  let s := s.modCas n fun x => { x with en := bitOf v 31, maxw := bitsOf v 30 29, maxr := bitsOf v 28 27, detok := bitOf v 26 }
  if s.rick.conflict then s
  else if bitOf v 31 then s.modCas n fun x => { x with st := 1 }
  else if up then s.casDown n fun _ => true
  else s.modCas n fun x => { x with st := 0 }
def execCasPcfg (port n : Nat) (v : W32) (s : State) : Out :=
  onCas s n fun _ => gated0 s port (0x24100 + 8 * n) <| ok (s.casCfg n v)

/-! ### Admission and routes (R345 to R348, R355) -/

/-- The panels, by serial number, that trained links join to some panels, in at most `n` links (R345). -/
def linked (edges : List (W64 × W64)) : Nat → List W64 → List W64
  | 0, l => l
  | n + 1, l => linked edges n (l ++ (edges.filterMap fun e =>
      if l.contains e.1 && !l.contains e.2 then some e.2 else if l.contains e.2 && !l.contains e.1 then some e.1 else none).eraseDups)
/-- What a master's port leads toward: its partner and the panels behind it. -/
def State.behind (s : State) (n : Nat) : List W64 :=
  if (s.cas n).st = 2 then linked (s.rick.edges.filter fun e => e.1 != Config.serial && e.2 != Config.serial) 64 [(s.cas n).pserial] else []
/-- The members of a rick on its master: the admitted panels that trained links join to it (R345, R354). -/
def State.members (s : State) : List Nat :=
  let all := ((rangeFrom 0 32).map s.behind).flatten
  (s.rick.admitted.filter fun m => all.contains m.2).map (·.1)

/-- The trained links of a panel are those it announces (R345). -/
def Rick.told (r : Rick) (serial : W64) (partners : List W64) : Rick :=
  { r with edges := r.edges.filter (fun e => e.1 != serial && e.2 != serial) ++ partners.map fun q => (serial, q) }
/-- RICK_ANNOUNCE: a panel's announcement reaches the master through a port that is UP, with the serial numbers of the panels at its trained links (R345, R347,
R348). A panel that is no longer joined to the master keeps its number from no other (log entry 57). -/
def execRickAnnounce (panel : Nat) (serial : W64) (via : Announcement) (s : State) : Out :=
  when_ (s.rick.master && decide (panel < 64) && decide (via.port < 32) && (s.cas via.port).st == 2) s <|
    if panel = 0 then (if serial = Config.serial then ok s else ok (s.rickConflict serial))
    else
      let held := s.members
      let s := s.modRick fun r => r.told serial via.partners
      let admits (s : State) : State := (s.modRick fun r => { r with admitted := r.admitted.filter (fun m => m.1 != panel) ++ [(panel, serial)] }).recompute
      match s.rick.admitted.find? fun m => m.1 == panel with
      | none => ok (admits s)
      | some m =>
        if m.2 = serial ∨ held.contains panel = false then ok (admits s)
        else ok (((rangeFrom 0 32).filter fun n => n == via.port || (s.behind n).contains serial).foldl State.casIsolate s)

/-- A command of CAS_CTL (R346, R354): only the master runs it; CONTEXT takes the word's field on every panel. -/
def casCtl (s : State) (port : Nat) (v : Option W32) (k : State → Out) : Out :=
  gated0 s port 0x2400C <|
    when_ (s.svRuns && !s.rick.busy) s <|
      let s := match v with
        | some w => s.modRick fun r => { r with context := bitsOf w 27 16 }
        | none => s
      if s.rick.master then k (s.modRick fun r => { r with err := false, busy := true }) else ok (s.modRick fun r => { r with err := true })
/-- PUBLISH: it runs until the routes that it computes are written here (R354, R355). -/
def execPublish (port : Nat) (s : State) : Out := casCtl s port none fun s => ok (s.modRick fun r => { r with publishing := true }).recompute
/-- RICK_ROUTES: published routes reach the panel, and its service die writes them everywhere (R355); a panel that receives them is in the rick. -/
def execRickRoutes (gen : Nat) (s : State) : Out :=
  when_ (s.svRuns && !s.rick.conflict && decide (0 < gen) && (!s.rick.master || gen == s.rick.pubs)) s <|
    ok (s.modRick fun r =>
      { r with gen, routed := (rangeFrom 0 64).filter (fun q => q != r.panel && (Config.rickRoute gen q).getLsbD 12), inrick := !r.master,
               busy := r.busy && !r.publishing, publishing := false })

/-! ### Rick-wide restart (R359) -/

/-- A rick-wide restart restarts a context on a panel where it is configured (R297, R359). -/
def State.rickRestart (s : State) (c : Nat) : State :=
  let st := (s.ctx c).st
  if c < 3072 ∧ (st = .ready ∨ st = .active ∨ st = .halted) then s.restart c else s
/-- RRESTART: written on the master, the context restarts here and the members are told; the master's order reaches a member as that of port 4 (R359). -/
def execRrestart (port : Nat) (v : W32) (s : State) : Out :=
  if port = 4 then when_ (s.rick.inrick && !s.rick.master && !s.rick.conflict) s <| ok (s.rickRestart (bitsOf v 27 16))
  else casCtl s port (some v) fun s => ok (s.rickRestart (bitsOf v 27 16))
/-- RRESTART_DONE: every member, this panel included, has reported the restart done. -/
def execRrestartDone (s : State) : Out :=
  when_ (s.rick.busy && !s.rick.publishing && (s.ctx s.rick.context).st != .resetting) s <| ok (s.modRick fun r => { r with busy := false })

/-! ### Timebase (R360) -/

/-- TIMEBASE_SYNC: a member takes the master's timebase, corrected for the links' delay. It never moves backward: ahead of the master it holds its count, behind
it it slews, or steps forward where the difference exceeds 10 µs. -/
def execTimebaseSync (master : Nat) (s : State) : Out :=
  when_ (!s.rick.master && s.rick.inrick && !s.rick.conflict) s <|
    let s := s.modRick fun r => { r with tsync := true, slew := 0, holdNs := 0 }
    if master < s.time then ok (s.modRick fun r => { r with holdNs := s.time - master })
    else if s.time + 10 * us < master then ok { s with time := master }
    else ok (s.modRick fun r => { r with slew := master - s.time })
/-- MASTER_LOST: the member counts on from its last corrected value (R360, R362). -/
def execMasterLost (s : State) : Out :=
  when_ (!s.rick.master && s.rick.tsync) s <| ok (s.modRick fun r => { r with tsync := false, slew := 0, holdNs := 0 })

/-! ### Rick barriers (R361) -/

/-- RICK_BARRIER_ARRIVAL: a member's arrival reaches the master. -/
def execRickBarrierArrival (panel id : Nat) (count : W32) (s : State) : Out :=
  when_ (s.rick.master && decide (id < 64) && s.members.contains panel) s <| ok (s.rickArrive panel id count.toNat)
/-- RICK_BARRIER_RELEASE: the waiting BARRIERs of the ID complete with the master's stamp. -/
def execRickBarrierRelease (id : Nat) (stamp : W64) (s : State) : Out :=
  when_ (!s.rick.master && s.rick.inrick && decide (id < 64)) s <| ok (s.rickRelease id stamp.toNat)

end Sys2Proof.Machine
end

