-- ==== Sys2Proof/Machine/Clocking.lean ====
section
/-! DEFINITION. The oscillator mesh and frequency steps (chapter 11, R363 to R383). -/

namespace Sys2Proof.Machine

/-! ### References (R364, R375, R376) -/

/-- DATA0 of a reference event (R383): 0 and 1 are REFCLK-A and REFCLK-B, 2 both, and an edge die shows 3 and its edge id. -/
def refWord (input : Nat) : Nat := if input < 3 then input else 3 + input * 256
/-- A reference input of R363: REFCLK-A, REFCLK-B, both at once (2), or one of a memory or cascade edge die. -/
def refInput (input : Nat) : Bool := decide (input < 3) || decide (0x08 ≤ input ∧ input < 0x18)
/-- The inputs that a reference command names. -/
def refInputs (input : Nat) : List Nat := if input = 2 then [0, 1] else [input]
def Clk.lossOf (k : Clk) (input : Nat) : Option Nat := (k.losses.find? fun l => l.1 == input).map (·.2)

/-- CLK_REF_LOSS: with both corners' references gone the mesh is in holdover and every site holds its step; that loss raises one event, for both (R375). -/
def execClkRefLoss (input : Nat) (s : State) : Out :=
  let is := refInputs input
  when_ (refInput input && is.all fun i => (s.clk.lossOf i).isNone) s <|
    let s := s.modClk fun k =>
      { k with losses := k.losses ++ is.map (fun i => (i, s.time)), refA := k.refA && !is.contains 0, refB := k.refB && !is.contains 1 }
    if input < 3 ∧ s.clk.refA = false ∧ s.clk.refB = false then
      let s := s.modClk fun k => { k with holdover := true }
      let s := allSites.foldl (fun s p => if (s.site p).st = .dark then s else (s.modSite p fun x => { x with clk := { x.clk with hold := true } }).bankNow p) s
      ok (s.raisePanel 0x0400 2 0).promise
    else ok (s.raisePanel 0x0400 (refWord input) 0)
/-- CLK_REF_RESTORED: holding ends, but for sites whose node has lost neighbours (R376). Of a loss of both, the event shows the time since both were gone. -/
def execClkRefRestored (input : Nat) (s : State) : Out :=
  let is := refInputs input
  let ts := is.filterMap s.clk.lossOf
  when_ (refInput input && ts.length == is.length) s <|
    let was := s.clk.holdover && decide (input < 3)
    let s := s.modClk fun k =>
      { k with losses := k.losses.filter fun l => !is.contains l.1, refA := k.refA || is.contains 0, refB := k.refB || is.contains 1,
               holdover := k.holdover && decide (3 ≤ input) }
    let s := if was then allSites.foldl (fun s p => if (s.site p).clk.lossHold then s else s.endHold p) s else s
    ok (s.raisePanel 0x0401 (refWord input) ((s.time - lmax 0 ts) / us)).promise
/-- EDGE_HOLDOVER_EXPIRY: the edge die's reference has been absent for 10 s; its channels and ports go down (R275, R350, R375). -/
def execEdgeHoldoverExpiry (edge : Nat) (s : State) : Out :=
  match s.clk.lossOf edge with
  | none => ok s
  | some t =>
    when_ (decide (2 ≤ edge ∧ t + 10 * sec ≤ s.time)) s <|
      if edge < 0x10 then ok ((rangeFrom (4 * (edge - 8)) 4).foldl State.channelFails s).promise
      else ok ((rangeFrom (4 * (edge - 0x10)) 4).foldl (fun s n => if (s.cas n).st = 2 then s.casDown n fun _ => true else s) s)

/-! ### Coupling (R366, R375 to R379) -/

/-- CLK_DECOUPLED: a node drops neighbours; its site holds its step, and one without neighbours free-runs and is dropped by them too (R366, R375). The node of an
OFF site that has failed to recouple stays out (R379). -/
def execClkDecoupled (site : Nat) (faces : BitVec 4) (s : State) : Out :=
  onSite s site fun x =>
    if x.st ≠ .dark ∧ x.clk.coupled &&& faces ≠ 0 then
      let s := s.modSite site fun x =>
        ({ x with clk := { x.clk with coupled := x.clk.coupled &&& ~~~faces, hold := true, lossHold := true } } : Site).alone site
      let s := s.bankNow site
      let s := if (s.site site).clk.freeRun then s.nodeDropped site else s
      ok (s.raiseSite 0x0402 site (s.siteSource site) x.clk.coupled.toNat)
    else if x.st = .off ∧ x.clk.decoupled = true then
      let s := s.modSite site fun x => { x with pwr := { x.pwr with soft := .none, rejoining := false } }
      ok (s.raiseSite 0x0402 site (s.siteSource site) x.clk.coupled.toNat)
    else ok s
/-- CLK_RECOUPLED: the node has pulled its phase in to a neighbour of the mesh, or to the reference at a corner, and is counted again (R366, R376, R379); holding
ends unless the mesh is in holdover. -/
def execClkRecoupled (site : Nat) (s : State) : Out :=
  onSite s site fun x =>
    let near := allFaces.any fun f => match siteNeighbour site f with
      | some q => (s.site q).inMesh
      | none => false
    when_ (x.st != .dark && (isCorner site || near) && (x.clk.decoupled || x.clk.freeRun || x.clk.lossHold || x.clk.coupled != x.clk.present)) s <|
      let s := s.nodeJoin site
      let s := if s.clk.holdover then s.modSite site fun y => { y with clk := { y.clk with hold := true } } else s.endHold site
      ok (s.raiseSite 0x0403 site (s.siteSource site) 0)
/-- TIME_MESSAGE: a free-running base die measures its node's rate and scales its timebase copies by it (R377). -/
def execTimeMessage (site rate : Nat) (s : State) : Out :=
  onSite s site fun x => when_ (x.clk.freeRun && x.st != .dark && s.svRuns) s <| ok (s.modSite site fun x => { x with clk := { x.clk with tickRate := rate } })

/-! ### Steps (R370 to R373) -/

/-- STEP_CHANGE: the service die requests a site's effective step (R370 to R372); a held site takes none (R376). -/
def execStepChange (site k : Nat) (s : State) : Out :=
  onSite s site fun _ => when_ (s.mayAsk site && k == s.stepCeiling site) s <| ok (s.askStep site k)
/-- RAIL_SETTLED: a site's rails report settled (R388); a raise begins its stop when its turn in the group has come (R371, R373). -/
def execRailSettled (site : Nat) (s : State) : Out :=
  onSite s site fun x =>
    when_ (!x.pwr.settled && decide (x.pwr.settleAt ≤ s.time) && x.st != .dark) s <|
      ok ((s.modSite site fun x => { x with pwr := { x.pwr with settled := true } }).startWaiting 1)
/-- STEP_STOP_END: the PLL has relocked within the stop's 4 µs and the site is ACTIVE at the new step; or, where it failed to, it has locked again at the previous
one, `e.back` (R371, R373). The voltage follows, where a service die requests it (R482), and what waited for the stop begins: banking, or a tile remap of one of its rows (R372). -/
def execStepStopEnd (site : Nat) (e : StopEnd) (s : State) : Out :=
  onSite s site fun x =>
    when_ (x.clk.ph == .stop && (e.back || decide (e.ns ≤ 4000))) s <|
      let k := if e.back then x.clk.prev else x.clk.req
      let s := s.modSite site fun x =>
        { x with st := .active,
                 clk := { x.clk with ph := .none, cur := k, stepCnt := if e.back then x.clk.stepCnt else x.clk.stepCnt + 1, stopLast := BitVec.ofNat 16 e.ns,
                                     lastStop := some s.time } }
      let s := s.relimit site
      let s := if s.svRuns then s.setRails site (x.vcAt k) x.vsAt else s
      ok (((s.bankNow site).remapHold site).startWaiting 1)
/-- CLK_STEP_FAULT: the PLL has failed to lock at the new step and, once, at the previous one; the compute and SRAM dies enter RESET (R373). -/
def execClkStepFault (site : Nat) (s : State) : Out :=
  onSite s site fun x =>
    when_ (x.clk.ph == .stop) s <|
      let req := x.clk.req
      let s := s.siteReset site
      let s := s.modSite site fun y => { y with resetting := false, clk := { y.clk with cur := x.clk.prev, pllBad := true } }
      ok (((s.unsettle 2 site).raiseSite 0x0404 site (s.siteSource site) req).startWaiting 1).promise
/-- CLK_CEIL (R370, R382). -/
def execClkCeil (port p : Nat) (v : W32) (s : State) : Out :=
  onPart s p fun _ =>
    gated0 s port (0x14000 + 4 * p) <|
      ok ((s.partSites p).foldl State.relimit (s.modPart p fun q => { q with ceil := bitsOf v 3 0 }))

/-! ### CLK_BANK (R380, R382) -/

/-- A command of CLK_BANK names a site by its number; DARK, OFF and RESET sites refuse. -/
def clkBank (s : State) (port : Nat) (v : W32) (k : State → Nat → Out) : Out :=
  gated0 s port 0x1404C <|
    when_ s.svRuns s <|
      let S := bitsOf v 7 0
      let p := s.phys S
      let st := (s.site p).st
      let bad := st == .dark || st == .off || st == .reset
      let s := s.modClk fun c => { c with bankS := S, bankErr := bad }
      if bad then ok s else k s p
/-- BANK. -/
def execBank (port : Nat) (v : W32) (s : State) : Out :=
  clkBank s port v fun s p => ok ((s.modSite p fun x => { x with clk := { x.clk with bankDrv := true } }).bankNow p)
/-- UNBANK: what banks the site beside the driver still holds it (R382, R402). -/
def execUnbank (port : Nat) (v : W32) (s : State) : Out :=
  clkBank s port v fun s p => ok ((s.modSite p fun x => { x with clk := { x.clk with bankDrv := false } }).unbankNow p)
/-- BANK_RETURN: with its voltages restored the site is ACTIVE at its effective step (R380, R389). -/
def execBankReturn (site : Nat) (s : State) : Out :=
  onSite s site fun x =>
    when_ (x.st == .banked && x.clk.returning && x.pwr.settled) s <|
      let k := if x.clk.hold then x.clk.cur else min x.clk.req (s.stepCeiling site)
      ok ((s.modSite site fun x => { x with st := .active, clk := { x.clk with returning := false, cur := k, req := k } }).relimit site |>.remapHold site)

end Sys2Proof.Machine
end

