-- ==== Sys2Proof/Machine/RvFloat.lean ====
section
/-! DEFINITION. Binary32 arithmetic of the small cores (R98): the F extension's operations with its five rounding modes and exception flags. The manual names the
RISC-V extensions and does not spell them out; what is here follows the ratified standard (log entry 16). -/

namespace Sys2Proof.Machine

/-- A binary32 value. -/
inductive F32 where
  | nan (signalling : Bool)
  | inf (s : Bool)
  | zero (s : Bool)
  | num (s : Bool) (m : Nat) (e : Int)
deriving DecidableEq, Repr, Inhabited

/-- Exception flags of fcsr: NV 16, DZ 8, OF 4, UF 2, NX 1. -/
abbrev Flags := Nat
def fNV : Flags := 16
def fDZ : Flags := 8
/-- The union of two sets of flags. -/
def fOr (a b : Flags) : Flags := a ||| b

def f32Of (w : W32) : F32 :=
  let s := w.getLsbD 31
  let e := bitsOf w 30 23
  let m := bitsOf w 22 0
  if e = 255 then (if m = 0 then .inf s else .nan (!w.getLsbD 22))
  else if e = 0 then (if m = 0 then .zero s else .num s m (-149))
  else .num s (m + 2 ^ 23) ((e : Int) - 150)

def f32Nan : W32 := 0x7FC00000#32
def f32Inf (s : Bool) : W32 := if s then 0xFF800000#32 else 0x7F800000#32
def f32Zero (s : Bool) : W32 := if s then 0x80000000#32 else 0#32
def f32Max (s : Bool) : W32 := if s then 0xFF7FFFFF#32 else 0x7F7FFFFF#32
def F32.sign : F32 → Bool
  | .nan _ => false
  | .inf s => s
  | .zero s => s
  | .num s _ _ => s
def F32.isNan : F32 → Bool
  | .nan _ => true
  | _ => false
def F32.isSNan : F32 → Bool
  | .nan b => b
  | _ => false
/-- A number as an exact integer times a power of two. -/
def F32.int : F32 → Int × Int
  | .num s m e => (if s then -(m : Int) else m, e)
  | _ => (0, 0)

/-- `m / 2^sh` rounded in a mode, with a part below the last bit that is not zero where `sticky` holds: the result and whether it is inexact. Modes:
0 nearest even, 1 toward zero, 2 down, 3 up, 4 nearest away. -/
def rndTo (rm : Nat) (s : Bool) (m : Nat) (sh : Int) (sticky : Bool) : Nat × Bool :=
  if sh ≤ 0 then (m * 2 ^ (-sh).toNat, sticky)
  else
    let k := sh.toNat
    let q := m / 2 ^ k
    let r := m % 2 ^ k
    let inexact := r != 0 || sticky
    let up :=
      match rm with
      | 0 => decide (2 ^ k < 2 * r) || (decide (2 * r = 2 ^ k) && (sticky || q % 2 == 1))
      | 2 => s && inexact
      | 3 => !s && inexact
      | 4 => decide (2 ^ k ≤ 2 * r)
      | _ => false
    (if up then q + 1 else q, inexact)

/-- Rounds a value that is not zero into binary32; underflow is detected after rounding. -/
def roundF (rm : Nat) (s : Bool) (m : Nat) (e : Int) (sticky : Bool) : W32 × Flags :=
  if m = 0 then (f32Zero s, 0)
  else
    let ex : Int := (Nat.log2 m : Int) + e
    let q : Int := if ex - 23 < -149 then -149 else ex - 23
    let (n, inexact) := rndTo rm s m (q - e) sticky
    let (n, q) := if n = 2 ^ 24 then (2 ^ 23, q + 1) else (n, q)
    let sgn : Nat := if s then 2 ^ 31 else 0
    if 2 ^ 23 ≤ n ∧ 104 < q then
      (if rm = 1 ∨ (rm = 2 ∧ s = false) ∨ (rm = 3 ∧ s = true) then f32Max s else f32Inf s, 5)
    else
      let bits := if n < 2 ^ 23 then n else (q + 150).toNat * 2 ^ 23 + (n - 2 ^ 23)
      let tiny := decide (ex < -126) && !(decide (ex = -127) && (rndTo rm s m (ex - 23 - e) sticky).1 == 2 ^ 24)
      (BitVec.ofNat 32 (sgn + bits), (if inexact then 1 else 0) + (if inexact && tiny then 2 else 0))

/-- Rounds an exact sum; `sz` is the sign of an exact zero. -/
def roundInt (rm : Nat) (m : Int) (e : Int) (sz : Bool) : W32 × Flags :=
  if m = 0 then (f32Zero sz, 0) else roundF rm (decide (m < 0)) m.natAbs e false

/-- The exact sum of two dyadic numbers. -/
def sumDy (a b : Int × Int) : Int × Int :=
  if a.1 = 0 then b else if b.1 = 0 then a
  else if a.2 ≤ b.2 then (a.1 + b.1 * 2 ^ (b.2 - a.2).toNat, a.2) else (a.1 * 2 ^ (a.2 - b.2).toNat + b.1, b.2)

/-- The result of an operation on a NaN. -/
def nanOut (l : List F32) : W32 × Flags := (f32Nan, if l.any F32.isSNan then fNV else 0)

def fAdd (rm : Nat) (x y : W32) : W32 × Flags :=
  let a := f32Of x
  let b := f32Of y
  if a.isNan || b.isNan then nanOut [a, b]
  else
    match a, b with
    | .inf s, .inf t => if s = t then (f32Inf s, 0) else (f32Nan, fNV)
    | .inf s, _ => (f32Inf s, 0)
    | _, .inf t => (f32Inf t, 0)
    | _, _ =>
      let r := sumDy a.int b.int
      roundInt rm r.1 r.2 (if a.sign = b.sign then a.sign else rm == 2)
def fNeg (x : W32) : W32 := x ^^^ 0x80000000#32
def fSub (rm : Nat) (x y : W32) : W32 × Flags := if (f32Of y).isNan then nanOut [f32Of x, f32Of y] else fAdd rm x (fNeg y)

def fMul (rm : Nat) (x y : W32) : W32 × Flags :=
  let a := f32Of x
  let b := f32Of y
  let s := xor a.sign b.sign
  if a.isNan || b.isNan then nanOut [a, b]
  else
    match a, b with
    | .inf _, .zero _ => (f32Nan, fNV)
    | .zero _, .inf _ => (f32Nan, fNV)
    | .inf _, _ => (f32Inf s, 0)
    | _, .inf _ => (f32Inf s, 0)
    | .num _ m e, .num _ n f => roundF rm s (m * n) (e + f) false
    | _, _ => (f32Zero s, 0)

/-- x × y + z with one rounding. -/
def fMadd (rm : Nat) (x y z : W32) : W32 × Flags :=
  let a := f32Of x
  let b := f32Of y
  let c := f32Of z
  let s := xor a.sign b.sign
  let bad := match a, b with
    | .inf _, .zero _ => true
    | .zero _, .inf _ => true
    | _, _ => false
  if a.isNan || b.isNan then nanOut [a, b, c]
  else if bad then (f32Nan, fNV)
  else if c.isNan then nanOut [c]
  else
    let pinf := match a, b with
      | .inf _, _ => true
      | _, .inf _ => true
      | _, _ => false
    match pinf, c with
    | true, .inf t => if s = t then (f32Inf s, 0) else (f32Nan, fNV)
    | true, _ => (f32Inf s, 0)
    | false, .inf t => (f32Inf t, 0)
    | false, _ =>
      let r := sumDy (a.int.1 * b.int.1, a.int.2 + b.int.2) c.int
      roundInt rm r.1 r.2 (if s = c.sign then s else rm == 2)

def fDiv (rm : Nat) (x y : W32) : W32 × Flags :=
  let a := f32Of x
  let b := f32Of y
  let s := xor a.sign b.sign
  if a.isNan || b.isNan then nanOut [a, b]
  else
    match a, b with
    | .inf _, .inf _ => (f32Nan, fNV)
    | .zero _, .zero _ => (f32Nan, fNV)
    | .inf _, _ => (f32Inf s, 0)
    | _, .inf _ => (f32Zero s, 0)
    | .zero _, _ => (f32Zero s, 0)
    | .num _ _ _, .zero _ => (f32Inf s, fDZ)
    | .num _ m e, .num _ n f =>
      let k := 30 + Nat.log2 n
      roundF rm s (m * 2 ^ k / n) (e - f - (k : Int)) (m * 2 ^ k % n != 0)
    | _, _ => (f32Nan, fNV)

/-- The integer square root of a number below 2^64. -/
def isqrt (n : Nat) : Nat :=
  (rangeFrom 0 32).foldl (fun r i =>
    let c := r + 2 ^ (31 - i)
    if c * c ≤ n then c else r) 0

def fSqrt (rm : Nat) (x : W32) : W32 × Flags :=
  match f32Of x with
  | .nan b => nanOut [.nan b]
  | .zero s => (f32Zero s, 0)
  | .inf false => (f32Inf false, 0)
  | .inf true => (f32Nan, fNV)
  | .num true _ _ => (f32Nan, fNV)
  | .num false m e =>
    let k := 60 - Nat.log2 m
    let k := if (e - (k : Int)) % 2 = 0 then k else k + 1
    let n := m * 2 ^ k
    let r := isqrt n
    roundF rm false r ((e - (k : Int)) / 2) (r * r != n)

/-- The order of two values that are no NaN. -/
def f32Lt (x y : W32) : Bool :=
  let key (w : W32) : Int := if w.getLsbD 31 then -((w.toNat % 2 ^ 31 : Nat) : Int) else (w.toNat : Int)
  decide (key x < key y)
def f32Eq (x y : W32) : Bool := x == y || (x.toNat % 2 ^ 31 == 0 && y.toNat % 2 ^ 31 == 0)

def fMinMax (max : Bool) (x y : W32) : W32 × Flags :=
  let a := f32Of x
  let b := f32Of y
  let fl := if a.isSNan || b.isSNan then fNV else 0
  if a.isNan && b.isNan then (f32Nan, fl)
  else if a.isNan then (y, fl)
  else if b.isNan then (x, fl)
  else
    let less := f32Lt x y || (f32Eq x y && x.getLsbD 31)
    (if less == max then y else x, fl)

/-- Comparisons: 2 equal (quiet), 1 less, 0 less or equal (both signalling). -/
def fCmp (k : Nat) (x y : W32) : Bool × Flags :=
  let a := f32Of x
  let b := f32Of y
  if a.isNan || b.isNan then (false, if k = 2 then (if a.isSNan || b.isSNan then fNV else 0) else fNV)
  else if k = 2 then (f32Eq x y, 0)
  else if k = 1 then (f32Lt x y, 0)
  else (f32Lt x y || f32Eq x y, 0)

def fClass (x : W32) : Nat :=
  match f32Of x with
  | .inf true => 1
  | .num true m _ => if m < 2 ^ 23 then 4 else 2
  | .zero true => 8
  | .zero false => 16
  | .num false m _ => if m < 2 ^ 23 then 32 else 64
  | .inf false => 128
  | .nan true => 256
  | .nan false => 512

/-- Sign injection: 0 sgnj, 1 sgnjn, 2 sgnjx. -/
def fSgnj (k : Nat) (x y : W32) : W32 :=
  let s := if k = 0 then y.getLsbD 31 else if k = 1 then !y.getLsbD 31 else xor (x.getLsbD 31) (y.getLsbD 31)
  (x &&& 0x7FFFFFFF#32) ||| (if s then 0x80000000#32 else 0#32)

/-- Conversion into an integer of `n` bits, saturating with NV. -/
def fToInt (rm n : Nat) (signed : Bool) (x : W32) : Nat × Flags :=
  let hi : Int := if signed then 2 ^ (n - 1) - 1 else 2 ^ n - 1
  let lo : Int := if signed then -(2 ^ (n - 1)) else 0
  let put (v : Int) : Nat := (v % 2 ^ n).toNat
  match f32Of x with
  | .nan _ => (put hi, fNV)
  | .inf s => (put (if s then lo else hi), fNV)
  | .zero _ => (0, 0)
  | .num s m e =>
    let r := rndTo rm s m (-e) false
    let v : Int := if s then -(r.1 : Int) else r.1
    if hi < v then (put hi, fNV) else if v < lo then (put lo, fNV) else (put v, if r.2 then 1 else 0)
/-- Conversion from an integer of `n` bits. -/
def fOfInt (rm n : Nat) (signed : Bool) (v : Nat) : W32 × Flags :=
  roundInt rm (if signed then toSigned n v else ((v % 2 ^ n : Nat) : Int)) 0 false

/-- `num / den` to the nearest integer, halves up. -/
def nearestDiv (num den : Nat) : Nat := (2 * num + den) / (2 * den)
/-- The 7-bit reciprocal of a significand: 256 / (1 + (i + 1/2) / 128) − 128. -/
def rec7 (i : Nat) : Nat := nearestDiv (256 * 256) (257 + 2 * i) - 128
/-- The 7-bit reciprocal square root, for an index of exponent parity (bit 6) and six significand bits. -/
def rsqrt7 (idx : Nat) : Nat :=
  let i := idx % 64
  let d := if idx < 64 then 2 * (129 + 2 * i) else 129 + 2 * i
  (isqrt (256 * 256 * 128 * 2 ^ 20 / d) + 512) / 1024 - 128

/-- The estimate of 1 / x to 7 bits. -/
def fRec7 (rm : Nat) (x : W32) : W32 × Flags :=
  match f32Of x with
  | .nan b => nanOut [.nan b]
  | .inf s => (f32Zero s, 0)
  | .zero s => (f32Inf s, fDZ)
  | .num s m e =>
    let lg := Nat.log2 m
    let ex : Int := (lg : Int) + e
    if ex < -128 then
      (if rm = 1 ∨ (rm = 2 ∧ s = false) ∨ (rm = 3 ∧ s = true) then f32Max s else f32Inf s, 5)
    else
      let sig := if 7 ≤ lg then m / 2 ^ (lg - 7) % 128 else m * 2 ^ (7 - lg) % 128
      let out := rec7 sig
      let be : Int := 126 - ex
      let sgn : Nat := if s then 2 ^ 31 else 0
      if 1 ≤ be then (BitVec.ofNat 32 (sgn + be.toNat * 2 ^ 23 + out * 2 ^ 16), 0)
      else (BitVec.ofNat 32 (sgn + (2 ^ 23 + out * 2 ^ 16) / 2 ^ (1 - be).toNat), 0)
/-- The estimate of 1 / sqrt x to 7 bits. -/
def fRsqrt7 (x : W32) : W32 × Flags :=
  match f32Of x with
  | .nan b => nanOut [.nan b]
  | .inf false => (f32Zero false, 0)
  | .zero s => (f32Inf s, fDZ)
  | .inf true => (f32Nan, fNV)
  | .num true _ _ => (f32Nan, fNV)
  | .num false m e =>
    let lg := Nat.log2 m
    let be : Int := (lg : Int) + e + 127
    let sig := if 6 ≤ lg then m / 2 ^ (lg - 6) % 64 else m * 2 ^ (6 - lg) % 64
    let odd := (be % 2).toNat
    let out := rsqrt7 (odd * 64 + sig)
    (BitVec.ofNat 32 (((380 - be) / 2).toNat * 2 ^ 23 + out * 2 ^ 16), 0)

end Sys2Proof.Machine
end

