-- ==== Sys2Proof/Machine/RvVector.lean ====
section
/-! DEFINITION. The V extension of the small cores with VLEN = 256, ELEN = 64 and binary32 elements (R168): configuration and every arithmetic, mask and
permutation instruction, on one core's registers. The manual names the extension; its operations follow the ratified standard (log entry 16). Tail and masked-off
elements keep their values, which the standard allows under both policies. -/

namespace Sys2Proof.Machine

def vlenBits : Nat := 256

/-! ### Configuration -/

def sewOf (vt : W64) : Nat := 8 * 2 ^ bitsOf vt 5 3
/-- LMUL in eighths. -/
def lmul8Of (vt : W64) : Nat :=
  match bitsOf vt 2 0 with
  | 0 => 8
  | 1 => 16
  | 2 => 32
  | 3 => 64
  | 5 => 1
  | 6 => 2
  | 7 => 4
  | _ => 0
def vlmaxOf (vt : W64) : Nat := lmul8Of vt * vlenBits / 8 / sewOf vt
/-- A vtype that the implementation supports. -/
def vtypeOk (vt : W64) : Bool :=
  decide (vt.toNat < 256 ∧ bitsOf vt 5 3 ≤ 3 ∧ bitsOf vt 2 0 ≠ 4 ∧ sewOf vt * 8 ≤ lmul8Of vt * 64)
def vtypeIll : W64 := 0x8000000000000000#64

def Core.sew (k : Core) : Nat := sewOf k.vtype
def Core.lm8 (k : Core) : Nat := lmul8Of k.vtype
def Core.vlmax (k : Core) : Nat := vlmaxOf k.vtype
def Core.vill (k : Core) : Bool := bitOf k.vtype 63
def Core.frm (k : Core) : Nat := bitsOf k.fcsr 7 5
def Core.vxrm (k : Core) : Nat := bitsOf k.vcsr 2 1

/-- Sets vl and vtype for a requested length; `keep` is the form with both x0, which keeps vl. -/
def Core.setvl (k : Core) (vt : W64) (avl : Nat) (keep : Bool) : Core :=
  if vtypeOk vt then
    let vl := if keep then k.vl else min avl (vlmaxOf vt)
    if keep ∧ (k.vill = true ∨ vlmaxOf vt ≠ k.vlmax) then { k with vl := 0, vtype := vtypeIll, vstart := 0 }
    else { k with vl := vl, vtype := vt, vstart := 0 }
  else { k with vl := 0, vtype := vtypeIll, vstart := 0 }

/-! ### Elements -/

def Core.vreg (k : Core) (r : Nat) : BitVec 256 := tget 0 k.v (r % 32)
def Core.vset (k : Core) (r : Nat) (x : BitVec 256) : Core := { k with v := tput 0 k.v (r % 32) x }
/-- Element `i` of `w` bits of a register group. -/
def Core.vget (k : Core) (base w i : Nat) : Nat := (k.vreg (base + i * w / 256)).toNat / 2 ^ (i * w % 256) % 2 ^ w
def Core.vput (k : Core) (base w i x : Nat) : Core :=
  let r := base + i * w / 256
  let p := i * w % 256
  let m : BitVec 256 := BitVec.ofNat 256 ((2 ^ w - 1) * 2 ^ p)
  k.vset r ((k.vreg r &&& ~~~m) ||| BitVec.ofNat 256 (x % 2 ^ w * 2 ^ p))
def Core.mbit (k : Core) (r i : Nat) : Bool := (k.vreg r).getLsbD i

/-- An element takes part: the instruction is not masked, or v0 holds its bit. -/
def Core.active (k : Core) (vm : Bool) (i : Nat) : Bool := vm || k.mbit 0 i
/-- The elements from vstart to vl. -/
def Core.velems (k : Core) : List Nat := rangeFrom k.vstart (k.vl - k.vstart)

/-- Flags of an element: fflags in [4:0], vxsat in [5]. -/
abbrev VRes := Nat × Nat
def Core.vflags (k : Core) (fl : Nat) : Core :=
  { k with fcsr := k.fcsr ||| BitVec.ofNat 8 (fl % 32), vcsr := k.vcsr ||| BitVec.ofNat 3 (fl / 32 % 2), vstart := 0 }

/-- Applies a function of the element number and the old destination element to every active element. -/
def Core.vloop (k : Core) (vd w : Nat) (vm : Bool) (f : Nat → Nat → VRes) : Core :=
  let r := k.velems.foldl (fun (a : Core × Nat) i =>
    if k.active vm i then
      let x := f i (k.vget vd w i)
      (a.1.vput vd w i x.1, a.2 ||| x.2)
    else a) (k, 0)
  r.1.vflags r.2
/-- The same for a destination of mask bits. -/
def Core.mloop (k : Core) (vd : Nat) (vm : Bool) (f : Nat → Bool × Nat) : Core :=
  let r := k.velems.foldl (fun (a : Core × Nat) i =>
    if k.active vm i then
      let x := f i
      (a.1.vput vd 1 i (b2n x.1), a.2 ||| x.2)
    else a) (k, 0)
  r.1.vflags r.2

/-! ### Register groups -/

def regsOf (lm8 : Nat) : Nat := if lm8 ≤ 8 then 1 else lm8 / 8
/-- A group is aligned and of a legal size. -/
def grp (lm8 r : Nat) : Bool := decide (1 ≤ lm8 ∧ lm8 ≤ 64 ∧ r % regsOf lm8 = 0)
/-- A destination group of `dw`-bit elements may overlap a source group of `sw`-bit elements. -/
def ovOk (d dl dw s sl sw : Nat) : Bool :=
  let dn := regsOf dl
  let sn := regsOf sl
  decide (d + dn ≤ s ∨ s + sn ≤ d) || dw == sw || (decide (dw < sw) && d == s) || (decide (sw < dw) && decide (8 ≤ sl) && d + dn == s + sn)

/-! ### Integer elements -/

def wrapInt (w : Nat) (x : Int) : Nat := (x % 2 ^ w).toNat
/-- `v / 2^sh` rounded in the mode of vxrm. -/
def roundOff (rm : Nat) (v : Int) (sh : Nat) : Int :=
  if sh = 0 then v
  else
    let q := v / 2 ^ sh
    let r := (v % 2 ^ sh).toNat
    let h := 2 ^ (sh - 1)
    match rm with
    | 0 => if h ≤ r then q + 1 else q
    | 1 => if h < r ∨ (r = h ∧ q % 2 = 1) then q + 1 else q
    | 2 => q
    | _ => if r ≠ 0 ∧ q % 2 = 0 then q + 1 else q
def satU (w : Nat) (x : Int) : VRes := if x < 0 then (0, 32) else if 2 ^ w ≤ x then (2 ^ w - 1, 32) else (x.toNat, 0)
def satS (w : Nat) (x : Int) : VRes :=
  if x < -(2 ^ (w - 1)) then (2 ^ (w - 1), 32) else if 2 ^ (w - 1) ≤ x then (2 ^ (w - 1) - 1, 32) else (wrapInt w x, 0)

/-- OPI operations of one width on elements a (vs2) and b. -/
def vOpi (f6 w rm a b : Nat) : Option VRes :=
  let sa := toSigned w a
  let sb := toSigned w b
  let ia : Int := a
  let ib : Int := b
  let sh := b % w
  match f6 with
  | 0x00 => some (wrapInt w (ia + ib), 0)
  | 0x02 => some (wrapInt w (ia - ib), 0)
  | 0x03 => some (wrapInt w (ib - ia), 0)
  | 0x04 => some (min a b, 0)
  | 0x05 => some (if sa < sb then a else b, 0)
  | 0x06 => some (max a b, 0)
  | 0x07 => some (if sa < sb then b else a, 0)
  | 0x09 => some (a &&& b, 0)
  | 0x0A => some (a ||| b, 0)
  | 0x0B => some (a ^^^ b, 0)
  | 0x20 => some (satU w (ia + ib))
  | 0x21 => some (satS w (sa + sb))
  | 0x22 => some (satU w (ia - ib))
  | 0x23 => some (satS w (sa - sb))
  | 0x25 => some (a * 2 ^ sh % 2 ^ w, 0)
  | 0x27 => some (satS w (roundOff rm (sa * sb) (w - 1)))
  | 0x28 => some (a / 2 ^ sh, 0)
  | 0x29 => some (wrapInt w (sa / 2 ^ sh), 0)
  | 0x2A => some (wrapInt w (roundOff rm ia sh), 0)
  | 0x2B => some (wrapInt w (roundOff rm sa sh), 0)
  | _ => none

/-- OPM operations of one width; c is the old destination element. -/
def vOpm (f6 w rm a b c : Nat) : Option VRes :=
  let sa := toSigned w a
  let sb := toSigned w b
  let sc := toSigned w c
  let ia : Int := a
  let ib : Int := b
  match f6 with
  | 0x08 => some (wrapInt w (roundOff rm (ia + ib) 1), 0)
  | 0x09 => some (wrapInt w (roundOff rm (sa + sb) 1), 0)
  | 0x0A => some (wrapInt w (roundOff rm (ia - ib) 1), 0)
  | 0x0B => some (wrapInt w (roundOff rm (sa - sb) 1), 0)
  | 0x20 => some (if b = 0 then 2 ^ w - 1 else a / b, 0)
  | 0x21 => some (if b = 0 then 2 ^ w - 1 else wrapInt w (Int.tdiv sa sb), 0)
  | 0x22 => some (if b = 0 then a else a % b, 0)
  | 0x23 => some (if b = 0 then a else wrapInt w (Int.tmod sa sb), 0)
  | 0x24 => some (a * b / 2 ^ w, 0)
  | 0x25 => some (a * b % 2 ^ w, 0)
  | 0x26 => some (wrapInt w (sa * ib / 2 ^ w), 0)
  | 0x27 => some (wrapInt w (sa * sb / 2 ^ w), 0)
  | 0x29 => some (wrapInt w (sb * sc + sa), 0)
  | 0x2B => some (wrapInt w (-(sb * sc) + sa), 0)
  | 0x2D => some (wrapInt w (sb * sa + sc), 0)
  | 0x2F => some (wrapInt w (-(sb * sa) + sc), 0)
  | _ => none

/-- Widening OPM operations on w-bit elements (a is 2w bits for the .w forms): results of 2w bits. -/
def vOpw (f6 w a b c : Nat) : Option Nat :=
  let d := 2 * w
  let sa := toSigned w a
  let sb := toSigned w b
  let wa := toSigned d a
  let ia : Int := a
  let ib : Int := b
  let ic : Int := c
  match f6 with
  | 0x30 => some (wrapInt d (ia + ib))
  | 0x31 => some (wrapInt d (sa + sb))
  | 0x32 => some (wrapInt d (ia - ib))
  | 0x33 => some (wrapInt d (sa - sb))
  | 0x34 => some (wrapInt d (ia + ib))
  | 0x35 => some (wrapInt d (wa + sb))
  | 0x36 => some (wrapInt d (ia - ib))
  | 0x37 => some (wrapInt d (wa - sb))
  | 0x38 => some (wrapInt d (ia * ib))
  | 0x3A => some (wrapInt d (sa * ib))
  | 0x3B => some (wrapInt d (sa * sb))
  | 0x3C => some (wrapInt d (ia * ib + ic))
  | 0x3D => some (wrapInt d (sa * sb + ic))
  | 0x3E => some (wrapInt d (sa * ib + ic))
  | 0x3F => some (wrapInt d (ia * sb + ic))
  | _ => none

/-- Integer comparisons into a mask. -/
def vCmp (f6 w a b : Nat) : Option Bool :=
  let sa := toSigned w a
  let sb := toSigned w b
  match f6 with
  | 0x18 => some (a == b)
  | 0x19 => some (a != b)
  | 0x1A => some (decide (a < b))
  | 0x1B => some (decide (sa < sb))
  | 0x1C => some (decide (a ≤ b))
  | 0x1D => some (decide (sa ≤ sb))
  | 0x1E => some (decide (b < a))
  | 0x1F => some (decide (sb < sa))
  | _ => none

/-- Reductions: vd[0] from vs1[0] and the active elements of vs2. -/
def vRed (f6 w a b : Nat) : Option Nat :=
  match f6 with
  | 0 => some ((a + b) % 2 ^ w)
  | 1 => some (a &&& b)
  | 2 => some (a ||| b)
  | 3 => some (a ^^^ b)
  | 4 => some (min a b)
  | 5 => some (if toSigned w a < toSigned w b then a else b)
  | 6 => some (max a b)
  | 7 => some (if toSigned w a < toSigned w b then b else a)
  | _ => none

/-- What a vector instruction leaves: the core, and a value for x[rd] or f[rd]. -/
structure VOut where
  k : Core
  x : Option W64 := none
  f : Option W32 := none
deriving DecidableEq, Repr, Inhabited

/-- Fields of an OP-V instruction. -/
structure VIns where
  f6 : Nat
  vm : Bool
  vs2 : Nat
  vs1 : Nat
  vd : Nat
  /-- x[rs1] as a scalar operand, f[rs1], and which operand form the instruction has: 0 vector, 1 scalar, 2 immediate. -/
  xv : W64
  fv : W32
  form : Nat
deriving DecidableEq, Repr, Inhabited

def simm5 (n : Nat) : Int := toSigned 5 n
/-- The second operand of element `i` at a width. -/
def VIns.b (n : VIns) (k : Core) (w i : Nat) : Nat :=
  if n.form = 0 then k.vget n.vs1 w i else if n.form = 1 then n.xv.toNat % 2 ^ w else wrapInt w (simm5 n.vs1)
/-- The second operand where the immediate is unsigned. -/
def VIns.ub (n : VIns) (k : Core) (w i : Nat) : Nat := if n.form = 2 then n.vs1 else n.b k w i
def VIns.usesUimm (n : VIns) : Bool := n.f6 == 0x25 || n.f6 == 0x28 || n.f6 == 0x29 || n.f6 == 0x2A || n.f6 == 0x2B
/-- The source groups are aligned, and vs1's where it is a vector. -/
def VIns.src (n : VIns) (k : Core) : Bool := grp k.lm8 n.vs2 && (n.form != 0 || grp k.lm8 n.vs1)
/-- The destination is not v0 where v0 masks. -/
def VIns.dst (n : VIns) : Bool := n.vm || n.vd != 0

/-- Scalar operand of slides and gathers, not truncated to an element. -/
def VIns.off (n : VIns) : Nat := if n.form = 2 then n.vs1 else n.xv.toNat

/-- OPIVV, OPIVX, OPIVI. -/
def vExecI (k : Core) (n : VIns) : Option VOut :=
  let w := k.sew
  let l := k.lm8
  let same := n.src k && grp l n.vd && n.dst
  let out (c : Core) : Option VOut := some { k := c }
  let mdst := n.src k && ovOk n.vd 8 1 n.vs2 l w && (n.form != 0 || ovOk n.vd 8 1 n.vs1 l w)
  match n.f6 with
  | 0x0C =>
    if same && n.vd != n.vs2 && ovOk n.vd l w n.vs2 l (w + 1) && (n.form != 0 || ovOk n.vd l w n.vs1 l (w + 1)) then
      out (k.vloop n.vd w n.vm fun i _ =>
        let j := if n.form = 0 then k.vget n.vs1 w i else n.off
        (if j < k.vlmax then k.vget n.vs2 w j else 0, 0))
    else none
  | 0x0E =>
    if n.form = 0 then
      let l16 := l * 16 / w
      if grp l n.vs2 && grp l16 n.vs1 && grp l n.vd && n.dst && ovOk n.vd l w n.vs2 l (w + 1) && ovOk n.vd l w n.vs1 l16 (w + 1) then
        out (k.vloop n.vd w n.vm fun i _ =>
          let j := k.vget n.vs1 16 i
          (if j < k.vlmax then k.vget n.vs2 w j else 0, 0))
      else none
    else if same && ovOk n.vd l w n.vs2 l (w + 1) then
      out (k.vloop n.vd w n.vm fun i old => (if i < n.off then old else k.vget n.vs2 w (i - n.off), 0))
    else none
  | 0x0F =>
    if n.form ≠ 0 ∧ same = true then
      out (k.vloop n.vd w n.vm fun i _ => (if i + n.off < k.vlmax then k.vget n.vs2 w (i + n.off) else 0, 0))
    else none
  | 0x10 =>
    if !n.vm && same then out (k.vloop n.vd w true fun i _ => ((k.vget n.vs2 w i + n.b k w i + b2n (k.mbit 0 i)) % 2 ^ w, 0)) else none
  | 0x11 =>
    if mdst then
      out (k.mloop n.vd true fun i => (decide (2 ^ w ≤ k.vget n.vs2 w i + n.b k w i + (if n.vm then 0 else b2n (k.mbit 0 i))), 0))
    else none
  | 0x12 =>
    if !n.vm && same && n.form != 2 then
      out (k.vloop n.vd w true fun i _ => (wrapInt w ((k.vget n.vs2 w i : Int) - n.b k w i - b2n (k.mbit 0 i)), 0))
    else none
  | 0x13 =>
    if mdst && n.form != 2 then
      out (k.mloop n.vd true fun i => (decide (k.vget n.vs2 w i < n.b k w i + (if n.vm then 0 else b2n (k.mbit 0 i))), 0))
    else none
  | 0x17 =>
    if n.vm then (if n.vs2 = 0 ∧ grp l n.vd = true ∧ (n.form ≠ 0 ∨ grp l n.vs1 = true) then out (k.vloop n.vd w true fun i _ => (n.b k w i, 0)) else none)
    else if same then out (k.vloop n.vd w true fun i _ => (if k.mbit 0 i then n.b k w i else k.vget n.vs2 w i, 0))
    else none
  | 0x27 =>
    if n.form = 2 then
      let nr := n.vs1 + 1
      if n.vm ∧ (nr = 1 ∨ nr = 2 ∨ nr = 4 ∨ nr = 8) ∧ n.vd % nr = 0 ∧ n.vs2 % nr = 0 then
        let per := vlenBits / w
        out (((rangeFrom k.vstart (nr * per - k.vstart)).foldl (fun (c : Core) i => c.vput n.vd w i (k.vget n.vs2 w i)) k).vflags 0)
      else none
    else if same then out (k.vloop n.vd w n.vm fun i _ => (vOpi n.f6 w k.vxrm (k.vget n.vs2 w i) (n.b k w i)).getD (0, 0))
    else none
  | 0x30 =>
    if n.form = 0 ∧ w ≤ 32 ∧ grp l n.vs2 = true ∧ k.vstart = 0 then
      if k.vl = 0 then out (k.vflags 0)
      else
        out ((k.vput n.vd (2 * w) 0 (k.velems.foldl (fun a i => if k.active n.vm i then (a + k.vget n.vs2 w i) % 2 ^ (2 * w) else a)
          (k.vget n.vs1 (2 * w) 0))).vflags 0)
    else none
  | 0x31 =>
    if n.form = 0 ∧ w ≤ 32 ∧ grp l n.vs2 = true ∧ k.vstart = 0 then
      if k.vl = 0 then out (k.vflags 0)
      else
        out ((k.vput n.vd (2 * w) 0 (k.velems.foldl (fun a i =>
            if k.active n.vm i then wrapInt (2 * w) ((a : Int) + toSigned w (k.vget n.vs2 w i)) else a) (k.vget n.vs1 (2 * w) 0))).vflags 0)
    else none
  | f =>
    if 0x2C ≤ f ∧ f ≤ 0x2F then
      if w ≤ 32 ∧ grp (2 * l) n.vs2 = true ∧ (n.form ≠ 0 ∨ grp l n.vs1 = true) ∧ grp l n.vd = true ∧ n.dst = true
          ∧ ovOk n.vd l w n.vs2 (2 * l) (2 * w) = true then
        out (k.vloop n.vd w n.vm fun i _ =>
          let a := k.vget n.vs2 (2 * w) i
          let sh := n.ub k w i % (2 * w)
          let sa := toSigned (2 * w) a
          if f = 0x2C then (a / 2 ^ sh % 2 ^ w, 0)
          else if f = 0x2D then (wrapInt w (sa / 2 ^ sh), 0)
          else if f = 0x2E then satU w (roundOff k.vxrm (a : Int) sh)
          else satS w (roundOff k.vxrm sa sh))
      else none
    else if 0x18 ≤ f ∧ f ≤ 0x1F then
      let absent := (f = 0x1A ∨ f = 0x1B) ∧ n.form = 2 ∨ (f = 0x1E ∨ f = 0x1F) ∧ n.form = 0
      if absent ∨ mdst = false then none
      else out (k.mloop n.vd n.vm fun i => ((vCmp f w (k.vget n.vs2 w i) (n.b k w i)).getD false, 0))
    else
      let absent := f = 0x02 ∧ n.form = 2 ∨ f = 0x03 ∧ n.form = 0 ∨ (0x04 ≤ f ∧ f ≤ 0x07) ∧ n.form = 2 ∨ (f = 0x22 ∨ f = 0x23) ∧ n.form = 2
      if absent ∨ same = false then none
      else
        match vOpi f w k.vxrm 0 0 with
        | none => none
        | some _ => out (k.vloop n.vd w n.vm fun i _ =>
            (vOpi f w k.vxrm (k.vget n.vs2 w i) (if n.usesUimm then n.ub k w i else n.b k w i)).getD (0, 0))

/-- Extensions vzext and vsext by a factor. -/
def vExt (k : Core) (n : VIns) (q : Nat) (sg : Bool) : Option VOut :=
  let w := k.sew
  let l := k.lm8
  if w / q < 8 ∨ l / q = 0 ∨ grp (l / q) n.vs2 = false ∨ grp l n.vd = false ∨ n.dst = false ∨ ovOk n.vd l w n.vs2 (l / q) (w / q) = false then none
  else
    some { k := k.vloop n.vd w n.vm fun i _ =>
      let a := k.vget n.vs2 (w / q) i
      (if sg then wrapInt w (toSigned (w / q) a) else a, 0) }

/-- The set bits of a mask among the active elements, in order. -/
def Core.maskOnes (k : Core) (r : Nat) (vm : Bool) : List Nat := (rangeFrom 0 k.vl).filter fun i => k.active vm i && k.mbit r i

/-- OPMVV and OPMVX. -/
def vExecM (k : Core) (n : VIns) : Option VOut :=
  let w := k.sew
  let l := k.lm8
  let same := n.src k && grp l n.vd && n.dst
  let out (c : Core) : Option VOut := some { k := c }
  match n.f6 with
  | 0x0E =>
    if n.form = 1 ∧ same = true ∧ ovOk n.vd l w n.vs2 l (w + 1) = true then
      out (k.vloop n.vd w n.vm fun i _ => (if i = 0 then n.xv.toNat % 2 ^ w else k.vget n.vs2 w (i - 1), 0))
    else none
  | 0x0F =>
    if n.form = 1 ∧ same = true then
      out (k.vloop n.vd w n.vm fun i _ => (if i + 1 = k.vl then n.xv.toNat % 2 ^ w else k.vget n.vs2 w (i + 1), 0))
    else none
  | 0x10 =>
    if n.form = 1 then
      if n.vs2 = 0 ∧ n.vm = true then out (if k.vstart < k.vl then (k.vput n.vd w 0 n.xv.toNat).vflags 0 else k.vflags 0) else none
    else if n.vs1 = 0 then
      if n.vm then some { k := k.vflags 0, x := some (BitVec.ofInt 64 (toSigned w (k.vget n.vs2 w 0))) } else none
    else if k.vstart ≠ 0 then none
    else if n.vs1 = 0x10 then some { k := k.vflags 0, x := some (BitVec.ofNat 64 (k.maskOnes n.vs2 n.vm).length) }
    else if n.vs1 = 0x11 then
      some { k := k.vflags 0, x := some (match k.maskOnes n.vs2 n.vm with
        | i :: _ => BitVec.ofNat 64 i
        | [] => BitVec.allOnes 64) }
    else none
  | 0x12 =>
    if n.form ≠ 0 then none
    else
      match n.vs1 with
      | 2 => vExt k n 8 false
      | 3 => vExt k n 8 true
      | 4 => vExt k n 4 false
      | 5 => vExt k n 4 true
      | 6 => vExt k n 2 false
      | 7 => vExt k n 2 true
      | _ => none
  | 0x14 =>
    if n.form ≠ 0 then none
    else if n.vs1 = 0x11 then
      if n.vs2 = 0 ∧ grp l n.vd = true ∧ n.dst = true then out (k.vloop n.vd w n.vm fun i _ => (i, 0)) else none
    else if k.vstart ≠ 0 ∨ n.dst = false then none
    else
      let ones := k.maskOnes n.vs2 n.vm
      if n.vs1 = 0x10 then
        if grp l n.vd && ovOk n.vd l w n.vs2 8 (w + 1) then
          out (k.vloop n.vd w n.vm fun i _ => ((ones.filter fun j => decide (j < i)).length, 0))
        else none
      else if n.vd = n.vs2 then none
      else
        let first := ones.headD k.vl
        if n.vs1 = 1 then out (k.mloop n.vd n.vm fun i => (decide (i < first), 0))
        else if n.vs1 = 2 then out (k.mloop n.vd n.vm fun i => (i == first, 0))
        else if n.vs1 = 3 then out (k.mloop n.vd n.vm fun i => (decide (i ≤ first), 0))
        else none
  | 0x17 =>
    if n.form = 0 ∧ n.vm = true ∧ k.vstart = 0 ∧ grp l n.vs2 = true ∧ grp l n.vd = true ∧ ovOk n.vd l w n.vs2 l (w + 1) = true
        ∧ ovOk n.vd l w n.vs1 8 (w + 1) = true then
      let src := (rangeFrom 0 k.vl).filter fun i => k.mbit n.vs1 i
      out ((src.zipIdx.foldl (fun (c : Core) p => c.vput n.vd w p.2 (k.vget n.vs2 w p.1)) k).vflags 0)
    else none
  | f =>
    if f ≤ 7 then
      if n.form = 0 ∧ grp l n.vs2 = true ∧ k.vstart = 0 then
        if k.vl = 0 then out (k.vflags 0)
        else
          out ((k.vput n.vd w 0 (k.velems.foldl (fun a i => if k.active n.vm i then (vRed f w a (k.vget n.vs2 w i)).getD 0 else a)
            (k.vget n.vs1 w 0))).vflags 0)
      else none
    else if 0x18 ≤ f ∧ f ≤ 0x1F then
      if n.form = 0 ∧ n.vm = true then
        out (k.mloop n.vd true fun i =>
          let a := k.mbit n.vs2 i
          let b := k.mbit n.vs1 i
          (match f with
            | 0x18 => a && !b
            | 0x19 => a && b
            | 0x1A => a || b
            | 0x1B => a != b
            | 0x1C => a || !b
            | 0x1D => !(a && b)
            | 0x1E => !(a || b)
            | _ => a == b, 0))
      else none
    else if 0x30 ≤ f then
      let wide2 := decide (0x34 ≤ f ∧ f ≤ 0x37)
      let absent := f == 0x39 || (f == 0x3E && n.form == 0)
      if absent ∨ 32 < w ∨ grp (2 * l) n.vd = false ∨ n.dst = false ∨ grp (if wide2 then 2 * l else l) n.vs2 = false
          ∨ (n.form = 0 ∧ (grp l n.vs1 = false ∨ ovOk n.vd (2 * l) (2 * w) n.vs1 l w = false))
          ∨ (wide2 = false ∧ ovOk n.vd (2 * l) (2 * w) n.vs2 l w = false) then none
      else
        match vOpw f w 0 0 0 with
        | none => none
        | some _ =>
          let mac := decide (0x3C ≤ f)
          out (k.vloop n.vd (2 * w) n.vm fun i old =>
            let a := k.vget n.vs2 (if wide2 then 2 * w else w) i
            let b := n.b k w i
            (if mac then
              (match f with
                | 0x3C => wrapInt (2 * w) ((a : Int) * b + old)
                | 0x3D => wrapInt (2 * w) (toSigned w a * toSigned w b + old)
                | 0x3E => wrapInt (2 * w) (toSigned w a * b + old)
                | _ => wrapInt (2 * w) ((a : Int) * toSigned w b + old))
             else (vOpw f w a b 0).getD 0, 0))
    else if same = false then none
    else
      match vOpm f w k.vxrm 0 1 0 with
      | none => none
      | some _ => out (k.vloop n.vd w n.vm fun i old => (vOpm f w k.vxrm (k.vget n.vs2 w i) (n.b k w i) old).getD (0, 0))

/-! ### Floating-point elements -/

def w32 (n : Nat) : W32 := BitVec.ofNat 32 n
def fRes (r : W32 × Flags) : VRes := (r.1.toNat, r.2)

/-- OPF arithmetic on a (vs2), b (vs1 or f[rs1]) and the old destination c. -/
def vOpf (f6 rm : Nat) (a b c : W32) : Option VRes :=
  match f6 with
  | 0x00 => some (fRes (fAdd rm a b))
  | 0x02 => some (fRes (fSub rm a b))
  | 0x04 => some (fRes (fMinMax false a b))
  | 0x06 => some (fRes (fMinMax true a b))
  | 0x08 => some ((fSgnj 0 a b).toNat, 0)
  | 0x09 => some ((fSgnj 1 a b).toNat, 0)
  | 0x0A => some ((fSgnj 2 a b).toNat, 0)
  | 0x20 => some (fRes (fDiv rm a b))
  | 0x21 => some (fRes (fDiv rm b a))
  | 0x24 => some (fRes (fMul rm a b))
  | 0x27 => some (fRes (fSub rm b a))
  | 0x28 => some (fRes (fMadd rm b c a))
  | 0x29 => some (fRes (fMadd rm (fNeg b) c (fNeg a)))
  | 0x2A => some (fRes (fMadd rm b c (fNeg a)))
  | 0x2B => some (fRes (fMadd rm (fNeg b) c a))
  | 0x2C => some (fRes (fMadd rm b a c))
  | 0x2D => some (fRes (fMadd rm (fNeg b) a (fNeg c)))
  | 0x2E => some (fRes (fMadd rm b a (fNeg c)))
  | 0x2F => some (fRes (fMadd rm (fNeg b) a c))
  | _ => none

/-- Comparisons into a mask. -/
def vCmpF (f6 : Nat) (a b : W32) : Option (Bool × Flags) :=
  match f6 with
  | 0x18 => some (fCmp 2 a b)
  | 0x19 => some (fCmp 0 a b)
  | 0x1B => some (fCmp 1 a b)
  | 0x1C => some (!(fCmp 2 a b).1, (fCmp 2 a b).2)
  | 0x1D => some (fCmp 1 b a)
  | 0x1F => some (fCmp 0 b a)
  | _ => none

/-- Conversions of VFUNARY0: source and destination widths and the element function, none where an operand would be binary16 or binary64. -/
def vCvt (rm w vs1 : Nat) : Option (Nat × Nat × (Nat → VRes)) :=
  let toI (m n : Nat) (sg : Bool) (a : Nat) : VRes := fToInt m n sg (w32 a)
  let ofI (n : Nat) (sg : Bool) (a : Nat) : VRes := fRes (fOfInt rm n sg a)
  match vs1 with
  | 0 => if w = 32 then some (32, 32, toI rm 32 false) else none
  | 1 => if w = 32 then some (32, 32, toI rm 32 true) else none
  | 2 => if w = 32 then some (32, 32, ofI 32 false) else none
  | 3 => if w = 32 then some (32, 32, ofI 32 true) else none
  | 6 => if w = 32 then some (32, 32, toI 1 32 false) else none
  | 7 => if w = 32 then some (32, 32, toI 1 32 true) else none
  | 8 => if w = 32 then some (32, 64, toI rm 64 false) else none
  | 9 => if w = 32 then some (32, 64, toI rm 64 true) else none
  | 10 => if w = 16 then some (16, 32, ofI 16 false) else none
  | 11 => if w = 16 then some (16, 32, ofI 16 true) else none
  | 14 => if w = 32 then some (32, 64, toI 1 64 false) else none
  | 15 => if w = 32 then some (32, 64, toI 1 64 true) else none
  | 16 => if w = 16 then some (32, 16, toI rm 16 false) else none
  | 17 => if w = 16 then some (32, 16, toI rm 16 true) else none
  | 18 => if w = 32 then some (64, 32, ofI 64 false) else none
  | 19 => if w = 32 then some (64, 32, ofI 64 true) else none
  | 22 => if w = 16 then some (32, 16, toI 1 16 false) else none
  | 23 => if w = 16 then some (32, 16, toI 1 16 true) else none
  | _ => none

/-- OPFVV and OPFVF. -/
def vExecF (k : Core) (n : VIns) : Option VOut :=
  let w := k.sew
  let l := k.lm8
  let rm := k.frm
  let same := w == 32 && n.src k && grp l n.vd && n.dst
  let out (c : Core) : Option VOut := some { k := c }
  let b (i : Nat) : W32 := if n.form = 0 then w32 (k.vget n.vs1 32 i) else n.fv
  if 4 < rm then none
  else
    match n.f6 with
    | 0x0E =>
      if n.form = 1 ∧ same = true ∧ ovOk n.vd l w n.vs2 l (w + 1) = true then
        out (k.vloop n.vd w n.vm fun i _ => (if i = 0 then n.fv.toNat else k.vget n.vs2 w (i - 1), 0))
      else none
    | 0x0F =>
      if n.form = 1 ∧ same = true then
        out (k.vloop n.vd w n.vm fun i _ => (if i + 1 = k.vl then n.fv.toNat else k.vget n.vs2 w (i + 1), 0))
      else none
    | 0x10 =>
      if w ≠ 32 ∨ n.vm = false then none
      else if n.form = 1 then
        if n.vs2 = 0 then out (if k.vstart < k.vl then (k.vput n.vd w 0 n.fv.toNat).vflags 0 else k.vflags 0) else none
      else if n.vs1 = 0 then some { k := k.vflags 0, f := some (w32 (k.vget n.vs2 32 0)) }
      else none
    | 0x12 =>
      if n.form ≠ 0 then none
      else
        match vCvt rm w n.vs1 with
        | none => none
        | some (sw, dw, f) =>
          let sl := if sw < dw then l else if dw < sw then 2 * l else l
          let dl := if sw < dw then 2 * l else l
          if grp sl n.vs2 && grp dl n.vd && n.dst && ovOk n.vd dl dw n.vs2 sl sw then out (k.vloop n.vd dw n.vm fun i _ => f (k.vget n.vs2 sw i))
          else none
    | 0x13 =>
      if n.form ≠ 0 ∨ w ≠ 32 ∨ grp l n.vs2 = false ∨ grp l n.vd = false ∨ n.dst = false then none
      else
        let un (f : W32 → VRes) : Option VOut := out (k.vloop n.vd w n.vm fun i _ => f (w32 (k.vget n.vs2 32 i)))
        match n.vs1 with
        | 0 => un fun a => fRes (fSqrt rm a)
        | 4 => un fun a => fRes (fRsqrt7 a)
        | 5 => un fun a => fRes (fRec7 rm a)
        | 16 => un fun a => (fClass a, 0)
        | _ => none
    | 0x17 =>
      if n.form ≠ 1 ∨ w ≠ 32 then none
      else if n.vm then (if n.vs2 = 0 ∧ grp l n.vd = true then out (k.vloop n.vd w true fun _ _ => (n.fv.toNat, 0)) else none)
      else if same then out (k.vloop n.vd w true fun i _ => (if k.mbit 0 i then n.fv.toNat else k.vget n.vs2 w i, 0))
      else none
    | f =>
      if f = 1 ∨ f = 3 ∨ f = 5 ∨ f = 7 then
        if n.form = 0 ∧ w = 32 ∧ grp l n.vs2 = true ∧ k.vstart = 0 then
          if k.vl = 0 then out (k.vflags 0)
          else
            let op (x y : W32) : W32 × Flags := if f = 5 then fMinMax false x y else if f = 7 then fMinMax true x y else fAdd rm x y
            let r := k.velems.foldl (fun (a : W32 × Nat) i =>
              if k.active n.vm i then
                let x := op a.1 (w32 (k.vget n.vs2 32 i))
                (x.1, a.2 ||| x.2)
              else a) (w32 (k.vget n.vs1 32 0), 0)
            out ((k.vput n.vd 32 0 r.1.toNat).vflags r.2)
        else none
      else if 0x18 ≤ f ∧ f ≤ 0x1F then
        if (f = 0x1D ∨ f = 0x1F) ∧ n.form = 0 ∨ w ≠ 32 ∨ n.src k = false ∨ ovOk n.vd 8 1 n.vs2 l w = false
            ∨ (n.form = 0 ∧ ovOk n.vd 8 1 n.vs1 l w = false) then none
        else
          match vCmpF f 0 0 with
          | none => none
          | some _ => out (k.mloop n.vd n.vm fun i => (vCmpF f (w32 (k.vget n.vs2 32 i)) (b i)).getD (false, 0))
      else if (f = 0x21 ∨ f = 0x27) ∧ n.form = 0 ∨ same = false then none
      else
        match vOpf f rm 0 0 0 with
        | none => none
        | some _ => out (k.vloop n.vd w n.vm fun i old => (vOpf f rm (w32 (k.vget n.vs2 32 i)) (b i) (w32 old)).getD (0, 0))

/-- An OP-V instruction other than the configuration ones, by funct3; none where it is illegal. -/
def vExec (k : Core) (f3 : Nat) (n : VIns) : Option VOut :=
  if k.vill then none
  else
    match f3 with
    | 0 => vExecI k { n with form := 0 }
    | 1 => vExecF k { n with form := 0 }
    | 2 => vExecM k { n with form := 0 }
    | 3 => vExecI k { n with form := 2 }
    | 4 => vExecI k { n with form := 1 }
    | 5 => vExecF k { n with form := 1 }
    | 6 => vExecM k { n with form := 1 }
    | _ => none

end Sys2Proof.Machine
end

