-- ==== Sys2Proof/Machine/RvOps.lean ====
section
/-! DEFINITION. A small core's registers, local address map, traps and CSRs (R169 to R182), and the expansion of compressed instructions. -/

namespace Sys2Proof.Machine

/-! ### Registers -/

def Core.getX (k : Core) (r : Nat) : W64 := if r = 0 then 0 else tget 0 k.x r
def Core.setX (k : Core) (r : Nat) (v : W64) : Core := if r = 0 then k else { k with x := tput 0 k.x r v }
def Core.getF (k : Core) (r : Nat) : W32 := tget 0 k.f r
def Core.setF (k : Core) (r : Nat) (v : W32) : Core := { k with f := tput 0 k.f r v }
/-- The instruction retires: the pc moves on. -/
def Core.next (k : Core) (pc : W64) : Core := { k with pc := pc, instret := k.instret + 1 }
def Core.fflag (k : Core) (fl : Nat) : Core := { k with fcsr := k.fcsr ||| BitVec.ofNat 8 (fl % 32) }

def sext (n v : Nat) : W64 := BitVec.ofInt 64 (toSigned n v)
def sext32 (v : Nat) : W64 := sext 32 v
def u64 (v : Nat) : W64 := BitVec.ofNat 64 v

/-! ### Traps (R176, R200, R471, R490) -/

/-- Trap causes: the standard's mcause codes, and 24 and 25 of R207. -/
def cFetchFault : Nat := 1
def cIllegal : Nat := 2
def cBreak : Nat := 3
def cLoadMis : Nat := 4
def cLoadFault : Nat := 5
def cStoreMis : Nat := 6
def cStoreFault : Nat := 7
def cEcall : Nat := 8
def cLockstep : Nat := 24
def cUncorr : Nat := 25

/-- The core traps into machine mode (R167, R176): mepc, mcause and mtval hold the trap, MPP holds user mode, MPIE what MIE was. -/
def Core.toMachine (k : Core) (cause : Nat) (tval : W64) : Core :=
  { k with priv := .machine, mepc := k.pc, mcause := BitVec.ofNat 64 cause, mtval := tval,
           mstatus := BitVec.ofNat 64 (bitsOf k.mstatus 3 3 * 2 ^ 7) }
/-- A core enters TRAP: machine mode, where the boot ROM records cause, mepc and mtval, discards the core's unissued transfers and stops it; CORE_TRAP is
raised and its context faulted (R176). -/
def State.trap (s : State) (t c cause : Nat) (tval : W64) : State :=
  let k := s.core t c
  let s := s.modCore t c fun k =>
    { k.toMachine cause tval with
        st := .trap, cause := BitVec.ofNat 8 cause, epc := k.pc.setWidth 32, tval := tval.setWidth 32, tq := [], waiting := none, ending := false,
        launch := none, resv := none }
  let s := s.raiseTile 0x0102 t c (if k.ctxv then some (k.ctx, k.epoch) else none) cause 0
  let s :=
    if cause = cLockstep then (s.penalise t 4).timingDetect (s.tilePhys t)
    else if cause = cUncorr ∧ tval.toNat < 0x1000000 then s.penalise t 3
    else s
  s.noteTrap t c { k with cause := BitVec.ofNat 8 cause }
/-- An uncorrectable word met by a core (R182, R254): in tile SRAM it is counted and recorded too. -/
def State.trapUncorr (s : State) (t c a : Nat) : State :=
  let s := if 0x1000000 ≤ a then s.sramUe t ((a - 0x1000000) / 8) else s
  s.trap t c cUncorr (u64 a)

/-! ### The local map (R178) -/

inductive Zone where
  | scratch
  | ctr
  | regs
  | sram
  | none
deriving DecidableEq, Repr, Inhabited
/-- What lies at a local address; in guarded mode the scratch of cores 1 and 3 does not exist (R199), and a program never sees the boot ROM. -/
def zoneOf (guarded : Bool) (a : Nat) : Zone :=
  if a < 0x40000 then (if guarded && a / 0x10000 % 2 == 1 then .none else .scratch)
  else if 0x100000 ≤ a ∧ a < 0x100200 then .ctr
  else if 0x110000 ≤ a ∧ a < 0x111000 then .regs
  else if 0x1000000 ≤ a ∧ a < 0x1180000 then .sram
  else .none

def Tile.badAt (t : Tile) (a : Nat) : Bool := if 0x1000000 ≤ a then t.badSram.contains ((a - 0x1000000) / 8) else t.badScr.contains (a / 8)

/-- In guarded mode the checker's copy of a scratch word is uncorrectable (R199). -/
def Tile.badCopy (t : Tile) (a : Nat) : Bool := t.guarded && t.badScr.contains ((a + 0x10000) / 8)
/-- In guarded mode the checker's copy of some scratch bytes differs from the leader's, or cannot be read: the pair's compare finds it (R199, R200). -/
def Tile.pairDiffers (t : Tile) (a n : Nat) : Bool := t.guarded && (t.badCopy a || memWord t.scrCopy a n != memWord t.scr a n)
/-- A load of `n` bytes, or the cause of its trap. -/
def Tile.rdMem (N : Nat) (t : Tile) (a n : Nat) : Except Nat Nat :=
  if a % n ≠ 0 then .error cLoadMis
  else
    match zoneOf t.guarded a with
    | .none => .error cLoadFault
    | .scratch => if t.badAt a then .error cUncorr else if t.pairDiffers a n then .error cLockstep else .ok (memWord t.scr a n)
    | .sram => if t.badAt a then .error cUncorr else .ok (memWord t.sram (a - 0x1000000) n)
    | .ctr => .ok (leWord (ctlRead N t a n))
    | .regs => .ok (leWord (ctlRead N t a n))

/-- A store ends the reservations of the tile's other cores on its bytes (R179). -/
def Tile.breakResv (t : Tile) (c a n : Nat) : Tile :=
  { t with cores := t.cores.map fun e =>
      (e.1, match e.2.resv with
        | some (b, m) => if e.1 ≠ c ∧ b < a + n ∧ a < b + m then { e.2 with resv := none } else e.2
        | none => e.2) }

/-- The trap of a load that fails: a difference within a pair has no address. -/
def State.trapLoad (s : State) (t c e a : Nat) : State :=
  if e = cUncorr then s.trapUncorr t c a else if e = cLockstep then s.trap t c cLockstep 0 else s.trap t c e (u64 a)
/-- Continues after a load; a single-bit error that it meets is corrected (R182, R253). -/
def coreLoad (s : State) (t c a n : Nat) (k : State → Nat → Out) : Out :=
  match (s.tile t).rdMem t a n with
  | .ok v => k (s.modTile t fun T => T.meetLocal a n) v
  | .error e => ok (s.trapLoad t c e a)

/-- A store of `n` bytes (R178, R181, R254): narrower than 4 bytes into counters or registers it is an access fault (log entry 17). Every access of a core is one step, so the model
shows of RVWMO's orders those that are sequentially consistent (DESIGN CHOICE, log entry 107). -/
def coreStore (s : State) (t c a n v : Nat) (k : State → Out) : Out :=
  let T := s.tile t
  if a % n ≠ 0 then ok (s.trap t c cStoreMis (u64 a))
  else
    match zoneOf T.guarded a with
    | .none => ok (s.trap t c cStoreFault (u64 a))
    | .scratch =>
      if n < 8 ∧ T.badAt a = true then ok (s.trapUncorr t c a)
      else if n < 8 ∧ T.badCopy a = true then ok (s.trap t c cLockstep 0)
      else k (s.setTile t ((T.scrPut a (leBytes n v)).breakResv c a n))
    | .sram =>
      if n < 8 ∧ T.badAt a = true then ok (s.trapUncorr t c a)
      else k ((s.sramStore t (a - 0x1000000) (leBytes n v)).modTile t fun T => T.breakResv c a n)
    | .ctr => if n < 4 then ok (s.trap t c cStoreFault (u64 a)) else k (s.ctlWrite t a (leBytes n v))
    | .regs => if n < 4 then ok (s.trap t c cStoreFault (u64 a)) else k (s.ctlWrite t a (leBytes n v))

/-- Addresses that atomics may name (R178). -/
def amoZone (guarded : Bool) (a : Nat) : Bool := zoneOf guarded a == .scratch || zoneOf guarded a == .sram

/-! ### CSRs (R168, R169, R172) -/

/-- A CSR's value, none where the core has none that its mode may read; a program runs in user mode, which reads no machine CSR (R167, R169). -/
def csrRead (s : State) (t c : Nat) (n : Nat) : Option W64 :=
  let k := s.core t c
  match n with
  | 0x001 => some (u64 (k.fcsr.toNat % 32))
  | 0x002 => some (u64 (k.fcsr.toNat / 32))
  | 0x003 => some (u64 k.fcsr.toNat)
  | 0x008 => some (u64 k.vstart)
  | 0x009 => some (u64 (k.vcsr.toNat % 2))
  | 0x00A => some (u64 (k.vcsr.toNat / 2))
  | 0x00F => some (u64 k.vcsr.toNat)
  | 0xC20 => some (u64 k.vl)
  | 0xC21 => some k.vtype
  | 0xC22 => some 32
  | 0xC00 => some k.cycle
  | 0xC01 => some (u64 s.time)
  | 0xC02 => some k.instret
  | 0xCC0 => some (u64 (s.rick.panel * 2 ^ 58 + c * 2 ^ 16 + t))
  | 0xCC1 => some (u64 (if k.ctxv then k.part * 2 ^ 16 + k.epoch * 2 ^ 12 + k.ctx else 0))
  | 0x8C0 => some (u64 (b2n k.gerrErr * 2 ^ 31 + k.gerrStatus.toNat * 2 ^ 16 + k.gerrCount.toNat))
  | 0x300 => if k.priv = .machine then some k.mstatus else none
  | 0x341 => if k.priv = .machine then some k.mepc else none
  | 0x342 => if k.priv = .machine then some k.mcause else none
  | 0x343 => if k.priv = .machine then some k.mtval else none
  | _ => none
/-- A write to a CSR; none where it is read-only or absent. -/
def csrWrite (k : Core) (n : Nat) (v : W64) : Option Core :=
  match n with
  | 0x001 => some { k with fcsr := BitVec.ofNat 8 (k.fcsr.toNat / 32 * 32 + v.toNat % 32) }
  | 0x002 => some { k with fcsr := BitVec.ofNat 8 (v.toNat % 8 * 32 + k.fcsr.toNat % 32) }
  | 0x003 => some { k with fcsr := BitVec.ofNat 8 v.toNat }
  | 0x008 => some { k with vstart := v.toNat % 256 }
  | 0x009 => some { k with vcsr := BitVec.ofNat 3 (k.vcsr.toNat / 2 * 2 + v.toNat % 2) }
  | 0x00A => some { k with vcsr := BitVec.ofNat 3 (v.toNat % 4 * 2 + k.vcsr.toNat % 2) }
  | 0x00F => some { k with vcsr := BitVec.ofNat 3 v.toNat }
  | 0x8C0 => some { k with gerrErr := false, gerrStatus := 0, gerrCount := 0 }
  | _ => none
/-- Cycles pass that the model does not count: a read of the cycle CSR finds it advanced by a free number (log entry 18). -/
def State.passCycles (s : State) (t c : Nat) : State :=
  let n := Config.free32 s.freeN
  (s.spend).modCore t c fun k => { k with cycle := k.cycle + (n.setWidth 64 + 1) }

/-! ### Compressed instructions -/

/-- Builders of 32-bit encodings. -/
def encI (op f3 rd rs1 imm : Nat) : Nat := imm % 4096 * 2 ^ 20 + rs1 * 2 ^ 15 + f3 * 2 ^ 12 + rd * 2 ^ 7 + op
def encR (op f3 f7 rd rs1 rs2 : Nat) : Nat := f7 * 2 ^ 25 + rs2 * 2 ^ 20 + rs1 * 2 ^ 15 + f3 * 2 ^ 12 + rd * 2 ^ 7 + op
def encS (op f3 rs1 rs2 imm : Nat) : Nat :=
  imm / 32 % 128 * 2 ^ 25 + rs2 * 2 ^ 20 + rs1 * 2 ^ 15 + f3 * 2 ^ 12 + imm % 32 * 2 ^ 7 + op
def encB (f3 rs1 rs2 imm : Nat) : Nat :=
  imm / 4096 % 2 * 2 ^ 31 + imm / 32 % 64 * 2 ^ 25 + rs2 * 2 ^ 20 + rs1 * 2 ^ 15 + f3 * 2 ^ 12 + imm / 2 % 16 * 2 ^ 8 + imm / 2048 % 2 * 2 ^ 7 + 0x63
def encJ (rd imm : Nat) : Nat :=
  imm / 2 ^ 20 % 2 * 2 ^ 31 + imm / 2 % 1024 * 2 ^ 21 + imm / 2048 % 2 * 2 ^ 20 + imm / 4096 % 256 * 2 ^ 12 + rd * 2 ^ 7 + 0x6F

/-- Sign extension of an `n`-bit field into 32 bits. -/
def sx (n v : Nat) : Nat := (toSigned n v % 2 ^ 32).toNat

/-- The 32-bit instruction that a 16-bit one stands for, none where it is illegal (RV64C with F and without D). -/
def expand (h : Nat) : Option Nat :=
  let b (i : Nat) : Nat := h / 2 ^ i % 2
  let f (hi lo : Nat) : Nat := h / 2 ^ lo % 2 ^ (hi + 1 - lo)
  let rd := f 11 7
  let rs2 := f 6 2
  let rdc := f 4 2 + 8
  let rsc := f 9 7 + 8
  let imm6 := b 12 * 32 + f 6 2
  match f 1 0, f 15 13 with
  | 0, 0 =>
    let imm := f 10 7 * 64 + f 12 11 * 16 + b 5 * 8 + b 6 * 4
    if imm = 0 then none else some (encI 0x13 0 rdc 2 imm)
  | 0, 2 => some (encI 0x03 2 rdc rsc (b 5 * 64 + f 12 10 * 8 + b 6 * 4))
  | 0, 3 => some (encI 0x03 3 rdc rsc (f 6 5 * 64 + f 12 10 * 8))
  | 0, 6 => some (encS 0x23 2 rsc rdc (b 5 * 64 + f 12 10 * 8 + b 6 * 4))
  | 0, 7 => some (encS 0x23 3 rsc rdc (f 6 5 * 64 + f 12 10 * 8))
  | 1, 0 => some (encI 0x13 0 rd rd (sx 6 imm6))
  | 1, 1 => if rd = 0 then none else some (encI 0x1B 0 rd rd (sx 6 imm6))
  | 1, 2 => some (encI 0x13 0 rd 0 (sx 6 imm6))
  | 1, 3 =>
    if imm6 = 0 then none
    else if rd = 2 then some (encI 0x13 0 2 2 (sx 10 (b 12 * 512 + f 4 3 * 128 + b 5 * 64 + b 2 * 32 + b 6 * 16)))
    else some (sx 6 imm6 % 2 ^ 20 * 2 ^ 12 + rd * 2 ^ 7 + 0x37)
  | 1, 4 =>
    match f 11 10 with
    | 0 => some (encI 0x13 5 rsc rsc imm6)
    | 1 => some (encI 0x13 5 rsc rsc (imm6 + 0x400))
    | 2 => some (encI 0x13 7 rsc rsc (sx 6 imm6))
    | _ =>
      match b 12, f 6 5 with
      | 0, 0 => some (encR 0x33 0 0x20 rsc rsc rdc)
      | 0, 1 => some (encR 0x33 4 0 rsc rsc rdc)
      | 0, 2 => some (encR 0x33 6 0 rsc rsc rdc)
      | 0, 3 => some (encR 0x33 7 0 rsc rsc rdc)
      | 1, 0 => some (encR 0x3B 0 0x20 rsc rsc rdc)
      | 1, 1 => some (encR 0x3B 0 0 rsc rsc rdc)
      | _, _ => none
  | 1, 5 => some (encJ 0 (sx 12 (b 12 * 2048 + b 8 * 1024 + f 10 9 * 256 + b 6 * 128 + b 7 * 64 + b 2 * 32 + b 11 * 16 + f 5 3 * 2)))
  | 1, 6 => some (encB 0 rsc 0 (sx 9 (b 12 * 256 + f 6 5 * 64 + b 2 * 32 + f 11 10 * 8 + f 4 3 * 2)))
  | 1, 7 => some (encB 1 rsc 0 (sx 9 (b 12 * 256 + f 6 5 * 64 + b 2 * 32 + f 11 10 * 8 + f 4 3 * 2)))
  | 2, 0 => some (encI 0x13 1 rd rd imm6)
  | 2, 2 => if rd = 0 then none else some (encI 0x03 2 rd 2 (f 3 2 * 64 + b 12 * 32 + f 6 4 * 4))
  | 2, 3 => if rd = 0 then none else some (encI 0x03 3 rd 2 (f 4 2 * 64 + b 12 * 32 + f 6 5 * 8))
  | 2, 4 =>
    if b 12 = 0 then
      if rs2 = 0 then (if rd = 0 then none else some (encI 0x67 0 0 rd 0)) else some (encR 0x33 0 0 rd 0 rs2)
    else if rs2 = 0 then (if rd = 0 then some 0x00100073 else some (encI 0x67 0 1 rd 0))
    else some (encR 0x33 0 0 rd rd rs2)
  | 2, 6 => some (encS 0x23 2 2 rs2 (f 8 7 * 64 + f 12 9 * 4))
  | 2, 7 => some (encS 0x23 3 2 rs2 (f 9 7 * 64 + f 12 10 * 8))
  | _, _ => none

/-! ### Fetch -/

/-- What stands at a core's pc: the 32-bit form of the instruction with its length, or the cause of a trap. -/
inductive Fetch where
  | ins (w : Nat) (len : Nat)
  | trap (cause : Nat) (tval : Nat)
deriving DecidableEq, Repr, Inhabited

/-- The own scratch window holds the bytes (R178). -/
def inOwn (c a n : Nat) : Bool := decide (c * 0x10000 ≤ a ∧ a + n ≤ (c + 1) * 0x10000)
def Tile.fetch (t : Tile) (c : Nat) : Fetch :=
  let a := (t.core c).pc.toNat
  if !inOwn c a 2 then .trap cFetchFault a
  else if t.badAt a then .trap cUncorr a
  else
    let h := memWord t.scr a 2
    if h % 4 ≠ 3 then
      match expand h with
      | some w => if t.pairDiffers a 2 then .trap cLockstep 0 else .ins w 2
      | none => if t.pairDiffers a 2 then .trap cLockstep 0 else .trap cIllegal h
    else if !inOwn c (a + 2) 2 then .trap cFetchFault (a + 2)
    else if t.badAt (a + 2) then .trap cUncorr (a + 2)
    else if t.pairDiffers a 2 || t.pairDiffers (a + 2) 2 then .trap cLockstep 0
    else .ins (memWord t.scr a 4) 4

/-- The fetch of an instruction of `len` bytes is a read of scratch (R182). -/
def State.fetched (s : State) (t c len : Nat) : State := s.modTile t fun T => T.meetPair (T.core c).pc.toNat len

/-- Fields of a 32-bit instruction. -/
def iOp (w : Nat) : Nat := w % 128
def iRd (w : Nat) : Nat := w / 128 % 32
def iF3 (w : Nat) : Nat := w / 2 ^ 12 % 8
def iRs1 (w : Nat) : Nat := w / 2 ^ 15 % 32
def iRs2 (w : Nat) : Nat := w / 2 ^ 20 % 32
def iRs3 (w : Nat) : Nat := w / 2 ^ 27
def iF7 (w : Nat) : Nat := w / 2 ^ 25
def iF2 (w : Nat) : Nat := w / 2 ^ 25 % 4
def immI (w : Nat) : W64 := sext 12 (w / 2 ^ 20)
def immS (w : Nat) : W64 := sext 12 (w / 2 ^ 25 * 32 + w / 128 % 32)
def immB (w : Nat) : W64 := sext 13 (w / 2 ^ 31 * 4096 + w / 128 % 2 * 2048 + w / 2 ^ 25 % 64 * 32 + w / 2 ^ 8 % 16 * 2)
def immU (w : Nat) : W64 := sext32 (w / 4096 * 4096)
def immJ (w : Nat) : W64 := sext 21 (w / 2 ^ 31 * 2 ^ 20 + w / 2 ^ 12 % 256 * 4096 + w / 2 ^ 20 % 2 * 2048 + w / 2 ^ 21 % 1024 * 2)

/-- The Xthrumrak instructions (R183). -/
inductive Xt where
  | put | get | probe | enq | cset | cadd | carm | cwait | evt
deriving DecidableEq, Repr, Inhabited
/-- The Xthrumrak instruction of an encoding; none where it is no valid one. -/
def xtOf (w : Nat) : Option Xt :=
  if iOp w = 0x2B then
    if iF2 w ≠ 0 then none
    else match iF3 w with
      | 0 => some .put
      | 1 => some .get
      | 2 => some .probe
      | _ => none
  else if iOp w = 0x0B then
    match iF3 w, iF7 w with
    | 0, 0 => if iRs2 w = 0 then some .enq else none
    | 1, 0 => some .cset
    | 1, 1 => some .cadd
    | 1, 2 => some .carm
    | 1, 3 => if iRs2 w = 0 then some .cwait else none
    | 2, 0 => if iRd w = 0 then some .evt else none
    | _, _ => none
  else none

end Sys2Proof.Machine
end

