-- ==== Sys2Proof/Machine/RiscV.lean ====
section
/-! DEFINITION. RV_INSTRUCTION: the RISC-V instructions of a small core in user mode, RV64IMAFC with Zicsr, Zicntr, Zifencei and V (R167 to R172). The manual
names the extensions; their instructions follow the ratified standard (log entry 16). -/

namespace Sys2Proof.Machine

/-- Updates the core and goes on behind an instruction of `len` bytes. -/
def fin (s : State) (t c len : Nat) (f : Core → Core) : Out :=
  ok (s.modCore t c fun k => (f k).next (k.pc + u64 len))
def illegal (s : State) (t c w : Nat) : Out := ok (s.trap t c cIllegal (u64 w))

/-! ### Integer operations -/

def slt (a b : W64) : W64 := if a.toInt < b.toInt then 1 else 0
def sltu (a b : W64) : W64 := if a.toNat < b.toNat then 1 else 0
/-- OP and OP-IMM by funct3; `alt` is sub or arithmetic right shift. -/
def alu (f3 : Nat) (alt : Bool) (a b : W64) : W64 :=
  let sh := b.toNat % 64
  match f3 with
  | 0 => if alt then a - b else a + b
  | 1 => a <<< sh
  | 2 => slt a b
  | 3 => sltu a b
  | 4 => a ^^^ b
  | 5 => if alt then a.sshiftRight sh else a >>> sh
  | 6 => a ||| b
  | _ => a &&& b
/-- OP-32. -/
def aluW (f3 : Nat) (alt : Bool) (a b : W64) : Option W64 :=
  let x : W32 := a.setWidth 32
  let y : W32 := b.setWidth 32
  let sh := b.toNat % 32
  match f3 with
  | 0 => some ((if alt then x - y else x + y).signExtend 64)
  | 1 => some ((x <<< sh).signExtend 64)
  | 5 => some ((if alt then x.sshiftRight sh else x >>> sh).signExtend 64)
  | _ => none
/-- The M extension on `w`-bit operands. -/
def mulDiv (f3 w a b : Nat) : Nat :=
  let sa := toSigned w a
  let sb := toSigned w b
  match f3 with
  | 0 => a * b % 2 ^ w
  | 1 => wrapInt w (sa * sb / 2 ^ w)
  | 2 => wrapInt w (sa * (b : Int) / 2 ^ w)
  | 3 => a * b / 2 ^ w
  | 4 => if b = 0 then 2 ^ w - 1 else wrapInt w (Int.tdiv sa sb)
  | 5 => if b = 0 then 2 ^ w - 1 else a / b
  | 6 => if b = 0 then a else wrapInt w (Int.tmod sa sb)
  | _ => if b = 0 then a else a % b

def branchTaken (f3 : Nat) (a b : W64) : Option Bool :=
  match f3 with
  | 0 => some (a == b)
  | 1 => some (a != b)
  | 4 => some (decide (a.toInt < b.toInt))
  | 5 => some (decide (b.toInt ≤ a.toInt))
  | 6 => some (decide (a.toNat < b.toNat))
  | 7 => some (decide (b.toNat ≤ a.toNat))
  | _ => none

/-- Address of an access. -/
def ea (k : Core) (r : Nat) (imm : W64) : Nat := (k.getX r + imm).toNat

/-- Integer loads: width and signedness by funct3. -/
def loadKind (f3 : Nat) : Option (Nat × Bool) :=
  match f3 with
  | 0 => some (1, true)
  | 1 => some (2, true)
  | 2 => some (4, true)
  | 3 => some (8, true)
  | 4 => some (1, false)
  | 5 => some (2, false)
  | 6 => some (4, false)
  | _ => none

/-! ### Atomics (R178, R179) -/

def amoOp (f5 w a b : Nat) : Option Nat :=
  let sa := toSigned w a
  let sb := toSigned w b
  match f5 with
  | 0x00 => some ((a + b) % 2 ^ w)
  | 0x01 => some b
  | 0x04 => some (a ^^^ b)
  | 0x08 => some (a ||| b)
  | 0x0C => some (a &&& b)
  | 0x10 => some (if sa < sb then a else b)
  | 0x14 => some (if sa < sb then b else a)
  | 0x18 => some (min a b)
  | 0x1C => some (max a b)
  | _ => none

/-- Atomics: LR, SC and AMO (R179). A store-conditional whose bytes a write that no core makes has met since its LR stores free bytes (log entry 107). -/
def rvAmo (s : State) (t c w len : Nat) : Out :=
  let T := s.tile t
  let k := T.core c
  let n := if iF3 w = 2 then 4 else 8
  let f5 := w / 2 ^ 27
  let a := (k.getX (iRs1 w)).toNat
  let v := (k.getX (iRs2 w)).toNat % 2 ^ (8 * n)
  let rd := iRd w
  if iF3 w ≠ 2 ∧ iF3 w ≠ 3 then illegal s t c w
  else if f5 = 2 then
    if iRs2 w ≠ 0 then illegal s t c w
    else if a % n = 0 ∧ amoZone T.guarded a = false then ok (s.trap t c cLoadFault (u64 a))
    else coreLoad s t c a n fun s x => fin s t c len fun k => { (k.setX rd (sext (8 * n) x)) with resv := some (a, n), resvHit := false }
  else if f5 = 3 then
    if a % n ≠ 0 then ok (s.trap t c cStoreMis (u64 a))
    else if amoZone T.guarded a = false then ok (s.trap t c cStoreFault (u64 a))
    else
      match k.resv with
      | some (b, m) =>
        if b ≤ a ∧ a + n ≤ b + m then
          let v := if k.resvHit then (Config.free64 s.freeN).toNat % 2 ^ (8 * n) else v
          coreStore (s.spendN (b2n k.resvHit)) t c a n v fun s => fin s t c len fun k => { (k.setX rd 0) with resv := none }
        else fin s t c len fun k => { (k.setX rd 1) with resv := none }
      | none => fin s t c len fun k => k.setX rd 1
  else
    match amoOp f5 (8 * n) 0 0 with
    | none => illegal s t c w
    | some _ =>
      if a % n ≠ 0 then ok (s.trap t c cStoreMis (u64 a))
      else if amoZone T.guarded a = false then ok (s.trap t c cStoreFault (u64 a))
      else
        coreLoad s t c a n fun s x =>
          coreStore s t c a n ((amoOp f5 (8 * n) x v).getD 0) fun s => fin s t c len fun k => k.setX rd (sext (8 * n) x)

/-! ### Binary32 (R98) -/

/-- The rounding mode of an instruction; none where it is reserved. -/
def rmOf (k : Core) (w : Nat) : Option Nat :=
  let r := if iF3 w = 7 then k.frm else iF3 w
  if r ≤ 4 then some r else none

def rvFp (s : State) (t c w len : Nat) : Out :=
  let k := s.core t c
  let a := k.getF (iRs1 w)
  let b := k.getF (iRs2 w)
  let rd := iRd w
  let f3 := iF3 w
  let putF (r : W32 × Flags) : Out := fin s t c len fun k => (k.setF rd r.1).fflag r.2
  let putX (v : W64) (fl : Flags) : Out := fin s t c len fun k => (k.setX rd v).fflag fl
  let bad := illegal s t c w
  let withRm (f : Nat → Out) : Out := match rmOf k w with
    | some r => f r
    | none => bad
  match iF7 w with
  | 0x00 => withRm fun r => putF (fAdd r a b)
  | 0x04 => withRm fun r => putF (fSub r a b)
  | 0x08 => withRm fun r => putF (fMul r a b)
  | 0x0C => withRm fun r => putF (fDiv r a b)
  | 0x2C => if iRs2 w = 0 then withRm fun r => putF (fSqrt r a) else bad
  | 0x10 => if f3 ≤ 2 then putF (fSgnj f3 a b, 0) else bad
  | 0x14 => if f3 ≤ 1 then putF (fMinMax (f3 == 1) a b) else bad
  | 0x50 => if f3 ≤ 2 then putX (u64 (b2n (fCmp f3 a b).1)) (fCmp f3 a b).2 else bad
  | 0x60 =>
    match iRs2 w with
    | 0 => withRm fun r => putX (sext 32 (fToInt r 32 true a).1) (fToInt r 32 true a).2
    | 1 => withRm fun r => putX (sext 32 (fToInt r 32 false a).1) (fToInt r 32 false a).2
    | 2 => withRm fun r => putX (u64 (fToInt r 64 true a).1) (fToInt r 64 true a).2
    | 3 => withRm fun r => putX (u64 (fToInt r 64 false a).1) (fToInt r 64 false a).2
    | _ => bad
  | 0x68 =>
    let x := (k.getX (iRs1 w)).toNat
    match iRs2 w with
    | 0 => withRm fun r => putF (fOfInt r 32 true x)
    | 1 => withRm fun r => putF (fOfInt r 32 false x)
    | 2 => withRm fun r => putF (fOfInt r 64 true x)
    | 3 => withRm fun r => putF (fOfInt r 64 false x)
    | _ => bad
  | 0x70 =>
    if iRs2 w ≠ 0 then bad
    else if f3 = 0 then putX (sext32 a.toNat) 0
    else if f3 = 1 then putX (u64 (fClass a)) 0
    else bad
  | 0x78 => if iRs2 w = 0 ∧ f3 = 0 then putF ((k.getX (iRs1 w)).setWidth 32, 0) else bad
  | _ => bad

/-- FMADD, FMSUB, FNMSUB, FNMADD. -/
def rvFma (s : State) (t c w len : Nat) : Out :=
  let k := s.core t c
  let a := k.getF (iRs1 w)
  let b := k.getF (iRs2 w)
  let z := k.getF (iRs3 w)
  match rmOf k w with
  | none => illegal s t c w
  | some r =>
    if iF2 w ≠ 0 then illegal s t c w
    else
      let v := match iOp w with
        | 0x43 => fMadd r a b z
        | 0x47 => fMadd r a b (fNeg z)
        | 0x4B => fMadd r (fNeg a) b z
        | _ => fMadd r (fNeg a) b (fNeg z)
      fin s t c len fun k => (k.setF (iRd w) v.1).fflag v.2

/-! ### CSR instructions -/

def rvCsr (s : State) (t c w len : Nat) : Out :=
  let n := w / 2 ^ 20
  let f3 := iF3 w
  let s := if n = 0xC00 then s.passCycles t c else s
  let k := s.core t c
  let src : W64 := if f3 < 4 then k.getX (iRs1 w) else u64 (iRs1 w)
  let writes := f3 == 1 || f3 == 5 || iRs1 w != 0
  match csrRead s t c n with
  | none => illegal s t c w
  | some old =>
    let v := if f3 % 4 = 1 then src else if f3 % 4 = 2 then old ||| src else old &&& ~~~src
    if writes then
      match csrWrite k n v with
      | none => illegal s t c w
      | some _ => fin s t c len fun k => ((csrWrite k n v).getD k).setX (iRd w) old
    else fin s t c len fun k => k.setX (iRd w) old

/-! ### Vector memory accesses (R168, R170) -/

/-- Element width in bits by the width field of a vector load or store. -/
def vWidth (f3 : Nat) : Option Nat :=
  match f3 with
  | 0 => some 8
  | 5 => some 16
  | 6 => some 32
  | 7 => some 64
  | _ => none

/-- A plan of a vector access: for each element the addresses and registers of its fields, its element width and whether masking applies. -/
structure VMem where
  eew : Nat
  elems : List Nat
  fields : Nat
  /-- Register stride between fields. -/
  stride : Nat
  vm : Bool
  vd : Nat
  addr : Nat → Nat
  firstFault : Bool

/-- The accesses of the elements in order: the state after them, and the trap that stopped them with its element. -/
inductive VStop where
  | done
  | trap (cause a i : Nat)
deriving DecidableEq, Repr

/-- One field of a load. -/
def vLoad1 (s : State) (t c : Nat) (m : VMem) (i f : Nat) : State × VStop :=
  let a := (m.addr i + f * (m.eew / 8)) % 2 ^ 64
  match (s.tile t).rdMem t a (m.eew / 8) with
  | .ok v => ((s.modTile t fun T => T.meetLocal a (m.eew / 8)).modCore t c fun k => k.vput (m.vd + f * m.stride) m.eew i v, .done)
  | .error e => (s, .trap e a i)
/-- One field of a store. -/
def vStore1 (s : State) (t c : Nat) (m : VMem) (i f : Nat) : State × VStop :=
  let n := m.eew / 8
  let a := (m.addr i + f * n) % 2 ^ 64
  let T := s.tile t
  let v := (T.core c).vget (m.vd + f * m.stride) m.eew i
  if a % n ≠ 0 then (s, .trap cStoreMis a i)
  else
    match zoneOf T.guarded a with
    | .none => (s, .trap cStoreFault a i)
    | .scratch =>
      if n < 8 ∧ T.badAt a = true then (s, .trap cUncorr a i)
      else if n < 8 ∧ T.badCopy a = true then (s, .trap cLockstep a i)
      else (s.setTile t ((T.scrPut a (leBytes n v)).breakResv c a n), .done)
    | .sram =>
      if n < 8 ∧ T.badAt a = true then (s, .trap cUncorr a i)
      else ((s.sramStore t (a - 0x1000000) (leBytes n v)).modTile t fun T => T.breakResv c a n, .done)
    | _ => if n < 4 then (s, .trap cStoreFault a i) else (s.ctlWrite t a (leBytes n v), .done)

/-- All fields of all elements. -/
def vRun (f : State → Nat → Nat → State × VStop) (fields : Nat) (s : State) (els : List Nat) : State × VStop :=
  els.foldl (fun (a : State × VStop) i =>
    (rangeFrom 0 fields).foldl (fun (a : State × VStop) j => if a.2 = .done then f a.1 i j else a) a) (s, .done)

/-- Runs a vector access and ends the instruction: a trap leaves vstart at its element; a fault-only-first load shortens vl instead behind element 0. -/
def vAccess (s : State) (t c len : Nat) (m : VMem) (isLoad : Bool) : Out :=
  let k := s.core t c
  let els := m.elems.filter fun i => k.active m.vm i
  let r := vRun (fun s i f => if isLoad then vLoad1 s t c m i f else vStore1 s t c m i f) m.fields s els
  match r.2 with
  | .done => fin r.1 t c len fun k => { k with vstart := 0 }
  | .trap cause a i =>
    if m.firstFault ∧ i ≠ 0 ∧ cause ≠ cLockstep then
      let s := if cause = cUncorr ∧ 0x1000000 ≤ a then r.1.sramUe t ((a - 0x1000000) / 8) else r.1
      fin s t c len fun k => { k with vl := i, vstart := 0 }
    else ok ((r.1.modCore t c fun k => { k with vstart := i }).trapLoad t c cause a)

/-- Vector loads and stores. -/
def rvVecMem (s : State) (t c w len : Nat) (isLoad : Bool) : Out :=
  let k := s.core t c
  let bad := illegal s t c w
  let nf := w / 2 ^ 29 + 1
  let mop := w / 2 ^ 26 % 4
  let vm := w / 2 ^ 25 % 2 == 1
  let r2 := iRs2 w
  let vd := iRd w
  let base := (k.getX (iRs1 w)).toNat
  match vWidth (iF3 w) with
  | none => bad
  | some ew =>
    if w / 2 ^ 28 % 2 = 1 then bad
    else if mop = 0 ∧ r2 = 8 then
      -- whole registers
      if vm ∧ (nf = 1 ∨ nf = 2 ∨ nf = 4 ∨ nf = 8) ∧ vd % nf = 0 ∧ (isLoad = true ∨ ew = 8) then
        let evl := nf * vlenBits / ew
        vAccess s t c len { eew := ew, elems := rangeFrom k.vstart (evl - k.vstart), fields := 1, stride := 1, vm := true, vd,
                            addr := fun i => base + i * (ew / 8), firstFault := false } isLoad
      else bad
    else if k.vill then bad
    else if mop = 0 ∧ r2 = 11 then
      if vm ∧ nf = 1 ∧ ew = 8 then
        let evl := ceilDiv k.vl 8
        vAccess s t c len { eew := 8, elems := rangeFrom k.vstart (evl - k.vstart), fields := 1, stride := 1, vm := true, vd,
                            addr := fun i => base + i, firstFault := false } isLoad
      else bad
    else
      let indexed := mop == 1 || mop == 3
      let dew := if indexed then k.sew else ew
      let dl := if indexed then k.lm8 else k.lm8 * ew / k.sew
      let il := k.lm8 * ew / k.sew
      let regs := regsOf dl
      let okIdx := !indexed || (grp il r2 && (!isLoad || (nf == 1 && ovOk vd dl dew r2 il ew) || (nf != 1 && decide (vd + nf * regs ≤ r2 ∨ r2 + regsOf il ≤ vd))))
      let okDst := grp dl vd && decide (nf * regs ≤ 8 ∧ vd + nf * regs ≤ 32) && (vm || !isLoad || vd != 0)
      let okForm := mop != 0 || r2 == 0 || (r2 == 16 && isLoad)
      if okIdx && okDst && okForm then
        let addr (i : Nat) : Nat :=
          if indexed then base + k.vget r2 ew i
          else if mop = 2 then (k.getX (iRs1 w) + k.getX r2 * u64 i).toNat
          else base + i * nf * (ew / 8)
        vAccess s t c len { eew := dew, elems := k.velems, fields := nf, stride := regs, vm, vd, addr, firstFault := decide (mop = 0 ∧ r2 = 16) } isLoad
      else bad

/-! ### OP-V -/

def rvVec (s : State) (t c w len : Nat) : Out :=
  let k := s.core t c
  let f3 := iF3 w
  if f3 = 7 then
    let rd := iRd w
    let rs1 := iRs1 w
    let setv (vt : W64) (avl : Nat) (keep : Bool) : Out :=
      fin s t c len fun k => (k.setvl vt avl keep).setX rd (u64 (k.setvl vt avl keep).vl)
    let byReg (vt : W64) : Out :=
      if rs1 = 0 then setv vt (2 ^ 64) (rd == 0) else setv vt (k.getX rs1).toNat false
    if w / 2 ^ 31 = 0 then byReg (u64 (w / 2 ^ 20 % 2048))
    else if w / 2 ^ 30 = 3 then setv (u64 (w / 2 ^ 20 % 1024)) rs1 false
    else if iF7 w = 0x40 then byReg (k.getX (iRs2 w))
    else illegal s t c w
  else
    let n : VIns := { f6 := w / 2 ^ 26, vm := w / 2 ^ 25 % 2 == 1, vs2 := iRs2 w, vs1 := iRs1 w, vd := iRd w,
                      xv := k.getX (iRs1 w), fv := k.getF (iRs1 w), form := 0 }
    match vExec k f3 n with
    | none => illegal s t c w
    | some o =>
      fin s t c len fun _ =>
        let k := match o.x with
          | some v => o.k.setX (iRd w) v
          | none => o.k
        match o.f with
        | some v => k.setF (iRd w) v
        | none => k

/-! ### One instruction -/

/-- An instruction word that is neither an Xthrumrak instruction nor the ending ECALL. -/
def rvExec (s : State) (t c w len : Nat) : Out :=
  let k := s.core t c
  let rd := iRd w
  let f3 := iF3 w
  let x1 := k.getX (iRs1 w)
  let x2 := k.getX (iRs2 w)
  let put (v : W64) : Out := fin s t c len fun k => k.setX rd v
  let bad := illegal s t c w
  match iOp w with
  | 0x37 => put (immU w)
  | 0x17 => put (k.pc + immU w)
  | 0x6F => ok (s.modCore t c fun k => (k.setX rd (k.pc + u64 len)).next (k.pc + immJ w))
  | 0x67 => if f3 = 0 then ok (s.modCore t c fun k => (k.setX rd (k.pc + u64 len)).next ((x1 + immI w) &&& ~~~(1 : W64))) else bad
  | 0x63 =>
    match branchTaken f3 x1 x2 with
    | some b => ok (s.modCore t c fun k => k.next (if b then k.pc + immB w else k.pc + u64 len))
    | none => bad
  | 0x03 =>
    match loadKind f3 with
    | some (n, sg) => coreLoad s t c (ea k (iRs1 w) (immI w)) n fun s v =>
        fin s t c len fun k => k.setX rd (if sg then sext (8 * n) v else u64 v)
    | none => bad
  | 0x23 => if f3 ≤ 3 then coreStore s t c (ea k (iRs1 w) (immS w)) (2 ^ f3) (x2.toNat % 2 ^ (8 * 2 ^ f3)) fun s => fin s t c len id else bad
  | 0x13 =>
    let hi := w / 2 ^ 26
    if f3 = 1 then (if hi = 0 then put (alu 1 false x1 (u64 (w / 2 ^ 20 % 64))) else bad)
    else if f3 = 5 then
      (if hi = 0 then put (alu 5 false x1 (u64 (w / 2 ^ 20 % 64))) else if hi = 0x10 then put (alu 5 true x1 (u64 (w / 2 ^ 20 % 64))) else bad)
    else put (alu f3 false x1 (immI w))
  | 0x1B =>
    let f7 := iF7 w
    if f3 = 0 then put ((aluW 0 false x1 (immI w)).getD 0)
    else if f3 = 1 ∧ f7 = 0 then put ((aluW 1 false x1 (u64 (iRs2 w))).getD 0)
    else if f3 = 5 ∧ (f7 = 0 ∨ f7 = 0x20) then put ((aluW 5 (f7 == 0x20) x1 (u64 (iRs2 w))).getD 0)
    else bad
  | 0x33 =>
    let f7 := iF7 w
    if f7 = 0 then put (alu f3 false x1 x2)
    else if f7 = 0x20 ∧ (f3 = 0 ∨ f3 = 5) then put (alu f3 true x1 x2)
    else if f7 = 1 then put (u64 (mulDiv f3 64 x1.toNat x2.toNat))
    else bad
  | 0x3B =>
    let f7 := iF7 w
    if f7 = 0 ∨ (f7 = 0x20 ∧ (f3 = 0 ∨ f3 = 5)) then
      match aluW f3 (f7 == 0x20) x1 x2 with
      | some v => put v
      | none => bad
    else if f7 = 1 ∧ (f3 = 0 ∨ 4 ≤ f3) then put (sext 32 (mulDiv f3 32 (x1.toNat % 2 ^ 32) (x2.toNat % 2 ^ 32)))
    else bad
  | 0x0F => if f3 ≤ 1 then fin s t c len id else bad
  | 0x2F => rvAmo s t c w len
  | 0x07 =>
    if f3 = 2 then coreLoad s t c (ea k (iRs1 w) (immI w)) 4 fun s v => fin s t c len fun k => k.setF rd (BitVec.ofNat 32 v)
    else rvVecMem s t c w len true
  | 0x27 =>
    if f3 = 2 then coreStore s t c (ea k (iRs1 w) (immS w)) 4 (k.getF (iRs2 w)).toNat fun s => fin s t c len id
    else rvVecMem s t c w len false
  | 0x43 => rvFma s t c w len
  | 0x47 => rvFma s t c w len
  | 0x4B => rvFma s t c w len
  | 0x4F => rvFma s t c w len
  | 0x53 => rvFp s t c w len
  | 0x57 => rvVec s t c w len
  | 0x73 =>
    if f3 = 0 then
      if w = 0x73 then ok (s.trap t c cEcall 0)
      else if w = 0x100073 then ok (s.trap t c cBreak k.pc)
      else if w = 0x10500073 then fin s t c len id
      else bad
    else if f3 = 4 then bad
    else rvCsr s t c w len
  | _ => bad

/-- A core that executes: RUN, not between its ending ECALL and DONE, and its tile's clock running (R171, R174, R175); in guarded mode a pair executes
through its leader (R198). -/
def coreRuns (s : State) (t c : Nat) : Bool :=
  let T := s.tile t
  let k := T.core c
  decide (c < 4) && s.runs t && k.st == .run && !k.ending && !(T.guarded && c % 2 == 1)

/-- The ending ECALL: a7 = 0 (R175). -/
def isExit (k : Core) (w : Nat) : Bool := w == 0x73 && k.getX 17 == 0

/-- A pair compares in every cycle while it executes, waits or drains its transfers (R200). -/
def pairCompares (s : State) (t c : Nat) : Bool :=
  let k := s.core t c
  decide (c < 4) && s.runs t && (s.tile t).guarded && c % 2 == 0 && (k.st == .run || k.st == .wait)

/-- RV_INSTRUCTION: the instruction at the pc of a running core, where it is an ordinary one; a cycle in which the checker's register writes, pc or requests differ
from the leader's traps with cause 24 and sends nothing (R167 to R183, R200). -/
def execRvInstruction (t c : Nat) (mismatch : Bool) (s : State) : Out :=
  onTile s t fun T =>
    if mismatch && pairCompares s t c then ok (s.trap t c cLockstep 0)
    else if !coreRuns s t c then ok s
    else
      match T.fetch c with
      | .trap cause a => ok (if cause = cUncorr then s.trapUncorr t c a else s.trap t c cause (u64 a))
      | .ins w len => if (xtOf w).isSome || isExit (T.core c) w then ok s else rvExec (s.fetched t c len) t c w len

end Sys2Proof.Machine
end

