-- ==== Sys2Proof/Machine/Cores.lean ====
section
/-! DEFINITION. Small cores beyond the ordinary instructions: the Xthrumrak extension (R183 to R196), transfer packets (R187 to R190), the end of a program (R175),
starts of a LAUNCH (R173, R312) and loads of a tile (R202 to R206, R313). -/

namespace Sys2Proof.Machine

/-- A running core whose pc stands at the Xthrumrak instruction `x`: continues with its word. -/
def atXt (s : State) (t c : Nat) (x : Xt) (k : State → Nat → Out) : Out :=
  onTile s t fun T =>
    if !coreRuns s t c then ok s
    else
      match T.fetch c with
      | .trap _ _ => ok s
      | .ins w _ => if xtOf w = some x then k (s.fetched t c 4) w else ok s

/-! ### Transfers (R185 to R191) -/

/-- The local range lies wholly in one scratch window or in tile SRAM (R186). -/
def localOk (guarded : Bool) (a n : Nat) : Bool :=
  (decide (a / 0x10000 = (a + n - 1) / 0x10000) && zoneOf guarded a == .scratch) || decide (0x1000000 ≤ a ∧ a + n ≤ 0x1180000)

/-- The transfer that XT.PUT or XT.GET names (R185). -/
def transferOf (put : Bool) (k : Core) (w : Nat) : Transfer :=
  let c := k.getX (iRs3 w)
  { put, remote := k.getX (iRs1 w), local_ := (k.getX (iRs2 w)).toNat, left := bitsOf c 15 0 + 1, ctr := bitsOf c 29 24, last := bitOf c 31,
    total := BitVec.ofNat 32 (bitsOf c 63 32), lden := bitOf c 30, lctr := bitsOf c 23 18, pc := k.pc }
/-- The rules of R185 and R186 that the core does not check. -/
def transferBad (x : Transfer) (ctl : W64) : Bool :=
  x.remote.toNat % 8 != 0 || x.local_ % 8 != 0 || x.left % 8 != 0 || bitsOf ctl 17 16 != 0 || (!x.put && (x.last || x.lden))
/-- The pieces of a transfer between 256-byte boundaries of the remote address (R187). -/
def packetsOf (remote : W64) (n : Nat) : Nat := (remote.toNat % 256 + n + 255) / 256

/-- Queues a transfer (R184, R186, R187): with 4 queued the core stalls. A driver error of R186 queues it as it reads and leaves free values in the partition
(log entry 53). A bad local range raises "a store or load access-fault trap"; which of the two is a
free value (log entry 4). -/
def queueTransfer (s : State) (t c : Nat) (put : Bool) (w : Nat) : Out :=
  let k := s.core t c
  let x := transferOf put k w
  if 4 ≤ k.tq.length then ok s
  else if !localOk (s.tile t).guarded x.local_ x.left then
    ok (s.spend.trap t c (if Config.freeBool s.freeN then cStoreFault else cLoadFault) (u64 x.local_))
  else
    let s := if transferBad x (k.getX (iRs3 w)) then s.wildPart k.part else s
    fin s t c 4 fun k => { k with tq := k.tq ++ [x] }.setX (iRd w) (u64 (packetsOf x.remote x.left))

/-- XT.PUT (R185 to R188). -/
def execXtPut (t c : Nat) (s : State) : Out := atXt s t c .put fun s w => queueTransfer s t c true w
/-- XT.GET (R185 to R187, R189). -/
def execXtGet (t c : Nat) (s : State) : Out := atXt s t c .get fun s w => queueTransfer s t c false w

/-- Bytes at a local address of a tile. -/
def Tile.localBytes (t : Tile) (a n : Nat) : List Byte :=
  if 0x1000000 ≤ a then memGetList t.sram (a - 0x1000000) n else memGetList t.scr a n
/-- The first uncorrectable word of a local range, by its local address. -/
def Tile.localBad (t : Tile) (a n : Nat) : Option Nat :=
  if 0x1000000 ≤ a then (firstBad t.badSram (a - 0x1000000) n).map fun w => 0x1000000 + 8 * w else (firstBad t.badScr a n).map (8 * ·)
/-- All the uncorrectable words of a local range. -/
def Tile.localBads (t : Tile) (a n : Nat) : List Nat := if 0x1000000 ≤ a then allBad t.badSram (a - 0x1000000) n else allBad t.badScr a n

/-- The bytes of the next packet: up to the next 256-byte boundary of the remote address (R187). -/
def Transfer.piece (x : Transfer) : Nat := min x.left (256 - x.remote.toNat % 256)
/-- What is left of a transfer after its next packet. -/
def Transfer.rest (x : Transfer) : Transfer :=
  let n := x.piece
  { x with remote := x.remote + BitVec.ofNat 64 n, local_ := x.local_ + n, left := x.left - n }
/-- The core's queue after the oldest transfer has issued a packet. -/
def Core.issued (k : Core) (x : Transfer) : Core := { k with tq := if x.rest.left = 0 then k.tq.drop 1 else x.rest :: k.tq.drop 1 }

/-- The core whose oldest transfer issues next: the first in rotation; a queue whose next packet is a read waits while no tracker is free (R190). -/
def Tile.nextIssue (t : Tile) : Option (Nat × Transfer) :=
  (rangeFrom 0 4).findSome? fun i =>
    let c := (t.rotor + i) % 4
    match (t.core c).tq with
    | [] => none
    | x :: _ => if x.put || t.freeTrk.isSome then some (c, x) else none

/-- One packet of an XT.PUT (R187, R188); an uncorrectable word of its source is reported, in scratch as in tile SRAM, and the core traps (R182, R254). -/
def issuePut (s : State) (t c : Nat) (x : Transfer) : State :=
  let n := x.piece
  let s := s.modTile t fun T => T.meetLocal x.local_ n
  let T := s.tile t
  let fin := x.rest.left == 0
  match T.localBad x.local_ n with
  | some a => (s.sramUes t (T.localBads x.local_ n)).trap t c cUncorr (u64 a)
  | none =>
    let k := T.core c
    let (q, s) := s.tileSeq t k.ctx
    let s := s.modTile t fun T => (T.modCore c fun k => k.issued x)
    let s := if fin && x.lden then s.bump t x.lctr 1 else s
    s.inject (s.tilePlace t) (some (s.tilePhys t)) (s.tilePhys t)
      { opc := .write, last := x.last && fin, dctr := x.ctr, spart := k.part, epoch := k.epoch, ctx := k.ctx, seq := q, len := n, dest := x.remote,
        src := tileAddr s.rick.panel 1 t (c * 32), total := if x.last && fin then x.total else 0, status := 0, hops := 0,
        payload := T.localBytes x.local_ n }
/-- One read request of an XT.GET (R189). -/
def issueGet (s : State) (t c : Nat) (x : Transfer) : State :=
  let T := s.tile t
  let k := T.core c
  match T.freeTrk with
  | none => s
  | some j =>
    let s := s.modTile t fun T => T.modCore c fun k => k.issued x
    s.tileRead t j c { local_ := x.local_, len := x.piece, ctr := x.ctr, core := c, part := k.part, ctx := k.ctx, epoch := k.epoch } x.remote

/-- TRANSFER_PACKET_ISSUE: the tile issues one packet of its cores' transfer queues (R187 to R190). -/
def execTransferPacketIssue (t : Nat) (s : State) : Out :=
  onTile s t fun T =>
    when_ (s.runs t) s <|
      match T.nextIssue with
      | none => ok s
      | some (c, x) =>
        let s := s.modTile t fun T => { T with rotor := (c + 1) % 4 }
        ok (if x.put then issuePut s t c x else issueGet s t c x)

/-! ### The end of a program (R175) -/

/-- ECALL_EXIT: ECALL with a7 = 0 records the exit code; the core enters DONE by CORE_DONE. -/
def execEcallExit (t c : Nat) (s : State) : Out :=
  onTile s t fun T =>
    if !coreRuns s t c then ok s
    else
      match T.fetch c with
      | .trap _ _ => ok s
      | .ins w _ =>
        when_ (isExit (T.core c) w) s <| ok (s.modCore t c fun k => { k with exit := (k.getX 10).setWidth 16, ending := true })

/-- CORE_DONE: the core's transfer queue has issued its last packet; it enters DONE, and its LAUNCH learns of it (R175, R307). -/
def execCoreDone (t c : Nat) (s : State) : Out :=
  onTile s t fun T =>
    let k := T.core c
    when_ (decide (c < 4) && s.runs t && k.st == .run && k.ending && k.tq.isEmpty) s <|
      let s := s.modCore t c fun k => { k with st := .done, ending := false, launch := none, resv := none }
      match k.launch with
      | some n => ok (s.launchCoreDone k.ctx n t c k.exit.toNat)
      | none => ok s

/-! ### Probes (R144 to R147, R195) -/

/-- The fields of XT.PROBE's operands (R195). -/
structure Probe where
  arow : Nat
  acol : Nat
  ahdr : Nat
  shdr : Nat
  record : Nat
  col : Nat
  m : Nat
deriving DecidableEq, Repr, Inhabited
def probeOf (a b c : W64) : Probe :=
  { arow := bitsOf a 63 48, acol := bitsOf a 47 32, ahdr := bitsOf a 20 0, shdr := bitsOf b 52 32, record := bitsOf b 20 0, col := bitsOf c 13 8,
    m := bitsOf c 7 0 + 1 }
/-- What R195 forbids, and a shadow or an A block that is not as R144 and R103 say (log entry 86). -/
def probeBad (mem : Mem) (a b c : W64) : Bool :=
  let p := probeOf a b c
  let h := readHdr mem p.ahdr
  let sh := readHdr mem p.shdr
  bitsOf a 31 21 != 0 || bitsOf b 63 53 != 0 || bitsOf b 31 21 != 0 || bitsOf c 63 14 != 0 || p.record % 32 != 0 || decide (sramSize < p.record + 32)
    || p.ahdr % 16 != 0 || p.shdr % 16 != 0 || !h.good p.ahdr false || h.fmt == 1 || !sh.good p.shdr true || sh.fmt != 0 || sh.etype != 5
    || sh.cols != 64 || sh.rows % 32 != 0

/-- p + one exact product, rounded (R145). -/
def probeStep (p : W32) (x y : Val) (sa sb : Byte) : W32 :=
  let b := ({} : Block).mac x y
  if b.nan ∨ sa = 0xFF ∨ sb = 0xFF then fp32Nan
  else
    match fp32Val p with
    | .nan => fp32Nan
    | .inf n => if n then (if b.pinf then fp32Nan else p) else (if b.ninf then fp32Nan else p)
    | .fin m e =>
      if b.pinf then fp32Inf false
      else if b.ninf then fp32Inf true
      else
        let r := dyAdd m e b.m (b.e + scaleExp sa + scaleExp sb)
        roundFp32 r.1 r.2
/-- The estimate p[r] of one row (R145). -/
def probeRow (mem : Mem) (p : Probe) (r : Nat) : W32 :=
  let h := readHdr mem p.ahdr
  let sh := readHdr mem p.shdr
  (rangeFrom 0 sh.rows).foldl (fun acc k =>
    probeStep acc (decodeElem h.etype (h.elem mem p.ahdr (p.arow + r) (p.acol + k))) (decodeElem 5 (sh.elem mem p.shdr k p.col))
      (h.scaleA mem (p.arow + r) ((p.acol + k) / 32)) (sh.scaleB mem p.col (k / 32))) 0
/-- A value is greater than another. -/
def valGt : Val → Val → Bool
  | .nan, _ => false
  | _, .nan => false
  | .inf a, .inf b => !a && b
  | .inf a, .fin _ _ => !a
  | .fin _ _, .inf b => b
  | .fin m1 e1, .fin m2 e2 => decide (0 < (dyAdd m1 e1 (-m2) e2).1)
/-- The probe is positive: some p[r] exceeds THETA or is NaN (R145). -/
def probePositive (mem : Mem) (p : Probe) (theta : W32) : Bool :=
  (rangeFrom 0 p.m).any fun r =>
    let v := fp32Val (probeRow mem p r)
    v == .nan || valGt v (fp32Val theta)
/-- The first uncorrectable word that the probe reads: record, headers, A rows, shadow column (R146, R254). -/
def probeReads (m : Mem) (bad : List Nat) (p : Probe) : Option Nat :=
  if bad.isEmpty then none
  else
    let h := readHdr m p.ahdr
    let sh := readHdr m p.shdr
    let one (off n : Nat) : Option Nat := firstBad bad off n
    let first (l : List (Option Nat)) : Option Nat := l.findSome? id
    first [one p.ahdr (16 + h.bitmapBytes), one p.shdr 16, one p.record 32,
      (rangeFrom p.arow p.m).findSome? fun r => (rangeFrom p.acol sh.rows).findSome? fun k =>
        if r < h.rows ∧ k < h.cols then
          match h.elemPos m p.ahdr r k with
          | some q => one (p.ahdr + 16 + q / 8) ((q % 8 + etBits h.etype + 7) / 8)
          | none => none
        else none,
      (rangeFrom 0 sh.rows).findSome? fun k =>
        match sh.elemPos m p.shdr k p.col with
        | some q => one (p.shdr + 16 + q / 8) 1
        | none => none,
      if h.scaled then (rangeFrom p.arow p.m).findSome? fun r =>
        if r < h.rows then one (h.scaleptr + r * ceilDiv h.cols 32 + p.acol / 32)
          (scaleSpan (p.acol / 32) (ceilDiv (p.acol % 32 + sh.rows) 32) (ceilDiv h.cols 32)) else none else none,
      if sh.scaled then one (sh.scaleptr + p.col * ceilDiv sh.rows 32) (sh.rows / 32) else none]

/-- The record after a probe, and its tallies (R147). -/
def probeApply (r : PredRec) (mode n : Nat) (positive : Bool) : PredRec × Tally :=
  let ty : Tally := { probes := 1, probepos := b2n positive }
  let bit := BitVec.ofNat 64 (2 ^ n)
  if positive then
    ({ r with w2 := r.w2 ||| bit, w1 := if mode = 3 ∧ r.aud = false ∧ bitOf r.w0 n = false then r.w1 ||| bit else r.w1 }, ty)
  else (r, ty)

/-- XT.PROBE (R145, R147, R195): under MODE 0 it returns 0 and reads nothing; on a driver error the core goes on with free values in rd and in tile SRAM, and no tally counts it
(DESIGN CHOICE, log entry 86). -/
def execXtProbe (t c : Nat) (s : State) : Out :=
  atXt s t c .probe fun s w =>
    let T := s.tile t
    let k := T.core c
    let a := k.getX (iRs1 w)
    let b := k.getX (iRs2 w)
    let x := k.getX (iRs3 w)
    let p := probeOf a b x
    if k.mode = 0 then fin s t c 4 fun k => k.setX (iRd w) 0
    else if probeBad T.sram a b x then
      let n := s.freeN
      fin ((s.spendN 2).modTile t fun T => T.wildSram (n + 1)) t c 4 fun k => k.setX (iRd w) (Config.free64 n)
    else
      let s := s.modTile t fun T => T.meet fun w => (probeReads T.sram [w] p).isSome
      match probeReads T.sram T.badSram p with
      | some wd =>
        ok ((s.sramUes t (T.badSram.filter fun w => (probeReads T.sram [w] p).isSome)).trap t c cUncorr (u64 (0x1000000 + 8 * wd)))
      | none =>
        let pos := probePositive T.sram p k.theta
        let (r, ty) := probeApply (readRec T.sram p.record) k.mode p.col pos
        let s := s.modTile t fun T => (T.putRec p.record r).tally ty
        let s := s.modCtx k.ctx fun x => x.tally ty
        fin s t c 4 fun k => k.setX (iRd w) (u64 (b2n pos))

/-! ### Engine commands, counters, events (R192 to R196) -/

/-- XT.ENQ (R49, R77, R194): it checks its address when it issues, before it stalls on a full queue (DESIGN CHOICE, log entry 46). -/
def execXtEnq (t c : Nat) (s : State) : Out :=
  atXt s t c .enq fun s w =>
    let T := s.tile t
    let k := T.core c
    let a := (k.getX (iRs1 w)).toNat
    let word (i : Nat) : W64 := BitVec.ofNat 64 (leWord (T.localBytes (a + 8 * i) 8))
    if a % 32 ≠ 0 then ok (s.trap t c cLoadMis (u64 a))
    else if !localOk T.guarded a 32 then ok (s.trap t c cLoadFault (u64 a))
    else if !T.eng.halt && decide (16 ≤ T.eng.queue.length) then ok s
    else
      match T.localBad a 32 with
      | some b => ok (s.trapUncorr t c b)
      | none =>
        let s := s.modTile t fun T =>
          (T.meetLocal a 32).enqueue { w0 := word 0, w1 := word 1, w2 := word 2, w3 := word 3, core := c, ctx := k.ctx, mode := k.mode, audn := k.audn }
        fin s t c 4 fun k => k.setX (iRd w) (u64 (b2n T.eng.halt))

/-- A counter instruction: the new counter, and the previous value of the half it writes, zero-extended in rd (R192; log entry 19). -/
def counterOp (s : State) (t c w : Nat) (old : Ctr → W32) (f : Ctr → W32 → Ctr) : Out :=
  let T := s.tile t
  let k := T.core c
  let i := (k.getX (iRs1 w)).toNat % 64
  let r := T.ctr i
  let s := s.setTile t (T.setCtr i (f r ((k.getX (iRs2 w)).setWidth 32)))
  fin s t c 4 fun k => k.setX (iRd w) ((old r).setWidth 64)
/-- XT.CSET writes VALUE (R192). -/
def execXtCset (t c : Nat) (s : State) : Out :=
  atXt s t c .cset fun s w => counterOp s t c w (fun r => r.value) fun r v => { r with value := v }
/-- XT.CADD adds to VALUE modulo 2^32 (R192). -/
def execXtCadd (t c : Nat) (s : State) : Out :=
  atXt s t c .cadd fun s w => counterOp s t c w (fun r => r.value) fun r v => { r with value := r.value + v }
/-- XT.CARM writes TARGET (R192). -/
def execXtCarm (t c : Nat) (s : State) : Out :=
  atXt s t c .carm fun s w => counterOp s t c w (fun r => r.target) fun r v => { r with target := v }

/-- VALUE − TARGET, as a signed difference, is 0 or more (R193). -/
def Ctr.reached (r : Ctr) : Bool := decide (0 ≤ (r.value - r.target).toInt)
/-- XT.CWAIT: VALUE where the target is reached; else the core enters WAIT (R193). -/
def execXtCwait (t c : Nat) (s : State) : Out :=
  atXt s t c .cwait fun s w =>
    let T := s.tile t
    let i := ((T.core c).getX (iRs1 w)).toNat % 64
    let r := T.ctr i
    if r.reached then fin s t c 4 fun k => k.setX (iRd w) (r.value.setWidth 64)
    else ok (s.modCore t c fun k => { k with st := .wait, waiting := some (i, iRd w) })
/-- CWAIT_RESUME: the awaited count has been reached; the core resumes (R193). -/
def execCwaitResume (t c : Nat) (s : State) : Out :=
  onTile s t fun T =>
    let k := T.core c
    match k.waiting with
    | none => ok s
    | some (i, rd) =>
      when_ (decide (c < 4) && s.runs t && k.st == .wait && (T.ctr i).reached) s <|
        fin s t c 4 fun k => { k with st := .run, waiting := none }.setX rd ((T.ctr i).value.setWidth 64)

/-- The event path accepts a program event (R184, R196, R328): code 0x8000 + bits [14:0] of rs1. -/
def State.takeEvt (s : State) (t c : Nat) (e : ProgEvt) : State :=
  s.raiseAt e.at_ { code := 0x8000 + e.code, part := e.part, ctx := e.ctx, core := c, kind := 1, source := t, d0 := e.payload.toNat }
/-- The event path accepts the event that a core holds. -/
def State.acceptEvt (s : State) (t c : Nat) : State :=
  match (s.core t c).evt with
  | some e => (s.modCore t c fun k => { k with evt := none }).takeEvt t c e
  | none => s

/-- XT.EVT (R184, R196): the core's event goes to the event path, which takes it at once or leaves it with the core; while an earlier event waits there the core
stalls. -/
def execXtEvt (t : Nat) (x : EvtOffer) (s : State) : Out :=
  atXt s t x.core .evt fun s w =>
    let c := x.core
    let k := s.core t c
    let e : ProgEvt := { code := bitsOf (k.getX (iRs1 w)) 14 0, payload := k.getX (iRs2 w), ctx := some (k.ctx, k.epoch), at_ := s.time, part := s.tilePart t }
    if k.evt.isSome then ok (if x.taken then s.acceptEvt t c else s)
    else if x.taken then fin (s.takeEvt t c e) t c 4 id
    else fin s t c 4 fun k => { k with evt := some e }

/-! ### Starts (R173, R312) -/

/-- Core `c` of tile `t` as a start leaves it (R132, R173). -/
def Core.started (k : Core) (panel t c : Nat) (m : StartMsg) : Core :=
  { k with
    x := tput 0 (tput 0 (tput 0 [] 2 (u64 ((c + 1) * 0x10000))) 10 m.arg) 11 (u64 (panel * 2 ^ 58 + c * 2 ^ 16 + t))
    f := [], v := [], pc := u64 (c * 0x10000 + m.entry), fcsr := 0, vl := 0, vtype := 0x8000000000000000#64, vstart := 0, vcsr := 0, resv := none, priv := .user
    gerrErr := false, gerrStatus := 0, gerrCount := 0, st := .run, ctxv := true, part := m.part, epoch := m.epoch, ctx := m.ctx
    launch := if m.detach then none else some m.n, tq := [], waiting := none, ending := false, mode := m.mode, audn := m.audn, theta := m.theta }

/-- What a tile answers to a start: the failure status, or the cores it starts (R312). -/
def startOutcome (s : State) (m : StartMsg) : Nat × List Nat :=
  let x := s.tileSt m.tile
  let T := s.tile m.tile
  let named := loadCores T.guarded m.cores
  if x.st = .reset ∨ x.st = .off ∨ x.st = .dark ∨ T.st = .fenced ∨ T.st = .hole then (0x0A, [])
  else if named.any fun c => (T.core c).st == .run || (T.core c).st == .wait then (0x06, [])
  else if named.any fun c => (T.core c).nostart then (0x07, [])
  else (0, named)

/-- LAUNCH_START: a start reaches its tile (R312): parked for a BANKED or HELD site, dropped by the partition fence (R38) or where its context has
been stopped. -/
def execLaunchStart (i : Nat) (s : State) : Out :=
  match lget? s.fab.starts i with
  | none => ok s
  | some m =>
    if s.parksTile m.tile then ok s
    else
      let s := s.modFab fun f => { f with starts := ldel f.starts i }
      let x := s.tileSt m.tile
      if x.part ≠ some m.part then ok (s.partDropAt (s.tilePhys m.tile))
      else
        let s := s.tell (s.tilePhys m.tile) m.ctx
        if s.staleCtx (s.tilePhys m.tile) m.ctx m.epoch then ok s
        else
        let (fail, cs) := startOutcome s m
        let s := if cs.isEmpty then s else s.modTile m.tile fun T => T.newProgram m.ctx
        let s := cs.foldl (fun s c => s.modCore m.tile c fun k => k.started s.rick.panel m.tile c m) s
        ok (s.launchReport m.ctx m.n m.tile cs fail)

/-! ### Loads (R202 to R206, R313) -/

/-- LOAD_TILE_START: a load reaches its tile: skipped, lost, parked, waiting behind a running load, or begun. -/
def execLoadTileStart (i : Nat) (s : State) : Out :=
  match lget? s.fab.loads i with
  | none => ok s
  | some r =>
    if s.parksTile r.tile then ok s
    else
      let s := s.modFab fun f => { f with loads := ldel f.loads i }
      let x := s.tileSt r.tile
      let T := s.tile r.tile
      if x.part ≠ some r.part then ok (s.partDropAt (s.tilePhys r.tile))
      else
      let s := s.tell (s.tilePhys r.tile) r.ctx
      if s.staleCtx (s.tilePhys r.tile) r.ctx r.epoch then ok s
      else if x.st = .reset ∨ x.st = .off ∨ x.st = .dark then ok (s.loadReport r.ctx r.n r.tile 1)
      else if T.st = .fenced ∨ T.st = .hole then ok (s.loadReport r.ctx r.n r.tile 0)
      else if T.ld.cur.isSome ∨ T.resetting = true then ok (s.modTile r.tile fun T => { T with ld := { T.ld with waiting := T.ld.waiting ++ [r] } })
      else ok (s.loadBegin r.tile r)

/-- LOAD_END: the running load of a tile ends with OK, DIGEST, READERR or ABORT (R205). -/
def execLoadEnd (t : Nat) (s : State) : Out :=
  onTile s t fun T =>
    match T.loadEnds with
    | none => ok s
    | some st => ok (s.loadFinish t st)

end Sys2Proof.Machine
end

