-- ==== Sys2Proof/Machine/Health.lean ====
section
/-! DEFINITION. Tile health in service (R469 to R477): self-test slices, the hourly turn, confirming retests, the commands of HLT_CMD, compute resets; and the clears
and selects of the health counts (R526 to R528). -/

namespace Sys2Proof.Machine

/-! ### Slices, hours, retests (R469 to R474, R490) -/

/-- A fenced tile begins its confirming retest. -/
def State.beginRetest (s : State) (t why : Nat) : State := s.modTile t fun T => { T with retest := true, retestOf := why }
/-- The cadence period of a tile has passed since its last slice (R469). -/
def State.sliceDue (s : State) (t : Nat) : Bool :=
  let T := s.tile t
  match T.sliceAt with
  | none => true
  | some at_ => decide (at_ + cadenceMs (if T.st = .suspect then s.hlt.suscad else s.hlt.cadence) * ms ≤ s.time)
/-- A failed slice makes the tile SUSPECT and a candidate (R472 to R474). -/
def State.sliceFails (s : State) (t : Nat) : State :=
  let T := s.tile t
  let s := if T.st = .active then (s.modTile t fun T => { T with st := .suspect }).raiseTile 0x0500 t 0 none t 0 else s
  if T.cand then ((s.fence t).modTile t fun T => { T with candBy := 2 }).beginRetest t 1 else s.candidate t 2
/-- SELF_TEST_SLICE: once in each cadence period; a slice changes nothing a program can see; a failed one takes the whole score and makes the tile a candidate (R469 to
R474), which waits where no service die runs (R482). The cell and step of the failure are kept for its retest (R490). -/
def execSelfTestSlice (t : Nat) (passed : Bool) (s : State) : Out :=
  onTile s t fun _ =>
    let p := s.tilePhys t
    when_ ((s.site p).st == .active && s.runs t && s.sliceDue t) s <|
      let s := (s.tag p (!passed)).modTile t fun T => { T with sliceAt := some s.time }
      if passed then ok s
      else
        let x := s.site p
        let s := s.modTile t fun T => { T with score := 0, quietSince := s.time, detCell := x.mrg.cell, detStep := x.clk.cur }
        if s.svRuns then ok (s.sliceFails t) else ok (s.modTile t fun T => { T with due := 2 })
/-- What waited for a service die: a score that fell, or a failed slice (R472, R482). -/
def State.dueDone (s : State) (t : Nat) : State :=
  let d := (s.tile t).due
  let s := s.modTile t fun T => { T with due := 0 }
  if d = 2 then s.sliceFails t else if d = 1 then s.scoreCheck t else s

/-- The hour of one tile (R471, R472, R474). -/
def State.tileHour (s : State) (t : Nat) : State :=
  let T := s.tile t
  let n := (T.corrections + 3 * 2 ^ 32 - T.corrBase) % 2 ^ 32
  let many := decide (s.hlt.corrlim < n)
  let s := s.modTile t fun T => { T with corrBase := T.corrections }
  let s := if many && (T.st == .active || T.st == .suspect) then s.penalise t 5 else s
  let T := s.tile t
  let s :=
    if T.quietSince + hour ≤ s.time ∧ (T.score < 255 ∨ T.st = .suspect) then
      let n := min 255 (T.score + s.hlt.recover)
      s.modTile t fun T => { T with score := n, quietSince := s.time, st := if T.st = .suspect ∧ 224 ≤ n ∧ T.cand = false then .active else T.st }
    else s
  if T.defer_ = true ∧ T.deferAt + hour ≤ s.time then
    (s.modTile t fun T => { T with deferAt := s.time }).raiseTile 0x0504 t 0 none t (s.rowHours t)
  else s
/-- HEALTH_HOURLY: once an hour, over the hour that has passed (R471). -/
def execHealthHourly (s : State) : Out :=
  when_ (s.svRuns && decide (s.hlt.hourAt + hour ≤ s.time)) s <| ok ((s.tiles.map (·.1)).foldl State.tileHour (s.modHlt fun h => { h with hourAt := s.time }))

/-- A tile returns to service SUSPECT with score SUSTHR − 1 (R473 step 5, R475). -/
def State.tileReturns (s : State) (t : Nat) : State :=
  s.modTile t fun T => { T with st := .suspect, score := s.hlt.susthr - 1, cand := false, defer_ := false, retest := false, quietSince := s.time }
/-- TILE_RETEST_PASS with the site's cell (R494). -/
def State.retestPass (s : State) (t : Nat) : State :=
  let m := (s.tileSt t).mrg
  s.raiseTile 0x0503 t 0 none t (m.bin * 256 + m.cls)
/-- The command of HLT_CMD that runs for a tile or site ends. -/
def State.cmdEnds (s : State) (codes : List Nat) (x : Nat) : State :=
  match s.hlt.run with
  | some (c, y) => if codes.contains c ∧ y = x then s.modHlt fun h => { h with busy := false, run := none } else s
  | none => s
/-- A spare position that a CLEAR had retested (R476). -/
def State.spareTested (s : State) (row : Nat) (passed : Bool) : State :=
  let p := row / 8
  let pos := (s.site p).sparePos (row % 8)
  let s := (s.modHlt fun h => { h with spareTest := none, busy := false, run := none }).tag p (!passed)
  if passed then
    let u := unitOf (defectWord 0 (p / 16) (p % 16) (row % 8) pos 0 0 0)
    s.modHlt fun h => { h with defects := h.defects.filter fun d => unitOf d.word0 != u || d.srcFuse }
  else s.addDefect (defectWord 0 (p / 16) (p % 16) (row % 8) pos 0 0 6) true
/-- A slice that failed and whose retest passes is a timing detection in the cell and at the step of the slice (R490). -/
def State.sliceCleared (s : State) (t : Nat) : State :=
  let T := s.tile t
  (s.detectAt (s.tilePhys t) T.detCell T.detStep).relimit (s.tilePhys t)
/-- CONFIRMING_RETEST_DONE: the tile is zeroed; what follows depends on why it was retested (R473 to R476). A number from 32,768 names the row of a spare position that a
CLEAR had retested, by physical site × 8 + tile row (R476; log entry 102). -/
def execConfirmingRetestDone (t : Nat) (passed : Bool) (s : State) : Out :=
  if 32768 ≤ t then (if s.svRuns = true ∧ s.hlt.spareTest = some (t - 32768) then ok (s.spareTested (t - 32768) passed) else ok s)
  else
  onTile s t fun T =>
    when_ s.svRuns s <|
      if !T.retest then (if s.hlt.spareTest = some (s.rowKey t) then ok (s.spareTested (s.rowKey t) passed) else ok s)
      else
        let s := (((s.zeroTile t).modTile t fun T => { T with retest := false })).tag (s.tilePhys t) (!passed)
        let s := s.cmdEnds [2, 5] t
        match T.retestOf with
        | 2 =>
          if passed then
            let s := (s.retestPass t).modTile t fun T => { T with cand := false, defer_ := false }
            ok ((if T.cand = true ∧ T.candBy = 2 then s.sliceCleared t else s).fencedOrHole t)
          else ok ((s.retireTile t 6 true).modTile t fun T => { T with cand := false, defer_ := false })
        | 3 =>
          if passed then
            let u := unitOf (s.tileDefect t 0)
            let s := s.modHlt fun h => { h with defects := h.defects.filter fun d => unitOf d.word0 != u || d.srcFuse }
            ok ((s.modTile t fun T => { T with st := .active, score := 255, cand := false, defer_ := false }).retestPass t)
          else ok (s.tileEntry t 6 true)
        | why =>
          if passed then
            let s := (s.tileReturns t).retestPass t
            ok (if T.candBy = 2 then s.sliceCleared t else s)
          else if why = 1 then ok s
          else
            let key := s.rowKey t
            let s := s.retireTile t (if T.candBy = 2 then 3 else 4) true
            let s := s.modHlt fun h => { h with rowRet := tput none h.rowRet key (some s.time) }
            ok (s.modTile t fun T => { T with cand := false, defer_ := false })

/-! ### HLT_CMD (R475, R476, R491) -/

def State.hltRefuse (s : State) (c : Nat) : State := s.modHlt fun h => { h with err := true, ecode := c }
/-- A command runs. -/
def State.hltRun (s : State) (cmd x : Nat) : State := s.modHlt fun h => { h with busy := true, run := some (cmd, x) }
/-- A DEFECT entry or a fuse entry is in force for a tile's position. -/
def State.tileBadPos (s : State) (t : Nat) : Bool := s.posBad (s.tilePhys t) (tileTR t) (s.tilePos t)

/-- REMAP: the tile's row stops (R20, R21, R475); an ACTIVE site is HELD for it, any other when it is ACTIVE again (R372). -/
def execRemap (port : Nat) (v : W32) (s : State) : Out :=
  hltGate s port (some v) fun s =>
    let t := s.hlt.target
    if (s.tile t).st ≠ .fenced then ok (s.hltRefuse 3)
    else if !s.spareOk t then ok (s.hltRefuse 4)
    else
      ok ((s.hltRun 1 t).remapHold (s.tilePhys t))
/-- TILE_REMAP_STOP_END: the spare, zeroed, takes the logical position (R20, R21, R27). -/
def execTileRemapStopEnd (site : Nat) (s : State) : Out :=
  onSite s site fun x =>
    match s.hlt.run with
    | some (1, t) =>
      when_ (s.tilePhys t == site && x.clk.ph == .none) s <|
        let tr := tileTR t
        let pos := x.sparePos tr
        let s := if s.tileBadPos t then s else s.tileEntry t 7 false
        let row := lset (x.tmapRow tr) (tileTC t) pos
        let held := x.st == .held && x.heldRow.isSome
        let s := s.modSite site fun x =>
          { x with tmap := tput [] x.tmap tr (if row = rangeFrom 0 16 then [] else row), st := if held then .active else x.st,
                   heldRow := none, ctl := { x.ctl with heldLong := x.ctl.heldLong || (held && decide (x.clk.stopAt + 10 * us < s.time)) } }
        let s := (s.loadsEnd t).modTile t fun T =>
          { T.zeroed with st := .active, score := 255, cand := false, defer_ := false, retest := false, quietSince := s.time }
        let s := s.modHlt fun h => { h with busy := false, run := none }
        let s := (s.learnRemap).raiseTile 0x0505 t 0 none t pos
        ok ((s.rowSpent site tr).bankNow site)
    | _ => ok s
/-- RETIRE (R475): with CONFIRM a retest decides; it takes over one that runs. -/
def execRetire (port : Nat) (v : W32) (s : State) : Out :=
  hltGate s port (some v) fun s =>
    let t := s.hlt.target
    let st := (s.tile t).st
    if st = .hole then ok (s.hltRefuse 3)
    else
      let s := if st = .fenced then s else s.fence t
      if bitOf v 19 then ok ((s.hltRun 2 t).beginRetest t 2)
      else ok ((s.retireTile t 5 false).modTile t fun T => { T with cand := false, defer_ := false, retest := false })
/-- KEEP (R475). -/
def execKeep (port : Nat) (v : W32) (s : State) : Out :=
  hltGate s port (some v) fun s =>
    let t := s.hlt.target
    let T := s.tile t
    if T.cand = true ∨ (T.st = .fenced ∧ s.tileBadPos t = false) then
      if T.st = .fenced then ok ((s.zeroTile t).tileReturns t)
      else ok (s.modTile t fun T => { T with cand := false, defer_ := false })
    else ok (s.hltRefuse 3)
/-- HOLE (R475). -/
def execHole (port : Nat) (v : W32) (s : State) : Out :=
  hltGate s port (some v) fun s =>
    let t := s.hlt.target
    if (s.tile t).st = .fenced ∧ s.tileBadPos t = true then ok (s.holeTile t)
    else ok (s.hltRefuse 3)
/-- CLEAR (R446, R476): the learned entry whose SEQ is in HLT_CMDARG. -/
def execClear (port : Nat) (v : W32) (s : State) : Out :=
  hltGate s port (some v) fun s =>
    let q := s.hlt.cmdarg
    match s.hlt.defects.find? fun d => d.srcLearned && d.seq == q with
    | none => ok (s.hltRefuse 6)
    | some d =>
      let p := bitsOf d.word0 59 55 * 16 + bitsOf d.word0 54 51
      let tr := bitsOf d.word0 50 48
      let pos := bitsOf d.word0 47 43
      let isTile := bitsOf d.word0 63 60 == 0
      let tile := if isTile then s.tileAtPos p tr pos else none
      let s := s.learn 2 [BitVec.ofNat 64 q.toNat]
      let s := s.modHlt fun h => { h with defects := h.defects.map fun e => if e.seq = q ∧ e.srcLearned = true then { e with srcLearned := false, seq := 0 } else e }
      let s := s.raisePanel 0x0509 q.toNat (tile.getD 0xFFFF)
      match tile with
      | some t =>
        if (s.tile t).st = .fenced ∨ (s.tile t).st = .hole then ok ((s.hltRun 5 t).beginRetest t 3) else ok s
      | none =>
        if isTile ∧ (s.site p).sparePos tr = pos then ok ((s.hltRun 5 32768).modHlt fun h => { h with spareTest := some (p * 8 + tr) }) else ok s

/-- A core of a tile is in RUN or WAIT. -/
def Tile.busyCores (t : Tile) : Bool := [0, 1, 2, 3].any fun c => (t.core c).st == .run || (t.core c).st == .wait
/-- TRESET (R477). -/
def execTreset (port : Nat) (v : W32) (s : State) : Out :=
  hltGate s port (some v) fun s =>
    let t := s.hlt.target
    let st := (s.tileSt t).st
    if st = .off ∨ st = .dark then ok (s.hltRefuse 3)
    else if (s.tile t).busyCores then ok (s.hltRefuse 5)
    else ok (((s.hltRun 6 t).tileReset t).modTile t fun T => { T with resetting := true })
/-- SRESET (R477). -/
def execSreset (port : Nat) (v : W32) (s : State) : Out :=
  hltGate s port (some v) fun s =>
    let p := s.phys (s.hlt.target % 256)
    let st := (s.site p).st
    if st = .off ∨ st = .dark then ok (s.hltRefuse 3)
    else if (s.tilesOf p).any fun t => (s.tile t).busyCores then ok (s.hltRefuse 5)
    else ok ((s.hltRun 7 p).siteReset p)
/-- COMPUTE_RESET_DONE: of a tile, or of a physical site (R397, R477); a site whose PLL has failed stays in RESET (R373). A command whose reset a greater one has
overtaken, a warm reset or a switch-off, ends here too. -/
def execComputeResetDone (site : Bool) (x : Nat) (s : State) : Out :=
  if site then
    onSite s x fun X =>
      when_ (X.resetting || s.hlt.run == some (7, x)) s <|
        let s := s.modSite x fun y => { y with resetting := false, st := if y.resetting ∧ y.st = .reset ∧ y.clk.pllBad = false then .active else y.st }
        ok ((((s.bankNow x).remapHold x).cmdEnds [7] x).raiseSite 0x0508 x (s.siteSource x) 1).promise
  else
    onTile s x fun T =>
      when_ (T.resetting || s.hlt.run == some (6, x)) s <|
        ok ((((s.modTile x fun T => { T with resetting := false }).loadNext x).cmdEnds [6] x).raiseTile 0x0508 x 0 none x 0)

/-! ### Clears and selects (R526 to R528) -/

/-- HLT_SCLR: on port 0, without a session; nothing happens at a DARK site (R527). -/
def execHltSclr (port : Nat) (v : W32) (s : State) : Out :=
  when_ (port == 0 && s.reach port) s <|
    let w := (s.port port).ssel
    let p := bitsOf w 8 4 * 16 + bitsOf w 3 0
    when_ (decide (p < 272) && (s.site p).st != .dark) s <|
      ok (s.modCnt p fun c =>
        { spart := if bitOf v 0 then 0 else c.spart, sdrop := if bitOf v 1 then 0 else c.sdrop, snoroute := if bitOf v 2 then 0 else c.snoroute
          shop := if bitOf v 3 then 0 else c.shop, spar := if bitOf v 4 then 0 else c.spar, sstale := if bitOf v 5 then 0 else c.sstale
          sdropSeen := c.sdropSeen && !bitOf v 1, snorouteSeen := c.snorouteSeen && !bitOf v 2 })
/-- HLT_ECLR. -/
def execHltEclr (port : Nat) (v : W32) (s : State) : Out :=
  when_ (port == 0 && s.reach port) s <|
    let e := bitsOf (s.port port).esel 5 0
    ok (s.modFab fun f => { f with estale := if bitOf v 0 then tput 0 f.estale e 0 else f.estale, epart := if bitOf v 1 then tput 0 f.epart e 0 else f.epart })
/-- HLT_DBCLR. -/
def execHltDbclr (port : Nat) (v : W32) (s : State) : Out :=
  when_ (port == 0 && s.reach port) s <|
    ok ((rangeFrom 0 4).foldl (fun s p => if bitOf v p then s.modPort p fun x => { x with dbdrop := 0, dbSeen := false } else s) s)
/-- HLT_LSEL: copies the whole record into the port's view (R528). -/
def execHltLsel (port : Nat) (v : W32) (s : State) : Out :=
  onPort s port fun _ => when_ (s.reach port) s <| ok (s.modPort port fun p => { p with lsel := v &&& 0x3F, lview := lget? s.fab.recs (bitsOf v 5 0) })

end Sys2Proof.Machine
end

