-- ==== Sys2Proof/Machine/Partitions.lean ====
section
/-! DEFINITION. Partitions (R332 to R340): DEFINE, DELETE, WARM_RESET and UPDATE with their checks, and the ends of the resets. -/

namespace Sys2Proof.Machine

def State.prtCmd (s : State) (p ecode : Nat) : State := s.modPart p fun q => { q with err := ecode != 0, ecode }
/-- Other partitions that stand. -/
def State.otherParts (s : State) (p : Nat) : List Part := (allParts.filter fun q => q != p && (s.partn q).st != .undefined).map s.partn

/-- A command written to PRT_CTL (R332, R333, R503): it needs a running service die (R482). -/
def prtGate (s : State) (port p : Nat) (code : Part → Nat) (k : State → Out) : Out :=
  onPart s p fun q =>
    gated0 s port (0x2010 + 0x40 * p) <|
      when_ s.svRuns s <| if code q = 0 then k (s.prtCmd p 0) else ok (s.prtCmd p (code q))

/-- ECODE 2 to 6 of the staging set, which every command checks (R333; log entry 50). -/
def State.stageCode (s : State) (p : Nat) (d : PartDef) : Nat :=
  let others := s.otherParts p
  if 15 < d.sc + d.wm1 ∨ 15 < d.sr + d.hm1 then 2
  else if others.any fun o => (rectSites o.cur).any (rectSites d).contains then 3
  else if d.count = 0 ∨ 3072 < d.first + d.count ∨
      (others.any fun o => decide (d.first < o.cur.first + o.cur.count ∧ o.cur.first < d.first + d.count)) = true then 4
  else if others.any fun q => q.cur.mask &&& d.mask != 0 then 5
  else if 10 < d.rto then 6
  else 0
/-- The reason to refuse a DEFINE (R333). -/
def State.defineCode (s : State) (p : Nat) (q : Part) : Nat := if q.st ≠ .undefined then 1 else s.stageCode p q.stage
/-- The reason to refuse a WARM_RESET or an UPDATE (R333). -/
def State.changeCode (s : State) (p : Nat) (q : Part) : Nat := if q.st ≠ .defined then 1 else s.stageCode p q.stage
/-- The reason to refuse a DELETE (R333). -/
def State.deleteCode (s : State) (p : Nat) (q : Part) : Nat :=
  if s.changeCode p q ≠ 0 then s.changeCode p q
  else if (s.host.ctxs.any fun e => decide (q.cur.first ≤ e.1 ∧ e.1 < q.cur.first + q.cur.count) && e.2.st != .free) || q.ddr.cur.size != 0
      || s.host.wins.any fun w => w.2.en && w.2.part == p then 7
  else 0

/-! ### Warm reset (R337, R340) -/

/-- Packets parked at a site that enters RESET: READs answered NOT_READY, WRITEs and CNTs dropped and counted (R337, R340). -/
def State.unpark (s : State) (p : Nat) : State :=
  (rangeFrom 0 s.fab.flights.length).reverse.foldl (fun s i =>
    match s.flight i with
    | some f => if f.place = .parked p ∧ Opc_isReq f.pkt.opc = true then s.turnAway i f p (.router p 0 0) stNotReady else s
    | none => s) s
/-- A site of the rectangle enters RESET, unless it is OFF or DARK; the slice of an OFF site, whose base die is up, is invalidated too (R269, R337 step 3,
R340). Of a BANKED one the voltages of its effective step are restored (R389), unless it is banked for its path, which only CLEAR_PATH ends (R402). -/
def State.warmSite (s : State) (p : Nat) : State :=
  if (s.site p).st = .dark then s
  else if (s.site p).st = .off then s.invalidateSlice p
  else
    let s := (s.tilesOf p).foldl (fun s t => s.modTile t fun T => { T.computeReset with ld := {}, resetting := false }) s
    let k := if (s.site p).clk.hold then (s.site p).clk.cur else s.stepCeiling p
    let s := s.modSite p fun x =>
      { x with st := .reset, heldRow := none, resetting := false,
               clk := { x.clk.abandon with bankDrv := false, bankHeat := false, bankSweep := false, returning := x.st == .banked && !x.clk.bankPath,
                                           req := if x.st = .banked ∧ x.clk.bankPath = false then k else x.clk.req } }
    let x := s.site p
    let s := if x.clk.returning then s.setRails p (x.vcAt k) x.vsAt else s
    (s.unpark p).invalidateSlice p
/-- The sites that enter RESET in step 3 of a warm reset; one that is rejoining does so by its own rules (R337, R340, R448). -/
def State.warmSites (s : State) (p : Nat) : List Nat :=
  (s.partSites p).filter fun i => (s.site i).st != .off && (s.site i).st != .dark && !(s.site i).pwr.rejoining
/-- Steps 1 to 3 of a warm reset. -/
def State.warmReset (s : State) (p : Nat) : State :=
  let mine := s.warmSites p
  let s := s.modPart p fun q => { q with st := .resetting, warming := mine }
  let s := (s.partSites p).foldl State.warmSite s
  let s := s.host.ctxs.foldl (fun s e =>
    if e.2.st != .free && e.2.cfg.part == p then (s.restart e.1).modCtx e.1 fun x => { x with byWarm := true } else s) s
  s.tagClear p
/-- The sites of a warm reset that are still in it: one that has gone OFF or DARK since returns by its own rules (R340). -/
def State.stillWarm (s : State) (p : Nat) : List Nat := (s.partn p).warming.filter fun i => (s.site i).st == .reset && !(s.site i).pwr.rejoining
/-- Step 5 and the end of RESET at one site; one that was BANKED is at its effective step (R380), and one banked for its path is BANKED again (R402). -/
def State.warmEnd (s : State) (p : Nat) : State :=
  let s := (s.tilesOf p).foldl (fun s t => s.modTile t fun T => { T.zeroed with ld := {} }) s
  let k := if (s.site p).clk.hold then (s.site p).clk.cur else min (s.site p).clk.req (s.stepCeiling p)
  let s := s.modSite p fun x =>
    { x with st := .active, clk := { x.clk with returning := false, cur := if x.clk.returning then k else x.clk.cur, req := if x.clk.returning then k else x.clk.req } }
  ((s.relimit p).bankNow p).remapHold p
/-- The rails of the sites that were BANKED are back (R389). -/
def State.warmRails (s : State) (p : Nat) : Bool := (s.stillWarm p).all fun i => !(s.site i).clk.returning || (s.site i).pwr.settled
/-- Guarded mode as a partition's tiles have it (R197, R337 step 4): all of them, also where the site is OFF or DARK. -/
def State.guardTiles (s : State) (p : Nat) (on : Bool) : State :=
  (s.partSites p).foldl (fun s i => (s.tilesOf i).foldl (fun s t => s.modTile t fun T => { T with guarded := on }) s) s

/-- DEFINE (R333, R334): the sites join the partition, its home table is built, and a warm reset of them begins. -/
def execDefine (port p : Nat) (s : State) : Out :=
  prtGate s port p (s.defineCode p) fun s =>
    let d := (s.partn p).stage
    let s := s.profClear p
    let s := s.modPart p fun q => { q with cur := d, gstaged := d.guarded, deleting := false }
    let s := (rectSites d).foldl (fun s S => (s.modSite (s.phys S) fun x => { x with part := some p }).relimit (s.phys S)) s
    let s := s.modPart p fun q => { q with home := s.homeTable p }
    ok (s.warmReset p).promise
/-- WARM_RESET (R334, R337). -/
def execWarmReset (port p : Nat) (s : State) : Out :=
  prtGate s port p (s.changeCode p) fun s => ok (s.warmReset p).promise
/-- DELETE (R333, R334). -/
def execDelete (port p : Nat) (s : State) : Out :=
  prtGate s port p (s.deleteCode p) fun s => ok ((s.profClear p).modPart p (fun q => { q with deleting := true }) |>.warmReset p).promise
/-- UPDATE applies RTO, RICKBAR and MASK, and stages GUARDED (R334). -/
def execPrtUpdate (port p : Nat) (s : State) : Out :=
  prtGate s port p (s.changeCode p) fun s =>
    ok (s.modPart p fun q => { q with cur := { q.cur with rto := q.stage.rto, rickbar := q.stage.rickbar, mask := q.stage.mask }, gstaged := q.stage.guarded })

/-- WARM_RESET_DONE: self-test findings apply, staged GUARDED comes into force, memories are zero, the sites that entered RESET are ACTIVE, and the contexts
complete their restart (R337 steps 4 to 6). -/
def execWarmResetDone (p : Nat) (found suspects : List BadUnit) (s : State) : Out :=
  onPart s p fun q =>
    when_ (q.st == .resetting && !q.deleting && s.svRuns && s.warmRails p) s <|
      let mine := s.stillWarm p
      let s := mine.foldl State.warmEnd (s.guardTiles p q.gstaged)
      let s := s.findings 0x02 mine false found suspects
      let s := s.modPart p fun q => { q with st := .defined, warming := [], cur := { q.cur with guarded := q.gstaged } }
      let s := s.host.ctxs.foldl (fun s e => if e.2.st == .resetting && e.2.byWarm && e.2.cfg.part == p then s.restartDone e.1 else s) s
      ok s.promise
/-- DELETE_DONE: the sites, zeroed, leave the partition; its home table and its pace-lock limits are discarded; STATE is UNDEFINED (R334, R424). -/
def execDeleteDone (p : Nat) (s : State) : Out :=
  onPart s p fun q =>
    when_ (q.st == .resetting && q.deleting && s.svRuns && s.warmRails p) s <|
      let mine := s.partSites p
      let s := (s.stillWarm p).foldl State.warmEnd s
      let s := mine.foldl (fun s i => ((s.invalidateSlice i).modSite i fun x => { x with part := none, clk := { x.clk with paceLim := 15 } }).relimit i) s
      ok (s.modPart p fun q => { q with st := .undefined, deleting := false, warming := [], home := [], engaged := false }).promise

end Sys2Proof.Machine
end

