-- ==== Sys2Proof/Machine/Service.lean ====
section
/-! DEFINITION. The service dies (R478 to R483) and margins and ageing (R484 to R490). -/

namespace Sys2Proof.Machine

/-! ### Sessions that end (R504, R515) -/

/-- A session's fields in DATA0 of its events. -/
def sesWord (entry : Nat) (x : Session) : Nat := entry + x.slot * 16 + x.port * 256
/-- An entry is freed: reason 1 CLOSE, 2 deadline, 3 failover. -/
def State.endSession (s : State) (entry reason : Nat) : State :=
  match tget none s.ses.ents entry with
  | none => s
  | some x => (s.modSes fun v => { v with ents := tput none v.ents entry none }).raisePanel 0x0601 (sesWord entry x) reason

/-! ### Failover and loss (R478 to R483) -/

/-- A die is 0 SV-A or 1 SV-B. -/
def State.setDie (s : State) (d : Nat) (st : SvSt) : State := s.modHlt fun h => if d = 0 then { h with sva := st } else { h with svb := st }
def Hlt.dieIn (h : Hlt) (st : SvSt) : Option Nat := if h.sva = st then some 0 else if h.svb = st then some 1 else none
/-- The die in a state, on a panel that has power. -/
def State.svIn (s : State) (st : SvSt) : Option Nat := if s.pwr.powered then s.hlt.dieIn st else none
/-- What a failed die takes with it (R461, R480, R506): the buffered log, a running update or commit, armed fuses. -/
def State.dieWork (s : State) : State :=
  let s := s.modSpi fun p =>
    { p with logLost := p.logLost + p.logBuf.length, logBuf := [], committing := none, cmdSt := if 1 ≤ p.cmdSt ∧ p.cmdSt ≤ 5 then 0 else p.cmdSt }
  (rangeFrom 0 4).foldl (fun s q => s.modPort q fun p => { p with arm := none }) s
/-- SV_HEARTBEAT (R478). -/
def execSvHeartbeat (s : State) : Out := when_ s.svRuns s <| ok (s.modHlt fun h => { h with lastBeat := s.time })
/-- The sweep in hand at a site ends without a record: its site is unbanked (R480, R485). -/
def State.sweepEnds (s : State) (p : Nat) : State :=
  if (s.site p).clk.bankSweep then (s.modSite p fun x => { x with clk := { x.clk with bankSweep := false } }).unbankNow p else s
/-- SV_FAILOVER: after three missing heartbeats, or at once on a reported fault, the standby takes over (R479), and work in hand ends or starts again (R480, R504). -/
def execSvFailover (reported : Bool) (s : State) : Out :=
  match s.svIn .active, s.svIn .standby with
  | some a, some b =>
    when_ (reported || decide (s.hlt.lastBeat + 3 * ms ≤ s.time)) s <|
    let s := (s.setDie a .failed).setDie b .active
    let s := s.modHlt fun h => { h with failovers := satAdd16 h.failovers 1, lastBeat := s.time }
    let s := s.dieWork.modCap fun c => { c with prof := c.mirror }
    let s := s.raisePanel 0x050A b (if reported then 2 else 1)
    let s := (rangeFrom 0 4).foldl (fun s e => s.endSession e 3) s
    let s := allParts.foldl (fun s q => if (s.partn q).st = .resetting then s.warmReset q else s) s
    let s := allSites.foldl State.sweepEnds s
    ok s.promise
  | _, _ => ok s
/-- SV_STANDBY_LOST (R481). -/
def execSvStandbyLost (reported : Bool) (s : State) : Out :=
  match s.svIn .standby with
  | some b => ok (((s.setDie b .failed).unsettle 4 b).raisePanel 0x050B b (if reported then 2 else 1)).promise
  | none => ok s
/-- SV_LOST: the PCIe edge dies have seen no heartbeat for 10 ms (R482). -/
def execSvLost (s : State) : Out :=
  match s.svIn .active, s.svIn .standby with
  | some a, none =>
    when_ (decide (s.hlt.lastBeat + 10 * ms ≤ s.time)) s <|
      let since := (s.time - s.hlt.lastBeat) / ms
      let s := ((s.setDie a .failed).unsettle 4 a).dieWork.modHlt fun h => { h with svLostAt := some s.time }
      let s := (rangeFrom 0 4).foldl (fun s q => if (s.port q).alertEn then s.sendMsix q (s.port q).avec else s) s
      let s := s.raisePanel 0x050C 0 since
      let b := s.cap.cap * 1000 / 256
      let s := allSites.foldl (fun s p => if (s.site p).st = .dark then s else s.modSite p fun x => { x with ctl := { x.ctl with budget := b } }) s
      ok (s.modCap fun c => { c with static_ := true }).promise
  | _, _ => ok s
/-- SV_RESET: the key written to HLT_SVRST through any port resets every FAILED die (R483). -/
def execSvReset (port : Nat) (v : W32) (s : State) : Out :=
  when_ (s.reach port && v == 0x53565253#32) s <|
    ok (s.modHlt fun h => { h with sva := if h.sva = .failed then .resetting else h.sva, svb := if h.svb = .failed then .resetting else h.svb })
/-- A reset die ends its boot: verified, it is active where no die is, else standby with its mirror taken from the active die; unverified, it stays FAILED with
SV_RESET_FAIL (R459, R483, R497). -/
def State.dieBack (s : State) (d : Nat) (good : Bool) : State :=
  let st := if d = 0 then s.hlt.sva else s.hlt.svb
  if st ≠ .resetting then s
  else if good then
    (if (s.svIn .active).isSome then (s.setDie d .standby).modCap fun c => { c with mirror := c.prof } else s.setDie d .active).settle 4 d
  else
    let c := imageCheck s.spi.image s.ses.owner s.ses.svnMin
    (s.setDie d .failed).raisePanel 0x050E d (if c = 0 then 0x12 else bootCauseOf c)
/-- SV_RESTORED: the end of the reset of the dies, each of which runs, or fails of itself, and verifies the image; where both dies were lost the learned profiles are
(R483), and what waited for a service die is done (R482). -/
def execSvRestored (aRuns bRuns : Bool) (s : State) : Out :=
  let a := s.hlt.sva == .resetting
  let b := s.hlt.svb == .resetting
  let good := imageCheck s.spi.image s.ses.owner s.ses.svnMin == 0
  let aOk := aRuns && good
  let bOk := bRuns && good
  when_ (a || b) s <|
    let lost := !s.svRuns
    let s := if lost then s.modCap fun c => { c with prof := [], mirror := [] } else s
    let s := if a ∧ aOk = true then s.dieBack 0 true else s
    let s := if b ∧ bOk = true then s.dieBack 1 true else s
    let s := if a ∧ aOk = false then s.dieBack 0 false else s
    let s := if b ∧ bOk = false then s.dieBack 1 false else s
    let s := if lost ∧ s.svRuns = true then allSites.foldl State.siteDue ((s.tiles.map (·.1)).foldl State.dueDone s) else s
    let bits := b2n (a && aOk) + 2 * b2n (b && bOk)
    if bits = 0 then ok s.promise
    else ok ((s.modHlt fun h => { h with lastBeat := s.time, svLostAt := none }).raisePanel 0x050D bits 0).promise

/-! ### Sweep windows (R485, R491) -/

/-- SWEEP_GRANT: writing HLT_GRANT with EN = 1 opens a window over sites S0 to S1. -/
def execSweepGrant (port : Nat) (v : W32) (s : State) : Out :=
  gated0 s port 0x30030 <|
    when_ s.svRuns s <|
      let m := bitsOf v 7 0
      let s := s.modHlt fun h => { h with grantEn := bitOf v 31, grantS0 := bitsOf v 23 16, grantS1 := bitsOf v 15 8, grantMin := m }
      ok (if bitOf v 31 ∧ 0 < m then s.modHlt fun h => { h with grantOpen := true, grantAt := s.time, swept := 0 } else s)
/-- SWEEP_WINDOW_END. -/
def execSweepWindowEnd (s : State) : Out :=
  when_ (s.hlt.grantOpen && decide (s.hlt.grantAt + s.hlt.grantMin * 60 * sec ≤ s.time)) s <| ok (s.modHlt fun h => { h with grantOpen := false })

/-! ### A margin sweep (R484 to R488) -/

def up5 (n : Nat) : Nat := (n + 4) / 5 * 5
/-- Raises a voltage in 5 mV steps while the monitors fail, to 0.850 V at the most, then lowers it while they pass, to 0.550 V at the least (R486). `need` is the lowest
voltage at which all pass; `lo` and `hi` bound the search. -/
def searchUp (need hi : Nat) : Nat → Nat → Nat
  | 0, v => v
  | n + 1, v => if v < need ∧ v < hi then searchUp need hi n (v + 5) else v
def searchDown (need lo : Nat) : Nat → Nat → Nat
  | 0, v => v
  | n + 1, v => if lo + 5 ≤ v ∧ need ≤ v - 5 then searchDown need lo n (v - 5) else v
/-- What a search from a start finds, between two bounds; 5 mV above the upper one where nothing passes there. -/
def searchV (need lo hi start : Nat) : Nat :=
  let v := searchDown need lo 64 (searchUp need hi 64 start)
  if v < need then hi + 5 else v
/-- The voltage at which a measured step's monitors all pass (R484). -/
def needOf (mons : List Nat) : Nat := lmax 0 (mons.take 16)
def SweepMeas_need (m : SweepMeas) (k : Nat) : Nat := needOf (if k = 15 then m.at15 else if k = 11 then m.at11 else if k = 7 then m.at7 else m.at3)
/-- setpoint(k) of R486, in mV, with the trims applied before the sweep. -/
def SiteMrg.setpoint (x : SiteMrg) (k : Nat) : Nat := 600 + 10 * k + tget 0 x.trims k
/-- vmin of a measured step, and of a sentinel. -/
def SiteMrg.found (x : SiteMrg) (m : SweepMeas) (k : Nat) : Nat := searchV (SweepMeas_need m k) 550 850 (x.setpoint k)
def SiteMrg.foundSent (x : SiteMrg) (m : SweepMeas) (i : Nat) : Nat := searchV (lget 0 m.sents i) 650 800 x.vsSet
/-- Linear interpolation between two measured steps 4 apart, rounded up to 5 mV. -/
def between (lo hi i : Nat) : Nat := up5 ((lo * (4 - i) + hi * i + 3) / 4)
/-- vmin of every step. Steps 0 to 2 lie outside the measured ones: the manual states no value there, and theirs are free (log entry 26). -/
def SiteMrg.vmin (x : SiteMrg) (m : SweepMeas) (n k : Nat) : Nat :=
  if k < 3 then (Config.free32 (n + k)).toNat
  else if k < 7 then between (x.found m 3) (x.found m 7) (k - 3)
  else if k < 11 then between (x.found m 7) (x.found m 11) (k - 7)
  else if k < 15 then between (x.found m 11) (x.found m 15) (k - 11)
  else x.found m 15
/-- The least-squares line through the last 16 sweeps' vmin of step 15 reaches a value at a time (R487): the values are times in seconds and mV, newest first. -/
def fitReaches (l : List (Nat × Nat)) (v at_ : Nat) : Bool :=
  let n : Int := l.length
  let sx : Int := (l.map fun p => (p.1 : Int)).foldl (· + ·) 0
  let sy : Int := (l.map fun p => (p.2 : Int)).foldl (· + ·) 0
  let sxx : Int := (l.map fun p => (p.1 * p.1 : Int)).foldl (· + ·) 0
  let sxy : Int := (l.map fun p => (p.1 * p.2 : Int)).foldl (· + ·) 0
  let d := n * sxx - sx * sx
  decide (0 < d ∧ (v : Int) * n * d ≤ sy * d + (n * sxy - sx * sy) * (n * (at_ : Int) - sx))
/-- The fit over the last 16 sweeps reaches vmin[15] + 5 mV within 30 days (R487). With fewer sweeps there is none (log entry 103). -/
def SiteMrg.ages (x : SiteMrg) (v15 now : Nat) : Bool :=
  let l := ((now / sec, v15) :: x.v15s).take 16
  l.length == 16 && (fitReaches l (v15 + 5) (now / sec) || fitReaches l (v15 + 5) (now / sec + 30 * 86400))
/-- A value moves toward a target by at most `d`. -/
def toward (d from_ target : Nat) : Nat := if from_ < target then min (from_ + d) target else max (from_ - d) target
def SiteMrg.planOf (x : SiteMrg) (m : SweepMeas) (guard n now k : Nat) : Nat :=
  up5 (x.vmin m n k + guard + (if x.ages (x.found m 15) now then 5 else 0) - (600 + 10 * k))
/-- The site's table after a sweep (R487, R488). MARGIN15 and AGE are those of the re-planned trims (log entry 103). -/
def SiteMrg.replan (x : SiteMrg) (m : SweepMeas) (guard vsguard n now : Nat) : SiteMrg :=
  let ks := rangeFrom 0 16
  let plan (k : Nat) : Nat := x.planOf m guard n now k
  let trims := ks.foldl (fun t k => tput 0 t k (toward 5 (tget 0 x.trims k) (min (plan k) 100))) x.trims
  let best := lmax 0 (ks.filter fun k => decide (plan k ≤ 100))
  let thin := ks.filter fun k => decide (k ≤ x.siteCeil ∧ x.setpoint k < x.vmin m n k + 10)
  let ceil := match thin with
    | k :: _ => k - 1
    | [] => toward 1 x.siteCeil best
  let v15 := x.found m 15
  let first := x.firstV15.getD v15
  let sents := (rangeFrom 0 8).map (x.foundSent m)
  { x with trims, siteCeil := ceil, vsSet := min 800 (max 700 (toward 5 x.vsSet (up5 (lmax 0 sents + vsguard)))), margin15 := 750 + tget 0 trims 15 - v15
           mons := (rangeFrom 0 16).foldl (fun t i => tput 0 t i (searchV (lget 0 m.at15 i) 550 850 (x.setpoint 15))) []
           sents := (rangeFrom 0 8).foldl (fun t i => tput 0 t i (lget 0 sents i)) []
           sweeps := x.sweeps + 1, firstV15 := some first, v15s := ((now / sec, v15) :: x.v15s).take 16, age := 2 * (v15 - first), lastSweep := some now, overdueAt := none }
/-- Sites banked for a sweep, of a converter group or on the panel (R485). -/
def State.sweeping (s : State) (g : Option Nat) : Nat :=
  (allSites.filter fun p => (s.site p).clk.bankSweep && (match g with
    | some g => groupOf p == g
    | none => true)).length
/-- The service die may begin a sweep that banks a site (R485): an ACTIVE one of the open window not swept in the last 20 h, with no other of its converter group and at
most 15 of the panel being swept. -/
def State.maySweep (s : State) (p : Nat) : Bool :=
  let x := s.site p
  let fresh := match x.mrg.lastSweep with
    | some t => decide (t + 20 * hour ≤ s.time)
    | none => true
  s.svRuns && !x.clk.hold && match s.logical p with
    | none => false
    | some S => x.st == .active && x.clk.ph == .none && s.hlt.grantOpen && decide (s.hlt.grantS0 ≤ S ∧ S ≤ s.hlt.grantS1) && fresh
        && s.sweeping (some (groupOf p)) == 0 && decide (s.sweeping none < 16)
/-- A sweep of a site can be measured (R484, R485): the site is banked for it, or is a spare site that has its rails. -/
def State.mayMeasure (s : State) (p : Nat) : Bool :=
  let x := s.site p
  s.svRuns && x.st == .banked && (x.clk.bankSweep || ((s.logical p).isNone && x.clk.bankSpare && x.pwr.sw == .on))
/-- What a sweep measured is planned and recorded (R486 to R488). -/
def State.sweepMeasured (s : State) (site : Nat) (m : SweepMeas) : State :=
  let x := s.site site
  let y := x.mrg.replan m s.hlt.guard s.hlt.vsguard s.freeN s.time
  let y := { y with sweptWord := BitVec.ofNat 64 (s.spi.bootNum.toNat * 2 ^ 32 + s.bootSec % 2 ^ 32) }
  let s := s.spendN 3
  let s := s.modSite site fun x => { x with mrg := y }
  let s := if (s.logical site).isSome then s.modHlt fun h => { h with swept := h.swept + 1 } else s
  let s := (s.learnMargin site).raiseSite 0x050F site (s.siteSource site) (y.margin15 % 256 + y.vsset % 256 * 256)
  let s := if y.trims = x.mrg.trims ∧ y.siteCeil = x.mrg.siteCeil then s
    else s.raiseSite 0x0510 site (s.siteSource site) (tget 0 y.trims 15 / 5 % 32 + y.siteCeil % 16 * 256)
  let top := lmax 0 (y.sents.map (·.2))
  if 800 < up5 (top + s.hlt.vsguard) then
    (s.tilesOf site).foldl (fun s t => s.modTile t fun T => { T with st := if T.st = .active then .suspect else T.st })
      (s.raiseSite 0x0513 site (s.siteSource site) top)
  else s
/-- MARGIN_SWEEP: its begin banks the site; its end measures the site, plans its margins anew and returns it (R484 to R488). A site held for longer than 40 ms is returned
unmeasured (log entry 103). -/
def execMarginSweep (site : Nat) (m : SweepMeas) (s : State) : Out :=
  onSite s site fun x =>
    if m.begins then
      when_ (s.maySweep site) s <|
        let s := s.modSite site fun x => { x with clk := { x.clk with bankSweep := true }, mrg := { x.mrg with sweepAt := s.time } }
        ok (s.bankNow site).promise
    else
      when_ (s.mayMeasure site) s <|
        if x.clk.bankSweep = true ∧ x.mrg.sweepAt + 40 * ms < s.time then ok (s.sweepEnds site).promise
        else ok (((s.sweepMeasured site m).sweepEnds site).relimit site).promise
/-- MARGIN_OVERDUE: unswept for 24 h, once a day (R485). -/
def execMarginOverdue (site : Nat) (s : State) : Out :=
  onSite s site fun x =>
    let since := x.mrg.lastSweep.getD s.spi.t0
    let due := match x.mrg.overdueAt with
      | some t => decide (t + 24 * hour ≤ s.time)
      | none => true
    when_ (s.svRuns && due && decide (since + 24 * hour ≤ s.time)) s <|
      ok ((s.modSite site fun x => { x with mrg := { x.mrg with overdueAt := some s.time } }).raiseSite 0x0511 site (s.siteSource site) ((s.time - since) / hour)).promise

/-! ### Load classes and cell ceilings (R489, R490) -/

/-- A SURGE cell ceiling lies below the site ceiling. -/
def SiteMrg.surgeLow (m : SiteMrg) : Bool := (rangeFrom 0 10).any fun b => decide (m.cellCeilOf (b * 3 + 2) < m.siteCeil)
/-- LOAD_CLASS_UPDATE: every 1 ms, in every state of the site; SURGE is kept for 10 ms, or 1 s (R489). -/
def execLoadClassUpdate (site busyPct : Nat) (surged : Bool) (s : State) : Out :=
  onSite s site fun x =>
      let surge := decide (10 ≤ busyPct) && surged
      let at_ := if surge then some s.time else x.mrg.surgeAt
      let kept := match at_ with
        | some t => decide (s.time < t + (if x.mrg.surgeLow then sec else 10 * ms))
        | none => false
      let cls := if surge ∨ kept = true then 2 else if 10 ≤ busyPct then 1 else 0
      ok ((s.modSite site fun x => { x with mrg := { x.mrg with cls, surgeAt := at_ } }).relimit site)
/-- CELL_CEILING_RISE: after 7 days without a timing detection in the cell (R490). -/
def execCellCeilingRise (site cell : Nat) (s : State) : Out :=
  onSite s site fun x =>
    let c := x.mrg.cellCeilOf cell
    when_ (decide (cell < 30 ∧ c < x.mrg.siteCeil ∧ c < 15 ∧ tget 0 x.mrg.cellAt cell + week ≤ s.time) && s.svRuns) s <|
      let s := s.modSite site fun x => { x with mrg := { x.mrg with cellCeil := tput 15 x.mrg.cellCeil cell (c + 1), cellAt := tput 0 x.mrg.cellAt cell s.time } }
      ok ((s.ceilingChanged site cell (c + 1)).relimit site)

end Sys2Proof.Machine
end

