-- ==== Sys2Proof/Machine/Sessions.lean ====
section
/-! DEFINITION. Keys, attestation, management sessions and fuses (R495 to R507). -/

namespace Sys2Proof.Machine


/-! ### SES_CMD (R507) -/

/-- The outcome of a port's command: LASTCMD, ERR and ECODE of SES_STATUS. -/
def State.sesEnd (s : State) (port cmd ecode : Nat) : State := s.modPort port fun p => { p with lastcmd := cmd, serr := ecode != 0, secode := ecode }
/-- A command of SES_CMD that needs no session: it is the active service die that runs it. -/
def sesCmd (s : State) (port : Nat) (k : Port → Out) : Out := onPort s port fun p => when_ (s.reach port && s.svRuns) s (k p)
/-- One that needs a session on its port (R503, R506). -/
def sesGated (s : State) (port cmd : Nat) (k : Port → Out) : Out :=
  sesCmd s port fun p => if s.hasSession port then k p else ok ((s.denied port 0x1004).sesEnd port cmd 1)

/-! ### Opening a session (R500 to R502) -/

def Port.sesSlot (p : Port) : Nat := bitsOf p.sarg 26 24
def Port.sesIndex (p : Port) : Nat := bitsOf p.sarg 17 16
def Port.sesMinutes (p : Port) : Nat := bitsOf p.sarg 10 0
def Port.sesProv (p : Port) : Bool := bitOf p.sarg 31
/-- CHALLENGE: 32 fresh bytes bound to the port, the slot, the minutes and PROV (R501); minutes out of range are refused with ECODE 11. -/
def execChallenge (port : Nat) (s : State) : Out :=
  sesCmd s port fun p =>
    if p.sesMinutes = 0 ∨ 1440 < p.sesMinutes then ok (s.sesEnd port 1 11)
    else
      let bytes := (rangeFrom s.freeN 32).map Config.freeByte
      let s : State := { s with freeN := s.freeN + 32 }
      ok ((s.modPort port fun p => { p with chal := some (bytes, p.sesSlot, p.sesMinutes, p.sesProv, s.time) }).sesEnd port 1 0)
/-- CHALLENGE_EXPIRY: after 60 s (R501). -/
def execChallengeExpiry (port : Nat) (s : State) : Out :=
  onPort s port fun p =>
    match p.chal with
    | some (_, _, _, _, t) => when_ (decide (t + 60 * sec ≤ s.time)) s <| ok (s.modPort port fun p => { p with chal := none })
    | none => ok s
/-- The valid challenge of a port. -/
def State.challengeOf (s : State) (p : Port) : Option (List Byte × Nat × Nat × Bool) :=
  match p.chal with
  | some (c, slot, m, prov, t) => if s.time < t + 60 * sec then some (c, slot, m, prov) else none
  | none => none
/-- The port's OPEN is locked out. -/
def State.sesLocked (s : State) (p : Port) : Bool := match p.locked with
  | some t => decide (s.time < t)
  | none => false
/-- The first free entry of SES_INFO0 to SES_INFO3. -/
def State.freeEntry (s : State) : Option Nat := (rangeFrom 0 4).find? fun e => (tget none s.ses.ents e).isNone
/-- ECODE of an OPEN with its challenge (R502). -/
def State.openCode (s : State) (port : Nat) (p : Port) : Nat :=
  if s.sesLocked p then 8
  else
    match s.challengeOf p with
    | none => 3
    | some (c, slot, _, prov) =>
      let key := memGetList p.buf 0 1952
      if p.sesProv ≠ prov then 4
      else if prov then
        (if s.ses.prov = false ∨ port ≠ 0 ∨ slot ≠ 7 then 4 else if s.freeEntry.isNone then 7 else 0)
      else if slotEmpty s.spi.fields slot then 4
      else if shake256 key ≠ opSlot s.spi.fields slot then 5
      else if !verifies key c (memGetList p.buf 0x800 3309) then 6
      else if s.freeEntry.isNone then 7 else 0
/-- A refused OPEN: counted, and the third with ECODE 3 to 6 within 10 min locks the port out for 10 min (R502). -/
def State.openFails (s : State) (port e : Nat) : State :=
  let s := (s.sesEnd port 2 e).raisePanel 0x0602 port e
  if 3 ≤ e ∧ e ≤ 6 then
    let s := s.modSes fun x => { x with fails := x.fails + 1 }
    let l := ((s.port port).refusals.filter fun t => decide (s.time < t + 600 * sec)) ++ [s.time]
    if 3 ≤ l.length then (s.modPort port fun p => { p with refusals := [], locked := some (s.time + 600 * sec) }).raisePanel 0x0603 port 10
    else s.modPort port fun p => { p with refusals := l }
  else s
/-- OPEN (R500 to R502): the challenge serves one OPEN, whether it passes or fails. -/
def execSesOpen (port : Nat) (s : State) : Out :=
  sesCmd s port fun p =>
    let e := s.openCode port p
    let s' := s.modPort port fun p => { p with chal := none }
    if e ≠ 0 then ok (s'.openFails port e)
    else
      match s.challengeOf p, s.freeEntry with
      | some (_, slot, m, prov), some i =>
        let x : Session := { port, slot, prov, minutes := m, opened := s.time }
        let s := s'.modSes fun v => { v with ents := tput none v.ents i (some x) }
        ok ((s.sesEnd port 2 0).raisePanel 0x0600 (sesWord i x + b2n prov * 4096) m)
      | _, _ => ok (s'.openFails port 3)
/-- LOCKOUT_EXPIRY (R502). -/
def execLockoutExpiry (port : Nat) (s : State) : Out :=
  onPort s port fun p =>
    match p.locked with
    | some t => when_ (decide (t ≤ s.time)) s <| ok (s.modPort port fun p => { p with locked := none })
    | none => ok s
/-- CLOSE: of an entry bound to the port (R504, R507). -/
def execSesClose (port : Nat) (s : State) : Out :=
  sesCmd s port fun p =>
    match tget none s.ses.ents p.sesIndex with
    | some x => if x.port = port then ok ((s.endSession p.sesIndex 1).sesEnd port 3 0) else ok (s.sesEnd port 3 3)
    | none => ok (s.sesEnd port 3 3)
/-- SESSION_DEADLINE (R504). -/
def execSessionDeadline (entry : Nat) (s : State) : Out :=
  match tget none s.ses.ents entry with
  | some x => when_ (decide (entry < 4 ∧ x.opened + x.minutes * 60 * sec ≤ s.time) && s.svRuns) s <| ok (s.endSession entry 2)
  | none => ok s

/-! ### Attestation (R498, R499) -/

/-- HLT_DSRC of an entry of the defect map. -/
def Defect.src (d : Defect) : Nat := b2n d.srcFuse + 2 * b2n d.srcLearned + 4 * b2n d.srcTest
/-- DEFDIG (R499). -/
def State.defDigest (s : State) : List Byte := shake256 ((s.hlt.defects.map fun d => leBytes 8 d.word0.toNat ++ leBytes 8 d.src).flatten)
/-- The settings copy in use; none under default settings. -/
def Spi.inUse (p : Spi) : Option Settings := if p.setdef then none else if p.useB then p.copyB else p.copyA
/-- A field of the running image's header (R458). -/
def Spi.runField (p : Spi) (off n : Nat) : Nat := leWord ((p.runHdr.drop off).take n)
/-- Bytes 0x000 to 0x29F of the report (R498). -/
def State.report (s : State) (nonce : List Byte) : List Byte :=
  let p := s.spi
  let flags := b2n p.setdef + 2 * b2n p.lrlost + 4 * b2n s.ses.prov + 8 * b2n s.hlt.holds + 16 * (p.runField 0x10 4 % 2)
  let seq := match p.inUse with
    | some c => c.seq.toNat
    | none => 0
  let dig := match p.inUse with
    | some c => c.digest
    | none => []
  let mtr := s.mtr.recs.head?
  let m32 (f : MeterRec → Nat) : Nat := match mtr with
    | some (r, _) => f r
    | none => 0
  let mdig := match mtr with
    | some (r, _) => r.fwdig
    | none => []
  leBytes 4 0x41545331 ++ leBytes 4 1 ++ fit 32 nonce ++ fit 32 (shake256 idKey) ++
  leBytes 4 p.bootNum.toNat ++ leBytes 4 (b2n s.rick.master * 2 ^ 31 + s.rick.panel) ++ leBytes 8 0 ++ leBytes 8 s.time ++
  fit 32 p.runDig ++ leBytes 4 (p.runField 0xC 4) ++ leBytes 4 s.ses.svnMin ++ leBytes 8 (p.runField 0x18 8) ++
  fit 32 (s.ses.owner.getD []) ++ fit 32 Config.svRomDigest ++ fit 32 Config.tileRomDigest ++ fit 32 dig ++
  leBytes 4 seq ++ leBytes 4 flags ++ fit 32 s.defDigest ++ leBytes 4 s.hlt.defects.length ++ leBytes 4 0 ++
  fit 32 (shake256 meterPub) ++ fit 32 mdig ++ leBytes 8 (m32 fun r => r.seq.toNat) ++ leBytes 8 (m32 fun r => r.energy.toNat) ++
  leBytes 2 (m32 fun r => r.flags.toNat) ++ List.replicate 6 0 ++ fit 256 (((rangeFrom 0 8).map (opSlot p.fields)).flatten) ++ List.replicate 8 0
/-- ATTEST: the report replaces the buffer's contents (R498). -/
def execAttest (port : Nat) (s : State) : Out :=
  sesCmd s port fun p =>
    let body := s.report (memGetList p.buf 0 32)
    ok ((s.modPort port fun p => { p with buf := memPutList [] 0 (body ++ idSign body) }).sesEnd port 4 0)
/-- PUBKEY (R507). -/
def execPubkey (port : Nat) (s : State) : Out :=
  sesCmd s port fun _ => ok ((s.modPort port fun p => { p with buf := memPutList p.buf 0 idKey }).sesEnd port 5 0)

/-! ### Fuses (R497, R506) -/

/-- Both service dies run. -/
def State.bothRun (s : State) : Bool :=
  (s.hlt.sva == .active || s.hlt.sva == .standby) && (s.hlt.svb == .active || s.hlt.svb == .standby)
/-- SVN of the running image. -/
def State.runSvn (s : State) : Nat := s.spi.runField 0xC 4
/-- ARM_OWNER: the hash at buffer bytes 0 to 31. -/
def execArmOwner (port : Nat) (s : State) : Out :=
  sesGated s port 6 fun p =>
    if s.ses.owner.isSome ∨ s.bothRun = false then ok (s.sesEnd port 6 9)
    else ok ((s.modPort port fun x => { x with arm := some (1, memGetList p.buf 0 32, s.time) }).sesEnd port 6 0)
/-- ARM_SVN: the running image's SVN. -/
def execArmSvn (port : Nat) (s : State) : Out :=
  sesGated s port 7 fun _ =>
    if s.runSvn ≤ s.ses.svnMin ∨ 1023 < s.runSvn ∨ s.bothRun = false then ok (s.sesEnd port 7 9)
    else ok ((s.modPort port fun x => { x with arm := some (2, [], s.time) }).sesEnd port 7 0)
/-- COMMIT_FUSE: within 10 s of the arm; a hash already fused stays (R497). -/
def execCommitFuse (port : Nat) (s : State) : Out :=
  sesGated s port 8 fun p =>
    match p.arm with
    | some (k, hash, t) =>
      let s' := s.modPort port fun x => { x with arm := none }
      if t + 10 * sec < s.time ∨ (k = 1 ∧ s.ses.owner.isSome = true) then ok (s'.sesEnd port 8 10)
      else
        let s := s'.modSes fun x => if k = 1 then { x with owner := some hash } else { x with svnMin := max x.svnMin s.runSvn }
        ok ((s.sesEnd port 8 0).raisePanel 0x0605 k s.ses.svnMin)
    | none => ok (s.sesEnd port 8 10)
/-- FUSE_ARM_EXPIRY. -/
def execFuseArmExpiry (port : Nat) (s : State) : Out :=
  onPort s port fun p =>
    match p.arm with
    | some (_, _, t) => when_ (decide (t + 10 * sec ≤ s.time)) s <| ok (s.modPort port fun p => { p with arm := none })
    | none => ok s

/-! ### SES_STATUS and SES_INFO (R507) -/

/-- Minutes left until a moment, rounded up. -/
def State.minutesTo (s : State) (t : Nat) : Nat := ceilDiv (t - s.time) (60 * sec)
def State.sesStatus (s : State) (port : Nat) : Nat :=
  let p := s.port port
  let bit (f : Session → Bool) (e : Nat) : Bool := match tget none s.ses.ents e with
    | some x => f x
    | none => false
  b2n p.serr * 2 ^ 30 + p.secode * 2 ^ 26 + p.lastcmd * 2 ^ 22 + b2n (s.challengeOf p).isSome * 2 ^ 21 + b2n (s.sesLocked p) * 2 ^ 20 +
    b4 (bit fun x => x.port == port) * 2 ^ 12 + b4 (bit fun _ => true) * 2 ^ 8 + (match p.locked with
    | some t => s.minutesTo t
    | none => 0)
def State.sesInfo (s : State) (e : Nat) : Nat :=
  match tget none s.ses.ents e with
  | some x => 2 ^ 31 + b2n x.prov * 2 ^ 30 + x.port * 2 ^ 28 + x.slot * 2 ^ 25 + s.minutesTo (x.opened + x.minutes * 60 * sec)
  | none => 0

end Sys2Proof.Machine
end

