-- ==== Sys2Proof/Machine/Meter.lean ====
section
/-! DEFINITION. The sealed meter and the way of its records to the host (R508 to R515). -/

namespace Sys2Proof.Machine

/-! ### The meter (R508 to R511) -/

/-- Bytes 0x00 to 0x5F of a record (R510). -/
def MeterRec_body (r : MeterRec) : List Byte :=
  leBytes 4 0x4D545231 ++ leBytes 2 1 ++ leBytes 2 r.flags.toNat ++ leBytes 8 r.seq.toNat ++ leBytes 8 r.time.toNat ++ leBytes 4 r.boots.toNat ++ leBytes 4 0 ++
  leBytes 8 r.energy.toNat ++ leBytes 4 r.pmin.toNat ++ leBytes 4 r.pmax.toNat ++ leBytes 4 r.vmean.toNat ++ leBytes 4 r.imean.toNat ++ fit 32 r.fwdig ++ leBytes 8 0
/-- A record as it is sent: 3,405 bytes. -/
def MeterRec_sent (r : MeterRec) : List Byte := MeterRec_body r ++ fit 3309 r.sig
/-- The meter is powered whenever the input exceeds 30 V (R508). -/
def State.meterOn (s : State) : Bool := decide (30000 < s.pwr.vin)
/-- A second has passed since the newest record; a timebase that has been set back does not hold the meter's own clock up (R510). -/
def State.secondOver (s : State) : Bool := match s.mtr.lastAt with
  | some t => decide (s.time < t ∨ t + sec ≤ s.time)
  | none => true
/-- METER_RECORD: the record of one second, signed and stored; the newest 4,096 stay (R510). A tamper sensor that is active blows the seal (R511). -/
def execMeterRecord (m : MeterMeas) (s : State) : Out :=
  when_ (s.meterOn && s.secondOver) s <|
    let x := s.mtr
    let sb := x.sealBit || m.tamper
    let flags := b2n sb + 2 * b2n m.tamper + 4 * b2n x.gap + 8 * b2n m.range + 16 * b2n m.refFail
    let r : MeterRec :=
      { flags := BitVec.ofNat 16 flags, seq := BitVec.ofNat 64 x.seq, time := BitVec.ofNat 64 (x.timeMs + 1000), boots := BitVec.ofNat 32 x.boots,
        energy := BitVec.ofNat 64 (x.energy + m.energy), pmin := BitVec.ofNat 32 m.pmin, pmax := BitVec.ofNat 32 m.pmax, vmean := BitVec.ofNat 32 m.vmean,
        imean := BitVec.ofNat 32 m.imean, fwdig := fit 32 Config.meterRomDigest, sig := [] }
    let r : MeterRec := { r with sig := meterSig (MeterRec_body r) }
    ok (s.modMtr fun x => { x with seq := x.seq + 1, timeMs := x.timeMs + 1000, energy := x.energy + m.energy, sealBit := sb, gap := false, lastAt := some s.time,
                                   store := (r :: x.store).take 4096 })
/-- MTR_SEAL: a tamper sensor indicates opening while the meter is powered (R511). -/
def execMtrSeal (s : State) : Out := when_ s.meterOn s <| ok (s.modMtr fun x => { x with sealBit := true })

/-! ### Frames (R512, R513) -/

/-- SEQ of the newest verified record, and the oldest that the meter holds, as the panel knows it. -/
def Mtr.newest (x : Mtr) : Nat := match x.recs.head? with
  | some (r, _) => r.seq.toNat
  | none => 0
def Mtr.oldest (x : Mtr) : Nat := x.newest - 4095
def Mtr.find (x : Mtr) (q : W64) : Option (MeterRec × Nat) := x.recs.find? fun e => e.1.seq == q
/-- A record enters the newest 256, kept in falling order of SEQ. -/
def insertRec (r : MeterRec) (t : Nat) : List (MeterRec × Nat) → List (MeterRec × Nat)
  | [] => [(r, t)]
  | e :: l => if e.1.seq < r.seq then (r, t) :: e :: l else e :: insertRec r t l
/-- Whether it does. -/
def Mtr.takes (x : Mtr) (r : MeterRec) : Bool := (x.find r.seq).isNone && (decide (x.recs.length < 256) || x.recs.any fun e => decide (e.1.seq < r.seq))
/-- A window or ring slot (R513). -/
def slotBytes (r : MeterRec) (rx : Nat) : List Byte :=
  fit 0xF00 (MeterRec_sent r) ++ leBytes 8 rx ++ leBytes 4 1 ++ List.replicate 244 0
/-- The host meter ring takes a record, or it is skipped and counted (R287, R513). -/
def State.ringRecord (s : State) (r : MeterRec) : State :=
  let x := s.mtr
  if x.ren = false then s
  else if x.rlog2 < 4 ∨ 12 < x.rlog2 ∨ (x.rtail - x.rhead).toNat = 2 ^ x.rlog2 ∨ (s.port x.rport).mute = true then s.modMtr fun x => { x with rlost := satAdd x.rlost 1 }
  else
    (s.hostWrite x.rport (x.rbase + 4096 * (x.rtail.toNat % 2 ^ x.rlog2)) (slotBytes r s.time) false).modMtr fun x => { x with rtail := x.rtail + 1 }
/-- Events of a newly received record (R513, R515). -/
def State.recordEvents (s : State) (r : MeterRec) : State :=
  let s := if bitOf r.flags 0 ∧ s.mtr.sealSeen = false then (s.modMtr fun x => { x with sealSeen := true }).raisePanel 0x0610 r.seq.toNat r.flags.toNat else s
  let s := if bitOf r.flags 2 then s.raisePanel 0x0613 r.seq.toNat r.boots.toNat else s
  let m := s.time / (60 * sec)
  if bitOf r.flags 3 ∧ s.mtr.rangeMin ≠ some m then (s.modMtr fun x => { x with rangeMin := some m }).raisePanel 0x0615 r.seq.toNat r.flags.toNat else s
/-- Windows that wait for a record show it; those whose record the meter no longer holds are GONE (R513). -/
def Port.meterShow (p : Port) (r : MeterRec) (rx oldest : Nat) : Port :=
  if p.mwst ≠ 1 then p
  else if p.mwseq = r.seq then { p with mwst := 2, mwrec := some (r, rx) }
  else if p.mwseq.toNat < oldest then { p with mwst := 3, mwrec := none }
  else p
/-- A verified record. -/
def State.goodRecord (s : State) (r : MeterRec) : State :=
  let new := s.mtr.takes r
  let rx := match s.mtr.find r.seq with
    | some (_, t) => t
    | none => s.time
  let s := if new then (((s.modMtr fun x => { x with recs := (insertRec r s.time x.recs).take 256 }).recordEvents r).ringRecord r) else s
  (rangeFrom 0 4).foldl (fun s q => s.modPort q fun p => p.meterShow r rx s.mtr.oldest) s
/-- METER_FRAME: a frame reaches the active service die. -/
def execMeterFrame (f : MeterFrame) (s : State) : Out :=
  when_ s.svRuns s <|
    let gone := (s.time - s.mtr.lastFrame.getD s.spi.t0) / sec
    let back := s.mtr.lost
    let s := s.modMtr fun x => { x with lastFrame := some s.time, lost := false }
    let s := if back then s.raisePanel 0x0612 s.mtr.newest gone else s
    match f with
    | .key b => ok (s.modMtr fun x => { x with keyOk := shake256 (fit 1952 b) == shake256 meterPub })
    | .record r =>
      if !s.mtr.keyOk then ok s
      else if verifies meterPub (MeterRec_body r) (fit 3309 r.sig) then ok (s.goodRecord r)
      else
        let s := s.modMtr fun x => { x with badsig := x.badsig + 1 }
        ok (s.raisePanel 0x0614 r.seq.toNat s.mtr.badsig.toNat)
/-- MTR_LINK_LOST: no frame for 2 s. -/
def execMtrLinkLost (s : State) : Out :=
  when_ (s.svRuns && !s.mtr.lost && decide (s.mtr.lastFrame.getD s.spi.t0 + 2 * sec ≤ s.time)) s <|
    ok ((s.modMtr fun x => { x with lost := true }).raisePanel 0x0611 s.mtr.newest 0)

/-! ### MTR_ registers (R514) -/

/-- MTR_SELECT: a write of MTR_SELLO starts the fetch with the HI last written. -/
def execMtrSelect (port : Nat) (v : W32) (s : State) : Out :=
  onPort s port fun p =>
    when_ (s.reach port && s.svRuns) s <|
      let q : W64 := p.mselHi.setWidth 64 <<< 32 ||| v.setWidth 64
      ok (s.modPort port fun p =>
        let p := { p with mselLo := v, mwseq := q }
        match s.mtr.find q with
        | some e => { p with mwst := 2, mwrec := some e }
        | none => if q.toNat < s.mtr.oldest then { p with mwst := 3, mwrec := none } else { p with mwst := 1, mwrec := none })
/-- MTR_RHEAD: records consumed; no session. -/
def execMtrRhead (port : Nat) (v : W32) (s : State) : Out :=
  onPort s port fun _ => when_ (s.reach port && s.svRuns) s <| ok (s.modMtr fun x => { x with rhead := v })
/-- MTR_RCFG: EN from 0 to 1 starts the counts afresh. -/
def execMtrRcfg (port : Nat) (v : W32) (s : State) : Out :=
  gated0 s port 0x20038 <|
    when_ s.svRuns s <| ok (s.modMtr fun x =>
      let y := { x with ren := bitOf v 31, rport := bitsOf v 27 26, rlog2 := bitsOf v 3 0 }
      if bitOf v 31 ∧ x.ren = false then { y with rtail := 0, rhead := 0, rlost := 0 } else y)
/-- MTR_STAT, MTR_WSTAT and MTR_RCFG. -/
def State.mtrStat (s : State) : Nat :=
  let x := s.mtr
  let flag (i : Nat) : Nat := match x.recs.head? with
    | some (r, _) => b2n (bitOf r.flags i)
    | none => 0
  let lag := match x.recs.head? with
    | some (_, t) => min 0xFFFF ((s.time - t) / sec)
    | none => 0xFFFF
  b2n (x.lastFrame.isSome && !x.lost) * 2 ^ 31 + flag 0 * 2 ^ 30 + flag 1 * 2 ^ 29 + b2n x.keyOk * 2 ^ 28 + lag
def Port.mtrWstat (p : Port) : Nat := p.mwst * 2 ^ 30 + b2n (p.mwst == 2) * 2 ^ 29
def Mtr.rcfg (x : Mtr) : Nat := b2n x.ren * 2 ^ 31 + x.rport * 2 ^ 26 + x.rlog2

end Sys2Proof.Machine
end

