-- ==== Sys2Proof/Machine/Debug.lean ====
section
/-! DEFINITION. The debug block (R531 to R534). -/

namespace Sys2Proof.Machine

def State.dbgRefuse (s : State) (ecode : Nat) : State := s.modDbg fun d => { d with err := true, ecode }
/-- A command of DBG_ACC: refused when locked (1), busy (3), or the context is FREE or RESETTING (2). An unaligned DBG_ADDR is a driver error: the access is made at
the address as it stands, and what else it does is free within the context's partition (R331; log entry 53). -/
def dbgCmd (s : State) (port : Nat) (k : State → State) : Out :=
  gated0 s port 0xF0018 <|
    let d := s.dbg
    let st := (s.ctx d.ctx).st
    if d.locked then ok (s.dbgRefuse 1)
    else if d.busy then ok (s.dbgRefuse 3)
    else if st = .free ∨ st = .resetting then ok (s.dbgRefuse 2)
    else
      let s := s.modDbg fun d => { d with err := false, ecode := 0 }
      ok (k (if d.addr.toNat % 8 ≠ 0 then s.wildPart (s.ctx d.ctx).cfg.part else s))
/-- DBG_READ: PE-0 issues one READ of 8 bytes on the context's behalf, with a tracker (R532). -/
def execDbgRead (port : Nat) (s : State) : Out :=
  dbgCmd s port fun s => (s.modDbg fun d => { d with busy := true }).edgeRead 0 s.dbg.ctx s.dbg.addr 8 .dbg
/-- DBG_WRITE: one WRITE of 8 bytes; to space 0 or 1 the access ends at issue, otherwise at its WACK (R532). -/
def execDbgWrite (port : Nat) (s : State) : Out :=
  dbgCmd s port fun s =>
    let d := s.dbg
    let x := s.ctx d.ctx
    let (q, s) := s.edgeSeq 0 d.ctx
    let s := s.modDbg fun d => { d with busy := decide (2 ≤ aSpace d.addr), status := if aSpace d.addr < 2 then 0 else d.status }
    s.inject (.edge 0) none (edgeSite 0)
      { opc := .write, last := false, dctr := d.dctr, spart := x.cfg.part, epoch := x.epoch, ctx := d.ctx, seq := q, len := 8, dest := d.addr,
        src := edgeAddr s.rick.panel 0 0xFFFF, total := 0, status := 0, hops := 0, payload := leBytes 8 d.data.toNat }
/-- DBG_LOCK (R533). -/
def execDbgLock (port : Nat) (v : W32) (s : State) : Out :=
  gated0 s port 0xF0000 <| ok (if bitOf v 0 then s.modDbg fun d => { d with locked := true } else s)
/-- DBG_TEST (R534). -/
def execDbgTest (port : Nat) (v : W32) (s : State) : Out :=
  gated0 s port 0xF001C <| ok (if s.dbg.locked then s else s.raisePort 0x0016 0 v.toNat 0)
/-- A write to DBG_CTX, DBG_ADDR or DBG_DATA: ignored while locked or busy (R532, R533). -/
def dbgSet (s : State) (port off : Nat) (f : Dbg → Dbg) : Out :=
  gated0 s port off <| ok (if s.dbg.locked ∨ s.dbg.busy = true then s else s.modDbg f)
def Dbg.acc (d : Dbg) : Nat := b2n d.busy * 2 ^ 31 + b2n d.err * 2 ^ 30 + d.ecode * 2 ^ 28 + d.status.toNat * 2 ^ 20

end Sys2Proof.Machine
end

