-- ==== Sys2Proof/Machine/Engine.lean ====
section
/-! DEFINITION. The engine's commands: dispatch of LOADW, MMA, STORE, ZERO and NOP, retirement, and leaving a halt (chapter The Matrix Engine). A
command is dispatched in one step; its results are formed in the later one that retires it (log entry 7). -/

namespace Sys2Proof.Machine

/-- The command at the head of a running tile's queue, where it has the operation and may dispatch (R50, R51, R77). -/
def headCmd (s : State) (t : Nat) (T : Tile) (st : Stream) (op : Nat → Bool) : Option EngCmd :=
  match T.eng.queue with
  | [] => none
  | c :: _ => if s.runs t && !T.eng.halt && op c.op && T.eng.mayDispatch st c then some c else none

/-- The engine's own events: SOURCE the tile, DATA0 the TAG (R76, R77, R329). -/
def State.engEvent (s : State) (code t : Nat) (c : EngCmd) : State :=
  s.raiseTile code t c.core (some (c.ctx, (s.ctx c.ctx).epoch)) c.tag 0

/-- A fault that the engine did not clear by retry (R76, R77, R471, R490). -/
def State.engHalt (s : State) (t : Nat) (u : EngUnit) (c : EngCmd) (k : EngCause) : State :=
  let s := s.modTile t fun T => T.modEng fun e => e.haltOn u c k
  let s := s.engEvent 0x0101 t c
  let s := if k = .loadCount ∨ k = .sramUncorr then s else s.penalise t 1
  let s := if k = .clinker ∨ k = .dupcmp then s.timingDetect (s.tilePhys t) else s
  s.noteHalt t (causeCode k)

/-- A retry that passed (R76, R471, R490). -/
def State.engRetried (s : State) (t : Nat) (c : EngCmd) (k : EngCause) : State :=
  let s := s.modTile t fun T => T.modEng fun e => { e with retries := e.retries + 1 }
  let s := (s.engEvent 0x0100 t c).penalise t 0
  if k = .clinker ∨ k = .dupcmp then s.timingDetect (s.tilePhys t) else s

/-- A command that is dispatched leaves the queue and runs in its unit. -/
def Engine.place (e : Engine) (u : EngUnit) (r : Running) : Engine :=
  let e := { e with queue := e.queue.drop 1 }
  e.setUnit u (e.unit u ++ [r])
/-- A tile with a command placed. -/
def Tile.placed (t : Tile) (u : EngUnit) (r : Running) : Tile := t.modEng fun e => e.place u r

/-- A unit reads words of tile SRAM: single-bit errors are corrected, uncorrectable words counted and recorded (R253, R254). -/
def State.unitReads (s : State) (t : Nat) (reads : Nat → Bool) : State :=
  let s := s.modTile t fun T => T.meet reads
  s.sramUes t ((s.tile t).badSram.filter reads)

/-- A driver error of R61: free values in its tile at its dispatch, again at its end, and any cause of R73 or none between. -/
def State.badCmd (s : State) (t : Nat) (u : EngUnit) (c : EngCmd) (hw : EngHw) (path : Option Bool) : State :=
  (s.wild t).modTile t fun T => T.placed u { cmd := c, hw, bad := true, path }

/-- LOADW (R43, R51, R58, R62, R108 to R115). -/
def execLoadw (t : Nat) (hw : EngHw) (s : State) : Out :=
  onTile s t fun T =>
    match headCmd s t T hw.stream (· == 1) with
    | none => ok s
    | some c =>
      if loadwFieldsBad c then ok (s.badCmd t .loader c hw none)
      else if gateSkips T c then ok (s.setTile t (T.skip c))
      else if loadwBad T.sram c then ok (s.badCmd t .loader c hw none)
      else ok (s.setTile t (T.placed .loader { cmd := c, hw }))

/-- A record's execution begins: it is open for the core and context whose command opens it (R131, R135). -/
def Tile.openRec (t : Tile) (rp : Nat) (r : PredRec) (c : EngCmd) : Tile :=
  ({ t with opened := t.opened.filter (fun (o : Nat × Nat × Nat) => o.1 != rp) ++ [(rp, c.core, c.ctx)] } : Tile).putRec rp r

/-- An MMA that is a driver error, with its path (R61, R120). -/
def State.badMma (s : State) (t : Nat) (c : EngCmd) (hw : EngHw) : State :=
  (s.badCmd t .array c hw (badPath s.bev s.bevMode (readHdr (s.tile t).sram c.hdr) c (s.freeN + wildSpan))).spendN 2
/-- MMA (R44 to R48, R51, R55, R57, R63, R71 to R76, R116 to R120, R135, R136, R140, R141): its dispatch reads its gate, its record and the header of A, begins an execution
and chooses the path. A reserved OP dispatches to the array as a driver error (R61). -/
def execMma (t : Nat) (hw : EngHw) (s : State) : Out :=
  onTile s t fun T =>
    match headCmd s t T hw.stream (fun o => o == 2 || decide (5 ≤ o)) with
    | none => ok s
    | some c =>
      if c.op ≠ 2 then ok (s.badCmd t .array c hw none)
      else if mmaFieldsBad c then ok (s.badMma t c hw)
      else if gateSkips T c then ok (s.setTile t (T.skip c))
      else
        let sl := T.eng.slotOf c.slot
        let rp := c.maskptr - c.maskptr % 32
        let r := readRec T.sram rp
        if mmaBad sl T.sram c || (c.pred && r.resv) then ok (s.badMma t c hw)
        else
          let mf := c.mm1 + 1
          let mr := if c.mrows then min (T.ctr c.gctr).value.toNat mf else mf
          let recReads (w : Nat) : Bool := c.pred && badIn [w] rp 32
          let recBad := T.badSram.any recReads
          let begins := c.pred && c.maskptr % 32 == 0 && !r.open_ && !recBad
          let (r1, ty) := if begins then beginExec r c.mode c.audn else (r, {})
          let mask := if c.pred then effMask r1 c.mode (c.maskptr % 32 == 8) else BitVec.allOnes 64
          let s := s.unitReads t recReads
          let s := if begins then (s.modTile t fun T => (T.openRec rp r1 c).tally ty).modCtx c.ctx fun x => x.tally ty else s
          ok (s.modTile t fun T' => T'.placed .array
            { cmd := c, hw, own := if recBad then some .sramUncorr else none, rows := mr, cols := mask, panel := sl,
              path := pathOf s.bev s.bevMode (readHdr T.sram c.hdr) })

/-- STORE (R51, R59, R65, R68 to R70, R93 to R96, R124 to R127, R137, R552): it reads its rows at dispatch; its block and its mask word stand in tile SRAM at its
retirement, and until then each of their 8-byte words is old or new (R52, R248; log entry 11). -/
def execStore (t : Nat) (hw : EngHw) (s : State) : Out :=
  onTile s t fun T =>
    match headCmd s t T hw.stream (· == 3) with
    | none => ok s
    | some c =>
      if storeFieldsBad c then ok (s.badCmd t .packer c hw none)
      else if gateSkips T c then ok (s.setTile t (T.skip c))
      else
        let bs := storeBlock T.eng c
        let r := readRec T.sram c.maskptr
        if sramSize < c.hdr + bs.length || (c.maskout && c.maskptr % 32 == 0 && r.resv) then ok (s.badCmd t .packer c hw none)
        else
          let reads := storeReads T.sram c bs.length
          let own := if T.badSram.any reads then some .sramUncorr else none
          let mask := if c.maskout ∧ storeRecBad T.sram T.badSram c = false then some (storeMask r c (observedMask T.eng c)) else none
          let s := s.unitReads t reads
          ok ((s.modTile t fun T => (T.storeBegins c bs mask s.freeN).placed .packer { cmd := c, hw, own, block := bs, mask }).spendN (bs.length + 9))

/-- ZERO (R48, R51, R60): its rows are zero when it retires. -/
def execZero (t : Nat) (hw : EngHw) (s : State) : Out :=
  onTile s t fun T =>
    match headCmd s t T hw.stream (· == 4) with
    | none => ok s
    | some c => if gateSkips T c then ok (s.setTile t (T.skip c)) else ok (s.setTile t (T.placed .array { cmd := c, hw }))

/-- NOP retires at its dispatch (R50, R54, R60). -/
def execNop (t : Nat) (s : State) : Out :=
  onTile s t fun T =>
    match headCmd s t T .waits (· == 0) with
    | none => ok s
    | some c =>
      if gateSkips T c then ok (s.setTile t (T.skip c))
      else
        let T := T.modEng fun e => { e with queue := e.queue.drop 1, retired := e.retired + 1 }
        ok (s.setTile t (if c.den then T.bump c.dctr 1 else T))

/-! ### The end of a command (R50, R52, R53, R73 to R77; log entry 7) -/

/-- The words that are unpredictable to a command (R52): those that have changed while it ran, and those that an un-retired STORE writes. -/
def Engine.unsure (e : Engine) (r : Running) : List Nat :=
  r.hits ++ (e.packer.map fun p => wordsOf p.cmd.hdr p.block.length ++ (if p.mask.isSome then [p.cmd.maskptr / 8] else [])).flatten
/-- Tile SRAM with free bits in some words. -/
def freeWords (m : Mem) (n : Nat) : List Nat → Mem
  | [] => m
  | w :: ws => freeWords (memPutList m (8 * w) (leBytes 8 (Config.free64 n).toNat)) (n + 1) ws
/-- A command whose block the bits that it reads make a driver error (R52, R61). -/
def Running.readsBad (r : Running) (m : Mem) : Running :=
  { r with bad := r.bad || (r.cmd.op == 1 && loadwBad m r.cmd) || (r.cmd.op == 2 && mmaBad r.panel m r.cmd) }
/-- The fault that a command finds by itself (R73): an uncorrectable word, or a count that its block's DENSITY denies. Where both hold, the uncorrectable word is taken
(DESIGN CHOICE, log entry 83). -/
def Running.finds (r : Running) (m : Mem) (bad : List Nat) : Option EngCause :=
  r.own.orElse fun _ => match r.cmd.op with
    | 1 => loadwCause m bad r.cmd (loadPanel m r.cmd)
    | 2 => mmaCause m bad r.cmd r.panel r.rows (mmaStreams r.cmd r.cols)
    | _ => none
/-- The loader decodes a BB16, EB8 or S24 block for a command: an MMA's A, or a LOADW's B (R73). -/
def Running.decodes (r : Running) (m : Mem) : Bool := (readHdr m r.cmd.hdr).fmt != 0
/-- The rate class of an MMA. -/
def Running.cls? (r : Running) (m : Mem) : Option RateClass := rateClass (readHdr m r.cmd.hdr).etype r.panel.etype r.panel.fmt
/-- What the hardware does to a command, with the clinker check's answer to a changed block sum (R72, R75). -/
def Running.struck (r : Running) (m : Mem) : EngHw :=
  let hw := fitHw r.hw r.cmd.op (r.decodes m)
  match r.cmd.op, r.cls? m with
  | 2, some cl =>
    let sees := clinkerSees (readHdr m r.cmd.hdr) m r.cmd r.panel cl r.rows r.cols
    { hw with first := if sees hw.upset then some .clinker else hw.first, retry := if sees hw.upsetRetry then some .clinker else hw.retry }
  | _, _ => hw
/-- How a command fares (R73, R76): RETRY_EN counts when the fault acts. An MMA with ACC = 1 and a reserved OP are not retried. -/
def Running.fares (r : Running) (retryEn : Bool) (m : Mem) (bad : List Nat) : Fare :=
  let may := decide (r.cmd.op < 5) && (r.cmd.op != 2 || !r.cmd.b35)
  if r.bad then fare retryEn may r.hw none else fare retryEn may (r.struck m) (r.finds m bad)
/-- The passes that a run of an MMA issues, in cycles, and its dead passes (R79, R123). -/
def Running.passes (r : Running) (m : Mem) : Nat × Nat :=
  match r.cmd.op, r.cls? m with
  | 2, some cl => mmaPasses r.path (readHdr m r.cmd.hdr) m r.cmd r.panel cl r.rows (popcount r.cols)
  | _, _ => (0, 0)
/-- What an end of a command adds to the counts of the array (R79, R123): a run that a fault cut short, or a first run before a retry, has issued a free number
of its passes (log entry 83); a driver error, in each of its runs, a free number of at most 8,192 cycles and of at most 2,048 dead passes (R61; log entry 83). -/
def Running.counted (r : Running) (fate : Fare) (m : Mem) (n : Nat) (e : Engine) : Engine :=
  let part (k x : Nat) : Nat := Config.freeNat (n + k) % (x + 1)
  let arr := decide (r.cmd.op = 2 ∨ 5 ≤ r.cmd.op)
  let all := if r.bad then (if arr then part 2 8192 else 0, if r.path.isSome then part 3 2048 else 0) else r.passes m
  let cut := if r.bad then (if arr then part 0 8192 else 0, if r.path.isSome then part 1 2048 else 0) else (part 0 (r.passes m).1, part 1 (r.passes m).2)
  let (p, d) := match fate with
    | .runs => all
    | .retried _ => (all.1 + cut.1, all.2 + cut.2)
    | .halts _ => cut
  let corr := if r.bad then r.hw.corrected else (r.struck m).corrected
  { e.countPath r.path with busycyc := e.busycyc + BitVec.ofNat 32 p, deadpass := e.deadpass + BitVec.ofNat 32 d, corrected := e.corrected + BitVec.ofNat 32 corr }

/-- The results of a command in the engine: a LOADW's slot holds its panel (R43), an MMA's rows their sums, a ZERO's rows and those of a STORE with KEEPACC = 0 zeros
(R48, R59). -/
def Running.results (r : Running) (fate : Fare) (m : Mem) (n : Nat) (e : Engine) : Engine :=
  match r.cmd.op with
  | 1 => e.setSlot r.cmd.slot { (if r.bad then e.slotOf r.cmd.slot else loadPanel m r.cmd) with loaded := true }
  | 2 =>
    match r.bad, r.cls? m with
    | false, some cl => mmaRun e m r.cmd r.panel cl r.rows r.cols (if fate = .runs then r.hw.upset else r.hw.upsetRetry) n
    | _, _ => e
  | 3 => if r.cmd.keepacc ∨ r.bad = true then e else zeroRows e r.cmd.rows
  | 4 => zeroRows e r.cmd.rows
  | _ => e

/-- The end of a command: it retires with its results written and its DEN increment (R50, R53, R59). -/
def State.engRetires (s : State) (t : Nat) (u : EngUnit) (r : Running) (fate : Fare) (m : Mem) : State :=
  let s := if r.bad then s.wild t else s
  let s := s.modTile t fun T =>
    let T := T.modEng fun e => e.setUnit u ((e.unit u).drop 1)
    let T := if r.cmd.op = 3 ∧ r.bad = false then T.storeEnds r.cmd r.block r.mask r.hits (s.freeN + 16400) else T
    let T := T.modEng fun e => r.counted fate m s.freeN (r.results fate m (s.freeN + 4) { e with retired := e.retired + 1 })
    if r.cmd.den then T.bump r.cmd.dctr 1 else T
  s.spendN (16410 + r.block.length)

/-- A command faults in an engine that another unit's fault has halted already: it is discarded (R77; log entry 85). -/
def State.engLost (s : State) (t : Nat) (u : EngUnit) : State :=
  s.modTile t fun T => T.modEng fun e => { e.setUnit u ((e.unit u).drop 1) with discard := e.discard + 1 }

/-- ENGINE_RETIRE: the oldest command of a unit has read what it reads and ends as its faults have it: it retires (R50, R53), it retires on its retry (R76), or it halts the
engine (R77). -/
def execEngineRetire (t : Nat) (u : EngUnit) (s : State) : Out :=
  onTile s t fun T =>
    match T.eng.unit u with
    | [] => ok s
    | r0 :: _ =>
      when_ (s.runs t) s <|
        let ws := T.eng.unsure r0
        let m := freeWords T.sram s.freeN ws
        let r := r0.readsBad m
        let fate := r.fares T.eng.retryEn m T.badSram
        let s := (s.unitReads t (r.reads m)).spendN ws.length
        match fate with
        | .runs => ok (s.engRetires t u r fate m)
        | .retried k => ok ((s.engRetires t u r fate m).engRetried t r.cmd k)
        | .halts k =>
          let s := if r.bad then s.wild t else s
          let s := (s.modTile t fun T => T.modEng fun e => r.counted fate m s.freeN e).spendN 4
          ok (if T.eng.halt then s.engLost t u else s.engHalt t u r.cmd k)

/-- A write of 1 to ENG_CTRL.CLEAR (R67, R78, R79): the engine of a tile that stands still holds its state. -/
def execEngCtrlClear (t : Nat) (s : State) : Out :=
  onTile s t fun T => when_ (s.runs t) s <| ok (s.setTile t (T.modEng Engine.clear))

end Sys2Proof.Machine
end

