-- ==== Sys2Proof/Machine/Registers.lean ====
section
/-! DEFINITION. REGISTER_WRITE: a host write to BAR0 or BAR2 (R289 to R291, R503, R516 to R521, R535, R536). A register with a command of its own is written by that
command's meaning. -/

namespace Sys2Proof.Machine

/-- A 64-bit base with its low or high half replaced. -/
def setLo (b v : Nat) : Nat := b / 2 ^ 32 * 2 ^ 32 + v % 2 ^ 32
def setHi (b v : Nat) : Nat := v * 2 ^ 32 + b % 2 ^ 32
/-- BASE [31:12] of a word. -/
def base12 (v : W32) : Nat := bitsOf v 31 12 * 4096
/-- A write to a register of every port that needs no session. -/
def plain (s : State) (port : Nat) (f : State → State) : Out := when_ (s.reach port) s (ok (f s))
/-- A write to one of port 0 only that needs none. -/
def plain0 (s : State) (port : Nat) (f : State → State) : Out := when_ (port == 0 && s.reach port) s (ok (f s))

/-- ID_SCRATCH (R522), also in recovery and in FAILED (R462, R524). -/
def writeId (s : State) (port off : Nat) (v : W32) : Out :=
  when_ (off == 0x2C && (s.reach port || s.spiReach port)) s <| ok (s.modPort port fun p => { p with scratch := v })
/-- SES_ (R507). -/
def writeSes (s : State) (port off : Nat) (v : W32) : Out :=
  if off = 0x1004 then
    let c := bitsOf v 3 0
    if c = 1 then execChallenge port s else if c = 2 then execSesOpen port s else if c = 3 then execSesClose port s else if c = 4 then execAttest port s
    else if c = 5 then execPubkey port s else if c = 6 then execArmOwner port s else if c = 7 then execArmSvn port s
    else if c = 8 then execCommitFuse port s else ok s
  else if off = 0x1008 then plain s port fun s => s.modPort port fun p => { p with sarg := v &&& 0x870307FF#32 }
  else if off = 0x100C then plain s port fun s => s.modPort port fun p => { p with bsel := v &&& 3#32 }
  else if 0x1800 ≤ off ∧ off < 0x2000 then
    plain s port fun s => s.modPort port fun p => { p with buf := memPutList p.buf (bitsOf p.bsel 1 0 * 2048 + (off - 0x1800)) (leBytes 4 v.toNat) }
  else ok s
/-- PRT_RECT to PRT_TILES of partition `p` (R332). -/
def writePart (s : State) (port p r : Nat) (v : W32) : Out :=
  let off := 0x2000 + 0x40 * p + r
  let stage (f : PartDef → PartDef) : Out := gated0 s port off <| ok (s.modPart p fun q => { q with stage := f q.stage })
  if r = 0 then stage fun d => { d with sc := bitsOf v 31 28, sr := bitsOf v 27 24, wm1 := bitsOf v 23 20, hm1 := bitsOf v 19 16 }
  else if r = 4 then stage fun d => { d with count := bitsOf v 27 16, first := bitsOf v 11 0 }
  else if r = 8 then stage fun d => { d with guarded := bitOf v 31, rickbar := bitOf v 30, rto := bitsOf v 3 0 }
  else if r = 0xC then stage fun d => { d with mask := v }
  else if r = 0x10 then
    let c := bitsOf v 2 0
    if c = 1 then execDefine port p s else if c = 2 then execDelete port p s else if c = 3 then execWarmReset port p s
    else if c = 4 then execPrtUpdate port p s else gated0 s port off (ok s)
  else if r = 0x14 then gated0 s port off (ok s)
  else ok s
/-- PRT_HWIN of window `w` (R324). A write to a window with EN = 1, except one that clears EN, is a driver error: it is taken as it is, and what else it does is free
within the window's partition (R331; log entry 53). -/
def writeWin (s : State) (port w r : Nat) (v : W32) : Out :=
  gated0 s port (0x2400 + 0x10 * w + r) <|
    let s' := s.modWin w fun x =>
      if r = 0 then { x with base := setLo x.base (base12 v) }
      else if r = 4 then { x with base := setHi x.base v.toNat }
      else if r = 8 then { x with pages := v.toNat }
      else { x with en := bitOf v 31, part := bitsOf v 27 24, oneCtx := bitOf v 23, port := bitsOf v 19 18, mode := bitsOf v 17 16, ctx := bitsOf v 11 0 }
    ok (if (s.win w).en = true ∧ ¬ (r = 0xC ∧ bitOf v 31 = false) then s'.wildPart (s.win w).part else s')
/-- PRT_DDR of partition `p` (R279). -/
def writeDdr (s : State) (port p r : Nat) (v : W32) : Out :=
  let off := 0x2C00 + 0x20 * p + r
  let stage (f : Region → Region) : Out := gated0 s port off <| ok (s.modPart p fun q => { q with ddr := { q.ddr with stage := f q.ddr.stage } })
  if r = 0 then stage fun d => { d with base := bitsOf v 15 0 }
  else if r = 4 then stage fun d => { d with size := bitsOf v 16 0 }
  else if r = 8 then stage fun d => { d with cbase := bitsOf v 26 16, mode := bitsOf v 9 8, gran := bitsOf v 7 4, nlog2 := bitsOf v 2 0 }
  else if r = 0xC then stage fun d => { d with mask := v }
  else if r = 0x10 then (if bitOf v 0 then execDdrRegionCommit port p s else gated0 s port off (ok s))
  else ok s
def writePrt (s : State) (port off : Nat) (v : W32) : Out :=
  if off < 0x2400 then writePart s port ((off - 0x2000) / 0x40) ((off - 0x2000) % 0x40) v
  else if off < 0x2C00 then writeWin s port ((off - 0x2400) / 0x10) ((off - 0x2400) % 0x10) v
  else if off < 0x2E00 then writeDdr s port ((off - 0x2C00) / 0x20) ((off - 0x2C00) % 0x20) v
  else if off < 0x2E20 then execPrtBevWrite port ((off - 0x2E00) / 4) v s
  else ok s
/-- CTX_ (R295): the staging set of the port. -/
def writeCtx (s : State) (port off : Nat) (v : W32) : Out :=
  let stage (f : CtxCfg → CtxCfg) : Out := gated s port off <| ok (s.modPort port fun p => { p with stage := f p.stage })
  if off = 0x4000 then execCtxSel port v s
  else if off = 0x4004 then
    stage fun g => { g with part := bitsOf v 31 28, port := bitsOf v 27 26, roEn := bitOf v 25, irqEn := bitOf v 24, wdog := bitsOf v 21 0 }
  else if off = 0x4008 then stage fun g => { g with sqBase := setLo g.sqBase (base12 v), sqLog2 := bitsOf v 4 0 }
  else if off = 0x400C then stage fun g => { g with sqBase := setHi g.sqBase v.toNat }
  else if off = 0x4010 then stage fun g => { g with cqBase := setLo g.cqBase (base12 v), cqLog2 := bitsOf v 4 0 }
  else if off = 0x4014 then stage fun g => { g with cqBase := setHi g.cqBase v.toNat }
  else if off = 0x4018 then stage fun g => { g with cvec := bitsOf v 10 0 }
  else if off = 0x401C then
    let c := bitsOf v 2 0
    if c = 1 then execConfigure port s else if c = 2 then execRelease port s else if c = 3 then execRestart port (s.port port).ctxSel false s
    else if c = 4 then execHalt port s else gated s port off (ok s)
  else if off ≤ 0x408C then gated s port off (ok s)
  else ok s
/-- MSI_ (R530). -/
def writeMsi (s : State) (port off : Nat) (v : W32) : Out :=
  let n := (off - 0x8000) / 16
  let r := (off - 0x8000) % 16
  let put (f : MsixEnt → MsixEnt) : Out := plain s port fun s => s.modPort port fun p => { p with msix := tmod {} p.msix n f }
  if r = 0 then put fun e => { e with addrLo := v &&& 0xFFFFFFFC#32 }
  else if r = 4 then put fun e => { e with addrHi := v }
  else if r = 8 then put fun e => { e with data := v }
  else execMsixUnmask port n v s
/-- The registers of PWR_ that are only read (R407, R432, R434). -/
def pwrRo : List Nat :=
  [0x10004, 0x10008, 0x1000C, 0x10010, 0x10200, 0x10204, 0x10208, 0x1020C, 0x10800, 0x10804, 0x10814, 0x10818, 0x10824, 0x10828, 0x1082C]
/-- PWR_ (R407, R432 to R434): the selects on every port, everything else on port 0. -/
def writePwr (s : State) (port off : Nat) (v : W32) : Out :=
  if off = 0x10000 then execPwrCap port v s
  else if off = 0x10040 then
    gated0 s port off <| ok (if 70 ≤ bitsOf v 7 0 ∧ bitsOf v 7 0 ≤ 95 then s.modCap fun c => { c with tthr := bitsOf v 7 0 } else s)
  else if 0x10100 ≤ off ∧ off < 0x10200 then
    let p := (off - 0x10100) / 0x10
    let r := (off - 0x10100) % 0x10
    if r = 0 then execPaceLock port p v s
    else if r = 0xC ∧ bitsOf v 1 0 = 1 then execClearProfiles port p s
    else gated0 s port off (ok s)
  else if off = 0x10810 then plain s port fun s => s.modPort port fun p => { p with grpsel := v &&& 0x3F#32 }
  else if off = 0x10820 then plain s port fun s => s.modPort port fun p => { p with sitesel := v &&& 0x1FF#32 }
  else if off = 0x10830 then
    let c := bitsOf v 2 0
    if c = 1 then execClearPath port s else if c = 2 then execIsolate port s else if c = 3 then execRestore port s else gated0 s port off (ok s)
  else if pwrRo.contains off then gated0 s port off (ok s)
  else ok s
/-- CLK_ (R382). -/
def writeClk (s : State) (port off : Nat) (v : W32) : Out :=
  if off < 0x14040 then execClkCeil port ((off - 0x14000) / 4) v s
  else if off = 0x14044 then gated0 s port off <| ok (s.modClk fun c => { c with sitesel := bitsOf v 7 0 })
  else if off = 0x1404C then
    let c := bitsOf v 9 8
    if c = 1 then execBank port v s else if c = 2 then execUnbank port v s
    else gated0 s port off <| ok (s.modClk fun c => { c with bankS := bitsOf v 7 0 })
  else if off = 0x14040 ∨ off = 0x14048 then gated0 s port off (ok s)
  else ok s
/-- TEL_ (R435). -/
def writeTel (s : State) (port off : Nat) (v : W32) : Out :=
  let put (f : TelRing → TelRing) : Out := gated0 s port off <| ok (s.modTel f)
  if off = 0x18000 then put fun r => { r with base := setLo r.base (base12 v), log2 := bitsOf v 4 0 }
  else if off = 0x18004 then put fun r => { r with base := setHi r.base v.toNat }
  else if off = 0x18008 then execTelCfg port v s
  else if off = 0x1800C then put fun r => { r with shadow := setLo r.shadow v.toNat }
  else if off = 0x18010 then put fun r => { r with shadow := setHi r.shadow v.toNat }
  else if off = 0x18018 then execTelHead port v s
  else if off = 0x18014 ∨ off = 0x1801C then gated0 s port off (ok s)
  else ok s
/-- EVT_ (R327); EVT_ALERT is per port. -/
def writeEvt (s : State) (port off : Nat) (v : W32) : Out :=
  let put (f : EvtRing → EvtRing) : Out := gated0 s port off <| ok (s.modHost fun h => { h with evt := f h.evt })
  if off = 0x1C000 then put fun r => { r with base := setLo r.base (base12 v), log2 := bitsOf v 4 0 }
  else if off = 0x1C004 then put fun r => { r with base := setHi r.base v.toNat }
  else if off = 0x1C008 then execEvtCfg port v s
  else if off = 0x1C010 then execEvtHead port v s
  else if off = 0x1C018 then gated s port off <| ok (s.modPort port fun p => { p with alertEn := bitOf v 31, avec := bitsOf v 10 0 })
  else if off = 0x1C00C ∨ off = 0x1C014 then gated0 s port off (ok s)
  else ok s
/-- MTR_ (R514). -/
def writeMtr (s : State) (port off : Nat) (v : W32) : Out :=
  if off = 0x20014 then execMtrSelect port v s
  else if off = 0x20018 then plain s port fun s => s.modPort port fun p => { p with mselHi := v }
  else if off = 0x20020 then plain s port fun s => s.modPort port fun p => { p with wpage := v &&& 1#32 }
  else if off = 0x20030 then gated0 s port off <| ok (s.modMtr fun x => { x with rbase := setLo x.rbase (base12 v) })
  else if off = 0x20034 then gated0 s port off <| ok (s.modMtr fun x => { x with rbase := setHi x.rbase v.toNat })
  else if off = 0x20038 then execMtrRcfg port v s
  else if off = 0x20040 then execMtrRhead port v s
  else ok s
/-- CAS_ (R353, R354). -/
def writeCas (s : State) (port off : Nat) (v : W32) : Out :=
  if off = 0x2400C then
    let c := bitsOf v 2 0
    let seen : State := if s.rick.busy || !s.svRuns then s else s.modRick fun r => { r with context := bitsOf v 27 16 }
    if c = 2 then execRrestart port v s else gated0 s port off (if c = 1 then execPublish port seen else ok seen)
  else if 0x24100 ≤ off ∧ off < 0x24200 then
    (if off % 8 = 0 then execCasPcfg port ((off - 0x24100) / 8) v s else gated0 s port off (ok s))
  else if off ≤ 0x24014 ∨ (0x24200 ≤ off ∧ off < 0x24300) then gated0 s port off (ok s)
  else ok s
/-- A write to SPI_UPLO, UPHI, UPLEN or the staging page (R463): recovery needs no session for the update's registers (R462). -/
def spiSet (s : State) (port off : Nat) (free : Bool) (f : Spi → Spi) : Out :=
  when_ (s.spiReach port) s <| if free || s.hasSession port then ok (s.modSpi f) else ok (s.denied port off)
/-- SPI_ (R463). A PANEL_RESET written here meets the panel as the last bring-up met it, with the straps, which are sampled anew, free (R546; log entry 63). -/
def writeSpi (s : State) (port off : Nat) (v : W32) : Out :=
  if off = 0x28040 then spiSet s port off s.inRecovery fun p => { p with upBase := setLo p.upBase (base12 v) }
  else if off = 0x28044 then spiSet s port off s.inRecovery fun p => { p with upBase := setHi p.upBase v.toNat }
  else if off = 0x28048 then spiSet s port off s.inRecovery fun p => { p with upLen := v.toNat }
  else if off = 0x28050 then spiSet s port off true fun p => { p with wsel := v &&& 0xC0000FFF#32 }
  else if off = 0x28054 then
    let c := bitsOf v 2 0
    if c = 1 then execUpdate port s else if c = 2 then execSettingsCommit port s
    else if c = 3 then
      let env := s.spi.boot.getD default
      execPanelReset port { env with strapRecov := Config.freeBool s.freeN, strapProv := Config.freeBool (s.freeN + 1) } (s.spendN 2)
    else spiSet s port off s.inRecovery id
  else if 0x29000 ≤ off ∧ off < 0x29200 ∧ bitsOf s.spi.wsel 31 30 = 1 ∧ bitsOf s.spi.wsel 11 0 = 0 then
    spiSet s port off false fun p => { p with staging := memPutList p.staging (off - 0x29000) (leBytes 4 v.toNat) }
  else ok s
/-- HLT_CMD (R475, R491). -/
def writeHltCmd (s : State) (port : Nat) (v : W32) : Out :=
  let c := bitsOf v 23 20
  if c = 1 then execRemap port v s else if c = 2 then execRetire port v s else if c = 3 then execKeep port v s else if c = 4 then execHole port v s
  else if c = 5 then execClear port v s else if c = 6 then execTreset port v s else if c = 7 then execSreset port v s
  else if c = 8 then execRepublish port (if port = 0 ∧ s.reach port = true ∧ s.hasSession port = true then s.modHlt fun h => { h with target := bitsOf v 14 0 } else s)
  else gated0 s port 0x30010 <| ok (s.modHlt fun h => { h with target := bitsOf v 14 0 })
/-- HLT_ (R491, R526): the selects and HLT_SVRST on every port, everything else on port 0. -/
def writeHlt (s : State) (port off : Nat) (v : W32) : Out :=
  let sel (f : Port → Port) : Out := plain s port fun s => s.modPort port f
  if off = 0x30000 then sel fun p => { p with tsel := v &&& 0x7FFF#32 }
  else if off = 0x30010 then writeHltCmd s port v
  else if off = 0x30014 then gated0 s port off <| ok (s.modHlt fun h => { h with cmdarg := v })
  else if off = 0x30020 then
    gated0 s port off <| ok (s.modHlt fun h =>
      { h with retthr := bitsOf v 23 16, susthr := bitsOf v 15 8, auto := bitOf v 7, suscad := bitsOf v 6 4, cadence := bitsOf v 2 0 }).promise
  else if off = 0x30030 then execSweepGrant port v s
  else if off = 0x30044 then execSvReset port v s
  else if off = 0x30050 then sel fun p => { p with rsel := v &&& 0x80000FF7#32 }
  else if off = 0x30060 then sel fun p => { p with dsel := v &&& 0xFFFF#32 }
  else if off = 0x30100 then sel fun p => { p with ssel := v &&& 0x1FF#32 }
  else if off = 0x30118 then execHltSclr port v s
  else if off = 0x30120 then sel fun p => { p with esel := v &&& 0x3F#32 }
  else if off = 0x3012C then execHltEclr port v s
  else if off = 0x30144 then execHltLsel port v s
  else if off = 0x30210 then execHltDbclr port v s
  else ok s
/-- DBG_ (R531 to R534). -/
def writeDbg (s : State) (port off : Nat) (v : W32) : Out :=
  if off = 0xF0000 then execDbgLock port v s
  else if off = 0xF0004 then dbgSet s port off fun d => { d with dctr := bitsOf v 21 16, ctx := bitsOf v 11 0 }
  else if off = 0xF0008 then dbgSet s port off fun d => { d with addr := BitVec.ofNat 64 (setLo d.addr.toNat v.toNat) }
  else if off = 0xF000C then dbgSet s port off fun d => { d with addr := BitVec.ofNat 64 (setHi d.addr.toNat v.toNat) }
  else if off = 0xF0010 then dbgSet s port off fun d => { d with data := BitVec.ofNat 64 (setLo d.data.toNat v.toNat) }
  else if off = 0xF0014 then dbgSet s port off fun d => { d with data := BitVec.ofNat 64 (setHi d.data.toNat v.toNat) }
  else if off = 0xF0018 then
    let c := bitsOf v 1 0
    if c = 1 then execDbgRead port s else if c = 2 then execDbgWrite port s else gated0 s port off (ok s)
  else if off = 0xF001C then execDbgTest port v s
  else ok s

/-- A 32-bit write to an aligned offset of BAR0, by block (R520). While no service die runs, ports 1 to 3 take only HLT_SVRST (R535). -/
def write32 (s : State) (port off : Nat) (v : W32) : Out :=
  if port ≠ 0 ∧ s.svRuns = false ∧ off ≠ 0x30044 then ok s
  else if off < 0x1000 then writeId s port off v
  else if off < 0x2000 then writeSes s port off v
  else if off < 0x4000 then writePrt s port off v
  else if off < 0x8000 then writeCtx s port off v
  else if off < 0x10000 then writeMsi s port off v
  else if off < 0x14000 then writePwr s port off v
  else if off < 0x18000 then writeClk s port off v
  else if off < 0x1C000 then writeTel s port off v
  else if off < 0x20000 then writeEvt s port off v
  else if off < 0x24000 then writeMtr s port off v
  else if off < 0x28000 then writeCas s port off v
  else if off < 0x30000 then writeSpi s port off v
  else if off < 0x31000 then writeHlt s port off v
  else if 0xF0000 ≤ off ∧ off < 0x100000 then writeDbg s port off v
  else ok s
/-- A write to BAR0 (R516): 64 bits as two writes of 32, the lower offset first; a narrower one is ignored; one across an 8-byte boundary is unsupported. -/
def writeBar0 (s : State) (port off width : Nat) (v : W64) : Out :=
  if 8 < off % 8 + width then .refused (.notInManual "BAR0 access across an 8-byte boundary")
  else if width = 8 then andThen (write32 s port off (BitVec.ofNat 32 (bitsOf v 31 0))) fun s => write32 s port (off + 4) (BitVec.ofNat 32 (bitsOf v 63 32))
  else if width = 4 ∧ off % 4 = 0 then write32 s port off (BitVec.ofNat 32 (bitsOf v 31 0))
  else ok s
/-- A write to BAR2 (R290, R291, R536): a 64-bit write uses its low 32 bits; one narrower than 32 bits is dropped and counted. -/
def writeBar2 (s : State) (port off width : Nat) (v : W64) : Out :=
  let c := off / 0x1000
  let r := off % 0x1000
  let w : W32 := BitVec.ofNat 32 (bitsOf v 31 0)
  if width < 4 then when_ (s.reach port) s (ok (s.doorbellDrop port c))
  else if 3072 ≤ c then ok s
  else if r = 0 then execSqTail port c w s
  else if r = 8 then execCqHead port c w s
  else if r = 0x18 then (if bitOf w 0 then execRestart port c true s else doorbell s port c fun _ => ok s)
  else ok s
/-- A size of 128 bytes shifted by a field of Device Control, where the port supports it (R285); otherwise the size stays. -/
def sizeOf (old code most : Nat) : Nat := if 128 * 2 ^ code ≤ most then 128 * 2 ^ code else old
/-- The messages of unmasked vectors left pending while the function was masked go out (R292). -/
def State.sendPending (s : State) (port : Nat) : State :=
  ((s.port port).msix.filter fun e => e.2.pend && !e.2.mask).foldl (fun s e =>
    if (s.port port).mute then s
    else
      (s.modPort port fun p => { p with msix := tmod {} p.msix e.1 fun x => { x with pend := false } }).send
        (.msix port (e.2.addrHi.toNat * 2 ^ 32 + e.2.addrLo.toNat) e.2.data (s.port port).ecrcGen)) s
/-- The configuration space of a port (R285, R287, R288, R292), at the model's own offsets (log entry 93): Device Control 0x08, Device Control 2 0x28, the power
management control 0x44, the MSI-X message control 0xB0, the uncorrectable error status 0x104 and the AER control 0x118. -/
def writeCfg (s : State) (port off : Nat) (v : W32) : Out :=
  let p := s.port port
  let put (f : Port → Port) : Out := ok (s.modPort port f)
  when_ (s.cfgAnswer port == .normal) s <|
    if off = 0x08 then
      let s := s.modPort port fun p => { p with mps := sizeOf p.mps (bitsOf v 7 5) 512, mrrs := sizeOf p.mrrs (bitsOf v 14 12) 4096 }
      if bitOf v 15 then execFunctionLevelReset port s else ok s
    else if off = 0x28 then put fun p => { p with cto := bitsOf v 3 0, ctoOff := bitOf v 4, tag10 := bitOf v 12 }
    else if off = 0x44 then put fun p => if bitsOf v 1 0 = 0 then { p with d3hot := false } else if bitsOf v 1 0 = 3 then { p with d3hot := true } else p
    else if off = 0xB0 then
      let s := s.modPort port fun p => { p with fmask := bitOf v 30 }
      ok (if bitOf v 30 then s else s.sendPending port)
    else if off = 0x104 then put fun p => { p with aer := p.aer &&& ~~~v }
    else if off = 0x118 then put fun p => { p with ecrcGen := bitOf v 6, ecrcChk := bitOf v 8 }
    else ok s
/-- REGISTER_WRITE: BAR 0 or 2, or 6 for the port's configuration space, an offset, a width of 1, 2, 4 or 8 bytes, and the bytes written in the low bits of the
value. -/
def execRegisterWrite (port bar off width : Nat) (v : W64) (s : State) : Out :=
  if 4 ≤ port ∨ (width ≠ 1 ∧ width ≠ 2 ∧ width ≠ 4 ∧ width ≠ 8) then ok s
  else if bar = 0 then (if off < 0x100000 then writeBar0 s port off width v else ok s)
  else if bar = 2 then (if off < 0x1000000 then writeBar2 s port off width v else ok s)
  else if bar = 6 ∧ width = 4 then writeCfg s port off (BitVec.ofNat 32 (bitsOf v 31 0))
  else ok s

end Sys2Proof.Machine
end

