-- ==== Sys2Proof/Machine/Thermal.lean ====
section
/-! DEFINITION. Thermal control (R426 to R429) with the temperature bin of R489. -/

namespace Sys2Proof.Machine

/-- The highest of the readings taken. -/
def TempReading_max (r : TempReading) : Nat :=
  lmax 0 ([r.comp, r.sram, r.base].filterMap id)
/-- The temperature bin: floor(T / 10) in 2 to 11, changing only when the boundary is crossed by 2 °C (R489). -/
def nextBin (bin t : Nat) : Nat :=
  let clamp (n : Nat) : Nat := min (max n 2) 11
  let up := clamp ((t - 2) / 10)
  let down := clamp ((t + 1) / 10)
  if bin < up then up else if down < bin then down else bin
/-- Below what temperature a site counts as cool: for its return from OFF, from BANKED, or for a higher thermal limit (R427). -/
def State.coolBelow (s : State) (x : Site) : Nat := if x.thm.heatOff then 85 else if x.clk.bankHeat then 90 else s.cap.tthr - 5

/-- Since when each of the dies has given no reading (R426): compute, SRAM, base. An OFF site's switched-off dies give none. -/
def silentFrom (x : Site) (r : TempReading) (now : Nat) : List (Option Nat) :=
  let since (k : Nat) (on : Bool) (v : Option Nat) : Option Nat :=
    if on ∧ v = none then some ((lget none x.thm.silentSince k).getD now) else none
  [since 0 (x.st != .off) r.comp, since 1 (x.st != .off) r.sram, since 2 true r.base]
/-- The first die of those that has been silent for 1 ms. -/
def silentDie (l : List (Option Nat)) (now : Nat) : Option Nat :=
  (rangeFrom 0 3).find? fun k => match lget none l k with
    | some t => decide (t + ms ≤ now)
    | none => false

/-- A site is banked for heat (R427). -/
def State.heatBank (s : State) (p t : Nat) : State :=
  let x := s.site p
  if x.clk.bankHeat = true ∨ !(x.st == .active || x.st == .held || x.st == .banked) then s
  else
    let s := s.modSite p fun x => { x with clk := { x.clk with bankHeat := true }, thm := { x.thm with thmAtBank := x.clk.thmLim, coolSince := none } }
    (s.bankNow p).raiseSite 0x0436 p (siteWord p) t

/-- What a sample sets off at a site in state `st`: 115 °C on the base die isolates, on another die turns the site off, and 105 °C banks it (R427). -/
def State.tempActs (s : State) (site : Nat) (st : SiteSt) (r : TempReading) (t te : Nat) : Out :=
  if 115 ≤ r.base.getD 0 then ok ((s.raiseSite 0x043A site (siteWord site) t).isolate site 5).promise
  else if (115 ≤ r.comp.getD 0 ∨ 115 ≤ r.sram.getD 0) ∧ st ≠ .off then
    let die := if 115 ≤ r.comp.getD 0 then 0 else 1
    let s := (s.siteOff site).nodeLeave site true
    let s := s.modSite site fun x => { x with thm := { x.thm with heatOff := true, coolSince := none } }
    ok (s.raiseSite 0x0438 site (siteWord site) (t + die * 256)).promise
  else if 105 ≤ te then ok (s.heatBank site te)
  else ok s
/-- TEMP_SAMPLE: every 100 µs (R426, R427). Banking, switch-off and isolation are the base die's own; without a service die it limits draught instead of steps (R482). -/
def execTempSample (site : Nat) (r : TempReading) (s : State) : Out :=
  onSite s site fun x =>
    when_ (x.st != .dark) s <|
      let t := TempReading_max r
      let now := s.time
      let since := silentFrom x r now
      let badDie : Option Nat := if r.disagree.isSome then r.disagree else silentDie since now
      let valid := r.disagree.isNone && since.all Option.isNone
      let validAt := if valid then some (x.thm.sensorSince.getD now) else none
      let mended := match validAt with
        | some t0 => decide (t0 + 100 * ms ≤ now)
        | none => false
      let bad := badDie.isSome || (x.thm.sensorBad && !mended)
      let te := if bad then 105 else t
      let cool := if badDie = none ∧ t < s.coolBelow x then (match x.thm.coolSince with
          | some t0 => some t0
          | none => some now) else none
      let s := s.modSite site fun x =>
        { x with
          thm := { x.thm with tComp := r.comp.getD x.thm.tComp, tSram := r.sram.getD x.thm.tSram, tBase := r.base.getD x.thm.tBase, tMax := max x.thm.tMax t
                              tPeak := max x.thm.tPeak t, sensorBad := bad, sensorSince := validAt, silentSince := since, coolSince := cool }
          mrg := { x.mrg with bin := nextBin x.mrg.bin t }
          ctl := { x.ctl with lostSvK := if s.svRuns then 16 else if s.cap.tthr ≤ te then 8 else if te < s.cap.tthr - 5 then 16 else x.ctl.lostSvK } }
      let s := s.relimit site
      let s := match badDie with
        | some d => if x.thm.sensorBad then s else s.raiseSite 0x043B site (siteWord site) (d * 256)
        | none => s
      s.tempActs site x.st r t te

/-! ### THERMAL_TURN -/

/-- The site temperature as last sampled; dies that are switched off have none (R426). -/
def Site.temp (x : Site) : Nat := if x.st = .off ∨ x.st = .dark then x.thm.tBase else max x.thm.tComp (max x.thm.tSram x.thm.tBase)
/-- A lowering of the thermal limit, whatever its steps, is one reduction (R434; log entry 105). -/
def Site.lowered (x : Site) (lim : Nat) : Site :=
  { x with clk := { x.clk with thmLim := lim }, thm := { x.thm with throttles := if lim < x.clk.thmLim then satAdd16 x.thm.throttles 1 else x.thm.throttles } }
/-- A turn lowers the thermal limit by one step, or with the step held the thermal draught (R427, R428). -/
def State.throttle (s : State) (p : Nat) : State :=
  let x := s.site p
  if x.clk.hold then s.modSite p fun x => { x with clk := { x.clk with thmK := max 1 (x.clk.thmK - 1) } }
  else if x.clk.thmLim = 0 then s
  else
    let lim := x.clk.thmLim - 1
    let first := x.thm.thrEvtSec != some s.second
    let s := (s.modSite p fun x =>
      { x with clk := { x.clk with thmLim := lim },
               thm := { x.thm with throttles := satAdd16 x.thm.throttles 1, thrEvtSec := if first then some s.second else x.thm.thrEvtSec } }).relimit p
    if first then s.raiseSite 0x0435 p (siteWord p) lim else s
/-- A turn raises it by one step. -/
def State.unthrottle (s : State) (p : Nat) : State :=
  let x := s.site p
  if x.clk.hold then s.modSite p fun x => { x with clk := { x.clk with thmK := min 16 (x.clk.thmK + 1) } }
  else (s.modSite p fun x => { x with clk := { x.clk with thmLim := min 15 (x.clk.thmLim + 1) } }).relimit p
/-- THERMAL_TURN: every 1 ms the hottest site at or above TTHR is throttled and the coolest that has been cool for 10 ms is raised; ties go to the lower site number (R427). Only sites that run
at a step take turns (log entry 98). -/
def execThermalTurn (s : State) : Out :=
  when_ s.svRuns s <|
    let live := s.budgetedSites
    let hot := live.filter fun p => decide (s.cap.tthr ≤ (s.site p).temp)
    let cool := live.filter fun p =>
      let x := s.site p
      (if x.clk.hold then decide (x.clk.thmK < 16) else decide (x.clk.thmLim < 15)) && match x.thm.coolSince with
        | some t => decide (t + 10 * ms ≤ s.time)
        | none => false
    let s1 := match firstBy (fun p => (1000 - (s.site p).temp) * 512 + s.siteSource p) hot with
      | some p => s.throttle p
      | none => s
    ok (match firstBy (fun p => (s.site p).temp * 512 + s.siteSource p) cool with
      | some p => s1.unthrottle p
      | none => s1)

/-- THM_UNBANK: below 90 °C for 100 ms, and every sensor valid for 100 ms; the thermal limit is two steps lower (R426, R427). -/
def execThmUnbank (site : Nat) (s : State) : Out :=
  onSite s site fun x =>
    let for100 (o : Option Nat) : Bool := match o with
      | some t => decide (t + 100 * ms ≤ s.time)
      | none => false
    let sensors := !x.thm.sensorBad || for100 x.thm.sensorSince
    when_ (x.clk.bankHeat && s.svRuns && sensors && for100 x.thm.coolSince && decide (x.temp < 90)) s <|
      let s := s.modSite site fun x =>
        let y := x.lowered (x.thm.thmAtBank - 2)
        { y with clk := { y.clk with bankHeat := false }, thm := { y.thm with sensorBad := false, coolSince := none } }
      ok (((s.relimit site).unbankNow site).raiseSite 0x0437 site (siteWord site) x.temp)
/-- THM_ON: OFF for heat and below 85 °C for 1 s; the switch-on is asked for under R403, with thermal limit 8 (R379, R427). -/
def execThmOn (site : Nat) (s : State) : Out :=
  onSite s site fun x =>
    let cool := match x.thm.coolSince with
      | some t => decide (t + sec ≤ s.time)
      | none => false
    when_ (x.thm.heatOff && x.st == .off && x.pwr.soft == .none && decide (x.pwr.attempts < 3) && cool && !x.thm.sensorBad && s.svRuns && !s.pwr.stopped) s <|
      let s := (s.modSite site fun x => x.lowered 8).relimit site
      ok ((s.askSoft site .heat).raiseSite 0x0439 site (siteWord site) x.temp)

end Sys2Proof.Machine
end

