-- ==== Sys2Proof/Machine/Dispatch.lean ====
section
/-! DEFINITION. The meaning of every command: one arm per constructor of `Instr`. -/

namespace Sys2Proof.Machine

/-- What a command does to the panel, its queue aside. -/
def exec (i : Instr) (s : State) : Host.Outcome State Fault Refusal :=
  match i with
  | .rvInstruction t c mismatch => Sys2Proof.Machine.execRvInstruction t c mismatch s
  | .ecallExit t c => Sys2Proof.Machine.execEcallExit t c s
  | .coreDone t c => Sys2Proof.Machine.execCoreDone t c s
  | .xtPut t c => Sys2Proof.Machine.execXtPut t c s
  | .xtGet t c => Sys2Proof.Machine.execXtGet t c s
  | .xtProbe t c => Sys2Proof.Machine.execXtProbe t c s
  | .xtEnq t c => Sys2Proof.Machine.execXtEnq t c s
  | .xtCset t c => Sys2Proof.Machine.execXtCset t c s
  | .xtCadd t c => Sys2Proof.Machine.execXtCadd t c s
  | .xtCarm t c => Sys2Proof.Machine.execXtCarm t c s
  | .xtCwait t c => Sys2Proof.Machine.execXtCwait t c s
  | .cwaitResume t c => Sys2Proof.Machine.execCwaitResume t c s
  | .xtEvt t e => Sys2Proof.Machine.execXtEvt t e s
  | .transferPacketIssue t => Sys2Proof.Machine.execTransferPacketIssue t s
  | .launchStart idx_ => Sys2Proof.Machine.execLaunchStart idx_ s
  | .loadTileStart idx_ => Sys2Proof.Machine.execLoadTileStart idx_ s
  | .loadEnd t => Sys2Proof.Machine.execLoadEnd t s
  | .loadw t hw => Sys2Proof.Machine.execLoadw t hw s
  | .mma t hw => Sys2Proof.Machine.execMma t hw s
  | .store t hw => Sys2Proof.Machine.execStore t hw s
  | .zero t hw => Sys2Proof.Machine.execZero t hw s
  | .nop t => Sys2Proof.Machine.execNop t s
  | .engineRetire t u => Sys2Proof.Machine.execEngineRetire t u s
  | .engCtrlClear t => Sys2Proof.Machine.execEngCtrlClear t s
  | .write idx_ => Sys2Proof.Machine.execWrite idx_ s
  | .writeToOwner idx_ => Sys2Proof.Machine.execWriteToOwner idx_ s
  | .read idx_ joins => Sys2Proof.Machine.execRead idx_ joins s
  | .cnt idx_ => Sys2Proof.Machine.execCnt idx_ s
  | .rdata idx_ => Sys2Proof.Machine.execRdata idx_ s
  | .rerr idx_ => Sys2Proof.Machine.execRerr idx_ s
  | .wack idx_ => Sys2Proof.Machine.execWack idx_ s
  | .routerHop idx_ env => Sys2Proof.Machine.execRouterHop idx_ env s
  | .routeEntryRewrite site idx => Sys2Proof.Machine.execRouteEntryRewrite site idx s
  | .flitRefused l a => Sys2Proof.Machine.execFlitRefused l a s
  | .linkUp x => Sys2Proof.Machine.execLinkUp x s
  | .seamRetrain l fails => Sys2Proof.Machine.execSeamRetrain l fails s
  | .trackerTimeout t k => Sys2Proof.Machine.execTrackerTimeout t k s
  | .trackerReuse t k => Sys2Proof.Machine.execTrackerReuse t k s
  | .baseDieFault site => Sys2Proof.Machine.execBaseDieFault site s
  | .republish port => Sys2Proof.Machine.execRepublish port s
  | .republishDone => Sys2Proof.Machine.execRepublishDone s
  | .listAppend idx_ => Sys2Proof.Machine.execListAppend idx_ s
  | .listClose idx_ => Sys2Proof.Machine.execListClose idx_ s
  | .listArm idx_ => Sys2Proof.Machine.execListArm idx_ s
  | .scrubAccess t found word => Sys2Proof.Machine.execScrubAccess t found word s
  | .cacheRead idx_ joins err => Sys2Proof.Machine.execCacheRead idx_ joins err s
  | .cacheFillReturn idx_ => Sys2Proof.Machine.execCacheFillReturn idx_ s
  | .cacheWrite idx_ => Sys2Proof.Machine.execCacheWrite idx_ s
  | .maintInvalidateLine site => Sys2Proof.Machine.execMaintInvalidateLine site s
  | .maintInvalidateRange site => Sys2Proof.Machine.execMaintInvalidateRange site s
  | .maintInvalidateAll site => Sys2Proof.Machine.execMaintInvalidateAll site s
  | .maintReserved site => Sys2Proof.Machine.execMaintReserved site s
  | .ddrChannelDown ch => Sys2Proof.Machine.execDdrChannelDown ch s
  | .patrolRead ch burst found n => Sys2Proof.Machine.execPatrolRead ch burst found n s
  | .ddrRegionCommit port p => Sys2Proof.Machine.execDdrRegionCommit port p s
  | .prtBevWrite port k v => Sys2Proof.Machine.execPrtBevWrite port k v s
  | .portDown port => Sys2Proof.Machine.execPortDown port s
  | .portUp port mode => Sys2Proof.Machine.execPortUp port mode s
  | .functionLevelReset port => Sys2Proof.Machine.execFunctionLevelReset port s
  | .busMasterDisable port => Sys2Proof.Machine.execBusMasterDisable port s
  | .perstRelease port mode => Sys2Proof.Machine.execPerstRelease port mode s
  | .hostCompletionTimeout id => Sys2Proof.Machine.execHostCompletionTimeout id s
  | .sqTail port ctx v => Sys2Proof.Machine.execSqTail port ctx v s
  | .cqHead port ctx v => Sys2Proof.Machine.execCqHead port ctx v s
  | .descriptorFetch id res => Sys2Proof.Machine.execDescriptorFetch id res s
  | .nopDescriptor ctx => Sys2Proof.Machine.execNopDescriptor ctx s
  | .copy ctx => Sys2Proof.Machine.execCopy ctx s
  | .launch ctx => Sys2Proof.Machine.execLaunch ctx s
  | .load ctx => Sys2Proof.Machine.execLoad ctx s
  | .wait ctx => Sys2Proof.Machine.execWait ctx s
  | .waitPoll ctx n => Sys2Proof.Machine.execWaitPoll ctx n s
  | .signal ctx => Sys2Proof.Machine.execSignal ctx s
  | .phase ctx => Sys2Proof.Machine.execPhase ctx s
  | .barrier ctx => Sys2Proof.Machine.execBarrier ctx s
  | .fence ctx => Sys2Proof.Machine.execFence ctx s
  | .predict ctx => Sys2Proof.Machine.execPredict ctx s
  | .mark ctx => Sys2Proof.Machine.execMark ctx s
  | .reservedOpcode ctx => Sys2Proof.Machine.execReservedOpcode ctx s
  | .descriptorComplete ctx n => Sys2Proof.Machine.execDescriptorComplete ctx n s
  | .ctxSel port v => Sys2Proof.Machine.execCtxSel port v s
  | .configure port => Sys2Proof.Machine.execConfigure port s
  | .release port => Sys2Proof.Machine.execRelease port s
  | .restart port ctx doorbell => Sys2Proof.Machine.execRestart port ctx doorbell s
  | .restartDone ctx => Sys2Proof.Machine.execRestartDone ctx s
  | .halt port => Sys2Proof.Machine.execHalt port s
  | .contextFault idx_ => Sys2Proof.Machine.execContextFault idx_ s
  | .stepWatchdog ctx => Sys2Proof.Machine.execStepWatchdog ctx s
  | .edgeTrackerTimeout pe k => Sys2Proof.Machine.execEdgeTrackerTimeout pe k s
  | .evtHead port v => Sys2Proof.Machine.execEvtHead port v s
  | .evtCfg port v => Sys2Proof.Machine.execEvtCfg port v s
  | .msixUnmask port vec v => Sys2Proof.Machine.execMsixUnmask port vec v s
  | .define port p => Sys2Proof.Machine.execDefine port p s
  | .delete port p => Sys2Proof.Machine.execDelete port p s
  | .warmReset port p => Sys2Proof.Machine.execWarmReset port p s
  | .warmResetDone p found suspects => Sys2Proof.Machine.execWarmResetDone p found suspects s
  | .prtUpdate port p => Sys2Proof.Machine.execPrtUpdate port p s
  | .cascadeCodeword n cw => Sys2Proof.Machine.execCascadeCodeword n cw s
  | .replayTimeout n => Sys2Proof.Machine.execReplayTimeout n s
  | .cascadePortDown n inDoubt => Sys2Proof.Machine.execCascadePortDown n inDoubt s
  | .cascadePortUp n partner => Sys2Proof.Machine.execCascadePortUp n partner s
  | .casPcfg port n v => Sys2Proof.Machine.execCasPcfg port n v s
  | .rickAnnounce panel serial via => Sys2Proof.Machine.execRickAnnounce panel serial via s
  | .publish port => Sys2Proof.Machine.execPublish port s
  | .rickRoutes gen => Sys2Proof.Machine.execRickRoutes gen s
  | .rrestart port v => Sys2Proof.Machine.execRrestart port v s
  | .timebaseSync master => Sys2Proof.Machine.execTimebaseSync master s
  | .masterLost => Sys2Proof.Machine.execMasterLost s
  | .rickBarrierArrival panel id count => Sys2Proof.Machine.execRickBarrierArrival panel id count s
  | .rickBarrierRelease id stamp => Sys2Proof.Machine.execRickBarrierRelease id stamp s
  | .clkRefLoss input => Sys2Proof.Machine.execClkRefLoss input s
  | .clkRefRestored input => Sys2Proof.Machine.execClkRefRestored input s
  | .edgeHoldoverExpiry edge => Sys2Proof.Machine.execEdgeHoldoverExpiry edge s
  | .clkDecoupled site faces => Sys2Proof.Machine.execClkDecoupled site faces s
  | .clkRecoupled site => Sys2Proof.Machine.execClkRecoupled site s
  | .timeMessage site rate => Sys2Proof.Machine.execTimeMessage site rate s
  | .stepChange site k => Sys2Proof.Machine.execStepChange site k s
  | .railSettled site => Sys2Proof.Machine.execRailSettled site s
  | .stepStopEnd site x => Sys2Proof.Machine.execStepStopEnd site x s
  | .clkStepFault site => Sys2Proof.Machine.execClkStepFault site s
  | .clkCeil port p v => Sys2Proof.Machine.execClkCeil port p v s
  | .bank port v => Sys2Proof.Machine.execBank port v s
  | .unbank port v => Sys2Proof.Machine.execUnbank port v s
  | .bankReturn site => Sys2Proof.Machine.execBankReturn site s
  | .inputWarn mv us => Sys2Proof.Machine.execInputWarn mv us s
  | .orderlyStop mv => Sys2Proof.Machine.execOrderlyStop mv s
  | .inputHigh mv => Sys2Proof.Machine.execInputHigh mv s
  | .inputOvervoltage mv => Sys2Proof.Machine.execInputOvervoltage mv s
  | .inputLoss mv => Sys2Proof.Machine.execInputLoss mv s
  | .pwrInRestored mv => Sys2Proof.Machine.execPwrInRestored mv s
  | .converterFail g => Sys2Proof.Machine.execConverterFail g s
  | .phaseLost site ph => Sys2Proof.Machine.execPhaseLost site ph s
  | .reservoirEngage site rail stillLow => Sys2Proof.Machine.execReservoirEngage site rail stillLow s
  | .fastBubbleEnd site => Sys2Proof.Machine.execFastBubbleEnd site s
  | .railDip site rail depth ns => Sys2Proof.Machine.execRailDip site rail depth ns s
  | .dipLimitRise site => Sys2Proof.Machine.execDipLimitRise site s
  | .railReset site rail depth => Sys2Proof.Machine.execRailReset site rail depth s
  | .inputSwitchOpen site cause rail => Sys2Proof.Machine.execInputSwitchOpen site cause rail s
  | .pathAnomaly site ratio => Sys2Proof.Machine.execPathAnomaly site ratio s
  | .clearPath port => Sys2Proof.Machine.execClearPath port s
  | .isolate port => Sys2Proof.Machine.execIsolate port s
  | .restore port => Sys2Proof.Machine.execRestore port s
  | .softStart site => Sys2Proof.Machine.execSoftStart site s
  | .softStartDone site => Sys2Proof.Machine.execSoftStartDone site s
  | .softStartAbandon site => Sys2Proof.Machine.execSoftStartAbandon site s
  | .softStartRetry site => Sys2Proof.Machine.execSoftStartRetry site s
  | .telemetryTick sites convs => Sys2Proof.Machine.execTelemetryTick sites convs s
  | .pwrCap port v => Sys2Proof.Machine.execPwrCap port v s
  | .budgetAllocation m => Sys2Proof.Machine.execBudgetAllocation m s
  | .paceLock port p v => Sys2Proof.Machine.execPaceLock port p v s
  | .pacerUpdate site m mv => Sys2Proof.Machine.execPacerUpdate site m mv s
  | .capLimitUpdate site => Sys2Proof.Machine.execCapLimitUpdate site s
  | .clearProfiles port p => Sys2Proof.Machine.execClearProfiles port p s
  | .profileMirror => Sys2Proof.Machine.execProfileMirror s
  | .tempSample site r => Sys2Proof.Machine.execTempSample site r s
  | .thermalTurn => Sys2Proof.Machine.execThermalTurn s
  | .thmUnbank site => Sys2Proof.Machine.execThmUnbank site s
  | .thmOn site => Sys2Proof.Machine.execThmOn site s
  | .telHead port v => Sys2Proof.Machine.execTelHead port v s
  | .telCfg port v => Sys2Proof.Machine.execTelCfg port v s
  | .coldPowerOn env => Sys2Proof.Machine.execColdPowerOn env s
  | .ready => Sys2Proof.Machine.execReady s
  | .svBTakeover => Sys2Proof.Machine.execSvBTakeover s
  | .panelReset port env => Sys2Proof.Machine.execPanelReset port env s
  | .settingsCommit port => Sys2Proof.Machine.execSettingsCommit port s
  | .update port => Sys2Proof.Machine.execUpdate port s
  | .updateDone result => Sys2Proof.Machine.execUpdateDone result s
  | .siteRejoin site => Sys2Proof.Machine.execSiteRejoin site s
  | .siteRejoined site found suspects ms => Sys2Proof.Machine.execSiteRejoined site found suspects ms s
  | .learnedAppend => Sys2Proof.Machine.execLearnedAppend s
  | .logFlush => Sys2Proof.Machine.execLogFlush s
  | .selfTestSlice t passed => Sys2Proof.Machine.execSelfTestSlice t passed s
  | .healthHourly => Sys2Proof.Machine.execHealthHourly s
  | .confirmingRetestDone t passed => Sys2Proof.Machine.execConfirmingRetestDone t passed s
  | .remap port v => Sys2Proof.Machine.execRemap port v s
  | .tileRemapStopEnd site => Sys2Proof.Machine.execTileRemapStopEnd site s
  | .retire port v => Sys2Proof.Machine.execRetire port v s
  | .keep port v => Sys2Proof.Machine.execKeep port v s
  | .hole port v => Sys2Proof.Machine.execHole port v s
  | .clear port v => Sys2Proof.Machine.execClear port v s
  | .treset port v => Sys2Proof.Machine.execTreset port v s
  | .sreset port v => Sys2Proof.Machine.execSreset port v s
  | .computeResetDone site x => Sys2Proof.Machine.execComputeResetDone site x s
  | .svHeartbeat => Sys2Proof.Machine.execSvHeartbeat s
  | .svFailover reported => Sys2Proof.Machine.execSvFailover reported s
  | .svStandbyLost reported => Sys2Proof.Machine.execSvStandbyLost reported s
  | .svLost => Sys2Proof.Machine.execSvLost s
  | .svReset port v => Sys2Proof.Machine.execSvReset port v s
  | .svRestored aOk bOk => Sys2Proof.Machine.execSvRestored aOk bOk s
  | .sweepGrant port v => Sys2Proof.Machine.execSweepGrant port v s
  | .marginSweep site m => Sys2Proof.Machine.execMarginSweep site m s
  | .marginOverdue site => Sys2Proof.Machine.execMarginOverdue site s
  | .loadClassUpdate site busyPct surged => Sys2Proof.Machine.execLoadClassUpdate site busyPct surged s
  | .cellCeilingRise site cell => Sys2Proof.Machine.execCellCeilingRise site cell s
  | .hltSclr port v => Sys2Proof.Machine.execHltSclr port v s
  | .hltEclr port v => Sys2Proof.Machine.execHltEclr port v s
  | .hltDbclr port v => Sys2Proof.Machine.execHltDbclr port v s
  | .hltLsel port v => Sys2Proof.Machine.execHltLsel port v s
  | .challenge port => Sys2Proof.Machine.execChallenge port s
  | .challengeExpiry port => Sys2Proof.Machine.execChallengeExpiry port s
  | .sesOpen port => Sys2Proof.Machine.execSesOpen port s
  | .lockoutExpiry port => Sys2Proof.Machine.execLockoutExpiry port s
  | .sesClose port => Sys2Proof.Machine.execSesClose port s
  | .sessionDeadline entry => Sys2Proof.Machine.execSessionDeadline entry s
  | .attest port => Sys2Proof.Machine.execAttest port s
  | .pubkey port => Sys2Proof.Machine.execPubkey port s
  | .armOwner port => Sys2Proof.Machine.execArmOwner port s
  | .armSvn port => Sys2Proof.Machine.execArmSvn port s
  | .commitFuse port => Sys2Proof.Machine.execCommitFuse port s
  | .meterRecord m => Sys2Proof.Machine.execMeterRecord m s
  | .mtrSeal => Sys2Proof.Machine.execMtrSeal s
  | .meterFrame f => Sys2Proof.Machine.execMeterFrame f s
  | .mtrLinkLost => Sys2Proof.Machine.execMtrLinkLost s
  | .mtrSelect port v => Sys2Proof.Machine.execMtrSelect port v s
  | .mtrRhead port v => Sys2Proof.Machine.execMtrRhead port v s
  | .mtrRcfg port v => Sys2Proof.Machine.execMtrRcfg port v s
  | .dbgRead port => Sys2Proof.Machine.execDbgRead port s
  | .dbgWrite port => Sys2Proof.Machine.execDbgWrite port s
  | .dbgLock port v => Sys2Proof.Machine.execDbgLock port v s
  | .dbgTest port v => Sys2Proof.Machine.execDbgTest port v s
  | .registerWrite port bar off width v => Sys2Proof.Machine.execRegisterWrite port bar off width v s
  | .hostReadCompletion id res => Sys2Proof.Machine.execHostReadCompletion id res s
  | .pathBaselineFrozen site base => Sys2Proof.Machine.execPathBaselineFrozen site base s
  | .sweepWindowEnd => Sys2Proof.Machine.execSweepWindowEnd s
  | .settingsCommitDone => Sys2Proof.Machine.execSettingsCommitDone s
  | .deleteDone p => Sys2Proof.Machine.execDeleteDone p s
  | .rrestartDone => Sys2Proof.Machine.execRrestartDone s
  | .fuseArmExpiry port => Sys2Proof.Machine.execFuseArmExpiry port s

end Sys2Proof.Machine
end

