-- ==== Sys2Proof/Machine/Tick.lean ====
section
/-! DEFINITION. What happens without a command: one cycle of the mesh clock (R360, R367, R373). -/

namespace Sys2Proof.Machine

/-- A mesh cycle (R367), in ns. -/
def meshNs : Nat := 10
/-- The timebase after one cycle: a correction ahead of the master holds the count, one behind it is slewed by 1 ns per µs (R360). -/
def State.tickTime (s : State) : State :=
  let hold := min s.rick.holdNs meshNs
  let t := s.time + (meshNs - hold)
  let up := if s.rick.slew ≠ 0 ∧ s.time / us < t / us then 1 else 0
  ({ s with time := t + up } : State).modRick fun r => { r with holdNs := r.holdNs - hold, slew := r.slew - up }
/-- One idle cycle: time passes, a bring-up shows its next stage (R438) and an update takes its next step (R460), sites that are not at their effective step are asked for it (R370), step requests that waited begin (R373), and the conditions of the promise are looked at again (R464). A panel without power only waits
(log entry 1). -/
def State.tick (s : State) : State := if s.pwr.powered then (((s.tickTime.bootTick).updateTick.followLimits).startWaiting s.sites.length).promise else s

end Sys2Proof.Machine
end

