-- ==== Sys2Proof/Machine/Step.lean ====
section
/-! DEFINITION. One step of the panel: the command at the front of the queue, or one idle cycle (log entry 1). -/

namespace Sys2Proof.Machine

/-- The command at the front runs with the queue's rest; an empty queue lets one mesh cycle pass. -/
def step (s : State) : Host.Outcome State Fault Refusal :=
  match s.pending with
  | [] => .next s.tick
  | c :: rest => exec c { s with pending := rest }

/-- The command that a word spells, put at the front of the queue; nothing where it spells none. -/
def State.withFetchWord (s : State) (nbits w : Nat) : State :=
  match decodeTableWord nbits w with
  | some c => { s with pending := c :: s.pending }
  | none => s

end Sys2Proof.Machine
end

