-- ==== Sys2Proof/Machine/Bar0.lean ====
section
/-! DEFINITION. What reads of BAR0 and BAR2 return (R289 to R291, R516, R517, R520 to R536). No command reads a register; these functions say what a read through a
port gives, and, for the LO and HI pairs, the port's state after it. -/

namespace Sys2Proof.Machine

/-- The low and the high half of a number. -/
def lo32 (n : Nat) : Nat := n % 2 ^ 32
def hi32 (n : Nat) : Nat := n / 2 ^ 32 % 2 ^ 32

/-! ### ID_ (R522, R524) -/

def bootStageCode : Stage → Nat
  | .rom => 0
  | .image => 1
  | .base => 2
  | .train => 3
  | .compute => 4
  | .selftest => 5
  | .publish => 6
  | .ready => 7
  | .recovery => 8
  | .failed => 9
/-- Only ID_ and SPI_ show, and in FAILED HLT_ too (R442, R462). -/
def State.down_ (s : State) : Bool := s.inRecovery || s.spi.stage == .failed
/-- The site serving a tile is neither OFF nor DARK, and the tile is ACTIVE or SUSPECT. -/
def State.tileCounts (s : State) (t : Nat) : Bool :=
  let st := (s.tileSt t).st
  ((s.tile t).st == .active || (s.tile t).st == .suspect) && st != .off && st != .dark
def State.tilesIn (s : State) (sites : List Nat) : Nat := lsum (sites.map fun p => ((s.tilesOf p).filter s.tileCounts).length)
def State.idRes (s : State) : Nat :=
  if s.down_ then 0
  else
    let sites := ((rangeFrom 0 256).filter fun S => (s.site (s.phys S)).st != .dark).length
    let ddr := ((rangeFrom 0 32).filter fun c => (s.chan c).st == 2).length
    let cas := ((rangeFrom 0 32).filter fun n => (s.cas n).st == 2).length
    sites * 2 ^ 23 + ddr * 2 ^ 17 + b4 (fun p => (s.port p).link && !(s.port p).cutLink) * 2 ^ 13 + cas * 2 ^ 7
/-- ID_TIME: the timebase; in recovery and in FAILED it counts from t0. -/
def State.idTime (s : State) : Nat := if s.down_ then s.time - s.spi.t0 else s.time
def State.idView (s : State) (port off : Nat) : Nat :=
  if off = 0x00 then 0x4B32 * 2 ^ 16 + Config.stepping.toNat
  else if off = 0x04 then 0x00010000
  else if off = 0x08 then lo32 Config.serial.toNat
  else if off = 0x0C then hi32 Config.serial.toNat
  else if off = 0x10 then s.idRes
  else if off = 0x14 then (if s.down_ then 0 else s.tilesIn ((rangeFrom 0 256).map s.phys))
  else if off = 0x18 then (if s.down_ then 0 else lsum ((rangeFrom 0 32).map fun c => if (s.chan c).st = 2 then (s.chan c).cap * 8 else 0))
  else if off = 0x1C then b2n (port == 0) * 4 + port
  else if off = 0x20 then bootStageCode s.spi.stage * 2 ^ 28 + b2n s.isReady * 2 ^ 27
  else if off = 0x24 then lo32 s.idTime
  else if off = 0x28 then hi32 s.idTime
  else if off = 0x2C then (s.port port).scratch.toNat
  else if 0x40 ≤ off ∧ off < 0x60 then leWord (((shake256 idKey).drop (off - 0x40)).take 4)
  else 0

/-! ### SES_, PRT_, CTX_, MSI_ -/

def State.sesView (s : State) (port off : Nat) : Nat :=
  let p := s.port port
  if off = 0x1000 then s.sesStatus port
  else if off = 0x1008 then p.sarg.toNat
  else if off = 0x100C then p.bsel.toNat
  else if 0x1010 ≤ off ∧ off < 0x1020 then s.sesInfo ((off - 0x1010) / 4)
  else if 0x1020 ≤ off ∧ off < 0x1040 then
    (match s.challengeOf p with
    | some (c, _, _, _) => leWord ((c.drop (off - 0x1020)).take 4)
    | none => 0)
  else if off = 0x1040 then s.ses.denied.toNat
  else if off = 0x1044 then s.ses.fails.toNat
  else if 0x1800 ≤ off then memWord p.buf (bitsOf p.bsel 1 0 * 2048 + (off - 0x1800)) 4
  else 0
def partStCode : PartSt → Nat
  | .undefined => 0
  | .defined => 1
  | .resetting => 2
def State.partView (s : State) (p r : Nat) : Nat :=
  let q := s.partn p
  let d := q.stage
  if r = 0 then d.sc * 2 ^ 28 + d.sr * 2 ^ 24 + d.wm1 * 2 ^ 20 + d.hm1 * 2 ^ 16
  else if r = 4 then d.count * 2 ^ 16 + d.first
  else if r = 8 then b2n d.guarded * 2 ^ 31 + b2n d.rickbar * 2 ^ 30 + d.rto
  else if r = 0xC then d.mask.toNat
  else if r = 0x10 then partStCode q.st * 2 ^ 29 + b2n q.err * 2 ^ 28 + q.ecode * 2 ^ 24
  else if r = 0x14 then s.tilesIn (s.partSites p)
  else 0
def State.winView (s : State) (w r : Nat) : Nat :=
  let x := s.win w
  if r = 0 then lo32 x.base
  else if r = 4 then hi32 x.base
  else if r = 8 then x.pages
  else b2n x.en * 2 ^ 31 + x.part * 2 ^ 24 + b2n x.oneCtx * 2 ^ 23 + x.port * 2 ^ 18 + x.mode * 2 ^ 16 + x.ctx
def State.ddrView (s : State) (p r : Nat) : Nat :=
  let d := (s.partn p).ddr
  let g := d.stage
  if r = 0 then g.base
  else if r = 4 then g.size
  else if r = 8 then g.cbase * 2 ^ 16 + g.mode * 2 ^ 8 + g.gran * 2 ^ 4 + g.nlog2
  else if r = 0xC then g.mask.toNat
  else if r = 0x10 then b2n d.err * 2 ^ 31 + d.ecode * 2 ^ 28
  else 0
def State.prtView (s : State) (off : Nat) : Nat :=
  if off < 0x2400 then s.partView ((off - 0x2000) / 0x40) ((off - 0x2000) % 0x40)
  else if off < 0x2C00 then s.winView ((off - 0x2400) / 0x10) ((off - 0x2400) % 0x10)
  else if off < 0x2E00 then s.ddrView ((off - 0x2C00) / 0x20) ((off - 0x2C00) % 0x20)
  else if off < 0x2E1C then (lget 0 s.bev ((off - 0x2E00) / 4)).toNat
  else if off = 0x2E1C then s.bevMode
  else 0
/-- The prediction counters of the selected context, in the order of R525. -/
def Ctx.counters (x : Ctx) : List W64 :=
  [x.pexec, x.pskipcol, x.pprobes, x.pprobepos, x.pmadeup, x.paudits, x.paudpred, x.paudseen, x.paudlost, x.paudfalse]
def State.ctxView (s : State) (port off : Nat) : Nat :=
  let p := s.port port
  let g := p.stage
  let x := s.ctx p.ctxSel
  if off = 0x4000 then p.ctxSel
  else if off = 0x4004 then g.part * 2 ^ 28 + g.port * 2 ^ 26 + b2n g.roEn * 2 ^ 25 + b2n g.irqEn * 2 ^ 24 + g.wdog
  else if off = 0x4008 then lo32 g.sqBase + g.sqLog2
  else if off = 0x400C then hi32 g.sqBase
  else if off = 0x4010 then lo32 g.cqBase + g.cqLog2
  else if off = 0x4014 then hi32 g.cqBase
  else if off = 0x4018 then g.cvec
  else if off = 0x4020 then x.statusWord p.err p.ecode
  else if off = 0x4024 then x.faultWord
  else if off = 0x4028 then x.sqHead.toNat
  else if off = 0x402C then x.sqTail.toNat
  else if off = 0x4030 then x.cqTail.toNat
  else if off = 0x4034 then x.cqHead.toNat
  else if off = 0x4038 then x.inflight.length
  else if 0x4040 ≤ off ∧ off < 0x4090 then
    let v := (lget 0 x.counters ((off - 0x4040) / 8)).toNat
    if off % 8 = 0 then lo32 v else hi32 v
  else 0
def State.msiView (s : State) (port off : Nat) : Nat :=
  let e := tget {} (s.port port).msix ((off - 0x8000) / 16)
  let r := off % 16
  if r = 0 then e.addrLo.toNat else if r = 4 then e.addrHi.toNat else if r = 8 then e.data.toNat else b2n e.mask

/-! ### PWR_, CLK_, TEL_, EVT_, MTR_ -/

def swCode : SwSt → Nat
  | .on => 0
  | .softstart => 1
  | .off => 2
  | .isolated => 3
/-- The site that PWR_SITESEL selects. -/
def Port.selSite (p : Port) : Nat := bitsOf p.sitesel 8 4 * 16 + bitsOf p.sitesel 3 0
/-- PWR_PACE.THROTTLED and the rest of PWR_PACE, PWR_PTAG, PWR_PBUD and PWR_PCMD (R433). -/
def State.paceView (s : State) (p r : Nat) : Nat :=
  let q := s.partn p
  if r = 0 then b2n q.lock * 2 ^ 31 + b2n q.engaged * 2 ^ 30 + q.lockstep * 2 ^ 24 + q.throttled * 2 ^ 8 + q.slow
  else if r = 4 then
    let occ := match (s.partSites p).filterMap s.logical with
      | [] => 0
      | S :: l => (s.means p q.tag (lmin S l)).length
    occ * 2 ^ 8 + q.tag
  else if r = 8 then
    lsum ((s.partSites p).map fun x => (s.site x).ctl.demand) / 1000 * 2 ^ 16 + lsum ((s.partSites p).map fun x => (s.site x).ctl.budget) / 1000
  else b2n q.perr * 2 ^ 31
/-- The registers of the site selected by PWR_SITESEL (R407, R434); nothing is selected beyond the 272 sites. -/
def State.pwrSite (s : State) (p off : Nat) : Nat :=
  let x := s.site p
  if 272 ≤ p then 0
  else if off = 0x10200 then min 65535 (x.ctl.demand / 100) * 2 ^ 16 + min 65535 (x.ctl.budget / 100)
  else if off = 0x10204 then
    let k := x.kNow
    (if k < 16 then 2 else if 0 < x.ctl.bubble then 1 else 0) * 2 ^ 30 + x.clk.paceLim * 2 ^ 24 + k * 2 ^ 19 + min 255 (x.ctl.bubble * 4) * 2 ^ 8
      + x.clk.capLim * 2 ^ 4 + x.clk.thmLim
  else if off = 0x10208 then x.thm.tComp % 256 * 2 ^ 24 + x.thm.tSram % 256 * 2 ^ 16 + x.thm.tBase % 256 * 2 ^ 8 + x.thm.tMax % 256
  else if off = 0x1020C then x.tstate * 2 ^ 29 + x.thm.throttles.toNat
  else if off = 0x10824 then
    swCode x.pwr.sw * 2 ^ 29 + b2n x.pwr.pathLim * 2 ^ 28 + b2n x.clk.bankPath * 2 ^ 27 + x.pwr.phFail.toNat * 2 ^ 12 + (if x.pwr.pathLim then 80 else 0xFF)
  else if off = 0x10828 then x.pwr.vc * 2 ^ 16 + x.pwr.vs
  else if off = 0x1082C then (x.pwr.pathBase.getD (Config.pathBaseline p)).toNat * 2 ^ 16 + min 65535 x.pwr.pathRatio
  else 0
def State.pwrView (s : State) (port off : Nat) : Nat :=
  let w := s.pwr
  let p := s.port port
  if off = 0x10000 then b2n s.cap.capErr * 2 ^ 31 + s.cap.cap
  else if off = 0x10004 then s.cap.pool / 1000 % 65536 * 2 ^ 16 + s.cap.ppanel / 1000 % 65536
  else if off = 0x10008 then lo32 s.cap.energy
  else if off = 0x1000C then hi32 s.cap.energy
  else if off = 0x10010 then
    b2n (match s.cap.lastAlloc with
      | some t => decide (s.time ≤ t + 2 * ms)
      | none => false) * 2 ^ 31 + b2n s.cap.static_ * 2 ^ 30
  else if off = 0x10040 then s.cap.tthr
  else if 0x10100 ≤ off ∧ off < 0x10200 then s.paceView ((off - 0x10100) / 0x10) ((off - 0x10100) % 0x10)
  else if off = 0x10800 then b2n w.warn * 2 ^ 31 + b2n w.stopped * 2 ^ 30 + w.vin % 65536
  else if off = 0x10804 then w.warns.toNat * 2 ^ 16 + w.vmin % 65536
  else if off = 0x10810 then p.grpsel.toNat
  else if off = 0x10814 then
    let c := tget {} w.convs p.grpsel.toNat
    (if c.st = 3 then 0 else c.st) * 2 ^ 30 + c.pout % 65536
  else if off = 0x10818 then (tget {} w.convs p.grpsel.toNat).budget
  else if off = 0x10820 then p.sitesel.toNat
  else if off = 0x10830 then b2n w.cmdErr * 2 ^ 31 + w.cmdCode * 2 ^ 28
  else s.pwrSite p.selSite off
def State.clkView (s : State) (off : Nat) : Nat :=
  let c := s.clk
  if off < 0x14040 then (s.partn ((off - 0x14000) / 4)).ceil
  else if off = 0x14040 then
    let out := (allSites.filter fun p => let x := s.site p
      x.st != .dark && (x.clk.decoupled || x.clk.freeRun)).length
    b2n c.refA * 2 ^ 31 + b2n c.refB * 2 ^ 30 + b2n c.holdover * 2 ^ 29 + b2n c.locked * 2 ^ 28 + out
  else if off = 0x14044 then c.sitesel
  else if off = 0x14048 then s.scStep (s.phys c.sitesel)
  else if off = 0x1404C then b2n c.bankErr * 2 ^ 31 + c.bankS
  else 0
def State.telView (s : State) (off : Nat) : Nat :=
  let r := s.host.tel
  if off = 0x18000 then lo32 r.base + r.log2
  else if off = 0x18004 then hi32 r.base
  else if off = 0x18008 then b2n r.en * 2 ^ 31 + b2n r.irqEn * 2 ^ 30 + r.port * 2 ^ 26 + r.kmask.toNat * 2 ^ 16 + r.vec
  else if off = 0x1800C then lo32 r.shadow
  else if off = 0x18010 then hi32 r.shadow
  else if off = 0x18014 then r.tail.toNat
  else if off = 0x18018 then r.head.toNat
  else if off = 0x1801C then r.lost.toNat
  else 0
def State.evtView (s : State) (port off : Nat) : Nat :=
  let r := s.host.evt
  if off = 0x1C000 then lo32 r.base + r.log2
  else if off = 0x1C004 then hi32 r.base
  else if off = 0x1C008 then b2n r.en * 2 ^ 31 + b2n r.irqEn * 2 ^ 30 + r.port * 2 ^ 26 + r.vec
  else if off = 0x1C00C then r.tail.toNat
  else if off = 0x1C010 then r.head.toNat
  else if off = 0x1C014 then r.lost.toNat
  else if off = 0x1C018 then b2n (s.port port).alertEn * 2 ^ 31 + (s.port port).avec
  else 0
/-- The record window, or the meter's public key (R513). -/
def State.mtrWin (s : State) (port k : Nat) : Nat :=
  let p := s.port port
  if bitOf p.wpage 0 then (if k < 1952 ∧ s.mtr.keyOk = true then leWord ((meterPub.drop k).take 4) else 0)
  else match p.mwst, p.mwrec with
    | 2, some (r, rx) => leWord (((slotBytes r rx).drop k).take 4)
    | _, _ => 0
def State.mtrView (s : State) (port off : Nat) : Nat :=
  let x := s.mtr
  let p := s.port port
  if off = 0x20000 then s.mtrStat
  else if off = 0x20004 then lo32 x.newest
  else if off = 0x20008 then hi32 x.newest
  else if off = 0x2000C then lo32 x.oldest
  else if off = 0x20010 then hi32 x.oldest
  else if off = 0x20014 then p.mselLo.toNat
  else if off = 0x20018 then p.mselHi.toNat
  else if off = 0x2001C then p.mtrWstat
  else if off = 0x20020 then p.wpage.toNat
  else if off = 0x20024 then x.badsig.toNat
  else if off = 0x20030 then lo32 x.rbase
  else if off = 0x20034 then hi32 x.rbase
  else if off = 0x20038 then x.rcfg
  else if off = 0x2003C then x.rtail.toNat
  else if off = 0x20040 then x.rhead.toNat
  else if off = 0x20044 then x.rlost.toNat
  else if 0x21000 ≤ off ∧ off < 0x22000 then s.mtrWin port (off - 0x21000)
  else 0

/-! ### CAS_, SPI_ -/

def State.casView (s : State) (off : Nat) : Nat :=
  let r := s.rick
  let memb (base : Nat) : Nat := if r.master then lsum ((s.members.filter fun m => decide (base ≤ m ∧ m < base + 32)).map fun m => 2 ^ (m - base)) else 0
  if off = 0x24000 then b2n r.master * 2 ^ 31 + b2n r.inrick * 2 ^ 30 + b2n r.tsync * 2 ^ 29 + b2n r.conflict * 2 ^ 28 + r.panel
  else if off = 0x24004 then lo32 s.time
  else if off = 0x24008 then hi32 s.time
  else if off = 0x2400C then b2n r.busy * 2 ^ 31 + b2n r.err * 2 ^ 30 + r.context * 2 ^ 16
  else if off = 0x24010 then memb 0
  else if off = 0x24014 then memb 32
  else if 0x24100 ≤ off ∧ off < 0x24200 then
    let c := s.cas ((off - 0x24100) / 8)
    if off % 8 = 0 then b2n c.en * 2 ^ 31 + c.maxw * 2 ^ 29 + c.maxr * 2 ^ 27 + b2n c.detok * 2 ^ 26
    else c.st * 2 ^ 29 + c.width * 2 ^ 27 + c.rate * 2 ^ 25 + b2n c.fec * 2 ^ 24 + b2n c.spare * 2 ^ 23 + c.ppanel * 2 ^ 10 + c.pport * 2 ^ 5
  else if 0x24200 ≤ off ∧ off < 0x24300 then
    let q := (off - 0x24200) / 4
    let e := Config.rickRoute r.gen q
    if r.routed.contains q then 2 ^ 31 + bitsOf e 11 6 * 2 ^ 8 + bitsOf e 5 0 else 0
  else 0
/-- A learned entry as it is written: header word 0, CHK, payload (R456). -/
def Learned.written (e : Learned) : List Byte :=
  e.head ++ leBytes 8 e.chk.toNat ++ e.body
/-- A log record as it is written: four little-endian words (R457). -/
def LogRec.written (r : LogRec) : List Byte := [r.w0, r.w1, r.w2, r.w3].flatMap fun w => leBytes 8 w.toNat
/-- The bytes of a section that SPI_WSEL selects, from an offset; the half header of the learned section is free, its layout not being given (log entry 28). -/
def Spi.window (p : Spi) (sec at_ : Nat) : List Byte :=
  if sec = 0 then (match p.inUse with
    | some c => ((copyHead c.seq c.fields ++ c.digest ++ c.sig).drop at_).take 4
    | none => [])
  else if sec = 1 then (if at_ < 512 then memGetList p.staging at_ 4 else [])
  else if sec = 2 then
    (if at_ < 64 then (rangeFrom at_ 4).map Config.freeByte else (((p.learned.map Learned.written).flatten).drop (at_ - 64)).take 4)
  else match p.logAt (at_ / 32) with
    | some r => (r.written.drop (at_ % 32)).take 4
    | none => List.replicate 4 0xFF
def State.spiView (s : State) (off : Nat) : Nat :=
  let p := s.spi
  if off = 0x28000 then
    bootStageCode p.stage * 2 ^ 28 + b2n p.setdef * 2 ^ 27 + b2n p.lrlost * 2 ^ 26 + b2n p.svbok * 2 ^ 25 + b2n p.strap * 2 ^ 24 + (if s.down_ then p.cause else 0) * 2 ^ 16
  else if off = 0x28004 then p.bootMs
  else if off = 0x28008 then p.bootNum.toNat
  else if off = 0x2800C then bitsOf Config.spiDev 31 24 * 2 ^ 24 + min 104 (bitsOf Config.spiDev 23 16) * 2 ^ 16
  else if off = 0x28010 then p.runField 0xC 4 % 65536 * 2 ^ 16 + p.runField 4 4 % 65536
  else if off = 0x28014 then s.ses.svnMin
  else if 0x28020 ≤ off ∧ off < 0x28040 then leWord ((p.runDig.drop (off - 0x28020)).take 4)
  else if off = 0x28040 then lo32 p.upBase
  else if off = 0x28044 then hi32 p.upBase
  else if off = 0x28048 then p.upLen
  else if off = 0x28050 then p.wsel.toNat
  else if off = 0x28058 then p.cmdStat
  else if off = 0x2805C then p.logCnt.toNat
  else if 0x29000 ≤ off ∧ off < 0x2A000 then leWord (p.window (bitsOf p.wsel 31 30) (bitsOf p.wsel 11 0 * 4096 + (off - 0x29000)))
  else 0

/-! ### HLT_ (R491, R526, R528), DBG_ -/

def svCode : SvSt → Nat
  | .active => 0
  | .standby => 1
  | .failed => 2
  | .resetting => 3
def State.hltTile (s : State) (t off : Nat) : Nat :=
  let T := s.tile t
  let p := s.tilePhys t
  let tr := tileTR t
  if off = 0x30004 then
    tileStCode T.st * 2 ^ 30 + b2n T.cand * 2 ^ 29 + b2n T.retest * 2 ^ 28 + b2n T.defer_ * 2 ^ 27 + b2n (s.posBad p tr (s.tilePos t)) * 2 ^ 26
      + T.lastCause % 256 * 2 ^ 16 + T.score
  else if off = 0x30008 then
    p / 16 * 2 ^ 27 + p % 16 * 2 ^ 23 + tr * 2 ^ 20 + s.tilePos t * 2 ^ 15 + (s.site p).sparePos tr * 2 ^ 10 + b2n (s.spareOk t) * 2 ^ 9
      + ((rangeFrom 0 16).filter fun tc => (s.tile (t / 16 * 16 + tc)).st == .hole).length * 2 ^ 4
  else match tget none s.hlt.rowRet (s.rowKey t) with
    | some at_ => min 0xFFFFFFFF ((s.time - at_) / sec)
    | none => 0xFFFFFFFF
/-- HLT_RMAP0 to HLT_RMAP2 (R18, R23). -/
def State.rmap (s : State) (sel : W32) (j : Nat) : Nat :=
  let tile := bitOf sel 31
  let x := bitsOf sel 11 4
  let tr := bitsOf sel 2 0
  let row := if tile then (s.site (s.phys x)).tmapRow tr else s.smapRow (x % 16)
  let spare := if tile then (s.site (s.phys x)).sparePos tr else s.spareCol (x % 16)
  let bad := if tile then s.posBad (s.phys x) tr spare else (s.site (spare * 16 + x % 16)).st == .dark
  lsum ((rangeFrom 0 6).map fun i => if 6 * j + i < 16 then lget 0 row (6 * j + i) * 2 ^ (5 * i) else 0) + (if j = 2 then spare * 2 ^ 20 + b2n bad * 2 ^ 25 else 0)
/-! The in-doubt entries of a link-down record (R528). -/

def doubtLo (p : Packet) : Nat := p.seq.toNat * 2 ^ 16 + opcCode p.opc * 2 ^ 12 + p.ctx
/-- The source of a packet: its panel, whether it is an edge or service die, core, tracker of a READ, and number. -/
def doubtHi (p : Packet) : Nat :=
  let a := p.src
  let edge := aSpace a == 5
  aPanel a * 2 ^ 26 + b2n edge * 2 ^ 25 + (if edge then 0 else bitsOf a 6 5) * 2 ^ 23 + (if edge ∨ p.opc ≠ .read then 0 else bitsOf a 4 0) * 2 ^ 18
    + (if edge then aEdge a else aTile a)
def State.hltView (s : State) (port off : Nat) : Nat :=
  let h := s.hlt
  let p := s.port port
  let d := lget? h.defects p.dsel.toNat
  let cnt := (s.site (bitsOf p.ssel 8 4 * 16 + bitsOf p.ssel 3 0)).cnt
  let dark := (s.site (bitsOf p.ssel 8 4 * 16 + bitsOf p.ssel 3 0)).st == .dark
  let c (f : SiteCnt → W32) : Nat := if dark then 0 else (f cnt).toNat
  if off = 0x30000 then p.tsel.toNat
  else if off ≤ 0x3000C then s.hltTile p.tsel.toNat off
  else if off = 0x30010 then b2n h.busy * 2 ^ 31 + b2n h.err * 2 ^ 30 + h.ecode * 2 ^ 26 + h.target
  else if off = 0x30014 then h.cmdarg.toNat
  else if off = 0x30020 then h.retthr * 2 ^ 16 + h.susthr * 2 ^ 8 + b2n h.auto * 2 ^ 7 + h.suscad * 2 ^ 4 + h.cadence
  else if off = 0x30024 then b2n h.holds * 2 ^ 31 + h.promise.toNat
  else if off = 0x30030 then b2n h.grantEn * 2 ^ 31 + h.grantS0 * 2 ^ 16 + h.grantS1 * 2 ^ 8 + h.grantMin
  else if off = 0x30034 then b2n h.grantOpen * 2 ^ 31 + h.swept % 512
  else if off = 0x30040 then svCode h.sva * 2 ^ 30 + svCode h.svb * 2 ^ 28 + h.failovers.toNat
  else if off = 0x30050 then p.rsel.toNat
  else if 0x30054 ≤ off ∧ off < 0x30060 then s.rmap p.rsel ((off - 0x30054) / 4)
  else if off = 0x30060 then p.dsel.toNat
  else if off = 0x30064 then h.defects.length
  else if off = 0x30068 then (match d with
    | some d => lo32 d.word0.toNat
    | none => 0)
  else if off = 0x3006C then (match d with
    | some d => hi32 d.word0.toNat
    | none => 0)
  else if off = 0x30070 then (match d with
    | some d => d.src
    | none => 0)
  else if off = 0x30074 then (match d with
    | some d => d.seq.toNat
    | none => 0)
  else if off = 0x30100 then p.ssel.toNat
  else if off = 0x30104 then c (·.spart)
  else if off = 0x30108 then c (·.sdrop)
  else if off = 0x3010C then c (·.snoroute)
  else if off = 0x30110 then c (·.shop)
  else if off = 0x30114 then c (·.spar)
  else if off = 0x3011C then c (·.sstale)
  else if off = 0x30120 then p.esel.toNat
  else if off = 0x30124 then (tget 0 s.fab.estale p.esel.toNat).toNat
  else if off = 0x30128 then (tget 0 s.fab.epart p.esel.toNat).toNat
  else if off = 0x30140 then s.fab.lcnt.toNat
  else if off = 0x30144 then p.lsel.toNat
  else match p.lview with
    | none => if 0x30200 ≤ off ∧ off < 0x30210 then (s.port ((off - 0x30200) / 4)).dbdrop.toNat else 0
    | some r =>
      if off = 0x30148 then r.word
      else if off = 0x3014C then lo32 r.time
      else if off = 0x30150 then hi32 r.time
      else if 0x30160 ≤ off ∧ off < 0x301E0 then
        (match lget? r.doubt ((off - 0x30160) / 8) with
        | some q => if off % 8 = 0 then doubtLo q else doubtHi q
        | none => 0)
      else if 0x30200 ≤ off ∧ off < 0x30210 then (s.port ((off - 0x30200) / 4)).dbdrop.toNat
      else 0
def State.dbgView (s : State) (off : Nat) : Nat :=
  let d := s.dbg
  if off = 0xF0000 then b2n d.locked * 2 ^ 31
  else if off = 0xF0004 then d.dctr * 2 ^ 16 + d.ctx
  else if off = 0xF0008 then lo32 d.addr.toNat
  else if off = 0xF000C then hi32 d.addr.toNat
  else if off = 0xF0010 then (if d.locked then 0 else lo32 d.data.toNat)
  else if off = 0xF0014 then (if d.locked then 0 else hi32 d.data.toNat)
  else if off = 0xF0018 then d.acc
  else 0

/-! ### A read (R289, R462, R516, R517, R535) -/

/-- What ports 1 to 3 show (R535). -/
def shown (off : Nat) : Bool :=
  decide (off < 0x2000) || decide (0x4000 ≤ off ∧ off < 0x14000) || off == 0x18014 || off == 0x18018 || off == 0x1801C
    || off == 0x1C00C || off == 0x1C010 || off == 0x1C014 || off == 0x1C018
    || (decide (0x20000 ≤ off ∧ off < 0x24000) && off != 0x20030 && off != 0x20034 && off != 0x20038)
    || decide (0x30000 ≤ off ∧ off < 0x31000)
/-- The register at an aligned offset as a port shows it, latches aside. -/
def State.bar0 (s : State) (port off : Nat) : Nat :=
  if s.down_ = true ∧ ¬ (port = 0 ∧ (off < 0x1000 ∨ (0x28000 ≤ off ∧ off < 0x30000) ∨ (s.inRecovery = false ∧ 0x30000 ≤ off ∧ off < 0x31000))) then 0
  else if port ≠ 0 ∧ shown off = false then 0
  else if port ≠ 0 ∧ s.svRuns = false ∧ off ≠ 0x30040 then 0
  else if off < 0x1000 then s.idView port off
  else if off < 0x2000 then s.sesView port off
  else if off < 0x4000 then s.prtView off
  else if off < 0x8000 then s.ctxView port off
  else if off < 0x10000 then s.msiView port off
  else if off < 0x14000 then s.pwrView port off
  else if off < 0x18000 then s.clkView off
  else if off < 0x1C000 then s.telView off
  else if off < 0x20000 then s.evtView port off
  else if off < 0x24000 then s.mtrView port off
  else if off < 0x28000 then s.casView off
  else if off < 0x30000 then s.spiView off
  else if off < 0x31000 then s.hltView port off
  else if 0xF0000 ≤ off ∧ off < 0xF0020 then s.dbgView off
  else 0
/-- The LO registers whose read latches the HI beside them (R517). -/
def latching (off : Nat) : Bool :=
  off == 0x08 || off == 0x24 || (decide (0x4040 ≤ off ∧ off < 0x4090) && off % 8 == 0) || off == 0x10008 || off == 0x20004 || off == 0x2000C || off == 0x24004
    || off == 0x3014C
/-- A 32-bit read at an aligned offset: a read of LO latches HI, and a read of HI returns the port's latch (R517). -/
def State.read32 (s : State) (port off : Nat) : State × W32 :=
  if latching off then
    (s.modPort port fun p => { p with latch := tput 0 p.latch (off + 4) (BitVec.ofNat 32 (s.bar0 port (off + 4))) }, BitVec.ofNat 32 (s.bar0 port off))
  else if latching (off - 4) ∧ 4 ≤ off then (s, tget 0 (s.port port).latch off)
  else (s, BitVec.ofNat 32 (s.bar0 port off))
/-- A 64-bit read takes LO first (R516, R517). -/
def State.read64 (s : State) (port off : Nat) : State × W64 :=
  let (s, a) := s.read32 port off
  let (s, b) := s.read32 port (off + 4)
  (s, b.setWidth 64 <<< 32 ||| a.setWidth 64)
/-- A read of BAR0 of 1, 2, 4 or 8 bytes within 8 aligned ones: a narrower read returns the addressed bytes (R516). -/
def State.readBar0 (s : State) (port off width : Nat) : State × W64 :=
  if off % 4 + width ≤ 4 then
    let (s, a) := s.read32 port (off / 4 * 4)
    (s, BitVec.ofNat 64 (a.toNat / 2 ^ (8 * (off % 4)) % 2 ^ (8 * width)))
  else
    let (s, a) := s.read64 port (off / 8 * 8)
    (s, BitVec.ofNat 64 (a.toNat / 2 ^ (8 * (off % 8)) % 2 ^ (8 * width)))
/-- A read of BAR2: the doorbell page (R290) and the pending-bit array (R536). -/
def State.bar2 (s : State) (port off : Nat) : Nat :=
  let c := off / 0x1000
  let r := off % 0x1000
  if s.down_ then 0
  else if c < 3072 then
    let x := s.ctx c
    if r = 0 then x.sqTail.toNat else if r = 8 then x.cqHead.toNat else if r = 0x10 then x.statusWord (s.port port).err (s.port port).ecode else 0
  else if off < 0xC00100 then
    lsum ((rangeFrom 0 32).map fun i => b2n (tget {} (s.port port).msix ((off - 0xC00000) / 4 * 32 + i)).pend * 2 ^ i)
  else 0

end Sys2Proof.Machine
end

