-- ==== Sys2Proof/Safety.lean ====
section
/-! DEFINITION. What counts as a safe run, in the terms that statements use. -/

namespace Sys2Proof.Safety

open Sys2Proof.Machine

/-- The outcome is this next state. -/
def Goes (o : Out) (t : State) : Prop := o = .next t
/-- The outcome is some next state with a property. -/
def GoesTo (o : Out) (P : State → Prop) : Prop := ∃ t, o = .next t ∧ P t
/-- The fused owner key hash and the fused minimum SVN (R497): what no step may lower or clear. -/
def FusesKept (s t : State) : Prop := (∀ h, s.ses.owner = some h → t.ses.owner = some h) ∧ s.ses.svnMin ≤ t.ses.svnMin
/-- The meter's broken seal stays broken (R511). -/
def SealKept (s t : State) : Prop := s.mtr.sealBit = true → t.mtr.sealBit = true
/-- The parts of the state that commands change, by the field of `State` that holds them. -/
inductive Blk where
  | time | freeN | tiles | sites | fab | chans | bev | host | parts | rick | clk | pwr | cap | spi | hlt | ses | mtr | dbg
deriving DecidableEq, Repr
/-- The state with the parts named blanked out: two states that agree here differ at most in those parts. The queue is never blanked. -/
def outsideOf (bs : List Blk) (s : State) : State :=
  { pending := s.pending
    time := if Blk.time ∈ bs then 0 else s.time
    freeN := if Blk.freeN ∈ bs then 0 else s.freeN
    tiles := if Blk.tiles ∈ bs then [] else s.tiles
    sites := if Blk.sites ∈ bs then [] else s.sites
    fab := if Blk.fab ∈ bs then {} else s.fab
    chans := if Blk.chans ∈ bs then [] else s.chans
    bev := if Blk.bev ∈ bs then [] else s.bev
    bevMode := if Blk.bev ∈ bs then 0 else s.bevMode
    host := if Blk.host ∈ bs then {} else s.host
    parts := if Blk.parts ∈ bs then [] else s.parts
    rick := if Blk.rick ∈ bs then {} else s.rick
    clk := if Blk.clk ∈ bs then {} else s.clk
    pwr := if Blk.pwr ∈ bs then {} else s.pwr
    cap := if Blk.cap ∈ bs then {} else s.cap
    spi := if Blk.spi ∈ bs then {} else s.spi
    hlt := if Blk.hlt ∈ bs then {} else s.hlt
    ses := if Blk.ses ∈ bs then {} else s.ses
    mtr := if Blk.mtr ∈ bs then {} else s.mtr
    dbg := if Blk.dbg ∈ bs then {} else s.dbg }
/-- Nothing changes but the parts named. -/
def Only (bs : List Blk) (s t : State) : Prop := outsideOf bs t = outsideOf bs s
/-- Whenever the command answers a next state, only the parts named can differ. -/
def Changes (bs : List Blk) (c : Instr) : Prop := ∀ s u : State, exec c s = .next u → Only bs s u
/-! ### When commands apply -/

/-- A register write through a port arrives, and an open session is bound to the port (R503). -/
def Managed (s : State) (port : Nat) : Prop := s.reach port = true ∧ s.hasSession port = true
/-- A gated write through port 0 to a unit that a running service die serves (R482, R503). -/
def Served (s : State) : Prop := Managed s 0 ∧ s.svRuns = true
/-- HLT_CMD is taken: no command of it runs (R475, R491). -/
def HltFree (s : State) : Prop := Served s ∧ s.hlt.busy = false
/-- HLT_CMD has taken the word `v`: its target, and no error so far (R491). -/
def hltTaken (s : State) (v : W32) : State := (s.modHlt fun h => { h with target := bitsOf v 14 0 }).modHlt fun h => { h with err := false, ecode := 0 }
/-- SPI_CMD is taken with a session (R461, R463). -/
def SpiFree (s : State) : Prop := s.spiReach 0 = true ∧ s.hasSession 0 = true ∧ s.spi.running = false
/-- A command of SES_CMD reaches the active service die (R507). -/
def SesReach (s : State) (port : Nat) : Prop := port < 4 ∧ s.reach port = true ∧ s.svRuns = true
/-- The next descriptor of a context is `d`, with opcode `k`, and it may start and has its turn (R304, R306, R308). -/
def Starts (s : State) (c : Nat) (d : Desc) (k : Nat) : Prop :=
  c < 3072 ∧ s.nextDesc c = some d ∧ s.mayStart c d = true ∧ s.hasTurn (portEdge (s.ctx c).cfg.port) c = true ∧ d.opc = k
/-- A descriptor has gone in flight with its progress, and its edge die's turn has passed on (R306, R321); a reserved field that is not 0 leaves free values in the
partition (R331). -/
def started (s : State) (c : Nat) (d : Desc) (prog : Prog) : State :=
  let x := s.ctx c
  ((s.setCtx c { x with ready := x.ready.filter fun e => e.n != d.n, inflight := x.inflight ++ [{ d, prog, fin := none }],
                        wdogAt := if x.inflight.isEmpty then s.time else x.wdogAt }).modHost fun h =>
    { h with turns := tput 0 h.turns (portEdge x.cfg.port) ((c + 1) % 3072) }).wildDesc c (decide (d.opc ≤ 10) && d.reservedBad)
/-- A doorbell write through the port of a context that is not FREE (R291). -/
def RingsAt (s : State) (port c : Nat) : Prop := s.reach port = true ∧ c < 3072 ∧ (s.ctx c).st ≠ .free ∧ (s.ctx c).cfg.port = port
/-- A running core stands at the Xthrumrak instruction `x`, word `w` (R184). -/
def XtAt (s : State) (t c : Nat) (x : Xt) (w : Nat) : Prop := t < 32768 ∧ coreRuns s t c = true ∧ (s.tile t).fetch c = .ins w 4 ∧ xtOf w = some x
/-- A running engine that is not halted has `c`, of operation `n`, at the head of its queue, and it may dispatch with the array's youngest MMA streamed so far as
`st` says (R50, R51, R77). -/
def Heads (s : State) (t : Nat) (st : Stream) (c : EngCmd) (n : Nat) : Prop :=
  t < 32768 ∧ s.runs t = true ∧ (s.tile t).eng.halt = false ∧ (∃ l, (s.tile t).eng.queue = c :: l) ∧ (s.tile t).eng.mayDispatch st c = true ∧ c.op = n
/-- A packet's endpoint is told of its context's restart, where one runs (R222, R223). -/
def toldAt (s : State) (f : Flight) (t : Nat) : State := s.tell (s.tilePhys t) f.pkt.ctx
/-- A request has arrived at tile `t`, which serves it (R28, R222, R225). -/
def AtTile (s : State) (i : Nat) (f : Flight) (t : Nat) : Prop :=
  s.flight i = some f ∧ f.goal = .tile t ∧ f.arrived (s.tilePhys t) = true ∧ (toldAt s f t).tileFate t f.pkt = .serve
/-- A response has arrived at tile `t`, whose clock runs, in its partition (R226). -/
def RespAt (s : State) (i : Nat) (f : Flight) (t : Nat) : Prop :=
  s.flight i = some f ∧ f.goal = .tile t ∧ f.arrived (s.tilePhys t) = true ∧ s.parksTile t = false ∧ (s.tileSt t).part = some f.pkt.spart
/-- A request has arrived at its first-stop slice, with partition and epoch in order (R222, R225, R262). -/
def AtSlice (s : State) (i : Nat) (f : Flight) (p : Nat) : Prop :=
  s.flight i = some f ∧ f.goal = .slice p ∧ f.arrived p = true ∧ f.fill = none ∧ (s.site p).part = some f.pkt.spart ∧ (s.tell p f.pkt.ctx).staleCtx p f.pkt.ctx f.pkt.epoch = false
/-- A maintenance command is the oldest of a site that has power (R270). -/
def Maintains (s : State) (p : Nat) (q : Packet) : Prop := p < 272 ∧ (∃ l, (s.site p).cache.mq = q :: l) ∧ (s.site p).st ≠ .dark

/-! ### Memories -/

/-- Every memory of a tile is in canonical form. -/
def TileMemOk (t : Tile) : Prop := Memory.wf t.sram = true ∧ Memory.wf t.scr = true ∧ Memory.wf t.scrCopy = true
/-- Every memory of the panel is in canonical form: tiles, channels, serial memory, session buffers. -/
def MemOk (s : State) : Prop :=
  (∀ n, TileMemOk (s.tile n)) ∧ (∀ c, Memory.wf (s.chan c).dram = true) ∧ Memory.wf s.spi.image = true ∧ Memory.wf s.spi.staging = true ∧
    Memory.wf s.spi.upBuf = true ∧ ∀ p, Memory.wf (s.port p).buf = true

end Sys2Proof.Safety
end

