-- ==== Sys2Proof/WellFormed.lean ====
section
/-! DEFINITION. Which operands of a command name something that the panel has. A command outside these ranges changes nothing. -/

namespace Sys2Proof

open Sys2Proof.Machine

/-- A tile number (R16). -/
def okTile (t : Nat) : Bool := decide (t < 32768)
/-- A core of a tile (R171). -/
def okCore (c : Nat) : Bool := decide (c < 4)
/-- A host port (R285). -/
def okPort (p : Nat) : Bool := decide (p < 4)
/-- A physical site position PC × 16 + PR (R23). -/
def okSite (p : Nat) : Bool := decide (p < 272)
/-- A context (R293). -/
def okCtx (c : Nat) : Bool := decide (c < 3072)
/-- A partition (R332). -/
def okPart (p : Nat) : Bool := decide (p < 16)
/-- A DDR channel (R273). -/
def okChan (c : Nat) : Bool := decide (c < 32)
/-- A panel number (R346). -/
def okPanel (p : Nat) : Bool := decide (p < 64)
/-- A session entry (R507). -/
def okEntry (e : Nat) : Bool := decide (e < 4)
/-- An edge id of R12. -/
def okEdge (e : Nat) : Bool := edgeValid e
/-- A reference input: 0 REFCLK-A, 1 REFCLK-B, 2 both at once, or that of a memory or cascade edge die by its edge id (R364, R375, R383). -/
def okInput (i : Nat) : Bool := decide (i < 3 ∨ (8 ≤ i ∧ i < 0x18))
/-- An MSI-X vector (R530). -/
def okVec (v : Nat) : Bool := decide (v < 2048)
/-- A PCIe edge die. -/
def okPe (p : Nat) : Bool := decide (p < 2)
/-- A cascade port (R353). -/
def okCas (n : Nat) : Bool := decide (n < 32)
/-- A tracker of a tile (R226). -/
def okTrk (k : Nat) : Bool := decide (k < 32)
/-- A clock step (R368). -/
def okStep (k : Nat) : Bool := decide (k < 16)
/-- A break-even register (R121). -/
def okBev (k : Nat) : Bool := decide (k < 8)
/-- A route table entry: 256 sites, 64 edge dies, 64 panels (R229). -/
def okRoute (i : Nat) : Bool := decide (i < 384)
/-- A barrier ID (R361). -/
def okBarrier (i : Nat) : Bool := decide (i < 64)
/-- The end of an update: 0, 9 or 10 (R463). -/
def okResult (r : Nat) : Bool := decide (r = 0 ∨ r = 9 ∨ r = 10)
/-- A bus converter (R385). -/
def okConv (g : Nat) : Bool := decide (g < 34)
/-- A cell of R489. -/
def okCell (c : Nat) : Bool := decide (c < 30)
/-- What a retest names: a tile, or from 32,768 a row of tiles of a physical site (log entry 102). -/
def okRetest (t : Nat) : Bool := decide (t < 32768 + 272 * 8)
/-- A phase of a stage (R387). -/
def okPhase (p : Nat) : Bool := decide (p < 12)
/-- Bytes of a register write (R516). -/
def okWidth (w : Nat) : Bool := decide (w = 1 ∨ w = 2 ∨ w = 4 ∨ w = 8)
/-- An offset of BAR 0 (1 MiB) or BAR 2 (16 MiB) (R289), or of the configuration space (4 KiB; log entry 93). -/
def okBar (bar off : Nat) : Bool := decide ((bar = 0 ∧ off < 0x100000) ∨ (bar = 2 ∧ off < 0x1000000) ∨ (bar = 6 ∧ off < 0x1000))
/-- A mesh link of a physical site (R240). -/
def okLink (l : LinkId) : Bool := decide (l.site < 272 ∧ l.row < 8 ∧ l.pos < 17)

/-- The well-formed commands. -/
def Instr.wf : Instr → Bool
  | .rvInstruction t c _ => okTile t && okCore c
  | .ecallExit t c => okTile t && okCore c
  | .coreDone t c => okTile t && okCore c
  | .xtPut t c => okTile t && okCore c
  | .xtGet t c => okTile t && okCore c
  | .xtProbe t c => okTile t && okCore c
  | .xtEnq t c => okTile t && okCore c
  | .xtCset t c => okTile t && okCore c
  | .xtCadd t c => okTile t && okCore c
  | .xtCarm t c => okTile t && okCore c
  | .xtCwait t c => okTile t && okCore c
  | .cwaitResume t c => okTile t && okCore c
  | .xtEvt t e => okTile t && okCore e.core
  | .transferPacketIssue t => okTile t
  | .launchStart _ => true
  | .loadTileStart _ => true
  | .loadEnd t => okTile t
  | .loadw t _ => okTile t
  | .mma t _ => okTile t
  | .store t _ => okTile t
  | .zero t _ => okTile t
  | .nop t => okTile t
  | .engineRetire t _ => okTile t
  | .engCtrlClear t => okTile t
  | .write _ => true
  | .writeToOwner _ => true
  | .read _ _ => true
  | .cnt _ => true
  | .rdata _ => true
  | .rerr _ => true
  | .wack _ => true
  | .routerHop _ _ => true
  | .routeEntryRewrite site idx => okSite site && okRoute idx
  | .flitRefused l _ => okLink l
  | .linkUp x => okLink x.link
  | .seamRetrain l _ => okLink l
  | .trackerTimeout t k => okTile t && okTrk k
  | .trackerReuse t k => okTile t && okTrk k
  | .baseDieFault site => okSite site
  | .republish port => okPort port
  | .republishDone => true
  | .listAppend _ => true
  | .listClose _ => true
  | .listArm _ => true
  | .scrubAccess t _ _ => okTile t
  | .cacheRead _ _ _ => true
  | .cacheFillReturn _ => true
  | .cacheWrite _ => true
  | .maintInvalidateLine site => okSite site
  | .maintInvalidateRange site => okSite site
  | .maintInvalidateAll site => okSite site
  | .maintReserved site => okSite site
  | .ddrChannelDown ch => okChan ch
  | .patrolRead ch _ _ _ => okChan ch
  | .ddrRegionCommit port p => okPort port && okPart p
  | .prtBevWrite port k _ => okPort port && okBev k
  | .portDown port => okPort port
  | .portUp port _ => okPort port
  | .functionLevelReset port => okPort port
  | .busMasterDisable port => okPort port
  | .perstRelease port _ => okPort port
  | .hostCompletionTimeout _ => true
  | .sqTail port ctx _ => okPort port && okCtx ctx
  | .cqHead port ctx _ => okPort port && okCtx ctx
  | .descriptorFetch _ _ => true
  | .nopDescriptor ctx => okCtx ctx
  | .copy ctx => okCtx ctx
  | .launch ctx => okCtx ctx
  | .load ctx => okCtx ctx
  | .wait ctx => okCtx ctx
  | .waitPoll ctx _ => okCtx ctx
  | .signal ctx => okCtx ctx
  | .phase ctx => okCtx ctx
  | .barrier ctx => okCtx ctx
  | .fence ctx => okCtx ctx
  | .predict ctx => okCtx ctx
  | .mark ctx => okCtx ctx
  | .reservedOpcode ctx => okCtx ctx
  | .descriptorComplete ctx _ => okCtx ctx
  | .ctxSel port _ => okPort port
  | .configure port => okPort port
  | .release port => okPort port
  | .restart port ctx _ => okPort port && okCtx ctx
  | .restartDone ctx => okCtx ctx
  | .halt port => okPort port
  | .contextFault _ => true
  | .stepWatchdog ctx => okCtx ctx
  | .edgeTrackerTimeout pe _ => okPe pe
  | .evtHead port _ => okPort port
  | .evtCfg port _ => okPort port
  | .msixUnmask port vec _ => okPort port && okVec vec
  | .define port p => okPort port && okPart p
  | .delete port p => okPort port && okPart p
  | .warmReset port p => okPort port && okPart p
  | .warmResetDone p _ _ => okPart p
  | .prtUpdate port p => okPort port && okPart p
  | .cascadeCodeword n cw => okCas n && decide (cw.slots.length ≤ 10)
  | .replayTimeout n => okCas n
  | .cascadePortDown n _ => okCas n
  | .cascadePortUp n _ => okCas n
  | .casPcfg port n _ => okPort port && okCas n
  | .rickAnnounce panel _ via => okPanel panel && okCas via.port
  | .publish port => okPort port
  | .rickRoutes _ => true
  | .rrestart port _ => decide (port ≤ 4)
  | .timebaseSync _ => true
  | .masterLost => true
  | .rickBarrierArrival panel id _ => okPanel panel && okBarrier id
  | .rickBarrierRelease id _ => okBarrier id
  | .clkRefLoss input => okInput input
  | .clkRefRestored input => okInput input
  | .edgeHoldoverExpiry edge => okEdge edge
  | .clkDecoupled site _ => okSite site
  | .clkRecoupled site => okSite site
  | .timeMessage site _ => okSite site
  | .stepChange site k => okSite site && okStep k
  | .railSettled site => okSite site
  | .stepStopEnd site _ => okSite site
  | .clkStepFault site => okSite site
  | .clkCeil port p _ => okPort port && okPart p
  | .bank port _ => okPort port
  | .unbank port _ => okPort port
  | .bankReturn site => okSite site
  | .inputWarn _ _ => true
  | .orderlyStop _ => true
  | .inputHigh _ => true
  | .inputOvervoltage _ => true
  | .inputLoss _ => true
  | .pwrInRestored _ => true
  | .converterFail g => okConv g
  | .phaseLost site ph => okSite site && okPhase ph
  | .reservoirEngage site _ _ => okSite site
  | .fastBubbleEnd site => okSite site
  | .railDip site _ _ _ => okSite site
  | .dipLimitRise site => okSite site
  | .railReset site _ _ => okSite site
  | .inputSwitchOpen site _ _ => okSite site
  | .pathAnomaly site _ => okSite site
  | .clearPath port => okPort port
  | .isolate port => okPort port
  | .restore port => okPort port
  | .softStart site => okSite site
  | .softStartDone site => okSite site
  | .softStartAbandon site => okSite site
  | .softStartRetry site => okSite site
  | .telemetryTick _ _ => true
  | .pwrCap port _ => okPort port
  | .budgetAllocation _ => true
  | .paceLock port p _ => okPort port && okPart p
  | .pacerUpdate site _ _ => okSite site
  | .capLimitUpdate site => okSite site
  | .clearProfiles port p => okPort port && okPart p
  | .profileMirror => true
  | .tempSample site _ => okSite site
  | .thermalTurn => true
  | .thmUnbank site => okSite site
  | .thmOn site => okSite site
  | .telHead port _ => okPort port
  | .telCfg port _ => okPort port
  | .coldPowerOn _ => true
  | .ready => true
  | .svBTakeover => true
  | .panelReset port _ => okPort port
  | .settingsCommit port => okPort port
  | .update port => okPort port
  | .updateDone x => okResult x.result
  | .siteRejoin site => okSite site
  | .siteRejoined site _ _ _ => okSite site
  | .learnedAppend => true
  | .logFlush => true
  | .selfTestSlice t _ => okTile t
  | .healthHourly => true
  | .confirmingRetestDone t _ => okRetest t
  | .remap port _ => okPort port
  | .tileRemapStopEnd site => okSite site
  | .retire port _ => okPort port
  | .keep port _ => okPort port
  | .hole port _ => okPort port
  | .clear port _ => okPort port
  | .treset port _ => okPort port
  | .sreset port _ => okPort port
  | .computeResetDone site x => if site then okSite x else okTile x
  | .svHeartbeat => true
  | .svFailover _ => true
  | .svStandbyLost _ => true
  | .svLost => true
  | .svReset port _ => okPort port
  | .svRestored _ _ => true
  | .sweepGrant port _ => okPort port
  | .marginSweep site _ => okSite site
  | .marginOverdue site => okSite site
  | .loadClassUpdate site _ _ => okSite site
  | .cellCeilingRise site cell => okSite site && okCell cell
  | .hltSclr port _ => okPort port
  | .hltEclr port _ => okPort port
  | .hltDbclr port _ => okPort port
  | .hltLsel port _ => okPort port
  | .challenge port => okPort port
  | .challengeExpiry port => okPort port
  | .sesOpen port => okPort port
  | .lockoutExpiry port => okPort port
  | .sesClose port => okPort port
  | .sessionDeadline entry => okEntry entry
  | .attest port => okPort port
  | .pubkey port => okPort port
  | .armOwner port => okPort port
  | .armSvn port => okPort port
  | .commitFuse port => okPort port
  | .meterRecord _ => true
  | .mtrSeal => true
  | .meterFrame _ => true
  | .mtrLinkLost => true
  | .mtrSelect port _ => okPort port
  | .mtrRhead port _ => okPort port
  | .mtrRcfg port _ => okPort port
  | .dbgRead port => okPort port
  | .dbgWrite port => okPort port
  | .dbgLock port _ => okPort port
  | .dbgTest port _ => okPort port
  | .registerWrite port bar off width _ => okPort port && okBar bar off && okWidth width
  | .hostReadCompletion _ _ => true
  | .pathBaselineFrozen site _ => okSite site
  | .sweepWindowEnd => true
  | .settingsCommitDone => true
  | .deleteDone p => okPart p
  | .rrestartDone => true
  | .fuseArmExpiry port => okPort port

end Sys2Proof
end

