-- ==== Sys2Proof/Certificates/Slice0/Obligations.lean ====
section
/-! DEFINITION. The statements for the provers. First how the panel steps, then what every step keeps, then for each family what its commands can change and where each of
them completes, then rules of the manual about single registers, counters and errors. -/

open Sys2Proof Sys2Proof.Machine Sys2Proof.Safety

/-! ### Steps -/

/-- A step with a command at the front of the queue is that command's effect on the state with the rest of the queue. -/
def Obligations.StepRunsFront : Prop :=
  ∀ (c : Instr) (rest : List Instr) (s : State), step { s with pending := c :: rest } = exec c { s with pending := rest }

/-- With no command waiting a step lets one mesh cycle of 10 ns pass, or nothing where the panel has no power: the model's choice (log entry 1). The timebase then never moves
backward, and where no correction by the master is pending it gains exactly 10 ns. -/
def Obligations.StepIdles : Prop :=
  (∀ s : State, s.pending = [] → step s = .next s.tick) ∧
  (∀ s : State, s.pwr.powered = false → s.tick = s) ∧
  (∀ s : State, s.time ≤ s.tick.time) ∧
  ∀ s : State, s.pwr.powered = true → s.rick.holdNs = 0 → s.rick.slew = 0 → s.tick.time = s.time + 10

/-- Before cold power-on the panel has no power, no command waits, no service die runs, no session is open, no fuse is blown, every core is idle, and every memory
is in canonical form; tile SRAM reads 0 throughout. -/
def Obligations.ResetState : Prop :=
  State.reset.pending = [] ∧ State.reset.pwr.powered = false ∧ State.reset.spi.stage = .rom ∧ State.reset.ses.ents = [] ∧ State.reset.ses.owner = none ∧
  State.reset.svRuns = false ∧ State.reset.mtr.sealBit = false ∧ MemOk State.reset ∧ (∀ t c, (State.reset.core t c).st = .idle) ∧ (∀ t a, memGet (State.reset.tile t).sram a = 0)

/-! ### What every step keeps -/

/-- No command touches the queue: a step takes the front command away and nothing else joins or leaves. -/
def Obligations.QueueKept : Prop :=
  (∀ (c : Instr) (s u : State), exec c s = .next u → u.pending = s.pending) ∧
  ∀ (c : Instr) (rest : List Instr) (s u : State), s.pending = c :: rest → step s = .next u → u.pending = rest

/-- Whatever the command, a fused owner key hash stays, the fused minimum SVN never falls, and a broken meter seal stays broken (R497, R506, R511): over one step and over any
number of steps. -/
def Obligations.FusesAndSealKept : Prop :=
  (∀ s u : State, step s = .next u → FusesKept s u ∧ SealKept s u) ∧
  ∀ (n : Nat) (s u : State), Host.Core.run Sys2Proof.core n s = .next u → FusesKept s u ∧ SealKept s u

/-! ### What each family can change -/

/-- Of cores and their Xthrumrak instructions (R167 to R200), starts and loads (R202 to R206, R312), and of the matrix engine (R43 to R79): each command changes at most the parts of the state named for it. -/
def Obligations.FrameCoresAndEngine : Prop :=
  (∀ t c mismatch, Changes [.freeN, .tiles, .sites, .host, .spi, .hlt] (.rvInstruction t c mismatch)) ∧
  (∀ t c, Changes [.tiles] (.ecallExit t c)) ∧
  (∀ t c, Changes [.tiles, .host] (.coreDone t c)) ∧
  (∀ t c, Changes [.freeN, .tiles, .sites, .chans, .host, .spi, .hlt] (.xtPut t c)) ∧
  (∀ t c, Changes [.freeN, .tiles, .sites, .chans, .host, .spi, .hlt] (.xtGet t c)) ∧
  (∀ t c, Changes [.freeN, .tiles, .sites, .host, .spi, .hlt] (.xtProbe t c)) ∧
  (∀ t c, Changes [.tiles, .sites, .host, .spi, .hlt] (.xtEnq t c)) ∧
  (∀ t c, Changes [.tiles] (.xtCset t c)) ∧
  (∀ t c, Changes [.tiles] (.xtCadd t c)) ∧
  (∀ t c, Changes [.tiles] (.xtCarm t c)) ∧
  (∀ t c, Changes [.tiles] (.xtCwait t c)) ∧
  (∀ t c, Changes [.tiles] (.cwaitResume t c)) ∧
  (∀ t e, Changes [.tiles, .host, .spi] (.xtEvt t e)) ∧
  (∀ t, Changes [.tiles, .sites, .fab, .host, .spi, .hlt] (.transferPacketIssue t)) ∧
  (∀ idx_, Changes [.freeN, .tiles, .sites, .fab, .host] (.launchStart idx_)) ∧
  (∀ idx_, Changes [.freeN, .tiles, .sites, .fab, .host, .spi] (.loadTileStart idx_)) ∧
  (∀ t, Changes [.freeN, .tiles, .sites, .fab, .host, .spi, .hlt] (.loadEnd t)) ∧
  (∀ t hw, Changes [.freeN, .tiles, .host, .spi, .hlt] (.loadw t hw)) ∧
  (∀ t hw, Changes [.freeN, .tiles, .host, .spi, .hlt] (.mma t hw)) ∧
  (∀ t hw, Changes [.freeN, .tiles, .host, .spi, .hlt] (.store t hw)) ∧
  (∀ t hw, Changes [.tiles] (.zero t hw)) ∧
  (∀ t, Changes [.tiles] (.nop t)) ∧
  (∀ t u, Changes [.freeN, .tiles, .sites, .host, .spi, .hlt] (.engineRetire t u)) ∧
  (∀ t, Changes [.tiles] (.engCtrlClear t))

/-- Of packets, routers, links, trackers and list ports (R157 to R164, R208 to R244), scrubbers, slices, DDR channels and regions (R252 to R283): each command changes at most the parts of the state named for it. -/
def Obligations.FrameFabricAndMemory : Prop :=
  (∀ idx_, Changes [.freeN, .tiles, .sites, .fab, .host, .spi, .hlt] (.write idx_)) ∧
  (∀ idx_, Changes [.freeN, .sites, .fab, .chans, .host, .spi, .hlt] (.writeToOwner idx_)) ∧
  (∀ idx_ joins, Changes [.freeN, .tiles, .sites, .fab, .chans, .host, .spi, .hlt] (.read idx_ joins)) ∧
  (∀ idx_, Changes [.freeN, .tiles, .sites, .fab, .host, .spi] (.cnt idx_)) ∧
  (∀ idx_, Changes [.freeN, .tiles, .sites, .fab, .host, .spi, .hlt, .dbg] (.rdata idx_)) ∧
  (∀ idx_, Changes [.tiles, .sites, .fab, .host, .spi, .dbg] (.rerr idx_)) ∧
  (∀ idx_, Changes [.freeN, .tiles, .sites, .fab, .host, .spi, .dbg] (.wack idx_)) ∧
  (∀ idx_ env, Changes [.freeN, .tiles, .sites, .fab, .host, .rick, .spi, .hlt] (.routerHop idx_ env)) ∧
  (∀ site idx, Changes [.sites, .host, .spi] (.routeEntryRewrite site idx)) ∧
  (∀ l a, Changes [.freeN, .fab, .host, .spi] (.flitRefused l a)) ∧
  (∀ x, Changes [.fab, .host, .spi] (.linkUp x)) ∧
  (∀ l fails, Changes [.fab] (.seamRetrain l fails)) ∧
  (∀ t k, Changes [.tiles] (.trackerTimeout t k)) ∧
  (∀ t k, Changes [.tiles, .sites, .fab, .host, .spi] (.trackerReuse t k)) ∧
  (∀ site, Changes [.tiles, .sites, .fab, .host, .spi, .hlt] (.baseDieFault site)) ∧
  (∀ port, Changes [.freeN, .fab, .host, .spi, .hlt, .ses] (.republish port)) ∧
  Changes [.sites, .fab, .host, .parts, .spi, .hlt] .republishDone ∧
  (∀ idx_, Changes [.freeN, .tiles, .sites, .fab, .host, .spi, .hlt] (.listAppend idx_)) ∧
  (∀ idx_, Changes [.freeN, .tiles, .sites, .fab, .host, .spi, .hlt] (.listClose idx_)) ∧
  (∀ idx_, Changes [.freeN, .tiles, .sites, .fab, .host, .spi, .hlt] (.listArm idx_)) ∧
  (∀ t found word, Changes [.tiles, .host, .spi, .hlt] (.scrubAccess t found word)) ∧
  (∀ idx_ joins err, Changes [.freeN, .sites, .fab, .host] (.cacheRead idx_ joins err)) ∧
  (∀ idx_, Changes [.sites, .fab] (.cacheFillReturn idx_)) ∧
  (∀ idx_, Changes [.freeN, .sites, .fab, .host] (.cacheWrite idx_)) ∧
  (∀ site, Changes [.sites, .fab] (.maintInvalidateLine site)) ∧
  (∀ site, Changes [.sites, .fab] (.maintInvalidateRange site)) ∧
  (∀ site, Changes [.sites, .fab] (.maintInvalidateAll site)) ∧
  (∀ site, Changes [.sites, .fab] (.maintReserved site)) ∧
  (∀ ch, Changes [.chans, .host, .spi, .hlt] (.ddrChannelDown ch)) ∧
  (∀ ch burst found n, Changes [.freeN, .chans, .host, .spi] (.patrolRead ch burst found n)) ∧
  (∀ port p, Changes [.sites, .host, .parts, .spi, .ses] (.ddrRegionCommit port p)) ∧
  (∀ port k v, Changes [.bev, .host, .spi, .ses] (.prtBevWrite port k v))

/-- Of host ports, doorbells, MSI-X, the event ring, contexts and descriptors (R286 to R330): each command changes at most the parts of the state named for it. -/
def Obligations.FrameHostAndDescriptors : Prop :=
  (∀ port, Changes [.tiles, .fab, .host, .spi] (.portDown port)) ∧
  (∀ port mode, Changes [.host, .spi] (.portUp port mode)) ∧
  (∀ port, Changes [.tiles, .fab, .host, .spi] (.functionLevelReset port)) ∧
  (∀ port, Changes [.tiles, .fab, .host, .spi] (.busMasterDisable port)) ∧
  (∀ port mode, Changes [.host] (.perstRelease port mode)) ∧
  (∀ id, Changes [.tiles, .sites, .fab, .host, .spi] (.hostCompletionTimeout id)) ∧
  (∀ port ctx v, Changes [.freeN, .tiles, .chans, .host, .spi] (.sqTail port ctx v)) ∧
  (∀ port ctx v, Changes [.freeN, .tiles, .chans, .host, .spi] (.cqHead port ctx v)) ∧
  (∀ id res, Changes [.tiles, .fab, .host, .spi] (.descriptorFetch id res)) ∧
  (∀ ctx, Changes [.freeN, .tiles, .chans, .host] (.nopDescriptor ctx)) ∧
  (∀ ctx, Changes [.freeN, .tiles, .sites, .fab, .chans, .host, .spi] (.copy ctx)) ∧
  (∀ ctx, Changes [.freeN, .tiles, .sites, .fab, .chans, .host, .spi] (.launch ctx)) ∧
  (∀ ctx, Changes [.freeN, .tiles, .fab, .chans, .host] (.load ctx)) ∧
  (∀ ctx, Changes [.freeN, .tiles, .sites, .fab, .chans, .host, .spi] (.wait ctx)) ∧
  (∀ ctx n, Changes [.tiles, .sites, .fab, .host, .spi] (.waitPoll ctx n)) ∧
  (∀ ctx, Changes [.freeN, .tiles, .sites, .fab, .chans, .host, .spi] (.signal ctx)) ∧
  (∀ ctx, Changes [.freeN, .tiles, .sites, .chans, .host, .parts, .cap, .hlt] (.phase ctx)) ∧
  (∀ ctx, Changes [.freeN, .tiles, .chans, .host, .rick] (.barrier ctx)) ∧
  (∀ ctx, Changes [.freeN, .tiles, .chans, .host] (.fence ctx)) ∧
  (∀ ctx, Changes [.freeN, .tiles, .chans, .host] (.predict ctx)) ∧
  (∀ ctx, Changes [.freeN, .tiles, .chans, .host] (.mark ctx)) ∧
  (∀ ctx, Changes [.freeN, .tiles, .chans, .host] (.reservedOpcode ctx)) ∧
  (∀ ctx n, Changes [.tiles, .host, .hlt] (.descriptorComplete ctx n)) ∧
  (∀ port v, Changes [.host, .spi, .ses] (.ctxSel port v)) ∧
  (∀ port, Changes [.host, .spi, .ses] (.configure port)) ∧
  (∀ port, Changes [.tiles, .sites, .fab, .host, .rick, .spi, .ses] (.release port)) ∧
  (∀ port ctx doorbell, Changes [.tiles, .sites, .fab, .host, .rick, .spi] (.restart port ctx doorbell)) ∧
  (∀ ctx, Changes [.host, .spi] (.restartDone ctx)) ∧
  (∀ port, Changes [.host, .spi, .ses] (.halt port)) ∧
  (∀ idx_, Changes [.tiles, .sites, .fab, .host, .spi, .hlt] (.contextFault idx_)) ∧
  (∀ ctx, Changes [.host] (.stepWatchdog ctx)) ∧
  (∀ pe k, Changes [.tiles, .sites, .fab, .host, .spi, .dbg] (.edgeTrackerTimeout pe k)) ∧
  (∀ port v, Changes [.host] (.evtHead port v)) ∧
  (∀ port v, Changes [.host, .spi, .ses] (.evtCfg port v)) ∧
  (∀ port vec v, Changes [.host] (.msixUnmask port vec v)) ∧
  (∀ id res, Changes [.tiles, .sites, .fab, .host, .spi] (.hostReadCompletion id res))

/-- Of partitions, the cascade and the rick (R331 to R361), sessions, fuses, the meter and the debug block (R497 to R534): each command changes at most the parts of the state named for it. -/
def Obligations.FrameRickAndSessions : Prop :=
  (∀ port p, Changes [.tiles, .sites, .fab, .host, .parts, .rick, .clk, .cap, .spi, .hlt, .ses] (.define port p)) ∧
  (∀ port p, Changes [.tiles, .sites, .fab, .host, .parts, .rick, .cap, .spi, .hlt, .ses] (.delete port p)) ∧
  (∀ port p, Changes [.tiles, .sites, .fab, .host, .parts, .rick, .spi, .hlt, .ses] (.warmReset port p)) ∧
  (∀ p found suspects, Changes [.tiles, .sites, .fab, .host, .parts, .clk, .spi, .hlt] (.warmResetDone p found suspects)) ∧
  (∀ port p, Changes [.host, .parts, .spi, .ses] (.prtUpdate port p)) ∧
  (∀ n cw, Changes [.sites, .fab, .host, .rick, .spi] (.cascadeCodeword n cw)) ∧
  (∀ n, Changes [.fab, .host, .rick, .spi] (.replayTimeout n)) ∧
  (∀ n inDoubt, Changes [.fab, .host, .rick, .spi] (.cascadePortDown n inDoubt)) ∧
  (∀ n partner, Changes [.host, .rick, .spi] (.cascadePortUp n partner)) ∧
  (∀ port n v, Changes [.fab, .host, .rick, .spi, .ses] (.casPcfg port n v)) ∧
  (∀ panel serial via, Changes [.host, .rick, .spi] (.rickAnnounce panel serial via)) ∧
  (∀ port, Changes [.host, .rick, .spi, .ses] (.publish port)) ∧
  (∀ gen, Changes [.rick] (.rickRoutes gen)) ∧
  (∀ port v, Changes [.tiles, .sites, .fab, .host, .rick, .spi, .ses] (.rrestart port v)) ∧
  (∀ master, Changes [.time, .rick] (.timebaseSync master)) ∧
  Changes [.rick] .masterLost ∧
  (∀ panel id count, Changes [.tiles, .host, .rick] (.rickBarrierArrival panel id count)) ∧
  (∀ id stamp, Changes [.tiles, .host, .rick] (.rickBarrierRelease id stamp)) ∧
  (∀ port, Changes [.freeN, .host] (.challenge port)) ∧
  (∀ port, Changes [.host] (.challengeExpiry port)) ∧
  (∀ port, Changes [.host, .spi, .ses] (.sesOpen port)) ∧
  (∀ port, Changes [.host] (.lockoutExpiry port)) ∧
  (∀ port, Changes [.host, .spi, .ses] (.sesClose port)) ∧
  (∀ entry, Changes [.host, .spi, .ses] (.sessionDeadline entry)) ∧
  (∀ port, Changes [.host] (.attest port)) ∧
  (∀ port, Changes [.host] (.pubkey port)) ∧
  (∀ port, Changes [.host, .spi, .ses] (.armOwner port)) ∧
  (∀ port, Changes [.host, .spi, .ses] (.armSvn port)) ∧
  (∀ port, Changes [.host, .spi, .ses] (.commitFuse port)) ∧
  (∀ m, Changes [.mtr] (.meterRecord m)) ∧
  Changes [.mtr] .mtrSeal ∧
  (∀ f, Changes [.host, .spi, .mtr] (.meterFrame f)) ∧
  Changes [.host, .spi, .mtr] .mtrLinkLost ∧
  (∀ port v, Changes [.host] (.mtrSelect port v)) ∧
  (∀ port v, Changes [.mtr] (.mtrRhead port v)) ∧
  (∀ port v, Changes [.host, .spi, .ses, .mtr] (.mtrRcfg port v)) ∧
  (∀ port, Changes [.freeN, .tiles, .sites, .fab, .chans, .host, .spi, .ses, .dbg] (.dbgRead port)) ∧
  (∀ port, Changes [.freeN, .tiles, .sites, .fab, .chans, .host, .spi, .ses, .dbg] (.dbgWrite port)) ∧
  (∀ port v, Changes [.host, .spi, .ses, .dbg] (.dbgLock port v)) ∧
  (∀ port v, Changes [.host, .spi, .ses] (.dbgTest port v)) ∧
  (∀ p, Changes [.tiles, .sites, .host, .parts, .clk, .spi, .hlt] (.deleteDone p)) ∧
  Changes [.rick] .rrestartDone ∧
  (∀ port, Changes [.host] (.fuseArmExpiry port))

/-- Of clocks, power, cap and heat (R363 to R435), bring-up and the serial memory, health and the service dies (R437 to R491): each command changes at most the parts of the state named for it. -/
def Obligations.FramePowerAndHealth : Prop :=
  (∀ input, Changes [.sites, .host, .clk, .spi, .hlt] (.clkRefLoss input)) ∧
  (∀ input, Changes [.sites, .host, .clk, .spi, .hlt] (.clkRefRestored input)) ∧
  (∀ edge, Changes [.fab, .chans, .host, .rick, .spi, .hlt] (.edgeHoldoverExpiry edge)) ∧
  (∀ site faces, Changes [.sites, .host, .spi] (.clkDecoupled site faces)) ∧
  (∀ site, Changes [.sites, .host, .clk, .spi] (.clkRecoupled site)) ∧
  (∀ site rate, Changes [.sites] (.timeMessage site rate)) ∧
  (∀ site k, Changes [.sites, .clk] (.stepChange site k)) ∧
  (∀ site, Changes [.sites] (.railSettled site)) ∧
  (∀ site e, Changes [.sites, .clk] (.stepStopEnd site e)) ∧
  (∀ site, Changes [.freeN, .tiles, .sites, .host, .spi, .hlt] (.clkStepFault site)) ∧
  (∀ port p v, Changes [.sites, .host, .parts, .clk, .spi, .ses] (.clkCeil port p v)) ∧
  (∀ port v, Changes [.sites, .host, .clk, .spi, .ses] (.bank port v)) ∧
  (∀ port v, Changes [.sites, .host, .clk, .spi, .ses] (.unbank port v)) ∧
  (∀ site, Changes [.sites, .clk] (.bankReturn site)) ∧
  (∀ mv us, Changes [.sites, .host, .clk, .pwr, .spi] (.inputWarn mv us)) ∧
  (∀ mv, Changes [.tiles, .sites, .host, .pwr, .spi, .hlt] (.orderlyStop mv)) ∧
  (∀ mv, Changes [.host, .pwr, .spi, .hlt] (.inputHigh mv)) ∧
  (∀ mv, Changes [.tiles, .sites, .fab, .chans, .bev, .host, .parts, .rick, .clk, .pwr, .cap, .spi, .hlt, .ses, .mtr, .dbg] (.inputOvervoltage mv)) ∧
  (∀ mv, Changes [.tiles, .sites, .fab, .chans, .bev, .host, .parts, .rick, .clk, .pwr, .cap, .spi, .hlt, .ses, .mtr, .dbg] (.inputLoss mv)) ∧
  (∀ mv, Changes [.host, .pwr, .spi, .hlt] (.pwrInRestored mv)) ∧
  (∀ g, Changes [.tiles, .sites, .fab, .host, .pwr, .spi, .hlt] (.converterFail g)) ∧
  (∀ site ph, Changes [.tiles, .sites, .fab, .host, .spi, .hlt] (.phaseLost site ph)) ∧
  (∀ site rail stillLow, Changes [.freeN, .sites] (.reservoirEngage site rail stillLow)) ∧
  (∀ site, Changes [.sites] (.fastBubbleEnd site)) ∧
  (∀ site rail depth ns, Changes [.sites, .host, .clk, .spi] (.railDip site rail depth ns)) ∧
  (∀ site, Changes [.sites, .clk] (.dipLimitRise site)) ∧
  (∀ site rail depth, Changes [.freeN, .tiles, .sites, .fab, .host, .pwr, .spi, .hlt] (.railReset site rail depth)) ∧
  (∀ site cause rail, Changes [.tiles, .sites, .fab, .host, .spi, .hlt] (.inputSwitchOpen site cause rail)) ∧
  (∀ site ratio, Changes [.sites, .host, .spi] (.pathAnomaly site ratio)) ∧
  (∀ port, Changes [.sites, .host, .pwr, .spi, .ses] (.clearPath port)) ∧
  (∀ port, Changes [.tiles, .sites, .fab, .host, .pwr, .spi, .hlt, .ses] (.isolate port)) ∧
  (∀ port, Changes [.sites, .host, .pwr, .spi, .ses] (.restore port)) ∧
  (∀ site, Changes [.sites] (.softStart site)) ∧
  (∀ site, Changes [.tiles, .sites, .host, .pwr, .spi, .hlt] (.softStartDone site)) ∧
  (∀ site, Changes [.sites, .host, .spi] (.softStartAbandon site)) ∧
  (∀ site, Changes [.sites, .pwr] (.softStartRetry site)) ∧
  (∀ sites convs, Changes [.sites, .host, .pwr, .cap, .spi, .hlt] (.telemetryTick sites convs)) ∧
  (∀ port v, Changes [.host, .cap, .spi, .ses] (.pwrCap port v)) ∧
  (∀ m, Changes [.freeN, .sites, .host, .parts, .clk, .pwr, .cap, .spi, .hlt] (.budgetAllocation m)) ∧
  (∀ port p v, Changes [.sites, .host, .parts, .clk, .spi, .ses] (.paceLock port p v)) ∧
  (∀ site m mv, Changes [.sites, .host, .spi] (.pacerUpdate site m mv)) ∧
  (∀ site, Changes [.sites, .clk] (.capLimitUpdate site)) ∧
  (∀ port p, Changes [.host, .parts, .cap, .spi, .ses] (.clearProfiles port p)) ∧
  Changes [.cap] .profileMirror ∧
  (∀ site r, Changes [.tiles, .sites, .fab, .host, .clk, .spi, .hlt] (.tempSample site r)) ∧
  Changes [.sites, .host, .clk, .spi] .thermalTurn ∧
  (∀ site, Changes [.sites, .host, .clk, .spi] (.thmUnbank site)) ∧
  (∀ site, Changes [.sites, .host, .clk, .pwr, .spi] (.thmOn site)) ∧
  (∀ port v, Changes [.host] (.telHead port v)) ∧
  (∀ port v, Changes [.host, .spi, .ses] (.telCfg port v)) ∧
  (∀ env, Changes [.time, .tiles, .sites, .fab, .chans, .bev, .host, .parts, .rick, .clk, .pwr, .cap, .spi, .hlt, .ses, .mtr, .dbg] (.coldPowerOn env)) ∧
  Changes [.host, .spi, .hlt] .ready ∧
  Changes [.tiles, .sites, .fab, .chans, .bev, .host, .parts, .rick, .clk, .pwr, .cap, .spi, .hlt, .ses] .svBTakeover ∧
  (∀ port env, Changes [.time, .tiles, .sites, .fab, .chans, .bev, .host, .parts, .rick, .clk, .pwr, .cap, .spi, .hlt, .ses, .mtr, .dbg] (.panelReset port env)) ∧
  (∀ port, Changes [.host, .spi, .ses] (.settingsCommit port)) ∧
  (∀ port, Changes [.host, .spi, .ses] (.update port)) ∧
  (∀ result, Changes [.time, .tiles, .sites, .fab, .chans, .bev, .host, .parts, .rick, .clk, .pwr, .cap, .spi, .hlt, .ses, .mtr, .dbg] (.updateDone result)) ∧
  (∀ site, Changes [.sites, .pwr] (.siteRejoin site)) ∧
  (∀ site found suspects ms, Changes [.tiles, .sites, .fab, .host, .spi, .hlt] (.siteRejoined site found suspects ms)) ∧
  Changes [.spi] .learnedAppend ∧
  Changes [.spi] .logFlush ∧
  (∀ t passed, Changes [.tiles, .host, .spi, .hlt] (.selfTestSlice t passed)) ∧
  Changes [.tiles, .host, .spi, .hlt] .healthHourly ∧
  (∀ t passed, Changes [.freeN, .tiles, .sites, .host, .clk, .spi, .hlt] (.confirmingRetestDone t passed)) ∧
  (∀ port v, Changes [.sites, .host, .spi, .hlt, .ses] (.remap port v)) ∧
  (∀ site, Changes [.freeN, .tiles, .sites, .host, .spi, .hlt] (.tileRemapStopEnd site)) ∧
  (∀ port v, Changes [.tiles, .host, .spi, .hlt, .ses] (.retire port v)) ∧
  (∀ port v, Changes [.freeN, .tiles, .host, .spi, .hlt, .ses] (.keep port v)) ∧
  (∀ port v, Changes [.tiles, .host, .spi, .hlt, .ses] (.hole port v)) ∧
  (∀ port v, Changes [.tiles, .host, .spi, .hlt, .ses] (.clear port v)) ∧
  (∀ port v, Changes [.freeN, .tiles, .host, .spi, .hlt, .ses] (.treset port v)) ∧
  (∀ port v, Changes [.freeN, .tiles, .sites, .host, .spi, .hlt, .ses] (.sreset port v)) ∧
  (∀ site x, Changes [.tiles, .sites, .fab, .host, .spi, .hlt] (.computeResetDone site x)) ∧
  Changes [.hlt] .svHeartbeat ∧
  (∀ reported, Changes [.tiles, .sites, .fab, .host, .parts, .rick, .cap, .spi, .hlt, .ses] (.svFailover reported)) ∧
  (∀ reported, Changes [.host, .spi, .hlt] (.svStandbyLost reported)) ∧
  Changes [.sites, .host, .cap, .spi, .hlt] .svLost ∧
  (∀ port v, Changes [.hlt] (.svReset port v)) ∧
  (∀ aOk bOk, Changes [.tiles, .sites, .fab, .host, .cap, .spi, .hlt] (.svRestored aOk bOk)) ∧
  (∀ port v, Changes [.host, .spi, .hlt, .ses] (.sweepGrant port v)) ∧
  (∀ site m, Changes [.freeN, .tiles, .sites, .host, .clk, .spi, .hlt] (.marginSweep site m)) ∧
  (∀ site, Changes [.sites, .host, .spi, .hlt] (.marginOverdue site)) ∧
  (∀ site busyPct surged, Changes [.sites, .clk] (.loadClassUpdate site busyPct surged)) ∧
  (∀ site cell, Changes [.sites, .host, .clk, .spi] (.cellCeilingRise site cell)) ∧
  (∀ port v, Changes [.sites] (.hltSclr port v)) ∧
  (∀ port v, Changes [.fab] (.hltEclr port v)) ∧
  (∀ port v, Changes [.host] (.hltDbclr port v)) ∧
  (∀ port v, Changes [.host] (.hltLsel port v)) ∧
  (∀ site base, Changes [.sites, .spi] (.pathBaselineFrozen site base)) ∧
  Changes [.hlt] .sweepWindowEnd ∧
  Changes [.freeN, .spi] .settingsCommitDone


/-! ### Where commands complete: cores -/

/-- Every ordinary instruction of a running core completes in a next state (it has its effect or traps), whatever word stands at the pc (R167 to R176). Of these
the statement gives the result of LUI, AUIPC, JAL, JALR, the branches BEQ, BNE, BLT, BGE, BLTU, BGEU, the operations ADDI to SRAI and ADD to AND, the W forms ADDIW, ADDW, SUBW, MUL, MULHU,
DIV, DIVU, REM and REMU, FENCE, FENCE.I and WFI, in 16-bit or 32-bit form: rd takes the value (x0 stays 0), the pc moves on by the length or to the target, and one instruction has retired. ECALL with
a7 ≠ 0 and EBREAK trap with causes 8 and 3. An ordinary load (LB to LWU) or store (SB to SD) of a running core, in a 32-bit or 16-bit form, completes: with an aligned address in scratch or tile SRAM whose word holds no uncorrectable error, and where the copies of a guarded pair agree, a load writes the 1, 2, 4 or 8 bytes there, sign-extended or zero-extended as the instruction says, to rd, and meets single-bit errors of the
words it reads; a store writes the low bytes of rs2 there, in scratch with no other byte changed; the pc moves on. A misaligned one traps with cause 4 (load) or 6 (store), a load where the copies of a pair differ with cause 24 (R170, R178, R200). Completes: RV_INSTRUCTION. -/
def Obligations.RvInstructionsComplete : Prop :=
  ((∀ (t c : Nat) (m : Bool) (s : State), t < 32768 → coreRuns s t c = true → ∃ u, exec (.rvInstruction t c m) s = .next u) ∧
  ∀ (t c w len : Nat) (s : State), t < 32768 → coreRuns s t c = true → (s.tile t).fetch c = .ins w len → xtOf w = none → isExit (s.core t c) w = false →
    let k := s.core t c
    let x1 := k.getX (iRs1 w)
    let x2 := k.getX (iRs2 w)
    let goes (v : W64) (pc : W64) : Prop :=
      exec (.rvInstruction t c false) s = .next ((s.fetched t c len).modCore t c fun k => { k.setX (iRd w) v with pc := pc, instret := k.instret + 1 })
    let puts (v : W64) : Prop := goes v (k.pc + u64 len)
    let jumps (b : Bool) : Prop := exec (.rvInstruction t c false) s =
      .next ((s.fetched t c len).modCore t c fun k => { k with pc := if b then k.pc + immB w else k.pc + u64 len, instret := k.instret + 1 })
    let I : W64 := immI w
    let sh : Nat := w / 2 ^ 20 % 64
    let low (v : W64) : W64 := (v.setWidth 32).signExtend 64
    (iOp w = 0x37 → puts (immU w)) ∧
    (iOp w = 0x17 → puts (k.pc + immU w)) ∧
    (iOp w = 0x6F → goes (k.pc + u64 len) (k.pc + immJ w)) ∧
    (iOp w = 0x67 → iF3 w = 0 → goes (k.pc + u64 len) ((x1 + I) &&& ~~~1#64)) ∧
    (iOp w = 0x63 → (iF3 w = 0 → jumps (x1 == x2)) ∧ (iF3 w = 1 → jumps (x1 != x2)) ∧ (iF3 w = 4 → jumps (x1.slt x2)) ∧ (iF3 w = 5 → jumps (!x1.slt x2)) ∧
      (iF3 w = 6 → jumps (x1.ult x2)) ∧ (iF3 w = 7 → jumps (!x1.ult x2))) ∧
    (iOp w = 0x13 → (iF3 w = 0 → puts (x1 + I)) ∧ (iF3 w = 2 → puts (if x1.slt I then 1 else 0)) ∧ (iF3 w = 3 → puts (if x1.ult I then 1 else 0)) ∧
      (iF3 w = 4 → puts (x1 ^^^ I)) ∧ (iF3 w = 6 → puts (x1 ||| I)) ∧ (iF3 w = 7 → puts (x1 &&& I)) ∧ (iF3 w = 1 → w / 2 ^ 26 = 0 → puts (x1 <<< sh)) ∧
      (iF3 w = 5 → w / 2 ^ 26 = 0 → puts (x1 >>> sh)) ∧ (iF3 w = 5 → w / 2 ^ 26 = 16 → puts (x1.sshiftRight sh))) ∧
    (iOp w = 0x33 → iF7 w = 0 → (iF3 w = 0 → puts (x1 + x2)) ∧ (iF3 w = 1 → puts (x1 <<< (x2.toNat % 64))) ∧ (iF3 w = 2 → puts (if x1.slt x2 then 1 else 0)) ∧
      (iF3 w = 3 → puts (if x1.ult x2 then 1 else 0)) ∧ (iF3 w = 4 → puts (x1 ^^^ x2)) ∧ (iF3 w = 5 → puts (x1 >>> (x2.toNat % 64))) ∧
      (iF3 w = 6 → puts (x1 ||| x2)) ∧ (iF3 w = 7 → puts (x1 &&& x2))) ∧
    (iOp w = 0x33 → iF7 w = 0x20 → (iF3 w = 0 → puts (x1 - x2)) ∧ (iF3 w = 5 → puts (x1.sshiftRight (x2.toNat % 64)))) ∧
    (iOp w = 0x33 → iF7 w = 1 → (iF3 w = 0 → puts (x1 * x2)) ∧ (iF3 w = 3 → puts (BitVec.ofNat 64 (x1.toNat * x2.toNat / 2 ^ 64))) ∧
      (iF3 w = 4 → puts (if x2 = 0 then BitVec.allOnes 64 else BitVec.ofInt 64 (Int.tdiv x1.toInt x2.toInt))) ∧ (iF3 w = 5 → puts (if x2 = 0 then BitVec.allOnes 64 else x1 / x2)) ∧
      (iF3 w = 6 → puts (if x2 = 0 then x1 else BitVec.ofInt 64 (Int.tmod x1.toInt x2.toInt))) ∧ (iF3 w = 7 → puts (x1 % x2))) ∧
    (iOp w = 0x1B → iF3 w = 0 → puts (low (x1 + I))) ∧
    (iOp w = 0x3B → iF3 w = 0 → (iF7 w = 0 → puts (low (x1 + x2))) ∧ (iF7 w = 0x20 → puts (low (x1 - x2)))) ∧
    ((iOp w = 0x0F ∧ iF3 w ≤ 1 ∨ w = 0x10500073) →
      exec (.rvInstruction t c false) s = .next ((s.fetched t c len).modCore t c fun k => { k with pc := k.pc + u64 len, instret := k.instret + 1 })) ∧
    (w = 0x73 → exec (.rvInstruction t c false) s = .next ((s.fetched t c len).trap t c 8 0)) ∧
    (w = 0x100073 → exec (.rvInstruction t c false) s = .next ((s.fetched t c len).trap t c 3 k.pc))) ∧
  (∀ (t c w len : Nat) (s : State), t < 32768 → coreRuns s t c = true → (s.tile t).fetch c = .ins w len → xtOf w = none →
    let k := s.core t c
    let la := (k.getX (iRs1 w) + immI w).toNat
    let sa := (k.getX (iRs1 w) + immS w).toNat
    let T := (s.fetched t c len).tile t
    let loads (n : Nat) (f : Nat → W64) : Prop :=
      (la % n ≠ 0 → exec (.rvInstruction t c false) s = .next ((s.fetched t c len).trap t c 4 (u64 la))) ∧
      (la % n = 0 → T.badAt la = false →
        (zoneOf T.guarded la = .scratch → T.pairDiffers la n = true → exec (.rvInstruction t c false) s = .next ((s.fetched t c len).trap t c 24 0)) ∧
        (zoneOf T.guarded la = .scratch → T.pairDiffers la n = false → exec (.rvInstruction t c false) s = .next (((s.fetched t c len).modTile t fun T => T.meetLocal la n).modCore t c
          fun k => { k.setX (iRd w) (f (memWord T.scr la n)) with pc := k.pc + u64 len, instret := k.instret + 1 })) ∧
        (zoneOf T.guarded la = .sram → exec (.rvInstruction t c false) s = .next (((s.fetched t c len).modTile t fun T => T.meetLocal la n).modCore t c
          fun k => { k.setX (iRd w) (f (memWord T.sram (la - 0x1000000) n)) with pc := k.pc + u64 len, instret := k.instret + 1 })))
    let stores (n : Nat) : Prop :=
      let bs := leBytes n ((k.getX (iRs2 w)).toNat % 2 ^ (8 * n))
      (sa % n ≠ 0 → exec (.rvInstruction t c false) s = .next ((s.fetched t c len).trap t c 6 (u64 sa))) ∧
      (sa % n = 0 → T.badAt sa = false →
        (zoneOf T.guarded sa = .scratch → T.badCopy sa = false → GoesTo (exec (.rvInstruction t c false) s) fun u =>
          memGetList (u.tile t).scr sa n = bs ∧ (∀ a, a < sa ∨ sa + n ≤ a → memGet (u.tile t).scr a = memGet T.scr a) ∧ (u.tile t).sram = T.sram ∧
          (u.core t c).pc = k.pc + u64 len ∧ (∀ r, (u.core t c).getX r = k.getX r) ∧ (∀ n, n ≠ t → u.tile n = s.tile n)) ∧
        (zoneOf T.guarded sa = .sram → exec (.rvInstruction t c false) s = .next ((((s.fetched t c len).sramStore t (sa - 0x1000000) bs).modTile t
          fun T => T.breakResv c sa n).modCore t c fun k => { k with pc := k.pc + u64 len, instret := k.instret + 1 })))
    (iOp w = 0x03 → (iF3 w = 0 → loads 1 (sext 8)) ∧ (iF3 w = 1 → loads 2 (sext 16)) ∧ (iF3 w = 2 → loads 4 (sext 32)) ∧ (iF3 w = 3 → loads 8 u64) ∧
      (iF3 w = 4 → loads 1 u64) ∧ (iF3 w = 5 → loads 2 u64) ∧ (iF3 w = 6 → loads 4 u64)) ∧
    (iOp w = 0x23 → (iF3 w = 0 → stores 1) ∧ (iF3 w = 1 → stores 2) ∧ (iF3 w = 2 → stores 4) ∧ (iF3 w = 3 → stores 8)))

/-- ECALL with a7 = 0 at a running core records the low 16 bits of a0 as its exit code and marks the program as ending; nothing else changes. CORE_DONE then takes the core to DONE once its
transfer queue is empty, and where a LAUNCH watches the core it learns of the core and its exit code (R175, R307). XT.EVT at a running core raises an event of code 0x8000 + bits [14:0] of rs1 from the tile and core, for the core's context and epoch, with rs2 as DATA0; the operand says whether the event path accepts it at
once. If not, it waits with the core, with the time and partition of its raising (R328), and the core goes on; while an earlier event of the core waits, the core stalls, and the event path may accept that one (R184, R196). Completes: ECALL_EXIT, CORE_DONE, XT.EVT. -/
def Obligations.ProgramsComplete : Prop :=
  ((∀ (t c len : Nat) (s : State), t < 32768 → coreRuns s t c = true → (s.tile t).fetch c = .ins 0x73 len → (s.core t c).getX 17 = 0 →
    exec (.ecallExit t c) s = .next (s.modCore t c fun k => { k with exit := (k.getX 10).setWidth 16, ending := true })) ∧
  ∀ (t c : Nat) (s : State), t < 32768 → c < 4 → s.runs t = true → (s.core t c).st = .run → (s.core t c).ending = true → (s.core t c).tq = [] →
    let k := s.core t c
    let d := s.modCore t c fun k => { k with st := .done, ending := false, launch := none, resv := none }
    (k.launch = none → exec (.coreDone t c) s = .next d) ∧
    (∀ n, k.launch = some n → exec (.coreDone t c) s = .next (d.launchCoreDone k.ctx n t c k.exit.toNat))) ∧
  (∀ (t c w : Nat) (s : State), XtAt s t c .evt w →
    let k := s.core t c
    let e : ProgEvt := { code := bitsOf (k.getX (iRs1 w)) 14 0, payload := k.getX (iRs2 w), ctx := some (k.ctx, k.epoch), at_ := s.time, part := s.tilePart t }
    let f := s.fetched t c 4
    let ev (e : ProgEvt) : Ev := { code := 0x8000 + e.code, part := e.part, ctx := e.ctx, core := c, kind := 1, source := t, d0 := e.payload.toNat }
    (k.evt = none → exec (.xtEvt t ⟨c, true⟩) s = .next ((f.raiseAt s.time (ev e)).modCore t c fun k => k.next (k.pc + 4))) ∧
    (k.evt = none → exec (.xtEvt t ⟨c, false⟩) s = .next (f.modCore t c fun k => { k with evt := some e }.next (k.pc + 4))) ∧
    (k.evt ≠ none → exec (.xtEvt t ⟨c, false⟩) s = .next f) ∧
    (∀ e', k.evt = some e' → exec (.xtEvt t ⟨c, true⟩) s =
      .next ((f.modCore t c fun k => { k with evt := none }).raiseAt e'.at_ (ev e'))))

/-- XT.PUT and XT.GET at a running core with fewer than 4 queued transfers and a local range in one scratch window or in tile SRAM queue the transfer that their operands name behind the others, write the number of its packets to rd and
advance; fields that the core does not check leave free values in the partition beside that (log entry 53). With 4 queued they stall; a bad local range traps as a load or store access fault (R184 to R187). Completes: XT.PUT, XT.GET. -/
def Obligations.TransfersQueue : Prop :=
  ∀ (t c w : Nat) (s : State) (put : Bool), XtAt s t c (if put then .put else .get) w →
    let k := s.core t c
    let x := transferOf put k w
    let i : Instr := if put then .xtPut t c else .xtGet t c
    let f := s.fetched t c 4
    (k.tq.length < 4 → localOk (s.tile t).guarded x.local_ x.left = true →
      exec i s = .next ((if transferBad x (k.getX (iRs3 w)) then f.wildPart k.part else f).modCore t c fun k =>
        ({ k with tq := k.tq ++ [x] }.setX (iRd w) (u64 (packetsOf x.remote x.left))).next (k.pc + 4))) ∧
    (4 ≤ k.tq.length → exec i s = .next f) ∧
    (k.tq.length < 4 → localOk (s.tile t).guarded x.local_ x.left = false →
      ∃ cause, (cause = 5 ∨ cause = 7) ∧ exec i s = .next (f.spend.trap t c cause (u64 x.local_)))

/-- XT.PROBE at a running core: under MODE 0 it returns 0 and changes nothing but rd and the pc. With good operands and no uncorrectable word among what it reads it returns 1 if the probe is positive, else 0, adds 1 to the
probes of the tile's and its context's tallies and the result to their positives, sets bit n of the record's word 2 if positive, and bit n of word 1 if positive under MODE 3 with AUD = 0 and bit n of word 0 clear (R145, R147). A driver error of its fields
leaves free values in rd and in tile SRAM, and the core goes on (R195, log entry 86). Completes: XT.PROBE. -/
def Obligations.ProbeCompletes : Prop :=
  ∀ (t c w : Nat) (s : State), XtAt s t c .probe w →
    let k := s.core t c
    let T := s.tile t
    let p := probeOf (k.getX (iRs1 w)) (k.getX (iRs2 w)) (k.getX (iRs3 w))
    let f := s.fetched t c 4
    let ends (v : W64) (k : Core) : Core := (k.setX (iRd w) v).next (k.pc + 4)
    (k.mode = 0 → exec (.xtProbe t c) s = .next (f.modCore t c (ends 0))) ∧
    (k.mode ≠ 0 → probeBad T.sram (k.getX (iRs1 w)) (k.getX (iRs2 w)) (k.getX (iRs3 w)) = true →
      exec (.xtProbe t c) s = .next (((f.spendN 2).modTile t fun T => T.wildSram (s.freeN + 1)).modCore t c (ends (Config.free64 s.freeN)))) ∧
    (k.mode ≠ 0 → probeBad T.sram (k.getX (iRs1 w)) (k.getX (iRs2 w)) (k.getX (iRs3 w)) = false → probeReads T.sram T.badSram p = none →
      let pos := probePositive T.sram p k.theta
      let bit := BitVec.ofNat 64 (2 ^ p.col)
      let r := readRec T.sram p.record
      let r' : PredRec := { r with
        w2 := if pos then r.w2 ||| bit else r.w2
        w1 := if pos ∧ k.mode = 3 ∧ r.aud = false ∧ bitOf r.w0 p.col = false then r.w1 ||| bit else r.w1 }
      let ty : Tally := { probes := 1, probepos := if pos then 1 else 0 }
      exec (.xtProbe t c) s = .next ((((f.modTile t fun T' => T'.meet fun w => (probeReads T.sram [w] p).isSome).modTile t
        fun T => (T.putRec p.record r').tally ty).modCtx k.ctx fun x => x.tally ty).modCore t c (ends (u64 (if pos then 1 else 0)))))

/-- XT.ENQ at a running core with an address that is a multiple of 32, 32 bytes in a scratch window or in tile SRAM, none uncorrectable, and room: the command of those 32 bytes stands at the end of the engine's queue, rd is 0 and the pc has moved on by 4; a halted
engine discards the command, counts it, and rd is 1. No other tile changes. A running engine with 16 queued commands stalls the core; a misaligned address traps with cause 4, one outside scratch and tile SRAM with cause 5 (R49, R77, R194). Completes: XT.ENQ. -/
def Obligations.EnqueueCompletes : Prop :=
  ∀ (t c w : Nat) (s : State), XtAt s t c .enq w →
    let T := s.tile t
    let k := T.core c
    let a := (k.getX (iRs1 w)).toNat
    let f := s.fetched t c 4
    let word (i : Nat) : W64 := BitVec.ofNat 64 (leWord (T.localBytes (a + 8 * i) 8))
    let cmd : EngCmd := { w0 := word 0, w1 := word 1, w2 := word 2, w3 := word 3, core := c, ctx := k.ctx, mode := k.mode, audn := k.audn }
    (a % 32 = 0 → localOk T.guarded a 32 = true → T.localBad a 32 = none → (T.eng.halt = true ∨ T.eng.queue.length < 16) →
      GoesTo (exec (.xtEnq t c) s) fun u =>
        (u.tile t).eng = (if T.eng.halt then { T.eng with discard := T.eng.discard + 1 } else { T.eng with queue := T.eng.queue ++ [cmd] }) ∧
        (u.core t c).pc = k.pc + 4 ∧ ((u.core t c).getX (iRd w) = if iRd w = 0 then 0 else if T.eng.halt then 1 else 0) ∧ (∀ n, n ≠ t → u.tile n = s.tile n)) ∧
    (a % 32 = 0 → localOk T.guarded a 32 = true → T.eng.halt = false → 16 ≤ T.eng.queue.length → exec (.xtEnq t c) s = .next f) ∧
    (a % 32 ≠ 0 → exec (.xtEnq t c) s = .next (f.trap t c 4 (u64 a))) ∧
    (a % 32 = 0 → localOk T.guarded a 32 = false → exec (.xtEnq t c) s = .next (f.trap t c 5 (u64 a)))

/-- XT.CSET writes VALUE, XT.CADD adds to it modulo 2^32, XT.CARM writes TARGET, of the counter that rs1 names modulo 64; each returns the previous value of the half it writes, and the pc moves on by 4 (after R192; its atomicity is not stated here). The counter's other half, every other counter,
the tile's SRAM and scratch and every other tile stay as they are. That the result is zero-extended and the number taken modulo 64 is the model's reading (log entry 19). Completes: XT.CSET, XT.CADD, XT.CARM. -/
def Obligations.CounterInstructions : Prop :=
  ∀ (t c w : Nat) (s : State),
    let k := s.core t c
    let i := (k.getX (iRs1 w)).toNat % 64
    let v : W32 := (k.getX (iRs2 w)).setWidth 32
    let old := (s.tile t).ctr i
    let rest (u : State) (prev : W32) : Prop := (∀ j, j ≠ i → (u.tile t).ctr j = (s.tile t).ctr j) ∧ (∀ n, n ≠ t → u.tile n = s.tile n) ∧
      (u.tile t).sram = (s.tile t).sram ∧ (u.tile t).scr = (s.tile t).scr ∧ (u.core t c).pc = k.pc + 4 ∧
      (u.core t c).getX (iRd w) = (if iRd w = 0 then 0 else prev.setWidth 64) ∧ Only [.tiles] s u
    (XtAt s t c .cset w → GoesTo (exec (.xtCset t c) s) fun u => (u.tile t).ctr i = { value := v, target := old.target } ∧ rest u old.value) ∧
    (XtAt s t c .cadd w → GoesTo (exec (.xtCadd t c) s) fun u =>
      ((u.tile t).ctr i).value.toNat = (old.value.toNat + v.toNat) % 2 ^ 32 ∧ ((u.tile t).ctr i).target = old.target ∧ rest u old.value) ∧
    (XtAt s t c .carm w → GoesTo (exec (.xtCarm t c) s) fun u => (u.tile t).ctr i = { value := old.value, target := v } ∧ rest u old.target)

/-- XT.CWAIT at a running core returns VALUE and goes on where VALUE − TARGET as a signed difference is 0 or more; otherwise the core enters WAIT without advancing. CWAIT_RESUME takes a waiting core whose counter has reached its target back to RUN, behind the instruction, with VALUE in its rd (R193). Completes: XT.CWAIT, CWAIT_RESUME. -/
def Obligations.CounterWait : Prop :=
  (∀ (t c w : Nat) (s : State), XtAt s t c .cwait w →
    let k := s.core t c
    let i := (k.getX (iRs1 w)).toNat % 64
    let r := (s.tile t).ctr i
    (0 ≤ (r.value - r.target).toInt → exec (.xtCwait t c) s = .next ((s.fetched t c 4).modCore t c fun k => (k.setX (iRd w) (r.value.setWidth 64)).next (k.pc + 4))) ∧
    ((r.value - r.target).toInt < 0 → exec (.xtCwait t c) s = .next ((s.fetched t c 4).modCore t c fun k => { k with st := .wait, waiting := some (i, iRd w) }))) ∧
  ∀ (t c i rd : Nat) (s : State), t < 32768 → c < 4 → s.runs t = true → (s.core t c).st = .wait → (s.core t c).waiting = some (i, rd) →
    0 ≤ (((s.tile t).ctr i).value - ((s.tile t).ctr i).target).toInt →
    GoesTo (exec (.cwaitResume t c) s) fun u => (u.core t c).st = .run ∧ (u.core t c).waiting = none ∧ (u.core t c).pc = (s.core t c).pc + 4 ∧
      (u.core t c).getX rd = (if rd = 0 then 0 else ((s.tile t).ctr i).value.setWidth 64) ∧ (∀ n, n ≠ t → u.tile n = s.tile n)

/-- TRANSFER_PACKET_ISSUE on a tile whose clock runs serves the first core in rotation whose oldest transfer may issue: a write goes out as one packet, a read takes a tracker and goes out as one request. LAUNCH_START reaches a tile of its partition with its context's epoch in force: the cores
that it names start, where the tile can take them, and its LAUNCH gets the report. LOAD_TILE_START begins a load on a free loader of a tile that can take it; LOAD_END ends the load of a tile with the status that its loader has come to (R173, R187 to R190, R202 to R206, R312). Completes: TRANSFER_PACKET_ISSUE, LAUNCH_START,
LOAD_TILE_START, LOAD_END. -/
def Obligations.TileTrafficCompletes : Prop :=
  (∀ (t c : Nat) (x : Transfer) (s : State), t < 32768 → s.runs t = true → (s.tile t).nextIssue = some (c, x) →
    exec (.transferPacketIssue t) s = .next (let s' := s.modTile t fun T => { T with rotor := (c + 1) % 4 }
      if x.put then issuePut s' t c x else issueGet s' t c x)) ∧
  (∀ (i : Nat) (m : StartMsg) (s : State), lget? s.fab.starts i = some m → s.parksTile m.tile = false → (s.tileSt m.tile).part = some m.part →
    let d := (s.modFab fun f => { f with starts := ldel f.starts i }).tell (s.tilePhys m.tile) m.ctx
    d.staleCtx (s.tilePhys m.tile) m.ctx m.epoch = false →
    let d' := if (startOutcome d m).2.isEmpty then d else d.modTile m.tile fun T => T.newProgram m.ctx
    exec (.launchStart i) s = .next (((startOutcome d m).2.foldl (fun s c => s.modCore m.tile c fun k => k.started s.rick.panel m.tile c m) d').launchReport
      m.ctx m.n m.tile (startOutcome d m).2 (startOutcome d m).1)) ∧
  (∀ (i : Nat) (r : LoadReq) (s : State), lget? s.fab.loads i = some r → s.parksTile r.tile = false → (s.tileSt r.tile).part = some r.part →
    let d := (s.modFab fun f => { f with loads := ldel f.loads i }).tell (s.tilePhys r.tile) r.ctx
    d.staleCtx (s.tilePhys r.tile) r.ctx r.epoch = false → (s.tileSt r.tile).st = .active → (s.tile r.tile).st = .active → (s.tile r.tile).ld.cur = none →
    (s.tile r.tile).resetting = false → exec (.loadTileStart i) s = .next (d.loadBegin r.tile r)) ∧
  (∀ (t st : Nat) (s : State), t < 32768 → (s.tile t).loadEnds = some st → exec (.loadEnd t) s = .next (s.loadFinish t st))

/-! ### Where commands complete: the matrix engine -/

/-- LOADW, ZERO and NOP at the head of the queue of a running engine that is not halted, free to dispatch, complete (R50, R51). One that its gate skips leaves the queue, retires and counts as skipped, with its counter's increment only under GSIG (R54). Any other NOP retires at once with its counter's increment (R60). Any other ZERO
enters the array, and any other LOADW the loader: as a driver error with free values in its tile where its fields or its block break R61. Where the array, the loader and the packer are empty, no fault strikes and a LOADW breaks no rule, meets no uncorrectable word and finds its count right, the ENGINE_RETIRE that follows completes too: it gives the LOADW's slot the panel
that its block holds, marked loaded (R43, R58), or makes every word of the ZERO's rows 0 and leaves every other row's words alone (R60), and one more command has retired (R53). Completes: LOADW, ZERO, NOP. -/
def Obligations.EngineLoadsComplete : Prop :=
  let skipped (s : State) (t : Nat) (c : EngCmd) (o : Out) : Prop := GoesTo o fun u =>
    (u.tile t).eng = { (s.tile t).eng with queue := (s.tile t).eng.queue.drop 1, retired := (s.tile t).eng.retired + 1, skipped := (s.tile t).eng.skipped + 1 } ∧
    (∀ k, (u.tile t).ctr k = if c.gsig = true ∧ c.den = true ∧ k = c.dctr then { (s.tile t).ctr k with value := ((s.tile t).ctr k).value + 1 } else (s.tile t).ctr k) ∧
    (u.tile t).sram = (s.tile t).sram ∧ ∀ n, n ≠ t → u.tile n = s.tile n
  let quiet (T : Tile) : Prop := T.eng.loader = [] ∧ T.eng.array = [] ∧ T.eng.packer = []
  (∀ (t : Nat) (c : EngCmd) (hw : EngHw) (s : State), Heads s t hw.stream c 1 →
    (loadwFieldsBad c = true → exec (.loadw t hw) s = .next (s.badCmd t .loader c hw none)) ∧
    (loadwFieldsBad c = false → gateSkips (s.tile t) c = true → skipped s t c (exec (.loadw t hw) s)) ∧
    (loadwFieldsBad c = false → gateSkips (s.tile t) c = false → loadwBad (s.tile t).sram c = true → exec (.loadw t hw) s = .next (s.badCmd t .loader c hw none)) ∧
    (loadwFieldsBad c = false → gateSkips (s.tile t) c = false → loadwBad (s.tile t).sram c = false →
      exec (.loadw t hw) s = .next (s.setTile t ((s.tile t).placed .loader { cmd := c, hw })) ∧
      (quiet (s.tile t) → hw.first = none → loadwCause (s.tile t).sram (s.tile t).badSram c (loadPanel (s.tile t).sram c) = none →
        GoesTo (exec (.engineRetire t .loader) (s.setTile t ((s.tile t).placed .loader { cmd := c, hw }))) fun v =>
          (v.tile t).eng.slotOf c.slot = { loadPanel (s.tile t).sram c with loaded := true } ∧ (v.tile t).eng.slotOf (!c.slot) = (s.tile t).eng.slotOf (!c.slot) ∧
          (v.tile t).eng.acc = (s.tile t).eng.acc ∧ (v.tile t).eng.retired = (s.tile t).eng.retired + 1 ∧ (v.tile t).sram = (s.tile t).sram))) ∧
  (∀ (t : Nat) (c : EngCmd) (hw : EngHw) (s : State), Heads s t hw.stream c 4 →
    (gateSkips (s.tile t) c = true → skipped s t c (exec (.zero t hw) s)) ∧
    (gateSkips (s.tile t) c = false → exec (.zero t hw) s = .next (s.setTile t ((s.tile t).placed .array { cmd := c, hw })) ∧
      (quiet (s.tile t) → hw.first = none →
        GoesTo (exec (.engineRetire t .array) (s.setTile t ((s.tile t).placed .array { cmd := c, hw }))) fun v =>
          (∀ r n, r ∈ c.rows → n < 64 → tget (0 : W32) (v.tile t).eng.acc (r * 64 + n) = 0) ∧
          (∀ r n, r ∉ c.rows → n < 64 → tget (0 : W32) (v.tile t).eng.acc (r * 64 + n) = tget (0 : W32) (s.tile t).eng.acc (r * 64 + n)) ∧
          (v.tile t).eng.retired = (s.tile t).eng.retired + 1 ∧ (v.tile t).sram = (s.tile t).sram))) ∧
  ∀ (t : Nat) (c : EngCmd) (s : State), Heads s t .waits c 0 →
    (gateSkips (s.tile t) c = true → skipped s t c (exec (.nop t) s)) ∧
    (gateSkips (s.tile t) c = false → GoesTo (exec (.nop t) s) fun u =>
      (u.tile t).eng = { (s.tile t).eng with queue := (s.tile t).eng.queue.drop 1, retired := (s.tile t).eng.retired + 1 } ∧ (u.tile t).sram = (s.tile t).sram ∧
      (∀ k, (u.tile t).ctr k = if c.den = true ∧ k = c.dctr then { (s.tile t).ctr k with value := ((s.tile t).ctr k).value + 1 } else (s.tile t).ctr k) ∧
      ∀ n, n ≠ t → u.tile n = s.tile n)

/-- MMA and STORE at the head of the queue of a running engine that is not halted, free to dispatch, complete (R50, R51). One that its gate skips (for an MMA also an effective M of 0) leaves the queue, retires and counts as skipped (R54, R55). One whose fields break R61 enters its unit as a driver error with free values in its tile. Any other MMA without PRED, on a loaded panel and a block that
fit, enters the array with its effective M, the panel of its slot and its path (R43, R55, R120). Any other STORE, with room for its block and no reserved bit in a record that it merges, enters the packer, which holds the block of its rows and its mask word (R59, R69, R70), while no byte outside them changes. Where the engine runs nothing else, no fault strikes, the MMA meets no uncorrectable word
and finds its count right, and the STORE writes no mask, the ENGINE_RETIRE that follows completes too: the MMA's rows take the sums of R46 and the class of its panel (R48), a row of the other class under ACC = 1 free ones (log entry 10); the STORE's block stands in tile SRAM at its OHDR with every byte outside it as it was, and its rows are 0 unless KEEPACC (R59). The clinker check
sees a change of a block sum, in accumulator units, exactly where 21 does not divide it: so it sees every plus or minus power of two (R72, R75). Completes: MMA, STORE. -/
def Obligations.EngineComputesComplete : Prop :=
  let skipped (s : State) (t : Nat) (c : EngCmd) (o : Out) : Prop := GoesTo o fun u =>
    (u.tile t).eng = { (s.tile t).eng with queue := (s.tile t).eng.queue.drop 1, retired := (s.tile t).eng.retired + 1, skipped := (s.tile t).eng.skipped + 1 } ∧
    (u.tile t).sram = (s.tile t).sram ∧ ∀ n, n ≠ t → u.tile n = s.tile n
  let quiet (T : Tile) : Prop := T.eng.loader = [] ∧ T.eng.array = [] ∧ T.eng.packer = []
  (∀ (t : Nat) (c : EngCmd) (hw : EngHw) (s : State), Heads s t hw.stream c 2 →
    (mmaFieldsBad c = true → exec (.mma t hw) s = .next (s.badMma t c hw)) ∧
    (mmaFieldsBad c = false → gateSkips (s.tile t) c = true → skipped s t c (exec (.mma t hw) s)) ∧
    (mmaFieldsBad c = false → gateSkips (s.tile t) c = false →
      let T := s.tile t
      let h := readHdr T.sram c.hdr
      let sl := T.eng.slotOf c.slot
      let mr := if c.mrows then min (T.ctr c.gctr).value.toNat (c.mm1 + 1) else c.mm1 + 1
      let ones := BitVec.allOnes 64
      (mmaBad sl T.sram c = true → exec (.mma t hw) s = .next (s.badMma t c hw)) ∧
      (mmaBad sl T.sram c = false → c.pred = false → GoesTo (exec (.mma t hw) s) fun u =>
        (u.tile t).eng = T.eng.place .array { cmd := c, hw, rows := mr, cols := ones, panel := sl, path := pathOf s.bev s.bevMode h } ∧
        (u.tile t).sram = T.sram ∧ (∀ n, n ≠ t → u.tile n = s.tile n) ∧
        ∀ cl, rateClass h.etype sl.etype sl.fmt = some cl → quiet T → hw.first = none → hw.upset = none → mmaCause T.sram T.badSram c sl mr true = none →
          GoesTo (exec (.engineRetire t .array) u) fun v =>
            (∃ n, (v.tile t).eng.acc = (mmaRun T.eng T.sram c sl cl mr ones none n).acc ∧ (v.tile t).eng.cls = (mmaRun T.eng T.sram c sl cl mr ones none n).cls) ∧
            (v.tile t).eng.retired = T.eng.retired + 1 ∧ (v.tile t).sram = T.sram))) ∧
  (∀ (t : Nat) (c : EngCmd) (hw : EngHw) (s : State), Heads s t hw.stream c 3 →
    (storeFieldsBad c = true → exec (.store t hw) s = .next (s.badCmd t .packer c hw none)) ∧
    (storeFieldsBad c = false → gateSkips (s.tile t) c = true → skipped s t c (exec (.store t hw) s)) ∧
    (storeFieldsBad c = false → gateSkips (s.tile t) c = false →
      let T := s.tile t
      let bs := storeBlock T.eng c
      c.hdr + bs.length ≤ sramSize → (c.maskout = true → c.maskptr % 32 = 0 → (readRec T.sram c.maskptr).resv = false) → T.badSram.any (storeReads T.sram c bs.length) = false →
      GoesTo (exec (.store t hw) s) fun u =>
        (u.tile t).eng.packer.map (fun r => (r.cmd, r.block, r.mask)) =
          T.eng.packer.map (fun r => (r.cmd, r.block, r.mask)) ++ [(c, bs, if c.maskout then some (storeMask (readRec T.sram c.maskptr) c (observedMask T.eng c)) else none)] ∧
        (u.tile t).eng.queue = T.eng.queue.drop 1 ∧ (u.tile t).eng.acc = T.eng.acc ∧ (∀ n, n ≠ t → u.tile n = s.tile n) ∧
        (c.maskout = false → (∀ a, a < c.hdr ∨ c.hdr + bs.length ≤ a → memGet (u.tile t).sram a = memGet T.sram a) ∧
          (quiet T → hw.first = none → GoesTo (exec (.engineRetire t .packer) u) fun v =>
            memGetList (v.tile t).sram c.hdr bs.length = bs ∧ (∀ a, a < c.hdr ∨ c.hdr + bs.length ≤ a → memGet (v.tile t).sram a = memGet T.sram a) ∧
            (v.tile t).eng.acc = (if c.keepacc then T.eng.acc else (zeroRows T.eng c.rows).acc) ∧ (v.tile t).eng.retired = T.eng.retired + 1)))) ∧
  ((∀ x d : Int, clinker x (x + d) = false ↔ (21 : Int) ∣ d) ∧
  (∀ (x : Int) (j : Nat), clinker x (x + 2 ^ j) = true ∧ clinker x (x - 2 ^ j) = true))

/-- ENGINE_RETIRE takes the oldest command of a unit of a running engine, no driver error, to its end. What the command reads of words that changed while it ran, or that an un-retired STORE writes, is free (R52). Without a fault it leaves its unit, one command more has retired with its counter's increment, its passes and corrected words are counted, a LOADW's slot holds its panel, an MMA's rows hold their sums, a ZERO's rows are
zeroed, a STORE whose words nothing has written since it began, without a mask, stands as its block in tile SRAM with no other byte changed, and any other command leaves tile SRAM alone (R43, R48, R53, R59, R60, R79). After a retry that passed it retires likewise and the retry is counted and raised (R76). A fault halts the engine: HALT, CAUSE and FTAG are set, the queue and the commands
behind it in its unit are discarded and counted, while the other units keep theirs (R77). ENG_CTRL.CLEAR leaves the halt with the queue empty, both slots empty and the accumulator store zero, and does nothing to an engine that is not halted (R78). Completes: ENGINE_RETIRE, ENG_CTRL_CLEAR. -/
def Obligations.EngineEndsComplete : Prop :=
  (∀ (t : Nat) (u : EngUnit) (r0 : Running) (l : List Running) (s : State), t < 32768 → s.runs t = true → (s.tile t).eng.unit u = r0 :: l →
    let T := s.tile t
    let ws := T.eng.unsure r0
    let m := freeWords T.sram s.freeN ws
    let r := r0.readsBad m
    let fate := r.fares T.eng.retryEn m T.badSram
    let s' := (s.unitReads t (r.reads m)).spendN ws.length
    (r.bad = false → fate = .runs → GoesTo (exec (.engineRetire t u) s) fun v =>
      ((v.tile t).eng.unit u).map (·.cmd) = l.map (·.cmd) ∧ (r.cmd.op ≠ 3 → (v.tile t).eng.unit u = l) ∧ (v.tile t).eng.retired = T.eng.retired + 1 ∧ (v.tile t).eng.queue = T.eng.queue ∧ (∀ n, n ≠ t → v.tile n = s'.tile n) ∧
      (v.tile t).eng.busycyc = T.eng.busycyc + BitVec.ofNat 32 (r.passes m).1 ∧ (v.tile t).eng.corrected = T.eng.corrected + BitVec.ofNat 32 (r.struck m).corrected ∧
      (∀ k, (v.tile t).ctr k = if r.cmd.den = true ∧ k = r.cmd.dctr then { T.ctr k with value := (T.ctr k).value + 1 } else T.ctr k) ∧
      (r.cmd.op ≠ 3 → (v.tile t).sram = T.sram) ∧
      (r.cmd.op = 1 → (v.tile t).eng.slotOf r.cmd.slot = { loadPanel m r.cmd with loaded := true }) ∧
      (∀ cl, r.cmd.op = 2 → r.cls? m = some cl → ∃ n, (v.tile t).eng.acc = (mmaRun T.eng m r.cmd r.panel cl r.rows r.cols r.hw.upset n).acc) ∧
      (r.cmd.op = 4 → (v.tile t).eng.acc = (zeroRows T.eng r.cmd.rows).acc) ∧
      (r.cmd.op = 3 → r.mask = none → r.hits = [] → memGetList (v.tile t).sram r.cmd.hdr r.block.length = r.block ∧
        ∀ a, a < r.cmd.hdr ∨ r.cmd.hdr + r.block.length ≤ a → memGet (v.tile t).sram a = memGet T.sram a)) ∧
    (∀ k, fate = .retried k → exec (.engineRetire t u) s = .next ((s'.engRetires t u r fate m).engRetried t r.cmd k)) ∧
    (∀ k, r.bad = false → fate = .halts k → T.eng.halt = false → GoesTo (exec (.engineRetire t u) s) fun v =>
      (v.tile t).eng.halt = true ∧ (v.tile t).eng.cause = some k ∧ (v.tile t).eng.ftag = BitVec.ofNat 8 r.cmd.tag ∧ (v.tile t).eng.queue = [] ∧ (v.tile t).eng.unit u = [] ∧
      (v.tile t).eng.discard = T.eng.discard + BitVec.ofNat 32 (T.eng.queue.length + l.length) ∧ (v.tile t).eng.retired = T.eng.retired ∧
      (∀ w, w ≠ u → (v.tile t).eng.unit w = T.eng.unit w) ∧ (v.tile t).sram = T.sram ∧ (v.tile t).ctrs = T.ctrs)) ∧
  (∀ (t : Nat) (s : State), t < 32768 → s.runs t = true → exec (.engCtrlClear t) s = .next (s.setTile t ((s.tile t).modEng Engine.clear))) ∧
  (∀ e : Engine, e.halt = true → e.clear.halt = false ∧ e.clear.cause = none ∧ e.clear.queue = [] ∧ e.clear.acc = [] ∧ e.clear.slot0.loaded = false ∧ e.clear.slot1.loaded = false) ∧
  ∀ e : Engine, e.halt = false → e.clear = e

/-! ### Where commands complete: packets -/

/-- A WRITE that has arrived at a tile which serves it, inside tile SRAM or a scratch window, puts its bytes there and then counts: VALUE of its counter gains 1 and TARGET becomes TOTAL with LAST; a CNT to control space only counts (R217). Where no word that the write covers in part is uncorrectable
and no predict record is in use, its bytes read back at its offset, no other byte of the tile's SRAM or of its scratch changes, no other counter and no other tile, and the packet is gone. Completes: WRITE, CNT. -/
def Obligations.WritesLand : Prop :=
  let counted (T : Tile) (p : Packet) : Ctr := { value := (T.ctr p.dctr).value + 1, target := if p.last then p.total else (T.ctr p.dctr).target }
  (∀ (i t : Nat) (f : Flight) (s : State), AtTile s i f t → f.pkt.opc = .write → aSpace f.pkt.dest = 0 → aOff f.pkt.dest + f.pkt.payload.length ≤ sramSize →
    exec (.write i) s = .next ((((toldAt s f t).dropFlight i).landSram t (aOff f.pkt.dest) f.pkt.payload).modTile t fun T => T.land_ f.pkt.dctr f.pkt.last f.pkt.total)) ∧
  (∀ (i t : Nat) (f : Flight) (s : State), AtTile s i f t → f.pkt.opc = .write → aSpace f.pkt.dest = 1 →
    windowOf (s.tile t).guarded (aOff f.pkt.dest) f.pkt.payload.length = .scratch →
    exec (.write i) s = .next ((((toldAt s f t).dropFlight i).landScr t (aOff f.pkt.dest) f.pkt.payload).modTile t fun T => T.land_ f.pkt.dctr f.pkt.last f.pkt.total)) ∧
  (∀ (i t : Nat) (f : Flight) (s : State), AtTile s i f t → f.pkt.opc = .write → aSpace f.pkt.dest = 0 → aOff f.pkt.dest + f.pkt.payload.length ≤ sramSize →
    partBad (s.tile t).badSram (aOff f.pkt.dest) f.pkt.payload.length = [] → (s.tile t).recsHeld = [] →
    GoesTo (exec (.write i) s) fun u =>
      memGetList (u.tile t).sram (aOff f.pkt.dest) f.pkt.payload.length = f.pkt.payload ∧
      (∀ a, a < aOff f.pkt.dest ∨ aOff f.pkt.dest + f.pkt.payload.length ≤ a → memGet (u.tile t).sram a = memGet (s.tile t).sram a) ∧
      (u.tile t).ctr f.pkt.dctr = counted (s.tile t) f.pkt ∧ (∀ k, k ≠ f.pkt.dctr → (u.tile t).ctr k = (s.tile t).ctr k) ∧
      (u.tile t).scr = (s.tile t).scr ∧ (∀ n, n ≠ t → u.tile n = s.tile n) ∧ u.fab.flights = ldel s.fab.flights i) ∧
  (∀ (i t : Nat) (f : Flight) (s : State), AtTile s i f t → f.pkt.opc = .cnt → aSpace f.pkt.dest = 1 →
    GoesTo (exec (.cnt i) s) fun u =>
      (u.tile t).ctr f.pkt.dctr = counted (s.tile t) f.pkt ∧ (∀ k, k ≠ f.pkt.dctr → (u.tile t).ctr k = (s.tile t).ctr k) ∧
      (u.tile t).sram = (s.tile t).sram ∧ (u.tile t).scr = (s.tile t).scr ∧ (∀ n, n ≠ t → u.tile n = s.tile n) ∧ u.fab.flights = ldel s.fab.flights i)

/-- A WRITE that has arrived at a tile which serves it, to an append window or to the start of a close window, is taken by its list port and leaves the packet's counter alone; one to the registers that sets EN of an LST_CTRL writes its registers and counts. A write to an append window that is no multiple of 8 bytes, a close of 2^32 or more, and a port with EXCESS
leave free values in the port and tile beside that (R157 to R162). An append of one entry to an armed port with room that has not closed and is not full puts the entry at BASE + 8 × ACC, raises ACC by 1 and no byte beside the entry's changes. Completes: LIST_APPEND, LIST_CLOSE, LIST_ARM. -/
def Obligations.ListWritesComplete : Prop :=
  let goes (s : State) (i t : Nat) (f : Flight) (w : Window) : Prop := AtTile s i f t ∧ f.pkt.opc = .write ∧ aSpace f.pkt.dest = 1 ∧
    windowOf (s.tile t).guarded (aOff f.pkt.dest) f.pkt.payload.length = w
  (∀ (i t p : Nat) (f : Flight) (s : State), goes s i t f (.append p) →
    exec (.listAppend i) s = .next (((toldAt s f t).dropFlight i).listWrote t p ((s.tile t).listAppend p f.pkt.payload) (f.pkt.payload.length % 8 != 0))) ∧
  (∀ (i t p : Nat) (f : Flight) (s : State), goes s i t f (.close p) →
    exec (.listClose i) s = .next (((toldAt s f t).dropFlight i).listWrote t p ((s.tile t).listClose p (leWord f.pkt.payload)) (decide (2 ^ 32 ≤ leWord f.pkt.payload)))) ∧
  (∀ (i t : Nat) (f : Flight) (s : State), goes s i t f .regs → armsList (aOff f.pkt.dest) f.pkt.payload = true →
    exec (.listArm i) s = .next ((((toldAt s f t).dropFlight i).setTile t ((s.tile t).regsWrite (aOff f.pkt.dest) (f.pkt.payload.length / 4 + 1) f.pkt.payload)).modTile t
      fun T => T.land_ f.pkt.dctr f.pkt.last f.pkt.total)) ∧
  ∀ (i t p : Nat) (f : Flight) (s : State), goes s i t f (.append p) → f.pkt.payload.length = 8 →
    let l := (s.tile t).list p
    l.en = true → l.closed = false → l.excess = false → l.acc.toNat < l.cap → l.base + 8 * l.acc.toNat + 8 ≤ sramSize → l.closes < l.nsrc →
    GoesTo (exec (.listAppend i) s) fun u =>
      memGetList (u.tile t).sram (l.base + 8 * l.acc.toNat) 8 = f.pkt.payload ∧ (u.tile t).list p = { l with acc := l.acc + 1 } ∧
      (∀ a, a < l.base + 8 * l.acc.toNat ∨ l.base + 8 * l.acc.toNat + 8 ≤ a → memGet (u.tile t).sram a = memGet (s.tile t).sram a) ∧
      (∀ n, n ≠ t → u.tile n = s.tile n) ∧ u.fab.flights = ldel s.fab.flights i

/-- A READ that has arrived at a tile, at a site's control port or at an edge die which serves it is answered there with one response, and a WRITE that has arrived at a control port or at an edge die is taken there (R217, R270 to R283, R325). A READ inside tile SRAM that meets no uncorrectable word is answered with the bytes that stand there, to its source; one that goes beyond it is
answered BAD_ADDRESS. A slice's fill carries no epoch of its own. Completes: READ, WRITE_TO_OWNER. -/
def Obligations.OwnersAnswer : Prop :=
  let atEdge (s : State) (i e : Nat) (f : Flight) : Prop :=
    s.flight i = some f ∧ f.goal = .edge e ∧ f.place = .edge e ∧ aPanel f.pkt.dest = s.rick.panel
  let ofEdge (s : State) (e : Nat) (f : Flight) (o : Out) (r : State → State) : Prop :=
    (f.fill.isSome = true → o = .next (r s)) ∧
    (f.fill = none → (s.tell (edgeEp e) f.pkt.ctx).staleCtx (edgeEp e) f.pkt.ctx f.pkt.epoch = false → o = .next (r (s.tell (edgeEp e) f.pkt.ctx)))
  let atPort (s d : State) (i S : Nat) (f : Flight) : Prop :=
    s.flight i = some f ∧ f.goal = .control S ∧ f.arrived (s.phys S) = true ∧ (s.site (s.phys S)).part = some f.pkt.spart ∧
      d = s.tell (s.phys S) f.pkt.ctx ∧ d.staleCtx (s.phys S) f.pkt.ctx f.pkt.epoch = false
  (∀ (i t : Nat) (f : Flight) (joins : Bool) (s : State), AtTile s i f t → f.pkt.opc = .read → exec (.read i joins) s = .next ((toldAt s f t).readTile i f t joins)) ∧
  (∀ (i t : Nat) (f : Flight) (joins : Bool) (s : State), AtTile s i f t → f.pkt.opc = .read → aSpace f.pkt.dest = 0 → aOff f.pkt.dest + f.pkt.len ≤ sramSize →
    allBad (s.tile t).badSram (aOff f.pkt.dest) f.pkt.len = [] → GoesTo (exec (.read i joins) s) fun u =>
      (∃ g, u.fab.flights = ldel s.fab.flights i ++ [g] ∧ g.pkt.opc = .rdata ∧ g.pkt.dest = f.pkt.src ∧ g.pkt.seq = f.pkt.seq ∧
        g.pkt.payload = memGetList (s.tile t).sram (aOff f.pkt.dest) f.pkt.len) ∧
      (u.tile t).sram = (s.tile t).sram ∧ (∀ n, n ≠ t → u.tile n = s.tile n)) ∧
  (∀ (i t : Nat) (f : Flight) (joins : Bool) (s : State), AtTile s i f t → f.pkt.opc = .read → aSpace f.pkt.dest = 0 → sramSize < aOff f.pkt.dest + f.pkt.len →
    GoesTo (exec (.read i joins) s) fun u => (∃ g, u.fab.flights = ldel s.fab.flights i ++ [g] ∧ g.pkt.opc = .rerr ∧ g.pkt.status = 1 ∧ g.pkt.dest = f.pkt.src) ∧
      (u.tile t).fabBadaddr = (s.tile t).fabBadaddr + 1) ∧
  (∀ (i S : Nat) (f : Flight) (joins : Bool) (bs : List Byte) (s d : State), atPort s d i S f → f.pkt.opc = .read → d.siteBytes (s.phys S) (aOff f.pkt.dest) f.pkt.len = some bs →
    exec (.read i joins) s = .next ((d.dropFlight i).respond f (.router (s.phys S) 0 0) .rdata 0 bs)) ∧
  (∀ (i S : Nat) (f : Flight) (joins : Bool) (s d : State), atPort s d i S f → f.pkt.opc = .read → d.siteBytes (s.phys S) (aOff f.pkt.dest) f.pkt.len = none →
    exec (.read i joins) s = .next ((d.dropFlight i).respond f (.router (s.phys S) 0 0) .rerr stBadAddress [])) ∧
  (∀ (i e : Nat) (f : Flight) (joins : Bool) (s : State), atEdge s i e f → f.pkt.opc = .read → ofEdge s e f (exec (.read i joins) s) fun d => d.readEdge i f e) ∧
  (∀ (i S : Nat) (f : Flight) (s d : State), atPort s d i S f → f.pkt.opc = .write → exec (.writeToOwner i) s = .next (d.writeControl i f (s.phys S))) ∧
  (∀ (i e : Nat) (f : Flight) (s : State), atEdge s i e f → f.pkt.opc = .write → ofEdge s e f (exec (.writeToOwner i) s) fun d => d.writeEdge i f e)

/-- Responses that have arrived at the tile that asked, whose clock runs, in its partition. RDATA for a live tracker of a core, with the tile's image loader idle: its bytes stand at the tracker's local address in tile SRAM or scratch and no other byte there changes, the tracker is free, VALUE of its counter has gained 1 and no other counter changes; the local words that it covers in part hold no uncorrectable
error and, in tile SRAM, no predict record is in use (R189, R217, R226). RERR likewise writes nothing, frees the tracker, adds 1 to its counter and records its status for the tracker's core; for a tracker of the image loader it marks the load instead (R189, R205, R217). One that matches no tracker frees none and writes nothing (R226). WACK with its context's epoch in force adds 1 to VALUE of
its counter, sets TARGET to TOTAL with LAST, and records a status other than OK for the core that its address names; with another epoch it is only counted in FAB_STALE (R217, R223). No other tile changes, and the packet is gone. A response at an edge die goes to what asked there: RDATA and RERR to its edge tracker, a WACK to the COPY of its tag or to the debug block (R311, R323, R532). Completes: RDATA, RERR, WACK. -/
def Obligations.ResponsesLand : Prop :=
  let rest (s u : State) (i t : Nat) : Prop := (∀ n, n ≠ t → u.tile n = s.tile n) ∧ u.fab.flights = ldel s.fab.flights i
  let counts (s u : State) (t k : Nat) : Prop :=
    (u.tile t).ctr k = { (s.tile t).ctr k with value := ((s.tile t).ctr k).value + 1 } ∧ ∀ j, j ≠ k → (u.tile t).ctr j = (s.tile t).ctr j
  let live (s : State) (f : Flight) (t k : Nat) : Prop := (s.tile t).match_ f.pkt = some k ∧ ((s.tile t).trk k).st = .live ∧ (s.tile t).ld.cur = none
  let atEdge (s : State) (i e : Nat) (f : Flight) : Prop := s.flight i = some f ∧ f.goal = .edge e ∧ f.place = .edge e ∧ aPanel f.pkt.dest = s.rick.panel
  (∀ (i t k : Nat) (f : Flight) (s : State), RespAt s i f t → f.pkt.opc = .rdata → live s f t k → ((s.tile t).trk k).loader = false →
    let x := (s.tile t).trk k
    let n := f.pkt.payload.length
    (0x1000000 ≤ x.local_ → partBad (s.tile t).badSram (x.local_ - 0x1000000) n = [] → (s.tile t).recsHeld = [] → GoesTo (exec (.rdata i) s) fun u =>
      memGetList (u.tile t).sram (x.local_ - 0x1000000) n = f.pkt.payload ∧
      (∀ a, a < x.local_ - 0x1000000 ∨ x.local_ - 0x1000000 + n ≤ a → memGet (u.tile t).sram a = memGet (s.tile t).sram a) ∧
      (u.tile t).scr = (s.tile t).scr ∧ (u.tile t).trk k = {} ∧ counts s u t x.ctr ∧ rest s u i t) ∧
    (x.local_ < 0x1000000 → partBad (s.tile t).badScr x.local_ n = [] → GoesTo (exec (.rdata i) s) fun u =>
      memGetList (u.tile t).scr x.local_ n = f.pkt.payload ∧
      (∀ a, a < x.local_ ∨ x.local_ + n ≤ a → memGet (u.tile t).scr a = memGet (s.tile t).scr a) ∧
      (u.tile t).sram = (s.tile t).sram ∧ (u.tile t).trk k = {} ∧ counts s u t x.ctr ∧ rest s u i t)) ∧
  (∀ (i t k : Nat) (f : Flight) (s : State), RespAt s i f t → f.pkt.opc = .rerr → live s f t k → GoesTo (exec (.rerr i) s) fun u =>
    let x := (s.tile t).trk k
    (u.tile t).trk k = {} ∧ (∀ j, j ≠ k → (u.tile t).trk j = (s.tile t).trk j) ∧ (u.tile t).sram = (s.tile t).sram ∧ (u.tile t).scr = (s.tile t).scr ∧ rest s u i t ∧
    (x.loader = false → counts s u t x.ctr ∧ u.core t x.core = (s.core t x.core).gerr f.pkt.status.toNat) ∧
    (x.loader = true → (u.tile t).ld = { (s.tile t).ld with readErr := true } ∧ (u.tile t).ctrs = (s.tile t).ctrs)) ∧
  (∀ (i t : Nat) (f : Flight) (s : State), RespAt s i f t → f.pkt.opc = .rdata ∨ f.pkt.opc = .rerr → (s.tile t).match_ f.pkt = none →
    GoesTo (exec (if f.pkt.opc = .rdata then .rdata i else .rerr i) s) fun u =>
      (u.tile t).sram = (s.tile t).sram ∧ (u.tile t).scr = (s.tile t).scr ∧ (u.tile t).trks = (s.tile t).trks ∧ (u.tile t).ctrs = (s.tile t).ctrs ∧ rest s u i t) ∧
  (∀ (i t : Nat) (f : Flight) (s : State), RespAt s i f t → f.pkt.opc = .wack →
    let told := s.tell (s.tilePhys t) f.pkt.ctx
    (told.staleCtx (s.tilePhys t) f.pkt.ctx f.pkt.epoch = false → GoesTo (exec (.wack i) s) fun u =>
      (u.tile t).ctr f.pkt.dctr = { value := ((s.tile t).ctr f.pkt.dctr).value + 1, target := if f.pkt.last then f.pkt.total else ((s.tile t).ctr f.pkt.dctr).target } ∧
      (∀ j, j ≠ f.pkt.dctr → (u.tile t).ctr j = (s.tile t).ctr j) ∧
      u.core t (bitsOf f.pkt.dest 6 5) = (if f.pkt.status = 0 then s.core t (bitsOf f.pkt.dest 6 5) else (s.core t (bitsOf f.pkt.dest 6 5)).gerr f.pkt.status.toNat) ∧
      (u.tile t).sram = (s.tile t).sram ∧ (u.tile t).scr = (s.tile t).scr ∧ rest s u i t) ∧
    (told.staleCtx (s.tilePhys t) f.pkt.ctx f.pkt.epoch = true → GoesTo (exec (.wack i) s) fun u =>
      u.tile t = { s.tile t with fabStale := (s.tile t).fabStale + 1 } ∧ rest s u i t)) ∧
  (∀ (i e : Nat) (f : Flight) (s : State), atEdge s i e f →
    (f.pkt.opc = .rdata → exec (.rdata i) s = .next ((s.dropFlight i).edgeResponse e f.pkt)) ∧
    (f.pkt.opc = .rerr → exec (.rerr i) s = .next ((s.dropFlight i).edgeResponse e f.pkt)) ∧
    (f.pkt.opc = .wack → bitsOf f.pkt.dest 15 0 = 0xFFFF → exec (.wack i) s = .next ((s.dropFlight i).modDbg fun d => { d with busy := false, status := f.pkt.status })) ∧
    (f.pkt.opc = .wack → bitsOf f.pkt.dest 15 0 ≠ 0xFFFF → (s.tell (edgeEp e) f.pkt.ctx).staleCtx (edgeEp e) f.pkt.ctx f.pkt.epoch = false →
      exec (.wack i) s = .next (((s.dropFlight i).tell (edgeEp e) f.pkt.ctx).copyWack (bitsOf f.pkt.dest 15 0 - 0x8000) f.pkt.seq f.pkt.status.toNat)))

/-- With no republish running, a packet at a router below 1023 hops goes where the plan of its route entry and credits says, one hop more counted, where its input channel has the turn, and else stays; with no usable face or a bad entry, or a DARK destination next, it is answered or dropped (R230 to R237). At 1023 hops it is dropped, counted, and ROUTE_LOOP raised with its header words (R235). A marked route
entry is rewritten, and an entry struck by a fault is marked and reported (R244). A flit that a receiver refuses is resent and its refusals counted while its failed resends are fewer than 8; then the link is down, recorded and reported; a good one clears them (R208, R241). A link that was down and passes its training is up, reported, its spares noted; one inside a base die that fails it stays down (R242).
A seam that retrains in service loses nothing (R242). A live tracker of a tile whose clock runs, past its partition's response timeout, ends, its counter and core told as by RERR TIMEOUT, and is counted; four timeouts after, it is free (R227, R228). A base die's fault makes its site DARK (R239). REPUBLISH through port 0, with a session, a service die running and no command of HLT_CMD running, begins a new publication; when it is done every
site that is not DARK holds the newest tables and ROUTES_PUBLISHED has been raised (R234). Completes: ROUTER_HOP, ROUTE_ENTRY_REWRITE, FLIT_REFUSED, LINK_UP, SEAM_RETRAIN, TRACKER_TIMEOUT, TRACKER_REUSE, BASE_DIE_FAULT, REPUBLISH, REPUBLISH_DONE. -/
def Obligations.RoutersAndLinksComplete : Prop :=
  (∀ (i p row pos : Nat) (f : Flight) (env : HopEnv) (s : State), s.flight i = some f → f.place = .router p row pos → env.parityBad = false →
    let f1 := { f with pkt := { f.pkt with hops := f.pkt.hops + 1 } }
    let loop : Ev := { code := 0x0203, part := (s.site p).part.getD 0, kind := 2, source := s.siteSource p, d0 := pktWord0 f.pkt, d1 := f.pkt.dest.toNat }
    (f.pkt.hops < 1023 → s.fab.republishing = false →
      (∀ link to_ esc, s.hopPlan f p row pos env.starved = .go link to_ esc → s.granted f p row pos link = true → GoesTo (exec (.routerHop i env) s) fun u =>
        u.flight i = some { f1 with place := to_, escape := esc, via := link.orElse fun _ => f.via } ∧ (∀ j, j ≠ i → u.flight j = s.flight j) ∧ u.sites = s.sites ∧ u.tiles = s.tiles) ∧
      (∀ link to_ esc, s.hopPlan f p row pos env.starved = .go link to_ esc → s.granted f p row pos link = false → exec (.routerHop i env) s = .next s) ∧
      (s.hopPlan f p row pos env.starved = .wait → exec (.routerHop i env) s = .next s) ∧
      (s.hopPlan f p row pos env.starved = .noRoute → exec (.routerHop i env) s = .next (s.hopNoRoute i f1 p (.router p row pos))) ∧
      (s.hopPlan f p row pos env.starved = .dark → exec (.routerHop i env) s = .next (s.hopDark i f1 p (.router p row pos)))) ∧
    (1023 ≤ f.pkt.hops → exec (.routerHop i env) s =
      .next (((s.dropFlight i).modCnt p fun c => { c with shop := satAdd c.shop 1 }).raise2 loop { loop with cont := true, d0 := f.pkt.src.toNat, d1 := 0 }))) ∧
  (∀ (p idx : Nat) (s : State), p < 272 →
    ((s.site p).badRoutes.contains idx = true → exec (.routeEntryRewrite p idx) s = .next (s.modSite p fun x => { x with badRoutes := x.badRoutes.filter (· != idx) })) ∧
    ((s.site p).badRoutes.contains idx = false → idx < 384 → (s.site p).routeGen ≠ 0 → exec (.routeEntryRewrite p idx) s =
      .next ((s.modSite p fun x => { x with badRoutes := x.badRoutes ++ [idx] }).raiseSite 0x0202 p idx 0))) ∧
  (∀ (l : LinkId) (i k : Nat) (f : Flight) (crc : W16) (d : List Nat) (s : State), s.flight i = some f → linkExists l = true → s.linkDown l = false → s.heads f l = true → k < Packet_flits f.pkt →
    let failed : Nat := match s.fab.refused.find? fun r => r.of l f.pkt k with
      | some r => r.n
      | none => 0
    (crc ≠ crc16 (flitBytes f.pkt k) → failed < 8 →
      exec (.flitRefused l ⟨i, k, crc, d⟩) s = .next (s.modFab fun b => { b with refused := (s.fab.refused.filter fun r => r.link != l) ++
        [{ link := l, src := f.pkt.src, ctx := f.pkt.ctx, seq := f.pkt.seq, flit := k, n := failed + 1 }] })) ∧
    (crc ≠ crc16 (flitBytes f.pkt k) → 8 ≤ failed → exec (.flitRefused l ⟨i, k, crc, d⟩) s = .next (s.linkFails l i k d) ∧
      (s.linkFails l i k d).fab.down = s.fab.down ++ [linkRouter l]) ∧
    (crc = crc16 (flitBytes f.pkt k) →
      exec (.flitRefused l ⟨i, k, crc, d⟩) s = .next (s.modFab fun b => { b with refused := s.fab.refused.filter fun r => r.link != l }))) ∧
  (∀ (l : LinkId) (fails : List Nat) (s : State), linkExists l = true → s.linkDown l = true → s.fab.dead.any (sameLink l) = false →
    (passes l fails = true → exec (.linkUp ⟨l, fails⟩) s =
      .next (((s.spares l fails).modFab fun f => { f with down := f.down.filter fun m => !sameLink l m }).raiseSite 0x0201 (linkRouter l).site (linkWord l) 0)) ∧
    (passes l fails = false → linkKind l = 0 → exec (.linkUp ⟨l, fails⟩) s = .next (s.modFab fun f => { f with dead := f.dead ++ [linkRouter l] })) ∧
    (passes l fails = false → linkKind l ≠ 0 → exec (.linkUp ⟨l, fails⟩) s = .next s)) ∧
  (∀ (l : LinkId) (fails : List Nat) (s : State), linkExists l = true → linkKind l = 1 → s.linkDown l = false → passes l fails = true →
    GoesTo (exec (.seamRetrain l fails) s) fun u => u.fab.flights = s.fab.flights ∧ u.fab.down = s.fab.down ∧ (linkRouter l, fails) ∈ u.fab.wires ∧ Only [.fab] s u) ∧
  (∀ (t k : Nat) (s : State), t < 32768 → k < 32 → ((s.tile t).trk k).st = .live → s.parksTile t = false → ((s.tile t).trk k).since + s.rtoNs ((s.tile t).trk k).part ≤ s.time →
    let x := (s.tile t).trk k
    GoesTo (exec (.trackerTimeout t k) s) fun u => (u.tile t).trk k = { x with st := .ended, since := s.time } ∧ (∀ j, j ≠ k → (u.tile t).trk j = (s.tile t).trk j) ∧
      (u.tile t).fabTimeout = (s.tile t).fabTimeout + 1 ∧ (u.tile t).sram = (s.tile t).sram ∧ (∀ n, n ≠ t → u.tile n = s.tile n) ∧
      (x.loader = false → ((u.tile t).ctr x.ctr).value = ((s.tile t).ctr x.ctr).value + 1 ∧ u.core t x.core = (s.core t x.core).gerr stTimeout) ∧
      (x.loader = true → (u.tile t).ld = { (s.tile t).ld with readErr := true })) ∧
  (∀ (t k : Nat) (s : State), t < 32768 → ((s.tile t).trk k).st = .ended → ((s.tile t).trk k).since + 4 * s.rtoNs ((s.tile t).trk k).part ≤ s.time →
    exec (.trackerReuse t k) s = .next ((s.modTile t fun T => T.setTrk k {}).loaderAsk t 17) ∧
    ((s.tile t).ld.cur = none → exec (.trackerReuse t k) s = .next (s.modTile t fun T => T.setTrk k {}))) ∧
  (∀ (p : Nat) (s : State), p < 272 → exec (.baseDieFault p) s = .next (s.darken p).promise ∧ ((s.darken p).promise.site p).st = .dark) ∧
  (∀ (s : State), HltFree s → GoesTo (exec (.republish 0) s) fun u =>
    u.hlt.busy = true ∧ u.fab.republishing = true ∧ u.fab.gen = s.fab.gen + 1 ∧ u.sites = s.sites ∧ u.tiles = s.tiles) ∧
  (∀ (s : State), s.fab.republishing = true → s.svRuns = true →
    (let d := (s.tablesIn.modFab fun f => { f with republishing := false }).modHlt fun h => { h with busy := false }
     exec .republishDone s = .next (d.raisePanel 0x0205 0 0) ∧ d.fab.gen = s.fab.gen ∧ d.fab.republishing = false ∧ d.hlt.busy = false ∧
       ∀ p, p < 272 → (s.site p).st ≠ .dark → (d.site p).routeGen = s.fab.gen))

/-! ### Where commands complete: memories -/

/-- A SCRUB_ACCESS at a tile whose site has its compute rail brings in its upset; with the scrubber on, the access then meets its next 64 bytes: each single-bit error there is corrected and counted, each uncorrectable word counted and reported and left as it is, and the pass moves on, beginning anew after 28,672 accesses; no byte of SRAM changes (R182, R253, R254, R256, R257;
upsets after log entry 80). A fault takes a DDR channel that is up down, and no other (R275). A patrol read of an up channel, with the patrol on, moves on by one burst; where that burst is clean nothing else changes, a correctable error in it is counted and corrected, an uncorrectable one reported (R280 to R282). A gated write of COMMIT through port 0 with a session: a staged DDR region that passes the
checks of R279, or one of size 0, is in force, with ERR and ECODE 0; one that fails a check leaves the region in force, with ERR set and ECODE the number of the check (R279). PRT_BEV_T0 to T6 take their low 16 bits and PRT_BEV_CTRL its mode, each alone (R121, R122). Completes: SCRUB_ACCESS, DDR_CHANNEL_DOWN, PATROL_READ, DDR_REGION_COMMIT, PRT_BEV_WRITE. -/
def Obligations.MemoriesComplete : Prop :=
  (∀ (t w : Nat) (found : MemErr) (s : State), t < 32768 → (s.tileSt t).st ≠ .off → (s.tileSt t).st ≠ .dark →
    let d := s.modTile t fun T => T.upset found w
    ((s.tileSt t).scrubEn = false → exec (.scrubAccess t found w) s = .next d) ∧
    ((s.tileSt t).scrubEn = true → exec (.scrubAccess t found w) s =
      .next ((d.tile t).scrubBad.foldl (fun u x => u.sramUe t x) (d.modTile t fun T => (T.meet fun x => x / 8 == T.scrubAt).scrubOn)))) ∧
  (∀ (t w : Nat) (s : State), t < 32768 → (s.tileSt t).scrubEn = true → (s.tileSt t).st ≠ .off → (s.tileSt t).st ≠ .dark → (s.tile t).scrubBad = [] →
    GoesTo (exec (.scrubAccess t .clean w) s) fun u =>
      (u.tile t).flips = (s.tile t).flips.filter (fun x => !(x / 8 == (s.tile t).scrubAt)) ∧
      (u.tile t).scrubAt = (if (s.tile t).scrubAt + 1 = 28672 then 0 else (s.tile t).scrubAt + 1) ∧ (u.tile t).sram = (s.tile t).sram ∧ (∀ n, n ≠ t → u.tile n = s.tile n)) ∧
  (∀ (t w : Nat) (s : State), t < 32768 → (s.tileSt t).scrubEn = true → (s.tileSt t).st ≠ .off → (s.tileSt t).st ≠ .dark → (s.tile t).scrubBad = [] → (s.tile t).flips = [] →
    w / 8 = (s.tile t).scrubAt → w < 229376 → (s.tile t).badSram.contains w = false → (s.tile t).badScr.contains (w - scrWord0) = false →
    GoesTo (exec (.scrubAccess t .corrected w) s) fun u => (u.tile t).flips = [] ∧ (u.tile t).sram = (s.tile t).sram ∧
      (u.tile t).sramCorr = (s.tile t).sramCorr + (if w < scrWord0 then 1 else 0) ∧ (u.tile t).scrCorr = (s.tile t).scrCorr + (if w < scrWord0 then 0 else 1)) ∧
  (∀ (ch : Nat) (s : State), ch < 32 → exec (.ddrChannelDown ch) s = .next (s.channelFails ch).promise) ∧
  (∀ (ch : Nat) (s : State), ch < 32 → (s.chan ch).st = 2 → GoesTo (exec (.ddrChannelDown ch) s) fun u =>
    (u.chan ch).st = 1 ∧ (u.chan ch).failed = true ∧ (∀ c, c ≠ ch → u.chan c = s.chan c)) ∧
  (∀ (ch b n : Nat) (s : State), ch < 32 → (s.chan ch).st = 2 → s.patrolCode ≠ 0 → (s.chan ch).patrolAt + 1 < (s.chan ch).bursts →
    (s.chan ch).bad.contains (s.chan ch).patrolAt = false → (s.chan ch).flips.contains (s.chan ch).patrolAt = false →
    GoesTo (exec (.patrolRead ch b .clean n) s) fun u => u.chan ch = { s.chan ch with patrolAt := (s.chan ch).patrolAt + 1 } ∧ ∀ c, c ≠ ch → u.chan c = s.chan c) ∧
  (∀ (ch : Nat) (s : State), ch < 32 → (s.chan ch).st = 2 → s.patrolCode ≠ 0 → (s.chan ch).patrolAt + 1 < (s.chan ch).bursts →
    (s.chan ch).bad.contains (s.chan ch).patrolAt = false → (s.chan ch).flips = [] →
    GoesTo (exec (.patrolRead ch (s.chan ch).patrolAt .corrected 1) s) fun u => (u.chan ch).ce = satAdd (s.chan ch).ce 1 ∧ (u.chan ch).flips = [] ∧
      (u.chan ch).patrolAt = (s.chan ch).patrolAt + 1 ∧ (u.chan ch).dram = (s.chan ch).dram ∧ (u.chan ch).ue = (s.chan ch).ue ∧ ∀ c, c ≠ ch → u.chan c = s.chan c) ∧
  (∀ (ch b n : Nat) (s : State), ch < 32 → (s.chan ch).st = 2 → s.patrolCode ≠ 0 → (s.chan ch).patrolAt + 1 < (s.chan ch).bursts →
    (s.chan ch).bad.contains (s.chan ch).patrolAt = true → (s.chan ch).flips.contains (s.chan ch).patrolAt = false →
    GoesTo (exec (.patrolRead ch b .clean n) s) fun u => (u.chan ch).ue = satAdd (s.chan ch).ue 1 ∧ (u.chan ch).ueaddr = (s.chan ch).patrolAt * 64 ∧ (u.chan ch).bad = (s.chan ch).bad ∧
      (u.chan ch).patrolAt = (s.chan ch).patrolAt + 1 ∧ ∀ c, c ≠ ch → u.chan c = s.chan c) ∧
  (∀ (p : Nat) (s : State), p < 16 → Managed s 0 → ((s.partn p).ddr.stage.size = 0 ∨ s.regionCheck p (s.partn p).ddr.stage = 0) →
    GoesTo (exec (.ddrRegionCommit 0 p) s) fun u => (u.partn p).ddr.cur = (if (s.partn p).ddr.stage.size = 0 then {} else (s.partn p).ddr.stage) ∧
      (u.partn p).ddr.err = false ∧ (u.partn p).ddr.ecode = 0 ∧ (∀ q, q ≠ p → u.partn q = s.partn q) ∧ u.tiles = s.tiles) ∧
  (∀ (p : Nat) (s : State), p < 16 → Managed s 0 → (s.partn p).ddr.stage.size ≠ 0 → s.regionCheck p (s.partn p).ddr.stage ≠ 0 →
    GoesTo (exec (.ddrRegionCommit 0 p) s) fun u => (u.partn p).ddr.cur = (s.partn p).ddr.cur ∧ (u.partn p).ddr.err = true ∧
      (u.partn p).ddr.ecode = s.regionCheck p (s.partn p).ddr.stage ∧ Only [.parts] s u) ∧
  (∀ (k : Nat) (v : W32) (s : State), k < 7 → Managed s 0 → GoesTo (exec (.prtBevWrite 0 k v) s) fun u => u.bev = lset s.bev k (v &&& 0xFFFF#32) ∧ u.bevMode = s.bevMode ∧ Only [.bev] s u) ∧
  (∀ (v : W32) (s : State), Managed s 0 → GoesTo (exec (.prtBevWrite 0 7 v) s) fun u => u.bevMode = bitsOf v 1 0 ∧ u.bev = s.bev ∧ Only [.bev] s u)

/-- A READ that has arrived at its slice, with partition and epoch in order: one that hits a line whose codes find nothing is answered from it, and one that misses joins the line's pending fill, takes a fill buffer and reads the line, or waits while all 64 are busy (R249, R264). A WRITE updates the slice's copy and a pending fill, and goes on to its owner unchanged; with no owner it is
acknowledged BAD_ADDRESS (R35, R265). A fill that returns is installed, unless its line was invalidated meanwhile, and answers every READ that joined it; one that returns an error answers them all with it and installs nothing (R264, R265, R269, R280). The oldest maintenance command of a site that is not DARK drops the lines that it names (OP 1 one line, OP 2 LINES lines from LINE, OP 3 all of them, a reserved
OP none), leaves the queue and is acknowledged OK (R269 to R271). Completes: CACHE_READ, CACHE_WRITE, CACHE_FILL_RETURN, MAINT_INVALIDATE_LINE, MAINT_INVALIDATE_RANGE, MAINT_INVALIDATE_ALL, MAINT_RESERVED. -/
def Obligations.SlicesComplete : Prop :=
  (∀ (i p : Nat) (joins : Bool) (f : Flight) (x : CLine) (s : State), AtSlice s i f p → f.pkt.opc = .read → (s.site p).cache.find (f.pkt.dest.toNat / 256) = some x →
    exec (.cacheRead i joins .clean) s = .next ((((s.tell p f.pkt.ctx).dropFlight i).modSite p fun y => { y with cache := y.cache.hit x (joins && x.fresh) }).respond f
      (.router p 0 0) .rdata 0 (memGetList x.bytes (f.pkt.dest.toNat % 256) f.pkt.len))) ∧
  (∀ (i p : Nat) (joins : Bool) (err : MemErr) (f : Flight) (s : State), AtSlice s i f p → f.pkt.opc = .read → (s.site p).cache.find (f.pkt.dest.toNat / 256) = none →
    exec (.cacheRead i joins err) s = .next ((s.tell p f.pkt.ctx).cacheMiss i f p (f.pkt.dest.toNat / 256))) ∧
  (∀ (i p : Nat) (f : Flight) (s : State), AtSlice s i f p → f.pkt.opc = .write →
    let d := (s.tell p f.pkt.ctx).modSite p fun x => { x with cache := x.cache.write f.pkt.dest.toNat f.pkt.payload }
    (∀ e, d.lineOwner f.pkt.spart f.pkt.dest = some e →
      exec (.cacheWrite i) s = .next (d.setFlight i { f with goal := .edge e, place := .router p 0 0, via := none, thru := some p })) ∧
    (d.lineOwner f.pkt.spart f.pkt.dest = none → exec (.cacheWrite i) s = .next ((d.dropFlight i).respond f (.router p 0 0) .wack stBadAddress []))) ∧
  (∀ (i p line q : Nat) (f : Flight) (x : Fill) (s : State), s.flight i = some f → f.goal = .slice p → f.fill = some (q, line) → f.arrived p = true → Opc_isReq f.pkt.opc = false →
    ((s.site p).cache.fills.find? fun x => x.line == line) = some x →
    let d := (s.dropFlight i).modSite p fun y => { y with cache := { y.cache with fills := y.cache.fills.filter fun z => z.line != line } }
    let m := x.data f.pkt.payload
    let answers (o : Opc) (st : Nat) (bs : Packet → List Byte) (u : State) : State :=
      x.joined.foldl (fun u r => u.respond { pkt := r, goal := .slice p, place := .dest p, escape := false, fill := none } (.router p 0 0) o st (bs r)) u
    (f.pkt.opc = .rdata → exec (.cacheFillReturn i) s = .next (answers .rdata 0 (fun r => memGetList m (r.dest.toNat % 256) r.len)
      (if x.dropped then d else d.modSite p fun y => { y with cache := y.cache.install line m }))) ∧
    (f.pkt.opc ≠ .rdata → exec (.cacheFillReturn i) s = .next (answers .rerr f.pkt.status.toNat (fun _ => []) d))) ∧
  (let done (s : State) (p : Nat) (q : Packet) (hit : Nat → Bool) (o : Out) : Prop :=
     o = .next ((s.modSite p fun x => { x with cache := { x.cache with
         mq := x.cache.mq.drop 1, lines := x.cache.lines.filter (fun l => !hit l.line), fills := x.cache.fills.map (fun f => if hit f.line then { f with dropped := true } else f),
         inval := x.cache.inval + BitVec.ofNat 32 (x.cache.lines.filter fun l => hit l.line).length } }).respond
       { pkt := q, goal := .nowhere, place := .dest p, escape := false, fill := none } (.router p 0 0) .wack 0 [])
   (∀ (p : Nat) (q : Packet) (s : State), Maintains s p q → mOp q = 1 → done s p q (fun l => l == mLine q) (exec (.maintInvalidateLine p) s)) ∧
   (∀ (p : Nat) (q : Packet) (s : State), Maintains s p q → mOp q = 2 →
     done s p q (fun l => decide (mLine q ≤ l ∧ l < mLine q + mLines q)) (exec (.maintInvalidateRange p) s)) ∧
   (∀ (p : Nat) (q : Packet) (s : State), Maintains s p q → mOp q = 3 → done s p q (fun _ => true) (exec (.maintInvalidateAll p) s)) ∧
   (∀ (p : Nat) (q : Packet) (s : State), Maintains s p q → (mOp q = 0 ∨ 3 < mOp q) → done s p q (fun _ => false) (exec (.maintReserved p) s)))

/-! ### Where commands complete: host ports, descriptors and contexts -/

/-- A port whose link is lost is cut off; so is one that answers configuration requests as usual and is reset or has its bus master disabled, and a reset returns the port's registers to their reset values (R287, R439). A cut-off port comes back, after a lost link in the widest width and then the fastest rate that it shares with its partner, otherwise in the mode that it had (R286, R287). With the panel
powered, a port that has no link trains its link likewise on the release of PERST, in recovery and in FAILED port 0 alone (R286, R439, R442, R462). Completes: PORT_DOWN, PORT_UP, FUNCTION_LEVEL_RESET, BUS_MASTER_DISABLE, PERST_RELEASE. -/
def Obligations.PortsComplete : Prop :=
  (∀ (p : Nat) (s : State), p < 4 → (s.port p).link = true → (s.port p).cutLink = false →
    exec (.portDown p) s = .next ((s.modPort p fun x => { x with link := false, cutLink := true }).cutOff p)) ∧
  (∀ (p w g : Nat) (m : LinkMode) (s : State), p < 4 → (s.port p).downSeen = true → (s.port p).width ≠ 0 →
    (if (s.port p).cutLink = true then LinkMode_best m = some (w, g) else w = (s.port p).width ∧ g = (s.port p).gts10) →
    let s' := s.modPort p fun x => { x with link := true, width := w, gts10 := g, cutLink := false, cutFlr := false, cutBme := false, downSeen := false }
    exec (.portUp p m) s = .next (s'.raisePort 0x0015 p (s'.port p).linkStatus 0)) ∧
  (∀ (p : Nat) (s : State), p < 4 → s.cfgAnswer p = .normal → exec (.functionLevelReset p) s = .next ((s.modPort p Port.flr).cutOff p)) ∧
  (∀ (p : Nat) (s : State), p < 4 → s.cfgAnswer p = .normal → (s.port p).cutBme = false →
    exec (.busMasterDisable p) s = .next ((s.modPort p fun x => { x with cutBme := true }).cutOff p)) ∧
  (∀ (p w g : Nat) (m : LinkMode) (s : State), p < 4 → (s.port p).link = false → (s.port p).width = 0 → s.pwr.powered = true → ((s.inRecovery = false ∧ s.spi.stage ≠ .failed) ∨ p = 0) →
    LinkMode_best m = some (w, g) →
    GoesTo (exec (.perstRelease p m) s) fun u => (u.port p).link = true ∧ (u.port p).width = w ∧ (u.port p).gts10 = g ∧ (∀ q, q ≠ p → u.port q = s.port q) ∧
      (∀ c, u.ctx c = s.ctx c) ∧ Only [.host] s u) ∧
  (∀ (m : LinkMode) (w g : Nat), LinkMode_best m = some (w, g) → w ∈ [16, 8, 4, 2, 1] ∧ g ∈ [320, 160, 80, 50, 25] ∧ w ∈ m.widths ∧ g ∈ m.rates ∧
    (∀ v, v ∈ [16, 8, 4, 2, 1] → v ∈ m.widths → v ≤ w) ∧ ∀ h, h ∈ [320, 160, 80, 50, 25] → h ∈ m.rates → h ≤ g)

/-- A host read that has waited past its port's completion timeout ends with status HOST_TIMEOUT, and AER notes it (R285, R288). A completion with its bytes ends the read: a descriptor fetch of a READY or ACTIVE context makes its descriptors ready, a COPY takes the bytes, a READ of a window is answered, a FENCE counts its flush, an update keeps its bytes (R301, R311, R316, R325, R460). A completion whose ECRC does
not agree is taken so where the port does not check ECRC; where it checks, it is only noted in AER and the read stays outstanding (R285, log entry 93). A completion with UR, CA or poison ends each read with HOST_ERR and its DETAIL, and AER notes a poisoned one (R285, R317). A tracker of a PCIe edge die that has not ended, past its partition's response timeout, ends as if an error completion with status TIMEOUT had come,
and the die's COPYs go on (R227, R311, R323). Completes: HOST_COMPLETION_TIMEOUT, DESCRIPTOR_FETCH, HOST_READ_COMPLETION, EDGE_TRACKER_TIMEOUT. -/
def Obligations.HostReadsComplete : Prop :=
  let brings (s : State) (r : HostRead) (res : HostResult) (bs : List Byte) : Prop := res = .data bs ∨ (res = .badEcrc bs ∧ (s.port r.port).ecrcChk = false)
  let fails (res : HostResult) : Prop := res = .ur ∨ res = .ca ∨ res = .poisoned
  (∀ (id : Nat) (r : HostRead) (s : State), s.readOf id = some r → (s.port r.port).ctoOff = false → r.since + ctoNs (s.port r.port).cto ≤ s.time →
    exec (.hostCompletionTimeout id) s = .next ((((s.dropRead id).aer r.port aerTimeout).hostFail r 2 0).copiesAsk (portEdge r.port))) ∧
  (∀ (id c count : Nat) (first : W32) (bs : List Byte) (res : HostResult) (r : HostRead) (s : State), s.readOf id = some r → r.for_ = .fetch c first count → brings s r res bs →
    ((s.ctx c).st = .ready ∨ (s.ctx c).st = .active) →
    GoesTo (exec (.descriptorFetch id res) s) fun u =>
      u.ctx c = { s.ctx c with ready := (s.ctx c).ready ++ descsOf first bs count, sqHead := (s.ctx c).sqHead + BitVec.ofNat 32 count } ∧
      (∀ d, d ≠ c → u.ctx d = s.ctx d) ∧ u.readOf id = none ∧ Only [.host] s u) ∧
  (∀ (id c count : Nat) (first : W32) (res : HostResult) (r : HostRead) (s : State), s.readOf id = some r → r.for_ = .fetch c first count → fails res →
    exec (.descriptorFetch id res) s = .next (((s.noteAer r.port res).dropRead id).hostFail r 3 (hostDetail res))) ∧
  (∀ (id : Nat) (bs : List Byte) (r : HostRead) (s : State), s.readOf id = some r → (s.port r.port).ecrcChk = true →
    ((∃ c first count, r.for_ = .fetch c first count) → exec (.descriptorFetch id (.badEcrc bs)) s = .next (s.aer r.port aerEcrc)) ∧
    ((∀ c first count, r.for_ ≠ .fetch c first count) → exec (.hostReadCompletion id (.badEcrc bs)) s = .next (s.aer r.port aerEcrc))) ∧
  (∀ (id c at_ : Nat) (n : W32) (bs : List Byte) (res : HostResult) (r : HostRead) (s : State), s.readOf id = some r → r.for_ = .copy c n at_ → brings s r res bs →
    exec (.hostReadCompletion id res) s = .next (((s.dropRead id).copyGot c n at_ (bs.take r.len)).copiesAsk (portEdge r.port))) ∧
  (∀ (id : Nat) (q : Packet) (fill : Option (Nat × Nat)) (bs : List Byte) (res : HostResult) (r : HostRead) (s : State), s.readOf id = some r → r.for_ = .tileRead q fill → brings s r res bs →
    exec (.hostReadCompletion id res) s = .next ((s.dropRead id).respond { pkt := q, goal := .nowhere, place := .edge (portEdge r.port), escape := false, fill }
      (.edge (portEdge r.port)) .rdata 0 (bs.take r.len))) ∧
  (∀ (id c : Nat) (n : W32) (bs : List Byte) (res : HostResult) (r : HostRead) (s : State), s.readOf id = some r → r.for_ = .flush c n → brings s r res bs →
    exec (.hostReadCompletion id res) s = .next ((s.dropRead id).flushBack c n)) ∧
  (∀ (id at_ : Nat) (bs : List Byte) (res : HostResult) (r : HostRead) (s : State), s.readOf id = some r → r.for_ = .image at_ → brings s r res bs →
    exec (.hostReadCompletion id res) s = .next ((s.dropRead id).updateGot at_ (bs.take r.len))) ∧
  (∀ (id : Nat) (res : HostResult) (r : HostRead) (s : State), s.readOf id = some r → (∀ c f n, r.for_ ≠ .fetch c f n) → fails res →
    exec (.hostReadCompletion id res) s = .next ((((s.noteAer r.port res).dropRead id).hostFail r 3 (hostDetail res)).copiesAsk (portEdge r.port))) ∧
  (∀ (pe k : Nat) (x : ETrk) (s : State), pe < 2 → lget? (s.etrks pe) k = some x → x.ended = false → x.since + s.rtoNs x.part ≤ s.time →
    exec (.edgeTrackerTimeout pe k) s = .next (((s.setEtrks pe (lset (s.etrks pe) k { x with ended := true, since := s.time })).edgeFail x stTimeout).copiesAsk pe))

/-- SQ_TAIL through a context's own port makes a READY or ACTIVE context ACTIVE and fetches what became pending; one of a HALTED or RESETTING context only keeps the tail, and one that repeats the tail changes nothing; CQ_HEAD moves the ring's head and lets the context's interrupt be sent again (R291, R294, R300, R301, R304, R305). A tail that leaves more pending than the ring holds, or less than is asked for already, or a head
beyond the ring's tail, is a driver error: it is taken, and leaves free values in the partition (R331, log entry 53). A doorbell of a FREE context or through another port is dropped and counted (R291). Completes: SQ_TAIL, CQ_HEAD. -/
def Obligations.DoorbellsComplete : Prop :=
  (∀ (p c : Nat) (v : W32) (s : State), RingsAt s p c → v = (s.ctx c).sqTail → exec (.sqTail p c v) s = .next s) ∧
  (∀ (p c : Nat) (v : W32) (s : State), RingsAt s p c → v ≠ (s.ctx c).sqTail → ((s.ctx c).st = .ready ∨ (s.ctx c).st = .active) →
    (v - (s.ctx c).sqHead).toNat ≤ 2 ^ (s.ctx c).cfg.sqLog2 → ((s.ctx c).asked - (s.ctx c).sqHead).toNat ≤ (v - (s.ctx c).sqHead).toNat →
    exec (.sqTail p c v) s = .next ((s.modCtx c fun x => { x with sqTail := v, st := .active }).fetchAsk c 32768)) ∧
  (∀ (p c : Nat) (v : W32) (s : State), RingsAt s p c → ((s.ctx c).st = .halted ∨ (s.ctx c).st = .resetting) →
    GoesTo (exec (.sqTail p c v) s) fun u => u.ctx c = { s.ctx c with sqTail := v } ∧ (∀ d, d ≠ c → u.ctx d = s.ctx d) ∧ u.host.reads = s.host.reads) ∧
  (∀ (p c : Nat) (v : W32) (s : State), RingsAt s p c → v ≠ (s.ctx c).sqTail → ((s.ctx c).st = .ready ∨ (s.ctx c).st = .active) →
    (2 ^ (s.ctx c).cfg.sqLog2 < (v - (s.ctx c).sqHead).toNat ∨ (v - (s.ctx c).sqHead).toNat < ((s.ctx c).asked - (s.ctx c).sqHead).toNat) →
    exec (.sqTail p c v) s = .next ((s.modCtx c fun x => { x with sqTail := v, st := .active }).wildPart (s.ctx c).cfg.part)) ∧
  (∀ (p c : Nat) (v : W32) (s : State), RingsAt s p c → (v - (s.ctx c).cqTail).toInt ≤ 0 →
    GoesTo (exec (.cqHead p c v) s) fun u => u.ctx c = { s.ctx c with cqHead := v, irqSent := false } ∧ (∀ d, d ≠ c → u.ctx d = s.ctx d) ∧ Only [.host] s u) ∧
  (∀ (p c : Nat) (v : W32) (s : State), RingsAt s p c → 0 < (v - (s.ctx c).cqTail).toInt →
    exec (.cqHead p c v) s = .next ((s.modCtx c fun x => { x with cqHead := v, irqSent := false }).wildPart (s.ctx c).cfg.part)) ∧
  (∀ (p c : Nat) (v : W32) (s : State), s.reach p = true → c < 3072 → ((s.ctx c).st = .free ∨ (s.ctx c).cfg.port ≠ p) →
    exec (.sqTail p c v) s = .next (s.doorbellDrop p c) ∧ exec (.cqHead p c v) s = .next (s.doorbellDrop p c))

/-- A write to a vector's MSI_VCTL sets or clears its mask alone; unmasking one with a pending message through a port that may issue it and whose function mask is clear sends the message once, with an ECRC where the port generates one (R285, R292). EVT_HEAD moves the event ring's head and lets its interrupt be sent again, and EVT_CFG that enables the ring starts its counts afresh (R327, R330). Completes: MSIX_UNMASK, EVT_HEAD, EVT_CFG. -/
def Obligations.VectorsAndEventRingComplete : Prop :=
  (∀ (p vec : Nat) (v : W32) (s : State), p < 4 → s.reach p = true → vec < 2048 →
    let e := tget {} (s.port p).msix vec
    let sends := e.pend = true ∧ bitOf v 0 = false ∧ (s.port p).fmask = false ∧ (s.port p).mute = false
    GoesTo (exec (.msixUnmask p vec v) s) fun u => (∀ k, k ≠ vec → tget {} (u.port p).msix k = tget {} (s.port p).msix k) ∧
      (tget {} (u.port p).msix vec).mask = bitOf v 0 ∧ ((tget {} (u.port p).msix vec).pend = true ↔ e.pend = true ∧ ¬ sends) ∧
      (sends → u.host.out = s.host.out ++ [.msix p (e.addrHi.toNat * 2 ^ 32 + e.addrLo.toNat) e.data (s.port p).ecrcGen]) ∧ (¬ sends → u.host.out = s.host.out) ∧ Only [.host] s u) ∧
  (∀ (p : Nat) (v : W32) (s : State), s.reach p = true → GoesTo (exec (.evtHead p v) s) fun u => u.host.evt = { s.host.evt with head := v, sent := false } ∧
    (∀ q, u.port q = s.port q) ∧ (∀ c, u.ctx c = s.ctx c) ∧ Only [.host] s u) ∧
  (∀ (v : W32) (s : State), Managed s 0 → bitOf v 31 = true → s.host.evt.en = false → GoesTo (exec (.evtCfg 0 v) s) fun u =>
    u.host.evt = { s.host.evt with en := true, irqEn := bitOf v 30, port := bitsOf v 27 26, vec := bitsOf v 10 0, tail := 0, head := 0, lost := 0, since := 0 } ∧
    (∀ c, u.ctx c = s.ctx c) ∧ Only [.host] s u)

/-- The next descriptor of a context that may start and has its turn: NOP, PHASE, PREDICT, MARK, a reserved opcode and a FENCE without a flush end with OK at their start, PHASE with the context's phase noted, PREDICT with the context's policy taken, MARK with the mark raised; a FENCE with a flush reads once through each port that carried writes (log entry 21), and one through a port that may issue nothing ends with HOST_ERR. A descriptor of
an ACTIVE context that ended with OK completes with its record, and with none left the context is READY (R132, R302 to R308, R316, R414). Completes: NOP (descriptor), PHASE, FENCE, PREDICT, MARK, RESERVED_OPCODE, DESCRIPTOR_COMPLETE. -/
def Obligations.ShortDescriptorsComplete : Prop :=
  (∀ (c : Nat) (d : Desc) (s : State), Starts s c d 0 → exec (.nopDescriptor c) s = .next ((started s c d .plain).endDesc c d.n (okEnding 0))) ∧
  (∀ (c k : Nat) (d : Desc) (s : State), Starts s c d k → 11 ≤ k → exec (.reservedOpcode c) s = .next ((started s c d .plain).endDesc c d.n (okEnding 0))) ∧
  (∀ (c : Nat) (d : Desc) (s : State), Starts s c d 6 → exec (.phase c) s = .next (((started s c d .plain).phase c (bitsOf (d.w 1) 7 0)).endDesc c d.n (okEnding 0))) ∧
  (∀ (c : Nat) (d : Desc) (s : State), Starts s c d 8 → (bitOf (d.w 1) 0 = false ∨ ((started s c d (.fence 0)).ctx c).ports4 = []) →
    exec (.fence c) s = .next (((started s c d (.fence 0)).modCtx c fun x => { x with ports4 := [] }).endDesc c d.n (okEnding 0))) ∧
  (∀ (c : Nat) (d : Desc) (s : State), Starts s c d 8 → bitOf (d.w 1) 0 = true →
    let x := (started s c d (.fence 0)).ctx c
    x.ports4 ≠ [] →
    exec (.fence c) s = .next (x.ports4.foldl (fun u p =>
        if (u.port p).mute then u.endDesc c d.n (errEnding 0x03 0 0x11 0 none) else u.issueRead p x.cfg.cqBase 16 (.flush c d.n))
      (((started s c d (.fence 0)).modCtx c fun x => { x with ports4 := [] }).modDesc c d.n fun y => { y with prog := .fence x.ports4.length }))) ∧
  (∀ (c : Nat) (d : Desc) (s : State), Starts s c d 9 → exec (.predict c) s = .next (((started s c d .plain).modCtx c fun x =>
    { x with mode := bitsOf (d.w 1) 1 0, audn := bitsOf (d.w 1) 7 4, theta := BitVec.ofNat 32 (bitsOf (d.w 1) 63 32) }).endDesc c d.n (okEnding 0))) ∧
  (∀ (c : Nat) (d : Desc) (s : State), Starts s c d 10 → exec (.mark c) s = .next (((started s c d .plain).mark c (bitsOf (d.w 1) 31 0)).endDesc c d.n (okEnding s.time))) ∧
  (∀ (c n : Nat) (x : InFl) (e : Ending) (s : State), c < 3072 → s.desc c (BitVec.ofNat 32 n) = some x → x.fin = some e → (s.ctx c).st = .active → e.status = 0 →
    let s' := s.complete c x.d.n x.d.tag x.d.irq e
    let l := (s'.ctx c).inflight.filter fun y => y.d.n != x.d.n
    exec (.descriptorComplete c n) s = .next (s'.modCtx c fun y =>
      { y with inflight := l, st := if l.isEmpty && y.ready.isEmpty && y.sqTail == y.sqHead then .ready else y.st }))

/-- The next descriptor of a context that may start and has its turn: COPY begins to move its bytes; LAUNCH sends a start to each tile of its region, or with GATE reads its counter first; LOAD asks a load of each; SIGNAL sends a CNT to each and ends with OK, but where its region reaches outside the partition the step watchdog ends it (log entry 110); WAIT reads its counter, and WAIT_POLL reads it again 1 µs after a read that did not satisfy it; a BARRIER's arrival is counted at its
partition, or at its rick (R166, R309 to R316, R361). Fields that make a driver error leave free values in the partition beside that (R331, log entry 53). Completes: COPY, LAUNCH, LOAD, WAIT, WAIT_POLL, SIGNAL, BARRIER. -/
def Obligations.LongDescriptorsComplete : Prop :=
  (∀ (c : Nat) (d : Desc) (s : State), Starts s c d 1 →
    let own (a : W64) : Bool := aPanel a == s.rick.panel
    let src := aSpace d.copySrc
    let dst := aSpace d.copyDst
    let bad : Bool := !own d.copySrc || !own d.copyDst || !(src == 0 || src == 3 || src == 4) || !(dst == 0 || dst == 3 || dst == 4) || d.copyLen % 8 != 0 || d.copyLen == 0
    let u := (started s c d (.copy 0 0 0 [] [] [])).wildDesc c bad
    let w := (u.win (aWin d.copyDst)).port
    (dst ≠ 4 → exec (.copy c) s = .next (u.copyStep c d.n)) ∧
    (dst = 4 → exec (.copy c) s = .next ((u.modCtx c fun x => if x.ports4.contains w then x else { x with ports4 := x.ports4 ++ [w] }).copyStep c d.n))) ∧
  (∀ (c : Nat) (d : Desc) (s : State), Starts s c d 2 →
    let s' := started s c d (.launch true 0 0 [] [] 0 [])
    let x := s'.ctx c
    let u := s'.wildDesc c (bitOf (d.w 2) 0 || !regionIn (d.w 2))
    (bitOf (d.w 3) 63 = false → exec (.launch c) s = .next (u.sendStarts c d.n d x.mode x.audn x.theta)) ∧
    (bitOf (d.w 3) 63 = true → exec (.launch c) s = .next (u.edgeRead (u.peOf c) c
      (u.ctrAddr (tileAt (bitsOf (d.w 3) 62 55) (bitsOf (d.w 3) 54 48)) (bitsOf (d.w 3) 47 42)) 8 (.gate d.n x.mode x.audn x.theta)))) ∧
  (∀ (c : Nat) (d : Desc) (s : State), Starts s c d 3 →
    let s' := started s c d .plain
    let x := s'.ctx c
    let u := s'.wildDesc c (!regionIn (d.w 2) || loadBad (loadReqOf x c d 0))
    let w := u.modFab fun f => { f with loads := f.loads ++ (regionTiles (d.w 2)).map (loadReqOf x c d) }
    exec (.load c) s = .next ((w.modDesc c d.n fun y => { y with prog := .load (regionTiles (d.w 2)).length 0 0 0 [] [] }).loadCheck c d.n)) ∧
  (∀ (c : Nat) (d : Desc) (s : State), Starts s c d 3 → regionIn (d.w 2) = true → d.reservedBad = false → loadBad (loadReqOf (s.ctx c) c d 0) = false →
    GoesTo (exec (.load c) s) fun u => u.fab.loads = s.fab.loads ++ (regionTiles (d.w 2)).map (loadReqOf (s.ctx c) c d) ∧ u.tiles = s.tiles ∧ u.fab.flights = s.fab.flights) ∧
  (∀ (c : Nat) (d : Desc) (s : State), Starts s c d 4 →
    let u := started s c d (.wait true 0)
    exec (.wait c) s = .next (u.edgeRead (u.peOf c) c (u.waitAddr d) 8 (.wait d.n))) ∧
  (∀ (c n since : Nat) (x : InFl) (s : State), c < 3072 → s.desc c (BitVec.ofNat 32 n) = some x → x.prog = .wait false since → x.fin = none → (s.ctx c).st = .active → since + us ≤ s.time →
    exec (.waitPoll c n) s = .next ((s.modDesc c x.d.n fun y => { y with prog := .wait true since }).edgeRead (s.peOf c) c (s.waitAddr x.d) 8 (.wait x.d.n))) ∧
  (∀ (c : Nat) (d : Desc) (s : State), Starts s c d 5 →
    let s' := started s c d .plain
    let strays := (regionTiles (d.w 1)).any fun t => (s'.tileSt t).part != some (s'.ctx c).cfg.part
    let u := (regionTiles (d.w 1)).foldl (fun s t => s.sendCnt c d t) (s'.wildDesc c (!regionIn (d.w 1)))
    (strays = false → exec (.signal c) s = .next (u.endDesc c d.n (okEnding (regionTiles (d.w 1)).length))) ∧
    (strays = true → exec (.signal c) s = .next u)) ∧
  (∀ (c : Nat) (d : Desc) (s : State), Starts s c d 7 →
    let id := bitsOf (d.w 1) 37 32
    let count := bitsOf (d.w 1) 31 0
    let u := (started s c d .barrier).wildDesc c (count == 0)
    let w := u.modRick fun r => { r with waiting := tmod [] r.waiting id fun l => l ++ [(c, d.n)] }
    (bitOf (d.w 1) 63 = false → exec (.barrier c) s = .next (u.partArrive c d id count)) ∧
    (bitOf (d.w 1) 63 = true → (u.partn (u.ctx c).cfg.part).cur.rickbar = true → u.rick.master = true → exec (.barrier c) s = .next (w.rickArrive w.rick.panel id count)) ∧
    (bitOf (d.w 1) 63 = true → (u.partn (u.ctx c).cfg.part).cur.rickbar = true → u.rick.master = false → u.rick.inrick = true → exec (.barrier c) s = .next w) ∧
    (bitOf (d.w 1) 63 = true → ((u.partn (u.ctx c).cfg.part).cur.rickbar = false ∨ (u.rick.master = false ∧ u.rick.inrick = false)) →
      exec (.barrier c) s = .next (u.endDesc c d.n (errEnding 0x04 0 stNoRoute 0 none))))

/-- With a session, CTX_SEL stages the selected context; CONFIGURE that passes its checks makes a FREE context READY with the staged configuration and every count 0, keeping its epoch, and one that fails a check changes no context and gives its reason; RELEASE of a READY or HALTED context frees it; HALT notes the driver's cause of a fault of a READY or ACTIVE context; in another state each sets ERR with ECODE 1, as RESTART of CTX_CMD does (R294 to R296, R319). RESTART of a READY, ACTIVE or HALTED context
ends what runs and raises its epoch, and its end makes it READY with every count 0 (R297, R298). CONTEXT_FAULT acts on the first cause noted for a context that is READY or ACTIVE and halts it with nothing in flight (R319, R320); the watchdog notes its cause after WDOG ms without an end (R321). Completes: CTX_SEL, CONFIGURE, RELEASE, RESTART, RESTART_DONE, HALT, CONTEXT_FAULT, STEP_WATCHDOG. -/
def Obligations.ContextsComplete : Prop :=
  (∀ (p : Nat) (v : W32) (s : State), Managed s p → GoesTo (exec (.ctxSel p v) s) fun u =>
    (u.port p).ctxSel = bitsOf v 11 0 ∧ (u.port p).stage = (s.ctx (bitsOf v 11 0)).cfg ∧ (∀ q, q ≠ p → u.port q = s.port q) ∧ (∀ c, u.ctx c = s.ctx c) ∧ Only [.host] s u) ∧
  (∀ (p : Nat) (s : State), Managed s p → s.configureCode (s.port p).ctxSel (s.port p).stage = 0 → GoesTo (exec (.configure p) s) fun u =>
    u.ctx (s.port p).ctxSel = { st := .ready, epoch := (s.ctx (s.port p).ctxSel).epoch, cfg := (s.port p).stage } ∧ (∀ c, c ≠ (s.port p).ctxSel → u.ctx c = s.ctx c) ∧
    (u.port p).err = false ∧ (u.port p).ecode = 0 ∧ Only [.host] s u) ∧
  (∀ (p : Nat) (s : State), Managed s p → s.configureCode (s.port p).ctxSel (s.port p).stage ≠ 0 → GoesTo (exec (.configure p) s) fun u =>
    (∀ c, u.ctx c = s.ctx c) ∧ (u.port p).err = true ∧ (u.port p).ecode = s.configureCode (s.port p).ctxSel (s.port p).stage ∧ Only [.host] s u) ∧
  (∀ (p : Nat) (s : State), Managed s p → ((s.ctx (s.port p).ctxSel).st = .ready ∨ (s.ctx (s.port p).ctxSel).st = .halted) →
    let c := (s.port p).ctxSel
    exec (.release p) s = .next ((((s.quiet c).forget c).setCtx c { st := .free, epoch := (s.ctx c).epoch, cfg := (s.ctx c).cfg }).ctxCmd p 0)) ∧
  (∀ (p : Nat) (s : State), Managed s p → (s.ctx (s.port p).ctxSel).st ≠ .ready → (s.ctx (s.port p).ctxSel).st ≠ .halted → exec (.release p) s = .next (s.ctxCmd p 1)) ∧
  (∀ (p : Nat) (s : State), Managed s p → (s.ctx (s.port p).ctxSel).st ≠ .ready → (s.ctx (s.port p).ctxSel).st ≠ .active → exec (.halt p) s = .next (s.ctxCmd p 1)) ∧
  (∀ (p c : Nat) (s : State), s.reach p = true → (s.ctx (s.port p).ctxSel).st ≠ .ready → (s.ctx (s.port p).ctxSel).st ≠ .active → (s.ctx (s.port p).ctxSel).st ≠ .halted →
    exec (.restart p c false) s = .next (s.ctxCmd p 1)) ∧
  (∀ (p c : Nat) (s : State), RingsAt s p c → ((s.ctx c).st = .ready ∨ (s.ctx c).st = .active ∨ (s.ctx c).st = .halted) → exec (.restart p c true) s = .next (s.restart c)) ∧
  (∀ (p c : Nat) (s : State), s.reach p = true → ((s.ctx (s.port p).ctxSel).st = .ready ∨ (s.ctx (s.port p).ctxSel).st = .active ∨ (s.ctx (s.port p).ctxSel).st = .halted) →
    exec (.restart p c false) s = .next ((s.restart (s.port p).ctxSel).ctxCmd p 0)) ∧
  (∀ (c : Nat) (s : State), c < 3072 → (s.ctx c).st = .resetting → (s.ctx c).byWarm = false → s.svRuns = true →
    GoesTo (exec (.restartDone c) s) fun u => (u.ctx c).st = .ready ∧ (u.ctx c).epoch = (if (s.ctx c).epochDue then ((s.ctx c).epoch + 1) % 16 else (s.ctx c).epoch) ∧
      (u.ctx c).sqHead = 0 ∧ (u.ctx c).sqTail = 0 ∧ (u.ctx c).cqTail = 0 ∧ (u.ctx c).cqHead = 0 ∧ (u.ctx c).cfg = (s.ctx c).cfg ∧ (∀ d, d ≠ c → u.ctx d = s.ctx d) ∧ u.tiles = s.tiles) ∧
  (∀ (p : Nat) (s : State), Managed s p → ((s.ctx (s.port p).ctxSel).st = .ready ∨ (s.ctx (s.port p).ctxSel).st = .active) →
    exec (.halt p) s = .next ((s.note { ctx := (s.port p).ctxSel, cause := 6, n := none, ending := none, tile := none }).ctxCmd p 0)) ∧
  (∀ (i : Nat) (f : FaultNote) (s : State), lget? s.host.faults i = some f → (∀ g ∈ s.host.faults.take i, g.ctx ≠ f.ctx) → ((s.ctx f.ctx).st = .ready ∨ (s.ctx f.ctx).st = .active) →
    GoesTo (exec (.contextFault i) s) fun u => (u.ctx f.ctx).st = .halted ∧ (u.ctx f.ctx).cause = f.cause ∧ (u.ctx f.ctx).epoch = (s.ctx f.ctx).epoch ∧
      (u.ctx f.ctx).inflight = [] ∧ (u.ctx f.ctx).ready = []) ∧
  (∀ (c : Nat) (x : InFl) (l : List InFl) (s : State), c < 3072 → (s.ctx c).inflight = x :: l → (s.ctx c).st = .active → (s.ctx c).cfg.wdog ≠ 0 →
    (s.ctx c).wdogAt + (s.ctx c).cfg.wdog * ms ≤ s.time →
    exec (.stepWatchdog c) s = .next (s.note { ctx := c, cause := 4, n := some x.d.n, ending := some (errEnding 0x0B 0 0 0 none), tile := none }))

/-! ### Where commands complete: partitions, the rick, clocks -/

/-- A command of PRT_CTL through port 0 with a session, while a service die runs: DEFINE, WARM_RESET, DELETE and UPDATE whose checks pass clear ERR and have their effect (the first three enter RESETTING, UPDATE applies RTO, RICKBAR and MASK and stages GUARDED); one whose check fails has no effect but ERR and its ECODE. Once the rails of the sites
that were BANKED are back (R389), the end of a warm reset leaves the partition DEFINED with its staged mode, and the end of a DELETE leaves it UNDEFINED without a home table, and none of its sites belongs to a partition (R333, R334, R337). Completes: DEFINE, WARM_RESET, DELETE, UPDATE (partition), WARM_RESET_DONE, DELETE_DONE. -/
def Obligations.PartitionsComplete : Prop :=
  (∀ (p : Nat) (s : State), p < 16 → Served s → s.defineCode p (s.partn p) = 0 → GoesTo (exec (.define 0 p) s) fun u =>
    (u.partn p).st = .resetting ∧ (u.partn p).cur = (s.partn p).stage ∧ (u.partn p).err = false ∧ (u.partn p).ecode = 0 ∧ (u.partn p).gstaged = (s.partn p).stage.guarded) ∧
  (∀ (p : Nat) (s : State), p < 16 → Served s → s.defineCode p (s.partn p) ≠ 0 → GoesTo (exec (.define 0 p) s) fun u =>
    u.partn p = { s.partn p with err := true, ecode := s.defineCode p (s.partn p) } ∧ (∀ q, q ≠ p → u.partn q = s.partn q) ∧ Only [.parts] s u) ∧
  (∀ (p : Nat) (s : State), p < 16 → Served s → s.changeCode p (s.partn p) = 0 → exec (.warmReset 0 p) s = .next ((s.prtCmd p 0).warmReset p).promise) ∧
  (∀ (p : Nat) (s : State), p < 16 → Served s → s.changeCode p (s.partn p) ≠ 0 → GoesTo (exec (.warmReset 0 p) s) fun u =>
    u.partn p = { s.partn p with err := true, ecode := s.changeCode p (s.partn p) } ∧ (∀ q, q ≠ p → u.partn q = s.partn q) ∧ Only [.parts] s u) ∧
  (∀ (p : Nat) (s : State), p < 16 → Served s → s.deleteCode p (s.partn p) = 0 →
    exec (.delete 0 p) s = .next ((((s.prtCmd p 0).profClear p).modPart p fun q => { q with deleting := true }).warmReset p).promise) ∧
  (∀ (p : Nat) (s : State), p < 16 → Served s → s.deleteCode p (s.partn p) ≠ 0 → GoesTo (exec (.delete 0 p) s) fun u =>
    u.partn p = { s.partn p with err := true, ecode := s.deleteCode p (s.partn p) } ∧ (∀ q, q ≠ p → u.partn q = s.partn q) ∧ Only [.parts] s u) ∧
  (∀ (p : Nat) (s : State), p < 16 → Served s → s.changeCode p (s.partn p) = 0 → GoesTo (exec (.prtUpdate 0 p) s) fun u =>
    u.partn p = { s.partn p with
      err := false, ecode := 0, gstaged := (s.partn p).stage.guarded
      cur := { (s.partn p).cur with rto := (s.partn p).stage.rto, rickbar := (s.partn p).stage.rickbar, mask := (s.partn p).stage.mask } } ∧
    (∀ q, q ≠ p → u.partn q = s.partn q) ∧ Only [.parts] s u) ∧
  (∀ (p : Nat) (found suspects : List BadUnit) (s : State), p < 16 → (s.partn p).st = .resetting → (s.partn p).deleting = false → s.svRuns = true → s.warmRails p = true →
    GoesTo (exec (.warmResetDone p found suspects) s) fun u => (u.partn p).st = .defined ∧ (u.partn p).cur.guarded = (s.partn p).gstaged) ∧
  (∀ (p : Nat) (s : State), p < 16 → (s.partn p).st = .resetting → (s.partn p).deleting = true → s.svRuns = true → s.warmRails p = true →
    GoesTo (exec (.deleteDone p) s) fun u => (u.partn p).st = .undefined ∧ (u.partn p).deleting = false ∧ (u.partn p).home = [] ∧ (u.partn p).cur = (s.partn p).cur ∧
      ∀ i, i ∈ s.partSites p → (u.site i).part = none)

/-- A cascade port that is UP: a codeword that fails decoding asks for its sender's replay; a good one acknowledges, delivers the flits of its slots where it is in order, and resends where it says NAK; so one out of order acknowledges alone, and one in order whose slots are all empty is taken and acknowledges; 2 µs without an acknowledgement resend the replay buffer, at most 8 times,
and then take the port down; lost lane lock takes it down (R349, R350). A port that is enabled and not UP comes up, from step 4 of bring-up on, in the best mode that both sides support. CAS_PCFG sets the limits; with EN the port trains again, without it it goes down, and on a panel that has stepped down the ports stay as they are (R348, R352, R353). Completes: CASCADE_CODEWORD,
REPLAY_TIMEOUT, CASCADE_PORT_DOWN, CASCADE_PORT_UP, CAS_PCFG. -/
def Obligations.CascadePortsComplete : Prop :=
  (∀ (n : Nat) (cw : Codeword) (s : State), n < 32 → (s.cas n).st = 2 → cw.good = false → GoesTo (exec (.cascadeCodeword n cw) s) fun u =>
    u.cas n = { s.cas n with sendNak := true } ∧ (∀ m, m ≠ n → u.cas m = s.cas m) ∧ Only [.rick] s u) ∧
  (∀ (n : Nat) (cw : Codeword) (s : State), n < 32 → (s.cas n).st = 2 → cw.good = true →
    let acked := s.modCas n fun x =>
      { x with replay := ackReplay cw.ack x.replay, since := if (ackReplay cw.ack x.replay).length < x.replay.length then s.time else x.since }
    let u := if cw.cseq = (s.cas n).lastSeq + 1 then cw.slots.foldl (fun s x => s.casFlit n x) (acked.modCas n fun x => { x with lastSeq := cw.cseq, sendNak := false }) else acked
    exec (.cascadeCodeword n cw) s = .next (if cw.nak then u.casResend n else u)) ∧
  (∀ (n : Nat) (cw : Codeword) (s : State), n < 32 → (s.cas n).st = 2 → cw.good = true → cw.nak = false → cw.cseq ≠ (s.cas n).lastSeq + 1 → GoesTo (exec (.cascadeCodeword n cw) s) fun u =>
    (u.cas n).replay = ackReplay cw.ack (s.cas n).replay ∧ (u.cas n).lastSeq = (s.cas n).lastSeq ∧ (∀ m, m ≠ n → u.cas m = s.cas m) ∧ Only [.rick] s u) ∧
  (∀ (n k : Nat) (cw : Codeword) (s : State), n < 32 → (s.cas n).st = 2 → cw.good = true → cw.nak = false → cw.cseq = (s.cas n).lastSeq + 1 → cw.slots = List.replicate k .idle →
    GoesTo (exec (.cascadeCodeword n cw) s) fun u => (u.cas n).replay = ackReplay cw.ack (s.cas n).replay ∧ (u.cas n).lastSeq = cw.cseq ∧ (u.cas n).sendNak = false ∧ Only [.rick] s u) ∧
  (∀ (n : Nat) (w : Sent) (l : List Sent) (s : State), n < 32 → (s.cas n).st = 2 → (s.cas n).replay = w :: l → (s.cas n).since + 2 * us ≤ s.time → w.resends < 8 →
    GoesTo (exec (.replayTimeout n) s) fun u => (u.cas n).st = 2 ∧ (u.cas n).since = s.time ∧ (u.cas n).replay.length = l.length + 1 ∧ (∀ m, m ≠ n → u.cas m = s.cas m) ∧ Only [.rick] s u) ∧
  (∀ (n : Nat) (w : Sent) (l : List Sent) (s : State), n < 32 → (s.cas n).st = 2 → (s.cas n).replay = w :: l → (s.cas n).since + 2 * us ≤ s.time → 8 ≤ w.resends →
    exec (.replayTimeout n) s = .next (s.casDown n fun _ => true)) ∧
  (∀ (n : Nat) (d : List Nat) (s : State), n < 32 → (s.cas n).st = 2 → exec (.cascadePortDown n d) s = .next (s.casDown n d.contains)) ∧
  (∀ (n : Nat) (q : CasPartner) (s : State), n < 32 → (s.cas n).en = true → (s.cas n).st ≠ 2 → s.rick.conflict = false → s.pwr.powered = true → Stage_trains s.spi.stage = true →
    (s.rick.master = true → q.panel = 0 → q.serial = Config.serial) →
    GoesTo (exec (.cascadePortUp n q) s) fun u => (u.cas n).st = 2 ∧ (u.cas n).width = max (s.cas n).maxw q.width ∧ (u.cas n).rate = max (s.cas n).maxr q.rate ∧
      (u.cas n).ppanel = q.panel ∧ (∀ m, m ≠ n → u.cas m = s.cas m)) ∧
  (∀ (n : Nat) (v : W32) (s : State), n < 32 → Managed s 0 → bitOf v 31 = true → s.rick.conflict = false → GoesTo (exec (.casPcfg 0 n v) s) fun u =>
    u.cas n = { s.cas n with en := true, maxw := bitsOf v 30 29, maxr := bitsOf v 28 27, detok := bitOf v 26, st := 1 } ∧ (∀ m, m ≠ n → u.cas m = s.cas m) ∧ Only [.rick] s u) ∧
  (∀ (n : Nat) (v : W32) (s : State), n < 32 → Managed s 0 → bitOf v 31 = false ∨ s.rick.conflict = true →
    let u := s.modCas n fun x => { x with en := bitOf v 31, maxw := bitsOf v 30 29, maxr := bitsOf v 28 27, detok := bitOf v 26 }
    exec (.casPcfg 0 n v) s = .next (if u.rick.conflict then u else if (s.cas n).st = 2 then u.casDown n fun _ => true else u.modCas n fun x => { x with st := 0 }))

/-- On the master: a panel whose number no one holds and that announces itself through a port that is UP is admitted and routes are computed anew; PUBLISH through port 0 with a session computes routes anew and is busy until they are in force; RRESTART restarts the context here, where it may, and is busy until it has ended. On another panel CAS_CTL only records the error, and RRESTART
its CONTEXT; a member that gets the master's RRESTART (port 4) restarts the context. Received routes come into force (R346, R347, R354, R355, R359). Completes: RICK_ANNOUNCE, PUBLISH, RICK_ROUTES, RRESTART, RRESTART_DONE. -/
def Obligations.RickCommandsComplete : Prop :=
  (∀ (q via : Nat) (sn : W64) (ps : List W64) (s : State), s.rick.master = true → 0 < q → q < 64 → via < 32 → (s.cas via).st = 2 → (s.rick.admitted.find? fun m => m.1 == q) = none →
    GoesTo (exec (.rickAnnounce q sn ⟨via, ps⟩) s) fun u => u.rick.admitted = s.rick.admitted.filter (fun m => m.1 != q) ++ [(q, sn)] ∧ u.rick.pubs = s.rick.pubs + 1 ∧
      (∀ n, u.cas n = s.cas n) ∧ Only [.rick] s u) ∧
  (∀ (s : State), Served s → s.rick.busy = false → s.rick.master = true → GoesTo (exec (.publish 0) s) fun u =>
    u.rick = { s.rick with err := false, busy := true, publishing := true, pubs := s.rick.pubs + 1 } ∧ Only [.rick] s u) ∧
  (∀ (s : State), Served s → s.rick.busy = false → s.rick.master = false → GoesTo (exec (.publish 0) s) fun u => u.rick = { s.rick with err := true } ∧ Only [.rick] s u) ∧
  (∀ (v : W32) (s : State), Served s → s.rick.busy = false → s.rick.master = false → GoesTo (exec (.rrestart 0 v) s) fun u =>
    u.rick = { s.rick with err := true, context := bitsOf v 27 16 } ∧ Only [.rick] s u) ∧
  (∀ (g : Nat) (s : State), s.svRuns = true → s.rick.conflict = false → 0 < g → (s.rick.master = true → g = s.rick.pubs) → GoesTo (exec (.rickRoutes g) s) fun u =>
    u.rick.gen = g ∧ u.rick.inrick = !s.rick.master ∧ u.rick.publishing = false ∧ (s.rick.publishing = true → u.rick.busy = false) ∧
      (∀ q, q ∈ u.rick.routed ↔ q < 64 ∧ q ≠ s.rick.panel ∧ (Config.rickRoute g q).getLsbD 12 = true) ∧ Only [.rick] s u) ∧
  (∀ (v : W32) (s : State), Served s → s.rick.busy = false → s.rick.master = true → GoesTo (exec (.rrestart 0 v) s) fun u => u.rick.busy = true ∧ u.rick.context = bitsOf v 27 16 ∧
    (((s.ctx (bitsOf v 27 16)).st = .ready ∨ (s.ctx (bitsOf v 27 16)).st = .active ∨ (s.ctx (bitsOf v 27 16)).st = .halted) → bitsOf v 27 16 < 3072 →
      (u.ctx (bitsOf v 27 16)).st = .resetting)) ∧
  (∀ (v : W32) (s : State), s.rick.inrick = true → s.rick.master = false → s.rick.conflict = false → exec (.rrestart 4 v) s = .next (s.rickRestart (bitsOf v 27 16))) ∧
  (∀ (s : State), s.rick.busy = true → s.rick.publishing = false → (s.ctx s.rick.context).st ≠ .resetting → GoesTo (exec .rrestartDone s) fun u => u.rick = { s.rick with busy := false } ∧ Only [.rick] s u)

/-- A member that hears its master keeps its timebase from moving backward: ahead of the master it holds, behind it by at most 10 µs it slews, behind by more it steps to the master's (R360). A lost master leaves the timebase as it is (R362). An arrival of a member at a rick barrier is counted on the master, and a release ends the BARRIERs that wait for it on a member (R361). A lost reference of an edge die is recorded with its time and raised; the loss of both corner references, at once or one after the other, puts the mesh into holdover with every site that is not DARK holding its step; a reference that returns ends the loss and, of a corner, the holdover; an edge die without its reference for 10 s loses its channels or ports. A node that drops neighbours holds, and free-runs when none
remain; an OFF site whose node fails to recouple stays out (R379); a node that is not in step with every neighbour present joins again; a free-running base die takes its measured rate (R364, R366, R375 to R377). Completes: TIMEBASE_SYNC, MASTER_LOST, RICK_BARRIER_ARRIVAL, RICK_BARRIER_RELEASE, CLK_REF_LOSS, CLK_REF_RESTORED, EDGE_HOLDOVER_EXPIRY, CLK_DECOUPLED, CLK_RECOUPLED, TIME_MESSAGE. -/
def Obligations.TimebaseAndReferencesComplete : Prop :=
  ((∀ (m : Nat) (s : State), s.rick.master = false → s.rick.inrick = true → s.rick.conflict = false → GoesTo (exec (.timebaseSync m) s) fun u => s.time ≤ u.time ∧ u.rick.tsync = true ∧
    (m < s.time → u.time = s.time ∧ u.rick.holdNs = s.time - m ∧ u.rick.slew = 0) ∧ (s.time ≤ m → m ≤ s.time + 10 * us → u.time = s.time ∧ u.rick.slew = m - s.time ∧ u.rick.holdNs = 0) ∧
    (s.time + 10 * us < m → u.time = m ∧ u.rick.slew = 0 ∧ u.rick.holdNs = 0) ∧ Only [.time, .rick] s u) ∧
  (∀ (s : State), s.rick.master = false → s.rick.tsync = true → GoesTo (exec .masterLost s) fun u => u.rick = { s.rick with tsync := false, slew := 0, holdNs := 0 } ∧ Only [.rick] s u) ∧
  (∀ (q id : Nat) (n : W32) (s : State), s.rick.master = true → id < 64 → s.members.contains q = true → exec (.rickBarrierArrival q id n) s = .next (s.rickArrive q id n.toNat)) ∧
  (∀ (id : Nat) (t : W64) (s : State), s.rick.master = false → s.rick.inrick = true → id < 64 → exec (.rickBarrierRelease id t) s =
    .next ((tget [] s.rick.waiting id).foldl (fun u w => u.endDesc w.1 w.2 (okEnding t.toNat)) (s.modRick fun r => { r with waiting := tput [] r.waiting id [] })))) ∧
  ((∀ (i : Nat) (s : State), 8 ≤ i → i < 0x18 → s.clk.lossOf i = none →
    let s' := s.modClk fun k => { k with losses := k.losses ++ [(i, s.time)], refA := k.refA && true, refB := k.refB && true }
    GoesTo (exec (.clkRefLoss i) s) fun u => u = s'.raisePanel 0x0400 (3 + i * 256) 0 ∧ u.clk.lossOf i = some s.time ∧ u.clk.holdover = s.clk.holdover) ∧
  (∀ (i : Nat) (s : State), i < 2 → s.clk.lossOf i = none → (if i = 0 then s.clk.refB else s.clk.refA) = true → GoesTo (exec (.clkRefLoss i) s) fun u =>
    u.clk.lossOf i = some s.time ∧ u.clk.refA = (s.clk.refA && i != 0) ∧ u.clk.refB = (s.clk.refB && i != 1) ∧ u.clk.holdover = s.clk.holdover ∧ u.sites = s.sites) ∧
  (∀ (i : Nat) (s : State), i < 3 → (∀ j ∈ refInputs i, s.clk.lossOf j = none) → (i = 2 ∨ (if i = 0 then s.clk.refB else s.clk.refA) = false) → GoesTo (exec (.clkRefLoss i) s) fun u =>
    u.clk.holdover = true ∧ u.clk.refA = false ∧ u.clk.refB = false ∧ (∀ p, p < 272 → (s.site p).st ≠ .dark → (u.site p).clk.hold = true)) ∧
  (∀ (i : Nat) (s : State), refInput i = true → (∀ j ∈ refInputs i, s.clk.lossOf j ≠ none) → GoesTo (exec (.clkRefRestored i) s) fun u =>
    (∀ j ∈ refInputs i, u.clk.lossOf j = none) ∧ (i = 0 ∨ i = 2 → u.clk.refA = true) ∧ (i = 1 ∨ i = 2 → u.clk.refB = true) ∧
    (i < 3 → u.clk.holdover = false) ∧ (3 ≤ i → u.clk.holdover = s.clk.holdover)) ∧
  (∀ (i t : Nat) (s : State), s.clk.lossOf i = some t → 2 ≤ i → t + 10 * sec ≤ s.time → exec (.edgeHoldoverExpiry i) s = .next (if i < 0x10
    then ((rangeFrom (4 * (i - 8)) 4).foldl State.channelFails s).promise
    else (rangeFrom (4 * (i - 0x10)) 4).foldl (fun u n => if (u.cas n).st = 2 then u.casDown n fun _ => true else u) s)) ∧
  (∀ (p : Nat) (fs : BitVec 4) (s : State), p < 272 → (s.site p).st ≠ .dark → (s.site p).clk.freeRun = false → (s.site p).clk.coupled &&& fs ≠ 0 → GoesTo (exec (.clkDecoupled p fs) s) fun u =>
    (u.site p).clk.coupled = (s.site p).clk.coupled &&& ~~~fs ∧ (u.site p).clk.hold = true ∧ ((s.site p).clk.wantsBank = false → (u.site p).st = (s.site p).st) ∧
    ((s.site p).clk.coupled &&& ~~~fs = 0 → isCorner p = false → (u.site p).clk.freeRun = true)) ∧
  (∀ (p : Nat) (fs : BitVec 4) (s : State), p < 272 → (s.site p).st = .off → (s.site p).clk.coupled &&& fs = 0 → (s.site p).clk.decoupled = true →
    GoesTo (exec (.clkDecoupled p fs) s) fun u => (u.site p).pwr.soft = .none ∧ (u.site p).pwr.rejoining = false ∧ (u.site p).clk = (s.site p).clk) ∧
  (∀ (p : Nat) (s : State), p < 272 → (s.site p).st ≠ .dark → isCorner p = true →
    ((s.site p).clk.decoupled = true ∨ (s.site p).clk.freeRun = true ∨ (s.site p).clk.lossHold = true ∨ (s.site p).clk.coupled ≠ (s.site p).clk.present) → GoesTo (exec (.clkRecoupled p) s) fun u =>
    (u.site p).clk.decoupled = false ∧ (u.site p).clk.freeRun = false ∧ u.tiles = s.tiles) ∧
  (∀ (p q : Nat) (f : Face) (s : State), p < 272 → (s.site p).st ≠ .dark → siteNeighbour p f = some q → (s.site q).inMesh = true →
    ((s.site p).clk.decoupled = true ∨ (s.site p).clk.freeRun = true ∨ (s.site p).clk.lossHold = true ∨ (s.site p).clk.coupled ≠ (s.site p).clk.present) →
    GoesTo (exec (.clkRecoupled p) s) fun u => (u.site p).clk.decoupled = false ∧ (u.site p).clk.freeRun = false ∧ u.tiles = s.tiles) ∧
  (∀ (p r : Nat) (s : State), p < 272 → (s.site p).clk.freeRun = true → (s.site p).st ≠ .dark → s.svRuns = true → GoesTo (exec (.timeMessage p r) s) fun u =>
    (u.site p).clk.tickRate = r ∧ (∀ q, q ≠ p → u.site q = s.site q) ∧ Only [.sites] s u))

/-- STEP_CHANGE asks an ACTIVE or HELD site that does not hold its step for its effective step; a raise whose rails settle begins its stop when its turn has come; the end of a step stop leaves the site ACTIVE at the requested step, or, where the PLL locked again at the previous one, at that, with the rails of its step, which only a running service die requests (R482); a PLL that locks at neither leaves it in RESET at the step before. CLK_CEIL
sets the partition's ceiling; BANK and UNBANK set and clear the driver's request, and a DARK, OFF or RESET site refuses them; a banked site whose voltages are back returns ACTIVE at its step (R370 to R373, R380 to R382, R388, R389). Completes: STEP_CHANGE, RAIL_SETTLED, STEP_STOP_END, CLK_STEP_FAULT, CLK_CEIL, BANK, UNBANK, BANK_RETURN. -/
def Obligations.StepsAndBanksComplete : Prop :=
  (∀ (p : Nat) (s : State), p < 272 → s.svRuns = true → (s.site p).clk.hold = false → (s.site p).clk.pllBad = false → ((s.site p).st = .active ∨ (s.site p).st = .held) →
    exec (.stepChange p (s.stepCeiling p)) s = .next ((s.wantStep p (s.stepCeiling p)).startWaiting 1)) ∧
  (∀ (p : Nat) (s : State), p < 272 → (s.site p).pwr.settled = false → (s.site p).pwr.settleAt ≤ s.time → (s.site p).st ≠ .dark →
    exec (.railSettled p) s = .next ((s.modSite p fun x => { x with pwr := { x.pwr with settled := true } }).startWaiting 1)) ∧
  (∀ (p ns : Nat) (back : Bool) (s : State), p < 272 → (s.site p).clk.ph = .stop → (back = true ∨ ns ≤ 4000) →
    let k := if back then (s.site p).clk.prev else (s.site p).clk.req
    let s1 := s.modSite p fun x =>
      { x with st := .active, clk := { x.clk with ph := .none, cur := k, stepCnt := if back then x.clk.stepCnt else x.clk.stepCnt + 1, stopLast := BitVec.ofNat 16 ns, lastStop := some s.time } }
    let s2 := s1.relimit p
    let s3 := if s2.svRuns then s2.setRails p ((s.site p).vcAt k) (s.site p).vsAt else s2
    exec (.stepStopEnd p ⟨ns, back⟩) s = .next (((s3.bankNow p).remapHold p).startWaiting 1)) ∧
  (∀ (p : Nat) (s : State), p < 272 → (s.site p).clk.ph = .stop →
    let s1 := (s.siteReset p).modSite p fun y => { y with resetting := false, clk := { y.clk with cur := (s.site p).clk.prev, pllBad := true } }
    exec (.clkStepFault p) s = .next (((s1.unsettle 2 p).raiseSite 0x0404 p (s1.siteSource p) (s.site p).clk.req).startWaiting 1).promise) ∧
  (∀ (q : Nat) (v : W32) (s : State), q < 16 → Managed s 0 → GoesTo (exec (.clkCeil 0 q v) s) fun u => (u.partn q).ceil = bitsOf v 3 0 ∧ (∀ r, r ≠ q → u.partn r = s.partn r) ∧ u.tiles = s.tiles) ∧
  (∀ (v : W32) (s : State), Served s → (s.site (s.phys (bitsOf v 7 0))).st = .active ∨ (s.site (s.phys (bitsOf v 7 0))).st = .banked ∨ (s.site (s.phys (bitsOf v 7 0))).st = .held →
    let p := s.phys (bitsOf v 7 0)
    let s1 := s.modClk fun c => { c with bankS := bitsOf v 7 0, bankErr := false }
    exec (.bank 0 v) s = .next ((s1.modSite p fun x => { x with clk := { x.clk with bankDrv := true } }).bankNow p) ∧
    exec (.unbank 0 v) s = .next ((s1.modSite p fun x => { x with clk := { x.clk with bankDrv := false } }).unbankNow p)) ∧
  (∀ (v : W32) (s : State), Served s → (s.site (s.phys (bitsOf v 7 0))).st = .dark ∨ (s.site (s.phys (bitsOf v 7 0))).st = .off ∨ (s.site (s.phys (bitsOf v 7 0))).st = .reset →
    exec (.bank 0 v) s = .next (s.modClk fun c => { c with bankS := bitsOf v 7 0, bankErr := true }) ∧
    exec (.unbank 0 v) s = .next (s.modClk fun c => { c with bankS := bitsOf v 7 0, bankErr := true })) ∧
  (∀ (p : Nat) (s : State), p < 272 → (s.site p).st = .banked → (s.site p).clk.returning = true → (s.site p).pwr.settled = true →
    let k := if (s.site p).clk.hold then (s.site p).clk.cur else min (s.site p).clk.req (s.stepCeiling p)
    exec (.bankReturn p) s = .next (((s.modSite p fun x => { x with st := .active, clk := { x.clk with returning := false, cur := k, req := k } }).relimit p).remapHold p))

/-! ### Where commands complete: power -/

/-- The input's events in a panel with power (R384, R398, R399, R408). A sample below 40 V is kept as a minimum and sets the warning. Below 36 V an orderly stop leaves every site that is not DARK OFF and
abandons what SPI_CMD runs. Above 57 V the panel raises 0x0412. Above 60 V, and below 30 V, the panel loses its power: its stage is that before a cold power-on, and the settings copies, the image, the fuses, the meter's energy and its seal stand; a loss marks a gap in the
meter. At 44 V and more after a warning the panel raises 0x041C. Completes: INPUT_WARN, ORDERLY_STOP, INPUT_HIGH, INPUT_OVERVOLTAGE, INPUT_LOSS, PWR_IN_RESTORED. -/
def Obligations.InputCompletes : Prop :=
  (∀ (mv us_ : Nat) (s : State), s.pwr.powered = true → mv < 40000 → GoesTo (exec (.inputWarn mv us_) s) fun u =>
    u.pwr.warned = true ∧ u.pwr.warn = true ∧ u.pwr.vmin = min s.pwr.vmin mv ∧ u.pwr.vin = s.pwr.vin ∧ u.pwr.powered = true) ∧
  (∀ (mv : Nat) (s : State), s.pwr.powered = true → s.pwr.stopped = false → mv < 36000 → GoesTo (exec (.orderlyStop mv) s) fun u =>
    u.pwr.stopped = true ∧ (∀ p, p < 272 → (s.site p).st ≠ .dark → (u.site p).st = .off) ∧ u.spi.cmdSt = 0 ∧ u.spi.committing = none) ∧
  (∀ (mv : Nat) (s : State), s.pwr.powered = true → 57000 < mv → exec (.inputHigh mv) s = .next ((s.inputAt mv).raisePanel 0x0412 mv 0).promise) ∧
  (∀ (mv : Nat) (s : State), s.pwr.powered = true → 60000 < mv → GoesTo (exec (.inputOvervoltage mv) s) fun u => u.pwr.powered = false ∧ u.spi.stage = .rom ∧ u.sites = [] ∧
    u.spi.image = s.spi.image ∧ u.spi.copyA = s.spi.copyA ∧ u.spi.copyB = s.spi.copyB ∧ u.ses.owner = s.ses.owner ∧ u.ses.svnMin = s.ses.svnMin ∧ u.mtr.energy = s.mtr.energy ∧
    u.mtr.sealBit = s.mtr.sealBit ∧ u.pending = s.pending) ∧
  (∀ (mv : Nat) (s : State), s.pwr.powered = true → mv < 30000 → GoesTo (exec (.inputLoss mv) s) fun u => u.pwr.powered = false ∧ u.mtr.gap = true ∧ u.mtr.energy = s.mtr.energy ∧
    u.mtr.sealBit = s.mtr.sealBit ∧ u.spi.image = s.spi.image ∧ u.ses.owner = s.ses.owner ∧ u.pending = s.pending) ∧
  (∀ (mv : Nat) (s : State), s.pwr.powered = true → s.pwr.warned = true → 44000 ≤ mv →
    exec (.pwrInRestored mv) s = .next (((s.inputAt mv).modPwr fun w => { w with warned := false }).raisePanel 0x041C mv 0).promise)

/-- A converter that fails hands its group to its partner, and with both of a pair failed all their sites are DARK (R386). A lost phase is marked; up to three leave the site's state alone, and a fourth isolates it while a service die runs (R390, R392). A reservoir's engagement is kept with its time and a free part of its charge is taken (log entry 104), and
fast bubbles begin and end (R393, R394). A dip is counted with its greatest depth (R395) and holds the soft starts of its group alone (R405), and the dip limit rises a step when a second has passed since the last reduction and the last rise (R396). Below its reset level VB leaves the site DARK with a rejoin due, VC in RESET, and VS OFF with a soft start asked for
(R397). Completes: CONVERTER_FAIL, PHASE_LOST, RESERVOIR_ENGAGE, FAST_BUBBLE_END, RAIL_DIP, DIP_LIMIT_RISE, RAIL_RESET. -/
def Obligations.RailsComplete : Prop :=
  (∀ (g : Nat) (s : State), g < 34 → s.pwr.powered = true → s.pwr.convOn = true → (tget {} s.pwr.convs g).st ≠ 1 → (tget {} s.pwr.convs ((g + 17) % 34)).st ≠ 1 →
    GoesTo (exec (.converterFail g) s) fun u => (tget {} u.pwr.convs g).st = 1 ∧ (tget {} u.pwr.convs ((g + 17) % 34)).st = 2 ∧
      (∀ h, h ≠ g → h ≠ (g + 17) % 34 → tget {} u.pwr.convs h = tget {} s.pwr.convs h) ∧ u.tiles = s.tiles) ∧
  (∀ (g : Nat) (s : State), g < 34 → s.pwr.powered = true → s.pwr.convOn = true → (tget {} s.pwr.convs g).st ≠ 1 → (tget {} s.pwr.convs ((g + 17) % 34)).st = 1 →
    GoesTo (exec (.converterFail g) s) fun u => (tget {} u.pwr.convs g).st = 1 ∧ ∀ p, p ∈ groupSites g ∨ p ∈ groupSites ((g + 17) % 34) → (u.site p).st = .dark) ∧
  (∀ (p ph : Nat) (s : State), p < 272 → ph < 12 → (s.site p).st ≠ .dark → (s.site p).pwr.phFail.getLsbD ph = false → GoesTo (exec (.phaseLost p ph) s) fun u =>
    (u.site p).pwr.phFail = (s.site p).pwr.phFail ||| BitVec.ofNat 12 (2 ^ ph) ∧ (popcount (u.site p).pwr.phFail < 4 → (u.site p).st = (s.site p).st ∧ u.tiles = s.tiles) ∧
    (4 ≤ popcount (u.site p).pwr.phFail → s.svRuns = true → (u.site p).st = .dark ∧ (u.site p).pwr.sw = .isolated)) ∧
  (∀ (p : Nat) (low : Bool) (s : State), p < 272 → (s.site p).st ≠ .dark → (s.site p).st ≠ .off → GoesTo (exec (.reservoirEngage p .vc low) s) fun u =>
    u.site p = { s.site p with pwr := { (s.site p).pwr with
      resVc := some s.time, leftVc := chargeAt s.time (s.site p).pwr.resVc (s.site p).pwr.leftVc - Config.freeNat s.freeN, fastBub := (s.site p).pwr.fastBub || low } } ∧
    (∀ q, q ≠ p → u.site q = s.site q) ∧ Only [.freeN, .sites] s u) ∧
  (∀ (p : Nat) (low : Bool) (s : State), p < 272 → (s.site p).st ≠ .dark → (s.site p).st ≠ .off → GoesTo (exec (.reservoirEngage p .vs low) s) fun u =>
    u.site p = { s.site p with pwr := { (s.site p).pwr with
      resVs := some s.time, leftVs := chargeAt s.time (s.site p).pwr.resVs (s.site p).pwr.leftVs - Config.freeNat s.freeN, fastBub := (s.site p).pwr.fastBub || low } } ∧
    (∀ q, q ≠ p → u.site q = s.site q) ∧ Only [.freeN, .sites] s u) ∧
  (∀ (p : Nat) (s : State), p < 272 → (s.site p).pwr.fastBub = true → GoesTo (exec (.fastBubbleEnd p) s) fun u =>
    u.site p = { s.site p with pwr := { (s.site p).pwr with fastBub := false } } ∧ (∀ q, q ≠ p → u.site q = s.site q) ∧ Only [.sites] s u) ∧
  (∀ (p : Nat) (r : Rail) (depth ns : Nat) (s : State), p < 272 → (s.site p).st ≠ .dark → 50 < depth → (r = .vb ∨ (s.site p).st ≠ .off) → GoesTo (exec (.railDip p r depth ns) s) fun u =>
    (u.site p).pwr.lastDip = some s.time ∧ (u.site p).pwr.telDips = (s.site p).pwr.telDips + 1 ∧ (u.site p).pwr.telDepth = max (s.site p).pwr.telDepth depth ∧ (u.site p).st = (s.site p).st ∧
    (∀ q, q ≠ p → ((s.site q).pwr.soft ≠ .ramping ∨ q ∉ groupSites (groupOf p)) → u.site q = s.site q) ∧ u.tiles = s.tiles) ∧
  (∀ (p t : Nat) (s : State), p < 272 → (s.site p).pwr.lastReduce = some t → (s.site p).clk.dipLim < 15 → max t ((s.site p).pwr.lastRise.getD 0) + sec ≤ s.time → s.svRuns = true → GoesTo (exec (.dipLimitRise p) s) fun u =>
    (u.site p).clk.dipLim = (s.site p).clk.dipLim + 1 ∧ (∀ q, q ≠ p → u.site q = s.site q) ∧ Only [.sites, .clk] s u) ∧
  (∀ (p depth : Nat) (s : State), p < 272 → (s.site p).st ≠ .dark → GoesTo (exec (.railReset p .vb depth) s) fun u => (u.site p).st = .dark ∧ (u.site p).pwr.rejoinDue = true) ∧
  (∀ (p depth : Nat) (s : State), p < 272 → (s.site p).st ≠ .dark → (s.site p).st ≠ .off → GoesTo (exec (.railReset p .vc depth) s) fun u => (u.site p).st = .reset ∧ (u.site p).resetting = true) ∧
  (∀ (p depth : Nat) (s : State), p < 272 → (s.site p).st ≠ .dark → (s.site p).st ≠ .off → GoesTo (exec (.railReset p .vs depth) s) fun u =>
    (u.site p).st = .off ∧ (u.site p).pwr.soft = .queued ∧ (u.site p).pwr.softFor = .vsReset)

/-- An input switch that opens leaves its site DARK and isolated (R400). A path more than 30 % above its baseline sets PATHLIM, and one more than 60 % above it banks the site (R402). For the site that PWR_SITESEL of port 0 names, CLEAR_PATH ends both and begins a new refinement, ISOLATE isolates, and RESTORE makes the
rejoin of an isolated site due; each that does not apply sets ERR with its code and nothing else (R407). A baseline refined for 72 h is kept (R401). Completes: INPUT_SWITCH_OPEN, PATH_ANOMALY, CLEAR_PATH, ISOLATE, RESTORE, PATH_BASELINE_FROZEN. -/
def Obligations.PathsComplete : Prop :=
  let sel (s : State) : Nat := bitsOf (s.port 0).sitesel 8 4 * 16 + bitsOf (s.port 0).sitesel 3 0
  (∀ (p c : Nat) (r : Rail) (s : State), p < 272 → (s.site p).pwr.sw ≠ .isolated → s.pwr.convOn = true → c = 1 ∨ c = 2 → GoesTo (exec (.inputSwitchOpen p c r) s) fun u =>
    (u.site p).st = .dark ∧ (u.site p).pwr.sw = .isolated) ∧
  (∀ (p r : Nat) (s : State), p < 272 → 130 < r → (s.site p).st ≠ .dark → s.svRuns = true → GoesTo (exec (.pathAnomaly p r) s) fun u =>
    (u.site p).pwr.pathLim = true ∧ (u.site p).pwr.pathRatio = r ∧ (160 < r → (u.site p).clk.bankPath = true) ∧ (∀ q, q ≠ p → u.site q = s.site q) ∧ u.tiles = s.tiles) ∧
  (∀ (s : State), Served s → sel s < 272 → (s.site (sel s)).st ≠ .dark → GoesTo (exec (.clearPath 0) s) fun u => (u.site (sel s)).pwr.pathLim = false ∧ (u.site (sel s)).pwr.pathBase = none ∧
    (u.site (sel s)).pwr.refining = true ∧ (u.site (sel s)).clk.bankPath = false ∧ u.pwr.cmdErr = false ∧ (∀ q, q ≠ sel s → u.site q = s.site q)) ∧
  (∀ (s : State), Served s → sel s < 272 → (s.site (sel s)).st = .dark → GoesTo (exec (.clearPath 0) s) fun u => u.pwr = { s.pwr with cmdErr := true, cmdCode := 1 } ∧ Only [.pwr] s u) ∧
  (∀ (s : State), Served s → sel s < 272 → (s.site (sel s)).pwr.sw ≠ .isolated → GoesTo (exec (.isolate 0) s) fun u => (u.site (sel s)).st = .dark ∧ u.pwr.cmdErr = false) ∧
  (∀ (s : State), Served s → sel s < 272 → (s.site (sel s)).pwr.sw = .isolated → GoesTo (exec (.isolate 0) s) fun u => u.pwr = { s.pwr with cmdErr := true, cmdCode := 1 } ∧ Only [.pwr] s u) ∧
  (∀ (s : State), Served s → sel s < 272 → (s.site (sel s)).pwr.sw = .isolated → popcount (s.site (sel s)).pwr.phFail < 4 → GoesTo (exec (.restore 0) s) fun u =>
    (u.site (sel s)).pwr.sw = .off ∧ (u.site (sel s)).pwr.rejoinDue = true ∧ (u.site (sel s)).pwr.attempts = 0 ∧ (∀ q, q ≠ sel s → u.site q = s.site q) ∧ Only [.pwr, .sites] s u) ∧
  (∀ (s : State), Served s → sel s < 272 → (s.site (sel s)).pwr.sw = .isolated → 4 ≤ popcount (s.site (sel s)).pwr.phFail → GoesTo (exec (.restore 0) s) fun u =>
    u.pwr = { s.pwr with cmdErr := true, cmdCode := 2 } ∧ Only [.pwr] s u) ∧
  (∀ (p b : Nat) (s : State), p < 272 → (s.site p).pwr.refining = true → (s.site p).pwr.refineSince + 72 * hour ≤ s.time → (s.site p).st ≠ .dark → s.svRuns = true →
    GoesTo (exec (.pathBaselineFrozen p b) s) fun u => (u.site p).pwr.pathBase = some (BitVec.ofNat 16 b) ∧ (u.site p).pwr.refining = false ∧ (∀ q, q ≠ p → u.site q = s.site q) ∧ u.tiles = s.tiles)

/-- A queued soft start that may run ramps, with nothing held yet (R403). When a ramp of a group with a converter is over, with the time that it was held, a DARK site has VB, is OFF and asks for the second part; any other stands at step 0 with its switch on: in RESET with its SRAM zeroed where it rejoins, else ACTIVE, or HELD for the row of a REMAP that runs (R404, R448).
A ramp held for more than 10 ms in total is given up, the third time for good; 100 ms later the same start is asked for again (R405). A rejoin that is due asks for its soft start, a rejoin test that finds nothing leaves the site ACTIVE, or HELD for such a row, and settled, and one that its base die fails leaves it DARK (R448). Completes: SOFT_START, SOFT_START_DONE,
SOFT_START_ABANDON, SOFT_START_RETRY, SITE_REJOIN, SITE_REJOINED. -/
def Obligations.SoftStartsComplete : Prop :=
  (∀ (p : Nat) (s : State), p < 272 → (s.site p).pwr.soft = .queued → (s.site p).pwr.sw ≠ .isolated → s.maySoft p = true → GoesTo (exec (.softStart p) s) fun u =>
    u.site p = { s.site p with pwr := { (s.site p).pwr with soft := .ramping, sw := .softstart, softSince := s.time, held := 0, holdEnd := s.time } } ∧ (∀ q, q ≠ p → u.site q = s.site q) ∧ Only [.sites] s u) ∧
  (∀ (p : Nat) (s : State), p < 272 → (s.site p).pwr.soft = .ramping → s.groupFed (groupOf p) = true → s.svRuns = true → (s.site p).pwr.softSince + (600 * us + (s.site p).pwr.held) ≤ s.time → (s.site p).st = .dark → GoesTo (exec (.softStartDone p) s) fun u =>
    (u.site p).st = .off ∧ (u.site p).routeGen = s.fab.gen ∧ (u.site p).pwr.soft = .queued ∧ (u.site p).pwr.softFor = .rejoin ∧ (u.site p).pwr.vb = 750 ∧ (∀ q, q ≠ p → (u.site q).st = (s.site q).st) ∧ u.tiles = s.tiles) ∧
  (∀ (p : Nat) (s : State), p < 272 → (s.site p).pwr.soft = .ramping → s.groupFed (groupOf p) = true → (s.site p).pwr.softSince + (1400 * us + (s.site p).pwr.held) ≤ s.time → (s.site p).st ≠ .dark → (s.site p).pwr.rejoining = true →
    GoesTo (exec (.softStartDone p) s) fun u => (u.site p).st = .reset ∧ (u.site p).clk.cur = 0 ∧ (u.site p).pwr.sw = .on ∧ (∀ t a, t ∈ s.tilesOf p → memGet (u.tile t).sram a = 0)) ∧
  (∀ (p : Nat) (s : State), p < 272 → (s.site p).pwr.soft = .ramping → s.groupFed (groupOf p) = true → (s.site p).pwr.softSince + (1400 * us + (s.site p).pwr.held) ≤ s.time → (s.site p).st ≠ .dark → (s.site p).pwr.rejoining = false →
    (s.site p).clk.wantsBank = false → GoesTo (exec (.softStartDone p) s) fun u => (u.site p).st = (if s.remapRow p = none then .active else .held) ∧ (u.site p).clk.cur = 0 ∧ (u.site p).pwr.sw = .on) ∧
  (∀ (p : Nat) (s : State), p < 272 → (s.site p).pwr.soft = .ramping → 10 * ms < heldFor (s.site p) s.time → GoesTo (exec (.softStartAbandon p) s) fun u =>
    (u.site p).pwr.attempts = (s.site p).pwr.attempts + 1 ∧ (u.site p).pwr.soft = (if 3 ≤ (s.site p).pwr.attempts + 1 then .none else .abandoned) ∧ (u.site p).pwr.sw = .off ∧
    (u.site p).st = (s.site p).st ∧ (∀ q, q ≠ p → u.site q = s.site q)) ∧
  (∀ (p : Nat) (s : State), p < 272 → (s.site p).pwr.soft = .abandoned → (s.site p).pwr.sw ≠ .isolated → (s.site p).pwr.softSince + 100 * ms ≤ s.time → s.svRuns = true → exec (.softStartRetry p) s = .next (s.askSoft p (s.site p).pwr.softFor)) ∧
  (∀ (p : Nat) (s : State), p < 272 → (s.site p).pwr.rejoinDue = true → (s.site p).pwr.sw ≠ .isolated → s.svRuns = true → s.pwr.convOn = true → s.pwr.stopped = false → GoesTo (exec (.siteRejoin p) s) fun u =>
    (u.site p).pwr.rejoining = true ∧ (u.site p).pwr.rejoinAt = s.time ∧ (u.site p).pwr.rejoinDue = false ∧ (u.site p).pwr.soft = .queued ∧ (u.site p).pwr.softFor = .rejoin ∧ (∀ q, q ≠ p → u.site q = s.site q)) ∧
  (∀ (p : Nat) (found suspects : List BadUnit) (w : List (LinkId × List Nat)) (s : State), p < 272 → (s.site p).pwr.rejoining = true → (s.site p).st = .reset → s.svRuns = true →
    (∃ u ∈ found, BadUnit_kind u = 1 ∧ BadUnit_site u = p) → GoesTo (exec (.siteRejoined p found suspects w) s) fun u => (u.site p).st = .dark) ∧
  (∀ (p : Nat) (s : State), p < 272 → (s.site p).pwr.rejoining = true → (s.site p).st = .reset → s.svRuns = true → (s.site p).clk.wantsBank = false → (s.site p).clk.ph = .none →
    GoesTo (exec (.siteRejoined p [] [] []) s) fun u => (u.site p).st = (if s.remapRow p = none then .active else .held) ∧ (u.site p).pwr.rejoining = false ∧ (2, p) ∉ u.hlt.unsettled)

/-- A telemetry tick counts its millisecond. A cap of 8000 to 40000 W is taken and any other sets ERR (R412). An allocation keeps the panel's power, adds it to the energy, and with a service die keeps its time (R410, R413). PWR_PACE takes its LOCK (R433). A pacer's update counts itself in its site alone, without bubbles in draught mode and with
k = 16 in bubble mode (R420, R421). A turn of the cap limit, 10 ms or more after the last, starts its counts afresh (R423). CLEAR_PROFILES removes the profiles of a partition that is not UNDEFINED and sets ERR for one that is (R433). A standby takes the profiles (R417). The telemetry ring's head and configuration are written (R435). Completes: TELEMETRY_TICK, PWR_CAP,
BUDGET_ALLOCATION, PACE_LOCK, PACER_UPDATE, CAP_LIMIT_UPDATE, CLEAR_PROFILES, PROFILE_MIRROR, TEL_HEAD, TEL_CFG. -/
def Obligations.CapControlCompletes : Prop :=
  (∀ (l : List SiteMeas) (k : List ConvMeas) (s : State), s.pwr.convOn = true → GoesTo (exec (.telemetryTick l k) s) fun u => u.cap.telMs = s.cap.telMs + 1 ∧ u.tiles = s.tiles) ∧
  (∀ (v : W32) (s : State), Served s → 8000 ≤ bitsOf v 15 0 → bitsOf v 15 0 ≤ 40000 → GoesTo (exec (.pwrCap 0 v) s) fun u => u.cap = { s.cap with cap := bitsOf v 15 0, capErr := false } ∧ u.sites = s.sites) ∧
  (∀ (v : W32) (s : State), Served s → (bitsOf v 15 0 < 8000 ∨ 40000 < bitsOf v 15 0) → GoesTo (exec (.pwrCap 0 v) s) fun u => u.cap = { s.cap with capErr := true } ∧ Only [.cap] s u) ∧
  (∀ (m : PowerMeas) (s : State), s.pwr.convOn = true → GoesTo (exec (.budgetAllocation m) s) fun u => u.cap.ppanel = m.panel ∧ u.cap.energy = s.cap.energy + (s.cap.energyUj + m.panel) / 1000 ∧
    u.tiles = s.tiles ∧ (s.svRuns = true → u.cap.lastAlloc = some s.time)) ∧
  (∀ (p : Nat) (v : W32) (s : State), p < 16 → Served s → GoesTo (exec (.paceLock 0 p v) s) fun u => (u.partn p).lock = bitOf v 31 ∧ (∀ q, q ≠ p → u.partn q = s.partn q) ∧ u.tiles = s.tiles) ∧
  (∀ (p m mv : Nat) (s : State), p < 272 → ((s.site p).st = .active ∨ (s.site p).st = .held) → GoesTo (exec (.pacerUpdate p m mv) s) fun u =>
    (u.site p).ctl.capN = (s.site p).ctl.capN + 1 ∧ ((u.site p).ctl.mode = .draught → (u.site p).ctl.bubble = 0) ∧ ((u.site p).ctl.mode = .bubbles → (u.site p).ctl.pacerK = 16) ∧
    (∀ q, q ≠ p → u.site q = s.site q) ∧ u.tiles = s.tiles) ∧
  (∀ (p : Nat) (s : State), p < 272 → ((s.site p).st = .active ∨ (s.site p).st = .held) → s.svRuns = true → (∀ t, (s.site p).ctl.capAt = some t → t + 10 * ms ≤ s.time) → GoesTo (exec (.capLimitUpdate p) s) fun u =>
    (u.site p).ctl.capAt = some s.time ∧ (u.site p).ctl.capN = 0 ∧ (u.site p).ctl.capSum = 0 ∧ (u.site p).ctl.capDr = 0 ∧ (∀ q, q ≠ p → u.site q = s.site q) ∧ Only [.sites, .clk] s u) ∧
  (∀ (p : Nat) (s : State), p < 16 → Served s → (s.partn p).st ≠ .undefined → GoesTo (exec (.clearProfiles 0 p) s) fun u => (u.partn p).perr = false ∧
    u.cap.prof = s.cap.prof.filter (fun e => !decide (e.1 / 65536 = p)) ∧ (∀ q, q ≠ p → u.partn q = s.partn q) ∧ Only [.parts, .cap] s u) ∧
  (∀ (p : Nat) (s : State), p < 16 → Served s → (s.partn p).st = .undefined → GoesTo (exec (.clearProfiles 0 p) s) fun u => (u.partn p).perr = true ∧ Only [.parts] s u) ∧
  (∀ (s : State), s.svRuns = true → (s.hlt.sva = .standby ∨ s.hlt.svb = .standby) → GoesTo (exec .profileMirror s) fun u => u.cap = { s.cap with mirror := s.cap.prof } ∧ Only [.cap] s u) ∧
  (∀ (p : Nat) (v : W32) (s : State), s.reach p = true → GoesTo (exec (.telHead p v) s) fun u => u.host.tel.head = v ∧ u.host.tel.sent = false ∧ (∀ c, u.ctx c = s.ctx c) ∧ Only [.host] s u) ∧
  (∀ (v : W32) (s : State), Managed s 0 → GoesTo (exec (.telCfg 0 v) s) fun u => u.host.tel.en = bitOf v 31 ∧ u.host.tel.irqEn = bitOf v 30 ∧
    (bitOf v 31 = true → s.host.tel.en = false → u.host.tel.tail = 0 ∧ u.host.tel.head = 0 ∧ u.host.tel.lost = 0) ∧ Only [.host] s u)

/-- A sample of a site that is not DARK keeps the three temperatures, and below 105 °C with good sensors leaves the site's state alone; 115 °C on the base die isolates it, 115 °C on another die turns it off, and 105 °C, or sensors of a die that disagree, bank it (R426, R427). A turn of the thermal controller touches no tile and no packet and raises no limit
above 15. A site banked for heat that has been below 90 °C for 100 ms is so no more, with its thermal limit two steps below what it was, and one OFF for heat that has been cool for 1 s asks for its soft start with thermal limit 8 (R427). Completes: TEMP_SAMPLE, THERMAL_TURN, THM_UNBANK, THM_ON. -/
def Obligations.ThermalCompletes : Prop :=
  (∀ (p a b c : Nat) (s : State), p < 272 → (s.site p).st ≠ .dark → (s.site p).thm.sensorBad = false → max a (max b c) < 105 →
    GoesTo (exec (.tempSample p { comp := some a, sram := some b, base := some c, disagree := none }) s) fun u =>
      (u.site p).thm.tComp = a ∧ (u.site p).thm.tSram = b ∧ (u.site p).thm.tBase = c ∧ (u.site p).thm.sensorBad = false ∧ (u.site p).st = (s.site p).st ∧ (∀ q, q ≠ p → u.site q = s.site q) ∧ Only [.sites, .clk] s u) ∧
  (∀ (p a b c : Nat) (s : State), p < 272 → (s.site p).st ≠ .dark → 115 ≤ c → GoesTo (exec (.tempSample p { comp := some a, sram := some b, base := some c, disagree := none }) s) fun u =>
    (u.site p).st = .dark ∧ (u.site p).pwr.sw = .isolated ∧ (u.site p).pwr.isoCause = 5) ∧
  (∀ (p a b c : Nat) (s : State), p < 272 → (s.site p).st ≠ .dark → (s.site p).st ≠ .off → c < 115 → (115 ≤ a ∨ 115 ≤ b) →
    GoesTo (exec (.tempSample p { comp := some a, sram := some b, base := some c, disagree := none }) s) fun u => (u.site p).st = .off ∧ (u.site p).thm.heatOff = true) ∧
  (∀ (p a b c : Nat) (s : State), p < 272 → ((s.site p).st = .active ∨ (s.site p).st = .held ∨ (s.site p).st = .banked) → a < 115 → b < 115 → c < 115 → 105 ≤ max a (max b c) →
    GoesTo (exec (.tempSample p { comp := some a, sram := some b, base := some c, disagree := none }) s) fun u => (u.site p).clk.bankHeat = true) ∧
  (∀ (p d : Nat) (r : TempReading) (s : State), p < 272 → ((s.site p).st = .active ∨ (s.site p).st = .held ∨ (s.site p).st = .banked) → r.disagree = some d →
    r.comp.getD 0 < 115 → r.sram.getD 0 < 115 → r.base.getD 0 < 115 → GoesTo (exec (.tempSample p r) s) fun u => (u.site p).thm.sensorBad = true ∧ (u.site p).clk.bankHeat = true) ∧
  (∀ (s : State), s.svRuns = true → GoesTo (exec .thermalTurn s) fun u => u.tiles = s.tiles ∧ u.fab = s.fab ∧ ∀ p, (u.site p).clk.thmLim ≤ max 15 (s.site p).clk.thmLim) ∧
  (∀ (p t : Nat) (s : State), p < 272 → (s.site p).clk.bankHeat = true → s.svRuns = true → ((s.site p).thm.sensorBad = false ∨ ∃ t', (s.site p).thm.sensorSince = some t' ∧ t' + 100 * ms ≤ s.time) → (s.site p).thm.coolSince = some t → t + 100 * ms ≤ s.time → (s.site p).temp < 90 →
    GoesTo (exec (.thmUnbank p) s) fun u => (u.site p).clk.bankHeat = false ∧ (u.site p).clk.thmLim = (s.site p).thm.thmAtBank - 2 ∧ (∀ q, q ≠ p → u.site q = s.site q) ∧ u.tiles = s.tiles) ∧
  (∀ (p t : Nat) (s : State), p < 272 → (s.site p).thm.heatOff = true → (s.site p).st = .off → (s.site p).pwr.soft = .none → (s.site p).pwr.attempts < 3 → (s.site p).thm.coolSince = some t → t + sec ≤ s.time → (s.site p).thm.sensorBad = false → s.svRuns = true → s.pwr.stopped = false →
    GoesTo (exec (.thmOn p) s) fun u => (u.site p).clk.thmLim = 8 ∧ (u.site p).pwr.soft = .queued ∧ (u.site p).pwr.softFor = .heat ∧ (∀ q, q ≠ p → u.site q = s.site q) ∧ u.tiles = s.tiles)

/-! ### Where commands complete: bring-up and the serial memory -/

/-- Cold power-on of a panel without power, with the input between 44 V and 60 V, leaves it powered with the timebase at 0 and the fuses and the queue as they were (R437, R438). Where SV-A reads the serial memory: the strap leads to recovery with cause 6, a silent serial memory to recovery with cause 5, an image
that does not verify to recovery, two dead references to FAILED with cause 0x10, and otherwise bring-up goes on with DDR zeroed, its stage shown cycle by cycle (log entry 1), or has FAILED with cause 0x11 (R439 to R442). Where SV-A does not read it the panel waits in the ROM, and SV-B's takeover fails SV-A, makes SV-B active and goes on in the same way (R441). READY ends
bring-up, with every site in its state, and keeps its time (R437). PANEL_RESET, where it is taken, starts bring-up again with the timebase at 0, the fuses and the input voltage as they were and no session (R449). Completes: COLD_POWER_ON, SV_B_TAKEOVER, READY, PANEL_RESET. -/
def Obligations.BringUpCompletes : Prop :=
  let runs (env : BringUpEnv) (s u : State) : Prop :=
    (env.strapRecov = true → u.spi.stage = .recovery ∧ u.spi.cause = 6) ∧
    (env.strapRecov = false → env.flashAlive = false → u.spi.stage = .recovery ∧ u.spi.cause = 5) ∧
    (env.strapRecov = false → env.flashAlive = true → imageCheck s.spi.image s.ses.owner s.ses.svnMin ≠ 0 → u.spi.stage = .recovery) ∧
    (env.strapRecov = false → env.flashAlive = true → imageCheck s.spi.image s.ses.owner s.ses.svnMin = 0 → env.refA = false → env.refB = false →
      u.spi.stage = .failed ∧ u.spi.cause = 0x10) ∧
    (env.strapRecov = false → env.flashAlive = true → imageCheck s.spi.image s.ses.owner s.ses.svnMin = 0 → (env.refA = true ∨ env.refB = true) →
      (u.spi.stage = .image ∧ u.spi.ddrZeroed = true) ∨ (u.spi.stage = .failed ∧ u.spi.cause = 0x11))
  (∀ (env : BringUpEnv) (s : State), s.pwr.powered = false → 44000 ≤ env.vin → env.vin ≤ 60000 → GoesTo (exec (.coldPowerOn env) s) fun u =>
    u.pwr.powered = true ∧ u.time = 0 ∧ u.ses.owner = s.ses.owner ∧ u.ses.svnMin = s.ses.svnMin ∧ u.pending = s.pending ∧
    (env.svaReads = false → u.spi.stage = .rom) ∧ (env.svaReads = true → runs env s u)) ∧
  (∀ (env : BringUpEnv) (s : State), s.spi.boot = some env → s.pwr.powered = true → s.pwr.stopped = false → s.spi.stage = .rom → env.svaReads = false → GoesTo (exec .svBTakeover s) fun u =>
    u.hlt.sva = .failed ∧ u.hlt.svb = .active ∧ runs env s u) ∧
  (∀ (s : State), s.spi.stage = .publish → s.spi.ddrZeroed = true → s.pwr.powered = true → s.pwr.stopped = false → (∀ p, p < 272 → s.siteReady p = true) → GoesTo (exec .ready s) fun u =>
    u.spi.stage = .ready ∧ u.spi.bootMs = min s.bootMsNow 65535 ∧ u.sites = s.sites ∧ u.tiles = s.tiles) ∧
  (∀ (env : BringUpEnv) (s : State), s.spiReach 0 = true → s.spi.running = false → (s.isReady = false ∨ s.hasSession 0 = true) → GoesTo (exec (.panelReset 0 env) s) fun u =>
    u.pwr.powered = true ∧ u.time = 0 ∧ u.pwr.vin = s.pwr.vin ∧ u.ses.owner = s.ses.owner ∧ u.ses.svnMin = s.ses.svnMin ∧ u.ses.ents = [] ∧ (env.svaReads = false → u.spi.stage = .rom) ∧
    (env.svaReads = true → runs env s u))

/-- SETTINGS_COMMIT with a session, outside recovery: a staged field area in range is taken, another is refused with ECODE 11 (R454). Its end writes one signed copy, with SEQ one above the newest one's, in the place of the copy that is not in use, and reads it back; that it holds there is a free choice, and where it does not ECODE is 9 or 10 (R454; log entry
101). UPDATE of a good length begins and clears what had been fetched; a length out of range leaves FAILED with ECODE 8, a port that issues nothing one with ECODE 3, and the image is as it was (R460, R461). With all written and checked its end leaves DONE with the fetched image, and a panel in recovery without its strap begins bring-up anew (R462); or FAILED with ECODE 9 or 10, or with that of an image
that R459 refuses, and the image is as it was (R460). Waiting learned records are appended to the half in use with their CHK; at 90 % the other half takes what still stands, then is in use, then the old one is erased (R455). The buffered log is written at its places in the ring, with a LOG_LOST record where some was lost (R457). Completes: SETTINGS_COMMIT, SETTINGS_COMMIT_DONE,
UPDATE (serial memory), UPDATE_DONE, LEARNED_APPEND, LOG_FLUSH. -/
def Obligations.SerialMemoryCompletes : Prop :=
  let staged (s : State) : List Byte := memGetList s.spi.staging 0 512
  (∀ (s : State), SpiFree s → s.inRecovery = false → settingsOk (staged s) = true → GoesTo (exec (.settingsCommit 0) s) fun u =>
    u.spi = { s.spi with cmdLast := 2, cmdEcode := 0, committing := some (staged s) } ∧ Only [.spi] s u) ∧
  (∀ (s : State), SpiFree s → s.inRecovery = false → settingsOk (staged s) = false → GoesTo (exec (.settingsCommit 0) s) fun u =>
    u.spi = { s.spi with cmdLast := 2, cmdEcode := 11 } ∧ Only [.spi] s u) ∧
  (∀ (f : List Byte) (s : State), s.spi.committing = some f → s.svRuns = true →
    let n : W32 := match s.spi.bestCopy with
      | some (_, c) => c.seq + 1
      | none => 1
    let inB : Bool := if s.spi.setdef then (match s.spi.bestCopy with
      | some (b, _) => !b
      | none => false) else !s.spi.useB
    let w : Option Settings := if Config.freeBool s.freeN then some (signedCopy n f) else none
    GoesTo (exec .settingsCommitDone s) fun u => u.spi.committing = none ∧ u.spi.copyA = (if inB then s.spi.copyA else w) ∧ u.spi.copyB = (if inB then w else s.spi.copyB) ∧
      (Config.freeBool s.freeN = true → u.spi.cmdSt = 6 ∧ u.spi.cmdEcode = 0) ∧ (Config.freeBool s.freeN = false → u.spi.cmdSt = 7 ∧ (u.spi.cmdEcode = 9 ∨ u.spi.cmdEcode = 10))) ∧
  (∀ (s : State), s.spiReach 0 = true → s.spi.running = false → (s.inRecovery = true ∨ s.hasSession 0 = true) → 0x3000 ≤ s.spi.upLen → imgLenOk (s.spi.upLen - 0x3000) = true →
    (s.port 0).mute = false → GoesTo (exec (.update 0) s) fun u => u.spi.cmdSt = 1 ∧ u.spi.cmdLast = 1 ∧ u.spi.cmdEcode = 0 ∧ u.spi.upGot = 0 ∧ u.spi.upBuf = [] ∧ u.spi.image = s.spi.image ∧ u.tiles = s.tiles) ∧
  (∀ (s : State), s.spiReach 0 = true → s.spi.running = false → (s.inRecovery = true ∨ s.hasSession 0 = true) → (s.spi.upLen < 0x3000 ∨ imgLenOk (s.spi.upLen - 0x3000) = false) →
    GoesTo (exec (.update 0) s) fun u => u.spi.cmdSt = 7 ∧ u.spi.cmdEcode = 8 ∧ u.spi.image = s.spi.image) ∧
  (∀ (s : State), s.spiReach 0 = true → s.spi.running = false → (s.inRecovery = true ∨ s.hasSession 0 = true) → 0x3000 ≤ s.spi.upLen → imgLenOk (s.spi.upLen - 0x3000) = true →
    (s.port 0).mute = true → GoesTo (exec (.update 0) s) fun u => u.spi.cmdSt = 7 ∧ u.spi.cmdEcode = 3 ∧ u.spi.image = s.spi.image) ∧
  (∀ (strap prov : Bool) (s : State), s.svRuns = true → s.spi.cmdSt = 5 → s.updateCheck = 0 → (s.inRecovery = false ∨ strap = true ∨ s.spi.boot = none) →
    GoesTo (exec (.updateDone ⟨0, strap, prov⟩) s) fun u =>
      u.spi.cmdSt = 6 ∧ u.spi.cmdEcode = 0 ∧ u.spi.progress = 100 ∧ u.spi.image = s.spi.upBuf ∧ u.spi.imageLen = s.spi.upLen ∧ u.tiles = s.tiles) ∧
  (∀ (prov : Bool) (env : BringUpEnv) (s : State), s.svRuns = true → s.spi.cmdSt = 5 → s.updateCheck = 0 → s.inRecovery = true → s.spi.boot = some env →
    GoesTo (exec (.updateDone ⟨0, false, prov⟩) s) fun u => u.pwr.powered = true ∧ u.time = 0 ∧ u.spi.image = s.spi.upBuf ∧ u.ses.owner = s.ses.owner ∧ u.ses.svnMin = s.ses.svnMin) ∧
  (∀ (r : Nat) (strap prov : Bool) (s : State), s.svRuns = true →
    (((r = 9 ∨ r = 10) ∧ s.spi.cmdSt = 5) ∨ (r = 9 ∧ (s.spi.cmdSt = 3 ∨ s.spi.cmdSt = 4))) → GoesTo (exec (.updateDone ⟨r, strap, prov⟩) s) fun u =>
    u.spi.cmdSt = 7 ∧ u.spi.cmdEcode = r ∧ u.spi.image = s.spi.image ∧ u.tiles = s.tiles) ∧
  (∀ (strap prov : Bool) (s : State), s.svRuns = true → s.spi.cmdSt = 5 → s.updateCheck ≠ 0 → GoesTo (exec (.updateDone ⟨0, strap, prov⟩) s) fun u =>
    u.spi.cmdSt = 7 ∧ u.spi.cmdEcode = s.updateCheck ∧ u.spi.image = s.spi.image ∧ u.tiles = s.tiles) ∧
  (∀ (s : State), s.svRuns = true → (s.spi.lrWait ≠ [] ∨ s.spi.lrPhase ≠ 0) → s.spi.holdsWrites = false → GoesTo (exec .learnedAppend s) fun u => u.spi.lrWait = [] ∧ Only [.spi] s u ∧
    let b := s.spi.lrUseB
    let h := (s.spi.half b).append s.spi.lrWait
    ((s.spi.half b).complete = true → s.spi.lrPhase = 0 → lrBytes h.entries * 10 < 0x200000 * 9 → u.spi.half b = h ∧ u.spi.half (!b) = s.spi.half (!b) ∧ u.spi.lrUseB = b ∧ u.spi.lrPhase = 0) ∧
    ((s.spi.half b).complete = true → s.spi.lrPhase = 0 → 0x200000 * 9 ≤ lrBytes h.entries * 10 → u.spi.half b = h ∧
      u.spi.half (!b) = ({ gen := h.gen + 1 } : LrHalf).append (compactAll h.entries h.entries) ∧ u.spi.lrUseB = b ∧ u.spi.lrPhase = 1) ∧
    ((s.spi.half b).complete = true → s.spi.lrPhase = 1 → u.spi.half (!b) = { (s.spi.half (!b)).append s.spi.lrWait with complete := true } ∧ u.spi.lrUseB = !b ∧ u.spi.lrPhase = 2) ∧
    ((s.spi.half b).complete = true → s.spi.lrPhase = 2 → u.spi.half b = h ∧ u.spi.half (!b) = {} ∧ u.spi.lrUseB = b ∧ u.spi.lrPhase = 0) ∧
    ((s.spi.half b).complete = false → lrBytes s.spi.lrWait * 10 < 0x200000 * 9 → u.spi.half b = ({ gen := 1, complete := true } : LrHalf).append s.spi.lrWait ∧ u.spi.lrUseB = b)) ∧
  (∀ (s : State), s.svRuns = true → (s.spi.logBuf ≠ [] ∨ s.spi.logLost ≠ 0) → s.spi.holdsWrites = false → GoesTo (exec .logFlush s) fun u => u.spi.logBuf = [] ∧ u.spi.logLost = 0 ∧
    (s.spi.logLost = 0 → u.spi = { s.spi.logBuf.foldl Spi.logWrite s.spi with logBuf := [], logLost := 0 }) ∧
    (s.spi.logLost ≠ 0 → ∃ r, u.spi.log.getLast? = some r ∧ bitsOf r.w0 63 48 = 0xB ∧ r.w2 = BitVec.ofNat 64 s.spi.logLost) ∧ Only [.spi] s u)

/-! ### Where commands complete: health -/

/-- A self-test slice that is due changes nothing but its time and the fault history where it passes; where it fails it takes the score to 0 and, while a service die runs, fences the tile and retests it (R469 to R473, R482). The hourly turn, an hour after the last, keeps its time and changes no site and no packet (R471, R472). A confirming retest empties the tile: a candidate that passes is SUSPECT with score SUSTHR - 1, one that fails is
FENCED or a HOLE with a DEFECT entry of its position, a RETIRE's that passes leaves it FENCED, or a HOLE where its row has no usable spare, a CLEAR's that passes is ACTIVE with score 255, and either's that fails gets its DEFECT entry (R32, R473, R475, R476); that of a spare position ends (log entry 102). The end of a remap stop puts the tile, zeroed and ACTIVE, on the spare position of its row; of the other tiles only FENCED ones change, to HOLEs (R20, R21, R32). The
end of a compute reset returns a tile, or a site: ACTIVE, or HELD for the row of a REMAP that runs (R477). Completes: SELF_TEST_SLICE, HEALTH_HOURLY, CONFIRMING_RETEST_DONE, TILE_REMAP_STOP_END, COMPUTE_RESET_DONE. -/
def Obligations.SelfTestsComplete : Prop :=
  let blank (T : Tile) : Prop := T.retest = false ∧ (∀ a, memGet T.sram a = 0) ∧ (∀ a, memGet T.scr a = 0) ∧ T.ctrs = []
  (∀ (t : Nat) (s : State), t < 32768 → (s.tileSt t).st = .active → s.runs t = true → s.sliceDue t = true → GoesTo (exec (.selfTestSlice t true) s) fun u =>
    u.hlt.history = (s.tilePhys t, (s.tileSt t).mrg.cell, 0) :: s.hlt.history ∧ u.tile t = { s.tile t with sliceAt := some s.time } ∧ (∀ n, n ≠ t → u.tile n = s.tile n) ∧ Only [.tiles, .hlt] s u) ∧
  (∀ (t : Nat) (s : State), t < 32768 → (s.tileSt t).st = .active → s.runs t = true → s.sliceDue t = true → s.svRuns = false → GoesTo (exec (.selfTestSlice t false) s) fun u =>
    (u.tile t).score = 0 ∧ (u.tile t).due = 2 ∧ (u.tile t).st = (s.tile t).st ∧ (∀ n, n ≠ t → u.tile n = s.tile n) ∧ u.sites = s.sites) ∧
  (∀ (t : Nat) (s : State), t < 32768 → (s.tileSt t).st = .active → s.runs t = true → s.sliceDue t = true → s.svRuns = true → GoesTo (exec (.selfTestSlice t false) s) fun u =>
    (u.tile t).score = 0 ∧ (u.tile t).st = .fenced ∧ (u.tile t).cand = true ∧ (u.tile t).retest = true ∧ (∀ n, n ≠ t → u.tile n = s.tile n) ∧ u.sites = s.sites) ∧
  (∀ (s : State), s.svRuns = true → s.hlt.hourAt + hour ≤ s.time → GoesTo (exec .healthHourly s) fun u => u.hlt.hourAt = s.time ∧ u.sites = s.sites ∧ u.fab = s.fab) ∧
  (∀ (t : Nat) (s : State), t < 32768 → s.svRuns = true → (s.tile t).retest = true → (s.tile t).retestOf = 0 → GoesTo (exec (.confirmingRetestDone t true) s) fun u =>
    (u.tile t).st = .suspect ∧ (u.tile t).score = s.hlt.susthr - 1 ∧ (u.tile t).cand = false ∧ blank (u.tile t) ∧ (∀ n, n ≠ t → u.tile n = s.tile n)) ∧
  (∀ (t : Nat) (s : State), t < 32768 → s.svRuns = true → (s.tile t).retest = true → (s.tile t).retestOf = 0 → GoesTo (exec (.confirmingRetestDone t false) s) fun u =>
    ((u.tile t).st = .fenced ∨ (u.tile t).st = .hole) ∧ (u.tile t).cand = false ∧ blank (u.tile t) ∧ tget none u.hlt.rowRet (s.rowKey t) = some s.time ∧
    (∃ d ∈ u.hlt.defects, unitOf d.word0 = unitOf (s.tileDefect t 0)) ∧ (∀ n, n ≠ t → u.tile n = s.tile n)) ∧
  (∀ (t : Nat) (s : State), t < 32768 → s.svRuns = true → (s.tile t).retest = true → (s.tile t).retestOf = 2 → (s.tile t).st = .fenced → GoesTo (exec (.confirmingRetestDone t true) s) fun u =>
    (u.tile t).st = (if s.spareOk t then .fenced else .hole) ∧ (u.tile t).cand = false ∧ (u.tile t).defer_ = false ∧ blank (u.tile t) ∧ (s.hlt.run = some (2, t) → u.hlt.busy = false) ∧ (∀ n, n ≠ t → u.tile n = s.tile n)) ∧
  (∀ (t : Nat) (s : State), t < 32768 → s.svRuns = true → (s.tile t).retest = true → (s.tile t).retestOf = 3 → GoesTo (exec (.confirmingRetestDone t true) s) fun u =>
    (u.tile t).st = .active ∧ (u.tile t).score = 255 ∧ blank (u.tile t) ∧ (s.hlt.run = some (5, t) → u.hlt.busy = false) ∧ (∀ n, n ≠ t → u.tile n = s.tile n)) ∧
  (∀ (t : Nat) (s : State), t < 32768 → s.svRuns = true → (s.tile t).retest = true → (s.tile t).retestOf = 2 ∨ (s.tile t).retestOf = 3 → GoesTo (exec (.confirmingRetestDone t false) s) fun u =>
    (∃ d ∈ u.hlt.defects, unitOf d.word0 = unitOf (s.tileDefect t 0)) ∧ (u.tile t).lastCause = 6 ∧ blank (u.tile t) ∧ (∀ n, n ≠ t → u.tile n = s.tile n)) ∧
  (∀ (k : Nat) (s : State), k < 2176 → s.svRuns = true → s.hlt.spareTest = some k → GoesTo (exec (.confirmingRetestDone (32768 + k) true) s) fun u =>
    u.hlt.busy = false ∧ u.hlt.spareTest = none ∧ u.tiles = s.tiles) ∧
  (∀ (t : Nat) (s : State), t < 32768 → s.hlt.run = some (1, t) → (s.tileSt t).clk.ph = .none → s.tilePhys t < 272 → GoesTo (exec (.tileRemapStopEnd (s.tilePhys t)) s) fun u =>
    (u.tile t).st = .active ∧ (u.tile t).score = 255 ∧ (∀ a, memGet (u.tile t).sram a = 0) ∧ u.hlt.busy = false ∧ u.hlt.run = none ∧
    (u.site (s.tilePhys t)).tmapRow (tileTR t) = lset ((s.tileSt t).tmapRow (tileTR t)) (tileTC t) ((s.tileSt t).sparePos (tileTR t)) ∧
    (∀ r, r ≠ tileTR t → (u.site (s.tilePhys t)).tmapRow r = (s.tileSt t).tmapRow r) ∧
    (∀ n, n ≠ t → u.tile n = s.tile n ∨ ((s.tile n).st = .fenced ∧ u.tile n = { s.tile n with st := .hole }))) ∧
  (∀ (t : Nat) (s : State), t < 32768 → (s.tile t).resetting = true → GoesTo (exec (.computeResetDone false t) s) fun u =>
    (u.tile t).resetting = false ∧ ((s.tile t).ld.waiting = [] → u.tile t = { s.tile t with resetting := false } ∧ u.sites = s.sites) ∧ (s.hlt.run = some (6, t) → u.hlt.busy = false) ∧ (∀ n, n ≠ t → u.tile n = s.tile n)) ∧
  (∀ (p : Nat) (s : State), p < 272 → (s.site p).resetting = true → GoesTo (exec (.computeResetDone true p) s) fun u =>
    (u.site p).resetting = false ∧ ((s.site p).st = .reset → (s.site p).clk.pllBad = false → (s.site p).clk.wantsBank = false → (s.site p).clk.ph = .none → (u.site p).st = (if s.remapRow p = none then .active else .held)) ∧
    (s.hlt.run = some (7, p) → u.hlt.busy = false) ∧ (∀ q, q ≠ p → u.site q = s.site q) ∧ u.tiles = s.tiles)

/-- The commands of HLT_CMD through port 0 with a session and a service die, while none runs. REMAP of a FENCED tile with a usable spare runs and holds the row of an ACTIVE site without a step change; RETIRE fences, and with CONFIRM retests; KEEP returns a FENCED tile SUSPECT, or ends a candidacy; HOLE makes a FENCED tile with a bad position a HOLE; TRESET
and SRESET reset a tile and a site; CLEAR removes a learned entry and records that (R446, R475 to R477). A target in the wrong state is refused with ECODE 3, a row without spare with 4, running cores with 5, an unknown entry with 6, and nothing but HLT_TARGET, ERR and ECODE changes (R491). HLT_SCLR, HLT_ECLR and HLT_DBCLR clear the
counts that they name and no others; HLT_LSEL copies a record for its port (R526 to R528). Completes: REMAP, RETIRE, KEEP, HOLE, TRESET, SRESET, CLEAR, HLT_SCLR, HLT_ECLR, HLT_DBCLR, HLT_LSEL. -/
def Obligations.HealthCommandsComplete : Prop :=
  let refused (e : Nat) (v : W32) (o : Out) (s : State) : Prop := GoesTo o fun u => u.hlt = { s.hlt with target := bitsOf v 14 0, err := true, ecode := e } ∧ Only [.hlt] s u
  (∀ (v : W32) (s : State), HltFree s →
    let t := bitsOf v 14 0
    ((s.tile t).st = .fenced → s.spareOk t = true → GoesTo (exec (.remap 0 v) s) fun u =>
      u.hlt = { s.hlt with target := t, err := false, ecode := 0, busy := true, run := some (1, t) } ∧ ((s.tileSt t).st = .active → (s.tileSt t).clk.ph = .none → (u.site (s.tilePhys t)).st = .held ∧
      (u.site (s.tilePhys t)).heldRow = some (tileTR t)) ∧ (∀ q, q ≠ s.tilePhys t → u.site q = s.site q) ∧ Only [.sites, .hlt] s u) ∧
    ((s.tile t).st ≠ .fenced → refused 3 v (exec (.remap 0 v) s) s) ∧
    ((s.tile t).st = .fenced → s.spareOk t = false → refused 4 v (exec (.remap 0 v) s) s) ∧
    ((s.tile t).st ≠ .hole → bitOf v 19 = true → GoesTo (exec (.retire 0 v) s) fun u =>
      (u.tile t).st = .fenced ∧ (u.tile t).retest = true ∧ (u.tile t).retestOf = 2 ∧ u.hlt.busy = true ∧ u.hlt.run = some (2, t) ∧ (∀ n, n ≠ t → u.tile n = s.tile n)) ∧
    ((s.tile t).st ≠ .hole → bitOf v 19 = false → GoesTo (exec (.retire 0 v) s) fun u =>
      ((u.tile t).st = .fenced ∨ (u.tile t).st = .hole) ∧ (u.tile t).cand = false ∧ (u.tile t).retest = false ∧ u.hlt.busy = false ∧ (∃ d ∈ u.hlt.defects, unitOf d.word0 = unitOf (s.tileDefect t 0)) ∧
      (∀ n, n ≠ t → u.tile n = s.tile n)) ∧
    ((s.tile t).st = .hole → refused 3 v (exec (.retire 0 v) s) s) ∧
    ((s.tile t).st = .fenced → s.tileBadPos t = false → GoesTo (exec (.keep 0 v) s) fun u => (u.tile t).st = .suspect ∧ (u.tile t).score = s.hlt.susthr - 1 ∧ (u.tile t).cand = false ∧
      (∀ a, memGet (u.tile t).sram a = 0) ∧ (∀ n, n ≠ t → u.tile n = s.tile n)) ∧
    ((s.tile t).st ≠ .fenced → (s.tile t).cand = true → GoesTo (exec (.keep 0 v) s) fun u => u.tile t = { s.tile t with cand := false, defer_ := false } ∧ (∀ n, n ≠ t → u.tile n = s.tile n)) ∧
    ((s.tile t).cand = false → ((s.tile t).st ≠ .fenced ∨ s.tileBadPos t = true) → refused 3 v (exec (.keep 0 v) s) s) ∧
    ((s.tile t).st = .fenced → s.tileBadPos t = true → GoesTo (exec (.hole 0 v) s) fun u => u.tile t = { s.tile t with st := .hole } ∧ (∀ n, n ≠ t → u.tile n = s.tile n)) ∧
    ((s.tile t).st ≠ .fenced ∨ s.tileBadPos t = false → refused 3 v (exec (.hole 0 v) s) s) ∧
    ((s.tileSt t).st ≠ .off → (s.tileSt t).st ≠ .dark → (s.tile t).busyCores = false → (s.tile t).ld.cur = none → GoesTo (exec (.treset 0 v) s) fun u =>
      u.tile t = { (s.tile t).computeReset with resetting := true } ∧ u.hlt.busy = true ∧ u.hlt.run = some (6, t) ∧ (∀ n, n ≠ t → u.tile n = s.tile n)) ∧
    ((s.tileSt t).st = .off ∨ (s.tileSt t).st = .dark → refused 3 v (exec (.treset 0 v) s) s) ∧
    ((s.tileSt t).st ≠ .off → (s.tileSt t).st ≠ .dark → (s.tile t).busyCores = true → refused 5 v (exec (.treset 0 v) s) s)) ∧
  (∀ (d : Defect) (v : W32) (s : State), HltFree s → s.hlt.defects.find? (fun d => d.srcLearned && d.seq == s.hlt.cmdarg) = some d → GoesTo (exec (.clear 0 v) s) fun u =>
    u.hlt.defects.find? (fun d => d.srcLearned && d.seq == s.hlt.cmdarg) = none ∧
    { type := 2, seq := s.spi.lrNext, payload := [BitVec.ofNat 64 s.hlt.cmdarg.toNat] } ∈ u.spi.lrWait) ∧
  (∀ (v : W32) (s : State), HltFree s → s.hlt.defects.find? (fun d => d.srcLearned && d.seq == s.hlt.cmdarg) = none → refused 6 v (exec (.clear 0 v) s) s) ∧
  (∀ (v : W32) (s : State), HltFree s →
    let p := s.phys (bitsOf v 14 0 % 256)
    ((s.site p).st = .off ∨ (s.site p).st = .dark → refused 3 v (exec (.sreset 0 v) s) s) ∧
    ((s.site p).st ≠ .off → (s.site p).st ≠ .dark → ((s.tilesOf p).any fun t => (s.tile t).busyCores) = true → refused 5 v (exec (.sreset 0 v) s) s) ∧
    ((s.site p).st ≠ .off → (s.site p).st ≠ .dark → ((s.tilesOf p).any fun t => (s.tile t).busyCores) = false → GoesTo (exec (.sreset 0 v) s) fun u =>
      (u.site p).st = .reset ∧ (u.site p).resetting = true ∧ u.hlt.busy = true ∧ u.hlt.run = some (7, p))) ∧
  (∀ (v : W32) (s : State), s.reach 0 = true →
    let p := bitsOf (s.port 0).ssel 8 4 * 16 + bitsOf (s.port 0).ssel 3 0
    p < 272 → (s.site p).st ≠ .dark → GoesTo (exec (.hltSclr 0 v) s) fun u =>
      (u.site p).cnt.spart = (if bitOf v 0 then 0 else (s.site p).cnt.spart) ∧ (u.site p).cnt.sdrop = (if bitOf v 1 then 0 else (s.site p).cnt.sdrop) ∧
      (u.site p).cnt.snoroute = (if bitOf v 2 then 0 else (s.site p).cnt.snoroute) ∧ (u.site p).cnt.shop = (if bitOf v 3 then 0 else (s.site p).cnt.shop) ∧
      (u.site p).cnt.spar = (if bitOf v 4 then 0 else (s.site p).cnt.spar) ∧ (u.site p).cnt.sstale = (if bitOf v 5 then 0 else (s.site p).cnt.sstale) ∧
      (∀ q, q ≠ p → u.site q = s.site q) ∧ Only [.sites] s u) ∧
  (∀ (v : W32) (s : State), s.reach 0 = true → let e := bitsOf (s.port 0).esel 5 0
    GoesTo (exec (.hltEclr 0 v) s) fun u => tget 0 u.fab.estale e = (if bitOf v 0 then 0 else tget 0 s.fab.estale e) ∧ tget 0 u.fab.epart e = (if bitOf v 1 then 0 else tget 0 s.fab.epart e) ∧
      (∀ n, n ≠ e → tget 0 u.fab.estale n = tget 0 s.fab.estale n ∧ tget 0 u.fab.epart n = tget 0 s.fab.epart n) ∧ Only [.fab] s u) ∧
  (∀ (v : W32) (s : State), s.reach 0 = true → GoesTo (exec (.hltDbclr 0 v) s) fun u => (∀ p, p < 4 → (u.port p).dbdrop = if bitOf v p then 0 else (s.port p).dbdrop) ∧ Only [.host] s u) ∧
  (∀ (port : Nat) (v : W32) (s : State), s.reach port = true → GoesTo (exec (.hltLsel port v) s) fun u =>
    u.port port = { s.port port with lsel := v &&& 0x3F, lview := lget? s.fab.recs (bitsOf v 5 0) } ∧ (∀ q, q ≠ port → u.port q = s.port q) ∧ Only [.host] s u)

/-- A heartbeat is kept (R478). The standby takes over from an active die that reports its fault or has missed three heartbeats, with the mirrored profiles, ends every session, every armed fuse and a running commit, and counts (R479, R480). A lost standby fails and leaves the active die at work (R481). With no die left for 10 ms the panel holds static budgets and loses the buffered log
(R482). The key written to HLT_SVRST resets every FAILED die and another word nothing; a reset die whose boot verifies is ACTIVE where no die is, else STANDBY, and one whose boot does not stays FAILED; where both were lost the profiles are (R483). Completes: SV_HEARTBEAT, SV_FAILOVER, SV_STANDBY_LOST, SV_LOST, SV_RESET, SV_RESTORED. -/
def Obligations.ServiceDiesComplete : Prop :=
  (∀ (s : State), s.svRuns = true → exec .svHeartbeat s = .next (s.modHlt fun h => { h with lastBeat := s.time })) ∧
  (∀ (r : Bool) (s : State), s.pwr.powered = true → ((s.hlt.sva = .active ∧ s.hlt.svb = .standby) ∨ (s.hlt.sva = .standby ∧ s.hlt.svb = .active)) → (r = true ∨ s.hlt.lastBeat + 3 * ms ≤ s.time) → GoesTo (exec (.svFailover r) s) fun u =>
    u.hlt.sva = (if s.hlt.sva = .active then .failed else .active) ∧ u.hlt.svb = (if s.hlt.sva = .active then .active else .failed) ∧ u.hlt.failovers = satAdd16 s.hlt.failovers 1 ∧
    u.cap.prof = s.cap.mirror ∧ u.spi.committing = none ∧ (∀ e, e < 4 → tget none u.ses.ents e = none) ∧ (∀ p, p < 4 → (u.port p).arm = none)) ∧
  (∀ (r : Bool) (s : State), s.pwr.powered = true → s.hlt.sva = .active → s.hlt.svb = .standby → GoesTo (exec (.svStandbyLost r) s) fun u =>
    u.hlt.sva = .active ∧ u.hlt.svb = .failed ∧ u.ses = s.ses ∧ u.cap = s.cap ∧ u.sites = s.sites ∧ u.tiles = s.tiles) ∧
  (∀ (s : State), s.pwr.powered = true → s.hlt.sva = .active → s.hlt.svb = .failed → s.hlt.lastBeat + 10 * ms ≤ s.time → GoesTo (exec .svLost s) fun u =>
    u.hlt.sva = .failed ∧ u.hlt.svb = .failed ∧ u.hlt.svLostAt = some s.time ∧ u.cap.static_ = true ∧ u.spi.logBuf = [] ∧ u.tiles = s.tiles ∧
    ∀ p, p < 272 → (s.site p).st ≠ .dark → (u.site p).ctl.budget = s.cap.cap * 1000 / 256) ∧
  (∀ (p : Nat) (s : State), s.reach p = true → exec (.svReset p 0x53565253) s = .next (s.modHlt fun h =>
    { h with sva := if h.sva = .failed then .resetting else h.sva, svb := if h.svb = .failed then .resetting else h.svb })) ∧
  (∀ (p : Nat) (v : W32) (s : State), v ≠ 0x53565253 → exec (.svReset p v) s = .next s) ∧
  (∀ (b : Bool) (s : State), s.pwr.powered = true → s.hlt.sva = .resetting → s.hlt.svb = .active → imageCheck s.spi.image s.ses.owner s.ses.svnMin = 0 → GoesTo (exec (.svRestored true b) s) fun u =>
    u.hlt.sva = .standby ∧ u.hlt.svb = .active ∧ u.cap = { s.cap with mirror := s.cap.prof }) ∧
  (∀ (s : State), s.pwr.powered = true → s.hlt.sva = .resetting → s.hlt.svb = .resetting → imageCheck s.spi.image s.ses.owner s.ses.svnMin = 0 → GoesTo (exec (.svRestored true true) s) fun u =>
    u.hlt.sva = .active ∧ u.hlt.svb = .standby ∧ u.cap.prof = [] ∧ u.hlt.svLostAt = none ∧ u.hlt.lastBeat = s.time) ∧
  (∀ (a b : Bool) (s : State), s.pwr.powered = true → s.hlt.sva = .resetting → s.hlt.svb = .active → a = false ∨ imageCheck s.spi.image s.ses.owner s.ses.svnMin ≠ 0 →
    GoesTo (exec (.svRestored a b) s) fun u => u.hlt.sva = .failed ∧ u.hlt.svb = .active ∧ u.cap = s.cap)

/-- HLT_GRANT with EN and minutes opens a window, without EN it opens none; a window ends after its minutes (R485, R491). The begin of a sweep of a site that may be swept banks it; its end, on a site banked for it or a spare, replaces its margins by `replan` of the measurement, counts, and returns it, and after more than 40 ms it is returned unmeasured (R484 to R488;
log entry 103). A site unswept for 24 h is marked overdue (R485). At or above 10 % busy with
a surge the load class is SURGE, and within 10 ms of one it stays so; without one for 1 s it is 1 or 0, in every state of the site (R489). A cell's ceiling rises by one step after 7 days without a detection (R490). Completes: SWEEP_GRANT, SWEEP_WINDOW_END, MARGIN_SWEEP, MARGIN_OVERDUE, LOAD_CLASS_UPDATE, CELL_CEILING_RISE. -/
def Obligations.MarginsComplete : Prop :=
  (∀ (v : W32) (s : State), Served s → bitOf v 31 = true → 0 < bitsOf v 7 0 → GoesTo (exec (.sweepGrant 0 v) s) fun u =>
    u.hlt = { s.hlt with grantEn := true, grantS0 := bitsOf v 23 16, grantS1 := bitsOf v 15 8, grantMin := bitsOf v 7 0, grantOpen := true, grantAt := s.time, swept := 0 } ∧ Only [.hlt] s u) ∧
  (∀ (v : W32) (s : State), Served s → bitOf v 31 = false → GoesTo (exec (.sweepGrant 0 v) s) fun u =>
    u.hlt = { s.hlt with grantEn := false, grantS0 := bitsOf v 23 16, grantS1 := bitsOf v 15 8, grantMin := bitsOf v 7 0 } ∧ Only [.hlt] s u) ∧
  (∀ (s : State), s.hlt.grantOpen = true → s.hlt.grantAt + s.hlt.grantMin * 60 * sec ≤ s.time → exec .sweepWindowEnd s = .next (s.modHlt fun h => { h with grantOpen := false })) ∧
  (∀ (p : Nat) (m : SweepMeas) (s : State), p < 272 → m.begins = true → s.maySweep p = true → GoesTo (exec (.marginSweep p m) s) fun u =>
    (u.site p).st = .banked ∧ (u.site p).clk.bankSweep = true ∧ (u.site p).mrg = { (s.site p).mrg with sweepAt := s.time } ∧ (u.site p).pwr.vc = 550 ∧ (u.site p).pwr.vs = 650 ∧
    (∀ q, q ≠ p → u.site q = s.site q) ∧ u.tiles = s.tiles) ∧
  (∀ (p : Nat) (m : SweepMeas) (s : State), p < 272 → m.begins = false → s.mayMeasure p = true → ((s.site p).clk.bankSweep = false ∨ s.time ≤ (s.site p).mrg.sweepAt + 40 * ms) →
    GoesTo (exec (.marginSweep p m) s) fun u =>
      (u.site p).mrg = { (s.site p).mrg.replan m s.hlt.guard s.hlt.vsguard s.freeN s.time with sweptWord := BitVec.ofNat 64 (s.spi.bootNum.toNat * 2 ^ 32 + s.bootSec % 2 ^ 32) } ∧
      (u.site p).mrg.sweeps = (s.site p).mrg.sweeps + 1 ∧ (u.site p).mrg.lastSweep = some s.time ∧ (u.site p).clk.bankSweep = false ∧ (u.site p).st = .banked ∧
      (∀ q, q ≠ p → u.site q = s.site q) ∧ u.hlt.swept = (if (s.logical p).isSome then s.hlt.swept + 1 else s.hlt.swept)) ∧
  (∀ (p : Nat) (m : SweepMeas) (s : State), p < 272 → m.begins = false → s.mayMeasure p = true → (s.site p).clk.bankSweep = true → (s.site p).mrg.sweepAt + 40 * ms < s.time →
    GoesTo (exec (.marginSweep p m) s) fun u => (u.site p).mrg = (s.site p).mrg ∧ (u.site p).clk.bankSweep = false ∧ (∀ q, q ≠ p → u.site q = s.site q) ∧ u.hlt.swept = s.hlt.swept) ∧
  (∀ (p : Nat) (s : State), p < 272 → s.svRuns = true → (∀ t, (s.site p).mrg.overdueAt = some t → t + 24 * hour ≤ s.time) → (s.site p).mrg.lastSweep.getD s.spi.t0 + 24 * hour ≤ s.time →
    GoesTo (exec (.marginOverdue p) s) fun u => (u.site p).mrg = { (s.site p).mrg with overdueAt := some s.time } ∧ (∀ q, q ≠ p → u.site q = s.site q) ∧ u.tiles = s.tiles) ∧
  (∀ (p b : Nat) (s : State), p < 272 → 10 ≤ b → GoesTo (exec (.loadClassUpdate p b true) s) fun u =>
    (u.site p).mrg.cls = 2 ∧ (u.site p).mrg.surgeAt = some s.time ∧ (∀ q, q ≠ p → u.site q = s.site q) ∧ Only [.sites, .clk] s u) ∧
  (∀ (p b t : Nat) (s : State), p < 272 → (s.site p).mrg.surgeAt = some t → s.time < t + 10 * ms → GoesTo (exec (.loadClassUpdate p b false) s) fun u =>
    (u.site p).mrg.cls = 2 ∧ (∀ q, q ≠ p → u.site q = s.site q) ∧ Only [.sites, .clk] s u) ∧
  (∀ (p b : Nat) (s : State), p < 272 → (∀ t, (s.site p).mrg.surgeAt = some t → t + sec ≤ s.time) → GoesTo (exec (.loadClassUpdate p b false) s) fun u =>
    (u.site p).mrg.cls = (if 10 ≤ b then 1 else 0) ∧ (∀ q, q ≠ p → u.site q = s.site q) ∧ Only [.sites, .clk] s u) ∧
  (∀ (p k : Nat) (s : State), p < 272 → k < 30 → (s.site p).mrg.cellCeilOf k < (s.site p).mrg.siteCeil → (s.site p).mrg.cellCeilOf k < 15 → tget 0 (s.site p).mrg.cellAt k + week ≤ s.time → s.svRuns = true →
    GoesTo (exec (.cellCeilingRise p k) s) fun u => (u.site p).mrg.cellCeilOf k = (s.site p).mrg.cellCeilOf k + 1 ∧ (∀ j, j ≠ k → (u.site p).mrg.cellCeilOf j = (s.site p).mrg.cellCeilOf j) ∧
      (∀ q, q ≠ p → u.site q = s.site q) ∧ u.tiles = s.tiles)

/-! ### Where commands complete: sessions and fuses -/

/-- Through a port that reaches a running service die: CHALLENGE binds 32 fresh bytes, which are free (log entry 3), to the port with its slot, minutes and PROV, and refuses minutes out of range with ECODE 11; OPEN that passes takes the first free entry and ends the challenge, and one that does not ends it with its ECODE; CLOSE frees an
entry of the port, and refuses another with ECODE 3; ATTEST and PUBKEY fill the port's buffer; a fuse is armed with a session while both dies run, and COMMIT_FUSE within 10 s writes it (R498 to R507). Challenges expire after 60 s, sessions at their deadline, lockouts at theirs and arms after 10 s (R501, R502, R504, R506). Completes:
CHALLENGE, CHALLENGE_EXPIRY, OPEN, LOCKOUT_EXPIRY, CLOSE, SESSION_DEADLINE, ATTEST, PUBKEY, ARM_OWNER, ARM_SVN, COMMIT_FUSE, FUSE_ARM_EXPIRY. -/
def Obligations.SessionsComplete : Prop :=
  let done (u : State) (p cmd e : Nat) : Prop := (u.port p).lastcmd = cmd ∧ (u.port p).secode = e ∧ (u.port p).serr = (e != 0)
  (∀ (p : Nat) (s : State), SesReach s p → 1 ≤ (s.port p).sesMinutes → (s.port p).sesMinutes ≤ 1440 → GoesTo (exec (.challenge p) s) fun u => done u p 1 0 ∧
    (u.port p).chal = some ((rangeFrom s.freeN 32).map Config.freeByte, (s.port p).sesSlot, (s.port p).sesMinutes, (s.port p).sesProv, s.time) ∧
    (∀ q, q ≠ p → u.port q = s.port q) ∧ u.freeN = s.freeN + 32 ∧ Only [.freeN, .host] s u) ∧
  (∀ (p : Nat) (s : State), SesReach s p → ((s.port p).sesMinutes = 0 ∨ 1440 < (s.port p).sesMinutes) → GoesTo (exec (.challenge p) s) fun u => done u p 1 11 ∧ (u.port p).chal = (s.port p).chal ∧ Only [.host] s u) ∧
  (∀ (p t : Nat) (c : List Byte) (k m : Nat) (b : Bool) (s : State), p < 4 → (s.port p).chal = some (c, k, m, b, t) → t + 60 * sec ≤ s.time →
    exec (.challengeExpiry p) s = .next (s.modPort p fun x => { x with chal := none })) ∧
  (∀ (p i m slot : Nat) (c : List Byte) (prov : Bool) (s : State), SesReach s p → s.openCode p (s.port p) = 0 → s.challengeOf (s.port p) = some (c, slot, m, prov) → s.freeEntry = some i →
    GoesTo (exec (.sesOpen p) s) fun u => done u p 2 0 ∧ (u.port p).chal = none ∧ tget none u.ses.ents i = some { port := p, slot, prov, minutes := m, opened := s.time } ∧
      (∀ e, e ≠ i → tget none u.ses.ents e = tget none s.ses.ents e)) ∧
  (∀ (p : Nat) (s : State), SesReach s p → s.openCode p (s.port p) ≠ 0 → GoesTo (exec (.sesOpen p) s) fun u => done u p 2 (s.openCode p (s.port p)) ∧ (u.port p).chal = none ∧ u.ses.ents = s.ses.ents) ∧
  (∀ (p t : Nat) (s : State), p < 4 → (s.port p).locked = some t → t ≤ s.time → exec (.lockoutExpiry p) s = .next (s.modPort p fun x => { x with locked := none })) ∧
  (∀ (p : Nat) (x : Session) (s : State), SesReach s p → tget none s.ses.ents (s.port p).sesIndex = some x → x.port = p → GoesTo (exec (.sesClose p) s) fun u => done u p 3 0 ∧
    tget none u.ses.ents (s.port p).sesIndex = none ∧ ∀ e, e ≠ (s.port p).sesIndex → tget none u.ses.ents e = tget none s.ses.ents e) ∧
  (∀ (p : Nat) (s : State), SesReach s p → (∀ x, tget none s.ses.ents (s.port p).sesIndex = some x → x.port ≠ p) → GoesTo (exec (.sesClose p) s) fun u => done u p 3 3 ∧ u.ses = s.ses) ∧
  (∀ (e : Nat) (x : Session) (s : State), e < 4 → tget none s.ses.ents e = some x → x.opened + x.minutes * 60 * sec ≤ s.time → s.svRuns = true → exec (.sessionDeadline e) s = .next (s.endSession e 2)) ∧
  (∀ (p : Nat) (s : State), SesReach s p → GoesTo (exec (.attest p) s) fun u => done u p 4 0 ∧ (∀ q, q ≠ p → u.port q = s.port q) ∧ Only [.host] s u ∧
    let body := s.report (memGetList (s.port p).buf 0 32)
    (u.port p).buf = memPutList [] 0 (body ++ idSign body)) ∧
  (∀ (p : Nat) (s : State), SesReach s p → GoesTo (exec (.pubkey p) s) fun u => done u p 5 0 ∧ (∀ q, q ≠ p → u.port q = s.port q) ∧ Only [.host] s u ∧
    (u.port p).buf = memPutList (s.port p).buf 0 idKey) ∧
  (∀ (p : Nat) (s : State), SesReach s p → s.hasSession p = true → s.ses.owner = none → s.bothRun = true → GoesTo (exec (.armOwner p) s) fun u => done u p 6 0 ∧
    (u.port p).arm = some (1, memGetList (s.port p).buf 0 32, s.time) ∧ (∀ q, q ≠ p → u.port q = s.port q) ∧ Only [.host] s u) ∧
  (∀ (p : Nat) (s : State), SesReach s p → s.hasSession p = true → s.ses.svnMin < s.runSvn → s.runSvn ≤ 1023 → s.bothRun = true → GoesTo (exec (.armSvn p) s) fun u => done u p 7 0 ∧
    (u.port p).arm = some (2, [], s.time) ∧ (∀ q, q ≠ p → u.port q = s.port q) ∧ Only [.host] s u) ∧
  (∀ (p t : Nat) (h : List Byte) (s : State), SesReach s p → s.hasSession p = true → (s.port p).arm = some (1, h, t) → s.time ≤ t + 10 * sec → s.ses.owner = none → GoesTo (exec (.commitFuse p) s) fun u =>
    done u p 8 0 ∧ (u.port p).arm = none ∧ u.ses = { s.ses with owner := some h }) ∧
  (∀ (p t : Nat) (h : List Byte) (s : State), SesReach s p → s.hasSession p = true → (s.port p).arm = some (2, h, t) → s.time ≤ t + 10 * sec → GoesTo (exec (.commitFuse p) s) fun u =>
    done u p 8 0 ∧ (u.port p).arm = none ∧ u.ses = { s.ses with svnMin := max s.ses.svnMin s.runSvn }) ∧
  (∀ (p t k : Nat) (h : List Byte) (s : State), p < 4 → (s.port p).arm = some (k, h, t) → t + 10 * sec ≤ s.time → exec (.fuseArmExpiry p) s = .next (s.modPort p fun x => { x with arm := none }))

/-! ### Where commands complete: meter, debug block, registers -/

/-- A record of the powered meter, a second or more after the last, takes the next SEQ and a second of its clock, adds its energy, breaks the seal on a tamper, and stands first in the newest 4,096 with its flags (R510). A tamper sensor breaks the seal (R511). On a live link a key is checked; after a wrong key records are passed over; a record that verifies enters the newest 256 where it belongs, and one that does not is
counted (R512, R513). A link silent for 2 s is lost (R512). MTR_SELLO shows, awaits or denies a record in its port's window; the ring's head and configuration are written (R513, R514). Completes: METER_RECORD, MTR_SEAL, METER_FRAME, MTR_LINK_LOST, MTR_SELECT, MTR_RHEAD, MTR_RCFG. -/
def Obligations.MeterCompletes : Prop :=
  (∀ (m : MeterMeas) (s : State), s.meterOn = true → s.secondOver = true → GoesTo (exec (.meterRecord m) s) fun u => u.mtr.seq = s.mtr.seq + 1 ∧ u.mtr.timeMs = s.mtr.timeMs + 1000 ∧ u.mtr.energy = s.mtr.energy + m.energy ∧
    u.mtr.sealBit = (s.mtr.sealBit || m.tamper) ∧ u.mtr.gap = false ∧ Only [.mtr] s u ∧
    ∃ r, u.mtr.store = (r :: s.mtr.store).take 4096 ∧ r.seq = BitVec.ofNat 64 s.mtr.seq ∧ r.energy = BitVec.ofNat 64 (s.mtr.energy + m.energy) ∧ bitOf r.flags 0 = (s.mtr.sealBit || m.tamper) ∧
      bitOf r.flags 1 = m.tamper ∧ bitOf r.flags 2 = s.mtr.gap ∧ bitOf r.flags 3 = m.range ∧ bitOf r.flags 4 = m.refFail ∧ r.pmin = BitVec.ofNat 32 m.pmin ∧ r.pmax = BitVec.ofNat 32 m.pmax) ∧
  (∀ (r : MeterRec) (s : State), s.svRuns = true → s.mtr.lost = false → s.mtr.keyOk = false → GoesTo (exec (.meterFrame (.record r)) s) fun u => u.mtr = { s.mtr with lastFrame := some s.time }) ∧
  (∀ (s : State), s.meterOn = true → exec .mtrSeal s = .next (s.modMtr fun x => { x with sealBit := true })) ∧
  (∀ (b : List Byte) (s : State), s.svRuns = true → s.mtr.lost = false → exec (.meterFrame (.key b)) s =
    .next (s.modMtr fun x => { x with lastFrame := some s.time, lost := false, keyOk := shake256 (fit 1952 b) == shake256 meterPub })) ∧
  (∀ (r : MeterRec) (s : State), s.svRuns = true → s.mtr.lost = false → s.mtr.keyOk = true → verifies meterPub (MeterRec_body r) (fit 3309 r.sig) = true →
    GoesTo (exec (.meterFrame (.record r)) s) fun u => u.mtr.badsig = s.mtr.badsig ∧ u.mtr.recs = (if s.mtr.takes r then (insertRec r s.time s.mtr.recs).take 256 else s.mtr.recs)) ∧
  (∀ (r : MeterRec) (s : State), s.svRuns = true → s.mtr.lost = false → s.mtr.keyOk = true → verifies meterPub (MeterRec_body r) (fit 3309 r.sig) = false →
    GoesTo (exec (.meterFrame (.record r)) s) fun u => u.mtr = { s.mtr with lastFrame := some s.time, badsig := s.mtr.badsig + 1 }) ∧
  (∀ (t : Nat) (s : State), s.svRuns = true → s.mtr.lost = false → s.mtr.lastFrame = some t → t + 2 * sec ≤ s.time → GoesTo (exec .mtrLinkLost s) fun u => u.mtr = { s.mtr with lost := true }) ∧
  (∀ (p : Nat) (v : W32) (s : State), SesReach s p →
    let q : W64 := (s.port p).mselHi.setWidth 64 <<< 32 ||| v.setWidth 64
    GoesTo (exec (.mtrSelect p v) s) fun u => (∀ n, n ≠ p → u.port n = s.port n) ∧ Only [.host] s u ∧
      (∀ e, s.mtr.find q = some e → (u.port p).mwst = 2 ∧ (u.port p).mwrec = some e) ∧ (s.mtr.find q = none → q.toNat < s.mtr.oldest → (u.port p).mwst = 3) ∧
      (s.mtr.find q = none → s.mtr.oldest ≤ q.toNat → (u.port p).mwst = 1)) ∧
  (∀ (p : Nat) (v : W32) (s : State), SesReach s p → exec (.mtrRhead p v) s = .next (s.modMtr fun x => { x with rhead := v })) ∧
  (∀ (v : W32) (s : State), Served s → GoesTo (exec (.mtrRcfg 0 v) s) fun u => u.mtr.ren = bitOf v 31 ∧ u.mtr.rport = bitsOf v 27 26 ∧ u.mtr.rlog2 = bitsOf v 3 0 ∧
    (bitOf v 31 = true → s.mtr.ren = false → u.mtr.rtail = 0 ∧ u.mtr.rhead = 0 ∧ u.mtr.rlost = 0) ∧ (s.mtr.ren = true → u.mtr.rtail = s.mtr.rtail ∧ u.mtr.rhead = s.mtr.rhead) ∧ Only [.mtr] s u)

/-- DBG_ACC READ and WRITE, unlocked and idle, on a context in use: READ issues one READ of 8 bytes on its behalf; an aligned WRITE sends one packet of 8 bytes that carries DBG_DATA; before an unaligned access the context's partition is free, which is the model's reading of a driver error (R331, R532; log entry 53). DBG_LOCK locks; DBG_TEVT
raises its event (R533, R534). A 32-bit write to ID_SCRATCH is kept; a 64-bit write to BAR0 acts as two, lower offset first; a narrower one changes nothing; a narrow write to BAR2 is dropped and counted (R516, R522, R536). Through the configuration space, whose offsets are the model's own (log entry 93), a port enters D3hot and its completion
timeout value is kept, where it answers configuration requests (R285, R288, R439). Completes: DBG_READ, DBG_WRITE, DBG_LOCK, DBG_TEST, REGISTER_WRITE. -/
def Obligations.RegistersComplete : Prop :=
  let may (s : State) : Prop := Managed s 0 ∧ s.dbg.locked = false ∧ s.dbg.busy = false ∧ (s.ctx s.dbg.ctx).st ≠ .free ∧ (s.ctx s.dbg.ctx).st ≠ .resetting
  let s1 (s : State) : State :=
    let s' := s.modDbg fun d => { d with err := false, ecode := 0 }
    if s.dbg.addr.toNat % 8 = 0 then s' else s'.wildPart (s.ctx s.dbg.ctx).cfg.part
  (∀ (s : State), may s → exec (.dbgRead 0) s = .next (((s1 s).modDbg fun d => { d with busy := true }).edgeRead 0 (s1 s).dbg.ctx (s1 s).dbg.addr 8 .dbg)) ∧
  (∀ (s : State), may s → GoesTo (exec (.dbgWrite 0) s) fun u => u.dbg.err = false ∧ u.dbg.ecode = 0) ∧
  (∀ (s : State), may s → s.dbg.addr.toNat % 8 = 0 → GoesTo (exec (.dbgWrite 0) s) fun u => u.dbg.err = false ∧ u.dbg.ecode = 0 ∧ u.dbg.busy = decide (2 ≤ aSpace s.dbg.addr) ∧ u.tiles = s.tiles ∧
    (∀ g, (s.route none (s.ctx s.dbg.ctx).cfg.part s.dbg.ctx s.dbg.addr) = .go g → ∃ f, u.fab.flights = s.fab.flights ++ [f] ∧ f.goal = g ∧ f.pkt.opc = .write ∧ f.pkt.len = 8 ∧ f.pkt.dest = s.dbg.addr ∧
      f.pkt.ctx = s.dbg.ctx ∧ f.pkt.payload = leBytes 8 s.dbg.data.toNat)) ∧
  (∀ (v : W32) (s : State), Managed s 0 → GoesTo (exec (.dbgLock 0 v) s) fun u => u.dbg = { s.dbg with locked := s.dbg.locked || bitOf v 0 } ∧ Only [.dbg] s u) ∧
  (∀ (v : W32) (s : State), Managed s 0 → s.dbg.locked = false → exec (.dbgTest 0 v) s = .next (s.raisePort 0x0016 0 v.toNat 0)) ∧
  (∀ (p : Nat) (v : W64) (s : State), p < 4 → s.cfgAnswer p = .normal → bitsOf v 1 0 = 3 → GoesTo (exec (.registerWrite p 6 0x44 4 v) s) fun u =>
    (u.port p).d3hot = true ∧ (∀ q, q ≠ p → u.port q = s.port q) ∧ Only [.host] s u) ∧
  (∀ (p : Nat) (v : W64) (s : State), p < 4 → s.cfgAnswer p = .normal → GoesTo (exec (.registerWrite p 6 0x28 4 v) s) fun u =>
    (u.port p).cto = bitsOf v 3 0 ∧ (u.port p).ctoOff = bitOf v 4 ∧ (∀ q, q ≠ p → u.port q = s.port q) ∧ Only [.host] s u) ∧
  (∀ (p : Nat) (v : W64) (s : State), s.reach p = true → (p = 0 ∨ s.svRuns = true) →
    exec (.registerWrite p 0 0x2C 4 v) s = .next (s.modPort p fun x => { x with scratch := BitVec.ofNat 32 (bitsOf v 31 0) })) ∧
  (∀ (p off : Nat) (v : W64) (s : State), p < 4 → off < 0x100000 → off % 8 = 0 → exec (.registerWrite p 0 off 8 v) s =
    andThen (exec (.registerWrite p 0 off 4 v) s) fun u => exec (.registerWrite p 0 (off + 4) 4 (BitVec.ofNat 64 (bitsOf v 63 32))) u) ∧
  (∀ (p off w : Nat) (v : W64) (s : State), (w = 1 ∨ w = 2) → off % 8 + w ≤ 8 → exec (.registerWrite p 0 off w v) s = .next s) ∧
  (∀ (p off w : Nat) (v : W64) (s : State), s.reach p = true → off < 0x1000000 → (w = 1 ∨ w = 2) → exec (.registerWrite p 2 off w v) s = .next (s.doorbellDrop p (off / 0x1000)))

/-! ### Rules of the manual -/

/-- R31: a FENCED tile answers as a HOLE does; a READ is answered with RERR HOLE; a WRITE or CNT is dropped and counted at its site; the first drop after HLT_SCLR has cleared the count raises HOLE_DROP, and no other does. -/
def Obligations.HolesAnswer : Prop :=
  let atHole (s : State) (i : Nat) (f : Flight) (t : Nat) : Prop := s.flight i = some f ∧ f.goal = .tile t ∧ f.arrived (s.tilePhys t) = true ∧ s.parksTile t = false ∧
    (s.tileSt t).part = some f.pkt.spart ∧ (toldAt s f t).staleCtx (s.tilePhys t) f.pkt.ctx f.pkt.epoch = false ∧ ((s.tileSt t).st = .active ∨ (s.tileSt t).st = .held) ∧ (s.tile t).resetting = false ∧
    (s.tileSt t).resetting = false ∧ ((s.tile t).st = .fenced ∨ (s.tile t).st = .hole)
  (∀ (i t : Nat) (f : Flight) (j : Bool) (s : State), atHole s i f t → f.pkt.opc = .read → exec (.read i j) s = .next (((toldAt s f t).dropFlight i).respond f (s.tilePlace t) .rerr stHole [])) ∧
  (∀ (i t : Nat) (f : Flight) (s : State), atHole s i f t → f.pkt.opc = .write → writeKind (s.tile t).guarded f.pkt = 0 → exec (.write i) s = .next (((toldAt s f t).dropFlight i).dropAt (s.tilePhys t))) ∧
  (∀ (i t : Nat) (f : Flight) (s : State), atHole s i f t → f.pkt.opc = .write → writeKind (s.tile t).guarded f.pkt = 1 → exec (.listAppend i) s = .next (((toldAt s f t).dropFlight i).dropAt (s.tilePhys t))) ∧
  (∀ (i t : Nat) (f : Flight) (s : State), atHole s i f t → f.pkt.opc = .write → writeKind (s.tile t).guarded f.pkt = 2 → exec (.listClose i) s = .next (((toldAt s f t).dropFlight i).dropAt (s.tilePhys t))) ∧
  (∀ (i t : Nat) (f : Flight) (s : State), atHole s i f t → f.pkt.opc = .write → writeKind (s.tile t).guarded f.pkt = 3 → exec (.listArm i) s = .next (((toldAt s f t).dropFlight i).dropAt (s.tilePhys t))) ∧
  (∀ (i t : Nat) (f : Flight) (s : State), atHole s i f t → f.pkt.opc = .cnt → exec (.cnt i) s = .next (((toldAt s f t).dropFlight i).dropAt (s.tilePhys t))) ∧
  (∀ (p : Nat) (s : State), ((s.dropAt p).site p).cnt.sdrop = satAdd (s.site p).cnt.sdrop 1 ∧ ((s.dropAt p).site p).cnt.sdropSeen = true ∧ (∀ q, q ≠ p → (s.dropAt p).site q = s.site q) ∧
    (s.dropAt p).tiles = s.tiles ∧ (s.dropAt p).fab = s.fab) ∧
  (∀ (p : Nat) (s : State), (s.site p).cnt.sdropSeen = true → (s.dropAt p).host = s.host ∧ (s.dropAt p).spi = s.spi) ∧
  (∀ (p : Nat) (s : State), (s.site p).cnt.sdropSeen = false →
    s.dropAt p = (s.modCnt p fun c => { c with sdrop := satAdd c.sdrop 1, sdropSeen := true }).raiseSite 0x0104 p 0 0) ∧
  ∀ (v : W32) (s : State), s.reach 0 = true → bitOf v 1 = true →
    let p := bitsOf (s.port 0).ssel 8 4 * 16 + bitsOf (s.port 0).ssel 3 0
    p < 272 → (s.site p).st ≠ .dark → GoesTo (exec (.hltSclr 0 v) s) fun u => (u.site p).cnt.sdrop = 0 ∧ (u.site p).cnt.sdropSeen = false

/-- R291: a doorbell write needs no session; one for a FREE context or through another port than the context's own is dropped and counted, and only the first since HLT_DBCLR raises DOORBELL_DROP; any other is taken, and no
doorbell count changes; the page reads alike through every port. -/
def Obligations.DoorbellRule : Prop :=
  let drops (s : State) (p c : Nat) : Prop := (s.ctx c).st = .free ∨ (s.ctx c).cfg.port ≠ p
  let bells (p c : Nat) (v : W32) : List Instr := [.sqTail p c v, .cqHead p c v, .restart p c true]
  (∀ (p c : Nat) (v : W32) (s : State), s.reach p = true → c < 3072 → drops s p c → ∀ i ∈ bells p c v, exec i s = .next (s.doorbellDrop p c)) ∧
  (∀ (p c : Nat) (v : W32) (s u : State), s.reach p = true → c < 3072 → ¬ drops s p c → ∀ i ∈ bells p c v, exec i s = .next u → ∀ q, (u.port q).dbdrop = (s.port q).dbdrop ∧ u.ses = s.ses) ∧
  (∀ (p c : Nat) (v : W32) (s : State) (ents : Tbl (Option Session)), ∀ i ∈ bells p c v,
    exec i { s with ses := { s.ses with ents := ents } } = match exec i s with
      | .next u => .next { u with ses := { u.ses with ents := ents } }
      | .fault f => .fault f
      | .refused r => .refused r) ∧
  (∀ (p c : Nat) (s : State), ((s.doorbellDrop p c).port p).dbdrop = satAdd (s.port p).dbdrop 1 ∧ ((s.doorbellDrop p c).port p).dbSeen = true ∧ ∀ x, (s.doorbellDrop p c).ctx x = s.ctx x) ∧
  (∀ (p c : Nat) (s : State), (s.port p).dbSeen = true → s.doorbellDrop p c = s.modPort p fun x => { x with dbdrop := satAdd x.dbdrop 1, dbSeen := true }) ∧
  (∀ (p c : Nat) (s : State), (s.port p).dbSeen = false →
    s.doorbellDrop p c = (s.modPort p fun x => { x with dbdrop := satAdd x.dbdrop 1, dbSeen := true }).raisePort 0x0012 p c p) ∧
  (∀ (p : Nat) (v : W32) (s : State), s.reach 0 = true → p < 4 → bitOf v p = true → GoesTo (exec (.hltDbclr 0 v) s) fun u => (u.port p).dbdrop = 0 ∧ (u.port p).dbSeen = false) ∧
  (∀ (p q c : Nat) (s : State), c < 3072 → s.bar2 p (0x1000 * c) = s.bar2 q (0x1000 * c) ∧ s.bar2 p (0x1000 * c + 8) = s.bar2 q (0x1000 * c + 8))

/-- R533: writing 1 to LOCK sets LOCKED; while it is set, a write to the DBG_ block changes nothing but a command, which is refused with ECODE 1, and DATALO and DATAHI read 0; only a start of bring-up or a loss of power ends it. -/
def Obligations.DebugLock : Prop :=
  (∀ (v : W32) (s : State), Managed s 0 → bitOf v 0 = true → GoesTo (exec (.dbgLock 0 v) s) fun u => u.dbg = { s.dbg with locked := true }) ∧
  (∀ (off : Nat) (v : W64) (s : State), s.dbg.locked = true → Managed s 0 → 0xF0000 ≤ off → off < 0x100000 → off % 4 = 0 →
    exec (.registerWrite 0 0 off 4 v) s =
      if off = 0xF0018 ∧ (bitsOf v 1 0 = 1 ∨ bitsOf v 1 0 = 2) then .next (s.modDbg fun d => { d with err := true, ecode := 1 }) else .next s) ∧
  (∀ (v : W32) (s : State), s.dbg.locked = true → Managed s 0 → exec (.dbgRead 0) s = .next (s.modDbg fun d => { d with err := true, ecode := 1 }) ∧
    exec (.dbgWrite 0) s = .next (s.modDbg fun d => { d with err := true, ecode := 1 }) ∧ exec (.dbgTest 0 v) s = .next s ∧ exec (.dbgLock 0 v) s = .next s) ∧
  (∀ (p : Nat) (s : State), s.dbg.locked = true → s.bar0 p 0xF0010 = 0 ∧ s.bar0 p 0xF0014 = 0) ∧
  ∀ (c : Instr) (s u : State), s.dbg.locked = true → exec c s = .next u → u.dbg.locked = true ∨ (∃ env, c = .coldPowerOn env) ∨ (∃ p env, c = .panelReset p env) ∨ (∃ r, c = .updateDone r) ∨
    (∃ mv, c = .inputLoss mv) ∨ (∃ mv, c = .inputOvervoltage mv) ∨ ∃ w v, c = .registerWrite 0 0 0x28054 w v ∨ c = .registerWrite 0 0 0x28050 w v

/-- R534: a write to DBG_TEVT raises one event with code 0x0016, SRCKIND 4, SOURCE 0, DATA0 the value written and DATA1 0, which passes through the event ring as any event does. -/
def Obligations.TestEvent : Prop :=
  ∀ (v : W32) (s : State), Managed s 0 → s.dbg.locked = false →
    let e : Ev := { code := 0x0016, kind := 4, source := 0, d0 := v.toNat, d1 := 0 }
    exec (.dbgTest 0 v) s = .next (s.raise e) ∧ (s.svRuns = true → exec (.dbgTest 0 v) s = .next (s.evtPut e.word0 s.time v.toNat 0)) ∧ e.word0 = 0x0016 * 2 ^ 48 + 4 * 2 ^ 20

/-- A gated write through port 0 without a session bound to it writes nothing: it is counted in SES_DENIED, and HLT_CMD reports "no session" in ERR and ECODE; the first such write in a second raises SES_DENIED, and no later one
does; no doorbell count changes (R503, R529). -/
def Obligations.GatedWritesNeedSession : Prop :=
  (∀ (s : State) (v : W32) (k : Nat), s.reach 0 = true → s.hasSession 0 = false → k < 8 →
    ∀ c ∈ ([.pwrCap 0 v, .paceLock 0 k v, .clearProfiles 0 k, .clkCeil 0 k v, .bank 0 v, .unbank 0 v, .clearPath 0, .isolate 0, .restore 0, .telCfg 0 v, .evtCfg 0 v, .define 0 k, .delete 0 k,
      .warmReset 0 k, .prtUpdate 0 k, .ddrRegionCommit 0 k, .prtBevWrite 0 k v, .casPcfg 0 k v, .publish 0, .rrestart 0 v, .mtrRcfg 0 v, .sweepGrant 0 v, .dbgRead 0, .dbgWrite 0, .dbgLock 0 v,
      .dbgTest 0 v, .ctxSel 0 v, .configure 0, .release 0, .halt 0] : List Instr), ∃ o, exec c s = .next (s.denied 0 o)) ∧
  (∀ (s : State) (v : W32), s.reach 0 = true → s.hasSession 0 = false →
    ∀ c ∈ ([.remap 0 v, .retire 0 v, .keep 0 v, .hole 0 v, .clear 0 v, .treset 0 v, .sreset 0 v, .republish 0] : List Instr),
      exec c s = .next ((s.denied 0 0x30010).modHlt fun h => { h with err := true, ecode := 1 })) ∧
  (∀ (p o : Nat) (s : State), (s.denied p o).ses = { s.ses with denied := s.ses.denied + 1, deniedSec := some s.second } ∧ (∀ q, ((s.denied p o).port q).dbdrop = (s.port q).dbdrop) ∧
    Only [.host, .spi, .ses] s (s.denied p o)) ∧
  (∀ (p o : Nat) (s : State), s.ses.deniedSec = some s.second → (s.denied p o).host = s.host ∧ (s.denied p o).spi = s.spi) ∧
  ∀ (p o : Nat) (s : State), s.ses.deniedSec ≠ some s.second →
    s.denied p o = (s.modSes fun x => { x with denied := x.denied + 1, deniedSec := some s.second }).raisePanel 0x0604 p o
end

