-- ==== Sys2Proof/Laws/Frames.lean ====
section
/-! SUPPORT. Frames: which parts of the state each shared operation and each meaning can change at all. A lemma takes the parts it needs blanked as hypotheses, so that
one library answers for every list of parts. -/

namespace Sys2Proof.Machine

open Sys2Proof.Safety (Blk outsideOf Only)

/-- The parts that a proof blanks out. -/
class Blanks where
  bs : List Blk
/-- A part is among them. -/
abbrev Blanked [Blanks] (b : Blk) : Prop := Fact (b ∈ Blanks.bs)
variable [Blanks]
/-- The state with those parts blanked out. -/
def State.outside (s : State) : State := outsideOf Blanks.bs s
/-- If an outcome is a next state, that state outside the parts is `f`. -/
structure Stays (f : State) (o : Out) : Prop where
  holds : ∀ t, o = .next t → t.outside = f
/-- The lemmas of this file answer questions about `Only`. -/
theorem Stays.only {s : State} {o : Out} (h : Stays s.outside o) : ∀ t, o = .next t → Only Blanks.bs s t := h.holds

variable {f : State}

@[simp] theorem outside_ite (c : Prop) [Decidable c] (a b : State) : (if c then a else b).outside = if c then a.outside else b.outside := by split <;> rfl
@[simp] theorem outside_foldl {α : Type} (g : State → α → State) (h : ∀ s a, (g s a).outside = s.outside) (l : List α) (s : State) :
    (l.foldl g s).outside = s.outside := by
  induction l generalizing s with
  | nil => rfl
  | cons a l ih => simp [ih, h]
@[simp] theorem Stays_ok (s : State) : Stays f (ok s) ↔ s.outside = f := ⟨fun h => h.holds s rfl, fun h => ⟨fun t e => by cases e; exact h⟩⟩
@[simp] theorem Stays_next (s : State) : Stays f (.next s) ↔ s.outside = f := Stays_ok s
@[simp] theorem Stays_fault (r : Fault) : Stays f (.fault r) := ⟨fun t e => by cases e⟩
@[simp] theorem Stays_refused (r : Refusal) : Stays f (.refused r) := ⟨fun t e => by cases e⟩
@[simp] theorem Stays_ite (c : Prop) [Decidable c] (a b : Out) : Stays f (if c then a else b) ↔ if c then Stays f a else Stays f b := by split <;> rfl
@[simp] theorem Stays_when (b : Bool) (s : State) (k : Out) : Stays f (when_ b s k) ↔ if b then Stays f k else s.outside = f := by
  unfold when_; split <;> simp
theorem Stays_foldOut {α : Type} (g : State → α → Out) (h : ∀ s a, Stays s.outside (g s a)) : ∀ (l : List α) (s : State), Stays s.outside (foldOut g s l)
  | [], s => by simp [foldOut]
  | a :: l, s => by
    unfold foldOut
    have ha := h s a
    generalize g s a = o at ha
    cases o with
    | next t => have := Stays_foldOut g h l t; simp at ha; rw [← ha]; exact this
    | fault r => simp
    | refused r => simp
theorem Stays_andThen (o : Out) (k : State → Out) (ho : Stays f o) (hk : ∀ t, t.outside = f → Stays f (k t)) : Stays f (andThen o k) := by
  unfold andThen
  cases o with
  | next t => exact hk t (by simpa using ho)
  | fault r => simp
  | refused r => simp

@[simp] theorem State.setTile_outside [hb_ : Blanked .tiles] (s : State) (n : Nat) (x : Tile) : (s.setTile n x).outside = s.outside := by
  simp only [State.outside, outsideOf, State.setTile, hb_.out, if_true]
@[simp] theorem State.modTile_outside [hb_ : Blanked .tiles] (s : State) (n : Nat) (f : Tile → Tile) : (s.modTile n f).outside = s.outside := by
  simp only [State.outside, outsideOf, State.modTile, State.setTile, hb_.out, if_true]
@[simp] theorem State.setSite_outside [hb_ : Blanked .sites] (s : State) (p : Nat) (x : Site) : (s.setSite p x).outside = s.outside := by
  simp only [State.outside, outsideOf, State.setSite, hb_.out, if_true]
@[simp] theorem State.modSite_outside [hb_ : Blanked .sites] (s : State) (p : Nat) (f : Site → Site) : (s.modSite p f).outside = s.outside := by
  simp only [State.outside, outsideOf, State.modSite, State.setSite, hb_.out, if_true]
@[simp] theorem State.setChan_outside [hb_ : Blanked .chans] (s : State) (c : Nat) (x : Chan) : (s.setChan c x).outside = s.outside := by
  simp only [State.outside, outsideOf, State.setChan, hb_.out, if_true]
@[simp] theorem State.modChan_outside [hb_ : Blanked .chans] (s : State) (c : Nat) (f : Chan → Chan) : (s.modChan c f).outside = s.outside := by
  simp only [State.outside, outsideOf, State.modChan, State.setChan, hb_.out, if_true]
@[simp] theorem State.setHost_outside [hb_ : Blanked .host] (s : State) (h : HostIf) : (s.setHost h).outside = s.outside := by
  simp only [State.outside, outsideOf, State.setHost, hb_.out, if_true]
@[simp] theorem State.modHost_outside [hb_ : Blanked .host] (s : State) (f : HostIf → HostIf) : (s.modHost f).outside = s.outside := by
  simp only [State.outside, outsideOf, State.modHost, State.setHost, hb_.out, if_true]
@[simp] theorem State.setPort_outside [hb_ : Blanked .host] (s : State) (p : Nat) (x : Port) : (s.setPort p x).outside = s.outside := by
  simp only [State.outside, outsideOf, State.setPort, State.modHost, State.setHost, hb_.out, if_true]
@[simp] theorem State.modPort_outside [hb_ : Blanked .host] (s : State) (p : Nat) (f : Port → Port) : (s.modPort p f).outside = s.outside := by
  simp only [State.outside, outsideOf, State.modPort, State.setPort, State.modHost, State.setHost, hb_.out, if_true]
@[simp] theorem State.setCtx_outside [hb_ : Blanked .host] (s : State) (c : Nat) (x : Ctx) : (s.setCtx c x).outside = s.outside := by
  simp only [State.outside, outsideOf, State.setCtx, State.modHost, State.setHost, hb_.out, if_true]
@[simp] theorem State.modCtx_outside [hb_ : Blanked .host] (s : State) (c : Nat) (f : Ctx → Ctx) : (s.modCtx c f).outside = s.outside := by
  simp only [State.outside, outsideOf, State.modCtx, State.setCtx, State.modHost, State.setHost, hb_.out, if_true]
@[simp] theorem State.setPart_outside [hb_ : Blanked .parts] (s : State) (p : Nat) (x : Part) : (s.setPart p x).outside = s.outside := by
  simp only [State.outside, outsideOf, State.setPart, hb_.out, if_true]
@[simp] theorem State.modPart_outside [hb_ : Blanked .parts] (s : State) (p : Nat) (f : Part → Part) : (s.modPart p f).outside = s.outside := by
  simp only [State.outside, outsideOf, State.modPart, State.setPart, hb_.out, if_true]
@[simp] theorem State.modWin_outside [hb_ : Blanked .host] (s : State) (w : Nat) (f : Win → Win) : (s.modWin w f).outside = s.outside := by
  simp only [State.outside, outsideOf, State.modWin, State.modHost, State.setHost, hb_.out, if_true]
@[simp] theorem State.modRick_outside [hb_ : Blanked .rick] (s : State) (f : Rick → Rick) : (s.modRick f).outside = s.outside := by
  simp only [State.outside, outsideOf, State.modRick, hb_.out, if_true]
@[simp] theorem State.modFab_outside [hb_ : Blanked .fab] (s : State) (f : Fabric → Fabric) : (s.modFab f).outside = s.outside := by
  simp only [State.outside, outsideOf, State.modFab, hb_.out, if_true]
@[simp] theorem State.modClk_outside [hb_ : Blanked .clk] (s : State) (f : Clk → Clk) : (s.modClk f).outside = s.outside := by
  simp only [State.outside, outsideOf, State.modClk, hb_.out, if_true]
@[simp] theorem State.modPwr_outside [hb_ : Blanked .pwr] (s : State) (f : Pwr → Pwr) : (s.modPwr f).outside = s.outside := by
  simp only [State.outside, outsideOf, State.modPwr, hb_.out, if_true]
@[simp] theorem State.modCap_outside [hb_ : Blanked .cap] (s : State) (f : Cap → Cap) : (s.modCap f).outside = s.outside := by
  simp only [State.outside, outsideOf, State.modCap, hb_.out, if_true]
@[simp] theorem State.modSpi_outside [hb_ : Blanked .spi] (s : State) (f : Spi → Spi) : (s.modSpi f).outside = s.outside := by
  simp only [State.outside, outsideOf, State.modSpi, hb_.out, if_true]
@[simp] theorem State.modHlt_outside [hb_ : Blanked .hlt] (s : State) (f : Hlt → Hlt) : (s.modHlt f).outside = s.outside := by
  simp only [State.outside, outsideOf, State.modHlt, hb_.out, if_true]
@[simp] theorem State.modSes_outside [hb_ : Blanked .ses] (s : State) (f : Ses → Ses) : (s.modSes f).outside = s.outside := by
  simp only [State.outside, outsideOf, State.modSes, hb_.out, if_true]
@[simp] theorem State.modMtr_outside [hb_ : Blanked .mtr] (s : State) (f : Mtr → Mtr) : (s.modMtr f).outside = s.outside := by
  simp only [State.outside, outsideOf, State.modMtr, hb_.out, if_true]
@[simp] theorem State.modDbg_outside [hb_ : Blanked .dbg] (s : State) (f : Dbg → Dbg) : (s.modDbg f).outside = s.outside := by
  simp only [State.outside, outsideOf, State.modDbg, hb_.out, if_true]
@[simp] theorem State.modCas_outside [hb_ : Blanked .rick] (s : State) (n : Nat) (f : CasPort → CasPort) : (s.modCas n f).outside = s.outside := by
  simp only [State.outside, outsideOf, State.modCas, State.modRick, hb_.out, if_true]
@[simp] theorem State.spend_outside [hb_ : Blanked .freeN] (s : State) : (s.spend).outside = s.outside := by
  simp only [State.outside, outsideOf, State.spend, hb_.out, if_true]
@[simp] theorem State.modCore_outside [hb_ : Blanked .tiles] (s : State) (t c : Nat) (f : Core → Core) : (s.modCore t c f).outside = s.outside := by
  simp only [State.outside, outsideOf, State.modCore, State.modTile, State.setTile, hb_.out, if_true]
@[simp] theorem State.bump_outside [hb_ : Blanked .tiles] (s : State) (t k n : Nat) : (s.bump t k n).outside = s.outside := by
  simp only [State.outside, outsideOf, State.bump, State.modTile, State.setTile, hb_.out, if_true]

@[simp] theorem State.timeOf_outside [h : Blanked .time] (s : State) (t : Nat) : ({ s with time := t } : State).outside = s.outside := by
  simp only [State.outside, outsideOf, h.out, if_true]
@[simp] theorem State.freeOf_outside [h : Blanked .freeN] (s : State) (n : Nat) : ({ s with freeN := n } : State).outside = s.outside := by
  simp only [State.outside, outsideOf, h.out, if_true]
@[simp] theorem State.bevOf_outside [h : Blanked .bev] (s : State) (b : List W32) (n : Nat) : ({ s with bev := b, bevMode := n } : State).outside = s.outside := by
  simp only [State.outside, outsideOf, h.out, if_true]
@[simp] theorem State.clkOf_outside [h : Blanked .clk] (s : State) (c : Clk) : ({ s with clk := c } : State).outside = s.outside := by
  simp only [State.outside, outsideOf, h.out, if_true]

variable {s : State}

theorem onTile_stays {t : Nat} {k : Tile → Out} (h : ∀ x, Stays s.outside (k x)) : Stays s.outside (onTile s t k) := by unfold onTile; split <;> simp [h]
theorem onSite_stays {t : Nat} {k : Site → Out} (h : ∀ x, Stays s.outside (k x)) : Stays s.outside (onSite s t k) := by unfold onSite; split <;> simp [h]
theorem onPort_stays {t : Nat} {k : Port → Out} (h : ∀ x, Stays s.outside (k x)) : Stays s.outside (onPort s t k) := by unfold onPort; split <;> simp [h]
theorem onPart_stays {t : Nat} {k : Part → Out} (h : ∀ x, Stays s.outside (k x)) : Stays s.outside (onPart s t k) := by unfold onPart; split <;> simp [h]
theorem onCtx_stays {t : Nat} {k : Ctx → Out} (h : ∀ x, Stays s.outside (k x)) : Stays s.outside (onCtx s t k) := by unfold onCtx; split <;> simp [h]
theorem onCas_stays {t : Nat} {k : CasPort → Out} (h : ∀ x, Stays s.outside (k x)) : Stays s.outside (onCas s t k) := by unfold onCas; split <;> simp [h]
theorem when_stays {b : Bool} {u : State} {k : Out} (hu : u.outside = f) (h : Stays f k) : Stays f (when_ b u k) := by unfold when_; split <;> simp [hu, h]


/-! ### Ops -/

@[simp] theorem State.spendN_outside [Blanked .freeN] (s : State) (n : Nat) : (State.spendN s n).outside = s.outside := by simp [State.spendN]

/-! ### Events -/

@[simp] theorem State.send_outside [Blanked .host] (s : State) (x : HostTxn) : (State.send s x).outside = s.outside := by simp [State.send]
@[simp] theorem State.hostWrite_outside [Blanked .host] (s : State) (port addr : Nat) (bytes : List Byte) (relaxed : Bool) : (State.hostWrite s port addr bytes relaxed).outside = s.outside := by simp [State.hostWrite]
@[simp] theorem State.sendMsix_outside [Blanked .host] (s : State) (port vec : Nat) : (State.sendMsix s port vec).outside = s.outside := by simp [State.sendMsix]
@[simp] theorem State.evtRecord_outside [Blanked .host] (s : State) (w0 w1 w2 w3 : Nat) : (State.evtRecord s w0 w1 w2 w3).outside = s.outside := by simp [State.evtRecord]
@[simp] theorem State.evtLose_outside [Blanked .host] (s : State) : (State.evtLose s).outside = s.outside := by simp [State.evtLose]
@[simp] theorem State.evtPut_outside [Blanked .host] (s : State) (w0 w1 w2 w3 : Nat) : (State.evtPut s w0 w1 w2 w3).outside = s.outside := by simp [State.evtPut]
@[simp] theorem State.evtPut2_outside [Blanked .host] (s : State) (a0 a1 a2 a3 b0 b1 b2 b3 : Nat) : (State.evtPut2 s a0 a1 a2 a3 b0 b1 b2 b3).outside = s.outside := by simp [State.evtPut2]
@[simp] theorem State.logPut_outside [Blanked .spi] (s : State) (w0 w1 w2 w3 : Nat) : (State.logPut s w0 w1 w2 w3).outside = s.outside := by simp [State.logPut]
@[simp] theorem State.bootLog_outside [Blanked .spi] (s : State) (code d0 d1 : Nat) : (State.bootLog s code d0 d1).outside = s.outside := by simp [State.bootLog]
@[simp] theorem State.raiseAt_outside [Blanked .host] [Blanked .spi] (s : State) (at_ : Nat) (e : Ev) : (State.raiseAt s at_ e).outside = s.outside := by simp [State.raiseAt]
@[simp] theorem State.raise_outside [Blanked .host] [Blanked .spi] (s : State) (e : Ev) : (State.raise s e).outside = s.outside := by simp [State.raise]
@[simp] theorem State.raise2_outside [Blanked .host] [Blanked .spi] (s : State) (a b : Ev) : (State.raise2 s a b).outside = s.outside := by simp [State.raise2]
@[simp] theorem State.raiseTile_outside [Blanked .host] [Blanked .spi] (s : State) (code t core : Nat) (ctx : Option (Nat × Nat)) (d0 d1 : Nat) : (State.raiseTile s code t core ctx d0 d1).outside = s.outside := by simp [State.raiseTile]
@[simp] theorem State.raiseSite_outside [Blanked .host] [Blanked .spi] (s : State) (code p d0 d1 : Nat) : (State.raiseSite s code p d0 d1).outside = s.outside := by simp [State.raiseSite]
@[simp] theorem State.raiseEdge_outside [Blanked .host] [Blanked .spi] (s : State) (code id d0 d1 : Nat) : (State.raiseEdge s code id d0 d1).outside = s.outside := by simp [State.raiseEdge]
@[simp] theorem State.raisePort_outside [Blanked .host] [Blanked .spi] (s : State) (code port d0 d1 : Nat) : (State.raisePort s code port d0 d1).outside = s.outside := by simp [State.raisePort]
@[simp] theorem State.raisePanel_outside [Blanked .host] [Blanked .spi] (s : State) (code d0 d1 : Nat) : (State.raisePanel s code d0 d1).outside = s.outside := by simp [State.raisePanel]
@[simp] theorem State.raiseCtx_outside [Blanked .host] [Blanked .spi] (s : State) (code c d0 d1 : Nat) : (State.raiseCtx s code c d0 d1).outside = s.outside := by simp [State.raiseCtx]
@[simp] theorem State.complete_outside [Blanked .host] (s : State) (c : Nat) (n : W32) (tag : Nat) (irq : Bool) (e : Ending) : (State.complete s c n tag irq e).outside = s.outside := by simp [State.complete]
@[simp] theorem State.note_outside [Blanked .host] (s : State) (x : FaultNote) : (State.note s x).outside = s.outside := by simp [State.note]
@[simp] theorem State.modDesc_outside [Blanked .host] (s : State) (c : Nat) (n : W32) (f : InFl → InFl) : (State.modDesc s c n f).outside = s.outside := by simp [State.modDesc]
@[simp] theorem State.endDesc_outside [Blanked .tiles] [Blanked .host] (s : State) (c : Nat) (n : W32) (e : Ending) : (State.endDesc s c n e).outside = s.outside := by unfold State.endDesc; split <;> simp
@[simp] theorem State.launchCheck_outside [Blanked .tiles] [Blanked .host] (s : State) (c : Nat) (n : W32) : (State.launchCheck s c n).outside = s.outside := by unfold State.launchCheck; (repeat' split) <;> simp
@[simp] theorem State.launchCoreDone_outside [Blanked .tiles] [Blanked .host] (s : State) (c : Nat) (n : W32) (t core exit : Nat) : (State.launchCoreDone s c n t core exit).outside = s.outside := by simp [State.launchCoreDone]
@[simp] theorem State.launchReport_outside [Blanked .tiles] [Blanked .host] (s : State) (c : Nat) (n : W32) (t : Nat) (cores : List Nat) (fail : Nat) : (State.launchReport s c n t cores fail).outside = s.outside := by simp [State.launchReport]
@[simp] theorem State.noteTrap_outside [Blanked .tiles] [Blanked .host] (s : State) (t core : Nat) (k : Core) : (State.noteTrap s t core k).outside = s.outside := by unfold State.noteTrap; (repeat' split) <;> simp
@[simp] theorem State.noteHalt_outside [Blanked .tiles] [Blanked .host] (s : State) (t : Nat) (code : Nat) : (State.noteHalt s t code).outside = s.outside := by unfold State.noteHalt; apply outside_foldl; intros; first | (simp; done) | (repeat' split) <;> simp
@[simp] theorem State.noteLost_outside [Blanked .host] (s : State) (t : Nat) : (State.noteLost s t).outside = s.outside := by simp [State.noteLost]
@[simp] theorem State.stopCtx_outside [h0 : Blanked .tiles] [h1 : Blanked .fab] (s : State) (c : Nat) : (s.stopCtx c).outside = s.outside := by
  simp only [State.stopCtx, State.outside, outsideOf, h0.out, h1.out, if_true]

/-! ### EngineOps -/

@[simp] theorem State.wild_outside [Blanked .freeN] [Blanked .tiles] (s : State) (t : Nat) : (State.wild s t).outside = s.outside := by simp [State.wild]
@[simp] theorem State.sramStore_outside [Blanked .freeN] [Blanked .tiles] (s : State) (t a : Nat) (bs : List Byte) : (State.sramStore s t a bs).outside = s.outside := by simp [State.sramStore]

/-! ### HealthOps -/

@[simp] theorem State.learn_outside [Blanked .spi] (s : State) (type : Nat) (payload : List W64) : (State.learn s type payload).outside = s.outside := by simp [State.learn]
@[simp] theorem State.addDefect_outside [Blanked .spi] [Blanked .hlt] (s : State) (w0 : W64) (selfTest : Bool) : (State.addDefect s w0 selfTest).outside = s.outside := by simp [State.addDefect]
@[simp] theorem State.foundOnly_outside [Blanked .hlt] (s : State) (w0 : W64) : (State.foundOnly s w0).outside = s.outside := by simp [State.foundOnly]
@[simp] theorem State.learnMargin_outside [Blanked .spi] (s : State) (p : Nat) : (State.learnMargin s p).outside = s.outside := by simp [State.learnMargin]
@[simp] theorem State.ceilingChanged_outside [Blanked .host] [Blanked .spi] (s : State) (p cell ceil : Nat) : (State.ceilingChanged s p cell ceil).outside = s.outside := by simp [State.ceilingChanged]
@[simp] theorem State.detectAt_outside [Blanked .sites] [Blanked .host] [Blanked .spi] (s : State) (p c k : Nat) : (State.detectAt s p c k).outside = s.outside := by simp [State.detectAt]
@[simp] theorem State.timingDetect_outside [Blanked .sites] [Blanked .host] [Blanked .spi] (s : State) (p : Nat) : (State.timingDetect s p).outside = s.outside := by simp [State.timingDetect]
@[simp] theorem State.tag_outside [Blanked .hlt] (s : State) (p : Nat) (failed : Bool) : (State.tag s p failed).outside = s.outside := by simp [State.tag]
@[simp] theorem State.fence_outside [Blanked .tiles] [Blanked .host] (s : State) (t : Nat) : (State.fence s t).outside = s.outside := by simp [State.fence]
@[simp] theorem State.candidate_outside [Blanked .tiles] [Blanked .host] [Blanked .spi] (s : State) (t by_ : Nat) : (State.candidate s t by_).outside = s.outside := by simp [State.candidate]
@[simp] theorem State.scoreCheck_outside [Blanked .tiles] [Blanked .host] [Blanked .spi] (s : State) (t : Nat) : (State.scoreCheck s t).outside = s.outside := by simp [State.scoreCheck]
@[simp] theorem State.penalise_outside [Blanked .tiles] [Blanked .host] [Blanked .spi] [Blanked .hlt] (s : State) (t kind : Nat) : (State.penalise s t kind).outside = s.outside := by simp [State.penalise]
@[simp] theorem State.sramUe_outside [Blanked .tiles] [Blanked .host] [Blanked .spi] [Blanked .hlt] (s : State) (t word : Nat) : (State.sramUe s t word).outside = s.outside := by simp [State.sramUe]
@[simp] theorem State.sramUes_outside [Blanked .tiles] [Blanked .host] [Blanked .spi] [Blanked .hlt] (s : State) (t : Nat) (ws : List Nat) : (State.sramUes s t ws).outside = s.outside := by simp [State.sramUes]

/-! ### FabricOps -/

@[simp] theorem State.modCnt_outside [Blanked .sites] (s : State) (p : Nat) (f : SiteCnt → SiteCnt) : (State.modCnt s p f).outside = s.outside := by simp [State.modCnt]
@[simp] theorem State.dropAt_outside [Blanked .sites] [Blanked .host] [Blanked .spi] (s : State) (p : Nat) : (State.dropAt s p).outside = s.outside := by simp [State.dropAt]
@[simp] theorem State.noRouteAt_outside [Blanked .sites] [Blanked .host] [Blanked .spi] (s : State) (p : Nat) (dest : W64) : (State.noRouteAt s p dest).outside = s.outside := by simp [State.noRouteAt]
@[simp] theorem State.partDropAt_outside [Blanked .sites] (s : State) (p : Nat) : (State.partDropAt s p).outside = s.outside := by simp [State.partDropAt]
@[simp] theorem State.staleAt_outside [Blanked .sites] (s : State) (p : Nat) : (State.staleAt s p).outside = s.outside := by simp [State.staleAt]
@[simp] theorem State.edgeStale_outside [Blanked .fab] (s : State) (e : Nat) : (State.edgeStale s e).outside = s.outside := by simp [State.edgeStale]
@[simp] theorem State.edgePart_outside [Blanked .fab] (s : State) (e : Nat) : (State.edgePart s e).outside = s.outside := by simp [State.edgePart]
@[simp] theorem State.addFlight_outside [Blanked .fab] (s : State) (f : Flight) : (State.addFlight s f).outside = s.outside := by simp [State.addFlight]
@[simp] theorem State.dropFlight_outside [Blanked .fab] (s : State) (i : Nat) : (State.dropFlight s i).outside = s.outside := by simp [State.dropFlight]
@[simp] theorem State.setFlight_outside [Blanked .fab] (s : State) (i : Nat) (f : Flight) : (State.setFlight s i f).outside = s.outside := by simp [State.setFlight]
theorem onFlight_stays {i : Nat} {k : Flight → Out} (h : ∀ x, Stays s.outside (k x)) : Stays s.outside (onFlight s i k) := by
  unfold onFlight; split <;> simp [h]
@[simp] theorem State.respond_outside [Blanked .fab] (s : State) (f : Flight) (at_ : Place) (opc : Opc) (status : Nat) (payload : List Byte) : (State.respond s f at_ opc status payload).outside = s.outside := by simp [State.respond]
@[simp] theorem State.inject_outside [Blanked .sites] [Blanked .fab] [Blanked .host] [Blanked .spi] (s : State) (at_ : Place) (own : Option Nat) (site : Nat) (pkt : Packet) : (State.inject s at_ own site pkt).outside = s.outside := by unfold State.inject; split <;> simp
@[simp] theorem State.tileSeq_outside [Blanked .tiles] (s : State) (t c : Nat) : (s.tileSeq t c).2.outside = s.outside := by simp [State.tileSeq]
@[simp] theorem State.edgeSeq_outside [Blanked .fab] (s : State) (e c : Nat) : (s.edgeSeq e c).2.outside = s.outside := by simp [State.edgeSeq]
@[simp] theorem edgeSeq_outside_of [Blanked .fab] {s s' : State} {e c : Nat} {q : W16} (h : s.edgeSeq e c = (q, s')) : s'.outside = s.outside := by
  have := State.edgeSeq_outside s e c; rw [h] at this; exact this
@[simp] theorem State.landSram_outside [Blanked .freeN] [Blanked .tiles] [Blanked .host] [Blanked .spi] [Blanked .hlt] (s : State) (t a : Nat) (bs : List Byte) : (State.landSram s t a bs).outside = s.outside := by simp [State.landSram]
@[simp] theorem State.landScr_outside [Blanked .tiles] [Blanked .host] [Blanked .spi] [Blanked .hlt] (s : State) (t a : Nat) (bs : List Byte) : (State.landScr s t a bs).outside = s.outside := by simp [State.landScr]
@[simp] theorem State.listHit_outside [Blanked .tiles] [Blanked .host] [Blanked .spi] (s : State) (t p : Nat) (h : ListHit) : (State.listHit s t p h).outside = s.outside := by simp [State.listHit]
@[simp] theorem State.wildList_outside [Blanked .freeN] [Blanked .tiles] (s : State) (t p : Nat) : (State.wildList s t p).outside = s.outside := by simp [State.wildList]
@[simp] theorem State.listWrote_outside [Blanked .freeN] [Blanked .tiles] [Blanked .host] [Blanked .spi] (s : State) (t p : Nat) (h : ListHit) (bad : Bool) : (State.listWrote s t p h bad).outside = s.outside := by simp [State.listWrote]
@[simp] theorem State.ctlWrite_outside [Blanked .freeN] [Blanked .tiles] [Blanked .host] [Blanked .spi] [Blanked .hlt] (s : State) (t off : Nat) (bs : List Byte) : (State.ctlWrite s t off bs).outside = s.outside := by
  unfold State.ctlWrite; repeat' first | with_reducible rfl | assumption | intro _ | (simp; done) | split | (simp_all; done) | simp only [Stays_ok, outside_ite]
@[simp] theorem State.tell_outside [Blanked .freeN] [Blanked .host] (s : State) (ep ctx : Nat) : (State.tell s ep ctx).outside = s.outside := by simp [State.tell]
@[simp] theorem State.park_outside [Blanked .fab] (s : State) (i : Nat) (f : Flight) (p : Nat) : (State.park s i f p).outside = s.outside := by simp [State.park]
@[simp] theorem State.turnAway_outside [Blanked .sites] [Blanked .fab] [Blanked .host] [Blanked .spi] (s : State) (i : Nat) (f : Flight) (p : Nat) (at_ : Place) (status : Nat) : (State.turnAway s i f p at_ status).outside = s.outside := by simp [State.turnAway]
@[simp] theorem State.tileBad_outside [Blanked .tiles] [Blanked .fab] (s : State) (i : Nat) (f : Flight) (t : Nat) : (State.tileBad s i f t).outside = s.outside := by simp [State.tileBad]
theorem atTile_stays [Blanked .freeN] [Blanked .tiles] [Blanked .sites] [Blanked .fab] [Blanked .host] [Blanked .spi] {i t : Nat} {f : Flight} {k : State → Out} (h : ∀ u, u.outside = s.outside → Stays s.outside (k u)) : Stays s.outside (atTile s i f t k) := by
  unfold atTile; (try dsimp only); (repeat' split) <;> first | (simp; done) | (refine h _ ?_; simp)
@[simp] theorem State.lateResponse_outside [Blanked .tiles] (s : State) (t : Nat) (p : Packet) : (State.lateResponse s t p).outside = s.outside := by simp [State.lateResponse]

/-! ### SiteViews -/

@[simp] theorem State.relimit_outside [Blanked .sites] [Blanked .clk] (s : State) (p : Nat) : (State.relimit s p).outside = s.outside := by simp [State.relimit]
@[simp] theorem State.invalidateSlice_outside [Blanked .sites] (s : State) (p : Nat) : (State.invalidateSlice s p).outside = s.outside := by simp [State.invalidateSlice]
@[simp] theorem State.invalidatePart_outside [Blanked .sites] (s : State) (q : Nat) : (State.invalidatePart s q).outside = s.outside := by simp [State.invalidatePart]

/-! ### CacheOps -/

@[simp] theorem State.fillRead_outside [Blanked .fab] (s : State) (p line part owner : Nat) : (State.fillRead s p line part owner).outside = s.outside := by simp [State.fillRead]
@[simp] theorem State.recordRow_outside [Blanked .chans] [Blanked .spi] (s : State) (ch burst : Nat) : (State.recordRow s ch burst).outside = s.outside := by simp [State.recordRow]
@[simp] theorem State.ddrUe_outside [Blanked .chans] [Blanked .host] [Blanked .spi] (s : State) (ch burst : Nat) : (State.ddrUe s ch burst).outside = s.outside := by simp [State.ddrUe]
@[simp] theorem State.ddrCe_outside [Blanked .freeN] [Blanked .chans] [Blanked .spi] (s : State) (ch burst : Nat) : (State.ddrCe s ch burst).outside = s.outside := by simp [State.ddrCe]
@[simp] theorem State.meetDdr_outside [Blanked .freeN] [Blanked .chans] [Blanked .spi] (s : State) (ch : Nat) (reads : Nat → Bool) : (State.meetDdr s ch reads).outside = s.outside := by simp [State.meetDdr]
@[simp] theorem State.wildDdr_outside [Blanked .chans] (s : State) (r : Region) (n : Nat) : (State.wildDdr s r n).outside = s.outside := by simp [State.wildDdr]
@[simp] theorem State.wildPart_outside [Blanked .freeN] [Blanked .tiles] [Blanked .chans] (s : State) (q : Nat) : (State.wildPart s q).outside = s.outside := by simp [State.wildPart]

/-! ### HostOps -/

@[simp] theorem State.issueRead_outside [Blanked .host] (s : State) (port addr len : Nat) (for_ : HostFor) : (State.issueRead s port addr len for_).outside = s.outside := by simp [State.issueRead]
@[simp] theorem State.dropRead_outside [Blanked .host] (s : State) (id : Nat) : (State.dropRead s id).outside = s.outside := by simp [State.dropRead]
@[simp] theorem State.setEtrks_outside [Blanked .host] (s : State) (pe : Nat) (l : List ETrk) : (State.setEtrks s pe l).outside = s.outside := by simp [State.setEtrks]
@[simp] theorem State.edgeReuse_outside [Blanked .host] (s : State) (pe : Nat) : (State.edgeReuse s pe).outside = s.outside := by simp [State.edgeReuse]
@[simp] theorem State.edgeRead_outside [Blanked .sites] [Blanked .fab] [Blanked .host] [Blanked .spi] (s : State) (pe ctx : Nat) (a : W64) (len : Nat) (for_ : EdgeFor) : (State.edgeRead s pe ctx a len for_).outside = s.outside := by simp [State.edgeRead]
@[simp] theorem State.copyAsk_outside [Blanked .tiles] [Blanked .sites] [Blanked .fab] [Blanked .host] [Blanked .spi] (s : State) (pe c : Nat) (n : W32) (d : Desc) (n_ : Nat) : (State.copyAsk s pe c n d n_).outside = s.outside := by
  induction n_ generalizing s with
  | zero => first | exact Eq.symm rfl | (simp [State.copyAsk]; done)
  | succ n_ ih =>
    unfold State.copyAsk; first | (simp [ih]; done) | (repeat' first | with_reducible rfl | assumption | intro _ | (simp; done) | split | (simp_all; done) | simp only [Stays_ok, outside_ite])
@[simp] theorem State.copyPut_outside [Blanked .tiles] [Blanked .sites] [Blanked .fab] [Blanked .host] [Blanked .spi] (s : State) (pe c : Nat) (n : W32) (d : Desc) (n_ : Nat) : (State.copyPut s pe c n d n_).outside = s.outside := by
  induction n_ generalizing s with
  | zero => first | exact Eq.symm rfl | (simp [State.copyPut]; done)
  | succ n_ ih =>
    unfold State.copyPut; simp only [State.edgeSeq, State.tileSeq]; first | (simp [ih]; done) | (repeat' first | with_reducible rfl | assumption | intro _ | (simp; done) | split | (simp_all; done) | simp only [Stays_ok, outside_ite])
@[simp] theorem State.copyStep_outside [Blanked .tiles] [Blanked .sites] [Blanked .fab] [Blanked .host] [Blanked .spi] (s : State) (c : Nat) (n : W32) : (State.copyStep s c n).outside = s.outside := by
  unfold State.copyStep; repeat' first | with_reducible rfl | assumption | intro _ | (simp; done) | split | (simp_all; done) | simp only [Stays_ok, outside_ite]
@[simp] theorem State.copyGot_outside [Blanked .tiles] [Blanked .sites] [Blanked .fab] [Blanked .host] [Blanked .spi] (s : State) (c : Nat) (n : W32) (at_ : Nat) (bs : List Byte) : (State.copyGot s c n at_ bs).outside = s.outside := by simp [State.copyGot]
@[simp] theorem State.copiesAsk_outside [Blanked .tiles] [Blanked .sites] [Blanked .fab] [Blanked .host] [Blanked .spi] (s : State) (pe : Nat) : (State.copiesAsk s pe).outside = s.outside := by
  unfold State.copiesAsk; repeat' first | with_reducible rfl | assumption | apply outside_foldl | intro _ | (simp; done) | split | (simp_all; done) | simp only [Stays_ok, outside_ite]
@[simp] theorem State.copyWack_outside [Blanked .tiles] [Blanked .sites] [Blanked .fab] [Blanked .host] [Blanked .spi] (s : State) (c : Nat) (seq : W16) (status : Nat) : (State.copyWack s c seq status).outside = s.outside := by unfold State.copyWack; split <;> simp
@[simp] theorem State.sendStarts_outside [Blanked .tiles] [Blanked .fab] [Blanked .host] (s : State) (c : Nat) (n : W32) (d : Desc) (mode audn : Nat) (theta : W32) : (State.sendStarts s c n d mode audn theta).outside = s.outside := by simp [State.sendStarts]
@[simp] theorem State.edgeFail_outside [Blanked .tiles] [Blanked .host] [Blanked .dbg] (s : State) (t : ETrk) (status : Nat) : (State.edgeFail s t status).outside = s.outside := by unfold State.edgeFail; split <;> simp
@[simp] theorem State.edgeData_outside [Blanked .tiles] [Blanked .sites] [Blanked .fab] [Blanked .host] [Blanked .spi] [Blanked .dbg] (s : State) (t : ETrk) (bs : List Byte) : (State.edgeData s t bs).outside = s.outside := by unfold State.edgeData; (repeat' split) <;> simp
@[simp] theorem State.edgeResponse_outside [Blanked .tiles] [Blanked .sites] [Blanked .fab] [Blanked .host] [Blanked .spi] [Blanked .dbg] (s : State) (pe : Nat) (p : Packet) : (State.edgeResponse s pe p).outside = s.outside := by
  unfold State.edgeResponse; repeat' first | with_reducible rfl | assumption | intro _ | (simp; done) | split | (simp_all; done) | simp only [Stays_ok, outside_ite]

/-! ### LoaderOps -/

@[simp] theorem State.tileRead_outside [Blanked .tiles] [Blanked .sites] [Blanked .fab] [Blanked .host] [Blanked .spi] (s : State) (t k core : Nat) (x : Trk) (a : W64) : (State.tileRead s t k core x a).outside = s.outside := by simp [State.tileRead]
@[simp] theorem State.loaderAsk_outside [Blanked .tiles] [Blanked .sites] [Blanked .fab] [Blanked .host] [Blanked .spi] (s : State) (t : Nat) (n_ : Nat) : (State.loaderAsk s t n_).outside = s.outside := by
  induction n_ generalizing s with
  | zero => first | exact Eq.symm rfl | (simp [State.loaderAsk]; done)
  | succ n_ ih =>
    unfold State.loaderAsk; first | (simp [ih]; done) | (repeat' first | with_reducible rfl | assumption | intro _ | (simp; done) | split | (simp_all; done) | simp only [Stays_ok, outside_ite])
@[simp] theorem State.loadersGo_outside [Blanked .tiles] [Blanked .sites] [Blanked .fab] [Blanked .host] [Blanked .spi] (s : State) : (State.loadersGo s).outside = s.outside := by simp [State.loadersGo]
@[simp] theorem State.loadBegin_outside [Blanked .tiles] [Blanked .sites] [Blanked .fab] [Blanked .host] [Blanked .spi] (s : State) (t : Nat) (r : LoadReq) : (State.loadBegin s t r).outside = s.outside := by simp [State.loadBegin]
@[simp] theorem State.loadGot_outside [Blanked .freeN] [Blanked .tiles] [Blanked .host] [Blanked .spi] [Blanked .hlt] (s : State) (t off : Nat) (bs : List Byte) : (State.loadGot s t off bs).outside = s.outside := by unfold State.loadGot; split <;> simp
@[simp] theorem State.loadCheck_outside [Blanked .tiles] [Blanked .host] (s : State) (c : Nat) (n : W32) : (State.loadCheck s c n).outside = s.outside := by unfold State.loadCheck; (repeat' split) <;> simp
@[simp] theorem State.imageFails_outside [Blanked .tiles] [Blanked .host] (s : State) (pkt : Packet) (fill : Option (Nat × Nat)) (e : Ending) : (State.imageFails s pkt fill e).outside = s.outside := by simp [State.imageFails]
@[simp] theorem State.loadReport_outside [Blanked .tiles] [Blanked .host] (s : State) (c : Nat) (n : W32) (t st : Nat) : (State.loadReport s c n t st).outside = s.outside := by simp [State.loadReport]
@[simp] theorem State.loadWild_outside [Blanked .freeN] [Blanked .tiles] [Blanked .host] [Blanked .spi] [Blanked .hlt] (s : State) (t : Nat) (r : LoadReq) : (State.loadWild s t r).outside = s.outside := by simp [State.loadWild]
@[simp] theorem State.loadStop_outside [Blanked .freeN] [Blanked .tiles] [Blanked .host] [Blanked .spi] [Blanked .hlt] (s : State) (t st : Nat) : (State.loadStop s t st).outside = s.outside := by unfold State.loadStop; split <;> simp
@[simp] theorem State.loadNext_outside [Blanked .tiles] [Blanked .sites] [Blanked .fab] [Blanked .host] [Blanked .spi] (s : State) (t : Nat) : (State.loadNext s t).outside = s.outside := by unfold State.loadNext; split <;> simp
@[simp] theorem State.loadFinish_outside [Blanked .freeN] [Blanked .tiles] [Blanked .sites] [Blanked .fab] [Blanked .host] [Blanked .spi] [Blanked .hlt] (s : State) (t st : Nat) : (State.loadFinish s t st).outside = s.outside := by simp [State.loadFinish]
@[simp] theorem State.loadsEnd_outside [Blanked .freeN] [Blanked .tiles] [Blanked .host] [Blanked .spi] [Blanked .hlt] (s : State) (t : Nat) : (State.loadsEnd s t).outside = s.outside := by simp [State.loadsEnd]

/-! ### SiteOps -/

@[simp] theorem State.denied_outside [Blanked .host] [Blanked .spi] [Blanked .ses] (s : State) (port off : Nat) : (State.denied s port off).outside = s.outside := by simp [State.denied]
theorem gated_stays [Blanked .host] [Blanked .spi] [Blanked .ses] {port off : Nat} {k : Out} (h : Stays s.outside k) : Stays s.outside (gated s port off k) := by
  unfold gated; (repeat' split) <;> simp [h]
theorem gated0_stays [Blanked .host] [Blanked .spi] [Blanked .ses] {port off : Nat} {k : Out} (h : Stays s.outside k) : Stays s.outside (gated0 s port off k) := by
  unfold gated0; split
  · exact gated_stays h
  · simp
theorem hltGate_stays [Blanked .host] [Blanked .spi] [Blanked .hlt] [Blanked .ses] {port : Nat} {v : Option W32} {k : State → Out} (h : ∀ u, u.outside = s.outside → Stays s.outside (k u)) : Stays s.outside (hltGate s port v k) := by
  unfold hltGate
  split
  · simp
  · dsimp only; split
    · simp
    · cases v <;> (dsimp only; split; · simp) <;> (split; · simp) <;> exact h _ (by simp)
@[simp] theorem State.loadsLost_outside [Blanked .tiles] [Blanked .host] (s : State) (t : Nat) : (State.loadsLost s t).outside = s.outside := by simp [State.loadsLost]
@[simp] theorem State.tileReset_outside [Blanked .freeN] [Blanked .tiles] [Blanked .host] [Blanked .spi] [Blanked .hlt] (s : State) (t : Nat) : (State.tileReset s t).outside = s.outside := by simp [State.tileReset]
@[simp] theorem State.remapHold_outside [Blanked .sites] (s : State) (p : Nat) : (State.remapHold s p).outside = s.outside := by unfold State.remapHold; split <;> simp
@[simp] theorem State.siteReset_outside [Blanked .freeN] [Blanked .tiles] [Blanked .sites] [Blanked .host] [Blanked .spi] [Blanked .hlt] (s : State) (p : Nat) : (State.siteReset s p).outside = s.outside := by simp [State.siteReset]
@[simp] theorem State.setRails_outside [Blanked .sites] (s : State) (p vc vs : Nat) : (State.setRails s p vc vs).outside = s.outside := by simp [State.setRails]
@[simp] theorem State.bankNow_outside [Blanked .sites] (s : State) (p : Nat) : (State.bankNow s p).outside = s.outside := by simp [State.bankNow]
@[simp] theorem State.dropNode_outside [Blanked .sites] [Blanked .host] [Blanked .spi] (n p : Nat) (s : State) : (State.dropNode n p s).outside = s.outside := by
  induction n generalizing p s with
  | zero => rfl
  | succ n ih =>
    unfold State.dropNode; apply outside_foldl; intro u f; split
    · rfl
    · dsimp only; split <;> simp [ih]
@[simp] theorem State.nodeDropped_outside [Blanked .sites] [Blanked .host] [Blanked .spi] (s : State) (p : Nat) : (State.nodeDropped s p).outside = s.outside := by simp [State.nodeDropped]
@[simp] theorem State.nodeSeen_outside [Blanked .sites] (s : State) (p : Nat) (up : Bool) : (State.nodeSeen s p up).outside = s.outside := by unfold State.nodeSeen; apply outside_foldl; intros; first | (simp; done) | (repeat' split) <;> simp
@[simp] theorem State.nodeLeave_outside [Blanked .sites] [Blanked .host] [Blanked .spi] (s : State) (p : Nat) (powered : Bool) : (State.nodeLeave s p powered).outside = s.outside := by simp [State.nodeLeave]
@[simp] theorem State.nodeJoin_outside [Blanked .sites] (s : State) (p : Nat) : (s.nodeJoin p).outside = s.outside := by
  unfold State.nodeJoin; refine (outside_foldl _ (fun u f => ?_) _ _).trans (State.modSite_outside ..)
  split
  · rfl
  · dsimp only; split <;> simp
@[simp] theorem State.unsettle_outside [Blanked .hlt] (s : State) (k n : Nat) : (State.unsettle s k n).outside = s.outside := by simp [State.unsettle]
@[simp] theorem State.settle_outside [Blanked .hlt] (s : State) (k n : Nat) : (State.settle s k n).outside = s.outside := by simp [State.settle]
@[simp] theorem State.siteOff_outside [Blanked .tiles] [Blanked .sites] [Blanked .host] (s : State) (p : Nat) : (State.siteOff s p).outside = s.outside := by simp [State.siteOff]
@[simp] theorem State.siteDark_outside [Blanked .tiles] [Blanked .sites] [Blanked .fab] [Blanked .host] [Blanked .spi] (s : State) (p : Nat) : (State.siteDark s p).outside = s.outside := by simp [State.siteDark]
@[simp] theorem State.darken_outside [Blanked .tiles] [Blanked .sites] [Blanked .fab] [Blanked .host] [Blanked .spi] [Blanked .hlt] (s : State) (p : Nat) : (State.darken s p).outside = s.outside := by simp [State.darken]
@[simp] theorem State.promise_outside [Blanked .host] [Blanked .spi] [Blanked .hlt] (s : State) : (State.promise s).outside = s.outside := by simp [State.promise]

/-! ### SpiOps -/

@[simp] theorem State.updateEnds_outside [Blanked .spi] (s : State) (ecode : Nat) : (State.updateEnds s ecode).outside = s.outside := by simp [State.updateEnds]
@[simp] theorem State.updateTick_outside [Blanked .spi] (s : State) : (State.updateTick s).outside = s.outside := by simp [State.updateTick]
@[simp] theorem State.updateLost_outside [Blanked .spi] (s : State) : (State.updateLost s).outside = s.outside := by simp [State.updateLost]
@[simp] theorem State.updateAsk_outside [Blanked .host] [Blanked .spi] (s : State) : (State.updateAsk s).outside = s.outside := by simp [State.updateAsk]
@[simp] theorem State.updateGot_outside [Blanked .host] [Blanked .spi] (s : State) (at_ : Nat) (bs : List Byte) : (State.updateGot s at_ bs).outside = s.outside := by simp [State.updateGot]

/-! ### CapOps -/

@[simp] theorem State.modTel_outside [Blanked .host] (s : State) (f : TelRing → TelRing) : (State.modTel s f).outside = s.outside := by simp [State.modTel]
@[simp] theorem State.telRecord_outside [Blanked .host] (s : State) (w0 w1 w2 w3 : Nat) : (State.telRecord s w0 w1 w2 w3).outside = s.outside := by simp [State.telRecord]
@[simp] theorem State.telLose_outside [Blanked .host] (s : State) : (State.telLose s).outside = s.outside := by simp [State.telLose]
@[simp] theorem State.telPut_outside [Blanked .host] (s : State) (kind w0 w1 w2 w3 : Nat) : (State.telPut s kind w0 w1 w2 w3).outside = s.outside := by simp [State.telPut]
@[simp] theorem State.telHold_outside [Blanked .host] (s : State) (kind : Nat) (ws : List Nat) : (State.telHold s kind ws).outside = s.outside := by simp [State.telHold]
@[simp] theorem State.telHeld_outside [Blanked .host] (s : State) (kind : Nat) : (State.telHeld s kind).outside = s.outside := by simp [State.telHeld]
@[simp] theorem State.telShadow_outside [Blanked .host] (s : State) : (State.telShadow s).outside = s.outside := by simp [State.telShadow]
@[simp] theorem State.occurrenceEnd_outside [Blanked .sites] [Blanked .cap] [Blanked .hlt] (s : State) (p : Nat) : (State.occurrenceEnd s p).outside = s.outside := by
  unfold State.occurrenceEnd; repeat' first | with_reducible rfl | assumption | apply outside_foldl | intro _ | (simp; done) | split | (simp_all; done) | simp only [Stays_ok, outside_ite]
@[simp] theorem State.phase_outside [Blanked .sites] [Blanked .host] [Blanked .parts] [Blanked .cap] [Blanked .hlt] (s : State) (ctx tag : Nat) : (State.phase s ctx tag).outside = s.outside := by simp [State.phase]
@[simp] theorem State.mark_outside [Blanked .host] (s : State) (ctx id : Nat) : (State.mark s ctx id).outside = s.outside := by simp [State.mark]
@[simp] theorem State.tagClear_outside [Blanked .sites] [Blanked .parts] (s : State) (p : Nat) : (State.tagClear s p).outside = s.outside := by simp [State.tagClear]
@[simp] theorem State.profClear_outside [Blanked .cap] (s : State) (p : Nat) : (State.profClear s p).outside = s.outside := by simp [State.profClear]

/-! ### ClockOps -/

@[simp] theorem State.unbankNow_outside [Blanked .sites] (s : State) (p : Nat) : (State.unbankNow s p).outside = s.outside := by simp [State.unbankNow]
@[simp] theorem State.beginStop_outside [Blanked .sites] (s : State) (p : Nat) : (State.beginStop s p).outside = s.outside := by simp [State.beginStop]
@[simp] theorem State.beginStep_outside [Blanked .sites] (s : State) (p k : Nat) : (State.beginStep s p k).outside = s.outside := by simp [State.beginStep]
@[simp] theorem State.startWaiting_outside [Blanked .sites] (s : State) (n_ : Nat) : (State.startWaiting s n_).outside = s.outside := by
  induction n_ generalizing s with
  | zero => first | exact Eq.symm rfl | (simp [State.startWaiting]; done)
  | succ n_ ih =>
    unfold State.startWaiting; first | (simp [ih]; done) | (repeat' first | with_reducible rfl | assumption | intro _ | (simp; done) | split | (simp_all; done) | simp only [Stays_ok, outside_ite])
@[simp] theorem State.wantStep_outside [Blanked .sites] [Blanked .clk] (s : State) (p k : Nat) : (State.wantStep s p k).outside = s.outside := by simp [State.wantStep]
@[simp] theorem State.askStep_outside [Blanked .sites] [Blanked .clk] (s : State) (p k : Nat) : (State.askStep s p k).outside = s.outside := by simp [State.askStep]
@[simp] theorem State.followLimits_outside [Blanked .sites] [Blanked .clk] (s : State) : (State.followLimits s).outside = s.outside := by simp [State.followLimits]
@[simp] theorem State.endHold_outside [Blanked .sites] [Blanked .clk] (s : State) (p : Nat) : (State.endHold s p).outside = s.outside := by simp [State.endHold]
@[simp] theorem State.isolate_outside [Blanked .tiles] [Blanked .sites] [Blanked .fab] [Blanked .host] [Blanked .spi] [Blanked .hlt] (s : State) (p cause : Nat) : (State.isolate s p cause).outside = s.outside := by simp [State.isolate]
@[simp] theorem State.dipReduce_outside [Blanked .sites] [Blanked .host] [Blanked .clk] [Blanked .spi] (s : State) (p : Nat) : (State.dipReduce s p).outside = s.outside := by simp [State.dipReduce]
@[simp] theorem State.askSoft_outside [Blanked .sites] [Blanked .pwr] (s : State) (p : Nat) (why : SoftFor) : (State.askSoft s p why).outside = s.outside := by simp [State.askSoft]

/-! ### SerialOps -/

@[simp] theorem State.flushLog_outside [Blanked .spi] (s : State) : (State.flushLog s).outside = s.outside := by simp [State.flushLog]
@[simp] theorem State.writeLearned_outside [Blanked .spi] (s : State) : (State.writeLearned s).outside = s.outside := by simp [State.writeLearned]

/-! ### Power -/

@[simp] theorem State.inputAt_outside [Blanked .pwr] (s : State) (mv : Nat) : (State.inputAt s mv).outside = s.outside := by simp [State.inputAt]
theorem execInputWarn_stays [Blanked .sites] [Blanked .host] [Blanked .clk] [Blanked .pwr] [Blanked .spi] {l_ : State} (mv us_ : Nat) (s : State) (hf_ : s.outside = l_) : Stays l_ (execInputWarn mv us_ s) := by subst hf_; simp [execInputWarn]
@[simp] theorem State.stopAll_outside [Blanked .tiles] [Blanked .sites] [Blanked .host] [Blanked .pwr] [Blanked .spi] (s : State) (mv : Nat) : (State.stopAll s mv).outside = s.outside := by simp [State.stopAll]
theorem execOrderlyStop_stays [Blanked .tiles] [Blanked .sites] [Blanked .host] [Blanked .pwr] [Blanked .spi] [Blanked .hlt] {l_ : State} (mv : Nat) (s : State) (hf_ : s.outside = l_) : Stays l_ (execOrderlyStop mv s) := by subst hf_; simp [execOrderlyStop]
theorem execInputHigh_stays [Blanked .host] [Blanked .pwr] [Blanked .spi] [Blanked .hlt] {l_ : State} (mv : Nat) (s : State) (hf_ : s.outside = l_) : Stays l_ (execInputHigh mv s) := by subst hf_; simp [execInputHigh]
@[simp] theorem State.unpower_outside [h0 : Blanked .tiles] [h1 : Blanked .sites] [h2 : Blanked .fab] [h3 : Blanked .chans] [h4 : Blanked .bev] [h5 : Blanked .host] [h6 : Blanked .parts] [h7 : Blanked .rick] [h8 : Blanked .clk] [h9 : Blanked .pwr] [h10 : Blanked .cap] [h11 : Blanked .spi] [h12 : Blanked .hlt] [h13 : Blanked .ses] [h14 : Blanked .mtr] [h15 : Blanked .dbg] (s : State) (mv : Nat) : (s.unpower mv).outside = s.outside := by
  simp only [State.unpower, State.outside, outsideOf, h0.out, h1.out, h2.out, h3.out, h4.out, h5.out, h6.out, h7.out, h8.out, h9.out, h10.out, h11.out, h12.out, h13.out, h14.out, h15.out, if_true]
theorem execInputOvervoltage_stays [Blanked .tiles] [Blanked .sites] [Blanked .fab] [Blanked .chans] [Blanked .bev] [Blanked .host] [Blanked .parts] [Blanked .rick] [Blanked .clk] [Blanked .pwr] [Blanked .cap] [Blanked .spi] [Blanked .hlt] [Blanked .ses] [Blanked .mtr] [Blanked .dbg] {l_ : State} (mv : Nat) (s : State) (hf_ : s.outside = l_) : Stays l_ (execInputOvervoltage mv s) := by subst hf_; simp [execInputOvervoltage]
theorem execInputLoss_stays [Blanked .tiles] [Blanked .sites] [Blanked .fab] [Blanked .chans] [Blanked .bev] [Blanked .host] [Blanked .parts] [Blanked .rick] [Blanked .clk] [Blanked .pwr] [Blanked .cap] [Blanked .spi] [Blanked .hlt] [Blanked .ses] [Blanked .mtr] [Blanked .dbg] {l_ : State} (mv : Nat) (s : State) (hf_ : s.outside = l_) : Stays l_ (execInputLoss mv s) := by subst hf_; simp [execInputLoss]
theorem execPwrInRestored_stays [Blanked .host] [Blanked .pwr] [Blanked .spi] [Blanked .hlt] {l_ : State} (mv : Nat) (s : State) (hf_ : s.outside = l_) : Stays l_ (execPwrInRestored mv s) := by subst hf_; simp [execPwrInRestored]
@[simp] theorem State.modConv_outside [Blanked .pwr] (s : State) (g : Nat) (f : Conv → Conv) : (State.modConv s g f).outside = s.outside := by simp [State.modConv]
theorem execConverterFail_stays [Blanked .tiles] [Blanked .sites] [Blanked .fab] [Blanked .host] [Blanked .pwr] [Blanked .spi] [Blanked .hlt] {l_ : State} (g : Nat) (s : State) (hf_ : s.outside = l_) : Stays l_ (execConverterFail g s) := by subst hf_; simp [execConverterFail]
theorem execPhaseLost_stays [Blanked .tiles] [Blanked .sites] [Blanked .fab] [Blanked .host] [Blanked .spi] [Blanked .hlt] {l_ : State} (site ph : Nat) (s : State) (hf_ : s.outside = l_) : Stays l_ (execPhaseLost site ph s) := by subst hf_; unfold execPhaseLost; apply onSite_stays; intros; simp [*]
@[simp] theorem State.phasesChecked_outside [Blanked .tiles] [Blanked .sites] [Blanked .fab] [Blanked .host] [Blanked .spi] [Blanked .hlt] (s : State) (p : Nat) : (State.phasesChecked s p).outside = s.outside := by simp [State.phasesChecked]
@[simp] theorem State.railsFollow_outside [Blanked .sites] (s : State) (p : Nat) : (State.railsFollow s p).outside = s.outside := by simp [State.railsFollow]
@[simp] theorem State.siteDue_outside [Blanked .tiles] [Blanked .sites] [Blanked .fab] [Blanked .host] [Blanked .spi] [Blanked .hlt] (s : State) (p : Nat) : (State.siteDue s p).outside = s.outside := by simp [State.siteDue]
theorem execReservoirEngage_stays [Blanked .freeN] [Blanked .sites] {l_ : State} (site : Nat) (rail : Rail) (stillLow : Bool) (s : State) (hf_ : s.outside = l_) : Stays l_ (execReservoirEngage site rail stillLow s) := by subst hf_; unfold execReservoirEngage; apply onSite_stays; intros; simp [*]
theorem execFastBubbleEnd_stays [Blanked .sites] {l_ : State} (site : Nat) (s : State) (hf_ : s.outside = l_) : Stays l_ (execFastBubbleEnd site s) := by subst hf_; unfold execFastBubbleEnd; apply onSite_stays; intros; simp [*]
@[simp] theorem State.rampHold_outside [Blanked .sites] (s : State) (p ns : Nat) : (State.rampHold s p ns).outside = s.outside := by simp [State.rampHold]
theorem execRailDip_stays [Blanked .sites] [Blanked .host] [Blanked .clk] [Blanked .spi] {l_ : State} (site : Nat) (rail : Rail) (depth ns : Nat) (s : State) (hf_ : s.outside = l_) : Stays l_ (execRailDip site rail depth ns s) := by subst hf_; unfold execRailDip; apply onSite_stays; intros; simp [*]
theorem execDipLimitRise_stays [Blanked .sites] [Blanked .clk] {l_ : State} (site : Nat) (s : State) (hf_ : s.outside = l_) : Stays l_ (execDipLimitRise site s) := by subst hf_; unfold execDipLimitRise; apply onSite_stays; intros; (repeat' split) <;> simp [*]
theorem execRailReset_stays [Blanked .freeN] [Blanked .tiles] [Blanked .sites] [Blanked .fab] [Blanked .host] [Blanked .pwr] [Blanked .spi] [Blanked .hlt] {l_ : State} (site : Nat) (rail : Rail) (depth : Nat) (s : State) (hf_ : s.outside = l_) : Stays l_ (execRailReset site rail depth s) := by subst hf_; unfold execRailReset; apply onSite_stays; intros; (repeat' split) <;> simp [*]
theorem execInputSwitchOpen_stays [Blanked .tiles] [Blanked .sites] [Blanked .fab] [Blanked .host] [Blanked .spi] [Blanked .hlt] {l_ : State} (site cause : Nat) (rail : Rail) (s : State) (hf_ : s.outside = l_) : Stays l_ (execInputSwitchOpen site cause rail s) := by subst hf_; unfold execInputSwitchOpen; apply onSite_stays; intros; simp [*]
theorem execPathAnomaly_stays [Blanked .sites] [Blanked .host] [Blanked .spi] {l_ : State} (site ratio : Nat) (s : State) (hf_ : s.outside = l_) : Stays l_ (execPathAnomaly site ratio s) := by subst hf_; unfold execPathAnomaly; apply onSite_stays; intros; simp [*]
theorem siteCmd_stays [Blanked .host] [Blanked .pwr] [Blanked .spi] [Blanked .ses] {port : Nat} {code : Site → Nat} {k : State → Nat → Out} (h : ∀ u p, u.outside = s.outside → Stays s.outside (k u p)) :
    Stays s.outside (siteCmd s port code k) := by
  unfold siteCmd; apply gated0_stays; apply when_stays rfl; dsimp only; (repeat' split) <;> first | (simp; done) | exact h _ _ (by simp)
theorem execClearPath_stays [Blanked .sites] [Blanked .host] [Blanked .pwr] [Blanked .spi] [Blanked .ses] {l_ : State} (port : Nat) (s : State) (hf_ : s.outside = l_) : Stays l_ (execClearPath port s) := by subst hf_; unfold execClearPath; apply siteCmd_stays; intros; simp [*]
theorem execIsolate_stays [Blanked .tiles] [Blanked .sites] [Blanked .fab] [Blanked .host] [Blanked .pwr] [Blanked .spi] [Blanked .hlt] [Blanked .ses] {l_ : State} (port : Nat) (s : State) (hf_ : s.outside = l_) : Stays l_ (execIsolate port s) := by subst hf_; unfold execIsolate; apply siteCmd_stays; intros; simp [*]
theorem execRestore_stays [Blanked .sites] [Blanked .host] [Blanked .pwr] [Blanked .spi] [Blanked .ses] {l_ : State} (port : Nat) (s : State) (hf_ : s.outside = l_) : Stays l_ (execRestore port s) := by subst hf_; unfold execRestore; apply siteCmd_stays; intros; simp [*]
theorem execPathBaselineFrozen_stays [Blanked .sites] [Blanked .spi] {l_ : State} (site base : Nat) (s : State) (hf_ : s.outside = l_) : Stays l_ (execPathBaselineFrozen site base s) := by subst hf_; unfold execPathBaselineFrozen; apply onSite_stays; intros; simp [*]
theorem execSoftStart_stays [Blanked .sites] {l_ : State} (site : Nat) (s : State) (hf_ : s.outside = l_) : Stays l_ (execSoftStart site s) := by subst hf_; unfold execSoftStart; apply onSite_stays; intros; simp [*]
theorem execSoftStartDone_stays [Blanked .tiles] [Blanked .sites] [Blanked .host] [Blanked .pwr] [Blanked .spi] [Blanked .hlt] {l_ : State} (site : Nat) (s : State) (hf_ : s.outside = l_) : Stays l_ (execSoftStartDone site s) := by subst hf_; unfold execSoftStartDone; apply onSite_stays; intros; simp [*]
theorem execSoftStartAbandon_stays [Blanked .sites] [Blanked .host] [Blanked .spi] {l_ : State} (site : Nat) (s : State) (hf_ : s.outside = l_) : Stays l_ (execSoftStartAbandon site s) := by subst hf_; unfold execSoftStartAbandon; apply onSite_stays; intros; simp [*]
theorem execSoftStartRetry_stays [Blanked .sites] [Blanked .pwr] {l_ : State} (site : Nat) (s : State) (hf_ : s.outside = l_) : Stays l_ (execSoftStartRetry site s) := by subst hf_; unfold execSoftStartRetry; apply onSite_stays; intros; simp [*]

/-! ### Findings -/

@[simp] theorem State.zeroTile_outside [Blanked .freeN] [Blanked .tiles] [Blanked .host] [Blanked .spi] [Blanked .hlt] (s : State) (t : Nat) : (State.zeroTile s t).outside = s.outside := by simp [State.zeroTile]
@[simp] theorem State.tileEntry_outside [Blanked .tiles] [Blanked .spi] [Blanked .hlt] (s : State) (t cause : Nat) (selfTest : Bool) : (State.tileEntry s t cause selfTest).outside = s.outside := by simp [State.tileEntry]
@[simp] theorem State.holeTile_outside [Blanked .tiles] [Blanked .host] [Blanked .spi] (s : State) (t : Nat) : (State.holeTile s t).outside = s.outside := by simp [State.holeTile]
@[simp] theorem State.fencedOrHole_outside [Blanked .tiles] [Blanked .host] [Blanked .spi] (s : State) (t : Nat) : (State.fencedOrHole s t).outside = s.outside := by simp [State.fencedOrHole]
@[simp] theorem State.retireTile_outside [Blanked .tiles] [Blanked .host] [Blanked .spi] [Blanked .hlt] (s : State) (t cause : Nat) (selfTest : Bool) : (State.retireTile s t cause selfTest).outside = s.outside := by simp [State.retireTile]
@[simp] theorem State.rowSpent_outside [Blanked .tiles] [Blanked .host] [Blanked .spi] (s : State) (p tr : Nat) : (State.rowSpent s p tr).outside = s.outside := by simp [State.rowSpent]
@[simp] theorem State.linkBad_outside [Blanked .fab] (s : State) (l : LinkId) : (State.linkBad s l).outside = s.outside := by simp [State.linkBad]
@[simp] theorem State.foundBad_outside [Blanked .tiles] [Blanked .fab] [Blanked .host] [Blanked .spi] [Blanked .hlt] (s : State) (cause : Nat) (u : BadUnit) : (State.foundBad s cause u).outside = s.outside := by
  unfold State.foundBad; repeat' first | with_reducible rfl | assumption | apply outside_foldl | intro _ | (simp; done) | split | (simp_all; done) | simp only [Stays_ok, outside_ite]
@[simp] theorem State.foundSuspect_outside [Blanked .tiles] [Blanked .spi] (s : State) (u : BadUnit) : (State.foundSuspect s u).outside = s.outside := by
  unfold State.foundSuspect; repeat' first | with_reducible rfl | assumption | intro _ | (simp; done) | split | (simp_all; done) | simp only [Stays_ok, outside_ite]
@[simp] theorem State.disagree_outside [Blanked .spi] (s : State) (judged : BadUnit → Bool) (found : List BadUnit) : (State.disagree s judged found).outside = s.outside := by simp [State.disagree]
@[simp] theorem State.learnRemap_outside [Blanked .spi] (s : State) : (State.learnRemap s).outside = s.outside := by
  have h (l : List (List W64)) : ∀ a : State × Nat, (l.foldl (fun (a : State × Nat) w => (a.1.learn 6 (remapHead a.2 :: w), a.2 + 1)) a).1.outside = a.1.outside := by
    induction l with
    | nil => intro a; rfl
    | cons w l ih => intro a; rw [List.foldl_cons, ih]; simp
  exact h _ _
@[simp] theorem State.tagTests_outside [Blanked .hlt] (s : State) (sites : List Nat) (found suspects : List BadUnit) : (State.tagTests s sites found suspects).outside = s.outside := by simp [State.tagTests]
@[simp] theorem State.findings_outside [Blanked .tiles] [Blanked .fab] [Blanked .host] [Blanked .spi] [Blanked .hlt] (s : State) (cause : Nat) (sites : List Nat) (links : Bool) (found suspects : List BadUnit) : (State.findings s cause sites links found suspects).outside = s.outside := by simp [State.findings]

/-! ### RickOps -/

@[simp] theorem State.casSend_outside [Blanked .rick] (s : State) (n : Nat) (p : Packet) : (State.casSend s n p).outside = s.outside := by simp [State.casSend]
@[simp] theorem State.casLeave_outside [Blanked .sites] [Blanked .fab] [Blanked .host] [Blanked .rick] [Blanked .spi] (s : State) (i : Nat) (f : Flight) (e : Nat) : (State.casLeave s i f e).outside = s.outside := by
  unfold State.casLeave; repeat' first | with_reducible rfl | assumption | intro _ | (simp; done) | split | (simp_all; done) | simp only [Stays_ok, outside_ite]
@[simp] theorem State.casArrive_outside [Blanked .sites] [Blanked .fab] [Blanked .host] [Blanked .spi] (s : State) (n : Nat) (p : Packet) : (State.casArrive s n p).outside = s.outside := by unfold State.casArrive; (repeat' split) <;> simp
@[simp] theorem State.casFlit_outside [Blanked .sites] [Blanked .fab] [Blanked .host] [Blanked .rick] [Blanked .spi] (s : State) (n : Nat) (x : CwSlot) : (s.casFlit n x).outside = s.outside := by
  unfold State.casFlit; split
  · rfl
  · dsimp only; (repeat' split) <;> simp

/-! ### Fabric -/

@[simp] theorem State.writeTile_outside [Blanked .freeN] [Blanked .tiles] [Blanked .fab] [Blanked .host] [Blanked .spi] [Blanked .hlt] (s : State) (i : Nat) (f : Flight) (t : Nat) : (State.writeTile s i f t).outside = s.outside := by
  unfold State.writeTile; repeat' first | with_reducible rfl | assumption | intro _ | (simp; done) | split | (simp_all; done) | simp only [Stays_ok, outside_ite]
@[simp] theorem writeAt_stays [Blanked .freeN] [Blanked .tiles] [Blanked .sites] [Blanked .fab] [Blanked .host] [Blanked .spi] [Blanked .hlt] {l_ : State} (i kind : Nat) (s : State) (hf_ : s.outside = l_) : Stays l_ (writeAt i kind s) := by
  subst hf_; unfold writeAt; apply onFlight_stays; intro f; split
  · split
    · exact atTile_stays fun u hu => by simp [hu]
    · simp
  · simp
theorem execWrite_stays [Blanked .freeN] [Blanked .tiles] [Blanked .sites] [Blanked .fab] [Blanked .host] [Blanked .spi] [Blanked .hlt] {l_ : State} (i : Nat) (s : State) (hf_ : s.outside = l_) : Stays l_ (execWrite i s) := writeAt_stays _ _ s hf_
theorem execListAppend_stays [Blanked .freeN] [Blanked .tiles] [Blanked .sites] [Blanked .fab] [Blanked .host] [Blanked .spi] [Blanked .hlt] {l_ : State} (i : Nat) (s : State) (hf_ : s.outside = l_) : Stays l_ (execListAppend i s) := writeAt_stays _ _ s hf_
theorem execListClose_stays [Blanked .freeN] [Blanked .tiles] [Blanked .sites] [Blanked .fab] [Blanked .host] [Blanked .spi] [Blanked .hlt] {l_ : State} (i : Nat) (s : State) (hf_ : s.outside = l_) : Stays l_ (execListClose i s) := writeAt_stays _ _ s hf_
theorem execListArm_stays [Blanked .freeN] [Blanked .tiles] [Blanked .sites] [Blanked .fab] [Blanked .host] [Blanked .spi] [Blanked .hlt] {l_ : State} (i : Nat) (s : State) (hf_ : s.outside = l_) : Stays l_ (execListArm i s) := writeAt_stays _ _ s hf_
theorem execCnt_stays [Blanked .freeN] [Blanked .tiles] [Blanked .sites] [Blanked .fab] [Blanked .host] [Blanked .spi] {l_ : State} (i : Nat) (s : State) (hf_ : s.outside = l_) : Stays l_ (execCnt i s) := by
  subst hf_; unfold execCnt; repeat' first | with_reducible rfl | assumption | apply onFlight_stays | apply atTile_stays | intro _ | (simp; done) | split | (simp_all; done) | simp only [Stays_ok, outside_ite]
@[simp] theorem State.readTile_outside [Blanked .tiles] [Blanked .fab] [Blanked .host] [Blanked .spi] [Blanked .hlt] (s : State) (i : Nat) (f : Flight) (t : Nat) (joins : Bool) : (State.readTile s i f t joins).outside = s.outside := by
  unfold State.readTile; repeat' first | with_reducible rfl | assumption | intro _ | (simp; done) | split | (simp_all; done) | simp only [Stays_ok, outside_ite]
theorem atControl_stays [Blanked .freeN] [Blanked .sites] [Blanked .fab] [Blanked .host] {i S : Nat} {f : Flight} {k : Nat → State → Out} (h : ∀ p u, u.outside = s.outside → Stays s.outside (k p u)) : Stays s.outside (atControl s i f S k) := by
  unfold atControl; (try dsimp only); (repeat' split) <;> first | (simp; done) | (refine h _ _ ?_; simp)
theorem atEdge_stays [Blanked .freeN] [Blanked .fab] [Blanked .host] {i e : Nat} {f : Flight} {k : State → Out} (h : ∀ u, u.outside = s.outside → Stays s.outside (k u)) : Stays s.outside (atEdge s i f e k) := by
  unfold atEdge; (try dsimp only); (repeat' split) <;> first | (simp; done) | (refine h _ ?_; simp)
@[simp] theorem State.readEdge_outside [Blanked .freeN] [Blanked .tiles] [Blanked .sites] [Blanked .fab] [Blanked .chans] [Blanked .host] [Blanked .spi] (s : State) (i : Nat) (f : Flight) (e : Nat) : (State.readEdge s i f e).outside = s.outside := by
  unfold State.readEdge; dsimp only
  generalize (if f.fill.isSome = true then s.fillHit e f.pkt else s.edgeHit e f.pkt) = h
  cases h <;> dsimp only <;> (try split) <;> (try simp; done)
  split <;> simp
theorem execRead_stays [Blanked .freeN] [Blanked .tiles] [Blanked .sites] [Blanked .fab] [Blanked .chans] [Blanked .host] [Blanked .spi] [Blanked .hlt] {l_ : State} (i : Nat) (joins : Bool) (s : State) (hf_ : s.outside = l_) : Stays l_ (execRead i joins s) := by
  subst hf_; unfold execRead; apply onFlight_stays; intro f; split
  · simp
  · split
    · exact atTile_stays fun u hu => by simp [hu]
    · exact atControl_stays fun p u hu => by dsimp only; split <;> simp [hu]
    · exact atEdge_stays fun u hu => by simp [hu]
    · simp
@[simp] theorem State.writeControl_outside [Blanked .sites] [Blanked .fab] [Blanked .host] [Blanked .spi] [Blanked .hlt] (s : State) (i : Nat) (f : Flight) (p : Nat) : (State.writeControl s i f p).outside = s.outside := by
  unfold State.writeControl; repeat' first | with_reducible rfl | assumption | intro _ | (simp; done) | split | (simp_all; done) | simp only [Stays_ok, outside_ite]
@[simp] theorem State.writeEdge_outside [Blanked .freeN] [Blanked .sites] [Blanked .fab] [Blanked .chans] [Blanked .host] [Blanked .spi] (s : State) (i : Nat) (f : Flight) (e : Nat) : (State.writeEdge s i f e).outside = s.outside := by
  unfold State.writeEdge; repeat' first | with_reducible rfl | assumption | apply outside_foldl | intro _ | (simp; done) | split | (simp_all; done) | simp only [Stays_ok, outside_ite]
theorem execWriteToOwner_stays [Blanked .freeN] [Blanked .sites] [Blanked .fab] [Blanked .chans] [Blanked .host] [Blanked .spi] [Blanked .hlt] {l_ : State} (i : Nat) (s : State) (hf_ : s.outside = l_) : Stays l_ (execWriteToOwner i s) := by
  subst hf_; unfold execWriteToOwner; apply onFlight_stays; intro f; split
  · simp
  · split
    · exact atControl_stays fun p u hu => by simp [hu]
    · exact atEdge_stays fun u hu => by simp [hu]
    · simp
theorem respAtTile_stays [Blanked .sites] [Blanked .fab] {i t : Nat} {f : Flight} {k : State → Out} (h : ∀ u, u.outside = s.outside → Stays s.outside (k u)) : Stays s.outside (respAtTile s i f t k) := by
  unfold respAtTile; (try dsimp only); (repeat' split) <;> first | (simp; done) | (refine h _ ?_; simp)
@[simp] theorem State.landLocal_outside [Blanked .freeN] [Blanked .tiles] [Blanked .host] [Blanked .spi] [Blanked .hlt] (s : State) (t a : Nat) (bs : List Byte) : (State.landLocal s t a bs).outside = s.outside := by simp [State.landLocal]
@[simp] theorem State.rdataTile_outside [Blanked .freeN] [Blanked .tiles] [Blanked .sites] [Blanked .fab] [Blanked .host] [Blanked .spi] [Blanked .hlt] (s : State) (t : Nat) (p : Packet) : (State.rdataTile s t p).outside = s.outside := by unfold State.rdataTile; split <;> simp
theorem execRdata_stays [Blanked .freeN] [Blanked .tiles] [Blanked .sites] [Blanked .fab] [Blanked .host] [Blanked .spi] [Blanked .hlt] [Blanked .dbg] {l_ : State} (i : Nat) (s : State) (hf_ : s.outside = l_) : Stays l_ (execRdata i s) := by
  subst hf_; unfold execRdata; repeat' first | with_reducible rfl | assumption | apply onFlight_stays | apply respAtTile_stays | intro _ | (simp; done) | split | (simp_all; done) | simp only [Stays_ok, outside_ite]
theorem execRerr_stays [Blanked .tiles] [Blanked .sites] [Blanked .fab] [Blanked .host] [Blanked .spi] [Blanked .dbg] {l_ : State} (i : Nat) (s : State) (hf_ : s.outside = l_) : Stays l_ (execRerr i s) := by
  subst hf_; unfold execRerr; repeat' first | with_reducible rfl | assumption | apply onFlight_stays | apply respAtTile_stays | intro _ | (simp; done) | split | (simp_all; done) | simp only [Stays_ok, outside_ite]
theorem execWack_stays [Blanked .freeN] [Blanked .tiles] [Blanked .sites] [Blanked .fab] [Blanked .host] [Blanked .spi] [Blanked .dbg] {l_ : State} (i : Nat) (s : State) (hf_ : s.outside = l_) : Stays l_ (execWack i s) := by
  subst hf_; unfold execWack; repeat' first | with_reducible rfl | assumption | apply onFlight_stays | apply respAtTile_stays | intro _ | (simp; done) | split | (simp_all; done) | simp only [Stays_ok, outside_ite]
@[simp] theorem State.hopNoRoute_outside [Blanked .sites] [Blanked .fab] [Blanked .host] [Blanked .spi] (s : State) (i : Nat) (f : Flight) (p : Nat) (at_ : Place) : (State.hopNoRoute s i f p at_).outside = s.outside := by simp [State.hopNoRoute]
@[simp] theorem State.hopDark_outside [Blanked .sites] [Blanked .fab] [Blanked .host] [Blanked .spi] (s : State) (i : Nat) (f : Flight) (p : Nat) (at_ : Place) : (State.hopDark s i f p at_).outside = s.outside := by simp [State.hopDark]
@[simp] theorem State.mayswitch_outside [Blanked .freeN] [Blanked .sites] (s : State) (p : Nat) : (State.mayswitch s p).outside = s.outside := by simp [State.mayswitch]
@[simp] theorem State.hopMove_outside [Blanked .freeN] [Blanked .sites] [Blanked .fab] [Blanked .host] [Blanked .spi] (s : State) (i : Nat) (f : Flight) (p row pos : Nat) (starved : Bool) : (State.hopMove s i f p row pos starved).outside = s.outside := by
  unfold State.hopMove; repeat' first | with_reducible rfl | assumption | intro _ | (simp; done) | split | (simp_all; done) | simp only [Stays_ok, outside_ite]
@[simp] theorem State.edgeEnter_outside [Blanked .sites] [Blanked .fab] [Blanked .host] [Blanked .spi] (s : State) (i : Nat) (f : Flight) (e : Nat) : (State.edgeEnter s i f e).outside = s.outside := by unfold State.edgeEnter; (repeat' split) <;> simp
theorem execRouterHop_stays [Blanked .freeN] [Blanked .tiles] [Blanked .sites] [Blanked .fab] [Blanked .host] [Blanked .rick] [Blanked .spi] [Blanked .hlt] {l_ : State} (i : Nat) (env : HopEnv) (s : State) (hf_ : s.outside = l_) : Stays l_ (execRouterHop i env s) := by
  subst hf_; unfold execRouterHop; repeat' first | with_reducible rfl | assumption | apply onFlight_stays | intro _ | (simp; done) | split | (simp_all; done) | simp only [Stays_ok, outside_ite]
theorem execRouteEntryRewrite_stays [Blanked .sites] [Blanked .host] [Blanked .spi] {l_ : State} (p idx : Nat) (s : State) (hf_ : s.outside = l_) : Stays l_ (execRouteEntryRewrite p idx s) := by subst hf_; unfold execRouteEntryRewrite; apply onSite_stays; intros; simp [*]
@[simp] theorem State.linkRec_outside [Blanked .fab] (s : State) (r : LinkRec) : (State.linkRec s r).outside = s.outside := by simp [State.linkRec]
@[simp] theorem State.doubtful_outside [Blanked .freeN] [Blanked .fab] (s : State) (l : LinkId) (ds : List (Nat × Crossed)) : (s.doubtful l ds).outside = s.outside := by
  induction ds with
  | nil => rfl
  | cons x r ih => unfold State.doubtful; dsimp only; (repeat' split) <;> simp [ih]
@[simp] theorem State.linkFails_outside [Blanked .freeN] [Blanked .fab] [Blanked .host] [Blanked .spi] (s : State) (l : LinkId) (i k : Nat) (named : List Nat) : (State.linkFails s l i k named).outside = s.outside := by simp [State.linkFails]
theorem execFlitRefused_stays [Blanked .freeN] [Blanked .fab] [Blanked .host] [Blanked .spi] {l_ : State} (l : LinkId) (a : FlitArrival) (s : State) (hf_ : s.outside = l_) : Stays l_ (execFlitRefused l a s) := by subst hf_; unfold execFlitRefused; apply onFlight_stays; intros; simp [*]
@[simp] theorem State.spares_outside [Blanked .fab] (s : State) (l : LinkId) (fails : List Nat) : (State.spares s l fails).outside = s.outside := by simp [State.spares]
theorem execLinkUp_stays [Blanked .fab] [Blanked .host] [Blanked .spi] {l_ : State} (x : LinkTraining) (s : State) (hf_ : s.outside = l_) : Stays l_ (execLinkUp x s) := by subst hf_; simp [execLinkUp]
theorem execSeamRetrain_stays [Blanked .fab] {l_ : State} (l : LinkId) (fails : List Nat) (s : State) (hf_ : s.outside = l_) : Stays l_ (execSeamRetrain l fails s) := by subst hf_; simp [execSeamRetrain]
theorem execTrackerTimeout_stays [Blanked .tiles] {l_ : State} (t k : Nat) (s : State) (hf_ : s.outside = l_) : Stays l_ (execTrackerTimeout t k s) := by subst hf_; unfold execTrackerTimeout; apply onTile_stays; intros; simp [*]
theorem execTrackerReuse_stays [Blanked .tiles] [Blanked .sites] [Blanked .fab] [Blanked .host] [Blanked .spi] {l_ : State} (t k : Nat) (s : State) (hf_ : s.outside = l_) : Stays l_ (execTrackerReuse t k s) := by subst hf_; unfold execTrackerReuse; apply onTile_stays; intros; simp [*]
theorem execBaseDieFault_stays [Blanked .tiles] [Blanked .sites] [Blanked .fab] [Blanked .host] [Blanked .spi] [Blanked .hlt] {l_ : State} (p : Nat) (s : State) (hf_ : s.outside = l_) : Stays l_ (execBaseDieFault p s) := by subst hf_; unfold execBaseDieFault; apply onSite_stays; intros; simp [*]
@[simp] theorem State.newTables_outside [Blanked .fab] (s : State) : (State.newTables s).outside = s.outside := by simp [State.newTables]
@[simp] theorem State.tablesIn_outside [Blanked .sites] [Blanked .parts] (s : State) : (State.tablesIn s).outside = s.outside := by simp [State.tablesIn]
@[simp] theorem State.publishRoutes_outside [Blanked .sites] [Blanked .fab] [Blanked .parts] (s : State) : (State.publishRoutes s).outside = s.outside := by simp [State.publishRoutes]
@[simp] theorem State.svcSend_outside [Blanked .freeN] [Blanked .fab] (s : State) : (State.svcSend s).outside = s.outside := by simp [State.svcSend]
theorem execRepublish_stays [Blanked .freeN] [Blanked .fab] [Blanked .host] [Blanked .spi] [Blanked .hlt] [Blanked .ses] {l_ : State} (port : Nat) (s : State) (hf_ : s.outside = l_) : Stays l_ (execRepublish port s) := by subst hf_; unfold execRepublish; apply hltGate_stays; intros; simp [*]
theorem execRepublishDone_stays [Blanked .sites] [Blanked .fab] [Blanked .host] [Blanked .parts] [Blanked .spi] [Blanked .hlt] {l_ : State} (s : State) (hf_ : s.outside = l_) : Stays l_ (execRepublishDone s) := by subst hf_; unfold execRepublishDone; (repeat' split) <;> simp

/-! ### BringUp -/

@[simp] theorem State.bootFound_outside [Blanked .spi] [Blanked .hlt] (s : State) (u : BadUnit) : (State.bootFound s u).outside = s.outside := by simp [State.bootFound]
@[simp] theorem State.kindle_outside [Blanked .tiles] [Blanked .sites] [Blanked .clk] [Blanked .hlt] (s : State) (env : BringUpEnv) : (State.kindle s env).outside = s.outside := by simp [State.kindle]
@[simp] theorem State.trainChannel_outside [Blanked .chans] [Blanked .spi] (s : State) (modules : List Dimm) (ch : Nat) : (State.trainChannel s modules ch).outside = s.outside := by unfold State.trainChannel; split <;> simp
@[simp] theorem State.portsDetect_outside [Blanked .host] (s : State) : (State.portsDetect s).outside = s.outside := by simp [State.portsDetect]
@[simp] theorem State.recovery_outside [Blanked .host] [Blanked .spi] (s : State) (cause : Nat) : (State.recovery s cause).outside = s.outside := by simp [State.recovery]
@[simp] theorem State.bootFails_outside [h0 : Blanked .tiles] [h1 : Blanked .sites] [h2 : Blanked .spi] [h3 : Blanked .hlt] [h4 : Blanked .pwr] [h5 : Blanked .host] (s : State) (cause stage : Nat) : (s.bootFails cause stage).outside = s.outside := by
  unfold State.bootFails; dsimp only; rw [State.bootLog_outside, State.portsDetect_outside, State.modSpi_outside, State.modPwr_outside]
  simp only [State.outside, outsideOf, h0.out, h1.out, h2.out, h3.out, if_true]
@[simp] theorem State.bootSettings_outside [Blanked .bev] [Blanked .host] [Blanked .rick] [Blanked .cap] [Blanked .spi] [Blanked .hlt] [Blanked .ses] (s : State) (env : BringUpEnv) (svb : SvSt) (byB : Bool) : (State.bootSettings s env svb byB).outside = s.outside := by
  unfold State.bootSettings; extract_lets best fields s1 s2 s3 s4 s5 s6 s7 s8 s9 s10
  have h1 : s1.outside = s.outside := by simp [s1]
  have h2 : s2.outside = s.outside := by simp [s2, h1]
  have h3 : s3.outside = s.outside := (State.bevOf_outside s2 _ _).trans h2
  have h4 : s4.outside = s.outside := by simp [s4, h3]
  have h5 : s5.outside = s.outside := by simp [s5, h4]
  have h6 : s6.outside = s.outside := by simp [s6, h5]
  have h7 : s7.outside = s.outside := by simp [s7, h6]
  have h8 : s8.outside = s.outside := by simp [s8, h7]
  have h9 : s9.outside = s.outside := by simp only [s9]; split <;> simp [h8]
  have h10 : s10.outside = s.outside := by simp only [s10]; split <;> simp [h9]
  split <;> simp [h10]
@[simp] theorem State.trainLinks_outside [Blanked .fab] (s : State) (wires : List (LinkId × List Nat)) : (State.trainLinks s wires).outside = s.outside := by simp [State.trainLinks]
@[simp] theorem State.bootPanel_outside [Blanked .tiles] [Blanked .sites] [Blanked .fab] [Blanked .chans] [Blanked .host] [Blanked .parts] [Blanked .clk] [Blanked .pwr] [Blanked .spi] [Blanked .hlt] (s : State) (env : BringUpEnv) : (State.bootPanel s env).outside = s.outside := by unfold State.bootPanel; split <;> simp
@[simp] theorem State.svUnsettled_outside [Blanked .hlt] (s : State) : (State.svUnsettled s).outside = s.outside := by simp [State.svUnsettled]
@[simp] theorem State.bootFrom_outside [Blanked .tiles] [Blanked .sites] [Blanked .fab] [Blanked .chans] [Blanked .bev] [Blanked .host] [Blanked .parts] [Blanked .rick] [Blanked .clk] [Blanked .pwr] [Blanked .cap] [Blanked .spi] [Blanked .hlt] [Blanked .ses] (s : State) (env : BringUpEnv) (byB : Bool) : (State.bootFrom s env byB).outside = s.outside := by simp [State.bootFrom]
@[simp] theorem State.bringUp_outside [Blanked .tiles] [Blanked .sites] [Blanked .fab] [Blanked .chans] [Blanked .bev] [Blanked .host] [Blanked .parts] [Blanked .rick] [Blanked .clk] [Blanked .pwr] [Blanked .cap] [Blanked .spi] [Blanked .hlt] [Blanked .ses] (s : State) (env : BringUpEnv) : (State.bringUp s env).outside = s.outside := by simp [State.bringUp]
theorem execColdPowerOn_stays [Blanked .time] [Blanked .tiles] [Blanked .sites] [Blanked .fab] [Blanked .chans] [Blanked .bev] [Blanked .host] [Blanked .parts] [Blanked .rick] [Blanked .clk] [Blanked .pwr] [Blanked .cap] [Blanked .spi] [Blanked .hlt] [Blanked .ses] [Blanked .mtr] [Blanked .dbg] {l_ : State} (env : BringUpEnv) (s : State) (hf_ : s.outside = l_) : Stays l_ (execColdPowerOn env s) := by subst hf_; simp [execColdPowerOn]
theorem execSvBTakeover_stays [Blanked .tiles] [Blanked .sites] [Blanked .fab] [Blanked .chans] [Blanked .bev] [Blanked .host] [Blanked .parts] [Blanked .rick] [Blanked .clk] [Blanked .pwr] [Blanked .cap] [Blanked .spi] [Blanked .hlt] [Blanked .ses] {l_ : State} (s : State) (hf_ : s.outside = l_) : Stays l_ (execSvBTakeover s) := by subst hf_; unfold execSvBTakeover; (repeat' split) <;> simp
@[simp] theorem State.bootTick_outside [Blanked .spi] (s : State) : (State.bootTick s).outside = s.outside := by simp [State.bootTick]
theorem execReady_stays [Blanked .host] [Blanked .spi] [Blanked .hlt] {l_ : State} (s : State) (hf_ : s.outside = l_) : Stays l_ (execReady s) := by subst hf_; simp [execReady]
@[simp] theorem State.spiRefuse_outside [Blanked .spi] (s : State) (cmd ecode : Nat) : (State.spiRefuse s cmd ecode).outside = s.outside := by simp [State.spiRefuse]
theorem spiCmd_stays [Blanked .host] [Blanked .spi] [Blanked .ses] {port cmd : Nat} {free : Bool} {k : State → Out} (h : ∀ u, u.outside = s.outside → Stays s.outside (k u)) : Stays s.outside (spiCmd s port cmd free k) := by
  unfold spiCmd; (repeat' split) <;> first | (simp; done) | exact h _ (by simp)
theorem execPanelReset_stays [Blanked .time] [Blanked .tiles] [Blanked .sites] [Blanked .fab] [Blanked .chans] [Blanked .bev] [Blanked .host] [Blanked .parts] [Blanked .rick] [Blanked .clk] [Blanked .pwr] [Blanked .cap] [Blanked .spi] [Blanked .hlt] [Blanked .ses] [Blanked .mtr] [Blanked .dbg] {l_ : State} (port : Nat) (env : BringUpEnv) (s : State) (hf_ : s.outside = l_) : Stays l_ (execPanelReset port env s) := by subst hf_; unfold execPanelReset; apply spiCmd_stays; intros; simp [*]
theorem execSettingsCommit_stays [Blanked .host] [Blanked .spi] [Blanked .ses] {l_ : State} (port : Nat) (s : State) (hf_ : s.outside = l_) : Stays l_ (execSettingsCommit port s) := by
  subst hf_; unfold execSettingsCommit; repeat' first | with_reducible rfl | assumption | apply spiCmd_stays | intro _ | (simp; done) | split | (simp_all; done) | simp only [Stays_ok, outside_ite]
theorem execSettingsCommitDone_stays [Blanked .freeN] [Blanked .spi] {l_ : State} (s : State) (hf_ : s.outside = l_) : Stays l_ (execSettingsCommitDone s) := by subst hf_; unfold execSettingsCommitDone; (repeat' split) <;> simp
theorem execUpdate_stays [Blanked .host] [Blanked .spi] [Blanked .ses] {l_ : State} (port : Nat) (s : State) (hf_ : s.outside = l_) : Stays l_ (execUpdate port s) := by
  subst hf_; unfold execUpdate; refine spiCmd_stays fun u hu => ?_; split <;> simp [hu]
theorem execUpdateDone_stays [Blanked .time] [Blanked .tiles] [Blanked .sites] [Blanked .fab] [Blanked .chans] [Blanked .bev] [Blanked .host] [Blanked .parts] [Blanked .rick] [Blanked .clk] [Blanked .pwr] [Blanked .cap] [Blanked .spi] [Blanked .hlt] [Blanked .ses] [Blanked .mtr] [Blanked .dbg] {l_ : State} (x : UpdateEnd) (s : State) (hf_ : s.outside = l_) : Stays l_ (execUpdateDone x s) := by
  subst hf_; unfold execUpdateDone; repeat' first | with_reducible rfl | assumption | intro _ | (simp; done) | split | (simp_all; done) | simp only [Stays_ok, outside_ite]
theorem execLearnedAppend_stays [Blanked .spi] {l_ : State} (s : State) (hf_ : s.outside = l_) : Stays l_ (execLearnedAppend s) := by subst hf_; simp [execLearnedAppend]
theorem execLogFlush_stays [Blanked .spi] {l_ : State} (s : State) (hf_ : s.outside = l_) : Stays l_ (execLogFlush s) := by subst hf_; simp [execLogFlush]
theorem execSiteRejoin_stays [Blanked .sites] [Blanked .pwr] {l_ : State} (site : Nat) (s : State) (hf_ : s.outside = l_) : Stays l_ (execSiteRejoin site s) := by subst hf_; unfold execSiteRejoin; apply onSite_stays; intros; simp [*]
theorem execSiteRejoined_stays [Blanked .tiles] [Blanked .sites] [Blanked .fab] [Blanked .host] [Blanked .spi] [Blanked .hlt] {l_ : State} (site : Nat) (found suspects : List BadUnit) (wires : List (LinkId × List Nat)) (s : State) (hf_ : s.outside = l_) : Stays l_ (execSiteRejoined site found suspects wires s) := by subst hf_; unfold execSiteRejoined; apply onSite_stays; intros; simp [*]

/-! ### Health -/

@[simp] theorem State.beginRetest_outside [Blanked .tiles] (s : State) (t why : Nat) : (State.beginRetest s t why).outside = s.outside := by simp [State.beginRetest]
@[simp] theorem State.sliceFails_outside [Blanked .tiles] [Blanked .host] [Blanked .spi] (s : State) (t : Nat) : (State.sliceFails s t).outside = s.outside := by simp [State.sliceFails]
theorem execSelfTestSlice_stays [Blanked .tiles] [Blanked .host] [Blanked .spi] [Blanked .hlt] {l_ : State} (t : Nat) (passed : Bool) (s : State) (hf_ : s.outside = l_) : Stays l_ (execSelfTestSlice t passed s) := by subst hf_; unfold execSelfTestSlice; apply onTile_stays; intros; simp [*]
@[simp] theorem State.dueDone_outside [Blanked .tiles] [Blanked .host] [Blanked .spi] (s : State) (t : Nat) : (State.dueDone s t).outside = s.outside := by simp [State.dueDone]
@[simp] theorem State.tileHour_outside [Blanked .tiles] [Blanked .host] [Blanked .spi] [Blanked .hlt] (s : State) (t : Nat) : (State.tileHour s t).outside = s.outside := by simp [State.tileHour]
theorem execHealthHourly_stays [Blanked .tiles] [Blanked .host] [Blanked .spi] [Blanked .hlt] {l_ : State} (s : State) (hf_ : s.outside = l_) : Stays l_ (execHealthHourly s) := by subst hf_; simp [execHealthHourly]
@[simp] theorem State.tileReturns_outside [Blanked .tiles] (s : State) (t : Nat) : (State.tileReturns s t).outside = s.outside := by simp [State.tileReturns]
@[simp] theorem State.retestPass_outside [Blanked .host] [Blanked .spi] (s : State) (t : Nat) : (State.retestPass s t).outside = s.outside := by simp [State.retestPass]
@[simp] theorem State.cmdEnds_outside [Blanked .hlt] (s : State) (codes : List Nat) (x : Nat) : (State.cmdEnds s codes x).outside = s.outside := by unfold State.cmdEnds; split <;> simp
@[simp] theorem State.spareTested_outside [Blanked .spi] [Blanked .hlt] (s : State) (row : Nat) (passed : Bool) : (State.spareTested s row passed).outside = s.outside := by simp [State.spareTested]
@[simp] theorem State.sliceCleared_outside [Blanked .sites] [Blanked .host] [Blanked .clk] [Blanked .spi] (s : State) (t : Nat) : (State.sliceCleared s t).outside = s.outside := by simp [State.sliceCleared]
theorem execConfirmingRetestDone_stays [Blanked .freeN] [Blanked .tiles] [Blanked .sites] [Blanked .host] [Blanked .clk] [Blanked .spi] [Blanked .hlt] {l_ : State} (t : Nat) (passed : Bool) (s : State) (hf_ : s.outside = l_) : Stays l_ (execConfirmingRetestDone t passed s) := by
  subst hf_; unfold execConfirmingRetestDone; repeat' first | with_reducible rfl | assumption | apply onTile_stays | intro _ | (simp; done) | split | (simp_all; done) | simp only [Stays_ok, outside_ite]
@[simp] theorem State.hltRefuse_outside [Blanked .hlt] (s : State) (c : Nat) : (State.hltRefuse s c).outside = s.outside := by simp [State.hltRefuse]
@[simp] theorem State.hltRun_outside [Blanked .hlt] (s : State) (cmd x : Nat) : (State.hltRun s cmd x).outside = s.outside := by simp [State.hltRun]
theorem execRemap_stays [Blanked .sites] [Blanked .host] [Blanked .spi] [Blanked .hlt] [Blanked .ses] {l_ : State} (port : Nat) (v : W32) (s : State) (hf_ : s.outside = l_) : Stays l_ (execRemap port v s) := by subst hf_; unfold execRemap; apply hltGate_stays; intros; simp [*]
theorem execTileRemapStopEnd_stays [Blanked .freeN] [Blanked .tiles] [Blanked .sites] [Blanked .host] [Blanked .spi] [Blanked .hlt] {l_ : State} (site : Nat) (s : State) (hf_ : s.outside = l_) : Stays l_ (execTileRemapStopEnd site s) := by subst hf_; unfold execTileRemapStopEnd; apply onSite_stays; intros; (repeat' split) <;> simp [*]
theorem execRetire_stays [Blanked .tiles] [Blanked .host] [Blanked .spi] [Blanked .hlt] [Blanked .ses] {l_ : State} (port : Nat) (v : W32) (s : State) (hf_ : s.outside = l_) : Stays l_ (execRetire port v s) := by subst hf_; unfold execRetire; apply hltGate_stays; intros; simp [*]
theorem execKeep_stays [Blanked .freeN] [Blanked .tiles] [Blanked .host] [Blanked .spi] [Blanked .hlt] [Blanked .ses] {l_ : State} (port : Nat) (v : W32) (s : State) (hf_ : s.outside = l_) : Stays l_ (execKeep port v s) := by subst hf_; unfold execKeep; apply hltGate_stays; intros; simp [*]
theorem execHole_stays [Blanked .tiles] [Blanked .host] [Blanked .spi] [Blanked .hlt] [Blanked .ses] {l_ : State} (port : Nat) (v : W32) (s : State) (hf_ : s.outside = l_) : Stays l_ (execHole port v s) := by subst hf_; unfold execHole; apply hltGate_stays; intros; simp [*]
theorem execClear_stays [Blanked .tiles] [Blanked .host] [Blanked .spi] [Blanked .hlt] [Blanked .ses] {l_ : State} (port : Nat) (v : W32) (s : State) (hf_ : s.outside = l_) : Stays l_ (execClear port v s) := by
  subst hf_; unfold execClear; repeat' first | with_reducible rfl | assumption | apply hltGate_stays | intro _ | (simp; done) | split | (simp_all; done) | simp only [Stays_ok, outside_ite]
theorem execTreset_stays [Blanked .freeN] [Blanked .tiles] [Blanked .host] [Blanked .spi] [Blanked .hlt] [Blanked .ses] {l_ : State} (port : Nat) (v : W32) (s : State) (hf_ : s.outside = l_) : Stays l_ (execTreset port v s) := by subst hf_; unfold execTreset; apply hltGate_stays; intros; simp [*]
theorem execSreset_stays [Blanked .freeN] [Blanked .tiles] [Blanked .sites] [Blanked .host] [Blanked .spi] [Blanked .hlt] [Blanked .ses] {l_ : State} (port : Nat) (v : W32) (s : State) (hf_ : s.outside = l_) : Stays l_ (execSreset port v s) := by subst hf_; unfold execSreset; apply hltGate_stays; intros; simp [*]
theorem execComputeResetDone_stays [Blanked .tiles] [Blanked .sites] [Blanked .fab] [Blanked .host] [Blanked .spi] [Blanked .hlt] {l_ : State} (site : Bool) (x : Nat) (s : State) (hf_ : s.outside = l_) : Stays l_ (execComputeResetDone site x s) := by
  subst hf_; unfold execComputeResetDone; repeat' first | with_reducible rfl | assumption | apply onTile_stays | apply onSite_stays | intro _ | (simp; done) | split | (simp_all; done) | simp only [Stays_ok, outside_ite]
theorem execHltSclr_stays [Blanked .sites] {l_ : State} (port : Nat) (v : W32) (s : State) (hf_ : s.outside = l_) : Stays l_ (execHltSclr port v s) := by subst hf_; simp [execHltSclr]
theorem execHltEclr_stays [Blanked .fab] {l_ : State} (port : Nat) (v : W32) (s : State) (hf_ : s.outside = l_) : Stays l_ (execHltEclr port v s) := by subst hf_; simp [execHltEclr]
theorem execHltDbclr_stays [Blanked .host] {l_ : State} (port : Nat) (v : W32) (s : State) (hf_ : s.outside = l_) : Stays l_ (execHltDbclr port v s) := by subst hf_; simp [execHltDbclr]
theorem execHltLsel_stays [Blanked .host] {l_ : State} (port : Nat) (v : W32) (s : State) (hf_ : s.outside = l_) : Stays l_ (execHltLsel port v s) := by subst hf_; unfold execHltLsel; apply onPort_stays; intros; simp [*]

/-! ### HostPorts -/

@[simp] theorem State.aer_outside [Blanked .host] (s : State) (port : Nat) (b : W32) : (State.aer s port b).outside = s.outside := by simp [State.aer]
@[simp] theorem State.noteAer_outside [Blanked .host] (s : State) (port : Nat) (r : HostResult) : (s.noteAer port r).outside = s.outside := by
  unfold State.noteAer; (repeat' split) <;> simp [State.aer]
@[simp] theorem State.hostFail_outside [Blanked .tiles] [Blanked .fab] [Blanked .host] [Blanked .spi] (s : State) (r : HostRead) (status detail : Nat) : (State.hostFail s r status detail).outside = s.outside := by unfold State.hostFail; split <;> simp
@[simp] theorem State.cutOff_outside [Blanked .tiles] [Blanked .fab] [Blanked .host] [Blanked .spi] (s : State) (port : Nat) : (State.cutOff s port).outside = s.outside := by simp [State.cutOff]
theorem execPortDown_stays [Blanked .tiles] [Blanked .fab] [Blanked .host] [Blanked .spi] {l_ : State} (port : Nat) (s : State) (hf_ : s.outside = l_) : Stays l_ (execPortDown port s) := by subst hf_; unfold execPortDown; apply onPort_stays; intros; simp [*]
theorem execPortUp_stays [Blanked .host] [Blanked .spi] {l_ : State} (port : Nat) (mode : LinkMode) (s : State) (hf_ : s.outside = l_) : Stays l_ (execPortUp port mode s) := by subst hf_; unfold execPortUp; apply onPort_stays; intros; (repeat' split) <;> simp [*]
theorem execFunctionLevelReset_stays [Blanked .tiles] [Blanked .fab] [Blanked .host] [Blanked .spi] {l_ : State} (port : Nat) (s : State) (hf_ : s.outside = l_) : Stays l_ (execFunctionLevelReset port s) := by subst hf_; unfold execFunctionLevelReset; apply onPort_stays; intros; simp [*]
theorem execBusMasterDisable_stays [Blanked .tiles] [Blanked .fab] [Blanked .host] [Blanked .spi] {l_ : State} (port : Nat) (s : State) (hf_ : s.outside = l_) : Stays l_ (execBusMasterDisable port s) := by subst hf_; unfold execBusMasterDisable; apply onPort_stays; intros; simp [*]
theorem execPerstRelease_stays [Blanked .host] {l_ : State} (port : Nat) (mode : LinkMode) (s : State) (hf_ : s.outside = l_) : Stays l_ (execPerstRelease port mode s) := by subst hf_; unfold execPerstRelease; apply onPort_stays; intros; (repeat' split) <;> simp [*]
theorem execHostCompletionTimeout_stays [Blanked .tiles] [Blanked .sites] [Blanked .fab] [Blanked .host] [Blanked .spi] {l_ : State} (id : Nat) (s : State) (hf_ : s.outside = l_) : Stays l_ (execHostCompletionTimeout id s) := by subst hf_; unfold execHostCompletionTimeout; (repeat' split) <;> simp
@[simp] theorem State.flushBack_outside [Blanked .tiles] [Blanked .host] (s : State) (c : Nat) (n : W32) : (State.flushBack s c n).outside = s.outside := by unfold State.flushBack; split <;> simp
theorem execHostReadCompletion_stays [Blanked .tiles] [Blanked .sites] [Blanked .fab] [Blanked .host] [Blanked .spi] {l_ : State} (id : Nat) (res : HostResult) (s : State) (hf_ : s.outside = l_) : Stays l_ (execHostReadCompletion id res s) := by subst hf_; unfold execHostReadCompletion; (repeat' split) <;> simp
@[simp] theorem State.doorbellDrop_outside [Blanked .host] [Blanked .spi] (s : State) (port ctx : Nat) : (State.doorbellDrop s port ctx).outside = s.outside := by simp [State.doorbellDrop]
theorem doorbell_stays [Blanked .host] [Blanked .spi] {port ctx : Nat} {k : Ctx → Out} (h : ∀ x, Stays s.outside (k x)) : Stays s.outside (doorbell s port ctx k) := by
  unfold doorbell; dsimp only; (repeat' split) <;> simp [h]
@[simp] theorem State.fetchAsk_outside [Blanked .host] (s : State) (c : Nat) (n_ : Nat) : (State.fetchAsk s c n_).outside = s.outside := by
  induction n_ generalizing s with
  | zero => simp [State.fetchAsk]
  | succ n_ ih => simp [State.fetchAsk, ih]
theorem execSqTail_stays [Blanked .freeN] [Blanked .tiles] [Blanked .chans] [Blanked .host] [Blanked .spi] {l_ : State} (port ctx : Nat) (v : W32) (s : State) (hf_ : s.outside = l_) : Stays l_ (execSqTail port ctx v s) := by subst hf_; unfold execSqTail; apply doorbell_stays; intros; simp [*]
theorem execCqHead_stays [Blanked .freeN] [Blanked .tiles] [Blanked .chans] [Blanked .host] [Blanked .spi] {l_ : State} (port ctx : Nat) (v : W32) (s : State) (hf_ : s.outside = l_) : Stays l_ (execCqHead port ctx v s) := by subst hf_; unfold execCqHead; apply doorbell_stays; intros; simp [*]
theorem execMsixUnmask_stays [Blanked .host] {l_ : State} (port vec : Nat) (v : W32) (s : State) (hf_ : s.outside = l_) : Stays l_ (execMsixUnmask port vec v s) := by subst hf_; unfold execMsixUnmask; apply onPort_stays; intros; simp [*]
theorem execEvtHead_stays [Blanked .host] {l_ : State} (port : Nat) (v : W32) (s : State) (hf_ : s.outside = l_) : Stays l_ (execEvtHead port v s) := by subst hf_; simp [execEvtHead]
theorem execEvtCfg_stays [Blanked .host] [Blanked .spi] [Blanked .ses] {l_ : State} (port : Nat) (v : W32) (s : State) (hf_ : s.outside = l_) : Stays l_ (execEvtCfg port v s) := by subst hf_; unfold execEvtCfg; apply gated0_stays; intros; simp [*]

/-! ### Descriptors -/

theorem execDescriptorFetch_stays [Blanked .tiles] [Blanked .fab] [Blanked .host] [Blanked .spi] {l_ : State} (id : Nat) (res : HostResult) (s : State) (hf_ : s.outside = l_) : Stays l_ (execDescriptorFetch id res s) := by
  subst hf_; unfold execDescriptorFetch; repeat' first | with_reducible rfl | assumption | intro _ | (simp; done) | split | (simp_all; done) | simp only [Stays_ok, outside_ite]
@[simp] theorem State.wildDesc_outside [Blanked .freeN] [Blanked .tiles] [Blanked .chans] (s : State) (c : Nat) (bad : Bool) : (State.wildDesc s c bad).outside = s.outside := by simp [State.wildDesc]
theorem starting_stays [Blanked .freeN] [Blanked .tiles] [Blanked .chans] [Blanked .host] {c : Nat} {is : Nat → Bool} {prog : Prog} {k : State → Desc → Out} (h : ∀ u d, u.outside = s.outside → Stays s.outside (k u d)) :
    Stays s.outside (starting s c is prog k) := by
  unfold starting; apply onCtx_stays; intro x; split
  · simp
  · dsimp only; split <;> first | (simp; done) | (refine h _ _ ?_; simp)
@[simp] theorem State.endOk_outside [Blanked .tiles] [Blanked .host] (s : State) (c : Nat) (d : Desc) (result : Nat) : (State.endOk s c d result).outside = s.outside := by simp [State.endOk]
theorem execNopDescriptor_stays [Blanked .freeN] [Blanked .tiles] [Blanked .chans] [Blanked .host] {l_ : State} (c : Nat) (s : State) (hf_ : s.outside = l_) : Stays l_ (execNopDescriptor c s) := by
  subst hf_; unfold execNopDescriptor; repeat' first | with_reducible rfl | assumption | apply starting_stays | apply plain_stays | intro _ | (simp; done) | split | (simp_all; done) | simp only [Stays_ok, outside_ite]
theorem execReservedOpcode_stays [Blanked .freeN] [Blanked .tiles] [Blanked .chans] [Blanked .host] {l_ : State} (c : Nat) (s : State) (hf_ : s.outside = l_) : Stays l_ (execReservedOpcode c s) := by
  subst hf_; unfold execReservedOpcode; repeat' first | with_reducible rfl | assumption | apply starting_stays | apply plain_stays | intro _ | (simp; done) | split | (simp_all; done) | simp only [Stays_ok, outside_ite]
theorem execCopy_stays [Blanked .freeN] [Blanked .tiles] [Blanked .sites] [Blanked .fab] [Blanked .chans] [Blanked .host] [Blanked .spi] {l_ : State} (c : Nat) (s : State) (hf_ : s.outside = l_) : Stays l_ (execCopy c s) := by subst hf_; unfold execCopy; apply starting_stays; intros; simp [*]
theorem execLaunch_stays [Blanked .freeN] [Blanked .tiles] [Blanked .sites] [Blanked .fab] [Blanked .chans] [Blanked .host] [Blanked .spi] {l_ : State} (c : Nat) (s : State) (hf_ : s.outside = l_) : Stays l_ (execLaunch c s) := by
  subst hf_; unfold execLaunch; refine starting_stays fun u d hu => ?_; dsimp only; (repeat' split) <;> simp [hu]
theorem execLoad_stays [Blanked .freeN] [Blanked .tiles] [Blanked .fab] [Blanked .chans] [Blanked .host] {l_ : State} (c : Nat) (s : State) (hf_ : s.outside = l_) : Stays l_ (execLoad c s) := by
  subst hf_; unfold execLoad; repeat' first | with_reducible rfl | assumption | apply starting_stays | apply plain_stays | intro _ | (simp; done) | split | (simp_all; done) | simp only [Stays_ok, outside_ite]
theorem execWait_stays [Blanked .freeN] [Blanked .tiles] [Blanked .sites] [Blanked .fab] [Blanked .chans] [Blanked .host] [Blanked .spi] {l_ : State} (c : Nat) (s : State) (hf_ : s.outside = l_) : Stays l_ (execWait c s) := by subst hf_; unfold execWait; apply starting_stays; intros; simp [*]
theorem execWaitPoll_stays [Blanked .tiles] [Blanked .sites] [Blanked .fab] [Blanked .host] [Blanked .spi] {l_ : State} (c n : Nat) (s : State) (hf_ : s.outside = l_) : Stays l_ (execWaitPoll c n s) := by subst hf_; unfold execWaitPoll; apply onCtx_stays; intros; (repeat' split) <;> simp [*]
@[simp] theorem State.sendCnt_outside [Blanked .sites] [Blanked .fab] [Blanked .host] [Blanked .spi] (s : State) (c : Nat) (d : Desc) (t : Nat) : (State.sendCnt s c d t).outside = s.outside := by simp [State.sendCnt]
theorem execSignal_stays [Blanked .freeN] [Blanked .tiles] [Blanked .sites] [Blanked .fab] [Blanked .chans] [Blanked .host] [Blanked .spi] {l_ : State} (c : Nat) (s : State) (hf_ : s.outside = l_) : Stays l_ (execSignal c s) := by
  subst hf_; unfold execSignal; repeat' first | with_reducible rfl | assumption | apply starting_stays | apply plain_stays | apply outside_foldl | intro _ | (simp; done) | split | (simp_all; done) | simp only [Stays_ok, outside_ite]
theorem execPhase_stays [Blanked .freeN] [Blanked .tiles] [Blanked .sites] [Blanked .chans] [Blanked .host] [Blanked .parts] [Blanked .cap] [Blanked .hlt] {l_ : State} (c : Nat) (s : State) (hf_ : s.outside = l_) : Stays l_ (execPhase c s) := by
  subst hf_; unfold execPhase; repeat' first | with_reducible rfl | assumption | apply starting_stays | apply plain_stays | intro _ | (simp; done) | split | (simp_all; done) | simp only [Stays_ok, outside_ite]
@[simp] theorem State.rickRelease_outside [Blanked .tiles] [Blanked .host] [Blanked .rick] (s : State) (id : Nat) (stamp : Nat) : (State.rickRelease s id stamp).outside = s.outside := by simp [State.rickRelease]
@[simp] theorem State.rickArrive_outside [Blanked .tiles] [Blanked .host] [Blanked .rick] (s : State) (panel id count : Nat) : (State.rickArrive s panel id count).outside = s.outside := by simp [State.rickArrive]
@[simp] theorem State.partArrive_outside [Blanked .tiles] [Blanked .host] (s : State) (c : Nat) (d : Desc) (id count : Nat) : (State.partArrive s c d id count).outside = s.outside := by simp [State.partArrive]
theorem execBarrier_stays [Blanked .freeN] [Blanked .tiles] [Blanked .chans] [Blanked .host] [Blanked .rick] {l_ : State} (c : Nat) (s : State) (hf_ : s.outside = l_) : Stays l_ (execBarrier c s) := by subst hf_; unfold execBarrier; apply starting_stays; intros; simp [*]
theorem execFence_stays [Blanked .freeN] [Blanked .tiles] [Blanked .chans] [Blanked .host] {l_ : State} (c : Nat) (s : State) (hf_ : s.outside = l_) : Stays l_ (execFence c s) := by subst hf_; unfold execFence; apply starting_stays; intros; simp [*]
theorem execPredict_stays [Blanked .freeN] [Blanked .tiles] [Blanked .chans] [Blanked .host] {l_ : State} (c : Nat) (s : State) (hf_ : s.outside = l_) : Stays l_ (execPredict c s) := by
  subst hf_; unfold execPredict; repeat' first | with_reducible rfl | assumption | apply starting_stays | apply plain_stays | intro _ | (simp; done) | split | (simp_all; done) | simp only [Stays_ok, outside_ite]
theorem execMark_stays [Blanked .freeN] [Blanked .tiles] [Blanked .chans] [Blanked .host] {l_ : State} (c : Nat) (s : State) (hf_ : s.outside = l_) : Stays l_ (execMark c s) := by
  subst hf_; unfold execMark; repeat' first | with_reducible rfl | assumption | apply starting_stays | apply plain_stays | intro _ | (simp; done) | split | (simp_all; done) | simp only [Stays_ok, outside_ite]
theorem execDescriptorComplete_stays [Blanked .tiles] [Blanked .host] [Blanked .hlt] {l_ : State} (c n : Nat) (s : State) (hf_ : s.outside = l_) : Stays l_ (execDescriptorComplete c n s) := by subst hf_; unfold execDescriptorComplete; apply onCtx_stays; intros; (repeat' split) <;> simp [*]
theorem execEdgeTrackerTimeout_stays [Blanked .tiles] [Blanked .sites] [Blanked .fab] [Blanked .host] [Blanked .spi] [Blanked .dbg] {l_ : State} (pe k : Nat) (s : State) (hf_ : s.outside = l_) : Stays l_ (execEdgeTrackerTimeout pe k s) := by subst hf_; unfold execEdgeTrackerTimeout; (repeat' split) <;> simp

/-! ### Contexts -/

theorem execCtxSel_stays [Blanked .host] [Blanked .spi] [Blanked .ses] {l_ : State} (port : Nat) (v : W32) (s : State) (hf_ : s.outside = l_) : Stays l_ (execCtxSel port v s) := by subst hf_; unfold execCtxSel; apply gated_stays; intros; simp [*]
@[simp] theorem State.ctxCmd_outside [Blanked .host] (s : State) (port ecode : Nat) : (State.ctxCmd s port ecode).outside = s.outside := by simp [State.ctxCmd]
theorem execConfigure_stays [Blanked .host] [Blanked .spi] [Blanked .ses] {l_ : State} (port : Nat) (s : State) (hf_ : s.outside = l_) : Stays l_ (execConfigure port s) := by subst hf_; unfold execConfigure; apply gated_stays; intros; simp [*]
@[simp] theorem State.quiet_outside [Blanked .tiles] [Blanked .sites] [Blanked .fab] [Blanked .host] [Blanked .spi] (s : State) (c : Nat) : (State.quiet s c).outside = s.outside := by simp [State.quiet]
@[simp] theorem State.copiesGo_outside [Blanked .tiles] [Blanked .sites] [Blanked .fab] [Blanked .host] [Blanked .spi] (s : State) : (State.copiesGo s).outside = s.outside := by simp [State.copiesGo]
@[simp] theorem State.forget_outside [Blanked .host] [Blanked .rick] (s : State) (c : Nat) : (State.forget s c).outside = s.outside := by simp [State.forget]
theorem execRelease_stays [Blanked .tiles] [Blanked .sites] [Blanked .fab] [Blanked .host] [Blanked .rick] [Blanked .spi] [Blanked .ses] {l_ : State} (port : Nat) (s : State) (hf_ : s.outside = l_) : Stays l_ (execRelease port s) := by subst hf_; unfold execRelease; apply gated_stays; intros; simp [*]
@[simp] theorem State.restart_outside [Blanked .tiles] [Blanked .sites] [Blanked .fab] [Blanked .host] [Blanked .rick] [Blanked .spi] (s : State) (c : Nat) : (State.restart s c).outside = s.outside := by simp [State.restart]
theorem execRestart_stays [Blanked .tiles] [Blanked .sites] [Blanked .fab] [Blanked .host] [Blanked .rick] [Blanked .spi] {l_ : State} (port ctx : Nat) (db : Bool) (s : State) (hf_ : s.outside = l_) : Stays l_ (execRestart port ctx db s) := by
  subst hf_; unfold execRestart; repeat' first | with_reducible rfl | assumption | apply doorbell_stays | intro _ | (simp; done) | split | (simp_all; done) | simp only [Stays_ok, outside_ite]
@[simp] theorem State.restartDone_outside [Blanked .host] [Blanked .spi] (s : State) (c : Nat) : (State.restartDone s c).outside = s.outside := by simp [State.restartDone]
theorem execRestartDone_stays [Blanked .host] [Blanked .spi] {l_ : State} (c : Nat) (s : State) (hf_ : s.outside = l_) : Stays l_ (execRestartDone c s) := by subst hf_; unfold execRestartDone; apply onCtx_stays; intros; simp [*]
theorem execHalt_stays [Blanked .host] [Blanked .spi] [Blanked .ses] {l_ : State} (port : Nat) (s : State) (hf_ : s.outside = l_) : Stays l_ (execHalt port s) := by subst hf_; unfold execHalt; apply gated_stays; intros; simp [*]
@[simp] theorem State.faultRecords_outside [Blanked .host] [Blanked .hlt] (s : State) (c : Nat) (n : Option W32) (e : Ending) : (State.faultRecords s c n e).outside = s.outside := by
  unfold State.faultRecords; repeat' first | with_reducible rfl | assumption | apply outside_foldl | intro _ | (simp; done) | split | (simp_all; done) | simp only [Stays_ok, outside_ite]
theorem execContextFault_stays [Blanked .tiles] [Blanked .sites] [Blanked .fab] [Blanked .host] [Blanked .spi] [Blanked .hlt] {l_ : State} (i : Nat) (s : State) (hf_ : s.outside = l_) : Stays l_ (execContextFault i s) := by subst hf_; unfold execContextFault; (repeat' split) <;> simp
theorem execStepWatchdog_stays [Blanked .host] {l_ : State} (c : Nat) (s : State) (hf_ : s.outside = l_) : Stays l_ (execStepWatchdog c s) := by subst hf_; unfold execStepWatchdog; apply onCtx_stays; intros; (repeat' split) <;> simp [*]

/-! ### Partitions -/

@[simp] theorem State.prtCmd_outside [Blanked .parts] (s : State) (p ecode : Nat) : (State.prtCmd s p ecode).outside = s.outside := by simp [State.prtCmd]
theorem prtGate_stays [Blanked .host] [Blanked .parts] [Blanked .spi] [Blanked .ses] {port p : Nat} {code : Part → Nat} {k : State → Out} (h : ∀ u, u.outside = s.outside → Stays s.outside (k u)) : Stays s.outside (prtGate s port p code k) := by
  unfold prtGate; apply onPart_stays; intro q; apply gated0_stays; apply when_stays rfl; split
  · exact h _ (by simp)
  · simp
@[simp] theorem State.unpark_outside [Blanked .sites] [Blanked .fab] [Blanked .host] [Blanked .spi] (s : State) (p : Nat) : (State.unpark s p).outside = s.outside := by unfold State.unpark; apply outside_foldl; intros; first | (simp; done) | (repeat' split) <;> simp
@[simp] theorem State.warmSite_outside [Blanked .tiles] [Blanked .sites] [Blanked .fab] [Blanked .host] [Blanked .spi] (s : State) (p : Nat) : (State.warmSite s p).outside = s.outside := by simp [State.warmSite]
@[simp] theorem State.warmReset_outside [Blanked .tiles] [Blanked .sites] [Blanked .fab] [Blanked .host] [Blanked .parts] [Blanked .rick] [Blanked .spi] (s : State) (p : Nat) : (State.warmReset s p).outside = s.outside := by simp [State.warmReset]
@[simp] theorem State.warmEnd_outside [Blanked .tiles] [Blanked .sites] [Blanked .clk] (s : State) (p : Nat) : (State.warmEnd s p).outside = s.outside := by simp [State.warmEnd]
@[simp] theorem State.guardTiles_outside [Blanked .tiles] (s : State) (p : Nat) (on : Bool) : (State.guardTiles s p on).outside = s.outside := by simp [State.guardTiles]
theorem execDefine_stays [Blanked .tiles] [Blanked .sites] [Blanked .fab] [Blanked .host] [Blanked .parts] [Blanked .rick] [Blanked .clk] [Blanked .cap] [Blanked .spi] [Blanked .hlt] [Blanked .ses] {l_ : State} (port p : Nat) (s : State) (hf_ : s.outside = l_) : Stays l_ (execDefine port p s) := by subst hf_; unfold execDefine; apply prtGate_stays; intros; simp [*]
theorem execWarmReset_stays [Blanked .tiles] [Blanked .sites] [Blanked .fab] [Blanked .host] [Blanked .parts] [Blanked .rick] [Blanked .spi] [Blanked .hlt] [Blanked .ses] {l_ : State} (port p : Nat) (s : State) (hf_ : s.outside = l_) : Stays l_ (execWarmReset port p s) := by subst hf_; unfold execWarmReset; apply prtGate_stays; intros; simp [*]
theorem execDelete_stays [Blanked .tiles] [Blanked .sites] [Blanked .fab] [Blanked .host] [Blanked .parts] [Blanked .rick] [Blanked .cap] [Blanked .spi] [Blanked .hlt] [Blanked .ses] {l_ : State} (port p : Nat) (s : State) (hf_ : s.outside = l_) : Stays l_ (execDelete port p s) := by subst hf_; unfold execDelete; apply prtGate_stays; intros; simp [*]
theorem execPrtUpdate_stays [Blanked .host] [Blanked .parts] [Blanked .spi] [Blanked .ses] {l_ : State} (port p : Nat) (s : State) (hf_ : s.outside = l_) : Stays l_ (execPrtUpdate port p s) := by subst hf_; unfold execPrtUpdate; apply prtGate_stays; intros; simp [*]
theorem execWarmResetDone_stays [Blanked .tiles] [Blanked .sites] [Blanked .fab] [Blanked .host] [Blanked .parts] [Blanked .clk] [Blanked .spi] [Blanked .hlt] {l_ : State} (p : Nat) (found suspects : List BadUnit) (s : State) (hf_ : s.outside = l_) : Stays l_ (execWarmResetDone p found suspects s) := by subst hf_; unfold execWarmResetDone; apply onPart_stays; intros; simp [*]
theorem execDeleteDone_stays [Blanked .tiles] [Blanked .sites] [Blanked .host] [Blanked .parts] [Blanked .clk] [Blanked .spi] [Blanked .hlt] {l_ : State} (p : Nat) (s : State) (hf_ : s.outside = l_) : Stays l_ (execDeleteDone p s) := by subst hf_; unfold execDeleteDone; apply onPart_stays; intros; simp [*]

/-! ### Service -/

@[simp] theorem State.endSession_outside [Blanked .host] [Blanked .spi] [Blanked .ses] (s : State) (entry reason : Nat) : (State.endSession s entry reason).outside = s.outside := by unfold State.endSession; split <;> simp
@[simp] theorem State.setDie_outside [Blanked .hlt] (s : State) (d : Nat) (st : SvSt) : (State.setDie s d st).outside = s.outside := by simp [State.setDie]
@[simp] theorem State.dieWork_outside [Blanked .host] [Blanked .spi] (s : State) : (State.dieWork s).outside = s.outside := by simp [State.dieWork]
theorem execSvHeartbeat_stays [Blanked .hlt] {l_ : State} (s : State) (hf_ : s.outside = l_) : Stays l_ (execSvHeartbeat s) := by subst hf_; simp [execSvHeartbeat]
@[simp] theorem State.sweepEnds_outside [Blanked .sites] (s : State) (p : Nat) : (State.sweepEnds s p).outside = s.outside := by simp [State.sweepEnds]
theorem execSvFailover_stays [Blanked .tiles] [Blanked .sites] [Blanked .fab] [Blanked .host] [Blanked .parts] [Blanked .rick] [Blanked .cap] [Blanked .spi] [Blanked .hlt] [Blanked .ses] {l_ : State} (reported : Bool) (s : State) (hf_ : s.outside = l_) : Stays l_ (execSvFailover reported s) := by subst hf_; unfold execSvFailover; (repeat' split) <;> simp
theorem execSvStandbyLost_stays [Blanked .host] [Blanked .spi] [Blanked .hlt] {l_ : State} (reported : Bool) (s : State) (hf_ : s.outside = l_) : Stays l_ (execSvStandbyLost reported s) := by subst hf_; unfold execSvStandbyLost; (repeat' split) <;> simp
theorem execSvLost_stays [Blanked .sites] [Blanked .host] [Blanked .cap] [Blanked .spi] [Blanked .hlt] {l_ : State} (s : State) (hf_ : s.outside = l_) : Stays l_ (execSvLost s) := by subst hf_; unfold execSvLost; (repeat' split) <;> simp
theorem execSvReset_stays [Blanked .hlt] {l_ : State} (port : Nat) (v : W32) (s : State) (hf_ : s.outside = l_) : Stays l_ (execSvReset port v s) := by subst hf_; simp [execSvReset]
@[simp] theorem State.dieBack_outside [Blanked .host] [Blanked .cap] [Blanked .spi] [Blanked .hlt] (s : State) (d : Nat) (good : Bool) : (State.dieBack s d good).outside = s.outside := by simp [State.dieBack]
theorem execSvRestored_stays [Blanked .tiles] [Blanked .sites] [Blanked .fab] [Blanked .host] [Blanked .cap] [Blanked .spi] [Blanked .hlt] {l_ : State} (aRuns bRuns : Bool) (s : State) (hf_ : s.outside = l_) : Stays l_ (execSvRestored aRuns bRuns s) := by subst hf_; simp [execSvRestored]
theorem execSweepGrant_stays [Blanked .host] [Blanked .spi] [Blanked .hlt] [Blanked .ses] {l_ : State} (port : Nat) (v : W32) (s : State) (hf_ : s.outside = l_) : Stays l_ (execSweepGrant port v s) := by subst hf_; unfold execSweepGrant; apply gated0_stays; intros; simp [*]
theorem execSweepWindowEnd_stays [Blanked .hlt] {l_ : State} (s : State) (hf_ : s.outside = l_) : Stays l_ (execSweepWindowEnd s) := by subst hf_; simp [execSweepWindowEnd]
@[simp] theorem State.sweepMeasured_outside [Blanked .freeN] [Blanked .tiles] [Blanked .sites] [Blanked .host] [Blanked .spi] [Blanked .hlt] (s : State) (site : Nat) (m : SweepMeas) : (State.sweepMeasured s site m).outside = s.outside := by simp [State.sweepMeasured]
theorem execMarginSweep_stays [Blanked .freeN] [Blanked .tiles] [Blanked .sites] [Blanked .host] [Blanked .clk] [Blanked .spi] [Blanked .hlt] {l_ : State} (site : Nat) (m : SweepMeas) (s : State) (hf_ : s.outside = l_) : Stays l_ (execMarginSweep site m s) := by subst hf_; unfold execMarginSweep; apply onSite_stays; intros; simp [*]
theorem execMarginOverdue_stays [Blanked .sites] [Blanked .host] [Blanked .spi] [Blanked .hlt] {l_ : State} (site : Nat) (s : State) (hf_ : s.outside = l_) : Stays l_ (execMarginOverdue site s) := by subst hf_; unfold execMarginOverdue; apply onSite_stays; intros; simp [*]
theorem execLoadClassUpdate_stays [Blanked .sites] [Blanked .clk] {l_ : State} (site busyPct : Nat) (surged : Bool) (s : State) (hf_ : s.outside = l_) : Stays l_ (execLoadClassUpdate site busyPct surged s) := by subst hf_; unfold execLoadClassUpdate; apply onSite_stays; intros; simp [*]
theorem execCellCeilingRise_stays [Blanked .sites] [Blanked .host] [Blanked .clk] [Blanked .spi] {l_ : State} (site cell : Nat) (s : State) (hf_ : s.outside = l_) : Stays l_ (execCellCeilingRise site cell s) := by subst hf_; unfold execCellCeilingRise; apply onSite_stays; intros; simp [*]

/-! ### Sessions -/

@[simp] theorem State.sesEnd_outside [Blanked .host] (s : State) (port cmd ecode : Nat) : (State.sesEnd s port cmd ecode).outside = s.outside := by simp [State.sesEnd]
theorem sesCmd_stays {port : Nat} {k : Port → Out} (h : ∀ p, Stays s.outside (k p)) : Stays s.outside (sesCmd s port k) := by
  unfold sesCmd; apply onPort_stays; intro p; exact when_stays rfl (h p)
theorem sesGated_stays [Blanked .host] [Blanked .spi] [Blanked .ses] {port cmd : Nat} {k : Port → Out} (h : ∀ p, Stays s.outside (k p)) : Stays s.outside (sesGated s port cmd k) := by
  unfold sesGated; apply sesCmd_stays; intro p; split
  · exact h p
  · simp
theorem execChallenge_stays [Blanked .freeN] [Blanked .host] {l_ : State} (port : Nat) (s : State) (hf_ : s.outside = l_) : Stays l_ (execChallenge port s) := by subst hf_; unfold execChallenge; apply sesCmd_stays; intros; simp [*]
theorem execChallengeExpiry_stays [Blanked .host] {l_ : State} (port : Nat) (s : State) (hf_ : s.outside = l_) : Stays l_ (execChallengeExpiry port s) := by subst hf_; unfold execChallengeExpiry; apply onPort_stays; intros; (repeat' split) <;> simp [*]
@[simp] theorem State.openFails_outside [Blanked .host] [Blanked .spi] [Blanked .ses] (s : State) (port e : Nat) : (State.openFails s port e).outside = s.outside := by simp [State.openFails]
theorem execSesOpen_stays [Blanked .host] [Blanked .spi] [Blanked .ses] {l_ : State} (port : Nat) (s : State) (hf_ : s.outside = l_) : Stays l_ (execSesOpen port s) := by subst hf_; unfold execSesOpen; apply sesCmd_stays; intros; (repeat' split) <;> simp [*]
theorem execLockoutExpiry_stays [Blanked .host] {l_ : State} (port : Nat) (s : State) (hf_ : s.outside = l_) : Stays l_ (execLockoutExpiry port s) := by subst hf_; unfold execLockoutExpiry; apply onPort_stays; intros; (repeat' split) <;> simp [*]
theorem execSesClose_stays [Blanked .host] [Blanked .spi] [Blanked .ses] {l_ : State} (port : Nat) (s : State) (hf_ : s.outside = l_) : Stays l_ (execSesClose port s) := by subst hf_; unfold execSesClose; apply sesCmd_stays; intros; (repeat' split) <;> simp [*]
theorem execSessionDeadline_stays [Blanked .host] [Blanked .spi] [Blanked .ses] {l_ : State} (entry : Nat) (s : State) (hf_ : s.outside = l_) : Stays l_ (execSessionDeadline entry s) := by subst hf_; unfold execSessionDeadline; (repeat' split) <;> simp
theorem execAttest_stays [Blanked .host] {l_ : State} (port : Nat) (s : State) (hf_ : s.outside = l_) : Stays l_ (execAttest port s) := by subst hf_; unfold execAttest; apply sesCmd_stays; intros; simp [*]
theorem execPubkey_stays [Blanked .host] {l_ : State} (port : Nat) (s : State) (hf_ : s.outside = l_) : Stays l_ (execPubkey port s) := by subst hf_; unfold execPubkey; apply sesCmd_stays; intros; simp [*]
theorem execArmOwner_stays [Blanked .host] [Blanked .spi] [Blanked .ses] {l_ : State} (port : Nat) (s : State) (hf_ : s.outside = l_) : Stays l_ (execArmOwner port s) := by subst hf_; unfold execArmOwner; apply sesGated_stays; intros; simp [*]
theorem execArmSvn_stays [Blanked .host] [Blanked .spi] [Blanked .ses] {l_ : State} (port : Nat) (s : State) (hf_ : s.outside = l_) : Stays l_ (execArmSvn port s) := by subst hf_; unfold execArmSvn; apply sesGated_stays; intros; simp [*]
theorem execCommitFuse_stays [Blanked .host] [Blanked .spi] [Blanked .ses] {l_ : State} (port : Nat) (s : State) (hf_ : s.outside = l_) : Stays l_ (execCommitFuse port s) := by subst hf_; unfold execCommitFuse; apply sesGated_stays; intros; (repeat' split) <;> simp [*]
theorem execFuseArmExpiry_stays [Blanked .host] {l_ : State} (port : Nat) (s : State) (hf_ : s.outside = l_) : Stays l_ (execFuseArmExpiry port s) := by subst hf_; unfold execFuseArmExpiry; apply onPort_stays; intros; (repeat' split) <;> simp [*]

/-! ### Meter -/

theorem execMeterRecord_stays [Blanked .mtr] {l_ : State} (m : MeterMeas) (s : State) (hf_ : s.outside = l_) : Stays l_ (execMeterRecord m s) := by subst hf_; simp [execMeterRecord]
theorem execMtrSeal_stays [Blanked .mtr] {l_ : State} (s : State) (hf_ : s.outside = l_) : Stays l_ (execMtrSeal s) := by subst hf_; simp [execMtrSeal]
@[simp] theorem State.ringRecord_outside [Blanked .host] [Blanked .mtr] (s : State) (r : MeterRec) : (State.ringRecord s r).outside = s.outside := by simp [State.ringRecord]
@[simp] theorem State.recordEvents_outside [Blanked .host] [Blanked .spi] [Blanked .mtr] (s : State) (r : MeterRec) : (State.recordEvents s r).outside = s.outside := by simp [State.recordEvents]
@[simp] theorem State.goodRecord_outside [Blanked .host] [Blanked .spi] [Blanked .mtr] (s : State) (r : MeterRec) : (State.goodRecord s r).outside = s.outside := by simp [State.goodRecord]
theorem execMeterFrame_stays [Blanked .host] [Blanked .spi] [Blanked .mtr] {l_ : State} (f : MeterFrame) (s : State) (hf_ : s.outside = l_) : Stays l_ (execMeterFrame f s) := by subst hf_; unfold execMeterFrame; (repeat' split) <;> simp
theorem execMtrLinkLost_stays [Blanked .host] [Blanked .spi] [Blanked .mtr] {l_ : State} (s : State) (hf_ : s.outside = l_) : Stays l_ (execMtrLinkLost s) := by subst hf_; simp [execMtrLinkLost]
theorem execMtrSelect_stays [Blanked .host] {l_ : State} (port : Nat) (v : W32) (s : State) (hf_ : s.outside = l_) : Stays l_ (execMtrSelect port v s) := by subst hf_; unfold execMtrSelect; apply onPort_stays; intros; simp [*]
theorem execMtrRhead_stays [Blanked .mtr] {l_ : State} (port : Nat) (v : W32) (s : State) (hf_ : s.outside = l_) : Stays l_ (execMtrRhead port v s) := by subst hf_; unfold execMtrRhead; apply onPort_stays; intros; simp [*]
theorem execMtrRcfg_stays [h0 : Blanked .host] [h1 : Blanked .spi] [h2 : Blanked .ses] [h3 : Blanked .mtr] {l_ : State} (port : Nat) (v : W32) (s : State) (hf_ : s.outside = l_) : Stays l_ (execMtrRcfg port v s) := by
  subst hf_; unfold execMtrRcfg; refine gated0_stays (when_stays rfl ?_); simp

/-! ### Debug -/

@[simp] theorem State.dbgRefuse_outside [Blanked .dbg] (s : State) (ecode : Nat) : (State.dbgRefuse s ecode).outside = s.outside := by simp [State.dbgRefuse]
theorem dbgCmd_stays [Blanked .freeN] [Blanked .tiles] [Blanked .chans] [Blanked .host] [Blanked .spi] [Blanked .ses] [Blanked .dbg] {port : Nat} {k : State → State} (h : ∀ u, (k u).outside = u.outside) : Stays s.outside (dbgCmd s port k) := by
  unfold dbgCmd; apply gated0_stays; dsimp only; (repeat' split) <;> simp [h]
theorem execDbgRead_stays [Blanked .freeN] [Blanked .tiles] [Blanked .sites] [Blanked .fab] [Blanked .chans] [Blanked .host] [Blanked .spi] [Blanked .ses] [Blanked .dbg] {l_ : State} (port : Nat) (s : State) (hf_ : s.outside = l_) : Stays l_ (execDbgRead port s) := by subst hf_; unfold execDbgRead; apply dbgCmd_stays; intros; simp [*]
theorem execDbgWrite_stays [Blanked .freeN] [Blanked .tiles] [Blanked .sites] [Blanked .fab] [Blanked .chans] [Blanked .host] [Blanked .spi] [Blanked .ses] [Blanked .dbg] {l_ : State} (port : Nat) (s : State) (hf_ : s.outside = l_) : Stays l_ (execDbgWrite port s) := by subst hf_; unfold execDbgWrite; apply dbgCmd_stays; intros; simp [*]
theorem execDbgLock_stays [Blanked .host] [Blanked .spi] [Blanked .ses] [Blanked .dbg] {l_ : State} (port : Nat) (v : W32) (s : State) (hf_ : s.outside = l_) : Stays l_ (execDbgLock port v s) := by subst hf_; unfold execDbgLock; apply gated0_stays; intros; simp [*]
theorem execDbgTest_stays [Blanked .host] [Blanked .spi] [Blanked .ses] {l_ : State} (port : Nat) (v : W32) (s : State) (hf_ : s.outside = l_) : Stays l_ (execDbgTest port v s) := by subst hf_; unfold execDbgTest; apply gated0_stays; intros; simp [*]
@[simp] theorem dbgSet_stays [Blanked .host] [Blanked .spi] [Blanked .ses] [Blanked .dbg] {l_ : State} (s : State) (port off : Nat) (f : Dbg → Dbg) (hf_ : s.outside = l_) : Stays l_ (dbgSet s port off f) := by subst hf_; unfold dbgSet; apply gated0_stays; intros; simp [*]

/-! ### Cache -/

theorem execScrubAccess_stays [Blanked .tiles] [Blanked .host] [Blanked .spi] [Blanked .hlt] {l_ : State} (t : Nat) (found : MemErr) (word : Nat) (s : State) (hf_ : s.outside = l_) : Stays l_ (execScrubAccess t found word s) := by subst hf_; unfold execScrubAccess; apply onTile_stays; intros; simp [*]
theorem atSlice_stays [Blanked .freeN] [Blanked .sites] [Blanked .fab] [Blanked .host] {i : Nat} {f : Flight} {k : Nat → State → Out} (h : ∀ p u, u.outside = s.outside → Stays s.outside (k p u)) : Stays s.outside (atSlice s i f k) := by
  unfold atSlice; (try dsimp only); (repeat' split) <;> first | (simp; done) | (refine h _ _ ?_; simp)
@[simp] theorem State.cacheMiss_outside [Blanked .sites] [Blanked .fab] (s : State) (i : Nat) (f : Flight) (p line : Nat) : (State.cacheMiss s i f p line).outside = s.outside := by unfold State.cacheMiss; split <;> simp
theorem execCacheRead_stays [Blanked .freeN] [Blanked .sites] [Blanked .fab] [Blanked .host] {l_ : State} (i : Nat) (joins : Bool) (err : MemErr) (s : State) (hf_ : s.outside = l_) : Stays l_ (execCacheRead i joins err s) := by
  subst hf_; unfold execCacheRead; repeat' first | with_reducible rfl | assumption | apply onFlight_stays | apply atSlice_stays | intro _ | (simp; done) | split | (simp_all; done) | simp only [Stays_ok, outside_ite]
theorem execCacheFillReturn_stays [Blanked .sites] [Blanked .fab] {l_ : State} (i : Nat) (s : State) (hf_ : s.outside = l_) : Stays l_ (execCacheFillReturn i s) := by
  subst hf_; unfold execCacheFillReturn; repeat' first | with_reducible rfl | assumption | apply onFlight_stays | apply outside_foldl | intro _ | (simp; done) | split | (simp_all; done) | simp only [Stays_ok, outside_ite]
theorem execCacheWrite_stays [Blanked .freeN] [Blanked .sites] [Blanked .fab] [Blanked .host] {l_ : State} (i : Nat) (s : State) (hf_ : s.outside = l_) : Stays l_ (execCacheWrite i s) := by
  subst hf_; unfold execCacheWrite; repeat' first | with_reducible rfl | assumption | apply onFlight_stays | apply atSlice_stays | intro _ | (simp; done) | split | (simp_all; done) | simp only [Stays_ok, outside_ite]
@[simp] theorem maintain_stays [Blanked .sites] [Blanked .fab] {l_ : State} (p : Nat) (op : Nat → Bool) (hit : Packet → Nat → Bool) (s : State) (hf_ : s.outside = l_) : Stays l_ (maintain p op hit s) := by subst hf_; unfold maintain; apply onSite_stays; intros; (repeat' split) <;> simp [*]
theorem execMaintInvalidateLine_stays [Blanked .sites] [Blanked .fab] {l_ : State} (p : Nat) (s : State) (hf_ : s.outside = l_) : Stays l_ (execMaintInvalidateLine p s) := by subst hf_; simp [execMaintInvalidateLine]
theorem execMaintInvalidateRange_stays [Blanked .sites] [Blanked .fab] {l_ : State} (p : Nat) (s : State) (hf_ : s.outside = l_) : Stays l_ (execMaintInvalidateRange p s) := by subst hf_; simp [execMaintInvalidateRange]
theorem execMaintInvalidateAll_stays [Blanked .sites] [Blanked .fab] {l_ : State} (p : Nat) (s : State) (hf_ : s.outside = l_) : Stays l_ (execMaintInvalidateAll p s) := by subst hf_; simp [execMaintInvalidateAll]
theorem execMaintReserved_stays [Blanked .sites] [Blanked .fab] {l_ : State} (p : Nat) (s : State) (hf_ : s.outside = l_) : Stays l_ (execMaintReserved p s) := by subst hf_; simp [execMaintReserved]
@[simp] theorem State.channelFails_outside [Blanked .chans] [Blanked .host] [Blanked .spi] (s : State) (ch : Nat) : (State.channelFails s ch).outside = s.outside := by simp [State.channelFails]
theorem execDdrChannelDown_stays [Blanked .chans] [Blanked .host] [Blanked .spi] [Blanked .hlt] {l_ : State} (ch : Nat) (s : State) (hf_ : s.outside = l_) : Stays l_ (execDdrChannelDown ch s) := by subst hf_; simp [execDdrChannelDown]
theorem execPatrolRead_stays [Blanked .freeN] [Blanked .chans] [Blanked .host] [Blanked .spi] {l_ : State} (ch burst : Nat) (found : MemErr) (n : Nat) (s : State) (hf_ : s.outside = l_) : Stays l_ (execPatrolRead ch burst found n s) := by subst hf_; simp [execPatrolRead]
@[simp] theorem State.regionCommit_outside [Blanked .sites] [Blanked .parts] (s : State) (p : Nat) : (State.regionCommit s p).outside = s.outside := by simp [State.regionCommit]
theorem execDdrRegionCommit_stays [Blanked .sites] [Blanked .host] [Blanked .parts] [Blanked .spi] [Blanked .ses] {l_ : State} (port p : Nat) (s : State) (hf_ : s.outside = l_) : Stays l_ (execDdrRegionCommit port p s) := by subst hf_; unfold execDdrRegionCommit; apply onPart_stays; intros; apply gated0_stays; intros; simp [*]
@[simp] theorem State.bevWrite_outside [Blanked .bev] (s : State) (k : Nat) (v : W32) : (State.bevWrite s k v).outside = s.outside := by simp [State.bevWrite]
theorem execPrtBevWrite_stays [Blanked .bev] [Blanked .host] [Blanked .spi] [Blanked .ses] {l_ : State} (port k : Nat) (v : W32) (s : State) (hf_ : s.outside = l_) : Stays l_ (execPrtBevWrite port k v s) := by
  subst hf_; unfold execPrtBevWrite; repeat' first | with_reducible rfl | assumption | apply gated0_stays | intro _ | (simp; done) | split | (simp_all; done) | simp only [Stays_ok, outside_ite]

/-! ### CapCtl -/

theorem execPwrCap_stays [Blanked .host] [Blanked .cap] [Blanked .spi] [Blanked .ses] {l_ : State} (port : Nat) (v : W32) (s : State) (hf_ : s.outside = l_) : Stays l_ (execPwrCap port v s) := by subst hf_; unfold execPwrCap; apply gated0_stays; intros; simp [*]
@[simp] theorem State.setPace_outside [Blanked .sites] [Blanked .clk] (s : State) (q lim : Nat) : (State.setPace s q lim).outside = s.outside := by simp [State.setPace]
@[simp] theorem State.paceUpdate_outside [Blanked .sites] [Blanked .host] [Blanked .parts] [Blanked .clk] [Blanked .spi] (s : State) (q : Nat) : (State.paceUpdate s q).outside = s.outside := by simp [State.paceUpdate]
theorem execPaceLock_stays [Blanked .sites] [Blanked .host] [Blanked .parts] [Blanked .clk] [Blanked .spi] [Blanked .ses] {l_ : State} (port p : Nat) (v : W32) (s : State) (hf_ : s.outside = l_) : Stays l_ (execPaceLock port p v s) := by subst hf_; unfold execPaceLock; apply onPart_stays; intros; apply gated0_stays; intros; simp [*]
@[simp] theorem State.measured_outside [Blanked .sites] [Blanked .cap] (s : State) (m : PowerMeas) : (State.measured s m).outside = s.outside := by simp [State.measured]
@[simp] theorem State.sample_outside [Blanked .sites] [Blanked .hlt] (s : State) (p : Nat) : (State.sample s p).outside = s.outside := by
  unfold State.sample; repeat' first | with_reducible rfl | assumption | intro _ | (simp; done) | split | (simp_all; done) | simp only [Stays_ok, outside_ite]
@[simp] theorem State.serveFailover_outside [Blanked .sites] [Blanked .pwr] (s : State) : (State.serveFailover s).outside = s.outside := by simp [State.serveFailover]
theorem execBudgetAllocation_stays [Blanked .freeN] [Blanked .sites] [Blanked .host] [Blanked .parts] [Blanked .clk] [Blanked .pwr] [Blanked .cap] [Blanked .spi] [Blanked .hlt] {l_ : State} (m : PowerMeas) (s : State) (hf_ : s.outside = l_) : Stays l_ (execBudgetAllocation m s) := by subst hf_; unfold execBudgetAllocation; (repeat' split) <;> simp
theorem execPacerUpdate_stays [Blanked .sites] [Blanked .host] [Blanked .spi] {l_ : State} (site m mv : Nat) (s : State) (hf_ : s.outside = l_) : Stays l_ (execPacerUpdate site m mv s) := by subst hf_; unfold execPacerUpdate; apply onSite_stays; intros; simp [*]
theorem execCapLimitUpdate_stays [Blanked .sites] [Blanked .clk] {l_ : State} (site : Nat) (s : State) (hf_ : s.outside = l_) : Stays l_ (execCapLimitUpdate site s) := by subst hf_; unfold execCapLimitUpdate; apply onSite_stays; intros; simp [*]
theorem execClearProfiles_stays [Blanked .host] [Blanked .parts] [Blanked .cap] [Blanked .spi] [Blanked .ses] {l_ : State} (port p : Nat) (s : State) (hf_ : s.outside = l_) : Stays l_ (execClearProfiles port p s) := by subst hf_; unfold execClearProfiles; apply onPart_stays; intros; apply gated0_stays; intros; simp [*]
theorem execProfileMirror_stays [Blanked .cap] {l_ : State} (s : State) (hf_ : s.outside = l_) : Stays l_ (execProfileMirror s) := by subst hf_; simp [execProfileMirror]
@[simp] theorem State.telSite_outside [Blanked .sites] [Blanked .host] (convs : List ConvMeas) (s : State) (m : SiteMeas) : (State.telSite convs s m).outside = s.outside := by simp [State.telSite]
@[simp] theorem State.telConv_outside [Blanked .host] [Blanked .pwr] (s : State) (m : ConvMeas) : (State.telConv s m).outside = s.outside := by simp [State.telConv]
@[simp] theorem State.telCtl_outside [Blanked .sites] [Blanked .host] (s : State) (p : Nat) : (State.telCtl s p).outside = s.outside := by simp [State.telCtl]
theorem execTelemetryTick_stays [Blanked .sites] [Blanked .host] [Blanked .pwr] [Blanked .cap] [Blanked .spi] [Blanked .hlt] {l_ : State} (sites : List SiteMeas) (convs : List ConvMeas) (s : State) (hf_ : s.outside = l_) : Stays l_ (execTelemetryTick sites convs s) := by
  subst hf_; unfold execTelemetryTick; repeat' first | with_reducible rfl | assumption | apply outside_foldl | intro _ | (simp; done) | split | (simp_all; done) | simp only [Stays_ok, outside_ite]
theorem execTelHead_stays [Blanked .host] {l_ : State} (port : Nat) (v : W32) (s : State) (hf_ : s.outside = l_) : Stays l_ (execTelHead port v s) := by subst hf_; simp [execTelHead]
theorem execTelCfg_stays [Blanked .host] [Blanked .spi] [Blanked .ses] {l_ : State} (port : Nat) (v : W32) (s : State) (hf_ : s.outside = l_) : Stays l_ (execTelCfg port v s) := by subst hf_; unfold execTelCfg; apply gated0_stays; intros; simp [*]

/-! ### Rick -/

@[simp] theorem State.recompute_outside [Blanked .rick] (s : State) : (State.recompute s).outside = s.outside := by simp [State.recompute]
@[simp] theorem State.casDown_outside [Blanked .fab] [Blanked .host] [Blanked .rick] [Blanked .spi] (s : State) (n : Nat) (inDoubt : Nat → Bool) : (State.casDown s n inDoubt).outside = s.outside := by simp [State.casDown]
@[simp] theorem State.casResend_outside [Blanked .fab] [Blanked .host] [Blanked .rick] [Blanked .spi] (s : State) (n : Nat) : (State.casResend s n).outside = s.outside := by unfold State.casResend; split <;> simp
theorem execCascadeCodeword_stays [Blanked .sites] [Blanked .fab] [Blanked .host] [Blanked .rick] [Blanked .spi] {l_ : State} (n : Nat) (cw : Codeword) (s : State) (hf_ : s.outside = l_) : Stays l_ (execCascadeCodeword n cw s) := by
  subst hf_; unfold execCascadeCodeword; refine onCas_stays fun x => when_stays rfl ?_; split
  · simp
  · extract_lets a b
    have ha : a.outside = s.outside := by simp [a]
    have hb : b.outside = s.outside := by
      simp only [b]; split
      · rw [outside_foldl _ fun u y => State.casFlit_outside u n y]; simpa using ha
      · exact ha
    rw [Stays_ok]; split
    · exact (State.casResend_outside _ _).trans hb
    · exact hb
theorem execReplayTimeout_stays [Blanked .fab] [Blanked .host] [Blanked .rick] [Blanked .spi] {l_ : State} (n : Nat) (s : State) (hf_ : s.outside = l_) : Stays l_ (execReplayTimeout n s) := by subst hf_; unfold execReplayTimeout; apply onCas_stays; intros; simp [*]
theorem execCascadePortDown_stays [Blanked .fab] [Blanked .host] [Blanked .rick] [Blanked .spi] {l_ : State} (n : Nat) (inDoubt : List Nat) (s : State) (hf_ : s.outside = l_) : Stays l_ (execCascadePortDown n inDoubt s) := by subst hf_; unfold execCascadePortDown; apply onCas_stays; intros; simp [*]
@[simp] theorem State.casIsolate_outside [Blanked .rick] (s : State) (n : Nat) : (State.casIsolate s n).outside = s.outside := by simp [State.casIsolate]
@[simp] theorem State.rickConflict_outside [Blanked .host] [Blanked .rick] [Blanked .spi] (s : State) (serial : W64) : (State.rickConflict s serial).outside = s.outside := by simp [State.rickConflict]
theorem execCascadePortUp_stays [Blanked .host] [Blanked .rick] [Blanked .spi] {l_ : State} (n : Nat) (partner : CasPartner) (s : State) (hf_ : s.outside = l_) : Stays l_ (execCascadePortUp n partner s) := by subst hf_; unfold execCascadePortUp; apply onCas_stays; intros; simp [*]
@[simp] theorem State.casCfg_outside [Blanked .fab] [Blanked .host] [Blanked .rick] [Blanked .spi] (s : State) (n : Nat) (v : W32) : (State.casCfg s n v).outside = s.outside := by simp [State.casCfg]
theorem execCasPcfg_stays [Blanked .fab] [Blanked .host] [Blanked .rick] [Blanked .spi] [Blanked .ses] {l_ : State} (port n : Nat) (v : W32) (s : State) (hf_ : s.outside = l_) : Stays l_ (execCasPcfg port n v s) := by subst hf_; unfold execCasPcfg; apply onCas_stays; intros; apply gated0_stays; intros; simp [*]
theorem execRickAnnounce_stays [Blanked .host] [Blanked .rick] [Blanked .spi] {l_ : State} (panel : Nat) (serial : W64) (via : Announcement) (s : State) (hf_ : s.outside = l_) : Stays l_ (execRickAnnounce panel serial via s) := by
  subst hf_; unfold execRickAnnounce; repeat' first | with_reducible rfl | assumption | apply outside_foldl | intro _ | (simp; done) | split | (simp_all; done) | simp only [Stays_ok, outside_ite]
theorem casCtl_stays [Blanked .host] [Blanked .rick] [Blanked .spi] [Blanked .ses] {port : Nat} {v : Option W32} {k : State → Out} (h : ∀ u, u.outside = s.outside → Stays s.outside (k u)) : Stays s.outside (casCtl s port v k) := by
  unfold casCtl; apply gated0_stays; apply when_stays rfl
  cases v <;> (dsimp only; split; · exact h _ (by simp)) <;> simp
theorem execPublish_stays [Blanked .host] [Blanked .rick] [Blanked .spi] [Blanked .ses] {l_ : State} (port : Nat) (s : State) (hf_ : s.outside = l_) : Stays l_ (execPublish port s) := by subst hf_; unfold execPublish; apply casCtl_stays; intros; simp [*]
theorem execRickRoutes_stays [Blanked .rick] {l_ : State} (gen : Nat) (s : State) (hf_ : s.outside = l_) : Stays l_ (execRickRoutes gen s) := by subst hf_; simp [execRickRoutes]
@[simp] theorem State.rickRestart_outside [Blanked .tiles] [Blanked .sites] [Blanked .fab] [Blanked .host] [Blanked .rick] [Blanked .spi] (s : State) (c : Nat) : (State.rickRestart s c).outside = s.outside := by simp [State.rickRestart]
theorem execRrestart_stays [Blanked .tiles] [Blanked .sites] [Blanked .fab] [Blanked .host] [Blanked .rick] [Blanked .spi] [Blanked .ses] {l_ : State} (port : Nat) (v : W32) (s : State) (hf_ : s.outside = l_) : Stays l_ (execRrestart port v s) := by
  subst hf_; unfold execRrestart; repeat' first | with_reducible rfl | assumption | apply casCtl_stays | intro _ | (simp; done) | split | (simp_all; done) | simp only [Stays_ok, outside_ite]
theorem execRrestartDone_stays [Blanked .rick] {l_ : State} (s : State) (hf_ : s.outside = l_) : Stays l_ (execRrestartDone s) := by subst hf_; simp [execRrestartDone]
theorem execTimebaseSync_stays [Blanked .time] [Blanked .rick] {l_ : State} (master : Nat) (s : State) (hf_ : s.outside = l_) : Stays l_ (execTimebaseSync master s) := by subst hf_; simp [execTimebaseSync]
theorem execMasterLost_stays [Blanked .rick] {l_ : State} (s : State) (hf_ : s.outside = l_) : Stays l_ (execMasterLost s) := by subst hf_; simp [execMasterLost]
theorem execRickBarrierArrival_stays [Blanked .tiles] [Blanked .host] [Blanked .rick] {l_ : State} (panel id : Nat) (count : W32) (s : State) (hf_ : s.outside = l_) : Stays l_ (execRickBarrierArrival panel id count s) := by subst hf_; simp [execRickBarrierArrival]
theorem execRickBarrierRelease_stays [Blanked .tiles] [Blanked .host] [Blanked .rick] {l_ : State} (id : Nat) (stamp : W64) (s : State) (hf_ : s.outside = l_) : Stays l_ (execRickBarrierRelease id stamp s) := by subst hf_; simp [execRickBarrierRelease]

/-! ### Clocking -/

theorem execClkRefLoss_stays [Blanked .sites] [Blanked .host] [Blanked .clk] [Blanked .spi] [Blanked .hlt] {l_ : State} (input : Nat) (s : State) (hf_ : s.outside = l_) : Stays l_ (execClkRefLoss input s) := by subst hf_; simp [execClkRefLoss]
theorem execClkRefRestored_stays [Blanked .sites] [Blanked .host] [Blanked .clk] [Blanked .spi] [Blanked .hlt] {l_ : State} (input : Nat) (s : State) (hf_ : s.outside = l_) : Stays l_ (execClkRefRestored input s) := by subst hf_; simp [execClkRefRestored]
theorem execEdgeHoldoverExpiry_stays [Blanked .fab] [Blanked .chans] [Blanked .host] [Blanked .rick] [Blanked .spi] [Blanked .hlt] {l_ : State} (edge : Nat) (s : State) (hf_ : s.outside = l_) : Stays l_ (execEdgeHoldoverExpiry edge s) := by
  subst hf_; unfold execEdgeHoldoverExpiry; split
  · simp
  · apply when_stays rfl; split
    · rw [Stays_ok, State.promise_outside, outside_foldl _ (fun u p => by simp)]
    · rw [Stays_ok, outside_foldl _ (fun u p => by split <;> simp)]
theorem execClkDecoupled_stays [Blanked .sites] [Blanked .host] [Blanked .spi] {l_ : State} (site : Nat) (faces : BitVec 4) (s : State) (hf_ : s.outside = l_) : Stays l_ (execClkDecoupled site faces s) := by subst hf_; unfold execClkDecoupled; apply onSite_stays; intros; simp [*]
theorem execClkRecoupled_stays [Blanked .sites] [Blanked .host] [Blanked .clk] [Blanked .spi] {l_ : State} (site : Nat) (s : State) (hf_ : s.outside = l_) : Stays l_ (execClkRecoupled site s) := by subst hf_; unfold execClkRecoupled; apply onSite_stays; intros; simp [*]
theorem execTimeMessage_stays [Blanked .sites] {l_ : State} (site rate : Nat) (s : State) (hf_ : s.outside = l_) : Stays l_ (execTimeMessage site rate s) := by subst hf_; unfold execTimeMessage; apply onSite_stays; intros; simp [*]
theorem execStepChange_stays [Blanked .sites] [Blanked .clk] {l_ : State} (site k : Nat) (s : State) (hf_ : s.outside = l_) : Stays l_ (execStepChange site k s) := by subst hf_; unfold execStepChange; apply onSite_stays; intros; simp [*]
theorem execRailSettled_stays [Blanked .sites] {l_ : State} (site : Nat) (s : State) (hf_ : s.outside = l_) : Stays l_ (execRailSettled site s) := by subst hf_; unfold execRailSettled; apply onSite_stays; intros; simp [*]
theorem execStepStopEnd_stays [Blanked .sites] [Blanked .clk] {l_ : State} (site : Nat) (e : StopEnd) (s : State) (hf_ : s.outside = l_) : Stays l_ (execStepStopEnd site e s) := by subst hf_; unfold execStepStopEnd; apply onSite_stays; intros; simp [*]
theorem execClkStepFault_stays [Blanked .freeN] [Blanked .tiles] [Blanked .sites] [Blanked .host] [Blanked .spi] [Blanked .hlt] {l_ : State} (site : Nat) (s : State) (hf_ : s.outside = l_) : Stays l_ (execClkStepFault site s) := by subst hf_; unfold execClkStepFault; apply onSite_stays; intros; simp [*]
theorem execClkCeil_stays [Blanked .sites] [Blanked .host] [Blanked .parts] [Blanked .clk] [Blanked .spi] [Blanked .ses] {l_ : State} (port p : Nat) (v : W32) (s : State) (hf_ : s.outside = l_) : Stays l_ (execClkCeil port p v s) := by subst hf_; unfold execClkCeil; apply onPart_stays; intros; apply gated0_stays; intros; simp [*]
theorem clkBank_stays [Blanked .host] [Blanked .clk] [Blanked .spi] [Blanked .ses] {port : Nat} {v : W32} {k : State → Nat → Out} (h : ∀ u p, u.outside = s.outside → Stays s.outside (k u p)) : Stays s.outside (clkBank s port v k) := by
  unfold clkBank; apply gated0_stays; apply when_stays rfl; dsimp only; split
  · simp
  · exact h _ _ (by simp)
theorem execBank_stays [Blanked .sites] [Blanked .host] [Blanked .clk] [Blanked .spi] [Blanked .ses] {l_ : State} (port : Nat) (v : W32) (s : State) (hf_ : s.outside = l_) : Stays l_ (execBank port v s) := by subst hf_; unfold execBank; apply clkBank_stays; intros; simp [*]
theorem execUnbank_stays [Blanked .sites] [Blanked .host] [Blanked .clk] [Blanked .spi] [Blanked .ses] {l_ : State} (port : Nat) (v : W32) (s : State) (hf_ : s.outside = l_) : Stays l_ (execUnbank port v s) := by subst hf_; unfold execUnbank; apply clkBank_stays; intros; simp [*]
theorem execBankReturn_stays [Blanked .sites] [Blanked .clk] {l_ : State} (site : Nat) (s : State) (hf_ : s.outside = l_) : Stays l_ (execBankReturn site s) := by subst hf_; unfold execBankReturn; apply onSite_stays; intros; simp [*]

/-! ### RvOps -/

@[simp] theorem State.trap_outside [Blanked .tiles] [Blanked .sites] [Blanked .host] [Blanked .spi] [Blanked .hlt] (s : State) (t c cause : Nat) (tval : W64) : (State.trap s t c cause tval).outside = s.outside := by simp [State.trap]
@[simp] theorem State.trapUncorr_outside [Blanked .tiles] [Blanked .sites] [Blanked .host] [Blanked .spi] [Blanked .hlt] (s : State) (t c a : Nat) : (State.trapUncorr s t c a).outside = s.outside := by simp [State.trapUncorr]
@[simp] theorem State.trapLoad_outside [Blanked .tiles] [Blanked .sites] [Blanked .host] [Blanked .spi] [Blanked .hlt] (s : State) (t c e a : Nat) : (State.trapLoad s t c e a).outside = s.outside := by simp [State.trapLoad]
theorem coreLoad_stays [Blanked .tiles] [Blanked .sites] [Blanked .host] [Blanked .spi] [Blanked .hlt] {t c a n : Nat} {k : State → Nat → Out} (h : ∀ u v, u.outside = s.outside → Stays s.outside (k u v)) : Stays s.outside (coreLoad s t c a n k) := by
  unfold coreLoad; split
  · exact h _ _ (by simp)
  · simp
theorem coreStore_stays [Blanked .freeN] [Blanked .tiles] [Blanked .sites] [Blanked .host] [Blanked .spi] [Blanked .hlt] {t c a n v : Nat} {k : State → Out} (h : ∀ u, u.outside = s.outside → Stays s.outside (k u)) : Stays s.outside (coreStore s t c a n v k) := by
  unfold coreStore; dsimp only; (repeat' split) <;> first | (simp; done) | (refine h _ ?_; simp; done)
@[simp] theorem State.passCycles_outside [Blanked .freeN] [Blanked .tiles] (s : State) (t c : Nat) : (State.passCycles s t c).outside = s.outside := by simp [State.passCycles]
@[simp] theorem State.fetched_outside [Blanked .tiles] (s : State) (t c len : Nat) : (State.fetched s t c len).outside = s.outside := by simp [State.fetched]

/-! ### RiscV -/

@[simp] theorem fin_stays [Blanked .tiles] {l_ : State} (s : State) (t c len : Nat) (f : Core → Core) (hf_ : s.outside = l_) : Stays l_ (fin s t c len f) := by subst hf_; simp [fin]
@[simp] theorem illegal_stays [Blanked .tiles] [Blanked .sites] [Blanked .host] [Blanked .spi] [Blanked .hlt] {l_ : State} (s : State) (t c w : Nat) (hf_ : s.outside = l_) : Stays l_ (illegal s t c w) := by subst hf_; simp [illegal]
@[simp] theorem rvAmo_stays [Blanked .freeN] [Blanked .tiles] [Blanked .sites] [Blanked .host] [Blanked .spi] [Blanked .hlt] {l_ : State} (s : State) (t c w len : Nat) (hf_ : s.outside = l_) : Stays l_ (rvAmo s t c w len) := by
  subst hf_; unfold rvAmo; extract_lets T k n f5 a v rd; clear_value n
  split
  · simp
  · split
    · split
      · simp
      · split
        · simp
        · exact coreLoad_stays fun u v hu => by simp [hu]
    · split
      · split
        · simp
        · split
          · simp
          · split
            · split
              · exact (by simp : (s.spendN (b2n k.resvHit)).outside = s.outside) ▸ coreStore_stays fun u hu => by simp [hu]
              · simp
            · simp
      · split
        · simp
        · split
          · simp
          · split
            · simp
            · exact coreLoad_stays fun u v hu => hu ▸ coreStore_stays fun w hw => by simp [hw]
@[simp] theorem rvFp_stays [Blanked .tiles] [Blanked .sites] [Blanked .host] [Blanked .spi] [Blanked .hlt] {l_ : State} (s : State) (t c w len : Nat) (hf_ : s.outside = l_) : Stays l_ (rvFp s t c w len) := by
  subst hf_; unfold rvFp; repeat' first | with_reducible rfl | assumption | intro _ | (simp; done) | split | (simp_all; done) | simp only [Stays_ok, outside_ite]
@[simp] theorem rvFma_stays [Blanked .tiles] [Blanked .sites] [Blanked .host] [Blanked .spi] [Blanked .hlt] {l_ : State} (s : State) (t c w len : Nat) (hf_ : s.outside = l_) : Stays l_ (rvFma s t c w len) := by
  subst hf_; unfold rvFma; repeat' first | with_reducible rfl | assumption | intro _ | (simp; done) | split | (simp_all; done) | simp only [Stays_ok, outside_ite]
@[simp] theorem rvCsr_stays [Blanked .freeN] [Blanked .tiles] [Blanked .sites] [Blanked .host] [Blanked .spi] [Blanked .hlt] {l_ : State} (s : State) (t c w len : Nat) (hf_ : s.outside = l_) : Stays l_ (rvCsr s t c w len) := by
  subst hf_; unfold rvCsr; dsimp only
  have h : (if w / 2 ^ 20 = 0xC00 then s.passCycles t c else s).outside = s.outside := by split <;> simp
  generalize (if w / 2 ^ 20 = 0xC00 then s.passCycles t c else s) = u at h
  (repeat' split) <;> simp [h]
@[simp] theorem vLoad1_outside [Blanked .tiles] (s : State) (t c : Nat) (m : VMem) (i f : Nat) : (vLoad1 s t c m i f).1.outside = s.outside := by
  unfold vLoad1; dsimp only; split <;> simp
@[simp] theorem vStore1_outside [Blanked .freeN] [Blanked .tiles] [Blanked .host] [Blanked .spi] [Blanked .hlt] (s : State) (t c : Nat) (m : VMem) (i f : Nat) : (vStore1 s t c m i f).1.outside = s.outside := by
  unfold vStore1; dsimp only; (repeat' split) <;> simp
theorem foldl_outside {α β : Type} (p : α → State) (g : α → β → α) (f0 : State)
    (h : ∀ a b, (p a).outside = f0 → (p (g a b)).outside = f0) : ∀ (l : List β) (a : α), (p a).outside = f0 → (p (l.foldl g a)).outside = f0
  | [], _, ha => ha
  | b :: l, a, ha => foldl_outside p g f0 h l _ (h a b ha)
theorem vRun_outside (g : State → Nat → Nat → State × VStop) (hg : ∀ u i j, (g u i j).1.outside = u.outside) (n : Nat) (s : State) (l : List Nat) :
    (vRun g n s l).1.outside = s.outside := by
  unfold vRun
  refine foldl_outside (fun a : State × VStop => a.1) _ _ (fun a i ha => ?_) _ _ rfl
  refine foldl_outside (fun a : State × VStop => a.1) _ _ (fun a j ha => ?_) _ _ ha
  split
  · rw [hg]; exact ha
  · exact ha
@[simp] theorem vAccess_stays [Blanked .freeN] [Blanked .tiles] [Blanked .sites] [Blanked .host] [Blanked .spi] [Blanked .hlt] {l_ : State} (s : State) (t c len : Nat) (m : VMem) (isLoad : Bool) (hf_ : s.outside = l_) : Stays l_ (vAccess s t c len m isLoad) := by
  subst hf_; unfold vAccess; dsimp only
  have h := vRun_outside (fun s i f => if isLoad then vLoad1 s t c m i f else vStore1 s t c m i f) (fun u i j => by split <;> simp) m.fields s
    (m.elems.filter fun i => (s.core t c).active m.vm i)
  generalize vRun _ _ _ _ = r at h
  (repeat' split) <;> simp [h]
@[simp] theorem rvVecMem_stays [Blanked .freeN] [Blanked .tiles] [Blanked .sites] [Blanked .host] [Blanked .spi] [Blanked .hlt] {l_ : State} (s : State) (t c w len : Nat) (isLoad : Bool) (hf_ : s.outside = l_) : Stays l_ (rvVecMem s t c w len isLoad) := by
  subst hf_; unfold rvVecMem; dsimp only; (repeat' split) <;> simp
@[simp] theorem rvVec_stays [Blanked .tiles] [Blanked .sites] [Blanked .host] [Blanked .spi] [Blanked .hlt] {l_ : State} (s : State) (t c w len : Nat) (hf_ : s.outside = l_) : Stays l_ (rvVec s t c w len) := by
  subst hf_; unfold rvVec; repeat' first | with_reducible rfl | assumption | intro _ | (simp; done) | split | (simp_all; done) | simp only [Stays_ok, outside_ite]
@[simp] theorem rvExec_stays [Blanked .freeN] [Blanked .tiles] [Blanked .sites] [Blanked .host] [Blanked .spi] [Blanked .hlt] {l_ : State} (s : State) (t c w len : Nat) (hf_ : s.outside = l_) : Stays l_ (rvExec s t c w len) := by
  subst hf_; unfold rvExec; dsimp only; split
  all_goals first
    | (simp; done)
    | (split <;> (first | (simp; done) | exact coreLoad_stays fun u v hu => by simp [hu] | exact coreStore_stays fun u hu => by simp [hu]))
    | ((repeat' split) <;> first | (simp; done) | exact coreLoad_stays fun u v hu => by simp [hu] | exact coreStore_stays fun u hu => by simp [hu])
@[simp] theorem execRvInstruction_stays [Blanked .freeN] [Blanked .tiles] [Blanked .sites] [Blanked .host] [Blanked .spi] [Blanked .hlt] {l_ : State} (t c : Nat) (mismatch : Bool) (s : State) (hf_ : s.outside = l_) :
    Stays l_ (execRvInstruction t c mismatch s) := by
  subst hf_; unfold execRvInstruction; refine onTile_stays fun T => ?_; (repeat' split) <;> simp

/-! ### Cores -/

theorem atXt_stays [Blanked .tiles] {t c : Nat} {x : Xt} {k : State → Nat → Out} (h : ∀ u w, u.outside = s.outside → Stays s.outside (k u w)) : Stays s.outside (atXt s t c x k) := by
  unfold atXt; apply onTile_stays; intro T; (repeat' split) <;> first | (simp; done) | exact h _ _ (by simp)
@[simp] theorem queueTransfer_stays [Blanked .freeN] [Blanked .tiles] [Blanked .sites] [Blanked .chans] [Blanked .host] [Blanked .spi] [Blanked .hlt] {l_ : State} (s : State) (t c : Nat) (put : Bool) (w : Nat) (hf_ : s.outside = l_) : Stays l_ (queueTransfer s t c put w) := by subst hf_; simp [queueTransfer]
theorem execXtPut_stays [Blanked .freeN] [Blanked .tiles] [Blanked .sites] [Blanked .chans] [Blanked .host] [Blanked .spi] [Blanked .hlt] {l_ : State} (t c : Nat) (s : State) (hf_ : s.outside = l_) : Stays l_ (execXtPut t c s) := by subst hf_; unfold execXtPut; apply atXt_stays; intros; simp [*]
theorem execXtGet_stays [Blanked .freeN] [Blanked .tiles] [Blanked .sites] [Blanked .chans] [Blanked .host] [Blanked .spi] [Blanked .hlt] {l_ : State} (t c : Nat) (s : State) (hf_ : s.outside = l_) : Stays l_ (execXtGet t c s) := by subst hf_; unfold execXtGet; apply atXt_stays; intros; simp [*]
@[simp] theorem issuePut_outside [Blanked .tiles] [Blanked .sites] [Blanked .fab] [Blanked .host] [Blanked .spi] [Blanked .hlt] (s : State) (t c : Nat) (x : Transfer) : (issuePut s t c x).outside = s.outside := by
  unfold issuePut; simp only [State.edgeSeq, State.tileSeq]; repeat' first | with_reducible rfl | assumption | intro _ | (simp; done) | split | (simp_all; done) | simp only [Stays_ok, outside_ite]
@[simp] theorem issueGet_outside [Blanked .tiles] [Blanked .sites] [Blanked .fab] [Blanked .host] [Blanked .spi] (s : State) (t c : Nat) (x : Transfer) : (issueGet s t c x).outside = s.outside := by
  unfold issueGet; repeat' first | with_reducible rfl | assumption | intro _ | (simp; done) | split | (simp_all; done) | simp only [Stays_ok, outside_ite]
theorem execTransferPacketIssue_stays [Blanked .tiles] [Blanked .sites] [Blanked .fab] [Blanked .host] [Blanked .spi] [Blanked .hlt] {l_ : State} (t : Nat) (s : State) (hf_ : s.outside = l_) : Stays l_ (execTransferPacketIssue t s) := by subst hf_; unfold execTransferPacketIssue; apply onTile_stays; intros; (repeat' split) <;> simp [*]
theorem execEcallExit_stays [Blanked .tiles] {l_ : State} (t c : Nat) (s : State) (hf_ : s.outside = l_) : Stays l_ (execEcallExit t c s) := by subst hf_; unfold execEcallExit; apply onTile_stays; intros; (repeat' split) <;> simp [*]
theorem execCoreDone_stays [Blanked .tiles] [Blanked .host] {l_ : State} (t c : Nat) (s : State) (hf_ : s.outside = l_) : Stays l_ (execCoreDone t c s) := by
  subst hf_; unfold execCoreDone; repeat' first | with_reducible rfl | assumption | apply onTile_stays | intro _ | (simp; done) | split | (simp_all; done) | simp only [Stays_ok, outside_ite]
theorem execXtProbe_stays [Blanked .freeN] [Blanked .tiles] [Blanked .sites] [Blanked .host] [Blanked .spi] [Blanked .hlt] {l_ : State} (t c : Nat) (s : State) (hf_ : s.outside = l_) : Stays l_ (execXtProbe t c s) := by
  subst hf_; unfold execXtProbe; repeat' first | with_reducible rfl | assumption | apply atXt_stays | intro _ | (simp; done) | split | (simp_all; done) | simp only [Stays_ok, outside_ite]
theorem execXtEnq_stays [Blanked .tiles] [Blanked .sites] [Blanked .host] [Blanked .spi] [Blanked .hlt] {l_ : State} (t c : Nat) (s : State) (hf_ : s.outside = l_) : Stays l_ (execXtEnq t c s) := by
  subst hf_; unfold execXtEnq; repeat' first | with_reducible rfl | assumption | apply atXt_stays | intro _ | (simp; done) | split | (simp_all; done) | simp only [Stays_ok, outside_ite]
@[simp] theorem counterOp_stays [Blanked .tiles] {l_ : State} (s : State) (t c w : Nat) (old : Ctr → W32) (f : Ctr → W32 → Ctr) (hf_ : s.outside = l_) : Stays l_ (counterOp s t c w old f) := by
  subst hf_; unfold counterOp; simp
theorem execXtCset_stays [Blanked .tiles] {l_ : State} (t c : Nat) (s : State) (hf_ : s.outside = l_) : Stays l_ (execXtCset t c s) := by subst hf_; unfold execXtCset; apply atXt_stays; intros; simp [*]
theorem execXtCadd_stays [Blanked .tiles] {l_ : State} (t c : Nat) (s : State) (hf_ : s.outside = l_) : Stays l_ (execXtCadd t c s) := by subst hf_; unfold execXtCadd; apply atXt_stays; intros; simp [*]
theorem execXtCarm_stays [Blanked .tiles] {l_ : State} (t c : Nat) (s : State) (hf_ : s.outside = l_) : Stays l_ (execXtCarm t c s) := by subst hf_; unfold execXtCarm; apply atXt_stays; intros; simp [*]
theorem execXtCwait_stays [Blanked .tiles] {l_ : State} (t c : Nat) (s : State) (hf_ : s.outside = l_) : Stays l_ (execXtCwait t c s) := by subst hf_; unfold execXtCwait; apply atXt_stays; intros; simp [*]
theorem execCwaitResume_stays [Blanked .tiles] {l_ : State} (t c : Nat) (s : State) (hf_ : s.outside = l_) : Stays l_ (execCwaitResume t c s) := by
  subst hf_; unfold execCwaitResume; repeat' first | with_reducible rfl | assumption | apply onTile_stays | intro _ | (simp; done) | split | (simp_all; done) | simp only [Stays_ok, outside_ite]
@[simp] theorem State.takeEvt_outside [Blanked .host] [Blanked .spi] (s : State) (t c : Nat) (e : ProgEvt) : (State.takeEvt s t c e).outside = s.outside := by simp [State.takeEvt]
@[simp] theorem State.acceptEvt_outside [Blanked .tiles] [Blanked .host] [Blanked .spi] (s : State) (t c : Nat) : (State.acceptEvt s t c).outside = s.outside := by unfold State.acceptEvt; split <;> simp
theorem execXtEvt_stays [Blanked .tiles] [Blanked .host] [Blanked .spi] {l_ : State} (t : Nat) (x : EvtOffer) (s : State) (hf_ : s.outside = l_) : Stays l_ (execXtEvt t x s) := by subst hf_; unfold execXtEvt; apply atXt_stays; intros; simp [*]
theorem execLaunchStart_stays [Blanked .freeN] [Blanked .tiles] [Blanked .sites] [Blanked .fab] [Blanked .host] {l_ : State} (i : Nat) (s : State) (hf_ : s.outside = l_) : Stays l_ (execLaunchStart i s) := by subst hf_; unfold execLaunchStart; (repeat' split) <;> simp
theorem execLoadTileStart_stays [Blanked .freeN] [Blanked .tiles] [Blanked .sites] [Blanked .fab] [Blanked .host] [Blanked .spi] {l_ : State} (i : Nat) (s : State) (hf_ : s.outside = l_) : Stays l_ (execLoadTileStart i s) := by subst hf_; unfold execLoadTileStart; (repeat' split) <;> simp
theorem execLoadEnd_stays [Blanked .freeN] [Blanked .tiles] [Blanked .sites] [Blanked .fab] [Blanked .host] [Blanked .spi] [Blanked .hlt] {l_ : State} (t : Nat) (s : State) (hf_ : s.outside = l_) : Stays l_ (execLoadEnd t s) := by subst hf_; unfold execLoadEnd; apply onTile_stays; intros; (repeat' split) <;> simp [*]

/-! ### Engine -/

@[simp] theorem State.engEvent_outside [Blanked .host] [Blanked .spi] [Blanked .hlt] (s : State) (code t : Nat) (c : EngCmd) : (State.engEvent s code t c).outside = s.outside := by simp [State.engEvent]
@[simp] theorem State.engHalt_outside [Blanked .tiles] [Blanked .sites] [Blanked .host] [Blanked .spi] [Blanked .hlt] (s : State) (t : Nat) (u : EngUnit) (c : EngCmd) (k : EngCause) : (State.engHalt s t u c k).outside = s.outside := by simp [State.engHalt]
@[simp] theorem State.engRetried_outside [Blanked .tiles] [Blanked .sites] [Blanked .host] [Blanked .spi] [Blanked .hlt] (s : State) (t : Nat) (c : EngCmd) (k : EngCause) : (State.engRetried s t c k).outside = s.outside := by simp [State.engRetried]
@[simp] theorem State.unitReads_outside [Blanked .tiles] [Blanked .host] [Blanked .spi] [Blanked .hlt] (s : State) (t : Nat) (reads : Nat → Bool) : (State.unitReads s t reads).outside = s.outside := by simp [State.unitReads]
@[simp] theorem State.badCmd_outside [Blanked .freeN] [Blanked .tiles] (s : State) (t : Nat) (u : EngUnit) (c : EngCmd) (hw : EngHw) (path : Option Bool) : (State.badCmd s t u c hw path).outside = s.outside := by simp [State.badCmd]
theorem execLoadw_stays [Blanked .freeN] [Blanked .tiles] {l_ : State} (t : Nat) (hw : EngHw) (s : State) (hf_ : s.outside = l_) : Stays l_ (execLoadw t hw s) := by subst hf_; unfold execLoadw; apply onTile_stays; intros; (repeat' split) <;> simp [*]
@[simp] theorem State.badMma_outside [Blanked .freeN] [Blanked .tiles] (s : State) (t : Nat) (c : EngCmd) (hw : EngHw) : (State.badMma s t c hw).outside = s.outside := by simp [State.badMma]
theorem execMma_stays [Blanked .freeN] [Blanked .tiles] [Blanked .host] [Blanked .spi] [Blanked .hlt] {l_ : State} (t : Nat) (hw : EngHw) (s : State) (hf_ : s.outside = l_) : Stays l_ (execMma t hw s) := by subst hf_; unfold execMma; apply onTile_stays; intros; (repeat' split) <;> simp [*]
theorem execStore_stays [Blanked .freeN] [Blanked .tiles] [Blanked .host] [Blanked .spi] [Blanked .hlt] {l_ : State} (t : Nat) (hw : EngHw) (s : State) (hf_ : s.outside = l_) : Stays l_ (execStore t hw s) := by subst hf_; unfold execStore; apply onTile_stays; intros; (repeat' split) <;> simp [*]
theorem execZero_stays [Blanked .tiles] {l_ : State} (t : Nat) (hw : EngHw) (s : State) (hf_ : s.outside = l_) : Stays l_ (execZero t hw s) := by subst hf_; unfold execZero; apply onTile_stays; intros; (repeat' split) <;> simp [*]
theorem execNop_stays [Blanked .tiles] {l_ : State} (t : Nat) (s : State) (hf_ : s.outside = l_) : Stays l_ (execNop t s) := by subst hf_; unfold execNop; apply onTile_stays; intros; (repeat' split) <;> simp [*]
@[simp] theorem State.engRetires_outside [Blanked .freeN] [Blanked .tiles] (s : State) (t : Nat) (u : EngUnit) (r : Running) (fate : Fare) (m : Mem) : (State.engRetires s t u r fate m).outside = s.outside := by simp [State.engRetires]
@[simp] theorem State.engLost_outside [Blanked .tiles] (s : State) (t : Nat) (u : EngUnit) : (State.engLost s t u).outside = s.outside := by simp [State.engLost]
theorem execEngineRetire_stays [Blanked .freeN] [Blanked .tiles] [Blanked .sites] [Blanked .host] [Blanked .spi] [Blanked .hlt] {l_ : State} (t : Nat) (u : EngUnit) (s : State) (hf_ : s.outside = l_) : Stays l_ (execEngineRetire t u s) := by
  subst hf_; unfold execEngineRetire; repeat' first | with_reducible rfl | assumption | apply onTile_stays | intro _ | (simp; done) | split | (simp_all; done) | simp only [Stays_ok, outside_ite]
theorem execEngCtrlClear_stays [Blanked .tiles] {l_ : State} (t : Nat) (s : State) (hf_ : s.outside = l_) : Stays l_ (execEngCtrlClear t s) := by subst hf_; unfold execEngCtrlClear; apply onTile_stays; intros; simp [*]

/-! ### Thermal -/

@[simp] theorem State.heatBank_outside [Blanked .sites] [Blanked .host] [Blanked .spi] (s : State) (p t : Nat) : (State.heatBank s p t).outside = s.outside := by simp [State.heatBank]
@[simp] theorem State.tempActs_stays [Blanked .tiles] [Blanked .sites] [Blanked .fab] [Blanked .host] [Blanked .spi] [Blanked .hlt] {l_ : State} (s : State) (site : Nat) (st : SiteSt) (r : TempReading) (t te : Nat) (hf_ : s.outside = l_) :
    Stays l_ (s.tempActs site st r t te) := by
  subst hf_; unfold State.tempActs; dsimp only; (repeat' split) <;> simp
theorem execTempSample_stays [Blanked .tiles] [Blanked .sites] [Blanked .fab] [Blanked .host] [Blanked .clk] [Blanked .spi] [Blanked .hlt] {l_ : State} (site : Nat) (r : TempReading) (s : State) (hf_ : s.outside = l_) : Stays l_ (execTempSample site r s) := by
  subst hf_; unfold execTempSample; refine onSite_stays fun x => when_stays rfl ?_
  dsimp only; apply State.tempActs_stays
  split
  · split <;> simp
  · simp
@[simp] theorem State.throttle_outside [Blanked .sites] [Blanked .host] [Blanked .clk] [Blanked .spi] (s : State) (p : Nat) : (State.throttle s p).outside = s.outside := by simp [State.throttle]
@[simp] theorem State.unthrottle_outside [Blanked .sites] [Blanked .clk] (s : State) (p : Nat) : (State.unthrottle s p).outside = s.outside := by simp [State.unthrottle]
theorem execThermalTurn_stays [Blanked .sites] [Blanked .host] [Blanked .clk] [Blanked .spi] {l_ : State} (s : State) (hf_ : s.outside = l_) : Stays l_ (execThermalTurn s) := by
  subst hf_; unfold execThermalTurn; repeat' first | with_reducible rfl | assumption | intro _ | (simp; done) | split | (simp_all; done) | simp only [Stays_ok, outside_ite]
theorem execThmUnbank_stays [Blanked .sites] [Blanked .host] [Blanked .clk] [Blanked .spi] {l_ : State} (site : Nat) (s : State) (hf_ : s.outside = l_) : Stays l_ (execThmUnbank site s) := by subst hf_; unfold execThmUnbank; apply onSite_stays; intros; simp [*]
theorem execThmOn_stays [Blanked .sites] [Blanked .host] [Blanked .clk] [Blanked .pwr] [Blanked .spi] {l_ : State} (site : Nat) (s : State) (hf_ : s.outside = l_) : Stays l_ (execThmOn site s) := by subst hf_; unfold execThmOn; apply onSite_stays; intros; simp [*]

end Sys2Proof.Machine
end

