-- ==== Sys2Proof/Laws/Lasting.lean ====
section
/-! SUPPORT. What almost every operation leaves alone: the queue of waiting commands, the fused owner key hash and minimum SVN (R497), and the meter's seal (R511).
One lemma for each shared operation and one for each meaning; the five commands that write them only let them grow. -/

namespace Sys2Proof.Machine

/-- What `State.lasting` answers. -/
abbrev Lasting := List Instr × Option (List Byte) × Nat × Bool
/-- The queue, the fused owner key hash, the fused minimum SVN and the meter's seal. -/
def State.lasting (s : State) : Lasting := (s.pending, s.ses.owner, s.ses.svnMin, s.mtr.sealBit)

/-- If an outcome is a next state, that state's lasting part is `f`. -/
structure Keeps (f : Lasting) (o : Out) : Prop where
  holds : ∀ t, o = .next t → t.lasting = f

variable {f : Lasting}

@[simp] theorem lasting_ite (c : Prop) [Decidable c] (a b : State) : (if c then a else b).lasting = if c then a.lasting else b.lasting := by split <;> rfl
@[simp] theorem lasting_foldl {α : Type} (g : State → α → State) (h : ∀ s a, (g s a).lasting = s.lasting) (l : List α) (s : State) :
    (l.foldl g s).lasting = s.lasting := by
  induction l generalizing s with
  | nil => rfl
  | cons a l ih => simp [ih, h]
@[simp] theorem Keeps_ok (s : State) : Keeps f (ok s) ↔ s.lasting = f := ⟨fun h => h.holds s rfl, fun h => ⟨fun t e => by cases e; exact h⟩⟩
@[simp] theorem Keeps_next (s : State) : Keeps f (.next s) ↔ s.lasting = f := Keeps_ok s
@[simp] theorem Keeps_fault (r : Fault) : Keeps f (.fault r) := ⟨fun t e => by cases e⟩
@[simp] theorem Keeps_refused (r : Refusal) : Keeps f (.refused r) := ⟨fun t e => by cases e⟩
@[simp] theorem Keeps_ite (c : Prop) [Decidable c] (a b : Out) : Keeps f (if c then a else b) ↔ if c then Keeps f a else Keeps f b := by split <;> rfl
@[simp] theorem Keeps_when (b : Bool) (s : State) (k : Out) : Keeps f (when_ b s k) ↔ if b then Keeps f k else s.lasting = f := by
  unfold when_; split <;> simp
theorem Keeps_foldOut {α : Type} (g : State → α → Out) (h : ∀ s a, Keeps s.lasting (g s a)) : ∀ (l : List α) (s : State), Keeps s.lasting (foldOut g s l)
  | [], s => by simp [foldOut]
  | a :: l, s => by
    unfold foldOut
    have ha := h s a
    generalize g s a = o at ha
    cases o with
    | next t => have := Keeps_foldOut g h l t; simp at ha; rw [← ha]; exact this
    | fault r => simp
    | refused r => simp
theorem Keeps_andThen (o : Out) (k : State → Out) (ho : Keeps f o) (hk : ∀ t, t.lasting = f → Keeps f (k t)) : Keeps f (andThen o k) := by
  unfold andThen
  cases o with
  | next t => exact hk t (by simpa using ho)
  | fault r => simp
  | refused r => simp

@[simp] theorem lasting_eta (s : State) : (s.pending, s.ses.owner, s.ses.svnMin, s.mtr.sealBit) = s.lasting := Eq.symm rfl
@[simp] theorem lasting_mk (a b c d e g h i j k l m n o p q r) (x : Ses) (y : Mtr) (z) :
    (State.mk a b c d e g h i j k l m n o p q r x y z).lasting = (a, x.owner, x.svnMin, y.sealBit) := Eq.symm rfl


variable {s : State}

/-! ### Ops -/

@[simp] theorem State.setTile_lasting (s : State) (n : Nat) (t : Tile) : (State.setTile s n t).lasting = s.lasting := Eq.symm rfl
@[simp] theorem State.modTile_lasting (s : State) (n : Nat) (f : Tile → Tile) : (State.modTile s n f).lasting = s.lasting := Eq.symm rfl
@[simp] theorem State.setSite_lasting (s : State) (p : Nat) (x : Site) : (State.setSite s p x).lasting = s.lasting := Eq.symm rfl
@[simp] theorem State.modSite_lasting (s : State) (p : Nat) (f : Site → Site) : (State.modSite s p f).lasting = s.lasting := Eq.symm rfl
@[simp] theorem State.setChan_lasting (s : State) (c : Nat) (x : Chan) : (State.setChan s c x).lasting = s.lasting := Eq.symm rfl
@[simp] theorem State.modChan_lasting (s : State) (c : Nat) (f : Chan → Chan) : (State.modChan s c f).lasting = s.lasting := Eq.symm rfl
@[simp] theorem State.setHost_lasting (s : State) (h : HostIf) : (State.setHost s h).lasting = s.lasting := Eq.symm rfl
@[simp] theorem State.modHost_lasting (s : State) (f : HostIf → HostIf) : (State.modHost s f).lasting = s.lasting := Eq.symm rfl
@[simp] theorem State.setPort_lasting (s : State) (p : Nat) (x : Port) : (State.setPort s p x).lasting = s.lasting := Eq.symm rfl
@[simp] theorem State.modPort_lasting (s : State) (p : Nat) (f : Port → Port) : (State.modPort s p f).lasting = s.lasting := Eq.symm rfl
@[simp] theorem State.setCtx_lasting (s : State) (c : Nat) (x : Ctx) : (State.setCtx s c x).lasting = s.lasting := Eq.symm rfl
@[simp] theorem State.modCtx_lasting (s : State) (c : Nat) (f : Ctx → Ctx) : (State.modCtx s c f).lasting = s.lasting := Eq.symm rfl
@[simp] theorem State.setPart_lasting (s : State) (p : Nat) (x : Part) : (State.setPart s p x).lasting = s.lasting := Eq.symm rfl
@[simp] theorem State.modPart_lasting (s : State) (p : Nat) (f : Part → Part) : (State.modPart s p f).lasting = s.lasting := Eq.symm rfl
@[simp] theorem State.modWin_lasting (s : State) (w : Nat) (f : Win → Win) : (State.modWin s w f).lasting = s.lasting := Eq.symm rfl
@[simp] theorem State.modRick_lasting (s : State) (f : Rick → Rick) : (State.modRick s f).lasting = s.lasting := Eq.symm rfl
@[simp] theorem State.modCas_lasting (s : State) (n : Nat) (f : CasPort → CasPort) : (State.modCas s n f).lasting = s.lasting := Eq.symm rfl
@[simp] theorem State.modFab_lasting (s : State) (f : Fabric → Fabric) : (State.modFab s f).lasting = s.lasting := Eq.symm rfl
@[simp] theorem State.modClk_lasting (s : State) (f : Clk → Clk) : (State.modClk s f).lasting = s.lasting := Eq.symm rfl
@[simp] theorem State.modPwr_lasting (s : State) (f : Pwr → Pwr) : (State.modPwr s f).lasting = s.lasting := Eq.symm rfl
@[simp] theorem State.modCap_lasting (s : State) (f : Cap → Cap) : (State.modCap s f).lasting = s.lasting := Eq.symm rfl
@[simp] theorem State.modSpi_lasting (s : State) (f : Spi → Spi) : (State.modSpi s f).lasting = s.lasting := Eq.symm rfl
@[simp] theorem State.modHlt_lasting (s : State) (f : Hlt → Hlt) : (State.modHlt s f).lasting = s.lasting := Eq.symm rfl
@[simp] theorem State.modDbg_lasting (s : State) (f : Dbg → Dbg) : (State.modDbg s f).lasting = s.lasting := Eq.symm rfl
@[simp] theorem State.modSes_lasting (s : State) (g : Ses → Ses) (h1 : (g s.ses).owner = s.ses.owner) (h2 : (g s.ses).svnMin = s.ses.svnMin) :
    (s.modSes g).lasting = s.lasting := by simp only [State.lasting, State.modSes, h1, h2]
@[simp] theorem State.modMtr_lasting (s : State) (g : Mtr → Mtr) (h : (g s.mtr).sealBit = s.mtr.sealBit) : (s.modMtr g).lasting = s.lasting := by
  simp only [State.lasting, State.modMtr, h]
@[simp] theorem State.unpower_lasting (s : State) (mv : Nat) : (s.unpower mv).lasting = s.lasting := Eq.symm rfl
@[simp] theorem State.timeOf_lasting (s : State) (t : Nat) : ({ s with time := t } : State).lasting = s.lasting := Eq.symm rfl
@[simp] theorem State.freeOf_lasting (s : State) (n : Nat) : ({ s with freeN := n } : State).lasting = s.lasting := Eq.symm rfl



theorem onTile_keeps {t : Nat} {k : Tile → Out} (h : ∀ x, Keeps s.lasting (k x)) : Keeps s.lasting (onTile s t k) := by unfold onTile; split <;> simp [h]
theorem onSite_keeps {t : Nat} {k : Site → Out} (h : ∀ x, Keeps s.lasting (k x)) : Keeps s.lasting (onSite s t k) := by unfold onSite; split <;> simp [h]
theorem onPort_keeps {t : Nat} {k : Port → Out} (h : ∀ x, Keeps s.lasting (k x)) : Keeps s.lasting (onPort s t k) := by unfold onPort; split <;> simp [h]
theorem onPart_keeps {t : Nat} {k : Part → Out} (h : ∀ x, Keeps s.lasting (k x)) : Keeps s.lasting (onPart s t k) := by unfold onPart; split <;> simp [h]
theorem onCtx_keeps {t : Nat} {k : Ctx → Out} (h : ∀ x, Keeps s.lasting (k x)) : Keeps s.lasting (onCtx s t k) := by unfold onCtx; split <;> simp [h]
theorem onCas_keeps {t : Nat} {k : CasPort → Out} (h : ∀ x, Keeps s.lasting (k x)) : Keeps s.lasting (onCas s t k) := by unfold onCas; split <;> simp [h]
theorem when_keeps {b : Bool} {u : State} {k : Out} (hu : u.lasting = f) (h : Keeps f k) : Keeps f (when_ b u k) := by unfold when_; split <;> simp [hu, h]

@[simp] theorem State.spend_lasting (s : State) : s.spend.lasting = s.lasting := Eq.symm rfl
@[simp] theorem State.spendN_lasting (s : State) (n : Nat) : (State.spendN s n).lasting = s.lasting := Eq.symm rfl
@[simp] theorem State.modCore_lasting (s : State) (t c : Nat) (f : Core → Core) : (State.modCore s t c f).lasting = s.lasting := by simp [State.modCore]
@[simp] theorem State.bump_lasting (s : State) (t k n : Nat) : (State.bump s t k n).lasting = s.lasting := Eq.symm rfl

/-! ### Events -/

@[simp] theorem State.send_lasting (s : State) (x : HostTxn) : (State.send s x).lasting = s.lasting := Eq.symm rfl
@[simp] theorem State.hostWrite_lasting (s : State) (port addr : Nat) (bytes : List Byte) (relaxed : Bool) : (State.hostWrite s port addr bytes relaxed).lasting = s.lasting := by simp [State.hostWrite]
@[simp] theorem State.sendMsix_lasting (s : State) (port vec : Nat) : (State.sendMsix s port vec).lasting = s.lasting := by simp [State.sendMsix]
@[simp] theorem State.evtRecord_lasting (s : State) (w0 w1 w2 w3 : Nat) : (State.evtRecord s w0 w1 w2 w3).lasting = s.lasting := by simp [State.evtRecord]
@[simp] theorem State.evtLose_lasting (s : State) : (State.evtLose s).lasting = s.lasting := Eq.symm rfl
@[simp] theorem State.evtPut_lasting (s : State) (w0 w1 w2 w3 : Nat) : (State.evtPut s w0 w1 w2 w3).lasting = s.lasting := by simp [State.evtPut]
@[simp] theorem State.evtPut2_lasting (s : State) (a0 a1 a2 a3 b0 b1 b2 b3 : Nat) : (State.evtPut2 s a0 a1 a2 a3 b0 b1 b2 b3).lasting = s.lasting := by simp [State.evtPut2]
@[simp] theorem State.logPut_lasting (s : State) (w0 w1 w2 w3 : Nat) : (State.logPut s w0 w1 w2 w3).lasting = s.lasting := Eq.symm rfl
@[simp] theorem State.bootLog_lasting (s : State) (code d0 d1 : Nat) : (State.bootLog s code d0 d1).lasting = s.lasting := Eq.symm rfl
@[simp] theorem State.raiseAt_lasting (s : State) (at_ : Nat) (e : Ev) : (State.raiseAt s at_ e).lasting = s.lasting := by simp [State.raiseAt]
@[simp] theorem State.raise_lasting (s : State) (e : Ev) : (State.raise s e).lasting = s.lasting := by simp [State.raise]
@[simp] theorem State.raise2_lasting (s : State) (a b : Ev) : (State.raise2 s a b).lasting = s.lasting := by simp [State.raise2]
@[simp] theorem State.raiseTile_lasting (s : State) (code t core : Nat) (ctx : Option (Nat × Nat)) (d0 d1 : Nat) : (State.raiseTile s code t core ctx d0 d1).lasting = s.lasting := by simp [State.raiseTile]
@[simp] theorem State.raiseSite_lasting (s : State) (code p d0 d1 : Nat) : (State.raiseSite s code p d0 d1).lasting = s.lasting := by simp [State.raiseSite]
@[simp] theorem State.raiseEdge_lasting (s : State) (code id d0 d1 : Nat) : (State.raiseEdge s code id d0 d1).lasting = s.lasting := by simp [State.raiseEdge]
@[simp] theorem State.raisePort_lasting (s : State) (code port d0 d1 : Nat) : (State.raisePort s code port d0 d1).lasting = s.lasting := by simp [State.raisePort]
@[simp] theorem State.raisePanel_lasting (s : State) (code d0 d1 : Nat) : (State.raisePanel s code d0 d1).lasting = s.lasting := by simp [State.raisePanel]
@[simp] theorem State.raiseCtx_lasting (s : State) (code c d0 d1 : Nat) : (State.raiseCtx s code c d0 d1).lasting = s.lasting := by simp [State.raiseCtx]
@[simp] theorem State.complete_lasting (s : State) (c : Nat) (n : W32) (tag : Nat) (irq : Bool) (e : Ending) : (State.complete s c n tag irq e).lasting = s.lasting := by simp [State.complete]
@[simp] theorem State.note_lasting (s : State) (x : FaultNote) : (State.note s x).lasting = s.lasting := Eq.symm rfl
@[simp] theorem State.modDesc_lasting (s : State) (c : Nat) (n : W32) (f : InFl → InFl) : (State.modDesc s c n f).lasting = s.lasting := Eq.symm rfl
@[simp] theorem State.endDesc_lasting (s : State) (c : Nat) (n : W32) (e : Ending) : (State.endDesc s c n e).lasting = s.lasting := by unfold State.endDesc; split <;> simp
@[simp] theorem State.launchCheck_lasting (s : State) (c : Nat) (n : W32) : (State.launchCheck s c n).lasting = s.lasting := by unfold State.launchCheck; (repeat' split) <;> simp
@[simp] theorem State.launchCoreDone_lasting (s : State) (c : Nat) (n : W32) (t core exit : Nat) : (State.launchCoreDone s c n t core exit).lasting = s.lasting := by simp [State.launchCoreDone]
@[simp] theorem State.launchReport_lasting (s : State) (c : Nat) (n : W32) (t : Nat) (cores : List Nat) (fail : Nat) : (State.launchReport s c n t cores fail).lasting = s.lasting := by simp [State.launchReport]
@[simp] theorem State.noteTrap_lasting (s : State) (t core : Nat) (k : Core) : (State.noteTrap s t core k).lasting = s.lasting := by unfold State.noteTrap; (repeat' split) <;> simp
@[simp] theorem State.noteHalt_lasting (s : State) (t : Nat) (code : Nat) : (State.noteHalt s t code).lasting = s.lasting := by unfold State.noteHalt; apply lasting_foldl; intros; first | (simp; done) | (repeat' split) <;> simp
@[simp] theorem State.noteLost_lasting (s : State) (t : Nat) : (State.noteLost s t).lasting = s.lasting := by simp [State.noteLost]
@[simp] theorem State.stopCtx_lasting (s : State) (c : Nat) : (State.stopCtx s c).lasting = s.lasting := Eq.symm rfl

/-! ### EngineOps -/

@[simp] theorem State.wild_lasting (s : State) (t : Nat) : (State.wild s t).lasting = s.lasting := Eq.symm rfl
@[simp] theorem State.sramStore_lasting (s : State) (t a : Nat) (bs : List Byte) : (State.sramStore s t a bs).lasting = s.lasting := by simp [State.sramStore]

/-! ### HealthOps -/

@[simp] theorem State.learn_lasting (s : State) (type : Nat) (payload : List W64) : (State.learn s type payload).lasting = s.lasting := Eq.symm rfl
@[simp] theorem State.addDefect_lasting (s : State) (w0 : W64) (selfTest : Bool) : (State.addDefect s w0 selfTest).lasting = s.lasting := Eq.symm rfl
@[simp] theorem State.foundOnly_lasting (s : State) (w0 : W64) : (State.foundOnly s w0).lasting = s.lasting := Eq.symm rfl
@[simp] theorem State.learnMargin_lasting (s : State) (p : Nat) : (State.learnMargin s p).lasting = s.lasting := Eq.symm rfl
@[simp] theorem State.ceilingChanged_lasting (s : State) (p cell ceil : Nat) : (State.ceilingChanged s p cell ceil).lasting = s.lasting := by simp [State.ceilingChanged]
@[simp] theorem State.detectAt_lasting (s : State) (p c k : Nat) : (State.detectAt s p c k).lasting = s.lasting := by simp [State.detectAt]
@[simp] theorem State.timingDetect_lasting (s : State) (p : Nat) : (State.timingDetect s p).lasting = s.lasting := by simp [State.timingDetect]
@[simp] theorem State.tag_lasting (s : State) (p : Nat) (failed : Bool) : (State.tag s p failed).lasting = s.lasting := Eq.symm rfl
@[simp] theorem State.fence_lasting (s : State) (t : Nat) : (State.fence s t).lasting = s.lasting := by simp [State.fence]
@[simp] theorem State.candidate_lasting (s : State) (t by_ : Nat) : (State.candidate s t by_).lasting = s.lasting := by simp [State.candidate]
@[simp] theorem State.scoreCheck_lasting (s : State) (t : Nat) : (State.scoreCheck s t).lasting = s.lasting := by simp [State.scoreCheck]
@[simp] theorem State.penalise_lasting (s : State) (t kind : Nat) : (State.penalise s t kind).lasting = s.lasting := by simp [State.penalise]
@[simp] theorem State.sramUe_lasting (s : State) (t word : Nat) : (State.sramUe s t word).lasting = s.lasting := by simp [State.sramUe]
@[simp] theorem State.sramUes_lasting (s : State) (t : Nat) (ws : List Nat) : (State.sramUes s t ws).lasting = s.lasting := by simp [State.sramUes]

/-! ### FabricOps -/

@[simp] theorem State.modCnt_lasting (s : State) (p : Nat) (f : SiteCnt → SiteCnt) : (State.modCnt s p f).lasting = s.lasting := Eq.symm rfl
@[simp] theorem State.dropAt_lasting (s : State) (p : Nat) : (State.dropAt s p).lasting = s.lasting := by simp [State.dropAt]
@[simp] theorem State.noRouteAt_lasting (s : State) (p : Nat) (dest : W64) : (State.noRouteAt s p dest).lasting = s.lasting := by simp [State.noRouteAt]
@[simp] theorem State.partDropAt_lasting (s : State) (p : Nat) : (State.partDropAt s p).lasting = s.lasting := Eq.symm rfl
@[simp] theorem State.staleAt_lasting (s : State) (p : Nat) : (State.staleAt s p).lasting = s.lasting := Eq.symm rfl
@[simp] theorem State.edgeStale_lasting (s : State) (e : Nat) : (State.edgeStale s e).lasting = s.lasting := Eq.symm rfl
@[simp] theorem State.edgePart_lasting (s : State) (e : Nat) : (State.edgePart s e).lasting = s.lasting := Eq.symm rfl
@[simp] theorem State.addFlight_lasting (s : State) (f : Flight) : (State.addFlight s f).lasting = s.lasting := Eq.symm rfl
@[simp] theorem State.dropFlight_lasting (s : State) (i : Nat) : (State.dropFlight s i).lasting = s.lasting := Eq.symm rfl
@[simp] theorem State.setFlight_lasting (s : State) (i : Nat) (f : Flight) : (State.setFlight s i f).lasting = s.lasting := Eq.symm rfl
theorem onFlight_keeps {i : Nat} {k : Flight → Out} (h : ∀ x, Keeps s.lasting (k x)) : Keeps s.lasting (onFlight s i k) := by
  unfold onFlight; split <;> simp [h]
@[simp] theorem State.respond_lasting (s : State) (f : Flight) (at_ : Place) (opc : Opc) (status : Nat) (payload : List Byte) : (State.respond s f at_ opc status payload).lasting = s.lasting := Eq.symm rfl
@[simp] theorem State.inject_lasting (s : State) (at_ : Place) (own : Option Nat) (site : Nat) (pkt : Packet) : (State.inject s at_ own site pkt).lasting = s.lasting := by unfold State.inject; split <;> simp
@[simp] theorem State.tileSeq_lasting (s : State) (t c : Nat) : (s.tileSeq t c).2.lasting = s.lasting := by simp [State.tileSeq]
@[simp] theorem State.edgeSeq_lasting (s : State) (e c : Nat) : (s.edgeSeq e c).2.lasting = s.lasting := by simp [State.edgeSeq]
@[simp] theorem edgeSeq_lasting_of {s s' : State} {e c : Nat} {q : W16} (h : s.edgeSeq e c = (q, s')) : s'.lasting = s.lasting := by
  have := State.edgeSeq_lasting s e c; rw [h] at this; exact this
@[simp] theorem State.landSram_lasting (s : State) (t a : Nat) (bs : List Byte) : (State.landSram s t a bs).lasting = s.lasting := by simp [State.landSram]
@[simp] theorem State.landScr_lasting (s : State) (t a : Nat) (bs : List Byte) : (State.landScr s t a bs).lasting = s.lasting := by simp [State.landScr]
@[simp] theorem State.listHit_lasting (s : State) (t p : Nat) (h : ListHit) : (State.listHit s t p h).lasting = s.lasting := by simp [State.listHit]
@[simp] theorem State.wildList_lasting (s : State) (t p : Nat) : (State.wildList s t p).lasting = s.lasting := Eq.symm rfl
@[simp] theorem State.listWrote_lasting (s : State) (t p : Nat) (h : ListHit) (bad : Bool) : (State.listWrote s t p h bad).lasting = s.lasting := by simp [State.listWrote]
@[simp] theorem State.ctlWrite_lasting (s : State) (t off : Nat) (bs : List Byte) : (State.ctlWrite s t off bs).lasting = s.lasting := by
  unfold State.ctlWrite; repeat' first | with_reducible rfl | assumption | intro _ | (simp; done) | split | (simp_all; done) | simp only [Keeps_ok, lasting_ite]
@[simp] theorem State.tell_lasting (s : State) (ep ctx : Nat) : (State.tell s ep ctx).lasting = s.lasting := by simp [State.tell]
@[simp] theorem State.park_lasting (s : State) (i : Nat) (f : Flight) (p : Nat) : (State.park s i f p).lasting = s.lasting := by simp [State.park]
@[simp] theorem State.turnAway_lasting (s : State) (i : Nat) (f : Flight) (p : Nat) (at_ : Place) (status : Nat) : (State.turnAway s i f p at_ status).lasting = s.lasting := by simp [State.turnAway]
@[simp] theorem State.tileBad_lasting (s : State) (i : Nat) (f : Flight) (t : Nat) : (State.tileBad s i f t).lasting = s.lasting := by simp [State.tileBad]
theorem atTile_keeps {i t : Nat} {f : Flight} {k : State → Out} (h : ∀ u, u.lasting = s.lasting → Keeps s.lasting (k u)) : Keeps s.lasting (atTile s i f t k) := by
  unfold atTile; (try dsimp only); (repeat' split) <;> first | (simp; done) | (refine h _ ?_; simp)
@[simp] theorem State.lateResponse_lasting (s : State) (t : Nat) (p : Packet) : (State.lateResponse s t p).lasting = s.lasting := Eq.symm rfl

/-! ### SiteViews -/

@[simp] theorem State.relimit_lasting (s : State) (p : Nat) : (State.relimit s p).lasting = s.lasting := Eq.symm rfl
@[simp] theorem State.invalidateSlice_lasting (s : State) (p : Nat) : (State.invalidateSlice s p).lasting = s.lasting := Eq.symm rfl
@[simp] theorem State.invalidatePart_lasting (s : State) (q : Nat) : (State.invalidatePart s q).lasting = s.lasting := by simp [State.invalidatePart]

/-! ### CacheOps -/

@[simp] theorem State.fillRead_lasting (s : State) (p line part owner : Nat) : (State.fillRead s p line part owner).lasting = s.lasting := Eq.symm rfl
@[simp] theorem State.recordRow_lasting (s : State) (ch burst : Nat) : (State.recordRow s ch burst).lasting = s.lasting := by simp [State.recordRow]
@[simp] theorem State.ddrUe_lasting (s : State) (ch burst : Nat) : (State.ddrUe s ch burst).lasting = s.lasting := by simp [State.ddrUe]
@[simp] theorem State.ddrCe_lasting (s : State) (ch burst : Nat) : (State.ddrCe s ch burst).lasting = s.lasting := by simp [State.ddrCe]
@[simp] theorem State.meetDdr_lasting (s : State) (ch : Nat) (reads : Nat → Bool) : (State.meetDdr s ch reads).lasting = s.lasting := by simp [State.meetDdr]
@[simp] theorem State.wildDdr_lasting (s : State) (r : Region) (n : Nat) : (State.wildDdr s r n).lasting = s.lasting := by simp [State.wildDdr]
@[simp] theorem State.wildPart_lasting (s : State) (q : Nat) : (State.wildPart s q).lasting = s.lasting := by simp [State.wildPart]

/-! ### HostOps -/

@[simp] theorem State.issueRead_lasting (s : State) (port addr len : Nat) (for_ : HostFor) : (State.issueRead s port addr len for_).lasting = s.lasting := Eq.symm rfl
@[simp] theorem State.dropRead_lasting (s : State) (id : Nat) : (State.dropRead s id).lasting = s.lasting := Eq.symm rfl
@[simp] theorem State.setEtrks_lasting (s : State) (pe : Nat) (l : List ETrk) : (State.setEtrks s pe l).lasting = s.lasting := Eq.symm rfl
@[simp] theorem State.edgeReuse_lasting (s : State) (pe : Nat) : (State.edgeReuse s pe).lasting = s.lasting := Eq.symm rfl
@[simp] theorem State.edgeRead_lasting (s : State) (pe ctx : Nat) (a : W64) (len : Nat) (for_ : EdgeFor) : (State.edgeRead s pe ctx a len for_).lasting = s.lasting := by simp [State.edgeRead]
@[simp] theorem State.copyAsk_lasting (s : State) (pe c : Nat) (n : W32) (d : Desc) (n_ : Nat) : (State.copyAsk s pe c n d n_).lasting = s.lasting := by
  induction n_ generalizing s with
  | zero => first | exact Eq.symm rfl | (simp [State.copyAsk]; done)
  | succ n_ ih =>
    unfold State.copyAsk; first | (simp [ih]; done) | (repeat' first | with_reducible rfl | assumption | intro _ | (simp; done) | split | (simp_all; done) | simp only [Keeps_ok, lasting_ite])
@[simp] theorem State.copyPut_lasting (s : State) (pe c : Nat) (n : W32) (d : Desc) (n_ : Nat) : (State.copyPut s pe c n d n_).lasting = s.lasting := by
  induction n_ generalizing s with
  | zero => first | exact Eq.symm rfl | (simp [State.copyPut]; done)
  | succ n_ ih =>
    unfold State.copyPut; simp only [State.edgeSeq, State.tileSeq]; first | (simp [ih]; done) | (repeat' first | with_reducible rfl | assumption | intro _ | (simp; done) | split | (simp_all; done) | simp only [Keeps_ok, lasting_ite])
@[simp] theorem State.copyStep_lasting (s : State) (c : Nat) (n : W32) : (State.copyStep s c n).lasting = s.lasting := by
  unfold State.copyStep; repeat' first | with_reducible rfl | assumption | intro _ | (simp; done) | split | (simp_all; done) | simp only [Keeps_ok, lasting_ite]
@[simp] theorem State.copyGot_lasting (s : State) (c : Nat) (n : W32) (at_ : Nat) (bs : List Byte) : (State.copyGot s c n at_ bs).lasting = s.lasting := by simp [State.copyGot]
@[simp] theorem State.copiesAsk_lasting (s : State) (pe : Nat) : (State.copiesAsk s pe).lasting = s.lasting := by
  unfold State.copiesAsk; repeat' first | with_reducible rfl | assumption | apply lasting_foldl | intro _ | (simp; done) | split | (simp_all; done) | simp only [Keeps_ok, lasting_ite]
@[simp] theorem State.copyWack_lasting (s : State) (c : Nat) (seq : W16) (status : Nat) : (State.copyWack s c seq status).lasting = s.lasting := by unfold State.copyWack; split <;> simp
@[simp] theorem State.sendStarts_lasting (s : State) (c : Nat) (n : W32) (d : Desc) (mode audn : Nat) (theta : W32) : (State.sendStarts s c n d mode audn theta).lasting = s.lasting := by simp [State.sendStarts]
@[simp] theorem State.edgeFail_lasting (s : State) (t : ETrk) (status : Nat) : (State.edgeFail s t status).lasting = s.lasting := by unfold State.edgeFail; split <;> simp
@[simp] theorem State.edgeData_lasting (s : State) (t : ETrk) (bs : List Byte) : (State.edgeData s t bs).lasting = s.lasting := by unfold State.edgeData; (repeat' split) <;> simp
@[simp] theorem State.edgeResponse_lasting (s : State) (pe : Nat) (p : Packet) : (State.edgeResponse s pe p).lasting = s.lasting := by
  unfold State.edgeResponse; repeat' first | with_reducible rfl | assumption | intro _ | (simp; done) | split | (simp_all; done) | simp only [Keeps_ok, lasting_ite]

/-! ### LoaderOps -/

@[simp] theorem State.tileRead_lasting (s : State) (t k core : Nat) (x : Trk) (a : W64) : (State.tileRead s t k core x a).lasting = s.lasting := by simp [State.tileRead]
@[simp] theorem State.loaderAsk_lasting (s : State) (t : Nat) (n_ : Nat) : (State.loaderAsk s t n_).lasting = s.lasting := by
  induction n_ generalizing s with
  | zero => first | exact Eq.symm rfl | (simp [State.loaderAsk]; done)
  | succ n_ ih =>
    unfold State.loaderAsk; first | (simp [ih]; done) | (repeat' first | with_reducible rfl | assumption | intro _ | (simp; done) | split | (simp_all; done) | simp only [Keeps_ok, lasting_ite])
@[simp] theorem State.loadersGo_lasting (s : State) : (State.loadersGo s).lasting = s.lasting := by simp [State.loadersGo]
@[simp] theorem State.loadBegin_lasting (s : State) (t : Nat) (r : LoadReq) : (State.loadBegin s t r).lasting = s.lasting := by simp [State.loadBegin]
@[simp] theorem State.loadGot_lasting (s : State) (t off : Nat) (bs : List Byte) : (State.loadGot s t off bs).lasting = s.lasting := by unfold State.loadGot; split <;> simp
@[simp] theorem State.loadCheck_lasting (s : State) (c : Nat) (n : W32) : (State.loadCheck s c n).lasting = s.lasting := by unfold State.loadCheck; (repeat' split) <;> simp
@[simp] theorem State.imageFails_lasting (s : State) (pkt : Packet) (fill : Option (Nat × Nat)) (e : Ending) : (State.imageFails s pkt fill e).lasting = s.lasting := by simp [State.imageFails]
@[simp] theorem State.loadReport_lasting (s : State) (c : Nat) (n : W32) (t st : Nat) : (State.loadReport s c n t st).lasting = s.lasting := by simp [State.loadReport]
@[simp] theorem State.loadWild_lasting (s : State) (t : Nat) (r : LoadReq) : (State.loadWild s t r).lasting = s.lasting := by simp [State.loadWild]
@[simp] theorem State.loadStop_lasting (s : State) (t st : Nat) : (State.loadStop s t st).lasting = s.lasting := by unfold State.loadStop; split <;> simp
@[simp] theorem State.loadNext_lasting (s : State) (t : Nat) : (State.loadNext s t).lasting = s.lasting := by unfold State.loadNext; split <;> simp
@[simp] theorem State.loadFinish_lasting (s : State) (t st : Nat) : (State.loadFinish s t st).lasting = s.lasting := by simp [State.loadFinish]
@[simp] theorem State.loadsEnd_lasting (s : State) (t : Nat) : (State.loadsEnd s t).lasting = s.lasting := by simp [State.loadsEnd]

/-! ### SiteOps -/

@[simp] theorem State.denied_lasting (s : State) (port off : Nat) : (State.denied s port off).lasting = s.lasting := by simp [State.denied]
theorem gated_keeps {port off : Nat} {k : Out} (h : Keeps s.lasting k) : Keeps s.lasting (gated s port off k) := by
  unfold gated; (repeat' split) <;> simp [h]
theorem gated0_keeps {port off : Nat} {k : Out} (h : Keeps s.lasting k) : Keeps s.lasting (gated0 s port off k) := by
  unfold gated0; split
  · exact gated_keeps h
  · simp
theorem hltGate_keeps {port : Nat} {v : Option W32} {k : State → Out} (h : ∀ u, u.lasting = s.lasting → Keeps s.lasting (k u)) : Keeps s.lasting (hltGate s port v k) := by
  unfold hltGate
  split
  · simp
  · dsimp only; split
    · simp
    · cases v <;> (dsimp only; split; · simp) <;> (split; · simp) <;> exact h _ (by simp)
@[simp] theorem State.loadsLost_lasting (s : State) (t : Nat) : (State.loadsLost s t).lasting = s.lasting := by simp [State.loadsLost]
@[simp] theorem State.tileReset_lasting (s : State) (t : Nat) : (State.tileReset s t).lasting = s.lasting := by simp [State.tileReset]
@[simp] theorem State.remapHold_lasting (s : State) (p : Nat) : (State.remapHold s p).lasting = s.lasting := by unfold State.remapHold; split <;> simp
@[simp] theorem State.siteReset_lasting (s : State) (p : Nat) : (State.siteReset s p).lasting = s.lasting := by simp [State.siteReset]
@[simp] theorem State.setRails_lasting (s : State) (p vc vs : Nat) : (State.setRails s p vc vs).lasting = s.lasting := Eq.symm rfl
@[simp] theorem State.bankNow_lasting (s : State) (p : Nat) : (State.bankNow s p).lasting = s.lasting := by simp [State.bankNow]
@[simp] theorem State.dropNode_lasting (n p : Nat) (s : State) : (State.dropNode n p s).lasting = s.lasting := by
  induction n generalizing p s with
  | zero => rfl
  | succ n ih =>
    unfold State.dropNode; apply lasting_foldl; intro u f; split
    · rfl
    · dsimp only; split <;> simp [ih]
@[simp] theorem State.nodeDropped_lasting (s : State) (p : Nat) : (State.nodeDropped s p).lasting = s.lasting := by simp [State.nodeDropped]
@[simp] theorem State.nodeSeen_lasting (s : State) (p : Nat) (up : Bool) : (State.nodeSeen s p up).lasting = s.lasting := by unfold State.nodeSeen; apply lasting_foldl; intros; first | (simp; done) | (repeat' split) <;> simp
@[simp] theorem State.nodeLeave_lasting (s : State) (p : Nat) (powered : Bool) : (State.nodeLeave s p powered).lasting = s.lasting := by simp [State.nodeLeave]
@[simp] theorem State.nodeJoin_lasting (s : State) (p : Nat) : (State.nodeJoin s p).lasting = s.lasting := by unfold State.nodeJoin; apply lasting_foldl; intros; first | (simp; done) | (repeat' split) <;> simp
@[simp] theorem State.unsettle_lasting (s : State) (k n : Nat) : (State.unsettle s k n).lasting = s.lasting := by simp [State.unsettle]
@[simp] theorem State.settle_lasting (s : State) (k n : Nat) : (State.settle s k n).lasting = s.lasting := Eq.symm rfl
@[simp] theorem State.siteOff_lasting (s : State) (p : Nat) : (State.siteOff s p).lasting = s.lasting := by simp [State.siteOff]
@[simp] theorem State.siteDark_lasting (s : State) (p : Nat) : (State.siteDark s p).lasting = s.lasting := by simp [State.siteDark]
@[simp] theorem State.darken_lasting (s : State) (p : Nat) : (State.darken s p).lasting = s.lasting := by simp [State.darken]
@[simp] theorem State.promise_lasting (s : State) : (State.promise s).lasting = s.lasting := by simp [State.promise]

/-! ### SpiOps -/

@[simp] theorem State.updateEnds_lasting (s : State) (ecode : Nat) : (State.updateEnds s ecode).lasting = s.lasting := Eq.symm rfl
@[simp] theorem State.updateTick_lasting (s : State) : (State.updateTick s).lasting = s.lasting := by simp [State.updateTick]
@[simp] theorem State.updateLost_lasting (s : State) : (State.updateLost s).lasting = s.lasting := by simp [State.updateLost]
@[simp] theorem State.updateAsk_lasting (s : State) : (State.updateAsk s).lasting = s.lasting := by simp [State.updateAsk]
@[simp] theorem State.updateGot_lasting (s : State) (at_ : Nat) (bs : List Byte) : (State.updateGot s at_ bs).lasting = s.lasting := by simp [State.updateGot]

/-! ### CapOps -/

@[simp] theorem State.modTel_lasting (s : State) (f : TelRing → TelRing) : (State.modTel s f).lasting = s.lasting := Eq.symm rfl
@[simp] theorem State.telRecord_lasting (s : State) (w0 w1 w2 w3 : Nat) : (State.telRecord s w0 w1 w2 w3).lasting = s.lasting := by simp [State.telRecord]
@[simp] theorem State.telLose_lasting (s : State) : (State.telLose s).lasting = s.lasting := Eq.symm rfl
@[simp] theorem State.telPut_lasting (s : State) (kind w0 w1 w2 w3 : Nat) : (State.telPut s kind w0 w1 w2 w3).lasting = s.lasting := by simp [State.telPut]
@[simp] theorem State.telHold_lasting (s : State) (kind : Nat) (ws : List Nat) : (State.telHold s kind ws).lasting = s.lasting := by simp [State.telHold]
@[simp] theorem State.telHeld_lasting (s : State) (kind : Nat) : (State.telHeld s kind).lasting = s.lasting := by simp [State.telHeld]
@[simp] theorem State.telShadow_lasting (s : State) : (State.telShadow s).lasting = s.lasting := by simp [State.telShadow]
@[simp] theorem State.occurrenceEnd_lasting (s : State) (p : Nat) : (State.occurrenceEnd s p).lasting = s.lasting := by
  unfold State.occurrenceEnd; repeat' first | with_reducible rfl | assumption | apply lasting_foldl | intro _ | (simp; done) | split | (simp_all; done) | simp only [Keeps_ok, lasting_ite]
@[simp] theorem State.phase_lasting (s : State) (ctx tag : Nat) : (State.phase s ctx tag).lasting = s.lasting := by simp [State.phase]
@[simp] theorem State.mark_lasting (s : State) (ctx id : Nat) : (State.mark s ctx id).lasting = s.lasting := by simp [State.mark]
@[simp] theorem State.tagClear_lasting (s : State) (p : Nat) : (State.tagClear s p).lasting = s.lasting := by simp [State.tagClear]
@[simp] theorem State.profClear_lasting (s : State) (p : Nat) : (State.profClear s p).lasting = s.lasting := Eq.symm rfl

/-! ### ClockOps -/

@[simp] theorem State.unbankNow_lasting (s : State) (p : Nat) : (State.unbankNow s p).lasting = s.lasting := by simp [State.unbankNow]
@[simp] theorem State.beginStop_lasting (s : State) (p : Nat) : (State.beginStop s p).lasting = s.lasting := Eq.symm rfl
@[simp] theorem State.beginStep_lasting (s : State) (p k : Nat) : (State.beginStep s p k).lasting = s.lasting := by simp [State.beginStep]
@[simp] theorem State.startWaiting_lasting (s : State) (n_ : Nat) : (State.startWaiting s n_).lasting = s.lasting := by
  induction n_ generalizing s with
  | zero => first | exact Eq.symm rfl | (simp [State.startWaiting]; done)
  | succ n_ ih =>
    unfold State.startWaiting; first | (simp [ih]; done) | (repeat' first | with_reducible rfl | assumption | intro _ | (simp; done) | split | (simp_all; done) | simp only [Keeps_ok, lasting_ite])
@[simp] theorem State.wantStep_lasting (s : State) (p k : Nat) : (State.wantStep s p k).lasting = s.lasting := Eq.symm rfl
@[simp] theorem State.askStep_lasting (s : State) (p k : Nat) : (State.askStep s p k).lasting = s.lasting := by simp [State.askStep]
@[simp] theorem State.followLimits_lasting (s : State) : (State.followLimits s).lasting = s.lasting := by simp [State.followLimits]
@[simp] theorem State.endHold_lasting (s : State) (p : Nat) : (State.endHold s p).lasting = s.lasting := by simp [State.endHold]
@[simp] theorem State.isolate_lasting (s : State) (p cause : Nat) : (State.isolate s p cause).lasting = s.lasting := by simp [State.isolate]
@[simp] theorem State.dipReduce_lasting (s : State) (p : Nat) : (State.dipReduce s p).lasting = s.lasting := by simp [State.dipReduce]
@[simp] theorem State.askSoft_lasting (s : State) (p : Nat) (why : SoftFor) : (State.askSoft s p why).lasting = s.lasting := Eq.symm rfl

/-! ### SerialOps -/

@[simp] theorem State.flushLog_lasting (s : State) : (State.flushLog s).lasting = s.lasting := by simp [State.flushLog]
@[simp] theorem State.writeLearned_lasting (s : State) : (State.writeLearned s).lasting = s.lasting := by simp [State.writeLearned]

/-! ### Power -/

@[simp] theorem State.inputAt_lasting (s : State) (mv : Nat) : (State.inputAt s mv).lasting = s.lasting := Eq.symm rfl
theorem execInputWarn_keeps {l_ : Lasting} (mv us_ : Nat) (s : State) (hf_ : s.lasting = l_) : Keeps l_ (execInputWarn mv us_ s) := by subst hf_; simp [execInputWarn]
@[simp] theorem State.stopAll_lasting (s : State) (mv : Nat) : (State.stopAll s mv).lasting = s.lasting := by simp [State.stopAll]
theorem execOrderlyStop_keeps {l_ : Lasting} (mv : Nat) (s : State) (hf_ : s.lasting = l_) : Keeps l_ (execOrderlyStop mv s) := by subst hf_; simp [execOrderlyStop]
theorem execInputHigh_keeps {l_ : Lasting} (mv : Nat) (s : State) (hf_ : s.lasting = l_) : Keeps l_ (execInputHigh mv s) := by subst hf_; simp [execInputHigh]
theorem execInputOvervoltage_keeps {l_ : Lasting} (mv : Nat) (s : State) (hf_ : s.lasting = l_) : Keeps l_ (execInputOvervoltage mv s) := by subst hf_; simp [execInputOvervoltage]
theorem execInputLoss_keeps {l_ : Lasting} (mv : Nat) (s : State) (hf_ : s.lasting = l_) : Keeps l_ (execInputLoss mv s) := by subst hf_; simp [execInputLoss]
theorem execPwrInRestored_keeps {l_ : Lasting} (mv : Nat) (s : State) (hf_ : s.lasting = l_) : Keeps l_ (execPwrInRestored mv s) := by subst hf_; simp [execPwrInRestored]
@[simp] theorem State.modConv_lasting (s : State) (g : Nat) (f : Conv → Conv) : (State.modConv s g f).lasting = s.lasting := Eq.symm rfl
theorem execConverterFail_keeps {l_ : Lasting} (g : Nat) (s : State) (hf_ : s.lasting = l_) : Keeps l_ (execConverterFail g s) := by subst hf_; simp [execConverterFail]
theorem execPhaseLost_keeps {l_ : Lasting} (site ph : Nat) (s : State) (hf_ : s.lasting = l_) : Keeps l_ (execPhaseLost site ph s) := by subst hf_; unfold execPhaseLost; apply onSite_keeps; intros; simp [*]
@[simp] theorem State.phasesChecked_lasting (s : State) (p : Nat) : (State.phasesChecked s p).lasting = s.lasting := by simp [State.phasesChecked]
@[simp] theorem State.railsFollow_lasting (s : State) (p : Nat) : (State.railsFollow s p).lasting = s.lasting := by simp [State.railsFollow]
@[simp] theorem State.siteDue_lasting (s : State) (p : Nat) : (State.siteDue s p).lasting = s.lasting := by simp [State.siteDue]
theorem execReservoirEngage_keeps {l_ : Lasting} (site : Nat) (rail : Rail) (stillLow : Bool) (s : State) (hf_ : s.lasting = l_) : Keeps l_ (execReservoirEngage site rail stillLow s) := by subst hf_; unfold execReservoirEngage; apply onSite_keeps; intros; simp [*]
theorem execFastBubbleEnd_keeps {l_ : Lasting} (site : Nat) (s : State) (hf_ : s.lasting = l_) : Keeps l_ (execFastBubbleEnd site s) := by subst hf_; unfold execFastBubbleEnd; apply onSite_keeps; intros; simp [*]
@[simp] theorem State.rampHold_lasting (s : State) (p ns : Nat) : (State.rampHold s p ns).lasting = s.lasting := by simp [State.rampHold]
theorem execRailDip_keeps {l_ : Lasting} (site : Nat) (rail : Rail) (depth ns : Nat) (s : State) (hf_ : s.lasting = l_) : Keeps l_ (execRailDip site rail depth ns s) := by subst hf_; unfold execRailDip; apply onSite_keeps; intros; simp [*]
theorem execDipLimitRise_keeps {l_ : Lasting} (site : Nat) (s : State) (hf_ : s.lasting = l_) : Keeps l_ (execDipLimitRise site s) := by subst hf_; unfold execDipLimitRise; apply onSite_keeps; intros; (repeat' split) <;> simp [*]
theorem execRailReset_keeps {l_ : Lasting} (site : Nat) (rail : Rail) (depth : Nat) (s : State) (hf_ : s.lasting = l_) : Keeps l_ (execRailReset site rail depth s) := by subst hf_; unfold execRailReset; apply onSite_keeps; intros; (repeat' split) <;> simp [*]
theorem execInputSwitchOpen_keeps {l_ : Lasting} (site cause : Nat) (rail : Rail) (s : State) (hf_ : s.lasting = l_) : Keeps l_ (execInputSwitchOpen site cause rail s) := by subst hf_; unfold execInputSwitchOpen; apply onSite_keeps; intros; simp [*]
theorem execPathAnomaly_keeps {l_ : Lasting} (site ratio : Nat) (s : State) (hf_ : s.lasting = l_) : Keeps l_ (execPathAnomaly site ratio s) := by subst hf_; unfold execPathAnomaly; apply onSite_keeps; intros; simp [*]
theorem siteCmd_keeps {port : Nat} {code : Site → Nat} {k : State → Nat → Out} (h : ∀ u p, u.lasting = s.lasting → Keeps s.lasting (k u p)) :
    Keeps s.lasting (siteCmd s port code k) := by
  unfold siteCmd; apply gated0_keeps; apply when_keeps rfl; dsimp only; (repeat' split) <;> first | (simp; done) | exact h _ _ (by simp)
theorem execClearPath_keeps {l_ : Lasting} (port : Nat) (s : State) (hf_ : s.lasting = l_) : Keeps l_ (execClearPath port s) := by subst hf_; unfold execClearPath; apply siteCmd_keeps; intros; simp [*]
theorem execIsolate_keeps {l_ : Lasting} (port : Nat) (s : State) (hf_ : s.lasting = l_) : Keeps l_ (execIsolate port s) := by subst hf_; unfold execIsolate; apply siteCmd_keeps; intros; simp [*]
theorem execRestore_keeps {l_ : Lasting} (port : Nat) (s : State) (hf_ : s.lasting = l_) : Keeps l_ (execRestore port s) := by subst hf_; unfold execRestore; apply siteCmd_keeps; intros; simp [*]
theorem execPathBaselineFrozen_keeps {l_ : Lasting} (site base : Nat) (s : State) (hf_ : s.lasting = l_) : Keeps l_ (execPathBaselineFrozen site base s) := by subst hf_; unfold execPathBaselineFrozen; apply onSite_keeps; intros; simp [*]
theorem execSoftStart_keeps {l_ : Lasting} (site : Nat) (s : State) (hf_ : s.lasting = l_) : Keeps l_ (execSoftStart site s) := by subst hf_; unfold execSoftStart; apply onSite_keeps; intros; simp [*]
theorem execSoftStartDone_keeps {l_ : Lasting} (site : Nat) (s : State) (hf_ : s.lasting = l_) : Keeps l_ (execSoftStartDone site s) := by subst hf_; unfold execSoftStartDone; apply onSite_keeps; intros; simp [*]
theorem execSoftStartAbandon_keeps {l_ : Lasting} (site : Nat) (s : State) (hf_ : s.lasting = l_) : Keeps l_ (execSoftStartAbandon site s) := by subst hf_; unfold execSoftStartAbandon; apply onSite_keeps; intros; simp [*]
theorem execSoftStartRetry_keeps {l_ : Lasting} (site : Nat) (s : State) (hf_ : s.lasting = l_) : Keeps l_ (execSoftStartRetry site s) := by subst hf_; unfold execSoftStartRetry; apply onSite_keeps; intros; simp [*]

/-! ### Findings -/

@[simp] theorem State.zeroTile_lasting (s : State) (t : Nat) : (State.zeroTile s t).lasting = s.lasting := by simp [State.zeroTile]
@[simp] theorem State.tileEntry_lasting (s : State) (t cause : Nat) (selfTest : Bool) : (State.tileEntry s t cause selfTest).lasting = s.lasting := Eq.symm rfl
@[simp] theorem State.holeTile_lasting (s : State) (t : Nat) : (State.holeTile s t).lasting = s.lasting := by simp [State.holeTile]
@[simp] theorem State.fencedOrHole_lasting (s : State) (t : Nat) : (State.fencedOrHole s t).lasting = s.lasting := by simp [State.fencedOrHole]
@[simp] theorem State.retireTile_lasting (s : State) (t cause : Nat) (selfTest : Bool) : (State.retireTile s t cause selfTest).lasting = s.lasting := by simp [State.retireTile]
@[simp] theorem State.rowSpent_lasting (s : State) (p tr : Nat) : (State.rowSpent s p tr).lasting = s.lasting := by simp [State.rowSpent]
@[simp] theorem State.linkBad_lasting (s : State) (l : LinkId) : (State.linkBad s l).lasting = s.lasting := Eq.symm rfl
@[simp] theorem State.foundBad_lasting (s : State) (cause : Nat) (u : BadUnit) : (State.foundBad s cause u).lasting = s.lasting := by
  unfold State.foundBad; repeat' first | with_reducible rfl | assumption | apply lasting_foldl | intro _ | (simp; done) | split | (simp_all; done) | simp only [Keeps_ok, lasting_ite]
@[simp] theorem State.foundSuspect_lasting (s : State) (u : BadUnit) : (State.foundSuspect s u).lasting = s.lasting := by
  unfold State.foundSuspect; repeat' first | with_reducible rfl | assumption | intro _ | (simp; done) | split | (simp_all; done) | simp only [Keeps_ok, lasting_ite]
@[simp] theorem State.disagree_lasting (s : State) (judged : BadUnit → Bool) (found : List BadUnit) : (State.disagree s judged found).lasting = s.lasting := by simp [State.disagree]
@[simp] theorem State.learnRemap_lasting (s : State) : (State.learnRemap s).lasting = s.lasting := by
  have h (l : List (List W64)) : ∀ a : State × Nat, (l.foldl (fun (a : State × Nat) w => (a.1.learn 6 (remapHead a.2 :: w), a.2 + 1)) a).1.lasting = a.1.lasting := by
    induction l with
    | nil => intro a; rfl
    | cons w l ih => intro a; rw [List.foldl_cons, ih]; simp
  exact h _ _
@[simp] theorem State.tagTests_lasting (s : State) (sites : List Nat) (found suspects : List BadUnit) : (State.tagTests s sites found suspects).lasting = s.lasting := by simp [State.tagTests]
@[simp] theorem State.findings_lasting (s : State) (cause : Nat) (sites : List Nat) (links : Bool) (found suspects : List BadUnit) : (State.findings s cause sites links found suspects).lasting = s.lasting := by simp [State.findings]

/-! ### RickOps -/

@[simp] theorem State.casSend_lasting (s : State) (n : Nat) (p : Packet) : (State.casSend s n p).lasting = s.lasting := Eq.symm rfl
@[simp] theorem State.casLeave_lasting (s : State) (i : Nat) (f : Flight) (e : Nat) : (State.casLeave s i f e).lasting = s.lasting := by
  unfold State.casLeave; repeat' first | with_reducible rfl | assumption | intro _ | (simp; done) | split | (simp_all; done) | simp only [Keeps_ok, lasting_ite]
@[simp] theorem State.casArrive_lasting (s : State) (n : Nat) (p : Packet) : (State.casArrive s n p).lasting = s.lasting := by unfold State.casArrive; (repeat' split) <;> simp

/-! ### Fabric -/

@[simp] theorem State.writeTile_lasting (s : State) (i : Nat) (f : Flight) (t : Nat) : (State.writeTile s i f t).lasting = s.lasting := by
  unfold State.writeTile; repeat' first | with_reducible rfl | assumption | intro _ | (simp; done) | split | (simp_all; done) | simp only [Keeps_ok, lasting_ite]
@[simp] theorem writeAt_keeps {l_ : Lasting} (i kind : Nat) (s : State) (hf_ : s.lasting = l_) : Keeps l_ (writeAt i kind s) := by
  subst hf_; unfold writeAt; apply onFlight_keeps; intro f; split
  · split
    · exact atTile_keeps fun u hu => by simp [hu]
    · simp
  · simp
theorem execWrite_keeps {l_ : Lasting} (i : Nat) (s : State) (hf_ : s.lasting = l_) : Keeps l_ (execWrite i s) := writeAt_keeps _ _ s hf_
theorem execListAppend_keeps {l_ : Lasting} (i : Nat) (s : State) (hf_ : s.lasting = l_) : Keeps l_ (execListAppend i s) := writeAt_keeps _ _ s hf_
theorem execListClose_keeps {l_ : Lasting} (i : Nat) (s : State) (hf_ : s.lasting = l_) : Keeps l_ (execListClose i s) := writeAt_keeps _ _ s hf_
theorem execListArm_keeps {l_ : Lasting} (i : Nat) (s : State) (hf_ : s.lasting = l_) : Keeps l_ (execListArm i s) := writeAt_keeps _ _ s hf_
theorem execCnt_keeps {l_ : Lasting} (i : Nat) (s : State) (hf_ : s.lasting = l_) : Keeps l_ (execCnt i s) := by
  subst hf_; unfold execCnt; repeat' first | with_reducible rfl | assumption | apply onFlight_keeps | apply atTile_keeps | intro _ | (simp; done) | split | (simp_all; done) | simp only [Keeps_ok, lasting_ite]
@[simp] theorem State.readTile_lasting (s : State) (i : Nat) (f : Flight) (t : Nat) (joins : Bool) : (State.readTile s i f t joins).lasting = s.lasting := by
  unfold State.readTile; repeat' first | with_reducible rfl | assumption | intro _ | (simp; done) | split | (simp_all; done) | simp only [Keeps_ok, lasting_ite]
theorem atControl_keeps {i S : Nat} {f : Flight} {k : Nat → State → Out} (h : ∀ p u, u.lasting = s.lasting → Keeps s.lasting (k p u)) : Keeps s.lasting (atControl s i f S k) := by
  unfold atControl; (try dsimp only); (repeat' split) <;> first | (simp; done) | (refine h _ _ ?_; simp)
theorem atEdge_keeps {i e : Nat} {f : Flight} {k : State → Out} (h : ∀ u, u.lasting = s.lasting → Keeps s.lasting (k u)) : Keeps s.lasting (atEdge s i f e k) := by
  unfold atEdge; (try dsimp only); (repeat' split) <;> first | (simp; done) | (refine h _ ?_; simp)
@[simp] theorem State.readEdge_lasting (s : State) (i : Nat) (f : Flight) (e : Nat) : (State.readEdge s i f e).lasting = s.lasting := by
  unfold State.readEdge; repeat' first | with_reducible rfl | assumption | apply lasting_foldl | intro _ | (simp; done) | split | (simp_all; done) | simp only [Keeps_ok, lasting_ite]
theorem execRead_keeps {l_ : Lasting} (i : Nat) (joins : Bool) (s : State) (hf_ : s.lasting = l_) : Keeps l_ (execRead i joins s) := by
  subst hf_; unfold execRead; apply onFlight_keeps; intro f; split
  · simp
  · split
    · exact atTile_keeps fun u hu => by simp [hu]
    · exact atControl_keeps fun p u hu => by dsimp only; split <;> simp [hu]
    · exact atEdge_keeps fun u hu => by simp [hu]
    · simp
@[simp] theorem State.writeControl_lasting (s : State) (i : Nat) (f : Flight) (p : Nat) : (State.writeControl s i f p).lasting = s.lasting := by
  unfold State.writeControl; repeat' first | with_reducible rfl | assumption | intro _ | (simp; done) | split | (simp_all; done) | simp only [Keeps_ok, lasting_ite]
@[simp] theorem State.writeEdge_lasting (s : State) (i : Nat) (f : Flight) (e : Nat) : (State.writeEdge s i f e).lasting = s.lasting := by
  unfold State.writeEdge; repeat' first | with_reducible rfl | assumption | apply lasting_foldl | intro _ | (simp; done) | split | (simp_all; done) | simp only [Keeps_ok, lasting_ite]
theorem execWriteToOwner_keeps {l_ : Lasting} (i : Nat) (s : State) (hf_ : s.lasting = l_) : Keeps l_ (execWriteToOwner i s) := by
  subst hf_; unfold execWriteToOwner; apply onFlight_keeps; intro f; split
  · simp
  · split
    · exact atControl_keeps fun p u hu => by simp [hu]
    · exact atEdge_keeps fun u hu => by simp [hu]
    · simp
theorem respAtTile_keeps {i t : Nat} {f : Flight} {k : State → Out} (h : ∀ u, u.lasting = s.lasting → Keeps s.lasting (k u)) : Keeps s.lasting (respAtTile s i f t k) := by
  unfold respAtTile; (try dsimp only); (repeat' split) <;> first | (simp; done) | (refine h _ ?_; simp)
@[simp] theorem State.landLocal_lasting (s : State) (t a : Nat) (bs : List Byte) : (State.landLocal s t a bs).lasting = s.lasting := by simp [State.landLocal]
@[simp] theorem State.rdataTile_lasting (s : State) (t : Nat) (p : Packet) : (State.rdataTile s t p).lasting = s.lasting := by unfold State.rdataTile; split <;> simp
theorem execRdata_keeps {l_ : Lasting} (i : Nat) (s : State) (hf_ : s.lasting = l_) : Keeps l_ (execRdata i s) := by
  subst hf_; unfold execRdata; repeat' first | with_reducible rfl | assumption | apply onFlight_keeps | apply respAtTile_keeps | intro _ | (simp; done) | split | (simp_all; done) | simp only [Keeps_ok, lasting_ite]
theorem execRerr_keeps {l_ : Lasting} (i : Nat) (s : State) (hf_ : s.lasting = l_) : Keeps l_ (execRerr i s) := by
  subst hf_; unfold execRerr; repeat' first | with_reducible rfl | assumption | apply onFlight_keeps | apply respAtTile_keeps | intro _ | (simp; done) | split | (simp_all; done) | simp only [Keeps_ok, lasting_ite]
theorem execWack_keeps {l_ : Lasting} (i : Nat) (s : State) (hf_ : s.lasting = l_) : Keeps l_ (execWack i s) := by
  subst hf_; unfold execWack; repeat' first | with_reducible rfl | assumption | apply onFlight_keeps | apply respAtTile_keeps | intro _ | (simp; done) | split | (simp_all; done) | simp only [Keeps_ok, lasting_ite]
@[simp] theorem State.hopNoRoute_lasting (s : State) (i : Nat) (f : Flight) (p : Nat) (at_ : Place) : (State.hopNoRoute s i f p at_).lasting = s.lasting := by simp [State.hopNoRoute]
@[simp] theorem State.hopDark_lasting (s : State) (i : Nat) (f : Flight) (p : Nat) (at_ : Place) : (State.hopDark s i f p at_).lasting = s.lasting := by simp [State.hopDark]
@[simp] theorem State.mayswitch_lasting (s : State) (p : Nat) : (State.mayswitch s p).lasting = s.lasting := by simp [State.mayswitch]
@[simp] theorem State.hopMove_lasting (s : State) (i : Nat) (f : Flight) (p row pos : Nat) (starved : Bool) : (State.hopMove s i f p row pos starved).lasting = s.lasting := by
  unfold State.hopMove; repeat' first | with_reducible rfl | assumption | intro _ | (simp; done) | split | (simp_all; done) | simp only [Keeps_ok, lasting_ite]
@[simp] theorem State.edgeEnter_lasting (s : State) (i : Nat) (f : Flight) (e : Nat) : (State.edgeEnter s i f e).lasting = s.lasting := by unfold State.edgeEnter; (repeat' split) <;> simp
theorem execRouterHop_keeps {l_ : Lasting} (i : Nat) (env : HopEnv) (s : State) (hf_ : s.lasting = l_) : Keeps l_ (execRouterHop i env s) := by
  subst hf_; unfold execRouterHop; repeat' first | with_reducible rfl | assumption | apply onFlight_keeps | intro _ | (simp; done) | split | (simp_all; done) | simp only [Keeps_ok, lasting_ite]
theorem execRouteEntryRewrite_keeps {l_ : Lasting} (p idx : Nat) (s : State) (hf_ : s.lasting = l_) : Keeps l_ (execRouteEntryRewrite p idx s) := by subst hf_; unfold execRouteEntryRewrite; apply onSite_keeps; intros; simp [*]
@[simp] theorem State.linkRec_lasting (s : State) (r : LinkRec) : (State.linkRec s r).lasting = s.lasting := Eq.symm rfl
@[simp] theorem State.doubtful_lasting (s : State) (l : LinkId) (ds : List (Nat × Crossed)) : (s.doubtful l ds).lasting = s.lasting := by
  induction ds with
  | nil => rfl
  | cons x r ih => unfold State.doubtful; dsimp only; (repeat' split) <;> simp [ih]
@[simp] theorem State.linkFails_lasting (s : State) (l : LinkId) (i k : Nat) (named : List Nat) : (State.linkFails s l i k named).lasting = s.lasting := by simp [State.linkFails]
theorem execFlitRefused_keeps {l_ : Lasting} (l : LinkId) (a : FlitArrival) (s : State) (hf_ : s.lasting = l_) : Keeps l_ (execFlitRefused l a s) := by subst hf_; unfold execFlitRefused; apply onFlight_keeps; intros; simp [*]
@[simp] theorem State.spares_lasting (s : State) (l : LinkId) (fails : List Nat) : (State.spares s l fails).lasting = s.lasting := Eq.symm rfl
theorem execLinkUp_keeps {l_ : Lasting} (x : LinkTraining) (s : State) (hf_ : s.lasting = l_) : Keeps l_ (execLinkUp x s) := by subst hf_; simp [execLinkUp]
theorem execSeamRetrain_keeps {l_ : Lasting} (l : LinkId) (fails : List Nat) (s : State) (hf_ : s.lasting = l_) : Keeps l_ (execSeamRetrain l fails s) := by subst hf_; simp [execSeamRetrain]
theorem execTrackerTimeout_keeps {l_ : Lasting} (t k : Nat) (s : State) (hf_ : s.lasting = l_) : Keeps l_ (execTrackerTimeout t k s) := by subst hf_; unfold execTrackerTimeout; apply onTile_keeps; intros; simp [*]
theorem execTrackerReuse_keeps {l_ : Lasting} (t k : Nat) (s : State) (hf_ : s.lasting = l_) : Keeps l_ (execTrackerReuse t k s) := by subst hf_; unfold execTrackerReuse; apply onTile_keeps; intros; simp [*]
theorem execBaseDieFault_keeps {l_ : Lasting} (p : Nat) (s : State) (hf_ : s.lasting = l_) : Keeps l_ (execBaseDieFault p s) := by subst hf_; unfold execBaseDieFault; apply onSite_keeps; intros; simp [*]
@[simp] theorem State.newTables_lasting (s : State) : (State.newTables s).lasting = s.lasting := Eq.symm rfl
@[simp] theorem State.tablesIn_lasting (s : State) : (State.tablesIn s).lasting = s.lasting := by simp [State.tablesIn]
@[simp] theorem State.publishRoutes_lasting (s : State) : (State.publishRoutes s).lasting = s.lasting := by simp [State.publishRoutes]
@[simp] theorem State.svcSend_lasting (s : State) : (State.svcSend s).lasting = s.lasting := by simp [State.svcSend]
theorem execRepublish_keeps {l_ : Lasting} (port : Nat) (s : State) (hf_ : s.lasting = l_) : Keeps l_ (execRepublish port s) := by subst hf_; unfold execRepublish; apply hltGate_keeps; intros; simp [*]
theorem execRepublishDone_keeps {l_ : Lasting} (s : State) (hf_ : s.lasting = l_) : Keeps l_ (execRepublishDone s) := by subst hf_; unfold execRepublishDone; (repeat' split) <;> simp

/-! ### BringUp -/

@[simp] theorem State.bootFound_lasting (s : State) (u : BadUnit) : (State.bootFound s u).lasting = s.lasting := by simp [State.bootFound]
@[simp] theorem State.kindle_lasting (s : State) (env : BringUpEnv) : (State.kindle s env).lasting = s.lasting := by simp [State.kindle]
@[simp] theorem State.trainChannel_lasting (s : State) (modules : List Dimm) (ch : Nat) : (State.trainChannel s modules ch).lasting = s.lasting := by unfold State.trainChannel; split <;> simp
@[simp] theorem State.portsDetect_lasting (s : State) : (State.portsDetect s).lasting = s.lasting := Eq.symm rfl
@[simp] theorem State.recovery_lasting (s : State) (cause : Nat) : (State.recovery s cause).lasting = s.lasting := by simp [State.recovery]
@[simp] theorem State.bootFails_lasting (s : State) (cause : Nat) (stage : Nat) : (State.bootFails s cause stage).lasting = s.lasting := Eq.symm rfl
@[simp] theorem State.bootSettings_lasting (s : State) (env : BringUpEnv) (svb : SvSt) (byB : Bool) : (State.bootSettings s env svb byB).lasting = s.lasting := by
  unfold State.bootSettings; extract_lets best fields s1 s2 s3 s4 s5 s6 s7 s8 s9 s10
  have h1 : s1.lasting = s.lasting := by simp [s1]
  have h2 : s2.lasting = s.lasting := by simp [s2, h1]
  have h3 : s3.lasting = s.lasting := h2
  have h4 : s4.lasting = s.lasting := by simp [s4, h3]
  have h5 : s5.lasting = s.lasting := by simp [s5, h4]
  have h6 : s6.lasting = s.lasting := by simp [s6, h5]
  have h7 : s7.lasting = s.lasting := by simp [s7, h6]
  have h8 : s8.lasting = s.lasting := by simp [s8, h7]
  have h9 : s9.lasting = s.lasting := by simp only [s9]; split <;> simp [h8]
  have h10 : s10.lasting = s.lasting := by simp only [s10]; split <;> simp [h9]
  split <;> simp [h10]
@[simp] theorem State.trainLinks_lasting (s : State) (wires : List (LinkId × List Nat)) : (State.trainLinks s wires).lasting = s.lasting := by simp [State.trainLinks]
@[simp] theorem State.bootPanel_lasting (s : State) (env : BringUpEnv) : (State.bootPanel s env).lasting = s.lasting := by unfold State.bootPanel; split <;> simp
@[simp] theorem State.svUnsettled_lasting (s : State) : (State.svUnsettled s).lasting = s.lasting := by simp [State.svUnsettled]
@[simp] theorem State.bootFrom_lasting (s : State) (env : BringUpEnv) (byB : Bool) : (State.bootFrom s env byB).lasting = s.lasting := by simp [State.bootFrom]
@[simp] theorem State.bringUp_lasting (s : State) (env : BringUpEnv) : (State.bringUp s env).lasting = s.lasting := by simp [State.bringUp]
theorem execColdPowerOn_keeps {l_ : Lasting} (env : BringUpEnv) (s : State) (hf_ : s.lasting = l_) : Keeps l_ (execColdPowerOn env s) := by subst hf_; simp [execColdPowerOn]
theorem execSvBTakeover_keeps {l_ : Lasting} (s : State) (hf_ : s.lasting = l_) : Keeps l_ (execSvBTakeover s) := by subst hf_; unfold execSvBTakeover; (repeat' split) <;> simp
@[simp] theorem State.bootTick_lasting (s : State) : (State.bootTick s).lasting = s.lasting := by simp [State.bootTick]
theorem execReady_keeps {l_ : Lasting} (s : State) (hf_ : s.lasting = l_) : Keeps l_ (execReady s) := by subst hf_; simp [execReady]
@[simp] theorem State.spiRefuse_lasting (s : State) (cmd ecode : Nat) : (State.spiRefuse s cmd ecode).lasting = s.lasting := Eq.symm rfl
theorem spiCmd_keeps {port cmd : Nat} {free : Bool} {k : State → Out} (h : ∀ u, u.lasting = s.lasting → Keeps s.lasting (k u)) : Keeps s.lasting (spiCmd s port cmd free k) := by
  unfold spiCmd; (repeat' split) <;> first | (simp; done) | exact h _ (by simp)
theorem execPanelReset_keeps {l_ : Lasting} (port : Nat) (env : BringUpEnv) (s : State) (hf_ : s.lasting = l_) : Keeps l_ (execPanelReset port env s) := by subst hf_; unfold execPanelReset; apply spiCmd_keeps; intros; simp [*]
theorem execSettingsCommit_keeps {l_ : Lasting} (port : Nat) (s : State) (hf_ : s.lasting = l_) : Keeps l_ (execSettingsCommit port s) := by
  subst hf_; unfold execSettingsCommit; repeat' first | with_reducible rfl | assumption | apply spiCmd_keeps | intro _ | (simp; done) | split | (simp_all; done) | simp only [Keeps_ok, lasting_ite]
theorem execSettingsCommitDone_keeps {l_ : Lasting} (s : State) (hf_ : s.lasting = l_) : Keeps l_ (execSettingsCommitDone s) := by subst hf_; unfold execSettingsCommitDone; (repeat' split) <;> simp
theorem execUpdate_keeps {l_ : Lasting} (port : Nat) (s : State) (hf_ : s.lasting = l_) : Keeps l_ (execUpdate port s) := by
  subst hf_; unfold execUpdate; refine spiCmd_keeps fun u hu => ?_; split <;> simp [hu]
theorem execUpdateDone_keeps {l_ : Lasting} (x : UpdateEnd) (s : State) (hf_ : s.lasting = l_) : Keeps l_ (execUpdateDone x s) := by
  subst hf_; unfold execUpdateDone; repeat' first | with_reducible rfl | assumption | intro _ | (simp; done) | split | (simp_all; done) | simp only [Keeps_ok, lasting_ite]
theorem execLearnedAppend_keeps {l_ : Lasting} (s : State) (hf_ : s.lasting = l_) : Keeps l_ (execLearnedAppend s) := by subst hf_; simp [execLearnedAppend]
theorem execLogFlush_keeps {l_ : Lasting} (s : State) (hf_ : s.lasting = l_) : Keeps l_ (execLogFlush s) := by subst hf_; simp [execLogFlush]
theorem execSiteRejoin_keeps {l_ : Lasting} (site : Nat) (s : State) (hf_ : s.lasting = l_) : Keeps l_ (execSiteRejoin site s) := by subst hf_; unfold execSiteRejoin; apply onSite_keeps; intros; simp [*]
theorem execSiteRejoined_keeps {l_ : Lasting} (site : Nat) (found suspects : List BadUnit) (wires : List (LinkId × List Nat)) (s : State) (hf_ : s.lasting = l_) : Keeps l_ (execSiteRejoined site found suspects wires s) := by subst hf_; unfold execSiteRejoined; apply onSite_keeps; intros; simp [*]

/-! ### Health -/

@[simp] theorem State.beginRetest_lasting (s : State) (t why : Nat) : (State.beginRetest s t why).lasting = s.lasting := Eq.symm rfl
@[simp] theorem State.sliceFails_lasting (s : State) (t : Nat) : (State.sliceFails s t).lasting = s.lasting := by simp [State.sliceFails]
theorem execSelfTestSlice_keeps {l_ : Lasting} (t : Nat) (passed : Bool) (s : State) (hf_ : s.lasting = l_) : Keeps l_ (execSelfTestSlice t passed s) := by subst hf_; unfold execSelfTestSlice; apply onTile_keeps; intros; simp [*]
@[simp] theorem State.dueDone_lasting (s : State) (t : Nat) : (State.dueDone s t).lasting = s.lasting := by simp [State.dueDone]
@[simp] theorem State.tileHour_lasting (s : State) (t : Nat) : (State.tileHour s t).lasting = s.lasting := by simp [State.tileHour]
theorem execHealthHourly_keeps {l_ : Lasting} (s : State) (hf_ : s.lasting = l_) : Keeps l_ (execHealthHourly s) := by subst hf_; simp [execHealthHourly]
@[simp] theorem State.tileReturns_lasting (s : State) (t : Nat) : (State.tileReturns s t).lasting = s.lasting := Eq.symm rfl
@[simp] theorem State.retestPass_lasting (s : State) (t : Nat) : (State.retestPass s t).lasting = s.lasting := by simp [State.retestPass]
@[simp] theorem State.cmdEnds_lasting (s : State) (codes : List Nat) (x : Nat) : (State.cmdEnds s codes x).lasting = s.lasting := by unfold State.cmdEnds; split <;> simp
@[simp] theorem State.spareTested_lasting (s : State) (row : Nat) (passed : Bool) : (State.spareTested s row passed).lasting = s.lasting := by simp [State.spareTested]
@[simp] theorem State.sliceCleared_lasting (s : State) (t : Nat) : (State.sliceCleared s t).lasting = s.lasting := by simp [State.sliceCleared]
theorem execConfirmingRetestDone_keeps {l_ : Lasting} (t : Nat) (passed : Bool) (s : State) (hf_ : s.lasting = l_) : Keeps l_ (execConfirmingRetestDone t passed s) := by
  subst hf_; unfold execConfirmingRetestDone; repeat' first | with_reducible rfl | assumption | apply onTile_keeps | intro _ | (simp; done) | split | (simp_all; done) | simp only [Keeps_ok, lasting_ite]
@[simp] theorem State.hltRefuse_lasting (s : State) (c : Nat) : (State.hltRefuse s c).lasting = s.lasting := Eq.symm rfl
@[simp] theorem State.hltRun_lasting (s : State) (cmd x : Nat) : (State.hltRun s cmd x).lasting = s.lasting := Eq.symm rfl
theorem execRemap_keeps {l_ : Lasting} (port : Nat) (v : W32) (s : State) (hf_ : s.lasting = l_) : Keeps l_ (execRemap port v s) := by subst hf_; unfold execRemap; apply hltGate_keeps; intros; simp [*]
theorem execTileRemapStopEnd_keeps {l_ : Lasting} (site : Nat) (s : State) (hf_ : s.lasting = l_) : Keeps l_ (execTileRemapStopEnd site s) := by subst hf_; unfold execTileRemapStopEnd; apply onSite_keeps; intros; (repeat' split) <;> simp [*]
theorem execRetire_keeps {l_ : Lasting} (port : Nat) (v : W32) (s : State) (hf_ : s.lasting = l_) : Keeps l_ (execRetire port v s) := by subst hf_; unfold execRetire; apply hltGate_keeps; intros; simp [*]
theorem execKeep_keeps {l_ : Lasting} (port : Nat) (v : W32) (s : State) (hf_ : s.lasting = l_) : Keeps l_ (execKeep port v s) := by subst hf_; unfold execKeep; apply hltGate_keeps; intros; simp [*]
theorem execHole_keeps {l_ : Lasting} (port : Nat) (v : W32) (s : State) (hf_ : s.lasting = l_) : Keeps l_ (execHole port v s) := by subst hf_; unfold execHole; apply hltGate_keeps; intros; simp [*]
theorem execClear_keeps {l_ : Lasting} (port : Nat) (v : W32) (s : State) (hf_ : s.lasting = l_) : Keeps l_ (execClear port v s) := by
  subst hf_; unfold execClear; repeat' first | with_reducible rfl | assumption | apply hltGate_keeps | intro _ | (simp; done) | split | (simp_all; done) | simp only [Keeps_ok, lasting_ite]
theorem execTreset_keeps {l_ : Lasting} (port : Nat) (v : W32) (s : State) (hf_ : s.lasting = l_) : Keeps l_ (execTreset port v s) := by subst hf_; unfold execTreset; apply hltGate_keeps; intros; simp [*]
theorem execSreset_keeps {l_ : Lasting} (port : Nat) (v : W32) (s : State) (hf_ : s.lasting = l_) : Keeps l_ (execSreset port v s) := by subst hf_; unfold execSreset; apply hltGate_keeps; intros; simp [*]
theorem execComputeResetDone_keeps {l_ : Lasting} (site : Bool) (x : Nat) (s : State) (hf_ : s.lasting = l_) : Keeps l_ (execComputeResetDone site x s) := by
  subst hf_; unfold execComputeResetDone; repeat' first | with_reducible rfl | assumption | apply onTile_keeps | apply onSite_keeps | intro _ | (simp; done) | split | (simp_all; done) | simp only [Keeps_ok, lasting_ite]
theorem execHltSclr_keeps {l_ : Lasting} (port : Nat) (v : W32) (s : State) (hf_ : s.lasting = l_) : Keeps l_ (execHltSclr port v s) := by subst hf_; simp [execHltSclr]
theorem execHltEclr_keeps {l_ : Lasting} (port : Nat) (v : W32) (s : State) (hf_ : s.lasting = l_) : Keeps l_ (execHltEclr port v s) := by subst hf_; simp [execHltEclr]
theorem execHltDbclr_keeps {l_ : Lasting} (port : Nat) (v : W32) (s : State) (hf_ : s.lasting = l_) : Keeps l_ (execHltDbclr port v s) := by subst hf_; simp [execHltDbclr]
theorem execHltLsel_keeps {l_ : Lasting} (port : Nat) (v : W32) (s : State) (hf_ : s.lasting = l_) : Keeps l_ (execHltLsel port v s) := by subst hf_; unfold execHltLsel; apply onPort_keeps; intros; simp [*]

/-! ### HostPorts -/

@[simp] theorem State.aer_lasting (s : State) (port : Nat) (b : W32) : (State.aer s port b).lasting = s.lasting := Eq.symm rfl
@[simp] theorem State.noteAer_lasting (s : State) (port : Nat) (r : HostResult) : (s.noteAer port r).lasting = s.lasting := by
  unfold State.noteAer; (repeat' split) <;> simp [State.aer]
@[simp] theorem State.hostFail_lasting (s : State) (r : HostRead) (status detail : Nat) : (State.hostFail s r status detail).lasting = s.lasting := by unfold State.hostFail; split <;> simp
@[simp] theorem State.cutOff_lasting (s : State) (port : Nat) : (State.cutOff s port).lasting = s.lasting := by simp [State.cutOff]
theorem execPortDown_keeps {l_ : Lasting} (port : Nat) (s : State) (hf_ : s.lasting = l_) : Keeps l_ (execPortDown port s) := by subst hf_; unfold execPortDown; apply onPort_keeps; intros; simp [*]
theorem execPortUp_keeps {l_ : Lasting} (port : Nat) (mode : LinkMode) (s : State) (hf_ : s.lasting = l_) : Keeps l_ (execPortUp port mode s) := by subst hf_; unfold execPortUp; apply onPort_keeps; intros; (repeat' split) <;> simp [*]
theorem execFunctionLevelReset_keeps {l_ : Lasting} (port : Nat) (s : State) (hf_ : s.lasting = l_) : Keeps l_ (execFunctionLevelReset port s) := by subst hf_; unfold execFunctionLevelReset; apply onPort_keeps; intros; simp [*]
theorem execBusMasterDisable_keeps {l_ : Lasting} (port : Nat) (s : State) (hf_ : s.lasting = l_) : Keeps l_ (execBusMasterDisable port s) := by subst hf_; unfold execBusMasterDisable; apply onPort_keeps; intros; simp [*]
theorem execPerstRelease_keeps {l_ : Lasting} (port : Nat) (mode : LinkMode) (s : State) (hf_ : s.lasting = l_) : Keeps l_ (execPerstRelease port mode s) := by subst hf_; unfold execPerstRelease; apply onPort_keeps; intros; (repeat' split) <;> simp [*]
theorem execHostCompletionTimeout_keeps {l_ : Lasting} (id : Nat) (s : State) (hf_ : s.lasting = l_) : Keeps l_ (execHostCompletionTimeout id s) := by subst hf_; unfold execHostCompletionTimeout; (repeat' split) <;> simp
@[simp] theorem State.flushBack_lasting (s : State) (c : Nat) (n : W32) : (State.flushBack s c n).lasting = s.lasting := by unfold State.flushBack; split <;> simp
theorem execHostReadCompletion_keeps {l_ : Lasting} (id : Nat) (res : HostResult) (s : State) (hf_ : s.lasting = l_) : Keeps l_ (execHostReadCompletion id res s) := by subst hf_; unfold execHostReadCompletion; (repeat' split) <;> simp
@[simp] theorem State.doorbellDrop_lasting (s : State) (port ctx : Nat) : (State.doorbellDrop s port ctx).lasting = s.lasting := by simp [State.doorbellDrop]
theorem doorbell_keeps {port ctx : Nat} {k : Ctx → Out} (h : ∀ x, Keeps s.lasting (k x)) : Keeps s.lasting (doorbell s port ctx k) := by
  unfold doorbell; dsimp only; (repeat' split) <;> simp [h]
@[simp] theorem State.fetchAsk_lasting (s : State) (c : Nat) (n_ : Nat) : (State.fetchAsk s c n_).lasting = s.lasting := by
  induction n_ generalizing s with
  | zero => simp [State.fetchAsk]
  | succ n_ ih => simp [State.fetchAsk, ih]
theorem execSqTail_keeps {l_ : Lasting} (port ctx : Nat) (v : W32) (s : State) (hf_ : s.lasting = l_) : Keeps l_ (execSqTail port ctx v s) := by subst hf_; unfold execSqTail; apply doorbell_keeps; intros; simp [*]
theorem execCqHead_keeps {l_ : Lasting} (port ctx : Nat) (v : W32) (s : State) (hf_ : s.lasting = l_) : Keeps l_ (execCqHead port ctx v s) := by subst hf_; unfold execCqHead; apply doorbell_keeps; intros; simp [*]
theorem execMsixUnmask_keeps {l_ : Lasting} (port vec : Nat) (v : W32) (s : State) (hf_ : s.lasting = l_) : Keeps l_ (execMsixUnmask port vec v s) := by subst hf_; unfold execMsixUnmask; apply onPort_keeps; intros; simp [*]
theorem execEvtHead_keeps {l_ : Lasting} (port : Nat) (v : W32) (s : State) (hf_ : s.lasting = l_) : Keeps l_ (execEvtHead port v s) := by subst hf_; simp [execEvtHead]
theorem execEvtCfg_keeps {l_ : Lasting} (port : Nat) (v : W32) (s : State) (hf_ : s.lasting = l_) : Keeps l_ (execEvtCfg port v s) := by subst hf_; unfold execEvtCfg; apply gated0_keeps; intros; simp [*]

/-! ### Descriptors -/

theorem execDescriptorFetch_keeps {l_ : Lasting} (id : Nat) (res : HostResult) (s : State) (hf_ : s.lasting = l_) : Keeps l_ (execDescriptorFetch id res s) := by
  subst hf_; unfold execDescriptorFetch; repeat' first | with_reducible rfl | assumption | intro _ | (simp; done) | split | (simp_all; done) | simp only [Keeps_ok, lasting_ite]
@[simp] theorem State.wildDesc_lasting (s : State) (c : Nat) (bad : Bool) : (State.wildDesc s c bad).lasting = s.lasting := by simp [State.wildDesc]
theorem starting_keeps {c : Nat} {is : Nat → Bool} {prog : Prog} {k : State → Desc → Out} (h : ∀ u d, u.lasting = s.lasting → Keeps s.lasting (k u d)) :
    Keeps s.lasting (starting s c is prog k) := by
  unfold starting; apply onCtx_keeps; intro x; split
  · simp
  · dsimp only; split <;> first | (simp; done) | (refine h _ _ ?_; simp)
@[simp] theorem State.endOk_lasting (s : State) (c : Nat) (d : Desc) (result : Nat) : (State.endOk s c d result).lasting = s.lasting := by simp [State.endOk]
theorem execNopDescriptor_keeps {l_ : Lasting} (c : Nat) (s : State) (hf_ : s.lasting = l_) : Keeps l_ (execNopDescriptor c s) := by
  subst hf_; unfold execNopDescriptor; repeat' first | with_reducible rfl | assumption | apply starting_keeps | apply plain_keeps | intro _ | (simp; done) | split | (simp_all; done) | simp only [Keeps_ok, lasting_ite]
theorem execReservedOpcode_keeps {l_ : Lasting} (c : Nat) (s : State) (hf_ : s.lasting = l_) : Keeps l_ (execReservedOpcode c s) := by
  subst hf_; unfold execReservedOpcode; repeat' first | with_reducible rfl | assumption | apply starting_keeps | apply plain_keeps | intro _ | (simp; done) | split | (simp_all; done) | simp only [Keeps_ok, lasting_ite]
theorem execCopy_keeps {l_ : Lasting} (c : Nat) (s : State) (hf_ : s.lasting = l_) : Keeps l_ (execCopy c s) := by subst hf_; unfold execCopy; apply starting_keeps; intros; simp [*]
theorem execLaunch_keeps {l_ : Lasting} (c : Nat) (s : State) (hf_ : s.lasting = l_) : Keeps l_ (execLaunch c s) := by
  subst hf_; unfold execLaunch; refine starting_keeps fun u d hu => ?_; dsimp only; (repeat' split) <;> simp [hu]
theorem execLoad_keeps {l_ : Lasting} (c : Nat) (s : State) (hf_ : s.lasting = l_) : Keeps l_ (execLoad c s) := by
  subst hf_; unfold execLoad; repeat' first | with_reducible rfl | assumption | apply starting_keeps | apply plain_keeps | intro _ | (simp; done) | split | (simp_all; done) | simp only [Keeps_ok, lasting_ite]
theorem execWait_keeps {l_ : Lasting} (c : Nat) (s : State) (hf_ : s.lasting = l_) : Keeps l_ (execWait c s) := by subst hf_; unfold execWait; apply starting_keeps; intros; simp [*]
theorem execWaitPoll_keeps {l_ : Lasting} (c n : Nat) (s : State) (hf_ : s.lasting = l_) : Keeps l_ (execWaitPoll c n s) := by subst hf_; unfold execWaitPoll; apply onCtx_keeps; intros; (repeat' split) <;> simp [*]
@[simp] theorem State.sendCnt_lasting (s : State) (c : Nat) (d : Desc) (t : Nat) : (State.sendCnt s c d t).lasting = s.lasting := by simp [State.sendCnt]
theorem execSignal_keeps {l_ : Lasting} (c : Nat) (s : State) (hf_ : s.lasting = l_) : Keeps l_ (execSignal c s) := by
  subst hf_; unfold execSignal; repeat' first | with_reducible rfl | assumption | apply starting_keeps | apply plain_keeps | apply lasting_foldl | intro _ | (simp; done) | split | (simp_all; done) | simp only [Keeps_ok, lasting_ite]
theorem execPhase_keeps {l_ : Lasting} (c : Nat) (s : State) (hf_ : s.lasting = l_) : Keeps l_ (execPhase c s) := by
  subst hf_; unfold execPhase; repeat' first | with_reducible rfl | assumption | apply starting_keeps | apply plain_keeps | intro _ | (simp; done) | split | (simp_all; done) | simp only [Keeps_ok, lasting_ite]
@[simp] theorem State.rickRelease_lasting (s : State) (id : Nat) (stamp : Nat) : (State.rickRelease s id stamp).lasting = s.lasting := by simp [State.rickRelease]
@[simp] theorem State.rickArrive_lasting (s : State) (panel id count : Nat) : (State.rickArrive s panel id count).lasting = s.lasting := by simp [State.rickArrive]
@[simp] theorem State.partArrive_lasting (s : State) (c : Nat) (d : Desc) (id count : Nat) : (State.partArrive s c d id count).lasting = s.lasting := by simp [State.partArrive]
theorem execBarrier_keeps {l_ : Lasting} (c : Nat) (s : State) (hf_ : s.lasting = l_) : Keeps l_ (execBarrier c s) := by subst hf_; unfold execBarrier; apply starting_keeps; intros; simp [*]
theorem execFence_keeps {l_ : Lasting} (c : Nat) (s : State) (hf_ : s.lasting = l_) : Keeps l_ (execFence c s) := by subst hf_; unfold execFence; apply starting_keeps; intros; simp [*]
theorem execPredict_keeps {l_ : Lasting} (c : Nat) (s : State) (hf_ : s.lasting = l_) : Keeps l_ (execPredict c s) := by
  subst hf_; unfold execPredict; repeat' first | with_reducible rfl | assumption | apply starting_keeps | apply plain_keeps | intro _ | (simp; done) | split | (simp_all; done) | simp only [Keeps_ok, lasting_ite]
theorem execMark_keeps {l_ : Lasting} (c : Nat) (s : State) (hf_ : s.lasting = l_) : Keeps l_ (execMark c s) := by
  subst hf_; unfold execMark; repeat' first | with_reducible rfl | assumption | apply starting_keeps | apply plain_keeps | intro _ | (simp; done) | split | (simp_all; done) | simp only [Keeps_ok, lasting_ite]
theorem execDescriptorComplete_keeps {l_ : Lasting} (c n : Nat) (s : State) (hf_ : s.lasting = l_) : Keeps l_ (execDescriptorComplete c n s) := by subst hf_; unfold execDescriptorComplete; apply onCtx_keeps; intros; (repeat' split) <;> simp [*]
theorem execEdgeTrackerTimeout_keeps {l_ : Lasting} (pe k : Nat) (s : State) (hf_ : s.lasting = l_) : Keeps l_ (execEdgeTrackerTimeout pe k s) := by subst hf_; unfold execEdgeTrackerTimeout; (repeat' split) <;> simp

/-! ### Contexts -/

theorem execCtxSel_keeps {l_ : Lasting} (port : Nat) (v : W32) (s : State) (hf_ : s.lasting = l_) : Keeps l_ (execCtxSel port v s) := by subst hf_; unfold execCtxSel; apply gated_keeps; intros; simp [*]
@[simp] theorem State.ctxCmd_lasting (s : State) (port ecode : Nat) : (State.ctxCmd s port ecode).lasting = s.lasting := Eq.symm rfl
theorem execConfigure_keeps {l_ : Lasting} (port : Nat) (s : State) (hf_ : s.lasting = l_) : Keeps l_ (execConfigure port s) := by subst hf_; unfold execConfigure; apply gated_keeps; intros; simp [*]
@[simp] theorem State.quiet_lasting (s : State) (c : Nat) : (State.quiet s c).lasting = s.lasting := by simp [State.quiet]
@[simp] theorem State.copiesGo_lasting (s : State) : (State.copiesGo s).lasting = s.lasting := by simp [State.copiesGo]
@[simp] theorem State.forget_lasting (s : State) (c : Nat) : (State.forget s c).lasting = s.lasting := Eq.symm rfl
theorem execRelease_keeps {l_ : Lasting} (port : Nat) (s : State) (hf_ : s.lasting = l_) : Keeps l_ (execRelease port s) := by subst hf_; unfold execRelease; apply gated_keeps; intros; simp [*]
@[simp] theorem State.restart_lasting (s : State) (c : Nat) : (State.restart s c).lasting = s.lasting := by simp [State.restart]
theorem execRestart_keeps {l_ : Lasting} (port ctx : Nat) (db : Bool) (s : State) (hf_ : s.lasting = l_) : Keeps l_ (execRestart port ctx db s) := by
  subst hf_; unfold execRestart; repeat' first | with_reducible rfl | assumption | apply doorbell_keeps | intro _ | (simp; done) | split | (simp_all; done) | simp only [Keeps_ok, lasting_ite]
@[simp] theorem State.restartDone_lasting (s : State) (c : Nat) : (State.restartDone s c).lasting = s.lasting := by simp [State.restartDone]
theorem execRestartDone_keeps {l_ : Lasting} (c : Nat) (s : State) (hf_ : s.lasting = l_) : Keeps l_ (execRestartDone c s) := by subst hf_; unfold execRestartDone; apply onCtx_keeps; intros; simp [*]
theorem execHalt_keeps {l_ : Lasting} (port : Nat) (s : State) (hf_ : s.lasting = l_) : Keeps l_ (execHalt port s) := by subst hf_; unfold execHalt; apply gated_keeps; intros; simp [*]
@[simp] theorem State.faultRecords_lasting (s : State) (c : Nat) (n : Option W32) (e : Ending) : (State.faultRecords s c n e).lasting = s.lasting := by
  unfold State.faultRecords; repeat' first | with_reducible rfl | assumption | apply lasting_foldl | intro _ | (simp; done) | split | (simp_all; done) | simp only [Keeps_ok, lasting_ite]
theorem execContextFault_keeps {l_ : Lasting} (i : Nat) (s : State) (hf_ : s.lasting = l_) : Keeps l_ (execContextFault i s) := by subst hf_; unfold execContextFault; (repeat' split) <;> simp
theorem execStepWatchdog_keeps {l_ : Lasting} (c : Nat) (s : State) (hf_ : s.lasting = l_) : Keeps l_ (execStepWatchdog c s) := by subst hf_; unfold execStepWatchdog; apply onCtx_keeps; intros; (repeat' split) <;> simp [*]

/-! ### Partitions -/

@[simp] theorem State.prtCmd_lasting (s : State) (p ecode : Nat) : (State.prtCmd s p ecode).lasting = s.lasting := Eq.symm rfl
theorem prtGate_keeps {port p : Nat} {code : Part → Nat} {k : State → Out} (h : ∀ u, u.lasting = s.lasting → Keeps s.lasting (k u)) : Keeps s.lasting (prtGate s port p code k) := by
  unfold prtGate; apply onPart_keeps; intro q; apply gated0_keeps; apply when_keeps rfl; split
  · exact h _ (by simp)
  · simp
@[simp] theorem State.unpark_lasting (s : State) (p : Nat) : (State.unpark s p).lasting = s.lasting := by unfold State.unpark; apply lasting_foldl; intros; first | (simp; done) | (repeat' split) <;> simp
@[simp] theorem State.warmSite_lasting (s : State) (p : Nat) : (State.warmSite s p).lasting = s.lasting := by simp [State.warmSite]
@[simp] theorem State.warmReset_lasting (s : State) (p : Nat) : (State.warmReset s p).lasting = s.lasting := by simp [State.warmReset]
@[simp] theorem State.warmEnd_lasting (s : State) (p : Nat) : (State.warmEnd s p).lasting = s.lasting := by simp [State.warmEnd]
@[simp] theorem State.guardTiles_lasting (s : State) (p : Nat) (on : Bool) : (State.guardTiles s p on).lasting = s.lasting := by simp [State.guardTiles]
theorem execDefine_keeps {l_ : Lasting} (port p : Nat) (s : State) (hf_ : s.lasting = l_) : Keeps l_ (execDefine port p s) := by subst hf_; unfold execDefine; apply prtGate_keeps; intros; simp [*]
theorem execWarmReset_keeps {l_ : Lasting} (port p : Nat) (s : State) (hf_ : s.lasting = l_) : Keeps l_ (execWarmReset port p s) := by subst hf_; unfold execWarmReset; apply prtGate_keeps; intros; simp [*]
theorem execDelete_keeps {l_ : Lasting} (port p : Nat) (s : State) (hf_ : s.lasting = l_) : Keeps l_ (execDelete port p s) := by subst hf_; unfold execDelete; apply prtGate_keeps; intros; simp [*]
theorem execPrtUpdate_keeps {l_ : Lasting} (port p : Nat) (s : State) (hf_ : s.lasting = l_) : Keeps l_ (execPrtUpdate port p s) := by subst hf_; unfold execPrtUpdate; apply prtGate_keeps; intros; simp [*]
theorem execWarmResetDone_keeps {l_ : Lasting} (p : Nat) (found suspects : List BadUnit) (s : State) (hf_ : s.lasting = l_) : Keeps l_ (execWarmResetDone p found suspects s) := by subst hf_; unfold execWarmResetDone; apply onPart_keeps; intros; simp [*]
theorem execDeleteDone_keeps {l_ : Lasting} (p : Nat) (s : State) (hf_ : s.lasting = l_) : Keeps l_ (execDeleteDone p s) := by subst hf_; unfold execDeleteDone; apply onPart_keeps; intros; simp [*]

/-! ### Service -/

@[simp] theorem State.endSession_lasting (s : State) (entry reason : Nat) : (State.endSession s entry reason).lasting = s.lasting := by unfold State.endSession; split <;> simp
@[simp] theorem State.setDie_lasting (s : State) (d : Nat) (st : SvSt) : (State.setDie s d st).lasting = s.lasting := Eq.symm rfl
@[simp] theorem State.dieWork_lasting (s : State) : (State.dieWork s).lasting = s.lasting := by simp [State.dieWork]
theorem execSvHeartbeat_keeps {l_ : Lasting} (s : State) (hf_ : s.lasting = l_) : Keeps l_ (execSvHeartbeat s) := by subst hf_; simp [execSvHeartbeat]
@[simp] theorem State.sweepEnds_lasting (s : State) (p : Nat) : (State.sweepEnds s p).lasting = s.lasting := by simp [State.sweepEnds]
theorem execSvFailover_keeps {l_ : Lasting} (reported : Bool) (s : State) (hf_ : s.lasting = l_) : Keeps l_ (execSvFailover reported s) := by subst hf_; unfold execSvFailover; (repeat' split) <;> simp
theorem execSvStandbyLost_keeps {l_ : Lasting} (reported : Bool) (s : State) (hf_ : s.lasting = l_) : Keeps l_ (execSvStandbyLost reported s) := by subst hf_; unfold execSvStandbyLost; (repeat' split) <;> simp
theorem execSvLost_keeps {l_ : Lasting} (s : State) (hf_ : s.lasting = l_) : Keeps l_ (execSvLost s) := by subst hf_; unfold execSvLost; (repeat' split) <;> simp
theorem execSvReset_keeps {l_ : Lasting} (port : Nat) (v : W32) (s : State) (hf_ : s.lasting = l_) : Keeps l_ (execSvReset port v s) := by subst hf_; simp [execSvReset]
@[simp] theorem State.dieBack_lasting (s : State) (d : Nat) (good : Bool) : (State.dieBack s d good).lasting = s.lasting := by simp [State.dieBack]
theorem execSvRestored_keeps {l_ : Lasting} (aRuns bRuns : Bool) (s : State) (hf_ : s.lasting = l_) : Keeps l_ (execSvRestored aRuns bRuns s) := by subst hf_; simp [execSvRestored]
theorem execSweepGrant_keeps {l_ : Lasting} (port : Nat) (v : W32) (s : State) (hf_ : s.lasting = l_) : Keeps l_ (execSweepGrant port v s) := by subst hf_; unfold execSweepGrant; apply gated0_keeps; intros; simp [*]
theorem execSweepWindowEnd_keeps {l_ : Lasting} (s : State) (hf_ : s.lasting = l_) : Keeps l_ (execSweepWindowEnd s) := by subst hf_; simp [execSweepWindowEnd]
@[simp] theorem State.sweepMeasured_lasting (s : State) (site : Nat) (m : SweepMeas) : (State.sweepMeasured s site m).lasting = s.lasting := by simp [State.sweepMeasured]
theorem execMarginSweep_keeps {l_ : Lasting} (site : Nat) (m : SweepMeas) (s : State) (hf_ : s.lasting = l_) : Keeps l_ (execMarginSweep site m s) := by subst hf_; unfold execMarginSweep; apply onSite_keeps; intros; simp [*]
theorem execMarginOverdue_keeps {l_ : Lasting} (site : Nat) (s : State) (hf_ : s.lasting = l_) : Keeps l_ (execMarginOverdue site s) := by subst hf_; unfold execMarginOverdue; apply onSite_keeps; intros; simp [*]
theorem execLoadClassUpdate_keeps {l_ : Lasting} (site busyPct : Nat) (surged : Bool) (s : State) (hf_ : s.lasting = l_) : Keeps l_ (execLoadClassUpdate site busyPct surged s) := by subst hf_; unfold execLoadClassUpdate; apply onSite_keeps; intros; simp [*]
theorem execCellCeilingRise_keeps {l_ : Lasting} (site cell : Nat) (s : State) (hf_ : s.lasting = l_) : Keeps l_ (execCellCeilingRise site cell s) := by subst hf_; unfold execCellCeilingRise; apply onSite_keeps; intros; simp [*]

/-! ### Sessions -/

@[simp] theorem State.sesEnd_lasting (s : State) (port cmd ecode : Nat) : (State.sesEnd s port cmd ecode).lasting = s.lasting := Eq.symm rfl
theorem sesCmd_keeps {port : Nat} {k : Port → Out} (h : ∀ p, Keeps s.lasting (k p)) : Keeps s.lasting (sesCmd s port k) := by
  unfold sesCmd; apply onPort_keeps; intro p; exact when_keeps rfl (h p)
theorem sesGated_keeps {port cmd : Nat} {k : Port → Out} (h : ∀ p, Keeps s.lasting (k p)) : Keeps s.lasting (sesGated s port cmd k) := by
  unfold sesGated; apply sesCmd_keeps; intro p; split
  · exact h p
  · simp
theorem execChallenge_keeps {l_ : Lasting} (port : Nat) (s : State) (hf_ : s.lasting = l_) : Keeps l_ (execChallenge port s) := by subst hf_; unfold execChallenge; apply sesCmd_keeps; intros; simp [*]
theorem execChallengeExpiry_keeps {l_ : Lasting} (port : Nat) (s : State) (hf_ : s.lasting = l_) : Keeps l_ (execChallengeExpiry port s) := by subst hf_; unfold execChallengeExpiry; apply onPort_keeps; intros; (repeat' split) <;> simp [*]
@[simp] theorem State.openFails_lasting (s : State) (port e : Nat) : (State.openFails s port e).lasting = s.lasting := by simp [State.openFails]
theorem execSesOpen_keeps {l_ : Lasting} (port : Nat) (s : State) (hf_ : s.lasting = l_) : Keeps l_ (execSesOpen port s) := by subst hf_; unfold execSesOpen; apply sesCmd_keeps; intros; (repeat' split) <;> simp [*]
theorem execLockoutExpiry_keeps {l_ : Lasting} (port : Nat) (s : State) (hf_ : s.lasting = l_) : Keeps l_ (execLockoutExpiry port s) := by subst hf_; unfold execLockoutExpiry; apply onPort_keeps; intros; (repeat' split) <;> simp [*]
theorem execSesClose_keeps {l_ : Lasting} (port : Nat) (s : State) (hf_ : s.lasting = l_) : Keeps l_ (execSesClose port s) := by subst hf_; unfold execSesClose; apply sesCmd_keeps; intros; (repeat' split) <;> simp [*]
theorem execSessionDeadline_keeps {l_ : Lasting} (entry : Nat) (s : State) (hf_ : s.lasting = l_) : Keeps l_ (execSessionDeadline entry s) := by subst hf_; unfold execSessionDeadline; (repeat' split) <;> simp
theorem execAttest_keeps {l_ : Lasting} (port : Nat) (s : State) (hf_ : s.lasting = l_) : Keeps l_ (execAttest port s) := by subst hf_; unfold execAttest; apply sesCmd_keeps; intros; simp [*]
theorem execPubkey_keeps {l_ : Lasting} (port : Nat) (s : State) (hf_ : s.lasting = l_) : Keeps l_ (execPubkey port s) := by subst hf_; unfold execPubkey; apply sesCmd_keeps; intros; simp [*]
theorem execArmOwner_keeps {l_ : Lasting} (port : Nat) (s : State) (hf_ : s.lasting = l_) : Keeps l_ (execArmOwner port s) := by subst hf_; unfold execArmOwner; apply sesGated_keeps; intros; simp [*]
theorem execArmSvn_keeps {l_ : Lasting} (port : Nat) (s : State) (hf_ : s.lasting = l_) : Keeps l_ (execArmSvn port s) := by subst hf_; unfold execArmSvn; apply sesGated_keeps; intros; simp [*]
theorem execFuseArmExpiry_keeps {l_ : Lasting} (port : Nat) (s : State) (hf_ : s.lasting = l_) : Keeps l_ (execFuseArmExpiry port s) := by subst hf_; unfold execFuseArmExpiry; apply onPort_keeps; intros; (repeat' split) <;> simp [*]

/-! ### Meter -/

@[simp] theorem State.ringRecord_lasting (s : State) (r : MeterRec) : (State.ringRecord s r).lasting = s.lasting := by simp [State.ringRecord]
@[simp] theorem State.recordEvents_lasting (s : State) (r : MeterRec) : (State.recordEvents s r).lasting = s.lasting := by simp [State.recordEvents]
@[simp] theorem State.goodRecord_lasting (s : State) (r : MeterRec) : (State.goodRecord s r).lasting = s.lasting := by simp [State.goodRecord]
theorem execMeterFrame_keeps {l_ : Lasting} (f : MeterFrame) (s : State) (hf_ : s.lasting = l_) : Keeps l_ (execMeterFrame f s) := by subst hf_; unfold execMeterFrame; (repeat' split) <;> simp
theorem execMtrLinkLost_keeps {l_ : Lasting} (s : State) (hf_ : s.lasting = l_) : Keeps l_ (execMtrLinkLost s) := by subst hf_; simp [execMtrLinkLost]
theorem execMtrSelect_keeps {l_ : Lasting} (port : Nat) (v : W32) (s : State) (hf_ : s.lasting = l_) : Keeps l_ (execMtrSelect port v s) := by subst hf_; unfold execMtrSelect; apply onPort_keeps; intros; simp [*]
theorem execMtrRhead_keeps {l_ : Lasting} (port : Nat) (v : W32) (s : State) (hf_ : s.lasting = l_) : Keeps l_ (execMtrRhead port v s) := by subst hf_; unfold execMtrRhead; apply onPort_keeps; intros; simp [*]
theorem execMtrRcfg_keeps {l_ : Lasting} (port : Nat) (v : W32) (s : State) (hf_ : s.lasting = l_) : Keeps l_ (execMtrRcfg port v s) := by
  subst hf_; unfold execMtrRcfg; apply gated0_keeps; apply when_keeps rfl; rw [Keeps_ok]
  exact State.modMtr_lasting _ _ (by dsimp only; split <;> rfl)

/-! ### Debug -/

@[simp] theorem State.dbgRefuse_lasting (s : State) (ecode : Nat) : (State.dbgRefuse s ecode).lasting = s.lasting := Eq.symm rfl
theorem dbgCmd_keeps {port : Nat} {k : State → State} (h : ∀ u, (k u).lasting = u.lasting) : Keeps s.lasting (dbgCmd s port k) := by
  unfold dbgCmd; apply gated0_keeps; dsimp only; (repeat' split) <;> simp [h]
theorem execDbgRead_keeps {l_ : Lasting} (port : Nat) (s : State) (hf_ : s.lasting = l_) : Keeps l_ (execDbgRead port s) := by subst hf_; unfold execDbgRead; apply dbgCmd_keeps; intros; simp [*]
theorem execDbgWrite_keeps {l_ : Lasting} (port : Nat) (s : State) (hf_ : s.lasting = l_) : Keeps l_ (execDbgWrite port s) := by subst hf_; unfold execDbgWrite; apply dbgCmd_keeps; intros; simp [*]
theorem execDbgLock_keeps {l_ : Lasting} (port : Nat) (v : W32) (s : State) (hf_ : s.lasting = l_) : Keeps l_ (execDbgLock port v s) := by subst hf_; unfold execDbgLock; apply gated0_keeps; intros; simp [*]
theorem execDbgTest_keeps {l_ : Lasting} (port : Nat) (v : W32) (s : State) (hf_ : s.lasting = l_) : Keeps l_ (execDbgTest port v s) := by subst hf_; unfold execDbgTest; apply gated0_keeps; intros; simp [*]
@[simp] theorem dbgSet_keeps {l_ : Lasting} (s : State) (port off : Nat) (f : Dbg → Dbg) (hf_ : s.lasting = l_) : Keeps l_ (dbgSet s port off f) := by subst hf_; unfold dbgSet; apply gated0_keeps; intros; simp [*]

/-! ### Cache -/

theorem execScrubAccess_keeps {l_ : Lasting} (t : Nat) (found : MemErr) (word : Nat) (s : State) (hf_ : s.lasting = l_) : Keeps l_ (execScrubAccess t found word s) := by subst hf_; unfold execScrubAccess; apply onTile_keeps; intros; simp [*]
theorem atSlice_keeps {i : Nat} {f : Flight} {k : Nat → State → Out} (h : ∀ p u, u.lasting = s.lasting → Keeps s.lasting (k p u)) : Keeps s.lasting (atSlice s i f k) := by
  unfold atSlice; (try dsimp only); (repeat' split) <;> first | (simp; done) | (refine h _ _ ?_; simp)
@[simp] theorem State.cacheMiss_lasting (s : State) (i : Nat) (f : Flight) (p line : Nat) : (State.cacheMiss s i f p line).lasting = s.lasting := by unfold State.cacheMiss; split <;> simp
theorem execCacheRead_keeps {l_ : Lasting} (i : Nat) (joins : Bool) (err : MemErr) (s : State) (hf_ : s.lasting = l_) : Keeps l_ (execCacheRead i joins err s) := by
  subst hf_; unfold execCacheRead; repeat' first | with_reducible rfl | assumption | apply onFlight_keeps | apply atSlice_keeps | intro _ | (simp; done) | split | (simp_all; done) | simp only [Keeps_ok, lasting_ite]
theorem execCacheFillReturn_keeps {l_ : Lasting} (i : Nat) (s : State) (hf_ : s.lasting = l_) : Keeps l_ (execCacheFillReturn i s) := by
  subst hf_; unfold execCacheFillReturn; repeat' first | with_reducible rfl | assumption | apply onFlight_keeps | apply lasting_foldl | intro _ | (simp; done) | split | (simp_all; done) | simp only [Keeps_ok, lasting_ite]
theorem execCacheWrite_keeps {l_ : Lasting} (i : Nat) (s : State) (hf_ : s.lasting = l_) : Keeps l_ (execCacheWrite i s) := by
  subst hf_; unfold execCacheWrite; repeat' first | with_reducible rfl | assumption | apply onFlight_keeps | apply atSlice_keeps | intro _ | (simp; done) | split | (simp_all; done) | simp only [Keeps_ok, lasting_ite]
@[simp] theorem maintain_keeps {l_ : Lasting} (p : Nat) (op : Nat → Bool) (hit : Packet → Nat → Bool) (s : State) (hf_ : s.lasting = l_) : Keeps l_ (maintain p op hit s) := by subst hf_; unfold maintain; apply onSite_keeps; intros; (repeat' split) <;> simp [*]
theorem execMaintInvalidateLine_keeps {l_ : Lasting} (p : Nat) (s : State) (hf_ : s.lasting = l_) : Keeps l_ (execMaintInvalidateLine p s) := by subst hf_; simp [execMaintInvalidateLine]
theorem execMaintInvalidateRange_keeps {l_ : Lasting} (p : Nat) (s : State) (hf_ : s.lasting = l_) : Keeps l_ (execMaintInvalidateRange p s) := by subst hf_; simp [execMaintInvalidateRange]
theorem execMaintInvalidateAll_keeps {l_ : Lasting} (p : Nat) (s : State) (hf_ : s.lasting = l_) : Keeps l_ (execMaintInvalidateAll p s) := by subst hf_; simp [execMaintInvalidateAll]
theorem execMaintReserved_keeps {l_ : Lasting} (p : Nat) (s : State) (hf_ : s.lasting = l_) : Keeps l_ (execMaintReserved p s) := by subst hf_; simp [execMaintReserved]
@[simp] theorem State.channelFails_lasting (s : State) (ch : Nat) : (State.channelFails s ch).lasting = s.lasting := by simp [State.channelFails]
theorem execDdrChannelDown_keeps {l_ : Lasting} (ch : Nat) (s : State) (hf_ : s.lasting = l_) : Keeps l_ (execDdrChannelDown ch s) := by subst hf_; simp [execDdrChannelDown]
theorem execPatrolRead_keeps {l_ : Lasting} (ch burst : Nat) (found : MemErr) (n : Nat) (s : State) (hf_ : s.lasting = l_) : Keeps l_ (execPatrolRead ch burst found n s) := by subst hf_; simp [execPatrolRead]
@[simp] theorem State.regionCommit_lasting (s : State) (p : Nat) : (State.regionCommit s p).lasting = s.lasting := by simp [State.regionCommit]
theorem execDdrRegionCommit_keeps {l_ : Lasting} (port p : Nat) (s : State) (hf_ : s.lasting = l_) : Keeps l_ (execDdrRegionCommit port p s) := by subst hf_; unfold execDdrRegionCommit; apply onPart_keeps; intros; apply gated0_keeps; intros; simp [*]
@[simp] theorem State.bevWrite_lasting (s : State) (k : Nat) (v : W32) : (State.bevWrite s k v).lasting = s.lasting := by simp [State.bevWrite]
theorem execPrtBevWrite_keeps {l_ : Lasting} (port k : Nat) (v : W32) (s : State) (hf_ : s.lasting = l_) : Keeps l_ (execPrtBevWrite port k v s) := by
  subst hf_; unfold execPrtBevWrite; repeat' first | with_reducible rfl | assumption | apply gated0_keeps | intro _ | (simp; done) | split | (simp_all; done) | simp only [Keeps_ok, lasting_ite]

/-! ### CapCtl -/

theorem execPwrCap_keeps {l_ : Lasting} (port : Nat) (v : W32) (s : State) (hf_ : s.lasting = l_) : Keeps l_ (execPwrCap port v s) := by subst hf_; unfold execPwrCap; apply gated0_keeps; intros; simp [*]
@[simp] theorem State.setPace_lasting (s : State) (q lim : Nat) : (State.setPace s q lim).lasting = s.lasting := by simp [State.setPace]
@[simp] theorem State.paceUpdate_lasting (s : State) (q : Nat) : (State.paceUpdate s q).lasting = s.lasting := by simp [State.paceUpdate]
theorem execPaceLock_keeps {l_ : Lasting} (port p : Nat) (v : W32) (s : State) (hf_ : s.lasting = l_) : Keeps l_ (execPaceLock port p v s) := by subst hf_; unfold execPaceLock; apply onPart_keeps; intros; apply gated0_keeps; intros; simp [*]
@[simp] theorem State.measured_lasting (s : State) (m : PowerMeas) : (State.measured s m).lasting = s.lasting := by simp [State.measured]
@[simp] theorem State.sample_lasting (s : State) (p : Nat) : (State.sample s p).lasting = s.lasting := by
  unfold State.sample; repeat' first | with_reducible rfl | assumption | intro _ | (simp; done) | split | (simp_all; done) | simp only [Keeps_ok, lasting_ite]
@[simp] theorem State.serveFailover_lasting (s : State) : (State.serveFailover s).lasting = s.lasting := by simp [State.serveFailover]
theorem execBudgetAllocation_keeps {l_ : Lasting} (m : PowerMeas) (s : State) (hf_ : s.lasting = l_) : Keeps l_ (execBudgetAllocation m s) := by subst hf_; unfold execBudgetAllocation; (repeat' split) <;> simp
theorem execPacerUpdate_keeps {l_ : Lasting} (site m mv : Nat) (s : State) (hf_ : s.lasting = l_) : Keeps l_ (execPacerUpdate site m mv s) := by subst hf_; unfold execPacerUpdate; apply onSite_keeps; intros; simp [*]
theorem execCapLimitUpdate_keeps {l_ : Lasting} (site : Nat) (s : State) (hf_ : s.lasting = l_) : Keeps l_ (execCapLimitUpdate site s) := by subst hf_; unfold execCapLimitUpdate; apply onSite_keeps; intros; simp [*]
theorem execClearProfiles_keeps {l_ : Lasting} (port p : Nat) (s : State) (hf_ : s.lasting = l_) : Keeps l_ (execClearProfiles port p s) := by subst hf_; unfold execClearProfiles; apply onPart_keeps; intros; apply gated0_keeps; intros; simp [*]
theorem execProfileMirror_keeps {l_ : Lasting} (s : State) (hf_ : s.lasting = l_) : Keeps l_ (execProfileMirror s) := by subst hf_; simp [execProfileMirror]
@[simp] theorem State.telSite_lasting (convs : List ConvMeas) (s : State) (m : SiteMeas) : (State.telSite convs s m).lasting = s.lasting := by simp [State.telSite]
@[simp] theorem State.telConv_lasting (s : State) (m : ConvMeas) : (State.telConv s m).lasting = s.lasting := by simp [State.telConv]
@[simp] theorem State.telCtl_lasting (s : State) (p : Nat) : (State.telCtl s p).lasting = s.lasting := by simp [State.telCtl]
theorem execTelemetryTick_keeps {l_ : Lasting} (sites : List SiteMeas) (convs : List ConvMeas) (s : State) (hf_ : s.lasting = l_) : Keeps l_ (execTelemetryTick sites convs s) := by
  subst hf_; unfold execTelemetryTick; repeat' first | with_reducible rfl | assumption | apply lasting_foldl | intro _ | (simp; done) | split | (simp_all; done) | simp only [Keeps_ok, lasting_ite]
theorem execTelHead_keeps {l_ : Lasting} (port : Nat) (v : W32) (s : State) (hf_ : s.lasting = l_) : Keeps l_ (execTelHead port v s) := by subst hf_; simp [execTelHead]
theorem execTelCfg_keeps {l_ : Lasting} (port : Nat) (v : W32) (s : State) (hf_ : s.lasting = l_) : Keeps l_ (execTelCfg port v s) := by subst hf_; unfold execTelCfg; apply gated0_keeps; intros; simp [*]

/-! ### Rick -/

@[simp] theorem State.recompute_lasting (s : State) : (State.recompute s).lasting = s.lasting := by simp [State.recompute]
@[simp] theorem State.casDown_lasting (s : State) (n : Nat) (inDoubt : Nat → Bool) : (State.casDown s n inDoubt).lasting = s.lasting := by simp [State.casDown]
@[simp] theorem State.casResend_lasting (s : State) (n : Nat) : (State.casResend s n).lasting = s.lasting := by unfold State.casResend; split <;> simp
theorem execReplayTimeout_keeps {l_ : Lasting} (n : Nat) (s : State) (hf_ : s.lasting = l_) : Keeps l_ (execReplayTimeout n s) := by subst hf_; unfold execReplayTimeout; apply onCas_keeps; intros; simp [*]
theorem execCascadePortDown_keeps {l_ : Lasting} (n : Nat) (inDoubt : List Nat) (s : State) (hf_ : s.lasting = l_) : Keeps l_ (execCascadePortDown n inDoubt s) := by subst hf_; unfold execCascadePortDown; apply onCas_keeps; intros; simp [*]
@[simp] theorem State.casIsolate_lasting (s : State) (n : Nat) : (State.casIsolate s n).lasting = s.lasting := Eq.symm rfl
@[simp] theorem State.rickConflict_lasting (s : State) (serial : W64) : (State.rickConflict s serial).lasting = s.lasting := by simp [State.rickConflict]
theorem execCascadePortUp_keeps {l_ : Lasting} (n : Nat) (partner : CasPartner) (s : State) (hf_ : s.lasting = l_) : Keeps l_ (execCascadePortUp n partner s) := by subst hf_; unfold execCascadePortUp; apply onCas_keeps; intros; simp [*]
@[simp] theorem State.casCfg_lasting (s : State) (n : Nat) (v : W32) : (State.casCfg s n v).lasting = s.lasting := by simp [State.casCfg]
theorem execCasPcfg_keeps {l_ : Lasting} (port n : Nat) (v : W32) (s : State) (hf_ : s.lasting = l_) : Keeps l_ (execCasPcfg port n v s) := by subst hf_; unfold execCasPcfg; apply onCas_keeps; intros; apply gated0_keeps; intros; simp [*]
theorem execRickAnnounce_keeps {l_ : Lasting} (panel : Nat) (serial : W64) (via : Announcement) (s : State) (hf_ : s.lasting = l_) : Keeps l_ (execRickAnnounce panel serial via s) := by
  subst hf_; unfold execRickAnnounce; repeat' first | with_reducible rfl | assumption | apply lasting_foldl | intro _ | (simp; done) | split | (simp_all; done) | simp only [Keeps_ok, lasting_ite]
theorem casCtl_keeps {port : Nat} {v : Option W32} {k : State → Out} (h : ∀ u, u.lasting = s.lasting → Keeps s.lasting (k u)) : Keeps s.lasting (casCtl s port v k) := by
  unfold casCtl; apply gated0_keeps; apply when_keeps rfl
  cases v <;> (dsimp only; split; · exact h _ (by simp)) <;> simp
theorem execPublish_keeps {l_ : Lasting} (port : Nat) (s : State) (hf_ : s.lasting = l_) : Keeps l_ (execPublish port s) := by subst hf_; unfold execPublish; apply casCtl_keeps; intros; simp [*]
theorem execRickRoutes_keeps {l_ : Lasting} (gen : Nat) (s : State) (hf_ : s.lasting = l_) : Keeps l_ (execRickRoutes gen s) := by subst hf_; simp [execRickRoutes]
@[simp] theorem State.rickRestart_lasting (s : State) (c : Nat) : (State.rickRestart s c).lasting = s.lasting := by simp [State.rickRestart]
theorem execRrestart_keeps {l_ : Lasting} (port : Nat) (v : W32) (s : State) (hf_ : s.lasting = l_) : Keeps l_ (execRrestart port v s) := by
  subst hf_; unfold execRrestart; repeat' first | with_reducible rfl | assumption | apply casCtl_keeps | intro _ | (simp; done) | split | (simp_all; done) | simp only [Keeps_ok, lasting_ite]
theorem execRrestartDone_keeps {l_ : Lasting} (s : State) (hf_ : s.lasting = l_) : Keeps l_ (execRrestartDone s) := by subst hf_; simp [execRrestartDone]
theorem execTimebaseSync_keeps {l_ : Lasting} (master : Nat) (s : State) (hf_ : s.lasting = l_) : Keeps l_ (execTimebaseSync master s) := by subst hf_; simp [execTimebaseSync]
theorem execMasterLost_keeps {l_ : Lasting} (s : State) (hf_ : s.lasting = l_) : Keeps l_ (execMasterLost s) := by subst hf_; simp [execMasterLost]
theorem execRickBarrierArrival_keeps {l_ : Lasting} (panel id : Nat) (count : W32) (s : State) (hf_ : s.lasting = l_) : Keeps l_ (execRickBarrierArrival panel id count s) := by subst hf_; simp [execRickBarrierArrival]
theorem execRickBarrierRelease_keeps {l_ : Lasting} (id : Nat) (stamp : W64) (s : State) (hf_ : s.lasting = l_) : Keeps l_ (execRickBarrierRelease id stamp s) := by subst hf_; simp [execRickBarrierRelease]

/-! ### Clocking -/

theorem execClkRefLoss_keeps {l_ : Lasting} (input : Nat) (s : State) (hf_ : s.lasting = l_) : Keeps l_ (execClkRefLoss input s) := by subst hf_; simp [execClkRefLoss]
theorem execClkRefRestored_keeps {l_ : Lasting} (input : Nat) (s : State) (hf_ : s.lasting = l_) : Keeps l_ (execClkRefRestored input s) := by subst hf_; simp [execClkRefRestored]
theorem execEdgeHoldoverExpiry_keeps {l_ : Lasting} (edge : Nat) (s : State) (hf_ : s.lasting = l_) : Keeps l_ (execEdgeHoldoverExpiry edge s) := by
  subst hf_; unfold execEdgeHoldoverExpiry; split
  · simp
  · apply when_keeps rfl; split
    · rw [Keeps_ok, State.promise_lasting, lasting_foldl _ (fun u p => by simp)]
    · rw [Keeps_ok, lasting_foldl _ (fun u p => by split <;> simp)]
theorem execClkDecoupled_keeps {l_ : Lasting} (site : Nat) (faces : BitVec 4) (s : State) (hf_ : s.lasting = l_) : Keeps l_ (execClkDecoupled site faces s) := by subst hf_; unfold execClkDecoupled; apply onSite_keeps; intros; simp [*]
theorem execClkRecoupled_keeps {l_ : Lasting} (site : Nat) (s : State) (hf_ : s.lasting = l_) : Keeps l_ (execClkRecoupled site s) := by subst hf_; unfold execClkRecoupled; apply onSite_keeps; intros; simp [*]
theorem execTimeMessage_keeps {l_ : Lasting} (site rate : Nat) (s : State) (hf_ : s.lasting = l_) : Keeps l_ (execTimeMessage site rate s) := by subst hf_; unfold execTimeMessage; apply onSite_keeps; intros; simp [*]
theorem execStepChange_keeps {l_ : Lasting} (site k : Nat) (s : State) (hf_ : s.lasting = l_) : Keeps l_ (execStepChange site k s) := by subst hf_; unfold execStepChange; apply onSite_keeps; intros; simp [*]
theorem execRailSettled_keeps {l_ : Lasting} (site : Nat) (s : State) (hf_ : s.lasting = l_) : Keeps l_ (execRailSettled site s) := by subst hf_; unfold execRailSettled; apply onSite_keeps; intros; simp [*]
theorem execStepStopEnd_keeps {l_ : Lasting} (site : Nat) (e : StopEnd) (s : State) (hf_ : s.lasting = l_) : Keeps l_ (execStepStopEnd site e s) := by subst hf_; unfold execStepStopEnd; apply onSite_keeps; intros; simp [*]
theorem execClkStepFault_keeps {l_ : Lasting} (site : Nat) (s : State) (hf_ : s.lasting = l_) : Keeps l_ (execClkStepFault site s) := by subst hf_; unfold execClkStepFault; apply onSite_keeps; intros; simp [*]
theorem execClkCeil_keeps {l_ : Lasting} (port p : Nat) (v : W32) (s : State) (hf_ : s.lasting = l_) : Keeps l_ (execClkCeil port p v s) := by subst hf_; unfold execClkCeil; apply onPart_keeps; intros; apply gated0_keeps; intros; simp [*]
theorem clkBank_keeps {port : Nat} {v : W32} {k : State → Nat → Out} (h : ∀ u p, u.lasting = s.lasting → Keeps s.lasting (k u p)) : Keeps s.lasting (clkBank s port v k) := by
  unfold clkBank; apply gated0_keeps; apply when_keeps rfl; dsimp only; split
  · simp
  · exact h _ _ (by simp)
theorem execBank_keeps {l_ : Lasting} (port : Nat) (v : W32) (s : State) (hf_ : s.lasting = l_) : Keeps l_ (execBank port v s) := by subst hf_; unfold execBank; apply clkBank_keeps; intros; simp [*]
theorem execUnbank_keeps {l_ : Lasting} (port : Nat) (v : W32) (s : State) (hf_ : s.lasting = l_) : Keeps l_ (execUnbank port v s) := by subst hf_; unfold execUnbank; apply clkBank_keeps; intros; simp [*]
theorem execBankReturn_keeps {l_ : Lasting} (site : Nat) (s : State) (hf_ : s.lasting = l_) : Keeps l_ (execBankReturn site s) := by subst hf_; unfold execBankReturn; apply onSite_keeps; intros; simp [*]

/-! ### Registers -/

theorem plain_keeps {port : Nat} {g : State → State} (h : ∀ u, (g u).lasting = u.lasting) : Keeps s.lasting (plain s port g) := by
  unfold plain; apply when_keeps rfl; simp [h]
theorem plain0_keeps {port : Nat} {g : State → State} (h : ∀ u, (g u).lasting = u.lasting) : Keeps s.lasting (plain0 s port g) := by
  unfold plain0; apply when_keeps rfl; simp [h]

/-! ### RvOps -/

@[simp] theorem State.trap_lasting (s : State) (t c cause : Nat) (tval : W64) : (State.trap s t c cause tval).lasting = s.lasting := by simp [State.trap]
@[simp] theorem State.trapUncorr_lasting (s : State) (t c a : Nat) : (State.trapUncorr s t c a).lasting = s.lasting := by simp [State.trapUncorr]
@[simp] theorem State.trapLoad_lasting (s : State) (t c e a : Nat) : (State.trapLoad s t c e a).lasting = s.lasting := by simp [State.trapLoad]
theorem coreLoad_keeps {t c a n : Nat} {k : State → Nat → Out} (h : ∀ u v, u.lasting = s.lasting → Keeps s.lasting (k u v)) : Keeps s.lasting (coreLoad s t c a n k) := by
  unfold coreLoad; split
  · exact h _ _ (by simp)
  · simp
theorem coreStore_keeps {t c a n v : Nat} {k : State → Out} (h : ∀ u, u.lasting = s.lasting → Keeps s.lasting (k u)) : Keeps s.lasting (coreStore s t c a n v k) := by
  unfold coreStore; dsimp only; (repeat' split) <;> first | (simp; done) | (refine h _ ?_; simp; done)
@[simp] theorem State.passCycles_lasting (s : State) (t c : Nat) : (State.passCycles s t c).lasting = s.lasting := Eq.symm rfl
@[simp] theorem State.fetched_lasting (s : State) (t c len : Nat) : (State.fetched s t c len).lasting = s.lasting := Eq.symm rfl

/-! ### RiscV -/

@[simp] theorem fin_keeps {l_ : Lasting} (s : State) (t c len : Nat) (f : Core → Core) (hf_ : s.lasting = l_) : Keeps l_ (fin s t c len f) := by subst hf_; simp [fin]
@[simp] theorem illegal_keeps {l_ : Lasting} (s : State) (t c w : Nat) (hf_ : s.lasting = l_) : Keeps l_ (illegal s t c w) := by subst hf_; simp [illegal]
@[simp] theorem rvAmo_keeps {l_ : Lasting} (s : State) (t c w len : Nat) (hf_ : s.lasting = l_) : Keeps l_ (rvAmo s t c w len) := by
  subst hf_; unfold rvAmo; extract_lets T k n f5 a v rd; clear_value n
  split
  · simp
  · split
    · split
      · simp
      · split
        · simp
        · exact coreLoad_keeps fun u v hu => by simp [hu]
    · split
      · split
        · simp
        · split
          · simp
          · split
            · split
              · exact (by simp : (s.spendN (b2n k.resvHit)).lasting = s.lasting) ▸ coreStore_keeps fun u hu => by simp [hu]
              · simp
            · simp
      · split
        · simp
        · split
          · simp
          · split
            · simp
            · exact coreLoad_keeps fun u v hu => hu ▸ coreStore_keeps fun w hw => by simp [hw]
@[simp] theorem rvFp_keeps {l_ : Lasting} (s : State) (t c w len : Nat) (hf_ : s.lasting = l_) : Keeps l_ (rvFp s t c w len) := by
  subst hf_; unfold rvFp; repeat' first | with_reducible rfl | assumption | intro _ | (simp; done) | split | (simp_all; done) | simp only [Keeps_ok, lasting_ite]
@[simp] theorem rvFma_keeps {l_ : Lasting} (s : State) (t c w len : Nat) (hf_ : s.lasting = l_) : Keeps l_ (rvFma s t c w len) := by
  subst hf_; unfold rvFma; repeat' first | with_reducible rfl | assumption | intro _ | (simp; done) | split | (simp_all; done) | simp only [Keeps_ok, lasting_ite]
@[simp] theorem rvCsr_keeps {l_ : Lasting} (s : State) (t c w len : Nat) (hf_ : s.lasting = l_) : Keeps l_ (rvCsr s t c w len) := by
  subst hf_; unfold rvCsr; dsimp only
  have h : (if w / 2 ^ 20 = 0xC00 then s.passCycles t c else s).lasting = s.lasting := by split <;> simp
  generalize (if w / 2 ^ 20 = 0xC00 then s.passCycles t c else s) = u at h
  (repeat' split) <;> simp [h]
@[simp] theorem vLoad1_lasting (s : State) (t c : Nat) (m : VMem) (i f : Nat) : (vLoad1 s t c m i f).1.lasting = s.lasting := by
  unfold vLoad1; dsimp only; split <;> simp
@[simp] theorem vStore1_lasting (s : State) (t c : Nat) (m : VMem) (i f : Nat) : (vStore1 s t c m i f).1.lasting = s.lasting := by
  unfold vStore1; dsimp only; (repeat' split) <;> simp
theorem foldl_lasting {α β : Type} (p : α → State) (g : α → β → α) (f0 : Lasting)
    (h : ∀ a b, (p a).lasting = f0 → (p (g a b)).lasting = f0) : ∀ (l : List β) (a : α), (p a).lasting = f0 → (p (l.foldl g a)).lasting = f0
  | [], _, ha => ha
  | b :: l, a, ha => foldl_lasting p g f0 h l _ (h a b ha)
theorem vRun_lasting (g : State → Nat → Nat → State × VStop) (hg : ∀ u i j, (g u i j).1.lasting = u.lasting) (n : Nat) (s : State) (l : List Nat) :
    (vRun g n s l).1.lasting = s.lasting := by
  unfold vRun
  refine foldl_lasting (fun a : State × VStop => a.1) _ _ (fun a i ha => ?_) _ _ rfl
  refine foldl_lasting (fun a : State × VStop => a.1) _ _ (fun a j ha => ?_) _ _ ha
  split
  · rw [hg]; exact ha
  · exact ha
@[simp] theorem vAccess_keeps {l_ : Lasting} (s : State) (t c len : Nat) (m : VMem) (isLoad : Bool) (hf_ : s.lasting = l_) : Keeps l_ (vAccess s t c len m isLoad) := by
  subst hf_; unfold vAccess; dsimp only
  have h := vRun_lasting (fun s i f => if isLoad then vLoad1 s t c m i f else vStore1 s t c m i f) (fun u i j => by split <;> simp) m.fields s
    (m.elems.filter fun i => (s.core t c).active m.vm i)
  generalize vRun _ _ _ _ = r at h
  (repeat' split) <;> simp [h]
@[simp] theorem rvVecMem_keeps {l_ : Lasting} (s : State) (t c w len : Nat) (isLoad : Bool) (hf_ : s.lasting = l_) : Keeps l_ (rvVecMem s t c w len isLoad) := by
  subst hf_; unfold rvVecMem; dsimp only; (repeat' split) <;> simp
@[simp] theorem rvVec_keeps {l_ : Lasting} (s : State) (t c w len : Nat) (hf_ : s.lasting = l_) : Keeps l_ (rvVec s t c w len) := by
  subst hf_; unfold rvVec; repeat' first | with_reducible rfl | assumption | intro _ | (simp; done) | split | (simp_all; done) | simp only [Keeps_ok, lasting_ite]
@[simp] theorem rvExec_keeps {l_ : Lasting} (s : State) (t c w len : Nat) (hf_ : s.lasting = l_) : Keeps l_ (rvExec s t c w len) := by
  subst hf_; unfold rvExec; dsimp only; split
  all_goals first
    | (simp; done)
    | (split <;> (first | (simp; done) | exact coreLoad_keeps fun u v hu => by simp [hu] | exact coreStore_keeps fun u hu => by simp [hu]))
    | ((repeat' split) <;> first | (simp; done) | exact coreLoad_keeps fun u v hu => by simp [hu] | exact coreStore_keeps fun u hu => by simp [hu])

/-! ### Cores -/

theorem atXt_keeps {t c : Nat} {x : Xt} {k : State → Nat → Out} (h : ∀ u w, u.lasting = s.lasting → Keeps s.lasting (k u w)) : Keeps s.lasting (atXt s t c x k) := by
  unfold atXt; apply onTile_keeps; intro T; (repeat' split) <;> first | (simp; done) | exact h _ _ (by simp)
@[simp] theorem queueTransfer_keeps {l_ : Lasting} (s : State) (t c : Nat) (put : Bool) (w : Nat) (hf_ : s.lasting = l_) : Keeps l_ (queueTransfer s t c put w) := by subst hf_; simp [queueTransfer]
theorem execXtPut_keeps {l_ : Lasting} (t c : Nat) (s : State) (hf_ : s.lasting = l_) : Keeps l_ (execXtPut t c s) := by subst hf_; unfold execXtPut; apply atXt_keeps; intros; simp [*]
theorem execXtGet_keeps {l_ : Lasting} (t c : Nat) (s : State) (hf_ : s.lasting = l_) : Keeps l_ (execXtGet t c s) := by subst hf_; unfold execXtGet; apply atXt_keeps; intros; simp [*]
@[simp] theorem issuePut_lasting (s : State) (t c : Nat) (x : Transfer) : (issuePut s t c x).lasting = s.lasting := by
  unfold issuePut; simp only [State.edgeSeq, State.tileSeq]; repeat' first | with_reducible rfl | assumption | intro _ | (simp; done) | split | (simp_all; done) | simp only [Keeps_ok, lasting_ite]
@[simp] theorem issueGet_lasting (s : State) (t c : Nat) (x : Transfer) : (issueGet s t c x).lasting = s.lasting := by
  unfold issueGet; repeat' first | with_reducible rfl | assumption | intro _ | (simp; done) | split | (simp_all; done) | simp only [Keeps_ok, lasting_ite]
theorem execTransferPacketIssue_keeps {l_ : Lasting} (t : Nat) (s : State) (hf_ : s.lasting = l_) : Keeps l_ (execTransferPacketIssue t s) := by subst hf_; unfold execTransferPacketIssue; apply onTile_keeps; intros; (repeat' split) <;> simp [*]
theorem execEcallExit_keeps {l_ : Lasting} (t c : Nat) (s : State) (hf_ : s.lasting = l_) : Keeps l_ (execEcallExit t c s) := by subst hf_; unfold execEcallExit; apply onTile_keeps; intros; (repeat' split) <;> simp [*]
theorem execCoreDone_keeps {l_ : Lasting} (t c : Nat) (s : State) (hf_ : s.lasting = l_) : Keeps l_ (execCoreDone t c s) := by
  subst hf_; unfold execCoreDone; repeat' first | with_reducible rfl | assumption | apply onTile_keeps | intro _ | (simp; done) | split | (simp_all; done) | simp only [Keeps_ok, lasting_ite]
theorem execXtProbe_keeps {l_ : Lasting} (t c : Nat) (s : State) (hf_ : s.lasting = l_) : Keeps l_ (execXtProbe t c s) := by
  subst hf_; unfold execXtProbe; repeat' first | with_reducible rfl | assumption | apply atXt_keeps | intro _ | (simp; done) | split | (simp_all; done) | simp only [Keeps_ok, lasting_ite]
theorem execXtEnq_keeps {l_ : Lasting} (t c : Nat) (s : State) (hf_ : s.lasting = l_) : Keeps l_ (execXtEnq t c s) := by
  subst hf_; unfold execXtEnq; repeat' first | with_reducible rfl | assumption | apply atXt_keeps | intro _ | (simp; done) | split | (simp_all; done) | simp only [Keeps_ok, lasting_ite]
@[simp] theorem counterOp_keeps {l_ : Lasting} (s : State) (t c w : Nat) (old : Ctr → W32) (f : Ctr → W32 → Ctr) (hf_ : s.lasting = l_) : Keeps l_ (counterOp s t c w old f) := by
  subst hf_; unfold counterOp; simp
theorem execXtCset_keeps {l_ : Lasting} (t c : Nat) (s : State) (hf_ : s.lasting = l_) : Keeps l_ (execXtCset t c s) := by subst hf_; unfold execXtCset; apply atXt_keeps; intros; simp [*]
theorem execXtCadd_keeps {l_ : Lasting} (t c : Nat) (s : State) (hf_ : s.lasting = l_) : Keeps l_ (execXtCadd t c s) := by subst hf_; unfold execXtCadd; apply atXt_keeps; intros; simp [*]
theorem execXtCarm_keeps {l_ : Lasting} (t c : Nat) (s : State) (hf_ : s.lasting = l_) : Keeps l_ (execXtCarm t c s) := by subst hf_; unfold execXtCarm; apply atXt_keeps; intros; simp [*]
theorem execXtCwait_keeps {l_ : Lasting} (t c : Nat) (s : State) (hf_ : s.lasting = l_) : Keeps l_ (execXtCwait t c s) := by subst hf_; unfold execXtCwait; apply atXt_keeps; intros; simp [*]
theorem execCwaitResume_keeps {l_ : Lasting} (t c : Nat) (s : State) (hf_ : s.lasting = l_) : Keeps l_ (execCwaitResume t c s) := by
  subst hf_; unfold execCwaitResume; repeat' first | with_reducible rfl | assumption | apply onTile_keeps | intro _ | (simp; done) | split | (simp_all; done) | simp only [Keeps_ok, lasting_ite]
@[simp] theorem State.takeEvt_lasting (s : State) (t c : Nat) (e : ProgEvt) : (State.takeEvt s t c e).lasting = s.lasting := by simp [State.takeEvt]
@[simp] theorem State.acceptEvt_lasting (s : State) (t c : Nat) : (State.acceptEvt s t c).lasting = s.lasting := by unfold State.acceptEvt; split <;> simp
theorem execXtEvt_keeps {l_ : Lasting} (t : Nat) (x : EvtOffer) (s : State) (hf_ : s.lasting = l_) : Keeps l_ (execXtEvt t x s) := by subst hf_; unfold execXtEvt; apply atXt_keeps; intros; simp [*]
theorem execLaunchStart_keeps {l_ : Lasting} (i : Nat) (s : State) (hf_ : s.lasting = l_) : Keeps l_ (execLaunchStart i s) := by subst hf_; unfold execLaunchStart; (repeat' split) <;> simp
theorem execLoadTileStart_keeps {l_ : Lasting} (i : Nat) (s : State) (hf_ : s.lasting = l_) : Keeps l_ (execLoadTileStart i s) := by subst hf_; unfold execLoadTileStart; (repeat' split) <;> simp
theorem execLoadEnd_keeps {l_ : Lasting} (t : Nat) (s : State) (hf_ : s.lasting = l_) : Keeps l_ (execLoadEnd t s) := by subst hf_; unfold execLoadEnd; apply onTile_keeps; intros; (repeat' split) <;> simp [*]

/-! ### Engine -/

@[simp] theorem State.engEvent_lasting (s : State) (code t : Nat) (c : EngCmd) : (State.engEvent s code t c).lasting = s.lasting := by simp [State.engEvent]
@[simp] theorem State.engHalt_lasting (s : State) (t : Nat) (u : EngUnit) (c : EngCmd) (k : EngCause) : (State.engHalt s t u c k).lasting = s.lasting := by simp [State.engHalt]
@[simp] theorem State.engRetried_lasting (s : State) (t : Nat) (c : EngCmd) (k : EngCause) : (State.engRetried s t c k).lasting = s.lasting := by simp [State.engRetried]
@[simp] theorem State.unitReads_lasting (s : State) (t : Nat) (reads : Nat → Bool) : (State.unitReads s t reads).lasting = s.lasting := by simp [State.unitReads]
@[simp] theorem State.badCmd_lasting (s : State) (t : Nat) (u : EngUnit) (c : EngCmd) (hw : EngHw) (path : Option Bool) : (State.badCmd s t u c hw path).lasting = s.lasting := Eq.symm rfl
theorem execLoadw_keeps {l_ : Lasting} (t : Nat) (hw : EngHw) (s : State) (hf_ : s.lasting = l_) : Keeps l_ (execLoadw t hw s) := by subst hf_; unfold execLoadw; apply onTile_keeps; intros; (repeat' split) <;> simp [*]
@[simp] theorem State.badMma_lasting (s : State) (t : Nat) (c : EngCmd) (hw : EngHw) : (State.badMma s t c hw).lasting = s.lasting := Eq.symm rfl
theorem execMma_keeps {l_ : Lasting} (t : Nat) (hw : EngHw) (s : State) (hf_ : s.lasting = l_) : Keeps l_ (execMma t hw s) := by subst hf_; unfold execMma; apply onTile_keeps; intros; (repeat' split) <;> simp [*]
theorem execStore_keeps {l_ : Lasting} (t : Nat) (hw : EngHw) (s : State) (hf_ : s.lasting = l_) : Keeps l_ (execStore t hw s) := by subst hf_; unfold execStore; apply onTile_keeps; intros; (repeat' split) <;> simp [*]
theorem execZero_keeps {l_ : Lasting} (t : Nat) (hw : EngHw) (s : State) (hf_ : s.lasting = l_) : Keeps l_ (execZero t hw s) := by subst hf_; unfold execZero; apply onTile_keeps; intros; (repeat' split) <;> simp [*]
theorem execNop_keeps {l_ : Lasting} (t : Nat) (s : State) (hf_ : s.lasting = l_) : Keeps l_ (execNop t s) := by subst hf_; unfold execNop; apply onTile_keeps; intros; (repeat' split) <;> simp [*]
@[simp] theorem State.engRetires_lasting (s : State) (t : Nat) (u : EngUnit) (r : Running) (fate : Fare) (m : Mem) : (State.engRetires s t u r fate m).lasting = s.lasting := by simp [State.engRetires]
@[simp] theorem State.engLost_lasting (s : State) (t : Nat) (u : EngUnit) : (State.engLost s t u).lasting = s.lasting := Eq.symm rfl
theorem execEngineRetire_keeps {l_ : Lasting} (t : Nat) (u : EngUnit) (s : State) (hf_ : s.lasting = l_) : Keeps l_ (execEngineRetire t u s) := by
  subst hf_; unfold execEngineRetire; repeat' first | with_reducible rfl | assumption | apply onTile_keeps | intro _ | (simp; done) | split | (simp_all; done) | simp only [Keeps_ok, lasting_ite]
theorem execEngCtrlClear_keeps {l_ : Lasting} (t : Nat) (s : State) (hf_ : s.lasting = l_) : Keeps l_ (execEngCtrlClear t s) := by subst hf_; unfold execEngCtrlClear; apply onTile_keeps; intros; simp [*]

/-! ### Thermal -/

@[simp] theorem State.heatBank_lasting (s : State) (p t : Nat) : (State.heatBank s p t).lasting = s.lasting := by simp [State.heatBank]
@[simp] theorem State.tempActs_keeps {l_ : Lasting} (s : State) (site : Nat) (st : SiteSt) (r : TempReading) (t te : Nat) (hf_ : s.lasting = l_) : Keeps l_ (State.tempActs s site st r t te) := by subst hf_; simp [State.tempActs]
theorem execTempSample_keeps {l_ : Lasting} (site : Nat) (r : TempReading) (s : State) (hf_ : s.lasting = l_) : Keeps l_ (execTempSample site r s) := by
  subst hf_; unfold execTempSample; refine onSite_keeps fun x => when_keeps rfl ?_
  extract_lets a b c d e g i j k l m n
  have hn : n.lasting = s.lasting := by simp [n, m]
  clear_value n d k
  cases d with
  | none => exact State.tempActs_keeps _ _ _ _ _ _ hn
  | some d => exact State.tempActs_keeps _ _ _ _ _ _ (by rw [lasting_ite, State.raiseSite_lasting, ite_self]; exact hn)
@[simp] theorem State.throttle_lasting (s : State) (p : Nat) : (State.throttle s p).lasting = s.lasting := by simp [State.throttle]
@[simp] theorem State.unthrottle_lasting (s : State) (p : Nat) : (State.unthrottle s p).lasting = s.lasting := by simp [State.unthrottle]
theorem execThermalTurn_keeps {l_ : Lasting} (s : State) (hf_ : s.lasting = l_) : Keeps l_ (execThermalTurn s) := by
  subst hf_; unfold execThermalTurn; repeat' first | with_reducible rfl | assumption | intro _ | (simp; done) | split | (simp_all; done) | simp only [Keeps_ok, lasting_ite]
theorem execThmUnbank_keeps {l_ : Lasting} (site : Nat) (s : State) (hf_ : s.lasting = l_) : Keeps l_ (execThmUnbank site s) := by subst hf_; unfold execThmUnbank; apply onSite_keeps; intros; simp [*]
theorem execThmOn_keeps {l_ : Lasting} (site : Nat) (s : State) (hf_ : s.lasting = l_) : Keeps l_ (execThmOn site s) := by subst hf_; unfold execThmOn; apply onSite_keeps; intros; simp [*]

/-! ### The rest -/

@[simp] theorem State.casFlit_lasting (s : State) (n : Nat) (x : CwSlot) : (s.casFlit n x).lasting = s.lasting := by
  unfold State.casFlit; split
  · rfl
  · dsimp only; (repeat' split) <;> simp
theorem execCascadeCodeword_keeps {l_ : Lasting} (n : Nat) (cw : Codeword) (s : State) (hf_ : s.lasting = l_) : Keeps l_ (execCascadeCodeword n cw s) := by
  subst hf_; unfold execCascadeCodeword; refine onCas_keeps fun x => when_keeps rfl ?_; split
  · simp
  · extract_lets a b
    have ha : a.lasting = s.lasting := by simp [a]
    have hb : b.lasting = s.lasting := by
      simp only [b]; split
      · rw [lasting_foldl _ fun u y => State.casFlit_lasting u n y]; simpa using ha
      · exact ha
    rw [Keeps_ok]; split
    · exact (State.casResend_lasting _ _).trans hb
    · exact hb
@[simp] theorem execRvInstruction_keeps {l_ : Lasting} (t c : Nat) (mismatch : Bool) (s : State) (hf_ : s.lasting = l_) :
    Keeps l_ (execRvInstruction t c mismatch s) := by
  subst hf_; unfold execRvInstruction; refine onTile_keeps fun T => ?_; (repeat' split) <;> simp
theorem State.tickTime_lasting (s : State) : s.tickTime.lasting = s.lasting := by
  unfold State.tickTime; dsimp only; simp
theorem State.tick_lasting (s : State) : s.tick.lasting = s.lasting := by
  unfold State.tick; split
  · simp [State.tickTime_lasting, State.bootTick_lasting]
  · rfl

/-! ### Fuses and seal only grow -/

/-- What every command keeps: the queue, a fused owner key hash, the minimum SVN as a lower bound, and a broken seal. -/
structure Grows (s : State) (o : Out) : Prop where
  holds : ∀ t, o = .next t → t.pending = s.pending ∧ Safety.FusesKept s t ∧ Safety.SealKept s t

theorem Lasting_grows {s t : State} (h : t.lasting = s.lasting) : t.pending = s.pending ∧ Safety.FusesKept s t ∧ Safety.SealKept s t := by
  simp only [State.lasting, Prod.mk.injEq] at h
  obtain ⟨h1, h2, h3, h4⟩ := h
  exact ⟨h1, ⟨fun k hk => h2 ▸ hk, h3 ▸ Nat.le_refl _⟩, fun hk => h4 ▸ hk⟩
theorem Keeps.grows {s : State} {o : Out} (h : Keeps s.lasting o) : Grows s o := ⟨fun t e => Lasting_grows (h.holds t e)⟩
theorem Grows_from {s u : State} {o : Out} (hu : u.lasting = s.lasting) (h : Grows u o) : Grows s o :=
  ⟨fun t e => by
    obtain ⟨a, ⟨b, c⟩, d⟩ := h.holds t e
    simp only [State.lasting, Prod.mk.injEq] at hu
    obtain ⟨h1, h2, h3, h4⟩ := hu
    exact ⟨a.trans h1, ⟨fun k hk => b k (h2.trans hk), h3 ▸ c⟩, fun hk => d (h4.trans hk)⟩⟩
theorem Grows_andThen {s : State} {o : Out} {k : State → Out} (ho : Grows s o) (hk : ∀ t, Grows t (k t)) : Grows s (andThen o k) := by
  refine ⟨fun u e => ?_⟩
  unfold andThen at e
  cases o with
  | next t =>
    obtain ⟨a, ⟨b, c⟩, d⟩ := ho.holds t rfl
    obtain ⟨a', ⟨b', c'⟩, d'⟩ := (hk t).holds u e
    exact ⟨a'.trans a, ⟨fun k hk => b' k (b k hk), Nat.le_trans c c'⟩, fun hk => d' (d hk)⟩
  | fault r => cases e
  | refused r => cases e
theorem Grows_ok {s v t : State} (h : t.lasting = v.lasting) (hp : v.pending = s.pending) (ho : ∀ x, s.ses.owner = some x → v.ses.owner = some x)
    (hn : s.ses.svnMin ≤ v.ses.svnMin) (hm : s.mtr.sealBit = true → v.mtr.sealBit = true) : Grows s (ok t) :=
  ⟨fun u e => by
    injection e with e
    subst e
    obtain ⟨h1, ⟨h2, h3⟩, h4⟩ := Lasting_grows h
    exact ⟨h1.trans hp, ⟨fun k hk => h2 k (ho k hk), Nat.le_trans hn h3⟩, fun hk => h4 (hm hk)⟩⟩
theorem Grows_ite {s : State} {c : Prop} [Decidable c] {a b : Out} (ha : Grows s a) (hb : Grows s b) : Grows s (if c then a else b) := by
  split <;> assumption
theorem Grows_when {s u : State} {c : Bool} {a : Out} (hu : u.lasting = s.lasting) (ha : Grows s a) : Grows s (when_ c u a) := by
  unfold when_; split
  · exact ha
  · exact Keeps.grows (by simpa using hu)
theorem execMtrSeal_grows (s : State) : Grows s (execMtrSeal s) := by
  unfold execMtrSeal when_; split
  · exact ⟨fun t e => by cases e; exact ⟨rfl, ⟨fun _ h => h, Nat.le_refl _⟩, fun _ => rfl⟩⟩
  · exact ⟨fun t e => by cases e; exact Lasting_grows rfl⟩
theorem execMeterRecord_grows (m : MeterMeas) (s : State) : Grows s (execMeterRecord m s) := by
  unfold execMeterRecord when_; split
  · exact ⟨fun t e => by cases e; exact ⟨rfl, ⟨fun _ h => h, Nat.le_refl _⟩, fun h => by simp [State.modMtr, h]⟩⟩
  · exact ⟨fun t e => by cases e; exact Lasting_grows rfl⟩
theorem execCommitFuse_grows (port : Nat) (s : State) : Grows s (execCommitFuse port s) := by
  unfold execCommitFuse sesGated sesCmd onPort when_
  split
  · split
    · split
      · beta_reduce; split
        · rename_i k hash t _
          dsimp only
          split
          · exact Keeps.grows (by simp)
          · rename_i hc
            refine Grows_ok (v := ((s.modPort port _).modSes _)) ((State.raisePanel_lasting ..).trans (State.sesEnd_lasting ..)) rfl (fun x hx => ?_) ?_ (fun h => h)
            · by_cases hk : k = 1
              · simp [hk, hx] at hc
              · change (ite (k = 1) _ _ : Ses).owner = some x
                rw [if_neg hk]; exact hx
            · change _ ≤ (ite (k = 1) _ _ : Ses).svnMin
              split
              · exact Nat.le_refl _
              · exact Nat.le_max_left _ _
        · exact Keeps.grows (by simp)
      · exact Keeps.grows (by simp)
    · exact Keeps.grows (by simp)
  · exact Keeps.grows (by simp)

@[simp] theorem spiSet_keeps {l_ : Lasting} (s : State) (port off : Nat) (free : Bool) (g : Spi → Spi) (hf_ : s.lasting = l_) : Keeps l_ (spiSet s port off free g) := by
  subst hf_; unfold spiSet when_; (repeat' split) <;> simp
theorem gated0_grows {port off : Nat} {k : Out} (h : Grows s k) : Grows s (gated0 s port off k) := by
  unfold gated0 gated; (repeat' split) <;> first | exact h | exact Keeps.grows (by simp)
theorem gated_grows {port off : Nat} {k : Out} (h : Grows s k) : Grows s (gated s port off k) := by
  unfold gated; (repeat' split) <;> first | exact h | exact Keeps.grows (by simp)
@[simp] theorem ok_grows {s t : State} (h : t.lasting = s.lasting) : Grows s (ok t) := Keeps.grows (by simpa using h)

/-! ### REGISTER_WRITE -/

theorem writeId_grows (s : State) (port off : Nat) (v : W32) : Grows s (writeId s port off v) := by
  unfold writeId; exact Grows_when rfl (ok_grows (by simp))
theorem plain_grows (s : State) (port : Nat) (g : State → State) (h : (g s).lasting = s.lasting) : Grows s (plain s port g) := by
  unfold plain; exact Grows_when rfl (ok_grows h)
theorem writeSes_grows (s : State) (port off : Nat) (v : W32) : Grows s (writeSes s port off v) := by
  unfold writeSes; dsimp only
  repeat' with_reducible apply Grows_ite
  · exact (execChallenge_keeps port s rfl).grows
  · exact (execSesOpen_keeps port s rfl).grows
  · exact (execSesClose_keeps port s rfl).grows
  · exact (execAttest_keeps port s rfl).grows
  · exact (execPubkey_keeps port s rfl).grows
  · exact (execArmOwner_keeps port s rfl).grows
  · exact (execArmSvn_keeps port s rfl).grows
  · exact execCommitFuse_grows port s
  · exact ok_grows rfl
  all_goals first | exact plain_grows _ _ _ (by simp) | exact ok_grows rfl
theorem writePart_grows (s : State) (port p r : Nat) (v : W32) : Grows s (writePart s port p r v) := by
  unfold writePart; dsimp only
  repeat' with_reducible apply Grows_ite
  all_goals first
    | exact gated0_grows (ok_grows (by simp))
    | with_reducible exact (execDefine_keeps port p s rfl).grows | with_reducible exact (execDelete_keeps port p s rfl).grows | with_reducible exact (execWarmReset_keeps port p s rfl).grows
    | with_reducible exact (execPrtUpdate_keeps port p s rfl).grows | exact ok_grows rfl
theorem writeWin_grows (s : State) (port w r : Nat) (v : W32) : Grows s (writeWin s port w r v) := by
  unfold writeWin
  refine gated0_grows (Keeps.grows ?_); rw [Keeps_ok]; split <;> first | rfl | simp
theorem writeDdr_grows (s : State) (port p r : Nat) (v : W32) : Grows s (writeDdr s port p r v) := by
  unfold writeDdr; dsimp only
  repeat' with_reducible apply Grows_ite
  all_goals first
    | exact gated0_grows (ok_grows (by simp)) | with_reducible exact (execDdrRegionCommit_keeps port p s rfl).grows | exact ok_grows rfl
theorem writePrt_grows (s : State) (port off : Nat) (v : W32) : Grows s (writePrt s port off v) := by
  unfold writePrt
  exact Grows_ite (writePart_grows ..) (Grows_ite (writeWin_grows ..) (Grows_ite (writeDdr_grows ..) (Grows_ite (execPrtBevWrite_keeps _ _ _ s rfl).grows (ok_grows rfl))))
theorem writeCtx_grows (s : State) (port off : Nat) (v : W32) : Grows s (writeCtx s port off v) := by
  unfold writeCtx; dsimp only
  repeat' with_reducible apply Grows_ite
  all_goals first
    | exact gated_grows (ok_grows (by simp)) | with_reducible exact (execCtxSel_keeps port v s rfl).grows | with_reducible exact (execConfigure_keeps port s rfl).grows
    | with_reducible exact (execRelease_keeps port s rfl).grows | with_reducible exact (execRestart_keeps port _ _ s rfl).grows | with_reducible exact (execHalt_keeps port s rfl).grows | exact ok_grows rfl
theorem writeMsi_grows (s : State) (port off : Nat) (v : W32) : Grows s (writeMsi s port off v) := by
  unfold writeMsi; dsimp only
  repeat' with_reducible apply Grows_ite
  all_goals first | exact plain_grows _ _ _ (by simp) | with_reducible exact (execMsixUnmask_keeps port _ v s rfl).grows
theorem writePwr_grows (s : State) (port off : Nat) (v : W32) : Grows s (writePwr s port off v) := by
  unfold writePwr; dsimp only
  repeat' with_reducible apply Grows_ite
  all_goals first
    | with_reducible exact (execPwrCap_keeps port v s rfl).grows | exact gated0_grows (ok_grows (by split <;> simp)) | with_reducible exact (execPaceLock_keeps port _ v s rfl).grows
    | with_reducible exact (execClearProfiles_keeps port _ s rfl).grows | exact gated0_grows (ok_grows rfl) | exact plain_grows _ _ _ (by simp)
    | with_reducible exact (execClearPath_keeps port s rfl).grows | with_reducible exact (execIsolate_keeps port s rfl).grows | with_reducible exact (execRestore_keeps port s rfl).grows | exact ok_grows rfl
theorem writeClk_grows (s : State) (port off : Nat) (v : W32) : Grows s (writeClk s port off v) := by
  unfold writeClk; dsimp only
  repeat' with_reducible apply Grows_ite
  all_goals first
    | with_reducible exact (execClkCeil_keeps port _ v s rfl).grows | exact gated0_grows (ok_grows (by simp)) | with_reducible exact (execBank_keeps port v s rfl).grows
    | with_reducible exact (execUnbank_keeps port v s rfl).grows | exact ok_grows rfl
theorem writeTel_grows (s : State) (port off : Nat) (v : W32) : Grows s (writeTel s port off v) := by
  unfold writeTel; dsimp only
  repeat' with_reducible apply Grows_ite
  all_goals first
    | with_reducible exact (execTelCfg_keeps port v s rfl).grows | with_reducible exact (execTelHead_keeps port v s rfl).grows | exact gated0_grows (ok_grows (by simp)) | exact ok_grows rfl
theorem writeEvt_grows (s : State) (port off : Nat) (v : W32) : Grows s (writeEvt s port off v) := by
  unfold writeEvt; dsimp only
  repeat' with_reducible apply Grows_ite
  all_goals first
    | with_reducible exact (execEvtCfg_keeps port v s rfl).grows | with_reducible exact (execEvtHead_keeps port v s rfl).grows | exact gated0_grows (ok_grows (by simp))
    | exact gated_grows (ok_grows (by simp)) | exact ok_grows rfl
theorem writeMtr_grows (s : State) (port off : Nat) (v : W32) : Grows s (writeMtr s port off v) := by
  unfold writeMtr
  repeat' with_reducible apply Grows_ite
  all_goals first
    | with_reducible exact (execMtrSelect_keeps port v s rfl).grows | exact plain_grows _ _ _ (by simp) | exact gated0_grows (ok_grows (by simp))
    | with_reducible exact (execMtrRcfg_keeps port v s rfl).grows | with_reducible exact (execMtrRhead_keeps port v s rfl).grows | exact ok_grows rfl
theorem writeCas_grows (s : State) (port off : Nat) (v : W32) : Grows s (writeCas s port off v) := by
  unfold writeCas; dsimp only
  have hs : (if (s.rick.busy || !s.svRuns) = true then s else s.modRick fun r => { r with context := bitsOf v 27 16 }).lasting = s.lasting := by split <;> simp
  repeat' with_reducible apply Grows_ite
  all_goals first
    | with_reducible exact (execRrestart_keeps port v s rfl).grows
    | exact gated0_grows (Grows_ite (Grows_from hs (execPublish_keeps port _ rfl).grows) (ok_grows hs))
    | with_reducible exact (execCasPcfg_keeps port _ v s rfl).grows | exact gated0_grows (ok_grows rfl) | exact ok_grows rfl
theorem writeSpi_grows (s : State) (port off : Nat) (v : W32) : Grows s (writeSpi s port off v) := by
  unfold writeSpi; dsimp only
  repeat' with_reducible apply Grows_ite
  all_goals first
    | with_reducible exact (spiSet_keeps s port off _ _ rfl).grows | with_reducible exact (execUpdate_keeps port s rfl).grows | with_reducible exact (execSettingsCommit_keeps port s rfl).grows
    | exact Grows_from (by simp) (execPanelReset_keeps port _ (s.spendN 2) rfl).grows | exact ok_grows rfl
theorem writeHltCmd_grows (s : State) (port : Nat) (v : W32) : Grows s (writeHltCmd s port v) := by
  unfold writeHltCmd; dsimp only
  repeat' with_reducible apply Grows_ite
  · exact (execRemap_keeps port v s rfl).grows
  · exact (execRetire_keeps port v s rfl).grows
  · exact (execKeep_keeps port v s rfl).grows
  · exact (execHole_keeps port v s rfl).grows
  · exact (execClear_keeps port v s rfl).grows
  · exact (execTreset_keeps port v s rfl).grows
  · exact (execSreset_keeps port v s rfl).grows
  · exact Grows_from (by split <;> simp) (execRepublish_keeps port _ rfl).grows
  · exact gated0_grows (ok_grows (by simp))
theorem writeHlt_grows (s : State) (port off : Nat) (v : W32) : Grows s (writeHlt s port off v) := by
  unfold writeHlt; dsimp only
  repeat' with_reducible apply Grows_ite
  all_goals first
    | exact plain_grows _ _ _ (by simp) | exact writeHltCmd_grows s port v | exact gated0_grows (ok_grows (by simp)) | with_reducible exact (execSweepGrant_keeps port v s rfl).grows
    | with_reducible exact (execSvReset_keeps port v s rfl).grows | with_reducible exact (execHltSclr_keeps port v s rfl).grows | with_reducible exact (execHltEclr_keeps port v s rfl).grows
    | with_reducible exact (execHltLsel_keeps port v s rfl).grows | with_reducible exact (execHltDbclr_keeps port v s rfl).grows | exact ok_grows rfl
theorem writeDbg_grows (s : State) (port off : Nat) (v : W32) : Grows s (writeDbg s port off v) := by
  unfold writeDbg; dsimp only
  repeat' with_reducible apply Grows_ite
  all_goals first
    | with_reducible exact (execDbgLock_keeps port v s rfl).grows | with_reducible exact (dbgSet_keeps s port off _ rfl).grows | with_reducible exact (execDbgRead_keeps port s rfl).grows
    | with_reducible exact (execDbgWrite_keeps port s rfl).grows | exact gated0_grows (ok_grows rfl) | with_reducible exact (execDbgTest_keeps port v s rfl).grows | exact ok_grows rfl
theorem write32_grows (s : State) (port off : Nat) (v : W32) : Grows s (write32 s port off v) := by
  unfold write32
  refine Grows_ite (ok_grows rfl) (Grows_ite (writeId_grows ..) (Grows_ite (writeSes_grows ..) (Grows_ite (writePrt_grows ..) (Grows_ite (writeCtx_grows ..)
    (Grows_ite (writeMsi_grows ..) (Grows_ite (writePwr_grows ..) (Grows_ite (writeClk_grows ..) (Grows_ite (writeTel_grows ..) (Grows_ite (writeEvt_grows ..)
    (Grows_ite (writeMtr_grows ..) (Grows_ite (writeCas_grows ..) (Grows_ite (writeSpi_grows ..) (Grows_ite (writeHlt_grows ..) (Grows_ite (writeDbg_grows ..)
    (ok_grows rfl)))))))))))))))
theorem writeBar0_grows (s : State) (port off width : Nat) (v : W64) : Grows s (writeBar0 s port off width v) := by
  unfold writeBar0
  exact Grows_ite (Keeps.grows (by simp)) (Grows_ite (Grows_andThen (write32_grows ..) fun t => write32_grows ..) (Grows_ite (write32_grows ..) (ok_grows rfl)))
theorem writeBar2_grows (s : State) (port off width : Nat) (v : W64) : Grows s (writeBar2 s port off width v) := by
  unfold writeBar2; dsimp only
  exact Grows_ite (Grows_when rfl (ok_grows (by simp))) (Grows_ite (ok_grows rfl) (Grows_ite (execSqTail_keeps port _ _ s rfl).grows
    (Grows_ite (execCqHead_keeps port _ _ s rfl).grows (Grows_ite (Grows_ite (execRestart_keeps port _ _ s rfl).grows (Keeps.grows (doorbell_keeps fun _ => by simp))) (ok_grows rfl)))))
theorem State.sendPending_lasting (s : State) (port : Nat) : (s.sendPending port).lasting = s.lasting := by
  unfold State.sendPending
  rw [lasting_foldl _ (fun u p => by (repeat' split) <;> simp)]
theorem writeCfg_grows (s : State) (port off : Nat) (v : W32) : Grows s (writeCfg s port off v) := by
  unfold writeCfg; dsimp only; refine Grows_when rfl ?_
  repeat' with_reducible apply Grows_ite
  · exact Grows_from (by simp) (execFunctionLevelReset_keeps port _ rfl).grows
  all_goals exact ok_grows (by simp [State.sendPending_lasting])
theorem execRegisterWrite_grows (port bar off width : Nat) (v : W64) (s : State) : Grows s (execRegisterWrite port bar off width v s) := by
  unfold execRegisterWrite
  exact Grows_ite (ok_grows rfl) (Grows_ite (Grows_ite (writeBar0_grows ..) (ok_grows rfl)) (Grows_ite (Grows_ite (writeBar2_grows ..) (ok_grows rfl)) (Grows_ite (writeCfg_grows ..) (ok_grows rfl))))


end Sys2Proof.Machine
end

