-- ==== Sys2Proof/Laws/Table.lean ====
section
/-! SUPPORT. The laws of sparse tables and memories: reading after a write, and the canonical form that every write keeps. -/

namespace Sys2Proof.Machine

@[simp] theorem tget_nil {α : Type} (d : α) (k : Nat) : tget d [] k = d := rfl

theorem tget_tins {α : Type} (d : α) (k j : Nat) (v : α) : ∀ m : Tbl α, tget d (tins m k v) j = if j = k then v else tget d m j
  | [] => by simp [tins, tget]
  | (k', v') :: r => by
    unfold tins
    split
    · rename_i h; subst h; simp only [tget]; split <;> rfl
    · split
      · simp only [tget]
      · simp only [tget, tget_tins d k j v r]
        rename_i h _
        by_cases hj : j = k'
        · subst hj; simp; intro h'; exact absurd h'.symm h
        · simp [hj]

theorem tget_tdel {α : Type} (d : α) (k j : Nat) : ∀ m : Tbl α, tget d (tdel m k) j = if j = k then d else tget d m j
  | [] => by simp [tdel, tget]
  | (k', v') :: r => by
    unfold tdel
    split
    · rename_i h; subst h; rw [tget_tdel d k j r]; simp only [tget]; split <;> rfl
    · simp only [tget, tget_tdel d k j r]
      rename_i h
      by_cases hj : j = k'
      · subst hj; simp; intro h'; exact absurd h'.symm h
      · simp [hj]

/-- Reading a table after a write, at any key. -/
@[simp] theorem tget_tput {α : Type} [DecidableEq α] (d : α) (m : Tbl α) (k j : Nat) (v : α) : tget d (tput d m k v) j = if j = k then v else tget d m j := by
  unfold tput; split
  · rename_i h; rw [tget_tdel, h]
  · exact tget_tins d k j v m
@[simp] theorem tget_tmod {α : Type} [DecidableEq α] (d : α) (m : Tbl α) (k j : Nat) (f : α → α) :
    tget d (tmod d m k f) j = if j = k then f (tget d m k) else tget d m j := tget_tput ..
theorem tget_tput_self {α : Type} [DecidableEq α] (d : α) (m : Tbl α) (k : Nat) (v : α) : tget d (tput d m k v) k = v := by simp
theorem tget_tput_other {α : Type} [DecidableEq α] (d : α) (m : Tbl α) {k j : Nat} (v : α) (h : j ≠ k) : tget d (tput d m k v) j = tget d m j := by simp [h]

theorem tWfFrom_mono {α : Type} [DecidableEq α] (d : α) {lo lo' : Nat} (h : lo' ≤ lo) : ∀ m : Tbl α, tWfFrom d lo m = true → tWfFrom d lo' m = true
  | [], _ => rfl
  | (k, v) :: m, hm => by simp only [tWfFrom, Bool.and_eq_true, decide_eq_true_eq] at hm ⊢; exact ⟨⟨Nat.le_trans h hm.1.1, hm.1.2⟩, hm.2⟩

theorem tWfFrom_tins {α : Type} [DecidableEq α] (d : α) {k : Nat} {v : α} (hv : v ≠ d) :
    ∀ (m : Tbl α) (lo : Nat), lo ≤ k → tWfFrom d lo m = true → tWfFrom d lo (tins m k v) = true
  | [], lo, hl, _ => by simp [tins, tWfFrom, hl, hv]
  | (k', v') :: r, lo, hl, hm => by
    simp only [tWfFrom, Bool.and_eq_true, decide_eq_true_eq] at hm
    unfold tins
    split
    · rename_i h; subst h; simp [tWfFrom, hl, hv, hm.2]
    · split
      · rename_i h; simp [tWfFrom, hl, hv, hm.1.2, hm.2]; omega
      · rename_i h h'
        simp only [tWfFrom, Bool.and_eq_true, decide_eq_true_eq]
        exact ⟨hm.1, tWfFrom_tins d hv r (k' + 1) (by omega) hm.2⟩

theorem tWfFrom_tdel {α : Type} [DecidableEq α] (d : α) (k : Nat) :
    ∀ (m : Tbl α) (lo : Nat), tWfFrom d lo m = true → tWfFrom d lo (tdel m k) = true
  | [], _, _ => rfl
  | (k', v') :: r, lo, hm => by
    simp only [tWfFrom, Bool.and_eq_true, decide_eq_true_eq] at hm
    have h := tWfFrom_tdel d k r (k' + 1) hm.2
    unfold tdel
    split
    · exact tWfFrom_mono d (by omega) _ h
    · simp only [tWfFrom, Bool.and_eq_true, decide_eq_true_eq]; exact ⟨hm.1, h⟩

/-- A write keeps the canonical form. -/
theorem tWf_tput {α : Type} [DecidableEq α] {d : α} {m : Tbl α} (k : Nat) (v : α) (h : tWf d m = true) : tWf d (tput d m k v) = true := by
  unfold tput tWf; split
  · exact tWfFrom_tdel d k m 0 h
  · rename_i hv; exact tWfFrom_tins d hv m 0 (Nat.zero_le _) h
theorem tWf_tmod {α : Type} [DecidableEq α] {d : α} {m : Tbl α} (k : Nat) (f : α → α) (h : tWf d m = true) : tWf d (tmod d m k f) = true := tWf_tput k _ h

theorem tget_tmap {α : Type} [DecidableEq α] (d : α) (f : α → α) (hd : f d = d) (k : Nat) : ∀ m : Tbl α, (m.map Prod.fst).Nodup → tget d (tmap d f m) k = f (tget d m k)
  | [], _ => hd.symm
  | (k', v) :: m, h => by
    have hn : k' ∉ m.map Prod.fst ∧ (m.map Prod.fst).Nodup := by simpa using h
    have ih := tget_tmap d f hd k m hn.2
    have hk : k = k' → tget d m k = d := by
      intro e; subst e
      have : ∀ l : Tbl α, k ∉ l.map Prod.fst → tget d l k = d := fun l => by
        induction l with
        | nil => intro _; rfl
        | cons x l ihl =>
          intro hx
          obtain ⟨a, b⟩ := x
          simp only [List.map_cons, List.mem_cons, not_or] at hx
          simp only [tget, if_neg hx.1, ihl hx.2]
      exact this m hn.1
    unfold tmap; split
    · rename_i hv
      rw [ih]; simp only [tget]; split
      · rename_i e; rw [hk e, hd, hv]
      · rfl
    · simp only [tget, ih]; split <;> rfl
theorem tWfFrom_tmap {α : Type} [DecidableEq α] (d : α) (f : α → α) : ∀ (m : Tbl α) (lo : Nat), tWfFrom d lo m = true → tWfFrom d lo (tmap d f m) = true
  | [], _, _ => rfl
  | (k, v) :: m, lo, h => by
    simp only [tWfFrom, Bool.and_eq_true, decide_eq_true_eq] at h
    have ih := tWfFrom_tmap d f m (k + 1) h.2
    unfold tmap; split
    · exact tWfFrom_mono d (by omega) _ ih
    · rename_i hv; simp [tWfFrom, h.1.1, hv, ih]

/-! ### Memories -/

@[simp] theorem memGet_memPut (m : Mem) (a j : Nat) (b : Byte) : memGet (memPut m a b) j = if j = a then b else memGet m j := tget_tput ..
theorem Memory_wf_memPut {m : Mem} (a : Nat) (b : Byte) (h : Memory.wf m = true) : Memory.wf (memPut m a b) = true := tWf_tput a b h
theorem Memory_wf_memPutList : ∀ (bs : List Byte) {m : Mem} (a : Nat), Memory.wf m = true → Memory.wf (memPutList m a bs) = true
  | [], _, _, h => h
  | b :: bs, _, a, h => Memory_wf_memPutList bs (a + 1) (Memory_wf_memPut a b h)
theorem Memory_wf_memPutWord {m : Mem} (a n v : Nat) (h : Memory.wf m = true) : Memory.wf (memPutWord m a n v) = true := Memory_wf_memPutList _ a h

/-- A write of consecutive bytes leaves every other byte alone. -/
theorem memGet_memPutList_other : ∀ (bs : List Byte) (m : Mem) (a j : Nat), j < a ∨ a + bs.length ≤ j → memGet (memPutList m a bs) j = memGet m j
  | [], _, _, _, _ => rfl
  | b :: bs, m, a, j, h => by
    simp only [List.length_cons] at h
    unfold memPutList
    rw [memGet_memPutList_other bs _ (a + 1) j (by omega), memGet_memPut, if_neg (by omega)]
/-- A byte written reads back. -/
theorem memGet_memPutList : ∀ (bs : List Byte) (m : Mem) (a i : Nat), i < bs.length → memGet (memPutList m a bs) (a + i) = lget 0 bs i
  | b :: bs, m, a, 0, _ => by
    unfold memPutList
    show memGet (memPutList (memPut m a b) (a + 1) bs) a = b
    rw [memGet_memPutList_other bs _ (a + 1) a (by omega)]; simp
  | b :: bs, m, a, i + 1, h => by
    simp only [List.length_cons] at h
    unfold memPutList
    rw [show a + (i + 1) = a + 1 + i by omega, memGet_memPutList bs _ (a + 1) i (by omega)]; rfl
/-- A run of bytes written reads back whole. -/
theorem memGetList_memPutList (bs : List Byte) (m : Mem) (a : Nat) : memGetList (memPutList m a bs) a bs.length = bs := by
  induction bs generalizing m a with
  | nil => rfl
  | cons b bs ih =>
    simp only [memPutList, List.length_cons, memGetList, ih]
    rw [memGet_memPutList_other bs _ (a + 1) a (by omega)]; simp

@[simp] theorem length_leBytes (n v : Nat) : (leBytes n v).length = n := by
  induction n generalizing v with
  | zero => rfl
  | succ n ih => simp [leBytes, ih]
@[simp] theorem length_memGetList (m : Mem) (a n : Nat) : (memGetList m a n).length = n := by
  induction n generalizing a with
  | zero => rfl
  | succ n ih => simp [memGetList, ih]
theorem leWord_leBytes (n v : Nat) : leWord (leBytes n v) = v % 256 ^ n := by
  induction n generalizing v with
  | zero => simp [leBytes, leWord, Nat.mod_one]
  | succ n ih =>
    have h := Nat.mod_mul (x := v) (a := 256) (b := 256 ^ n)
    rw [leBytes, leWord, ih, BitVec.toNat_ofNat, show 256 ^ (n + 1) = 256 * 256 ^ n by rw [Nat.pow_succ, Nat.mul_comm], h]
/-- A word written reads back, at its width. -/
theorem memWord_memPutWord (m : Mem) (a n v : Nat) : memWord (memPutWord m a n v) a n = v % 256 ^ n := by
  unfold memWord memPutWord
  have h := memGetList_memPutList (leBytes n v) m a
  rw [length_leBytes] at h
  rw [h, leWord_leBytes]

/-! ### Lists with places -/

@[simp] theorem length_lset {α : Type} (l : List α) (k : Nat) (v : α) : (lset l k v).length = l.length := by
  induction l generalizing k with
  | nil => rfl
  | cons x l ih => cases k <;> simp [lset, ih]
theorem lget_lset {α : Type} (d v : α) : ∀ (l : List α) (k j : Nat), k < l.length → lget d (lset l k v) j = if j = k then v else lget d l j
  | x :: l, 0, j, _ => by cases j <;> simp [lset, lget]
  | x :: l, k + 1, j, h => by
    cases j with
    | zero => simp [lset, lget]
    | succ j => simp [lset, lget, lget_lset d v l k j (by simpa using h)]

end Sys2Proof.Machine
end

