-- ==== Sys2Proof/Laws/State.lean ====
section
/-! SUPPORT. What each update of the state leaves alone and what reads after it see: one lemma for each field and each update. -/

namespace Sys2Proof.Machine

variable (s : State)

/-! ### State.setTile -/

@[simp] theorem State.setTile_pending (n : Nat) (x : Tile) : (s.setTile n x).pending = s.pending := rfl
@[simp] theorem State.setTile_time (n : Nat) (x : Tile) : (s.setTile n x).time = s.time := rfl
@[simp] theorem State.setTile_freeN (n : Nat) (x : Tile) : (s.setTile n x).freeN = s.freeN := rfl
@[simp] theorem State.setTile_sites (n : Nat) (x : Tile) : (s.setTile n x).sites = s.sites := rfl
@[simp] theorem State.setTile_fab (n : Nat) (x : Tile) : (s.setTile n x).fab = s.fab := rfl
@[simp] theorem State.setTile_chans (n : Nat) (x : Tile) : (s.setTile n x).chans = s.chans := rfl
@[simp] theorem State.setTile_bev (n : Nat) (x : Tile) : (s.setTile n x).bev = s.bev := rfl
@[simp] theorem State.setTile_bevMode (n : Nat) (x : Tile) : (s.setTile n x).bevMode = s.bevMode := rfl
@[simp] theorem State.setTile_host (n : Nat) (x : Tile) : (s.setTile n x).host = s.host := rfl
@[simp] theorem State.setTile_parts (n : Nat) (x : Tile) : (s.setTile n x).parts = s.parts := rfl
@[simp] theorem State.setTile_rick (n : Nat) (x : Tile) : (s.setTile n x).rick = s.rick := rfl
@[simp] theorem State.setTile_clk (n : Nat) (x : Tile) : (s.setTile n x).clk = s.clk := rfl
@[simp] theorem State.setTile_pwr (n : Nat) (x : Tile) : (s.setTile n x).pwr = s.pwr := rfl
@[simp] theorem State.setTile_cap (n : Nat) (x : Tile) : (s.setTile n x).cap = s.cap := rfl
@[simp] theorem State.setTile_spi (n : Nat) (x : Tile) : (s.setTile n x).spi = s.spi := rfl
@[simp] theorem State.setTile_hlt (n : Nat) (x : Tile) : (s.setTile n x).hlt = s.hlt := rfl
@[simp] theorem State.setTile_ses (n : Nat) (x : Tile) : (s.setTile n x).ses = s.ses := rfl
@[simp] theorem State.setTile_mtr (n : Nat) (x : Tile) : (s.setTile n x).mtr = s.mtr := rfl
@[simp] theorem State.setTile_dbg (n : Nat) (x : Tile) : (s.setTile n x).dbg = s.dbg := rfl
@[simp] theorem State.setTile_site (n : Nat) (x : Tile) (j : Nat) : (s.setTile n x).site j = s.site j := rfl
@[simp] theorem State.setTile_chan (n : Nat) (x : Tile) (j : Nat) : (s.setTile n x).chan j = s.chan j := rfl
@[simp] theorem State.setTile_port (n : Nat) (x : Tile) (j : Nat) : (s.setTile n x).port j = s.port j := rfl
@[simp] theorem State.setTile_ctx (n : Nat) (x : Tile) (j : Nat) : (s.setTile n x).ctx j = s.ctx j := rfl
@[simp] theorem State.setTile_partn (n : Nat) (x : Tile) (j : Nat) : (s.setTile n x).partn j = s.partn j := rfl
@[simp] theorem State.setTile_win (n : Nat) (x : Tile) (j : Nat) : (s.setTile n x).win j = s.win j := rfl
@[simp] theorem State.setTile_cas (n : Nat) (x : Tile) (j : Nat) : (s.setTile n x).cas j = s.cas j := rfl

/-! ### State.modTile -/

@[simp] theorem State.modTile_pending (n : Nat) (f : Tile → Tile) : (s.modTile n f).pending = s.pending := rfl
@[simp] theorem State.modTile_time (n : Nat) (f : Tile → Tile) : (s.modTile n f).time = s.time := rfl
@[simp] theorem State.modTile_freeN (n : Nat) (f : Tile → Tile) : (s.modTile n f).freeN = s.freeN := rfl
@[simp] theorem State.modTile_sites (n : Nat) (f : Tile → Tile) : (s.modTile n f).sites = s.sites := rfl
@[simp] theorem State.modTile_fab (n : Nat) (f : Tile → Tile) : (s.modTile n f).fab = s.fab := rfl
@[simp] theorem State.modTile_chans (n : Nat) (f : Tile → Tile) : (s.modTile n f).chans = s.chans := rfl
@[simp] theorem State.modTile_bev (n : Nat) (f : Tile → Tile) : (s.modTile n f).bev = s.bev := rfl
@[simp] theorem State.modTile_bevMode (n : Nat) (f : Tile → Tile) : (s.modTile n f).bevMode = s.bevMode := rfl
@[simp] theorem State.modTile_host (n : Nat) (f : Tile → Tile) : (s.modTile n f).host = s.host := rfl
@[simp] theorem State.modTile_parts (n : Nat) (f : Tile → Tile) : (s.modTile n f).parts = s.parts := rfl
@[simp] theorem State.modTile_rick (n : Nat) (f : Tile → Tile) : (s.modTile n f).rick = s.rick := rfl
@[simp] theorem State.modTile_clk (n : Nat) (f : Tile → Tile) : (s.modTile n f).clk = s.clk := rfl
@[simp] theorem State.modTile_pwr (n : Nat) (f : Tile → Tile) : (s.modTile n f).pwr = s.pwr := rfl
@[simp] theorem State.modTile_cap (n : Nat) (f : Tile → Tile) : (s.modTile n f).cap = s.cap := rfl
@[simp] theorem State.modTile_spi (n : Nat) (f : Tile → Tile) : (s.modTile n f).spi = s.spi := rfl
@[simp] theorem State.modTile_hlt (n : Nat) (f : Tile → Tile) : (s.modTile n f).hlt = s.hlt := rfl
@[simp] theorem State.modTile_ses (n : Nat) (f : Tile → Tile) : (s.modTile n f).ses = s.ses := rfl
@[simp] theorem State.modTile_mtr (n : Nat) (f : Tile → Tile) : (s.modTile n f).mtr = s.mtr := rfl
@[simp] theorem State.modTile_dbg (n : Nat) (f : Tile → Tile) : (s.modTile n f).dbg = s.dbg := rfl
@[simp] theorem State.modTile_site (n : Nat) (f : Tile → Tile) (j : Nat) : (s.modTile n f).site j = s.site j := rfl
@[simp] theorem State.modTile_chan (n : Nat) (f : Tile → Tile) (j : Nat) : (s.modTile n f).chan j = s.chan j := rfl
@[simp] theorem State.modTile_port (n : Nat) (f : Tile → Tile) (j : Nat) : (s.modTile n f).port j = s.port j := rfl
@[simp] theorem State.modTile_ctx (n : Nat) (f : Tile → Tile) (j : Nat) : (s.modTile n f).ctx j = s.ctx j := rfl
@[simp] theorem State.modTile_partn (n : Nat) (f : Tile → Tile) (j : Nat) : (s.modTile n f).partn j = s.partn j := rfl
@[simp] theorem State.modTile_win (n : Nat) (f : Tile → Tile) (j : Nat) : (s.modTile n f).win j = s.win j := rfl
@[simp] theorem State.modTile_cas (n : Nat) (f : Tile → Tile) (j : Nat) : (s.modTile n f).cas j = s.cas j := rfl

/-! ### State.setSite -/

@[simp] theorem State.setSite_pending (p : Nat) (x : Site) : (s.setSite p x).pending = s.pending := rfl
@[simp] theorem State.setSite_time (p : Nat) (x : Site) : (s.setSite p x).time = s.time := rfl
@[simp] theorem State.setSite_freeN (p : Nat) (x : Site) : (s.setSite p x).freeN = s.freeN := rfl
@[simp] theorem State.setSite_tiles (p : Nat) (x : Site) : (s.setSite p x).tiles = s.tiles := rfl
@[simp] theorem State.setSite_fab (p : Nat) (x : Site) : (s.setSite p x).fab = s.fab := rfl
@[simp] theorem State.setSite_chans (p : Nat) (x : Site) : (s.setSite p x).chans = s.chans := rfl
@[simp] theorem State.setSite_bev (p : Nat) (x : Site) : (s.setSite p x).bev = s.bev := rfl
@[simp] theorem State.setSite_bevMode (p : Nat) (x : Site) : (s.setSite p x).bevMode = s.bevMode := rfl
@[simp] theorem State.setSite_host (p : Nat) (x : Site) : (s.setSite p x).host = s.host := rfl
@[simp] theorem State.setSite_parts (p : Nat) (x : Site) : (s.setSite p x).parts = s.parts := rfl
@[simp] theorem State.setSite_rick (p : Nat) (x : Site) : (s.setSite p x).rick = s.rick := rfl
@[simp] theorem State.setSite_clk (p : Nat) (x : Site) : (s.setSite p x).clk = s.clk := rfl
@[simp] theorem State.setSite_pwr (p : Nat) (x : Site) : (s.setSite p x).pwr = s.pwr := rfl
@[simp] theorem State.setSite_cap (p : Nat) (x : Site) : (s.setSite p x).cap = s.cap := rfl
@[simp] theorem State.setSite_spi (p : Nat) (x : Site) : (s.setSite p x).spi = s.spi := rfl
@[simp] theorem State.setSite_hlt (p : Nat) (x : Site) : (s.setSite p x).hlt = s.hlt := rfl
@[simp] theorem State.setSite_ses (p : Nat) (x : Site) : (s.setSite p x).ses = s.ses := rfl
@[simp] theorem State.setSite_mtr (p : Nat) (x : Site) : (s.setSite p x).mtr = s.mtr := rfl
@[simp] theorem State.setSite_dbg (p : Nat) (x : Site) : (s.setSite p x).dbg = s.dbg := rfl
@[simp] theorem State.setSite_tile (p : Nat) (x : Site) (j : Nat) : (s.setSite p x).tile j = s.tile j := rfl
@[simp] theorem State.setSite_chan (p : Nat) (x : Site) (j : Nat) : (s.setSite p x).chan j = s.chan j := rfl
@[simp] theorem State.setSite_port (p : Nat) (x : Site) (j : Nat) : (s.setSite p x).port j = s.port j := rfl
@[simp] theorem State.setSite_ctx (p : Nat) (x : Site) (j : Nat) : (s.setSite p x).ctx j = s.ctx j := rfl
@[simp] theorem State.setSite_partn (p : Nat) (x : Site) (j : Nat) : (s.setSite p x).partn j = s.partn j := rfl
@[simp] theorem State.setSite_win (p : Nat) (x : Site) (j : Nat) : (s.setSite p x).win j = s.win j := rfl
@[simp] theorem State.setSite_cas (p : Nat) (x : Site) (j : Nat) : (s.setSite p x).cas j = s.cas j := rfl
@[simp] theorem State.setSite_core (p : Nat) (x : Site) (j k : Nat) : (s.setSite p x).core j k = s.core j k := rfl

/-! ### State.modSite -/

@[simp] theorem State.modSite_pending (p : Nat) (f : Site → Site) : (s.modSite p f).pending = s.pending := rfl
@[simp] theorem State.modSite_time (p : Nat) (f : Site → Site) : (s.modSite p f).time = s.time := rfl
@[simp] theorem State.modSite_freeN (p : Nat) (f : Site → Site) : (s.modSite p f).freeN = s.freeN := rfl
@[simp] theorem State.modSite_tiles (p : Nat) (f : Site → Site) : (s.modSite p f).tiles = s.tiles := rfl
@[simp] theorem State.modSite_fab (p : Nat) (f : Site → Site) : (s.modSite p f).fab = s.fab := rfl
@[simp] theorem State.modSite_chans (p : Nat) (f : Site → Site) : (s.modSite p f).chans = s.chans := rfl
@[simp] theorem State.modSite_bev (p : Nat) (f : Site → Site) : (s.modSite p f).bev = s.bev := rfl
@[simp] theorem State.modSite_bevMode (p : Nat) (f : Site → Site) : (s.modSite p f).bevMode = s.bevMode := rfl
@[simp] theorem State.modSite_host (p : Nat) (f : Site → Site) : (s.modSite p f).host = s.host := rfl
@[simp] theorem State.modSite_parts (p : Nat) (f : Site → Site) : (s.modSite p f).parts = s.parts := rfl
@[simp] theorem State.modSite_rick (p : Nat) (f : Site → Site) : (s.modSite p f).rick = s.rick := rfl
@[simp] theorem State.modSite_clk (p : Nat) (f : Site → Site) : (s.modSite p f).clk = s.clk := rfl
@[simp] theorem State.modSite_pwr (p : Nat) (f : Site → Site) : (s.modSite p f).pwr = s.pwr := rfl
@[simp] theorem State.modSite_cap (p : Nat) (f : Site → Site) : (s.modSite p f).cap = s.cap := rfl
@[simp] theorem State.modSite_spi (p : Nat) (f : Site → Site) : (s.modSite p f).spi = s.spi := rfl
@[simp] theorem State.modSite_hlt (p : Nat) (f : Site → Site) : (s.modSite p f).hlt = s.hlt := rfl
@[simp] theorem State.modSite_ses (p : Nat) (f : Site → Site) : (s.modSite p f).ses = s.ses := rfl
@[simp] theorem State.modSite_mtr (p : Nat) (f : Site → Site) : (s.modSite p f).mtr = s.mtr := rfl
@[simp] theorem State.modSite_dbg (p : Nat) (f : Site → Site) : (s.modSite p f).dbg = s.dbg := rfl
@[simp] theorem State.modSite_tile (p : Nat) (f : Site → Site) (j : Nat) : (s.modSite p f).tile j = s.tile j := rfl
@[simp] theorem State.modSite_chan (p : Nat) (f : Site → Site) (j : Nat) : (s.modSite p f).chan j = s.chan j := rfl
@[simp] theorem State.modSite_port (p : Nat) (f : Site → Site) (j : Nat) : (s.modSite p f).port j = s.port j := rfl
@[simp] theorem State.modSite_ctx (p : Nat) (f : Site → Site) (j : Nat) : (s.modSite p f).ctx j = s.ctx j := rfl
@[simp] theorem State.modSite_partn (p : Nat) (f : Site → Site) (j : Nat) : (s.modSite p f).partn j = s.partn j := rfl
@[simp] theorem State.modSite_win (p : Nat) (f : Site → Site) (j : Nat) : (s.modSite p f).win j = s.win j := rfl
@[simp] theorem State.modSite_cas (p : Nat) (f : Site → Site) (j : Nat) : (s.modSite p f).cas j = s.cas j := rfl
@[simp] theorem State.modSite_core (p : Nat) (f : Site → Site) (j k : Nat) : (s.modSite p f).core j k = s.core j k := rfl

/-! ### State.setChan -/

@[simp] theorem State.setChan_pending (c : Nat) (x : Chan) : (s.setChan c x).pending = s.pending := rfl
@[simp] theorem State.setChan_time (c : Nat) (x : Chan) : (s.setChan c x).time = s.time := rfl
@[simp] theorem State.setChan_freeN (c : Nat) (x : Chan) : (s.setChan c x).freeN = s.freeN := rfl
@[simp] theorem State.setChan_tiles (c : Nat) (x : Chan) : (s.setChan c x).tiles = s.tiles := rfl
@[simp] theorem State.setChan_sites (c : Nat) (x : Chan) : (s.setChan c x).sites = s.sites := rfl
@[simp] theorem State.setChan_fab (c : Nat) (x : Chan) : (s.setChan c x).fab = s.fab := rfl
@[simp] theorem State.setChan_bev (c : Nat) (x : Chan) : (s.setChan c x).bev = s.bev := rfl
@[simp] theorem State.setChan_bevMode (c : Nat) (x : Chan) : (s.setChan c x).bevMode = s.bevMode := rfl
@[simp] theorem State.setChan_host (c : Nat) (x : Chan) : (s.setChan c x).host = s.host := rfl
@[simp] theorem State.setChan_parts (c : Nat) (x : Chan) : (s.setChan c x).parts = s.parts := rfl
@[simp] theorem State.setChan_rick (c : Nat) (x : Chan) : (s.setChan c x).rick = s.rick := rfl
@[simp] theorem State.setChan_clk (c : Nat) (x : Chan) : (s.setChan c x).clk = s.clk := rfl
@[simp] theorem State.setChan_pwr (c : Nat) (x : Chan) : (s.setChan c x).pwr = s.pwr := rfl
@[simp] theorem State.setChan_cap (c : Nat) (x : Chan) : (s.setChan c x).cap = s.cap := rfl
@[simp] theorem State.setChan_spi (c : Nat) (x : Chan) : (s.setChan c x).spi = s.spi := rfl
@[simp] theorem State.setChan_hlt (c : Nat) (x : Chan) : (s.setChan c x).hlt = s.hlt := rfl
@[simp] theorem State.setChan_ses (c : Nat) (x : Chan) : (s.setChan c x).ses = s.ses := rfl
@[simp] theorem State.setChan_mtr (c : Nat) (x : Chan) : (s.setChan c x).mtr = s.mtr := rfl
@[simp] theorem State.setChan_dbg (c : Nat) (x : Chan) : (s.setChan c x).dbg = s.dbg := rfl
@[simp] theorem State.setChan_tile (c : Nat) (x : Chan) (j : Nat) : (s.setChan c x).tile j = s.tile j := rfl
@[simp] theorem State.setChan_site (c : Nat) (x : Chan) (j : Nat) : (s.setChan c x).site j = s.site j := rfl
@[simp] theorem State.setChan_port (c : Nat) (x : Chan) (j : Nat) : (s.setChan c x).port j = s.port j := rfl
@[simp] theorem State.setChan_ctx (c : Nat) (x : Chan) (j : Nat) : (s.setChan c x).ctx j = s.ctx j := rfl
@[simp] theorem State.setChan_partn (c : Nat) (x : Chan) (j : Nat) : (s.setChan c x).partn j = s.partn j := rfl
@[simp] theorem State.setChan_win (c : Nat) (x : Chan) (j : Nat) : (s.setChan c x).win j = s.win j := rfl
@[simp] theorem State.setChan_cas (c : Nat) (x : Chan) (j : Nat) : (s.setChan c x).cas j = s.cas j := rfl
@[simp] theorem State.setChan_core (c : Nat) (x : Chan) (j k : Nat) : (s.setChan c x).core j k = s.core j k := rfl

/-! ### State.modChan -/

@[simp] theorem State.modChan_pending (c : Nat) (f : Chan → Chan) : (s.modChan c f).pending = s.pending := rfl
@[simp] theorem State.modChan_time (c : Nat) (f : Chan → Chan) : (s.modChan c f).time = s.time := rfl
@[simp] theorem State.modChan_freeN (c : Nat) (f : Chan → Chan) : (s.modChan c f).freeN = s.freeN := rfl
@[simp] theorem State.modChan_tiles (c : Nat) (f : Chan → Chan) : (s.modChan c f).tiles = s.tiles := rfl
@[simp] theorem State.modChan_sites (c : Nat) (f : Chan → Chan) : (s.modChan c f).sites = s.sites := rfl
@[simp] theorem State.modChan_fab (c : Nat) (f : Chan → Chan) : (s.modChan c f).fab = s.fab := rfl
@[simp] theorem State.modChan_bev (c : Nat) (f : Chan → Chan) : (s.modChan c f).bev = s.bev := rfl
@[simp] theorem State.modChan_bevMode (c : Nat) (f : Chan → Chan) : (s.modChan c f).bevMode = s.bevMode := rfl
@[simp] theorem State.modChan_host (c : Nat) (f : Chan → Chan) : (s.modChan c f).host = s.host := rfl
@[simp] theorem State.modChan_parts (c : Nat) (f : Chan → Chan) : (s.modChan c f).parts = s.parts := rfl
@[simp] theorem State.modChan_rick (c : Nat) (f : Chan → Chan) : (s.modChan c f).rick = s.rick := rfl
@[simp] theorem State.modChan_clk (c : Nat) (f : Chan → Chan) : (s.modChan c f).clk = s.clk := rfl
@[simp] theorem State.modChan_pwr (c : Nat) (f : Chan → Chan) : (s.modChan c f).pwr = s.pwr := rfl
@[simp] theorem State.modChan_cap (c : Nat) (f : Chan → Chan) : (s.modChan c f).cap = s.cap := rfl
@[simp] theorem State.modChan_spi (c : Nat) (f : Chan → Chan) : (s.modChan c f).spi = s.spi := rfl
@[simp] theorem State.modChan_hlt (c : Nat) (f : Chan → Chan) : (s.modChan c f).hlt = s.hlt := rfl
@[simp] theorem State.modChan_ses (c : Nat) (f : Chan → Chan) : (s.modChan c f).ses = s.ses := rfl
@[simp] theorem State.modChan_mtr (c : Nat) (f : Chan → Chan) : (s.modChan c f).mtr = s.mtr := rfl
@[simp] theorem State.modChan_dbg (c : Nat) (f : Chan → Chan) : (s.modChan c f).dbg = s.dbg := rfl
@[simp] theorem State.modChan_tile (c : Nat) (f : Chan → Chan) (j : Nat) : (s.modChan c f).tile j = s.tile j := rfl
@[simp] theorem State.modChan_site (c : Nat) (f : Chan → Chan) (j : Nat) : (s.modChan c f).site j = s.site j := rfl
@[simp] theorem State.modChan_port (c : Nat) (f : Chan → Chan) (j : Nat) : (s.modChan c f).port j = s.port j := rfl
@[simp] theorem State.modChan_ctx (c : Nat) (f : Chan → Chan) (j : Nat) : (s.modChan c f).ctx j = s.ctx j := rfl
@[simp] theorem State.modChan_partn (c : Nat) (f : Chan → Chan) (j : Nat) : (s.modChan c f).partn j = s.partn j := rfl
@[simp] theorem State.modChan_win (c : Nat) (f : Chan → Chan) (j : Nat) : (s.modChan c f).win j = s.win j := rfl
@[simp] theorem State.modChan_cas (c : Nat) (f : Chan → Chan) (j : Nat) : (s.modChan c f).cas j = s.cas j := rfl
@[simp] theorem State.modChan_core (c : Nat) (f : Chan → Chan) (j k : Nat) : (s.modChan c f).core j k = s.core j k := rfl

/-! ### State.setHost -/

@[simp] theorem State.setHost_pending (h : HostIf) : (s.setHost h).pending = s.pending := rfl
@[simp] theorem State.setHost_time (h : HostIf) : (s.setHost h).time = s.time := rfl
@[simp] theorem State.setHost_freeN (h : HostIf) : (s.setHost h).freeN = s.freeN := rfl
@[simp] theorem State.setHost_tiles (h : HostIf) : (s.setHost h).tiles = s.tiles := rfl
@[simp] theorem State.setHost_sites (h : HostIf) : (s.setHost h).sites = s.sites := rfl
@[simp] theorem State.setHost_fab (h : HostIf) : (s.setHost h).fab = s.fab := rfl
@[simp] theorem State.setHost_chans (h : HostIf) : (s.setHost h).chans = s.chans := rfl
@[simp] theorem State.setHost_bev (h : HostIf) : (s.setHost h).bev = s.bev := rfl
@[simp] theorem State.setHost_bevMode (h : HostIf) : (s.setHost h).bevMode = s.bevMode := rfl
@[simp] theorem State.setHost_parts (h : HostIf) : (s.setHost h).parts = s.parts := rfl
@[simp] theorem State.setHost_rick (h : HostIf) : (s.setHost h).rick = s.rick := rfl
@[simp] theorem State.setHost_clk (h : HostIf) : (s.setHost h).clk = s.clk := rfl
@[simp] theorem State.setHost_pwr (h : HostIf) : (s.setHost h).pwr = s.pwr := rfl
@[simp] theorem State.setHost_cap (h : HostIf) : (s.setHost h).cap = s.cap := rfl
@[simp] theorem State.setHost_spi (h : HostIf) : (s.setHost h).spi = s.spi := rfl
@[simp] theorem State.setHost_hlt (h : HostIf) : (s.setHost h).hlt = s.hlt := rfl
@[simp] theorem State.setHost_ses (h : HostIf) : (s.setHost h).ses = s.ses := rfl
@[simp] theorem State.setHost_mtr (h : HostIf) : (s.setHost h).mtr = s.mtr := rfl
@[simp] theorem State.setHost_dbg (h : HostIf) : (s.setHost h).dbg = s.dbg := rfl
@[simp] theorem State.setHost_tile (h : HostIf) (j : Nat) : (s.setHost h).tile j = s.tile j := rfl
@[simp] theorem State.setHost_site (h : HostIf) (j : Nat) : (s.setHost h).site j = s.site j := rfl
@[simp] theorem State.setHost_chan (h : HostIf) (j : Nat) : (s.setHost h).chan j = s.chan j := rfl
@[simp] theorem State.setHost_partn (h : HostIf) (j : Nat) : (s.setHost h).partn j = s.partn j := rfl
@[simp] theorem State.setHost_cas (h : HostIf) (j : Nat) : (s.setHost h).cas j = s.cas j := rfl
@[simp] theorem State.setHost_core (h : HostIf) (j k : Nat) : (s.setHost h).core j k = s.core j k := rfl

/-! ### State.modHost -/

@[simp] theorem State.modHost_pending (f : HostIf → HostIf) : (s.modHost f).pending = s.pending := rfl
@[simp] theorem State.modHost_time (f : HostIf → HostIf) : (s.modHost f).time = s.time := rfl
@[simp] theorem State.modHost_freeN (f : HostIf → HostIf) : (s.modHost f).freeN = s.freeN := rfl
@[simp] theorem State.modHost_tiles (f : HostIf → HostIf) : (s.modHost f).tiles = s.tiles := rfl
@[simp] theorem State.modHost_sites (f : HostIf → HostIf) : (s.modHost f).sites = s.sites := rfl
@[simp] theorem State.modHost_fab (f : HostIf → HostIf) : (s.modHost f).fab = s.fab := rfl
@[simp] theorem State.modHost_chans (f : HostIf → HostIf) : (s.modHost f).chans = s.chans := rfl
@[simp] theorem State.modHost_bev (f : HostIf → HostIf) : (s.modHost f).bev = s.bev := rfl
@[simp] theorem State.modHost_bevMode (f : HostIf → HostIf) : (s.modHost f).bevMode = s.bevMode := rfl
@[simp] theorem State.modHost_parts (f : HostIf → HostIf) : (s.modHost f).parts = s.parts := rfl
@[simp] theorem State.modHost_rick (f : HostIf → HostIf) : (s.modHost f).rick = s.rick := rfl
@[simp] theorem State.modHost_clk (f : HostIf → HostIf) : (s.modHost f).clk = s.clk := rfl
@[simp] theorem State.modHost_pwr (f : HostIf → HostIf) : (s.modHost f).pwr = s.pwr := rfl
@[simp] theorem State.modHost_cap (f : HostIf → HostIf) : (s.modHost f).cap = s.cap := rfl
@[simp] theorem State.modHost_spi (f : HostIf → HostIf) : (s.modHost f).spi = s.spi := rfl
@[simp] theorem State.modHost_hlt (f : HostIf → HostIf) : (s.modHost f).hlt = s.hlt := rfl
@[simp] theorem State.modHost_ses (f : HostIf → HostIf) : (s.modHost f).ses = s.ses := rfl
@[simp] theorem State.modHost_mtr (f : HostIf → HostIf) : (s.modHost f).mtr = s.mtr := rfl
@[simp] theorem State.modHost_dbg (f : HostIf → HostIf) : (s.modHost f).dbg = s.dbg := rfl
@[simp] theorem State.modHost_tile (f : HostIf → HostIf) (j : Nat) : (s.modHost f).tile j = s.tile j := rfl
@[simp] theorem State.modHost_site (f : HostIf → HostIf) (j : Nat) : (s.modHost f).site j = s.site j := rfl
@[simp] theorem State.modHost_chan (f : HostIf → HostIf) (j : Nat) : (s.modHost f).chan j = s.chan j := rfl
@[simp] theorem State.modHost_partn (f : HostIf → HostIf) (j : Nat) : (s.modHost f).partn j = s.partn j := rfl
@[simp] theorem State.modHost_cas (f : HostIf → HostIf) (j : Nat) : (s.modHost f).cas j = s.cas j := rfl
@[simp] theorem State.modHost_core (f : HostIf → HostIf) (j k : Nat) : (s.modHost f).core j k = s.core j k := rfl

/-! ### State.setPort -/

@[simp] theorem State.setPort_pending (p : Nat) (x : Port) : (s.setPort p x).pending = s.pending := rfl
@[simp] theorem State.setPort_time (p : Nat) (x : Port) : (s.setPort p x).time = s.time := rfl
@[simp] theorem State.setPort_freeN (p : Nat) (x : Port) : (s.setPort p x).freeN = s.freeN := rfl
@[simp] theorem State.setPort_tiles (p : Nat) (x : Port) : (s.setPort p x).tiles = s.tiles := rfl
@[simp] theorem State.setPort_sites (p : Nat) (x : Port) : (s.setPort p x).sites = s.sites := rfl
@[simp] theorem State.setPort_fab (p : Nat) (x : Port) : (s.setPort p x).fab = s.fab := rfl
@[simp] theorem State.setPort_chans (p : Nat) (x : Port) : (s.setPort p x).chans = s.chans := rfl
@[simp] theorem State.setPort_bev (p : Nat) (x : Port) : (s.setPort p x).bev = s.bev := rfl
@[simp] theorem State.setPort_bevMode (p : Nat) (x : Port) : (s.setPort p x).bevMode = s.bevMode := rfl
@[simp] theorem State.setPort_parts (p : Nat) (x : Port) : (s.setPort p x).parts = s.parts := rfl
@[simp] theorem State.setPort_rick (p : Nat) (x : Port) : (s.setPort p x).rick = s.rick := rfl
@[simp] theorem State.setPort_clk (p : Nat) (x : Port) : (s.setPort p x).clk = s.clk := rfl
@[simp] theorem State.setPort_pwr (p : Nat) (x : Port) : (s.setPort p x).pwr = s.pwr := rfl
@[simp] theorem State.setPort_cap (p : Nat) (x : Port) : (s.setPort p x).cap = s.cap := rfl
@[simp] theorem State.setPort_spi (p : Nat) (x : Port) : (s.setPort p x).spi = s.spi := rfl
@[simp] theorem State.setPort_hlt (p : Nat) (x : Port) : (s.setPort p x).hlt = s.hlt := rfl
@[simp] theorem State.setPort_ses (p : Nat) (x : Port) : (s.setPort p x).ses = s.ses := rfl
@[simp] theorem State.setPort_mtr (p : Nat) (x : Port) : (s.setPort p x).mtr = s.mtr := rfl
@[simp] theorem State.setPort_dbg (p : Nat) (x : Port) : (s.setPort p x).dbg = s.dbg := rfl
@[simp] theorem State.setPort_tile (p : Nat) (x : Port) (j : Nat) : (s.setPort p x).tile j = s.tile j := rfl
@[simp] theorem State.setPort_site (p : Nat) (x : Port) (j : Nat) : (s.setPort p x).site j = s.site j := rfl
@[simp] theorem State.setPort_chan (p : Nat) (x : Port) (j : Nat) : (s.setPort p x).chan j = s.chan j := rfl
@[simp] theorem State.setPort_partn (p : Nat) (x : Port) (j : Nat) : (s.setPort p x).partn j = s.partn j := rfl
@[simp] theorem State.setPort_cas (p : Nat) (x : Port) (j : Nat) : (s.setPort p x).cas j = s.cas j := rfl
@[simp] theorem State.setPort_core (p : Nat) (x : Port) (j k : Nat) : (s.setPort p x).core j k = s.core j k := rfl

/-! ### State.modPort -/

@[simp] theorem State.modPort_pending (p : Nat) (f : Port → Port) : (s.modPort p f).pending = s.pending := rfl
@[simp] theorem State.modPort_time (p : Nat) (f : Port → Port) : (s.modPort p f).time = s.time := rfl
@[simp] theorem State.modPort_freeN (p : Nat) (f : Port → Port) : (s.modPort p f).freeN = s.freeN := rfl
@[simp] theorem State.modPort_tiles (p : Nat) (f : Port → Port) : (s.modPort p f).tiles = s.tiles := rfl
@[simp] theorem State.modPort_sites (p : Nat) (f : Port → Port) : (s.modPort p f).sites = s.sites := rfl
@[simp] theorem State.modPort_fab (p : Nat) (f : Port → Port) : (s.modPort p f).fab = s.fab := rfl
@[simp] theorem State.modPort_chans (p : Nat) (f : Port → Port) : (s.modPort p f).chans = s.chans := rfl
@[simp] theorem State.modPort_bev (p : Nat) (f : Port → Port) : (s.modPort p f).bev = s.bev := rfl
@[simp] theorem State.modPort_bevMode (p : Nat) (f : Port → Port) : (s.modPort p f).bevMode = s.bevMode := rfl
@[simp] theorem State.modPort_parts (p : Nat) (f : Port → Port) : (s.modPort p f).parts = s.parts := rfl
@[simp] theorem State.modPort_rick (p : Nat) (f : Port → Port) : (s.modPort p f).rick = s.rick := rfl
@[simp] theorem State.modPort_clk (p : Nat) (f : Port → Port) : (s.modPort p f).clk = s.clk := rfl
@[simp] theorem State.modPort_pwr (p : Nat) (f : Port → Port) : (s.modPort p f).pwr = s.pwr := rfl
@[simp] theorem State.modPort_cap (p : Nat) (f : Port → Port) : (s.modPort p f).cap = s.cap := rfl
@[simp] theorem State.modPort_spi (p : Nat) (f : Port → Port) : (s.modPort p f).spi = s.spi := rfl
@[simp] theorem State.modPort_hlt (p : Nat) (f : Port → Port) : (s.modPort p f).hlt = s.hlt := rfl
@[simp] theorem State.modPort_ses (p : Nat) (f : Port → Port) : (s.modPort p f).ses = s.ses := rfl
@[simp] theorem State.modPort_mtr (p : Nat) (f : Port → Port) : (s.modPort p f).mtr = s.mtr := rfl
@[simp] theorem State.modPort_dbg (p : Nat) (f : Port → Port) : (s.modPort p f).dbg = s.dbg := rfl
@[simp] theorem State.modPort_tile (p : Nat) (f : Port → Port) (j : Nat) : (s.modPort p f).tile j = s.tile j := rfl
@[simp] theorem State.modPort_site (p : Nat) (f : Port → Port) (j : Nat) : (s.modPort p f).site j = s.site j := rfl
@[simp] theorem State.modPort_chan (p : Nat) (f : Port → Port) (j : Nat) : (s.modPort p f).chan j = s.chan j := rfl
@[simp] theorem State.modPort_partn (p : Nat) (f : Port → Port) (j : Nat) : (s.modPort p f).partn j = s.partn j := rfl
@[simp] theorem State.modPort_cas (p : Nat) (f : Port → Port) (j : Nat) : (s.modPort p f).cas j = s.cas j := rfl
@[simp] theorem State.modPort_core (p : Nat) (f : Port → Port) (j k : Nat) : (s.modPort p f).core j k = s.core j k := rfl

/-! ### State.setCtx -/

@[simp] theorem State.setCtx_pending (c : Nat) (x : Ctx) : (s.setCtx c x).pending = s.pending := rfl
@[simp] theorem State.setCtx_time (c : Nat) (x : Ctx) : (s.setCtx c x).time = s.time := rfl
@[simp] theorem State.setCtx_freeN (c : Nat) (x : Ctx) : (s.setCtx c x).freeN = s.freeN := rfl
@[simp] theorem State.setCtx_tiles (c : Nat) (x : Ctx) : (s.setCtx c x).tiles = s.tiles := rfl
@[simp] theorem State.setCtx_sites (c : Nat) (x : Ctx) : (s.setCtx c x).sites = s.sites := rfl
@[simp] theorem State.setCtx_fab (c : Nat) (x : Ctx) : (s.setCtx c x).fab = s.fab := rfl
@[simp] theorem State.setCtx_chans (c : Nat) (x : Ctx) : (s.setCtx c x).chans = s.chans := rfl
@[simp] theorem State.setCtx_bev (c : Nat) (x : Ctx) : (s.setCtx c x).bev = s.bev := rfl
@[simp] theorem State.setCtx_bevMode (c : Nat) (x : Ctx) : (s.setCtx c x).bevMode = s.bevMode := rfl
@[simp] theorem State.setCtx_parts (c : Nat) (x : Ctx) : (s.setCtx c x).parts = s.parts := rfl
@[simp] theorem State.setCtx_rick (c : Nat) (x : Ctx) : (s.setCtx c x).rick = s.rick := rfl
@[simp] theorem State.setCtx_clk (c : Nat) (x : Ctx) : (s.setCtx c x).clk = s.clk := rfl
@[simp] theorem State.setCtx_pwr (c : Nat) (x : Ctx) : (s.setCtx c x).pwr = s.pwr := rfl
@[simp] theorem State.setCtx_cap (c : Nat) (x : Ctx) : (s.setCtx c x).cap = s.cap := rfl
@[simp] theorem State.setCtx_spi (c : Nat) (x : Ctx) : (s.setCtx c x).spi = s.spi := rfl
@[simp] theorem State.setCtx_hlt (c : Nat) (x : Ctx) : (s.setCtx c x).hlt = s.hlt := rfl
@[simp] theorem State.setCtx_ses (c : Nat) (x : Ctx) : (s.setCtx c x).ses = s.ses := rfl
@[simp] theorem State.setCtx_mtr (c : Nat) (x : Ctx) : (s.setCtx c x).mtr = s.mtr := rfl
@[simp] theorem State.setCtx_dbg (c : Nat) (x : Ctx) : (s.setCtx c x).dbg = s.dbg := rfl
@[simp] theorem State.setCtx_tile (c : Nat) (x : Ctx) (j : Nat) : (s.setCtx c x).tile j = s.tile j := rfl
@[simp] theorem State.setCtx_site (c : Nat) (x : Ctx) (j : Nat) : (s.setCtx c x).site j = s.site j := rfl
@[simp] theorem State.setCtx_chan (c : Nat) (x : Ctx) (j : Nat) : (s.setCtx c x).chan j = s.chan j := rfl
@[simp] theorem State.setCtx_partn (c : Nat) (x : Ctx) (j : Nat) : (s.setCtx c x).partn j = s.partn j := rfl
@[simp] theorem State.setCtx_cas (c : Nat) (x : Ctx) (j : Nat) : (s.setCtx c x).cas j = s.cas j := rfl
@[simp] theorem State.setCtx_core (c : Nat) (x : Ctx) (j k : Nat) : (s.setCtx c x).core j k = s.core j k := rfl

/-! ### State.modCtx -/

@[simp] theorem State.modCtx_pending (c : Nat) (f : Ctx → Ctx) : (s.modCtx c f).pending = s.pending := rfl
@[simp] theorem State.modCtx_time (c : Nat) (f : Ctx → Ctx) : (s.modCtx c f).time = s.time := rfl
@[simp] theorem State.modCtx_freeN (c : Nat) (f : Ctx → Ctx) : (s.modCtx c f).freeN = s.freeN := rfl
@[simp] theorem State.modCtx_tiles (c : Nat) (f : Ctx → Ctx) : (s.modCtx c f).tiles = s.tiles := rfl
@[simp] theorem State.modCtx_sites (c : Nat) (f : Ctx → Ctx) : (s.modCtx c f).sites = s.sites := rfl
@[simp] theorem State.modCtx_fab (c : Nat) (f : Ctx → Ctx) : (s.modCtx c f).fab = s.fab := rfl
@[simp] theorem State.modCtx_chans (c : Nat) (f : Ctx → Ctx) : (s.modCtx c f).chans = s.chans := rfl
@[simp] theorem State.modCtx_bev (c : Nat) (f : Ctx → Ctx) : (s.modCtx c f).bev = s.bev := rfl
@[simp] theorem State.modCtx_bevMode (c : Nat) (f : Ctx → Ctx) : (s.modCtx c f).bevMode = s.bevMode := rfl
@[simp] theorem State.modCtx_parts (c : Nat) (f : Ctx → Ctx) : (s.modCtx c f).parts = s.parts := rfl
@[simp] theorem State.modCtx_rick (c : Nat) (f : Ctx → Ctx) : (s.modCtx c f).rick = s.rick := rfl
@[simp] theorem State.modCtx_clk (c : Nat) (f : Ctx → Ctx) : (s.modCtx c f).clk = s.clk := rfl
@[simp] theorem State.modCtx_pwr (c : Nat) (f : Ctx → Ctx) : (s.modCtx c f).pwr = s.pwr := rfl
@[simp] theorem State.modCtx_cap (c : Nat) (f : Ctx → Ctx) : (s.modCtx c f).cap = s.cap := rfl
@[simp] theorem State.modCtx_spi (c : Nat) (f : Ctx → Ctx) : (s.modCtx c f).spi = s.spi := rfl
@[simp] theorem State.modCtx_hlt (c : Nat) (f : Ctx → Ctx) : (s.modCtx c f).hlt = s.hlt := rfl
@[simp] theorem State.modCtx_ses (c : Nat) (f : Ctx → Ctx) : (s.modCtx c f).ses = s.ses := rfl
@[simp] theorem State.modCtx_mtr (c : Nat) (f : Ctx → Ctx) : (s.modCtx c f).mtr = s.mtr := rfl
@[simp] theorem State.modCtx_dbg (c : Nat) (f : Ctx → Ctx) : (s.modCtx c f).dbg = s.dbg := rfl
@[simp] theorem State.modCtx_tile (c : Nat) (f : Ctx → Ctx) (j : Nat) : (s.modCtx c f).tile j = s.tile j := rfl
@[simp] theorem State.modCtx_site (c : Nat) (f : Ctx → Ctx) (j : Nat) : (s.modCtx c f).site j = s.site j := rfl
@[simp] theorem State.modCtx_chan (c : Nat) (f : Ctx → Ctx) (j : Nat) : (s.modCtx c f).chan j = s.chan j := rfl
@[simp] theorem State.modCtx_partn (c : Nat) (f : Ctx → Ctx) (j : Nat) : (s.modCtx c f).partn j = s.partn j := rfl
@[simp] theorem State.modCtx_cas (c : Nat) (f : Ctx → Ctx) (j : Nat) : (s.modCtx c f).cas j = s.cas j := rfl
@[simp] theorem State.modCtx_core (c : Nat) (f : Ctx → Ctx) (j k : Nat) : (s.modCtx c f).core j k = s.core j k := rfl

/-! ### State.setPart -/

@[simp] theorem State.setPart_pending (p : Nat) (x : Part) : (s.setPart p x).pending = s.pending := rfl
@[simp] theorem State.setPart_time (p : Nat) (x : Part) : (s.setPart p x).time = s.time := rfl
@[simp] theorem State.setPart_freeN (p : Nat) (x : Part) : (s.setPart p x).freeN = s.freeN := rfl
@[simp] theorem State.setPart_tiles (p : Nat) (x : Part) : (s.setPart p x).tiles = s.tiles := rfl
@[simp] theorem State.setPart_sites (p : Nat) (x : Part) : (s.setPart p x).sites = s.sites := rfl
@[simp] theorem State.setPart_fab (p : Nat) (x : Part) : (s.setPart p x).fab = s.fab := rfl
@[simp] theorem State.setPart_chans (p : Nat) (x : Part) : (s.setPart p x).chans = s.chans := rfl
@[simp] theorem State.setPart_bev (p : Nat) (x : Part) : (s.setPart p x).bev = s.bev := rfl
@[simp] theorem State.setPart_bevMode (p : Nat) (x : Part) : (s.setPart p x).bevMode = s.bevMode := rfl
@[simp] theorem State.setPart_host (p : Nat) (x : Part) : (s.setPart p x).host = s.host := rfl
@[simp] theorem State.setPart_rick (p : Nat) (x : Part) : (s.setPart p x).rick = s.rick := rfl
@[simp] theorem State.setPart_clk (p : Nat) (x : Part) : (s.setPart p x).clk = s.clk := rfl
@[simp] theorem State.setPart_pwr (p : Nat) (x : Part) : (s.setPart p x).pwr = s.pwr := rfl
@[simp] theorem State.setPart_cap (p : Nat) (x : Part) : (s.setPart p x).cap = s.cap := rfl
@[simp] theorem State.setPart_spi (p : Nat) (x : Part) : (s.setPart p x).spi = s.spi := rfl
@[simp] theorem State.setPart_hlt (p : Nat) (x : Part) : (s.setPart p x).hlt = s.hlt := rfl
@[simp] theorem State.setPart_ses (p : Nat) (x : Part) : (s.setPart p x).ses = s.ses := rfl
@[simp] theorem State.setPart_mtr (p : Nat) (x : Part) : (s.setPart p x).mtr = s.mtr := rfl
@[simp] theorem State.setPart_dbg (p : Nat) (x : Part) : (s.setPart p x).dbg = s.dbg := rfl
@[simp] theorem State.setPart_tile (p : Nat) (x : Part) (j : Nat) : (s.setPart p x).tile j = s.tile j := rfl
@[simp] theorem State.setPart_site (p : Nat) (x : Part) (j : Nat) : (s.setPart p x).site j = s.site j := rfl
@[simp] theorem State.setPart_chan (p : Nat) (x : Part) (j : Nat) : (s.setPart p x).chan j = s.chan j := rfl
@[simp] theorem State.setPart_port (p : Nat) (x : Part) (j : Nat) : (s.setPart p x).port j = s.port j := rfl
@[simp] theorem State.setPart_ctx (p : Nat) (x : Part) (j : Nat) : (s.setPart p x).ctx j = s.ctx j := rfl
@[simp] theorem State.setPart_win (p : Nat) (x : Part) (j : Nat) : (s.setPart p x).win j = s.win j := rfl
@[simp] theorem State.setPart_cas (p : Nat) (x : Part) (j : Nat) : (s.setPart p x).cas j = s.cas j := rfl
@[simp] theorem State.setPart_core (p : Nat) (x : Part) (j k : Nat) : (s.setPart p x).core j k = s.core j k := rfl

/-! ### State.modPart -/

@[simp] theorem State.modPart_pending (p : Nat) (f : Part → Part) : (s.modPart p f).pending = s.pending := rfl
@[simp] theorem State.modPart_time (p : Nat) (f : Part → Part) : (s.modPart p f).time = s.time := rfl
@[simp] theorem State.modPart_freeN (p : Nat) (f : Part → Part) : (s.modPart p f).freeN = s.freeN := rfl
@[simp] theorem State.modPart_tiles (p : Nat) (f : Part → Part) : (s.modPart p f).tiles = s.tiles := rfl
@[simp] theorem State.modPart_sites (p : Nat) (f : Part → Part) : (s.modPart p f).sites = s.sites := rfl
@[simp] theorem State.modPart_fab (p : Nat) (f : Part → Part) : (s.modPart p f).fab = s.fab := rfl
@[simp] theorem State.modPart_chans (p : Nat) (f : Part → Part) : (s.modPart p f).chans = s.chans := rfl
@[simp] theorem State.modPart_bev (p : Nat) (f : Part → Part) : (s.modPart p f).bev = s.bev := rfl
@[simp] theorem State.modPart_bevMode (p : Nat) (f : Part → Part) : (s.modPart p f).bevMode = s.bevMode := rfl
@[simp] theorem State.modPart_host (p : Nat) (f : Part → Part) : (s.modPart p f).host = s.host := rfl
@[simp] theorem State.modPart_rick (p : Nat) (f : Part → Part) : (s.modPart p f).rick = s.rick := rfl
@[simp] theorem State.modPart_clk (p : Nat) (f : Part → Part) : (s.modPart p f).clk = s.clk := rfl
@[simp] theorem State.modPart_pwr (p : Nat) (f : Part → Part) : (s.modPart p f).pwr = s.pwr := rfl
@[simp] theorem State.modPart_cap (p : Nat) (f : Part → Part) : (s.modPart p f).cap = s.cap := rfl
@[simp] theorem State.modPart_spi (p : Nat) (f : Part → Part) : (s.modPart p f).spi = s.spi := rfl
@[simp] theorem State.modPart_hlt (p : Nat) (f : Part → Part) : (s.modPart p f).hlt = s.hlt := rfl
@[simp] theorem State.modPart_ses (p : Nat) (f : Part → Part) : (s.modPart p f).ses = s.ses := rfl
@[simp] theorem State.modPart_mtr (p : Nat) (f : Part → Part) : (s.modPart p f).mtr = s.mtr := rfl
@[simp] theorem State.modPart_dbg (p : Nat) (f : Part → Part) : (s.modPart p f).dbg = s.dbg := rfl
@[simp] theorem State.modPart_tile (p : Nat) (f : Part → Part) (j : Nat) : (s.modPart p f).tile j = s.tile j := rfl
@[simp] theorem State.modPart_site (p : Nat) (f : Part → Part) (j : Nat) : (s.modPart p f).site j = s.site j := rfl
@[simp] theorem State.modPart_chan (p : Nat) (f : Part → Part) (j : Nat) : (s.modPart p f).chan j = s.chan j := rfl
@[simp] theorem State.modPart_port (p : Nat) (f : Part → Part) (j : Nat) : (s.modPart p f).port j = s.port j := rfl
@[simp] theorem State.modPart_ctx (p : Nat) (f : Part → Part) (j : Nat) : (s.modPart p f).ctx j = s.ctx j := rfl
@[simp] theorem State.modPart_win (p : Nat) (f : Part → Part) (j : Nat) : (s.modPart p f).win j = s.win j := rfl
@[simp] theorem State.modPart_cas (p : Nat) (f : Part → Part) (j : Nat) : (s.modPart p f).cas j = s.cas j := rfl
@[simp] theorem State.modPart_core (p : Nat) (f : Part → Part) (j k : Nat) : (s.modPart p f).core j k = s.core j k := rfl

/-! ### State.modWin -/

@[simp] theorem State.modWin_pending (w : Nat) (f : Win → Win) : (s.modWin w f).pending = s.pending := rfl
@[simp] theorem State.modWin_time (w : Nat) (f : Win → Win) : (s.modWin w f).time = s.time := rfl
@[simp] theorem State.modWin_freeN (w : Nat) (f : Win → Win) : (s.modWin w f).freeN = s.freeN := rfl
@[simp] theorem State.modWin_tiles (w : Nat) (f : Win → Win) : (s.modWin w f).tiles = s.tiles := rfl
@[simp] theorem State.modWin_sites (w : Nat) (f : Win → Win) : (s.modWin w f).sites = s.sites := rfl
@[simp] theorem State.modWin_fab (w : Nat) (f : Win → Win) : (s.modWin w f).fab = s.fab := rfl
@[simp] theorem State.modWin_chans (w : Nat) (f : Win → Win) : (s.modWin w f).chans = s.chans := rfl
@[simp] theorem State.modWin_bev (w : Nat) (f : Win → Win) : (s.modWin w f).bev = s.bev := rfl
@[simp] theorem State.modWin_bevMode (w : Nat) (f : Win → Win) : (s.modWin w f).bevMode = s.bevMode := rfl
@[simp] theorem State.modWin_parts (w : Nat) (f : Win → Win) : (s.modWin w f).parts = s.parts := rfl
@[simp] theorem State.modWin_rick (w : Nat) (f : Win → Win) : (s.modWin w f).rick = s.rick := rfl
@[simp] theorem State.modWin_clk (w : Nat) (f : Win → Win) : (s.modWin w f).clk = s.clk := rfl
@[simp] theorem State.modWin_pwr (w : Nat) (f : Win → Win) : (s.modWin w f).pwr = s.pwr := rfl
@[simp] theorem State.modWin_cap (w : Nat) (f : Win → Win) : (s.modWin w f).cap = s.cap := rfl
@[simp] theorem State.modWin_spi (w : Nat) (f : Win → Win) : (s.modWin w f).spi = s.spi := rfl
@[simp] theorem State.modWin_hlt (w : Nat) (f : Win → Win) : (s.modWin w f).hlt = s.hlt := rfl
@[simp] theorem State.modWin_ses (w : Nat) (f : Win → Win) : (s.modWin w f).ses = s.ses := rfl
@[simp] theorem State.modWin_mtr (w : Nat) (f : Win → Win) : (s.modWin w f).mtr = s.mtr := rfl
@[simp] theorem State.modWin_dbg (w : Nat) (f : Win → Win) : (s.modWin w f).dbg = s.dbg := rfl
@[simp] theorem State.modWin_tile (w : Nat) (f : Win → Win) (j : Nat) : (s.modWin w f).tile j = s.tile j := rfl
@[simp] theorem State.modWin_site (w : Nat) (f : Win → Win) (j : Nat) : (s.modWin w f).site j = s.site j := rfl
@[simp] theorem State.modWin_chan (w : Nat) (f : Win → Win) (j : Nat) : (s.modWin w f).chan j = s.chan j := rfl
@[simp] theorem State.modWin_partn (w : Nat) (f : Win → Win) (j : Nat) : (s.modWin w f).partn j = s.partn j := rfl
@[simp] theorem State.modWin_cas (w : Nat) (f : Win → Win) (j : Nat) : (s.modWin w f).cas j = s.cas j := rfl
@[simp] theorem State.modWin_core (w : Nat) (f : Win → Win) (j k : Nat) : (s.modWin w f).core j k = s.core j k := rfl

/-! ### State.modRick -/

@[simp] theorem State.modRick_pending (f : Rick → Rick) : (s.modRick f).pending = s.pending := rfl
@[simp] theorem State.modRick_time (f : Rick → Rick) : (s.modRick f).time = s.time := rfl
@[simp] theorem State.modRick_freeN (f : Rick → Rick) : (s.modRick f).freeN = s.freeN := rfl
@[simp] theorem State.modRick_tiles (f : Rick → Rick) : (s.modRick f).tiles = s.tiles := rfl
@[simp] theorem State.modRick_sites (f : Rick → Rick) : (s.modRick f).sites = s.sites := rfl
@[simp] theorem State.modRick_fab (f : Rick → Rick) : (s.modRick f).fab = s.fab := rfl
@[simp] theorem State.modRick_chans (f : Rick → Rick) : (s.modRick f).chans = s.chans := rfl
@[simp] theorem State.modRick_bev (f : Rick → Rick) : (s.modRick f).bev = s.bev := rfl
@[simp] theorem State.modRick_bevMode (f : Rick → Rick) : (s.modRick f).bevMode = s.bevMode := rfl
@[simp] theorem State.modRick_host (f : Rick → Rick) : (s.modRick f).host = s.host := rfl
@[simp] theorem State.modRick_parts (f : Rick → Rick) : (s.modRick f).parts = s.parts := rfl
@[simp] theorem State.modRick_clk (f : Rick → Rick) : (s.modRick f).clk = s.clk := rfl
@[simp] theorem State.modRick_pwr (f : Rick → Rick) : (s.modRick f).pwr = s.pwr := rfl
@[simp] theorem State.modRick_cap (f : Rick → Rick) : (s.modRick f).cap = s.cap := rfl
@[simp] theorem State.modRick_spi (f : Rick → Rick) : (s.modRick f).spi = s.spi := rfl
@[simp] theorem State.modRick_hlt (f : Rick → Rick) : (s.modRick f).hlt = s.hlt := rfl
@[simp] theorem State.modRick_ses (f : Rick → Rick) : (s.modRick f).ses = s.ses := rfl
@[simp] theorem State.modRick_mtr (f : Rick → Rick) : (s.modRick f).mtr = s.mtr := rfl
@[simp] theorem State.modRick_dbg (f : Rick → Rick) : (s.modRick f).dbg = s.dbg := rfl
@[simp] theorem State.modRick_tile (f : Rick → Rick) (j : Nat) : (s.modRick f).tile j = s.tile j := rfl
@[simp] theorem State.modRick_site (f : Rick → Rick) (j : Nat) : (s.modRick f).site j = s.site j := rfl
@[simp] theorem State.modRick_chan (f : Rick → Rick) (j : Nat) : (s.modRick f).chan j = s.chan j := rfl
@[simp] theorem State.modRick_port (f : Rick → Rick) (j : Nat) : (s.modRick f).port j = s.port j := rfl
@[simp] theorem State.modRick_ctx (f : Rick → Rick) (j : Nat) : (s.modRick f).ctx j = s.ctx j := rfl
@[simp] theorem State.modRick_partn (f : Rick → Rick) (j : Nat) : (s.modRick f).partn j = s.partn j := rfl
@[simp] theorem State.modRick_win (f : Rick → Rick) (j : Nat) : (s.modRick f).win j = s.win j := rfl
@[simp] theorem State.modRick_core (f : Rick → Rick) (j k : Nat) : (s.modRick f).core j k = s.core j k := rfl

/-! ### State.modFab -/

@[simp] theorem State.modFab_pending (f : Fabric → Fabric) : (s.modFab f).pending = s.pending := rfl
@[simp] theorem State.modFab_time (f : Fabric → Fabric) : (s.modFab f).time = s.time := rfl
@[simp] theorem State.modFab_freeN (f : Fabric → Fabric) : (s.modFab f).freeN = s.freeN := rfl
@[simp] theorem State.modFab_tiles (f : Fabric → Fabric) : (s.modFab f).tiles = s.tiles := rfl
@[simp] theorem State.modFab_sites (f : Fabric → Fabric) : (s.modFab f).sites = s.sites := rfl
@[simp] theorem State.modFab_chans (f : Fabric → Fabric) : (s.modFab f).chans = s.chans := rfl
@[simp] theorem State.modFab_bev (f : Fabric → Fabric) : (s.modFab f).bev = s.bev := rfl
@[simp] theorem State.modFab_bevMode (f : Fabric → Fabric) : (s.modFab f).bevMode = s.bevMode := rfl
@[simp] theorem State.modFab_host (f : Fabric → Fabric) : (s.modFab f).host = s.host := rfl
@[simp] theorem State.modFab_parts (f : Fabric → Fabric) : (s.modFab f).parts = s.parts := rfl
@[simp] theorem State.modFab_rick (f : Fabric → Fabric) : (s.modFab f).rick = s.rick := rfl
@[simp] theorem State.modFab_clk (f : Fabric → Fabric) : (s.modFab f).clk = s.clk := rfl
@[simp] theorem State.modFab_pwr (f : Fabric → Fabric) : (s.modFab f).pwr = s.pwr := rfl
@[simp] theorem State.modFab_cap (f : Fabric → Fabric) : (s.modFab f).cap = s.cap := rfl
@[simp] theorem State.modFab_spi (f : Fabric → Fabric) : (s.modFab f).spi = s.spi := rfl
@[simp] theorem State.modFab_hlt (f : Fabric → Fabric) : (s.modFab f).hlt = s.hlt := rfl
@[simp] theorem State.modFab_ses (f : Fabric → Fabric) : (s.modFab f).ses = s.ses := rfl
@[simp] theorem State.modFab_mtr (f : Fabric → Fabric) : (s.modFab f).mtr = s.mtr := rfl
@[simp] theorem State.modFab_dbg (f : Fabric → Fabric) : (s.modFab f).dbg = s.dbg := rfl
@[simp] theorem State.modFab_tile (f : Fabric → Fabric) (j : Nat) : (s.modFab f).tile j = s.tile j := rfl
@[simp] theorem State.modFab_site (f : Fabric → Fabric) (j : Nat) : (s.modFab f).site j = s.site j := rfl
@[simp] theorem State.modFab_chan (f : Fabric → Fabric) (j : Nat) : (s.modFab f).chan j = s.chan j := rfl
@[simp] theorem State.modFab_port (f : Fabric → Fabric) (j : Nat) : (s.modFab f).port j = s.port j := rfl
@[simp] theorem State.modFab_ctx (f : Fabric → Fabric) (j : Nat) : (s.modFab f).ctx j = s.ctx j := rfl
@[simp] theorem State.modFab_partn (f : Fabric → Fabric) (j : Nat) : (s.modFab f).partn j = s.partn j := rfl
@[simp] theorem State.modFab_win (f : Fabric → Fabric) (j : Nat) : (s.modFab f).win j = s.win j := rfl
@[simp] theorem State.modFab_cas (f : Fabric → Fabric) (j : Nat) : (s.modFab f).cas j = s.cas j := rfl
@[simp] theorem State.modFab_core (f : Fabric → Fabric) (j k : Nat) : (s.modFab f).core j k = s.core j k := rfl

/-! ### State.modClk -/

@[simp] theorem State.modClk_pending (f : Clk → Clk) : (s.modClk f).pending = s.pending := rfl
@[simp] theorem State.modClk_time (f : Clk → Clk) : (s.modClk f).time = s.time := rfl
@[simp] theorem State.modClk_freeN (f : Clk → Clk) : (s.modClk f).freeN = s.freeN := rfl
@[simp] theorem State.modClk_tiles (f : Clk → Clk) : (s.modClk f).tiles = s.tiles := rfl
@[simp] theorem State.modClk_sites (f : Clk → Clk) : (s.modClk f).sites = s.sites := rfl
@[simp] theorem State.modClk_fab (f : Clk → Clk) : (s.modClk f).fab = s.fab := rfl
@[simp] theorem State.modClk_chans (f : Clk → Clk) : (s.modClk f).chans = s.chans := rfl
@[simp] theorem State.modClk_bev (f : Clk → Clk) : (s.modClk f).bev = s.bev := rfl
@[simp] theorem State.modClk_bevMode (f : Clk → Clk) : (s.modClk f).bevMode = s.bevMode := rfl
@[simp] theorem State.modClk_host (f : Clk → Clk) : (s.modClk f).host = s.host := rfl
@[simp] theorem State.modClk_parts (f : Clk → Clk) : (s.modClk f).parts = s.parts := rfl
@[simp] theorem State.modClk_rick (f : Clk → Clk) : (s.modClk f).rick = s.rick := rfl
@[simp] theorem State.modClk_pwr (f : Clk → Clk) : (s.modClk f).pwr = s.pwr := rfl
@[simp] theorem State.modClk_cap (f : Clk → Clk) : (s.modClk f).cap = s.cap := rfl
@[simp] theorem State.modClk_spi (f : Clk → Clk) : (s.modClk f).spi = s.spi := rfl
@[simp] theorem State.modClk_hlt (f : Clk → Clk) : (s.modClk f).hlt = s.hlt := rfl
@[simp] theorem State.modClk_ses (f : Clk → Clk) : (s.modClk f).ses = s.ses := rfl
@[simp] theorem State.modClk_mtr (f : Clk → Clk) : (s.modClk f).mtr = s.mtr := rfl
@[simp] theorem State.modClk_dbg (f : Clk → Clk) : (s.modClk f).dbg = s.dbg := rfl
@[simp] theorem State.modClk_tile (f : Clk → Clk) (j : Nat) : (s.modClk f).tile j = s.tile j := rfl
@[simp] theorem State.modClk_site (f : Clk → Clk) (j : Nat) : (s.modClk f).site j = s.site j := rfl
@[simp] theorem State.modClk_chan (f : Clk → Clk) (j : Nat) : (s.modClk f).chan j = s.chan j := rfl
@[simp] theorem State.modClk_port (f : Clk → Clk) (j : Nat) : (s.modClk f).port j = s.port j := rfl
@[simp] theorem State.modClk_ctx (f : Clk → Clk) (j : Nat) : (s.modClk f).ctx j = s.ctx j := rfl
@[simp] theorem State.modClk_partn (f : Clk → Clk) (j : Nat) : (s.modClk f).partn j = s.partn j := rfl
@[simp] theorem State.modClk_win (f : Clk → Clk) (j : Nat) : (s.modClk f).win j = s.win j := rfl
@[simp] theorem State.modClk_cas (f : Clk → Clk) (j : Nat) : (s.modClk f).cas j = s.cas j := rfl
@[simp] theorem State.modClk_core (f : Clk → Clk) (j k : Nat) : (s.modClk f).core j k = s.core j k := rfl

/-! ### State.modPwr -/

@[simp] theorem State.modPwr_pending (f : Pwr → Pwr) : (s.modPwr f).pending = s.pending := rfl
@[simp] theorem State.modPwr_time (f : Pwr → Pwr) : (s.modPwr f).time = s.time := rfl
@[simp] theorem State.modPwr_freeN (f : Pwr → Pwr) : (s.modPwr f).freeN = s.freeN := rfl
@[simp] theorem State.modPwr_tiles (f : Pwr → Pwr) : (s.modPwr f).tiles = s.tiles := rfl
@[simp] theorem State.modPwr_sites (f : Pwr → Pwr) : (s.modPwr f).sites = s.sites := rfl
@[simp] theorem State.modPwr_fab (f : Pwr → Pwr) : (s.modPwr f).fab = s.fab := rfl
@[simp] theorem State.modPwr_chans (f : Pwr → Pwr) : (s.modPwr f).chans = s.chans := rfl
@[simp] theorem State.modPwr_bev (f : Pwr → Pwr) : (s.modPwr f).bev = s.bev := rfl
@[simp] theorem State.modPwr_bevMode (f : Pwr → Pwr) : (s.modPwr f).bevMode = s.bevMode := rfl
@[simp] theorem State.modPwr_host (f : Pwr → Pwr) : (s.modPwr f).host = s.host := rfl
@[simp] theorem State.modPwr_parts (f : Pwr → Pwr) : (s.modPwr f).parts = s.parts := rfl
@[simp] theorem State.modPwr_rick (f : Pwr → Pwr) : (s.modPwr f).rick = s.rick := rfl
@[simp] theorem State.modPwr_clk (f : Pwr → Pwr) : (s.modPwr f).clk = s.clk := rfl
@[simp] theorem State.modPwr_cap (f : Pwr → Pwr) : (s.modPwr f).cap = s.cap := rfl
@[simp] theorem State.modPwr_spi (f : Pwr → Pwr) : (s.modPwr f).spi = s.spi := rfl
@[simp] theorem State.modPwr_hlt (f : Pwr → Pwr) : (s.modPwr f).hlt = s.hlt := rfl
@[simp] theorem State.modPwr_ses (f : Pwr → Pwr) : (s.modPwr f).ses = s.ses := rfl
@[simp] theorem State.modPwr_mtr (f : Pwr → Pwr) : (s.modPwr f).mtr = s.mtr := rfl
@[simp] theorem State.modPwr_dbg (f : Pwr → Pwr) : (s.modPwr f).dbg = s.dbg := rfl
@[simp] theorem State.modPwr_tile (f : Pwr → Pwr) (j : Nat) : (s.modPwr f).tile j = s.tile j := rfl
@[simp] theorem State.modPwr_site (f : Pwr → Pwr) (j : Nat) : (s.modPwr f).site j = s.site j := rfl
@[simp] theorem State.modPwr_chan (f : Pwr → Pwr) (j : Nat) : (s.modPwr f).chan j = s.chan j := rfl
@[simp] theorem State.modPwr_port (f : Pwr → Pwr) (j : Nat) : (s.modPwr f).port j = s.port j := rfl
@[simp] theorem State.modPwr_ctx (f : Pwr → Pwr) (j : Nat) : (s.modPwr f).ctx j = s.ctx j := rfl
@[simp] theorem State.modPwr_partn (f : Pwr → Pwr) (j : Nat) : (s.modPwr f).partn j = s.partn j := rfl
@[simp] theorem State.modPwr_win (f : Pwr → Pwr) (j : Nat) : (s.modPwr f).win j = s.win j := rfl
@[simp] theorem State.modPwr_cas (f : Pwr → Pwr) (j : Nat) : (s.modPwr f).cas j = s.cas j := rfl
@[simp] theorem State.modPwr_core (f : Pwr → Pwr) (j k : Nat) : (s.modPwr f).core j k = s.core j k := rfl

/-! ### State.modCap -/

@[simp] theorem State.modCap_pending (f : Cap → Cap) : (s.modCap f).pending = s.pending := rfl
@[simp] theorem State.modCap_time (f : Cap → Cap) : (s.modCap f).time = s.time := rfl
@[simp] theorem State.modCap_freeN (f : Cap → Cap) : (s.modCap f).freeN = s.freeN := rfl
@[simp] theorem State.modCap_tiles (f : Cap → Cap) : (s.modCap f).tiles = s.tiles := rfl
@[simp] theorem State.modCap_sites (f : Cap → Cap) : (s.modCap f).sites = s.sites := rfl
@[simp] theorem State.modCap_fab (f : Cap → Cap) : (s.modCap f).fab = s.fab := rfl
@[simp] theorem State.modCap_chans (f : Cap → Cap) : (s.modCap f).chans = s.chans := rfl
@[simp] theorem State.modCap_bev (f : Cap → Cap) : (s.modCap f).bev = s.bev := rfl
@[simp] theorem State.modCap_bevMode (f : Cap → Cap) : (s.modCap f).bevMode = s.bevMode := rfl
@[simp] theorem State.modCap_host (f : Cap → Cap) : (s.modCap f).host = s.host := rfl
@[simp] theorem State.modCap_parts (f : Cap → Cap) : (s.modCap f).parts = s.parts := rfl
@[simp] theorem State.modCap_rick (f : Cap → Cap) : (s.modCap f).rick = s.rick := rfl
@[simp] theorem State.modCap_clk (f : Cap → Cap) : (s.modCap f).clk = s.clk := rfl
@[simp] theorem State.modCap_pwr (f : Cap → Cap) : (s.modCap f).pwr = s.pwr := rfl
@[simp] theorem State.modCap_spi (f : Cap → Cap) : (s.modCap f).spi = s.spi := rfl
@[simp] theorem State.modCap_hlt (f : Cap → Cap) : (s.modCap f).hlt = s.hlt := rfl
@[simp] theorem State.modCap_ses (f : Cap → Cap) : (s.modCap f).ses = s.ses := rfl
@[simp] theorem State.modCap_mtr (f : Cap → Cap) : (s.modCap f).mtr = s.mtr := rfl
@[simp] theorem State.modCap_dbg (f : Cap → Cap) : (s.modCap f).dbg = s.dbg := rfl
@[simp] theorem State.modCap_tile (f : Cap → Cap) (j : Nat) : (s.modCap f).tile j = s.tile j := rfl
@[simp] theorem State.modCap_site (f : Cap → Cap) (j : Nat) : (s.modCap f).site j = s.site j := rfl
@[simp] theorem State.modCap_chan (f : Cap → Cap) (j : Nat) : (s.modCap f).chan j = s.chan j := rfl
@[simp] theorem State.modCap_port (f : Cap → Cap) (j : Nat) : (s.modCap f).port j = s.port j := rfl
@[simp] theorem State.modCap_ctx (f : Cap → Cap) (j : Nat) : (s.modCap f).ctx j = s.ctx j := rfl
@[simp] theorem State.modCap_partn (f : Cap → Cap) (j : Nat) : (s.modCap f).partn j = s.partn j := rfl
@[simp] theorem State.modCap_win (f : Cap → Cap) (j : Nat) : (s.modCap f).win j = s.win j := rfl
@[simp] theorem State.modCap_cas (f : Cap → Cap) (j : Nat) : (s.modCap f).cas j = s.cas j := rfl
@[simp] theorem State.modCap_core (f : Cap → Cap) (j k : Nat) : (s.modCap f).core j k = s.core j k := rfl

/-! ### State.modSpi -/

@[simp] theorem State.modSpi_pending (f : Spi → Spi) : (s.modSpi f).pending = s.pending := rfl
@[simp] theorem State.modSpi_time (f : Spi → Spi) : (s.modSpi f).time = s.time := rfl
@[simp] theorem State.modSpi_freeN (f : Spi → Spi) : (s.modSpi f).freeN = s.freeN := rfl
@[simp] theorem State.modSpi_tiles (f : Spi → Spi) : (s.modSpi f).tiles = s.tiles := rfl
@[simp] theorem State.modSpi_sites (f : Spi → Spi) : (s.modSpi f).sites = s.sites := rfl
@[simp] theorem State.modSpi_fab (f : Spi → Spi) : (s.modSpi f).fab = s.fab := rfl
@[simp] theorem State.modSpi_chans (f : Spi → Spi) : (s.modSpi f).chans = s.chans := rfl
@[simp] theorem State.modSpi_bev (f : Spi → Spi) : (s.modSpi f).bev = s.bev := rfl
@[simp] theorem State.modSpi_bevMode (f : Spi → Spi) : (s.modSpi f).bevMode = s.bevMode := rfl
@[simp] theorem State.modSpi_host (f : Spi → Spi) : (s.modSpi f).host = s.host := rfl
@[simp] theorem State.modSpi_parts (f : Spi → Spi) : (s.modSpi f).parts = s.parts := rfl
@[simp] theorem State.modSpi_rick (f : Spi → Spi) : (s.modSpi f).rick = s.rick := rfl
@[simp] theorem State.modSpi_clk (f : Spi → Spi) : (s.modSpi f).clk = s.clk := rfl
@[simp] theorem State.modSpi_pwr (f : Spi → Spi) : (s.modSpi f).pwr = s.pwr := rfl
@[simp] theorem State.modSpi_cap (f : Spi → Spi) : (s.modSpi f).cap = s.cap := rfl
@[simp] theorem State.modSpi_hlt (f : Spi → Spi) : (s.modSpi f).hlt = s.hlt := rfl
@[simp] theorem State.modSpi_ses (f : Spi → Spi) : (s.modSpi f).ses = s.ses := rfl
@[simp] theorem State.modSpi_mtr (f : Spi → Spi) : (s.modSpi f).mtr = s.mtr := rfl
@[simp] theorem State.modSpi_dbg (f : Spi → Spi) : (s.modSpi f).dbg = s.dbg := rfl
@[simp] theorem State.modSpi_tile (f : Spi → Spi) (j : Nat) : (s.modSpi f).tile j = s.tile j := rfl
@[simp] theorem State.modSpi_site (f : Spi → Spi) (j : Nat) : (s.modSpi f).site j = s.site j := rfl
@[simp] theorem State.modSpi_chan (f : Spi → Spi) (j : Nat) : (s.modSpi f).chan j = s.chan j := rfl
@[simp] theorem State.modSpi_port (f : Spi → Spi) (j : Nat) : (s.modSpi f).port j = s.port j := rfl
@[simp] theorem State.modSpi_ctx (f : Spi → Spi) (j : Nat) : (s.modSpi f).ctx j = s.ctx j := rfl
@[simp] theorem State.modSpi_partn (f : Spi → Spi) (j : Nat) : (s.modSpi f).partn j = s.partn j := rfl
@[simp] theorem State.modSpi_win (f : Spi → Spi) (j : Nat) : (s.modSpi f).win j = s.win j := rfl
@[simp] theorem State.modSpi_cas (f : Spi → Spi) (j : Nat) : (s.modSpi f).cas j = s.cas j := rfl
@[simp] theorem State.modSpi_core (f : Spi → Spi) (j k : Nat) : (s.modSpi f).core j k = s.core j k := rfl

/-! ### State.modHlt -/

@[simp] theorem State.modHlt_pending (f : Hlt → Hlt) : (s.modHlt f).pending = s.pending := rfl
@[simp] theorem State.modHlt_time (f : Hlt → Hlt) : (s.modHlt f).time = s.time := rfl
@[simp] theorem State.modHlt_freeN (f : Hlt → Hlt) : (s.modHlt f).freeN = s.freeN := rfl
@[simp] theorem State.modHlt_tiles (f : Hlt → Hlt) : (s.modHlt f).tiles = s.tiles := rfl
@[simp] theorem State.modHlt_sites (f : Hlt → Hlt) : (s.modHlt f).sites = s.sites := rfl
@[simp] theorem State.modHlt_fab (f : Hlt → Hlt) : (s.modHlt f).fab = s.fab := rfl
@[simp] theorem State.modHlt_chans (f : Hlt → Hlt) : (s.modHlt f).chans = s.chans := rfl
@[simp] theorem State.modHlt_bev (f : Hlt → Hlt) : (s.modHlt f).bev = s.bev := rfl
@[simp] theorem State.modHlt_bevMode (f : Hlt → Hlt) : (s.modHlt f).bevMode = s.bevMode := rfl
@[simp] theorem State.modHlt_host (f : Hlt → Hlt) : (s.modHlt f).host = s.host := rfl
@[simp] theorem State.modHlt_parts (f : Hlt → Hlt) : (s.modHlt f).parts = s.parts := rfl
@[simp] theorem State.modHlt_rick (f : Hlt → Hlt) : (s.modHlt f).rick = s.rick := rfl
@[simp] theorem State.modHlt_clk (f : Hlt → Hlt) : (s.modHlt f).clk = s.clk := rfl
@[simp] theorem State.modHlt_pwr (f : Hlt → Hlt) : (s.modHlt f).pwr = s.pwr := rfl
@[simp] theorem State.modHlt_cap (f : Hlt → Hlt) : (s.modHlt f).cap = s.cap := rfl
@[simp] theorem State.modHlt_spi (f : Hlt → Hlt) : (s.modHlt f).spi = s.spi := rfl
@[simp] theorem State.modHlt_ses (f : Hlt → Hlt) : (s.modHlt f).ses = s.ses := rfl
@[simp] theorem State.modHlt_mtr (f : Hlt → Hlt) : (s.modHlt f).mtr = s.mtr := rfl
@[simp] theorem State.modHlt_dbg (f : Hlt → Hlt) : (s.modHlt f).dbg = s.dbg := rfl
@[simp] theorem State.modHlt_tile (f : Hlt → Hlt) (j : Nat) : (s.modHlt f).tile j = s.tile j := rfl
@[simp] theorem State.modHlt_site (f : Hlt → Hlt) (j : Nat) : (s.modHlt f).site j = s.site j := rfl
@[simp] theorem State.modHlt_chan (f : Hlt → Hlt) (j : Nat) : (s.modHlt f).chan j = s.chan j := rfl
@[simp] theorem State.modHlt_port (f : Hlt → Hlt) (j : Nat) : (s.modHlt f).port j = s.port j := rfl
@[simp] theorem State.modHlt_ctx (f : Hlt → Hlt) (j : Nat) : (s.modHlt f).ctx j = s.ctx j := rfl
@[simp] theorem State.modHlt_partn (f : Hlt → Hlt) (j : Nat) : (s.modHlt f).partn j = s.partn j := rfl
@[simp] theorem State.modHlt_win (f : Hlt → Hlt) (j : Nat) : (s.modHlt f).win j = s.win j := rfl
@[simp] theorem State.modHlt_cas (f : Hlt → Hlt) (j : Nat) : (s.modHlt f).cas j = s.cas j := rfl
@[simp] theorem State.modHlt_core (f : Hlt → Hlt) (j k : Nat) : (s.modHlt f).core j k = s.core j k := rfl

/-! ### State.modSes -/

@[simp] theorem State.modSes_pending (f : Ses → Ses) : (s.modSes f).pending = s.pending := rfl
@[simp] theorem State.modSes_time (f : Ses → Ses) : (s.modSes f).time = s.time := rfl
@[simp] theorem State.modSes_freeN (f : Ses → Ses) : (s.modSes f).freeN = s.freeN := rfl
@[simp] theorem State.modSes_tiles (f : Ses → Ses) : (s.modSes f).tiles = s.tiles := rfl
@[simp] theorem State.modSes_sites (f : Ses → Ses) : (s.modSes f).sites = s.sites := rfl
@[simp] theorem State.modSes_fab (f : Ses → Ses) : (s.modSes f).fab = s.fab := rfl
@[simp] theorem State.modSes_chans (f : Ses → Ses) : (s.modSes f).chans = s.chans := rfl
@[simp] theorem State.modSes_bev (f : Ses → Ses) : (s.modSes f).bev = s.bev := rfl
@[simp] theorem State.modSes_bevMode (f : Ses → Ses) : (s.modSes f).bevMode = s.bevMode := rfl
@[simp] theorem State.modSes_host (f : Ses → Ses) : (s.modSes f).host = s.host := rfl
@[simp] theorem State.modSes_parts (f : Ses → Ses) : (s.modSes f).parts = s.parts := rfl
@[simp] theorem State.modSes_rick (f : Ses → Ses) : (s.modSes f).rick = s.rick := rfl
@[simp] theorem State.modSes_clk (f : Ses → Ses) : (s.modSes f).clk = s.clk := rfl
@[simp] theorem State.modSes_pwr (f : Ses → Ses) : (s.modSes f).pwr = s.pwr := rfl
@[simp] theorem State.modSes_cap (f : Ses → Ses) : (s.modSes f).cap = s.cap := rfl
@[simp] theorem State.modSes_spi (f : Ses → Ses) : (s.modSes f).spi = s.spi := rfl
@[simp] theorem State.modSes_hlt (f : Ses → Ses) : (s.modSes f).hlt = s.hlt := rfl
@[simp] theorem State.modSes_mtr (f : Ses → Ses) : (s.modSes f).mtr = s.mtr := rfl
@[simp] theorem State.modSes_dbg (f : Ses → Ses) : (s.modSes f).dbg = s.dbg := rfl
@[simp] theorem State.modSes_tile (f : Ses → Ses) (j : Nat) : (s.modSes f).tile j = s.tile j := rfl
@[simp] theorem State.modSes_site (f : Ses → Ses) (j : Nat) : (s.modSes f).site j = s.site j := rfl
@[simp] theorem State.modSes_chan (f : Ses → Ses) (j : Nat) : (s.modSes f).chan j = s.chan j := rfl
@[simp] theorem State.modSes_port (f : Ses → Ses) (j : Nat) : (s.modSes f).port j = s.port j := rfl
@[simp] theorem State.modSes_ctx (f : Ses → Ses) (j : Nat) : (s.modSes f).ctx j = s.ctx j := rfl
@[simp] theorem State.modSes_partn (f : Ses → Ses) (j : Nat) : (s.modSes f).partn j = s.partn j := rfl
@[simp] theorem State.modSes_win (f : Ses → Ses) (j : Nat) : (s.modSes f).win j = s.win j := rfl
@[simp] theorem State.modSes_cas (f : Ses → Ses) (j : Nat) : (s.modSes f).cas j = s.cas j := rfl
@[simp] theorem State.modSes_core (f : Ses → Ses) (j k : Nat) : (s.modSes f).core j k = s.core j k := rfl

/-! ### State.modMtr -/

@[simp] theorem State.modMtr_pending (f : Mtr → Mtr) : (s.modMtr f).pending = s.pending := rfl
@[simp] theorem State.modMtr_time (f : Mtr → Mtr) : (s.modMtr f).time = s.time := rfl
@[simp] theorem State.modMtr_freeN (f : Mtr → Mtr) : (s.modMtr f).freeN = s.freeN := rfl
@[simp] theorem State.modMtr_tiles (f : Mtr → Mtr) : (s.modMtr f).tiles = s.tiles := rfl
@[simp] theorem State.modMtr_sites (f : Mtr → Mtr) : (s.modMtr f).sites = s.sites := rfl
@[simp] theorem State.modMtr_fab (f : Mtr → Mtr) : (s.modMtr f).fab = s.fab := rfl
@[simp] theorem State.modMtr_chans (f : Mtr → Mtr) : (s.modMtr f).chans = s.chans := rfl
@[simp] theorem State.modMtr_bev (f : Mtr → Mtr) : (s.modMtr f).bev = s.bev := rfl
@[simp] theorem State.modMtr_bevMode (f : Mtr → Mtr) : (s.modMtr f).bevMode = s.bevMode := rfl
@[simp] theorem State.modMtr_host (f : Mtr → Mtr) : (s.modMtr f).host = s.host := rfl
@[simp] theorem State.modMtr_parts (f : Mtr → Mtr) : (s.modMtr f).parts = s.parts := rfl
@[simp] theorem State.modMtr_rick (f : Mtr → Mtr) : (s.modMtr f).rick = s.rick := rfl
@[simp] theorem State.modMtr_clk (f : Mtr → Mtr) : (s.modMtr f).clk = s.clk := rfl
@[simp] theorem State.modMtr_pwr (f : Mtr → Mtr) : (s.modMtr f).pwr = s.pwr := rfl
@[simp] theorem State.modMtr_cap (f : Mtr → Mtr) : (s.modMtr f).cap = s.cap := rfl
@[simp] theorem State.modMtr_spi (f : Mtr → Mtr) : (s.modMtr f).spi = s.spi := rfl
@[simp] theorem State.modMtr_hlt (f : Mtr → Mtr) : (s.modMtr f).hlt = s.hlt := rfl
@[simp] theorem State.modMtr_ses (f : Mtr → Mtr) : (s.modMtr f).ses = s.ses := rfl
@[simp] theorem State.modMtr_dbg (f : Mtr → Mtr) : (s.modMtr f).dbg = s.dbg := rfl
@[simp] theorem State.modMtr_tile (f : Mtr → Mtr) (j : Nat) : (s.modMtr f).tile j = s.tile j := rfl
@[simp] theorem State.modMtr_site (f : Mtr → Mtr) (j : Nat) : (s.modMtr f).site j = s.site j := rfl
@[simp] theorem State.modMtr_chan (f : Mtr → Mtr) (j : Nat) : (s.modMtr f).chan j = s.chan j := rfl
@[simp] theorem State.modMtr_port (f : Mtr → Mtr) (j : Nat) : (s.modMtr f).port j = s.port j := rfl
@[simp] theorem State.modMtr_ctx (f : Mtr → Mtr) (j : Nat) : (s.modMtr f).ctx j = s.ctx j := rfl
@[simp] theorem State.modMtr_partn (f : Mtr → Mtr) (j : Nat) : (s.modMtr f).partn j = s.partn j := rfl
@[simp] theorem State.modMtr_win (f : Mtr → Mtr) (j : Nat) : (s.modMtr f).win j = s.win j := rfl
@[simp] theorem State.modMtr_cas (f : Mtr → Mtr) (j : Nat) : (s.modMtr f).cas j = s.cas j := rfl
@[simp] theorem State.modMtr_core (f : Mtr → Mtr) (j k : Nat) : (s.modMtr f).core j k = s.core j k := rfl

/-! ### State.modDbg -/

@[simp] theorem State.modDbg_pending (f : Dbg → Dbg) : (s.modDbg f).pending = s.pending := rfl
@[simp] theorem State.modDbg_time (f : Dbg → Dbg) : (s.modDbg f).time = s.time := rfl
@[simp] theorem State.modDbg_freeN (f : Dbg → Dbg) : (s.modDbg f).freeN = s.freeN := rfl
@[simp] theorem State.modDbg_tiles (f : Dbg → Dbg) : (s.modDbg f).tiles = s.tiles := rfl
@[simp] theorem State.modDbg_sites (f : Dbg → Dbg) : (s.modDbg f).sites = s.sites := rfl
@[simp] theorem State.modDbg_fab (f : Dbg → Dbg) : (s.modDbg f).fab = s.fab := rfl
@[simp] theorem State.modDbg_chans (f : Dbg → Dbg) : (s.modDbg f).chans = s.chans := rfl
@[simp] theorem State.modDbg_bev (f : Dbg → Dbg) : (s.modDbg f).bev = s.bev := rfl
@[simp] theorem State.modDbg_bevMode (f : Dbg → Dbg) : (s.modDbg f).bevMode = s.bevMode := rfl
@[simp] theorem State.modDbg_host (f : Dbg → Dbg) : (s.modDbg f).host = s.host := rfl
@[simp] theorem State.modDbg_parts (f : Dbg → Dbg) : (s.modDbg f).parts = s.parts := rfl
@[simp] theorem State.modDbg_rick (f : Dbg → Dbg) : (s.modDbg f).rick = s.rick := rfl
@[simp] theorem State.modDbg_clk (f : Dbg → Dbg) : (s.modDbg f).clk = s.clk := rfl
@[simp] theorem State.modDbg_pwr (f : Dbg → Dbg) : (s.modDbg f).pwr = s.pwr := rfl
@[simp] theorem State.modDbg_cap (f : Dbg → Dbg) : (s.modDbg f).cap = s.cap := rfl
@[simp] theorem State.modDbg_spi (f : Dbg → Dbg) : (s.modDbg f).spi = s.spi := rfl
@[simp] theorem State.modDbg_hlt (f : Dbg → Dbg) : (s.modDbg f).hlt = s.hlt := rfl
@[simp] theorem State.modDbg_ses (f : Dbg → Dbg) : (s.modDbg f).ses = s.ses := rfl
@[simp] theorem State.modDbg_mtr (f : Dbg → Dbg) : (s.modDbg f).mtr = s.mtr := rfl
@[simp] theorem State.modDbg_tile (f : Dbg → Dbg) (j : Nat) : (s.modDbg f).tile j = s.tile j := rfl
@[simp] theorem State.modDbg_site (f : Dbg → Dbg) (j : Nat) : (s.modDbg f).site j = s.site j := rfl
@[simp] theorem State.modDbg_chan (f : Dbg → Dbg) (j : Nat) : (s.modDbg f).chan j = s.chan j := rfl
@[simp] theorem State.modDbg_port (f : Dbg → Dbg) (j : Nat) : (s.modDbg f).port j = s.port j := rfl
@[simp] theorem State.modDbg_ctx (f : Dbg → Dbg) (j : Nat) : (s.modDbg f).ctx j = s.ctx j := rfl
@[simp] theorem State.modDbg_partn (f : Dbg → Dbg) (j : Nat) : (s.modDbg f).partn j = s.partn j := rfl
@[simp] theorem State.modDbg_win (f : Dbg → Dbg) (j : Nat) : (s.modDbg f).win j = s.win j := rfl
@[simp] theorem State.modDbg_cas (f : Dbg → Dbg) (j : Nat) : (s.modDbg f).cas j = s.cas j := rfl
@[simp] theorem State.modDbg_core (f : Dbg → Dbg) (j k : Nat) : (s.modDbg f).core j k = s.core j k := rfl

/-! ### State.modCas -/

@[simp] theorem State.modCas_pending (n : Nat) (f : CasPort → CasPort) : (s.modCas n f).pending = s.pending := rfl
@[simp] theorem State.modCas_time (n : Nat) (f : CasPort → CasPort) : (s.modCas n f).time = s.time := rfl
@[simp] theorem State.modCas_freeN (n : Nat) (f : CasPort → CasPort) : (s.modCas n f).freeN = s.freeN := rfl
@[simp] theorem State.modCas_tiles (n : Nat) (f : CasPort → CasPort) : (s.modCas n f).tiles = s.tiles := rfl
@[simp] theorem State.modCas_sites (n : Nat) (f : CasPort → CasPort) : (s.modCas n f).sites = s.sites := rfl
@[simp] theorem State.modCas_fab (n : Nat) (f : CasPort → CasPort) : (s.modCas n f).fab = s.fab := rfl
@[simp] theorem State.modCas_chans (n : Nat) (f : CasPort → CasPort) : (s.modCas n f).chans = s.chans := rfl
@[simp] theorem State.modCas_bev (n : Nat) (f : CasPort → CasPort) : (s.modCas n f).bev = s.bev := rfl
@[simp] theorem State.modCas_bevMode (n : Nat) (f : CasPort → CasPort) : (s.modCas n f).bevMode = s.bevMode := rfl
@[simp] theorem State.modCas_host (n : Nat) (f : CasPort → CasPort) : (s.modCas n f).host = s.host := rfl
@[simp] theorem State.modCas_parts (n : Nat) (f : CasPort → CasPort) : (s.modCas n f).parts = s.parts := rfl
@[simp] theorem State.modCas_clk (n : Nat) (f : CasPort → CasPort) : (s.modCas n f).clk = s.clk := rfl
@[simp] theorem State.modCas_pwr (n : Nat) (f : CasPort → CasPort) : (s.modCas n f).pwr = s.pwr := rfl
@[simp] theorem State.modCas_cap (n : Nat) (f : CasPort → CasPort) : (s.modCas n f).cap = s.cap := rfl
@[simp] theorem State.modCas_spi (n : Nat) (f : CasPort → CasPort) : (s.modCas n f).spi = s.spi := rfl
@[simp] theorem State.modCas_hlt (n : Nat) (f : CasPort → CasPort) : (s.modCas n f).hlt = s.hlt := rfl
@[simp] theorem State.modCas_ses (n : Nat) (f : CasPort → CasPort) : (s.modCas n f).ses = s.ses := rfl
@[simp] theorem State.modCas_mtr (n : Nat) (f : CasPort → CasPort) : (s.modCas n f).mtr = s.mtr := rfl
@[simp] theorem State.modCas_dbg (n : Nat) (f : CasPort → CasPort) : (s.modCas n f).dbg = s.dbg := rfl
@[simp] theorem State.modCas_tile (n : Nat) (f : CasPort → CasPort) (j : Nat) : (s.modCas n f).tile j = s.tile j := rfl
@[simp] theorem State.modCas_site (n : Nat) (f : CasPort → CasPort) (j : Nat) : (s.modCas n f).site j = s.site j := rfl
@[simp] theorem State.modCas_chan (n : Nat) (f : CasPort → CasPort) (j : Nat) : (s.modCas n f).chan j = s.chan j := rfl
@[simp] theorem State.modCas_port (n : Nat) (f : CasPort → CasPort) (j : Nat) : (s.modCas n f).port j = s.port j := rfl
@[simp] theorem State.modCas_ctx (n : Nat) (f : CasPort → CasPort) (j : Nat) : (s.modCas n f).ctx j = s.ctx j := rfl
@[simp] theorem State.modCas_partn (n : Nat) (f : CasPort → CasPort) (j : Nat) : (s.modCas n f).partn j = s.partn j := rfl
@[simp] theorem State.modCas_win (n : Nat) (f : CasPort → CasPort) (j : Nat) : (s.modCas n f).win j = s.win j := rfl
@[simp] theorem State.modCas_core (n : Nat) (f : CasPort → CasPort) (j k : Nat) : (s.modCas n f).core j k = s.core j k := rfl

/-! ### State.spend -/

@[simp] theorem State.spend_pending : (s.spend).pending = s.pending := rfl
@[simp] theorem State.spend_time : (s.spend).time = s.time := rfl
@[simp] theorem State.spend_tiles : (s.spend).tiles = s.tiles := rfl
@[simp] theorem State.spend_sites : (s.spend).sites = s.sites := rfl
@[simp] theorem State.spend_fab : (s.spend).fab = s.fab := rfl
@[simp] theorem State.spend_chans : (s.spend).chans = s.chans := rfl
@[simp] theorem State.spend_bev : (s.spend).bev = s.bev := rfl
@[simp] theorem State.spend_bevMode : (s.spend).bevMode = s.bevMode := rfl
@[simp] theorem State.spend_host : (s.spend).host = s.host := rfl
@[simp] theorem State.spend_parts : (s.spend).parts = s.parts := rfl
@[simp] theorem State.spend_rick : (s.spend).rick = s.rick := rfl
@[simp] theorem State.spend_clk : (s.spend).clk = s.clk := rfl
@[simp] theorem State.spend_pwr : (s.spend).pwr = s.pwr := rfl
@[simp] theorem State.spend_cap : (s.spend).cap = s.cap := rfl
@[simp] theorem State.spend_spi : (s.spend).spi = s.spi := rfl
@[simp] theorem State.spend_hlt : (s.spend).hlt = s.hlt := rfl
@[simp] theorem State.spend_ses : (s.spend).ses = s.ses := rfl
@[simp] theorem State.spend_mtr : (s.spend).mtr = s.mtr := rfl
@[simp] theorem State.spend_dbg : (s.spend).dbg = s.dbg := rfl
@[simp] theorem State.spend_tile (j : Nat) : (s.spend).tile j = s.tile j := rfl
@[simp] theorem State.spend_site (j : Nat) : (s.spend).site j = s.site j := rfl
@[simp] theorem State.spend_chan (j : Nat) : (s.spend).chan j = s.chan j := rfl
@[simp] theorem State.spend_port (j : Nat) : (s.spend).port j = s.port j := rfl
@[simp] theorem State.spend_ctx (j : Nat) : (s.spend).ctx j = s.ctx j := rfl
@[simp] theorem State.spend_partn (j : Nat) : (s.spend).partn j = s.partn j := rfl
@[simp] theorem State.spend_win (j : Nat) : (s.spend).win j = s.win j := rfl
@[simp] theorem State.spend_cas (j : Nat) : (s.spend).cas j = s.cas j := rfl
@[simp] theorem State.spend_core (j k : Nat) : (s.spend).core j k = s.core j k := rfl

/-! ### State.modCore -/

@[simp] theorem State.modCore_pending (t c : Nat) (f : Core → Core) : (s.modCore t c f).pending = s.pending := rfl
@[simp] theorem State.modCore_time (t c : Nat) (f : Core → Core) : (s.modCore t c f).time = s.time := rfl
@[simp] theorem State.modCore_freeN (t c : Nat) (f : Core → Core) : (s.modCore t c f).freeN = s.freeN := rfl
@[simp] theorem State.modCore_sites (t c : Nat) (f : Core → Core) : (s.modCore t c f).sites = s.sites := rfl
@[simp] theorem State.modCore_fab (t c : Nat) (f : Core → Core) : (s.modCore t c f).fab = s.fab := rfl
@[simp] theorem State.modCore_chans (t c : Nat) (f : Core → Core) : (s.modCore t c f).chans = s.chans := rfl
@[simp] theorem State.modCore_bev (t c : Nat) (f : Core → Core) : (s.modCore t c f).bev = s.bev := rfl
@[simp] theorem State.modCore_bevMode (t c : Nat) (f : Core → Core) : (s.modCore t c f).bevMode = s.bevMode := rfl
@[simp] theorem State.modCore_host (t c : Nat) (f : Core → Core) : (s.modCore t c f).host = s.host := rfl
@[simp] theorem State.modCore_parts (t c : Nat) (f : Core → Core) : (s.modCore t c f).parts = s.parts := rfl
@[simp] theorem State.modCore_rick (t c : Nat) (f : Core → Core) : (s.modCore t c f).rick = s.rick := rfl
@[simp] theorem State.modCore_clk (t c : Nat) (f : Core → Core) : (s.modCore t c f).clk = s.clk := rfl
@[simp] theorem State.modCore_pwr (t c : Nat) (f : Core → Core) : (s.modCore t c f).pwr = s.pwr := rfl
@[simp] theorem State.modCore_cap (t c : Nat) (f : Core → Core) : (s.modCore t c f).cap = s.cap := rfl
@[simp] theorem State.modCore_spi (t c : Nat) (f : Core → Core) : (s.modCore t c f).spi = s.spi := rfl
@[simp] theorem State.modCore_hlt (t c : Nat) (f : Core → Core) : (s.modCore t c f).hlt = s.hlt := rfl
@[simp] theorem State.modCore_ses (t c : Nat) (f : Core → Core) : (s.modCore t c f).ses = s.ses := rfl
@[simp] theorem State.modCore_mtr (t c : Nat) (f : Core → Core) : (s.modCore t c f).mtr = s.mtr := rfl
@[simp] theorem State.modCore_dbg (t c : Nat) (f : Core → Core) : (s.modCore t c f).dbg = s.dbg := rfl
@[simp] theorem State.modCore_site (t c : Nat) (f : Core → Core) (j : Nat) : (s.modCore t c f).site j = s.site j := rfl
@[simp] theorem State.modCore_chan (t c : Nat) (f : Core → Core) (j : Nat) : (s.modCore t c f).chan j = s.chan j := rfl
@[simp] theorem State.modCore_port (t c : Nat) (f : Core → Core) (j : Nat) : (s.modCore t c f).port j = s.port j := rfl
@[simp] theorem State.modCore_ctx (t c : Nat) (f : Core → Core) (j : Nat) : (s.modCore t c f).ctx j = s.ctx j := rfl
@[simp] theorem State.modCore_partn (t c : Nat) (f : Core → Core) (j : Nat) : (s.modCore t c f).partn j = s.partn j := rfl
@[simp] theorem State.modCore_win (t c : Nat) (f : Core → Core) (j : Nat) : (s.modCore t c f).win j = s.win j := rfl
@[simp] theorem State.modCore_cas (t c : Nat) (f : Core → Core) (j : Nat) : (s.modCore t c f).cas j = s.cas j := rfl

/-! ### State.bump -/

@[simp] theorem State.bump_pending (t k n : Nat) : (s.bump t k n).pending = s.pending := rfl
@[simp] theorem State.bump_time (t k n : Nat) : (s.bump t k n).time = s.time := rfl
@[simp] theorem State.bump_freeN (t k n : Nat) : (s.bump t k n).freeN = s.freeN := rfl
@[simp] theorem State.bump_sites (t k n : Nat) : (s.bump t k n).sites = s.sites := rfl
@[simp] theorem State.bump_fab (t k n : Nat) : (s.bump t k n).fab = s.fab := rfl
@[simp] theorem State.bump_chans (t k n : Nat) : (s.bump t k n).chans = s.chans := rfl
@[simp] theorem State.bump_bev (t k n : Nat) : (s.bump t k n).bev = s.bev := rfl
@[simp] theorem State.bump_bevMode (t k n : Nat) : (s.bump t k n).bevMode = s.bevMode := rfl
@[simp] theorem State.bump_host (t k n : Nat) : (s.bump t k n).host = s.host := rfl
@[simp] theorem State.bump_parts (t k n : Nat) : (s.bump t k n).parts = s.parts := rfl
@[simp] theorem State.bump_rick (t k n : Nat) : (s.bump t k n).rick = s.rick := rfl
@[simp] theorem State.bump_clk (t k n : Nat) : (s.bump t k n).clk = s.clk := rfl
@[simp] theorem State.bump_pwr (t k n : Nat) : (s.bump t k n).pwr = s.pwr := rfl
@[simp] theorem State.bump_cap (t k n : Nat) : (s.bump t k n).cap = s.cap := rfl
@[simp] theorem State.bump_spi (t k n : Nat) : (s.bump t k n).spi = s.spi := rfl
@[simp] theorem State.bump_hlt (t k n : Nat) : (s.bump t k n).hlt = s.hlt := rfl
@[simp] theorem State.bump_ses (t k n : Nat) : (s.bump t k n).ses = s.ses := rfl
@[simp] theorem State.bump_mtr (t k n : Nat) : (s.bump t k n).mtr = s.mtr := rfl
@[simp] theorem State.bump_dbg (t k n : Nat) : (s.bump t k n).dbg = s.dbg := rfl
@[simp] theorem State.bump_site (t k n : Nat) (j : Nat) : (s.bump t k n).site j = s.site j := rfl
@[simp] theorem State.bump_chan (t k n : Nat) (j : Nat) : (s.bump t k n).chan j = s.chan j := rfl
@[simp] theorem State.bump_port (t k n : Nat) (j : Nat) : (s.bump t k n).port j = s.port j := rfl
@[simp] theorem State.bump_ctx (t k n : Nat) (j : Nat) : (s.bump t k n).ctx j = s.ctx j := rfl
@[simp] theorem State.bump_partn (t k n : Nat) (j : Nat) : (s.bump t k n).partn j = s.partn j := rfl
@[simp] theorem State.bump_win (t k n : Nat) (j : Nat) : (s.bump t k n).win j = s.win j := rfl
@[simp] theorem State.bump_cas (t k n : Nat) (j : Nat) : (s.bump t k n).cas j = s.cas j := rfl

/-! ### Reading what was updated -/

@[simp] theorem State.setTile_tile (n j : Nat) (x : Tile) : (s.setTile n x).tile j = if j = n then x else s.tile j := tget_tput ..
@[simp] theorem State.modTile_tile (n j : Nat) (f : Tile → Tile) : (s.modTile n f).tile j = if j = n then f (s.tile n) else s.tile j := tget_tput ..
@[simp] theorem State.setSite_site (p j : Nat) (x : Site) : (s.setSite p x).site j = if j = p then x else s.site j := tget_tput ..
@[simp] theorem State.modSite_site (p j : Nat) (f : Site → Site) : (s.modSite p f).site j = if j = p then f (s.site p) else s.site j := tget_tput ..
@[simp] theorem State.setChan_chan (c j : Nat) (x : Chan) : (s.setChan c x).chan j = if j = c then x else s.chan j := tget_tput ..
@[simp] theorem State.modChan_chan (c j : Nat) (f : Chan → Chan) : (s.modChan c f).chan j = if j = c then f (s.chan c) else s.chan j := tget_tput ..
@[simp] theorem State.setPort_port (p j : Nat) (x : Port) : (s.setPort p x).port j = if j = p then x else s.port j := tget_tput ..
@[simp] theorem State.modPort_port (p j : Nat) (f : Port → Port) : (s.modPort p f).port j = if j = p then f (s.port p) else s.port j := tget_tput ..
@[simp] theorem State.setCtx_ctx (c j : Nat) (x : Ctx) : (s.setCtx c x).ctx j = if j = c then x else s.ctx j := tget_tput ..
@[simp] theorem State.modCtx_ctx (c j : Nat) (f : Ctx → Ctx) : (s.modCtx c f).ctx j = if j = c then f (s.ctx c) else s.ctx j := tget_tput ..
@[simp] theorem State.setPart_partn (p j : Nat) (x : Part) : (s.setPart p x).partn j = if j = p then x else s.partn j := tget_tput ..
@[simp] theorem State.modPart_partn (p j : Nat) (f : Part → Part) : (s.modPart p f).partn j = if j = p then f (s.partn p) else s.partn j := tget_tput ..
@[simp] theorem State.modWin_win (w j : Nat) (f : Win → Win) : (s.modWin w f).win j = if j = w then f (s.win w) else s.win j := tget_tput ..
@[simp] theorem State.modCas_cas (n j : Nat) (f : CasPort → CasPort) : (s.modCas n f).cas j = if j = n then f (s.cas n) else s.cas j := tget_tput ..
@[simp] theorem State.setPort_ctx (p j : Nat) (x : Port) : (s.setPort p x).ctx j = s.ctx j := rfl
@[simp] theorem State.modPort_ctx (p j : Nat) (f : Port → Port) : (s.modPort p f).ctx j = s.ctx j := rfl
@[simp] theorem State.setPort_win (p j : Nat) (x : Port) : (s.setPort p x).win j = s.win j := rfl
@[simp] theorem State.modPort_win (p j : Nat) (f : Port → Port) : (s.modPort p f).win j = s.win j := rfl
@[simp] theorem State.setCtx_port (c j : Nat) (x : Ctx) : (s.setCtx c x).port j = s.port j := rfl
@[simp] theorem State.modCtx_port (c j : Nat) (f : Ctx → Ctx) : (s.modCtx c f).port j = s.port j := rfl
@[simp] theorem State.setCtx_win (c j : Nat) (x : Ctx) : (s.setCtx c x).win j = s.win j := rfl
@[simp] theorem State.modCtx_win (c j : Nat) (f : Ctx → Ctx) : (s.modCtx c f).win j = s.win j := rfl
@[simp] theorem State.modWin_port (w j : Nat) (f : Win → Win) : (s.modWin w f).port j = s.port j := rfl
@[simp] theorem State.modWin_ctx (w j : Nat) (f : Win → Win) : (s.modWin w f).ctx j = s.ctx j := rfl
@[simp] theorem State.modRick_rick (f : Rick → Rick) : (s.modRick f).rick = f s.rick := rfl
@[simp] theorem State.modFab_fab (f : Fabric → Fabric) : (s.modFab f).fab = f s.fab := rfl
@[simp] theorem State.modClk_clk (f : Clk → Clk) : (s.modClk f).clk = f s.clk := rfl
@[simp] theorem State.modPwr_pwr (f : Pwr → Pwr) : (s.modPwr f).pwr = f s.pwr := rfl
@[simp] theorem State.modCap_cap (f : Cap → Cap) : (s.modCap f).cap = f s.cap := rfl
@[simp] theorem State.modSpi_spi (f : Spi → Spi) : (s.modSpi f).spi = f s.spi := rfl
@[simp] theorem State.modHlt_hlt (f : Hlt → Hlt) : (s.modHlt f).hlt = f s.hlt := rfl
@[simp] theorem State.modSes_ses (f : Ses → Ses) : (s.modSes f).ses = f s.ses := rfl
@[simp] theorem State.modMtr_mtr (f : Mtr → Mtr) : (s.modMtr f).mtr = f s.mtr := rfl
@[simp] theorem State.modDbg_dbg (f : Dbg → Dbg) : (s.modDbg f).dbg = f s.dbg := rfl
@[simp] theorem State.modHost_host (f : HostIf → HostIf) : (s.modHost f).host = f s.host := rfl
@[simp] theorem State.spend_freeN : s.spend.freeN = s.freeN + 1 := rfl

/-! ### Parts of a tile -/

@[simp] theorem Tile.setCore_core (t : Tile) (c j : Nat) (x : Core) : (t.setCore c x).core j = if j = c then x else t.core j := tget_tput ..
@[simp] theorem Tile.modCore_core (t : Tile) (c j : Nat) (f : Core → Core) : (t.modCore c f).core j = if j = c then f (t.core c) else t.core j := tget_tput ..
@[simp] theorem Tile.setCtr_ctr (t : Tile) (k j : Nat) (x : Ctr) : (t.setCtr k x).ctr j = if j = k then x else t.ctr j := tget_tput ..
@[simp] theorem Tile.setList_list (t : Tile) (l j : Nat) (x : ListPort) : (t.setList l x).list j = if j = l then x else t.list j := tget_tput ..
@[simp] theorem Tile.setTrk_trk (t : Tile) (k j : Nat) (x : Trk) : (t.setTrk k x).trk j = if j = k then x else t.trk j := tget_tput ..

end Sys2Proof.Machine
end

