-- ==== Sys2Proof/Tests/Slice0.lean ====
section
/-! SUPPORT. Tests: a panel in service with what each test adds to it; ill-formed commands that the checks of WellFormed refuse; for every statement a state and
operands that meet its hypotheses; and single steps with results worked out from the manual. -/

set_option linter.all false

open Sys2Proof Sys2Proof.Machine Sys2Proof.Safety

namespace Sys2Proof.Tests

/-! ### States to start from -/

/-- A host port whose link is up. -/
def portUp : Port := { link := true, cutLink := false, downSeen := false, width := 16 }
/-- A panel in service: powered, READY, port 0 up with a session of 10 minutes. -/
def up : State :=
  { State.reset with
    time := 5000
    pwr := { powered := true, convOn := true, vin := 48000 }
    spi := { stage := .ready }
    host := { ports := [(0, portUp)] }
    ses := { ents := [(0, some { port := 0, slot := 0, prov := false, minutes := 10, opened := 0 })] } }
/-- The context of the tests: the highest number, ACTIVE, in partition 3 through port 0. -/
def ctxUp : Ctx := { st := .active, epoch := 9, cfg := { part := 3, cqLog2 := 8, sqLog2 := 8 } }
/-- Physical site 255, which serves the highest tiles, ACTIVE in partition 3. -/
def siteUp : Site := { st := .active, part := some 3 }
/-- A panel in service with that context and site. -/
def busy (x : Ctx) (p : Site) : State := { up with sites := [(255, p)], host := { up.host with ctxs := [(3071, x)] } }
/-- With that tile, the highest. -/
def withTile (T : Tile) : State := { busy ctxUp siteUp with tiles := [(32767, T)] }
/-- Core 0 runs a program of one instruction at the start of its scratch. -/
def coreUp : Core := { st := .run, ctxv := true, part := 3, epoch := 9, ctx := 3071 }
def withCore (k : Core) (w : Nat) : State := withTile { cores := [(0, k)], scr := memPutWord [] 0 4 w }
/-- An engine command with its words. -/
def engCmd (w0 w1 w2 : W64) : EngCmd := { w0, w1, w2, w3 := 0, core := 0, ctx := 3071, mode := 0, audn := 0 }
/-- No physical fault strikes an engine command. -/
def noHw : EngHw := { first := none, retry := none, corrected := 0 }
def withEng (e : Engine) : State := withTile { eng := e }
/-- A packet of the context of the tests. -/
def pkt (opc : Opc) (dest : W64) (payload : List Byte) : Packet :=
  { opc, last := true, dctr := 63, spart := 3, epoch := 9, ctx := 3071, seq := 1, len := 8, dest, src := 0, total := 2, status := 0, hops := 0, payload }
/-- The packet alone in flight, at its goal. -/
def withPkt (T : Tile) (f : Flight) : State := { withTile T with fab := { flights := [f] } }
def toTile (p : Packet) : Flight := { pkt := p, goal := .tile 32767, place := .dest 255, escape := false, fill := none }
/-- A panel in service with one site at the last physical position. -/
def withSite (p : Site) : State := { up with sites := [(271, p)] }
/-- A word 0 of a descriptor with its opcode. -/
def desc (opc : Nat) (ws : List W64) : Desc := { n := 0, ws := BitVec.ofNat 64 (opc * 2 ^ 56) :: ws }
/-- The context with one descriptor fetched. -/
def withDesc (d : Desc) : State := busy { ctxUp with ready := [d], asked := 1 } siteUp

/-- A bring-up in which nothing fails. -/
def bring : BringUpEnv :=
  { vin := 44000, strapRecov := false, strapProv := false, flashAlive := true, svaReads := true, svbChecks := true, refA := true, refB := true, foundBad := [],
    suspects := [], baseFails := [], coreFails := [], nodeFails := [], convFails := [], linksDown := [], wires := [], dimms := [] }
/-- A partition that stands, with the staging set that made it. -/
def partUp : Part := { st := .defined, stage := { sc := 15, sr := 15, count := 1, first := 3071 }, cur := { sc := 15, sr := 15, count := 1, first := 3071 } }
/-- A link of the highest router of the highest site. -/
def lastLink : LinkId := { site := 271, row := 7, pos := 16, face := .west }
/-- A packet at the highest router of site 255. -/
def atRouter (p : Packet) : Flight := { pkt := p, goal := .tile 32767, place := .router 255 7 16, escape := false, fill := none }
/-- A cascade port that is up. -/
def portIn : CasPort := { st := 2, lastSeq := 0xFF }
def withCas (x : CasPort) : State := { up with rick := { ports := [(31, x)] } }

/-! ### Ill-formed commands -/

theorem test_wf_tile : Instr.wf (.nop 32768) = false ∧ Instr.wf (.nop 32767) = true := by decide
theorem test_wf_core : Instr.wf (.ecallExit 0 4) = false ∧ Instr.wf (.ecallExit 0 3) = true := by decide
theorem test_wf_port : Instr.wf (.halt 4) = false ∧ Instr.wf (.halt 3) = true := by decide
theorem test_wf_site : Instr.wf (.softStart 272) = false ∧ Instr.wf (.softStart 271) = true := by decide
theorem test_wf_context : Instr.wf (.copy 3072) = false ∧ Instr.wf (.copy 3071) = true := by decide
theorem test_wf_partition : Instr.wf (.deleteDone 16) = false ∧ Instr.wf (.deleteDone 15) = true := by decide
theorem test_wf_channel : Instr.wf (.ddrChannelDown 32) = false ∧ Instr.wf (.ddrChannelDown 31) = true := by decide
theorem test_wf_panel : Instr.wf (.rickAnnounce 64 0 ⟨0, []⟩) = false ∧ Instr.wf (.rickAnnounce 63 0 ⟨0, []⟩) = true := by decide
theorem test_wf_entry : Instr.wf (.sessionDeadline 4) = false ∧ Instr.wf (.sessionDeadline 3) = true := by decide
theorem test_wf_edge : Instr.wf (.edgeHoldoverExpiry 63) = false ∧ Instr.wf (.edgeHoldoverExpiry 8) = true := by decide
theorem test_wf_input : Instr.wf (.clkRefLoss 3) = false ∧ Instr.wf (.clkRefLoss 0x18) = false ∧ Instr.wf (.clkRefLoss 0x17) = true := by decide
theorem test_wf_vector : Instr.wf (.msixUnmask 0 2048 0) = false ∧ Instr.wf (.msixUnmask 0 2047 0) = true := by decide
theorem test_wf_pcie_edge : Instr.wf (.edgeTrackerTimeout 2 0) = false ∧ Instr.wf (.edgeTrackerTimeout 1 0) = true := by decide
theorem test_wf_cascade_port : Instr.wf (.replayTimeout 32) = false ∧ Instr.wf (.replayTimeout 31) = true := by decide
theorem test_wf_tracker : Instr.wf (.trackerReuse 0 32) = false ∧ Instr.wf (.trackerReuse 0 31) = true := by decide
theorem test_wf_step : Instr.wf (.stepChange 0 16) = false ∧ Instr.wf (.stepChange 0 15) = true := by decide
theorem test_wf_break_even : Instr.wf (.prtBevWrite 0 8 0) = false ∧ Instr.wf (.prtBevWrite 0 7 0) = true := by decide
theorem test_wf_route : Instr.wf (.routeEntryRewrite 0 384) = false ∧ Instr.wf (.routeEntryRewrite 0 383) = true := by decide
theorem test_wf_wires : Instr.wf (.seamRetrain { lastLink with pos := 17 } []) = false ∧ Instr.wf (.seamRetrain lastLink [64]) = true := by decide
theorem test_wf_barrier : Instr.wf (.rickBarrierRelease 64 0) = false ∧ Instr.wf (.rickBarrierRelease 63 0) = true := by decide
theorem test_wf_update_result : Instr.wf (.updateDone ⟨1, false, false⟩) = false ∧ Instr.wf (.updateDone ⟨10, false, false⟩) = true := by decide
theorem test_wf_converter : Instr.wf (.converterFail 34) = false ∧ Instr.wf (.converterFail 33) = true := by decide
theorem test_wf_cell : Instr.wf (.cellCeilingRise 0 30) = false ∧ Instr.wf (.cellCeilingRise 0 29) = true := by decide
theorem test_wf_retest : Instr.wf (.confirmingRetestDone 34944 true) = false ∧ Instr.wf (.confirmingRetestDone 34943 true) = true := by decide
theorem test_wf_phase : Instr.wf (.phaseLost 0 12) = false ∧ Instr.wf (.phaseLost 0 11) = true := by decide
theorem test_wf_width : Instr.wf (.registerWrite 0 0 0 3 0) = false ∧ Instr.wf (.registerWrite 0 0 0 8 0) = true := by decide
theorem test_wf_bar : Instr.wf (.registerWrite 0 0 0x100000 4 0) = false ∧ Instr.wf (.registerWrite 0 2 0xFFFFF8 8 0) = true := by decide
theorem test_wf_link : Instr.wf (.linkUp ⟨{ lastLink with row := 8 }, []⟩) = false ∧ Instr.wf (.linkUp ⟨lastLink, []⟩) = true := by decide

/-! ### Every hypothesis of the statements is met: one state and operands for each clause -/

theorem witness_StepIdles :
    (∃ (s : State), s.pending = []) ∧
    (∃ (s : State), s.pwr.powered = false) ∧
    (∃ (s : State), s.pwr.powered = true ∧ s.rick.holdNs = 0 ∧ s.rick.slew = 0) := by
  refine ⟨?_, ?_, ?_⟩
  · exact ⟨up, by (repeat' apply And.intro) <;> decide⟩
  · exact ⟨State.reset, by (repeat' apply And.intro) <;> decide⟩
  · exact ⟨up, by (repeat' apply And.intro) <;> decide⟩

theorem witness_QueueKept :
    ∃ (c : Instr) (rest : List Instr) (s u : State), s.pending = c :: rest ∧ step s = .next u := by
  exact ⟨.svHeartbeat, [.ready], { up with pending := [.svHeartbeat, .ready] }, _, ⟨rfl, rfl⟩⟩

theorem witness_FusesAndSealKept :
    (∃ (s u : State), step s = .next u) ∧
    (∃ (n : Nat) (s u : State), Host.Core.run Sys2Proof.core n s = .next u) := by
  refine ⟨?_, ?_⟩
  · exact ⟨{ up with pending := [.svHeartbeat] }, _, rfl⟩
  · exact ⟨2, { up with pending := [.svHeartbeat, .mtrSeal] }, _, rfl⟩

theorem witness_RvInstructionsComplete :
    (∃ (t c : Nat) (m : Bool) (s : State), t < 32768 ∧ coreRuns s t c = true) ∧
    (∃ (t c w len : Nat) (s : State), t < 32768 ∧ coreRuns s t c = true ∧ (s.tile t).fetch c = .ins w len ∧ xtOf w = none ∧ isExit (s.core t c) w = false ∧ iOp w = 0x37) ∧
    (∃ (t c w len : Nat) (s : State), t < 32768 ∧ coreRuns s t c = true ∧ (s.tile t).fetch c = .ins w len ∧ xtOf w = none ∧ isExit (s.core t c) w = false ∧ iOp w = 0x17) ∧
    (∃ (t c w len : Nat) (s : State), t < 32768 ∧ coreRuns s t c = true ∧ (s.tile t).fetch c = .ins w len ∧ xtOf w = none ∧ isExit (s.core t c) w = false ∧ iOp w = 0x6F) ∧
    (∃ (t c w len : Nat) (s : State), t < 32768 ∧ coreRuns s t c = true ∧ (s.tile t).fetch c = .ins w len ∧ xtOf w = none ∧ isExit (s.core t c) w = false ∧ iOp w = 0x67 ∧ iF3 w = 0) ∧
    (∃ (t c w len : Nat) (s : State), t < 32768 ∧ coreRuns s t c = true ∧ (s.tile t).fetch c = .ins w len ∧ xtOf w = none ∧ isExit (s.core t c) w = false ∧ iOp w = 0x63 ∧ iF3 w = 0) ∧
    (∃ (t c w len : Nat) (s : State), t < 32768 ∧ coreRuns s t c = true ∧ (s.tile t).fetch c = .ins w len ∧ xtOf w = none ∧ isExit (s.core t c) w = false ∧ iOp w = 0x63 ∧ iF3 w = 1) ∧
    (∃ (t c w len : Nat) (s : State), t < 32768 ∧ coreRuns s t c = true ∧ (s.tile t).fetch c = .ins w len ∧ xtOf w = none ∧ isExit (s.core t c) w = false ∧ iOp w = 0x63 ∧ iF3 w = 4) ∧
    (∃ (t c w len : Nat) (s : State), t < 32768 ∧ coreRuns s t c = true ∧ (s.tile t).fetch c = .ins w len ∧ xtOf w = none ∧ isExit (s.core t c) w = false ∧ iOp w = 0x63 ∧ iF3 w = 5) ∧
    (∃ (t c w len : Nat) (s : State), t < 32768 ∧ coreRuns s t c = true ∧ (s.tile t).fetch c = .ins w len ∧ xtOf w = none ∧ isExit (s.core t c) w = false ∧ iOp w = 0x63 ∧ iF3 w = 6) ∧
    (∃ (t c w len : Nat) (s : State), t < 32768 ∧ coreRuns s t c = true ∧ (s.tile t).fetch c = .ins w len ∧ xtOf w = none ∧ isExit (s.core t c) w = false ∧ iOp w = 0x63 ∧ iF3 w = 7) ∧
    (∃ (t c w len : Nat) (s : State), t < 32768 ∧ coreRuns s t c = true ∧ (s.tile t).fetch c = .ins w len ∧ xtOf w = none ∧ isExit (s.core t c) w = false ∧ iOp w = 0x13 ∧ iF3 w = 0) ∧
    (∃ (t c w len : Nat) (s : State), t < 32768 ∧ coreRuns s t c = true ∧ (s.tile t).fetch c = .ins w len ∧ xtOf w = none ∧ isExit (s.core t c) w = false ∧ iOp w = 0x13 ∧ iF3 w = 2) ∧
    (∃ (t c w len : Nat) (s : State), t < 32768 ∧ coreRuns s t c = true ∧ (s.tile t).fetch c = .ins w len ∧ xtOf w = none ∧ isExit (s.core t c) w = false ∧ iOp w = 0x13 ∧ iF3 w = 3) ∧
    (∃ (t c w len : Nat) (s : State), t < 32768 ∧ coreRuns s t c = true ∧ (s.tile t).fetch c = .ins w len ∧ xtOf w = none ∧ isExit (s.core t c) w = false ∧ iOp w = 0x13 ∧ iF3 w = 4) ∧
    (∃ (t c w len : Nat) (s : State), t < 32768 ∧ coreRuns s t c = true ∧ (s.tile t).fetch c = .ins w len ∧ xtOf w = none ∧ isExit (s.core t c) w = false ∧ iOp w = 0x13 ∧ iF3 w = 6) ∧
    (∃ (t c w len : Nat) (s : State), t < 32768 ∧ coreRuns s t c = true ∧ (s.tile t).fetch c = .ins w len ∧ xtOf w = none ∧ isExit (s.core t c) w = false ∧ iOp w = 0x13 ∧ iF3 w = 7) ∧
    (∃ (t c w len : Nat) (s : State), t < 32768 ∧ coreRuns s t c = true ∧ (s.tile t).fetch c = .ins w len ∧ xtOf w = none ∧ isExit (s.core t c) w = false ∧ iOp w = 0x13 ∧ iF3 w = 1 ∧ w / 2 ^ 26 = 0) ∧
    (∃ (t c w len : Nat) (s : State), t < 32768 ∧ coreRuns s t c = true ∧ (s.tile t).fetch c = .ins w len ∧ xtOf w = none ∧ isExit (s.core t c) w = false ∧ iOp w = 0x13 ∧ iF3 w = 5 ∧ w / 2 ^ 26 = 0) ∧
    (∃ (t c w len : Nat) (s : State), t < 32768 ∧ coreRuns s t c = true ∧ (s.tile t).fetch c = .ins w len ∧ xtOf w = none ∧ isExit (s.core t c) w = false ∧ iOp w = 0x13 ∧ iF3 w = 5 ∧ w / 2 ^ 26 = 16) ∧
    (∃ (t c w len : Nat) (s : State), t < 32768 ∧ coreRuns s t c = true ∧ (s.tile t).fetch c = .ins w len ∧ xtOf w = none ∧ isExit (s.core t c) w = false ∧ iOp w = 0x33 ∧ iF7 w = 0 ∧ iF3 w = 0) ∧
    (∃ (t c w len : Nat) (s : State), t < 32768 ∧ coreRuns s t c = true ∧ (s.tile t).fetch c = .ins w len ∧ xtOf w = none ∧ isExit (s.core t c) w = false ∧ iOp w = 0x33 ∧ iF7 w = 0 ∧ iF3 w = 1) ∧
    (∃ (t c w len : Nat) (s : State), t < 32768 ∧ coreRuns s t c = true ∧ (s.tile t).fetch c = .ins w len ∧ xtOf w = none ∧ isExit (s.core t c) w = false ∧ iOp w = 0x33 ∧ iF7 w = 0 ∧ iF3 w = 2) ∧
    (∃ (t c w len : Nat) (s : State), t < 32768 ∧ coreRuns s t c = true ∧ (s.tile t).fetch c = .ins w len ∧ xtOf w = none ∧ isExit (s.core t c) w = false ∧ iOp w = 0x33 ∧ iF7 w = 0 ∧ iF3 w = 3) ∧
    (∃ (t c w len : Nat) (s : State), t < 32768 ∧ coreRuns s t c = true ∧ (s.tile t).fetch c = .ins w len ∧ xtOf w = none ∧ isExit (s.core t c) w = false ∧ iOp w = 0x33 ∧ iF7 w = 0 ∧ iF3 w = 4) ∧
    (∃ (t c w len : Nat) (s : State), t < 32768 ∧ coreRuns s t c = true ∧ (s.tile t).fetch c = .ins w len ∧ xtOf w = none ∧ isExit (s.core t c) w = false ∧ iOp w = 0x33 ∧ iF7 w = 0 ∧ iF3 w = 5) ∧
    (∃ (t c w len : Nat) (s : State), t < 32768 ∧ coreRuns s t c = true ∧ (s.tile t).fetch c = .ins w len ∧ xtOf w = none ∧ isExit (s.core t c) w = false ∧ iOp w = 0x33 ∧ iF7 w = 0 ∧ iF3 w = 6) ∧
    (∃ (t c w len : Nat) (s : State), t < 32768 ∧ coreRuns s t c = true ∧ (s.tile t).fetch c = .ins w len ∧ xtOf w = none ∧ isExit (s.core t c) w = false ∧ iOp w = 0x33 ∧ iF7 w = 0 ∧ iF3 w = 7) ∧
    (∃ (t c w len : Nat) (s : State), t < 32768 ∧ coreRuns s t c = true ∧ (s.tile t).fetch c = .ins w len ∧ xtOf w = none ∧ isExit (s.core t c) w = false ∧ iOp w = 0x33 ∧ iF7 w = 0x20 ∧ iF3 w = 0) ∧
    (∃ (t c w len : Nat) (s : State), t < 32768 ∧ coreRuns s t c = true ∧ (s.tile t).fetch c = .ins w len ∧ xtOf w = none ∧ isExit (s.core t c) w = false ∧ iOp w = 0x33 ∧ iF7 w = 0x20 ∧ iF3 w = 5) ∧
    (∃ (t c w len : Nat) (s : State), t < 32768 ∧ coreRuns s t c = true ∧ (s.tile t).fetch c = .ins w len ∧ xtOf w = none ∧ isExit (s.core t c) w = false ∧ iOp w = 0x33 ∧ iF7 w = 1 ∧ iF3 w = 0) ∧
    (∃ (t c w len : Nat) (s : State), t < 32768 ∧ coreRuns s t c = true ∧ (s.tile t).fetch c = .ins w len ∧ xtOf w = none ∧ isExit (s.core t c) w = false ∧ iOp w = 0x33 ∧ iF7 w = 1 ∧ iF3 w = 3) ∧
    (∃ (t c w len : Nat) (s : State), t < 32768 ∧ coreRuns s t c = true ∧ (s.tile t).fetch c = .ins w len ∧ xtOf w = none ∧ isExit (s.core t c) w = false ∧ iOp w = 0x33 ∧ iF7 w = 1 ∧ iF3 w = 4) ∧
    (∃ (t c w len : Nat) (s : State), t < 32768 ∧ coreRuns s t c = true ∧ (s.tile t).fetch c = .ins w len ∧ xtOf w = none ∧ isExit (s.core t c) w = false ∧ iOp w = 0x33 ∧ iF7 w = 1 ∧ iF3 w = 5) ∧
    (∃ (t c w len : Nat) (s : State), t < 32768 ∧ coreRuns s t c = true ∧ (s.tile t).fetch c = .ins w len ∧ xtOf w = none ∧ isExit (s.core t c) w = false ∧ iOp w = 0x33 ∧ iF7 w = 1 ∧ iF3 w = 6) ∧
    (∃ (t c w len : Nat) (s : State), t < 32768 ∧ coreRuns s t c = true ∧ (s.tile t).fetch c = .ins w len ∧ xtOf w = none ∧ isExit (s.core t c) w = false ∧ iOp w = 0x33 ∧ iF7 w = 1 ∧ iF3 w = 7) ∧
    (∃ (t c w len : Nat) (s : State), t < 32768 ∧ coreRuns s t c = true ∧ (s.tile t).fetch c = .ins w len ∧ xtOf w = none ∧ isExit (s.core t c) w = false ∧ iOp w = 0x1B ∧ iF3 w = 0) ∧
    (∃ (t c w len : Nat) (s : State), t < 32768 ∧ coreRuns s t c = true ∧ (s.tile t).fetch c = .ins w len ∧ xtOf w = none ∧ isExit (s.core t c) w = false ∧ iOp w = 0x3B ∧ iF3 w = 0 ∧ iF7 w = 0) ∧
    (∃ (t c w len : Nat) (s : State), t < 32768 ∧ coreRuns s t c = true ∧ (s.tile t).fetch c = .ins w len ∧ xtOf w = none ∧ isExit (s.core t c) w = false ∧ iOp w = 0x3B ∧ iF3 w = 0 ∧ iF7 w = 0x20) ∧
    (∃ (t c w len : Nat) (s : State), t < 32768 ∧ coreRuns s t c = true ∧ (s.tile t).fetch c = .ins w len ∧ xtOf w = none ∧ isExit (s.core t c) w = false ∧ (iOp w = 0x0F ∧ iF3 w ≤ 1 ∨ w = 0x10500073)) ∧
    (∃ (t c w len : Nat) (s : State), t < 32768 ∧ coreRuns s t c = true ∧ (s.tile t).fetch c = .ins w len ∧ xtOf w = none ∧ isExit (s.core t c) w = false ∧ w = 0x73) ∧
    (∃ (t c w len : Nat) (s : State), t < 32768 ∧ coreRuns s t c = true ∧ (s.tile t).fetch c = .ins w len ∧ xtOf w = none ∧ isExit (s.core t c) w = false ∧ w = 0x100073) := by
  refine ⟨?_, ?_, ?_, ?_, ?_, ?_, ?_, ?_, ?_, ?_, ?_, ?_, ?_, ?_, ?_, ?_, ?_, ?_, ?_, ?_, ?_, ?_, ?_, ?_, ?_, ?_, ?_, ?_, ?_, ?_, ?_, ?_, ?_, ?_, ?_, ?_, ?_, ?_, ?_, ?_, ?_, ?_⟩
  · exact ⟨32767, 0, 0x12345fb7, withCore coreUp 0x12345fb7, by (repeat' apply And.intro) <;> decide⟩
  · exact ⟨32767, 0, 0x12345fb7, 4, withCore coreUp 0x12345fb7, by (repeat' apply And.intro) <;> decide⟩
  · exact ⟨32767, 0, 0x12345f97, 4, withCore coreUp 0x12345f97, by (repeat' apply And.intro) <;> decide⟩
  · exact ⟨32767, 0, 0x4000ef, 4, withCore coreUp 0x4000ef, by (repeat' apply And.intro) <;> decide⟩
  · exact ⟨32767, 0, 0xffc58fe7, 4, withCore coreUp 0xffc58fe7, by (repeat' apply And.intro) <;> decide⟩
  · exact ⟨32767, 0, 0xfeb58ee3, 4, withCore coreUp 0xfeb58ee3, by (repeat' apply And.intro) <;> decide⟩
  · exact ⟨32767, 0, 0xfeb59ee3, 4, withCore coreUp 0xfeb59ee3, by (repeat' apply And.intro) <;> decide⟩
  · exact ⟨32767, 0, 0xfeb5cee3, 4, withCore coreUp 0xfeb5cee3, by (repeat' apply And.intro) <;> decide⟩
  · exact ⟨32767, 0, 0xfeb5dee3, 4, withCore coreUp 0xfeb5dee3, by (repeat' apply And.intro) <;> decide⟩
  · exact ⟨32767, 0, 0xfeb5eee3, 4, withCore coreUp 0xfeb5eee3, by (repeat' apply And.intro) <;> decide⟩
  · exact ⟨32767, 0, 0xfeb5fee3, 4, withCore coreUp 0xfeb5fee3, by (repeat' apply And.intro) <;> decide⟩
  · exact ⟨32767, 0, 0xfff58f93, 4, withCore coreUp 0xfff58f93, by (repeat' apply And.intro) <;> decide⟩
  · exact ⟨32767, 0, 0xfff5af93, 4, withCore coreUp 0xfff5af93, by (repeat' apply And.intro) <;> decide⟩
  · exact ⟨32767, 0, 0xfff5bf93, 4, withCore coreUp 0xfff5bf93, by (repeat' apply And.intro) <;> decide⟩
  · exact ⟨32767, 0, 0xfff5cf93, 4, withCore coreUp 0xfff5cf93, by (repeat' apply And.intro) <;> decide⟩
  · exact ⟨32767, 0, 0xfff5ef93, 4, withCore coreUp 0xfff5ef93, by (repeat' apply And.intro) <;> decide⟩
  · exact ⟨32767, 0, 0xfff5ff93, 4, withCore coreUp 0xfff5ff93, by (repeat' apply And.intro) <;> decide⟩
  · exact ⟨32767, 0, 0x3f59f93, 4, withCore coreUp 0x3f59f93, by (repeat' apply And.intro) <;> decide⟩
  · exact ⟨32767, 0, 0x3f5df93, 4, withCore coreUp 0x3f5df93, by (repeat' apply And.intro) <;> decide⟩
  · exact ⟨32767, 0, 0x43f5df93, 4, withCore coreUp 0x43f5df93, by (repeat' apply And.intro) <;> decide⟩
  · exact ⟨32767, 0, 0xc58fb3, 4, withCore coreUp 0xc58fb3, by (repeat' apply And.intro) <;> decide⟩
  · exact ⟨32767, 0, 0xc59fb3, 4, withCore coreUp 0xc59fb3, by (repeat' apply And.intro) <;> decide⟩
  · exact ⟨32767, 0, 0xc5afb3, 4, withCore coreUp 0xc5afb3, by (repeat' apply And.intro) <;> decide⟩
  · exact ⟨32767, 0, 0xc5bfb3, 4, withCore coreUp 0xc5bfb3, by (repeat' apply And.intro) <;> decide⟩
  · exact ⟨32767, 0, 0xc5cfb3, 4, withCore coreUp 0xc5cfb3, by (repeat' apply And.intro) <;> decide⟩
  · exact ⟨32767, 0, 0xc5dfb3, 4, withCore coreUp 0xc5dfb3, by (repeat' apply And.intro) <;> decide⟩
  · exact ⟨32767, 0, 0xc5efb3, 4, withCore coreUp 0xc5efb3, by (repeat' apply And.intro) <;> decide⟩
  · exact ⟨32767, 0, 0xc5ffb3, 4, withCore coreUp 0xc5ffb3, by (repeat' apply And.intro) <;> decide⟩
  · exact ⟨32767, 0, 0x40c58fb3, 4, withCore coreUp 0x40c58fb3, by (repeat' apply And.intro) <;> decide⟩
  · exact ⟨32767, 0, 0x40c5dfb3, 4, withCore coreUp 0x40c5dfb3, by (repeat' apply And.intro) <;> decide⟩
  · exact ⟨32767, 0, 0x2c58fb3, 4, withCore coreUp 0x2c58fb3, by (repeat' apply And.intro) <;> decide⟩
  · exact ⟨32767, 0, 0x2c5bfb3, 4, withCore coreUp 0x2c5bfb3, by (repeat' apply And.intro) <;> decide⟩
  · exact ⟨32767, 0, 0x2c5cfb3, 4, withCore coreUp 0x2c5cfb3, by (repeat' apply And.intro) <;> decide⟩
  · exact ⟨32767, 0, 0x2c5dfb3, 4, withCore coreUp 0x2c5dfb3, by (repeat' apply And.intro) <;> decide⟩
  · exact ⟨32767, 0, 0x2c5efb3, 4, withCore coreUp 0x2c5efb3, by (repeat' apply And.intro) <;> decide⟩
  · exact ⟨32767, 0, 0x2c5ffb3, 4, withCore coreUp 0x2c5ffb3, by (repeat' apply And.intro) <;> decide⟩
  · exact ⟨32767, 0, 0xfff58f9b, 4, withCore coreUp 0xfff58f9b, by (repeat' apply And.intro) <;> decide⟩
  · exact ⟨32767, 0, 0xc58fbb, 4, withCore coreUp 0xc58fbb, by (repeat' apply And.intro) <;> decide⟩
  · exact ⟨32767, 0, 0x40c58fbb, 4, withCore coreUp 0x40c58fbb, by (repeat' apply And.intro) <;> decide⟩
  · exact ⟨32767, 0, 0xff0000f, 4, withCore coreUp 0xff0000f, by (repeat' apply And.intro) <;> decide⟩
  · exact ⟨32767, 0, 0x73, 4, withCore { coreUp with x := [(17, 1)] } 0x73, by (repeat' apply And.intro) <;> decide⟩
  · exact ⟨32767, 0, 0x100073, 4, withCore coreUp 0x100073, by (repeat' apply And.intro) <;> decide⟩

theorem witness_RvInstructionsComplete_memory :
    (∃ (t c w len : Nat) (s : State), t < 32768 ∧ coreRuns s t c = true ∧ (s.tile t).fetch c = .ins w len ∧ xtOf w = none ∧ iOp w = 0x03 ∧ iF3 w = 0) ∧
    (∃ (t c w len : Nat) (s : State), t < 32768 ∧ coreRuns s t c = true ∧ (s.tile t).fetch c = .ins w len ∧ xtOf w = none ∧ iOp w = 0x03 ∧ iF3 w = 1) ∧
    (∃ (t c w len : Nat) (s : State), t < 32768 ∧ coreRuns s t c = true ∧ (s.tile t).fetch c = .ins w len ∧ xtOf w = none ∧ iOp w = 0x03 ∧ iF3 w = 2) ∧
    (∃ (t c w len : Nat) (s : State), t < 32768 ∧ coreRuns s t c = true ∧ (s.tile t).fetch c = .ins w len ∧ xtOf w = none ∧ iOp w = 0x03 ∧ iF3 w = 3) ∧
    (∃ (t c w len : Nat) (s : State), t < 32768 ∧ coreRuns s t c = true ∧ (s.tile t).fetch c = .ins w len ∧ xtOf w = none ∧ iOp w = 0x03 ∧ iF3 w = 4) ∧
    (∃ (t c w len : Nat) (s : State), t < 32768 ∧ coreRuns s t c = true ∧ (s.tile t).fetch c = .ins w len ∧ xtOf w = none ∧ iOp w = 0x03 ∧ iF3 w = 5) ∧
    (∃ (t c w len : Nat) (s : State), t < 32768 ∧ coreRuns s t c = true ∧ (s.tile t).fetch c = .ins w len ∧ xtOf w = none ∧ iOp w = 0x03 ∧ iF3 w = 6) ∧
    (∃ (t c w len : Nat) (s : State), t < 32768 ∧ coreRuns s t c = true ∧ (s.tile t).fetch c = .ins w len ∧ xtOf w = none ∧ iOp w = 0x23 ∧ iF3 w = 0) ∧
    (∃ (t c w len : Nat) (s : State), t < 32768 ∧ coreRuns s t c = true ∧ (s.tile t).fetch c = .ins w len ∧ xtOf w = none ∧ iOp w = 0x23 ∧ iF3 w = 1) ∧
    (∃ (t c w len : Nat) (s : State), t < 32768 ∧ coreRuns s t c = true ∧ (s.tile t).fetch c = .ins w len ∧ xtOf w = none ∧ iOp w = 0x23 ∧ iF3 w = 2) ∧
    (∃ (t c w len : Nat) (s : State), t < 32768 ∧ coreRuns s t c = true ∧ (s.tile t).fetch c = .ins w len ∧ xtOf w = none ∧ iOp w = 0x23 ∧ iF3 w = 3) := by
  refine ⟨?_, ?_, ?_, ?_, ?_, ?_, ?_, ?_, ?_, ?_, ?_⟩
  · exact ⟨32767, 0, 0x858f83, 4, withCore coreUp 0x858f83, by (repeat' apply And.intro) <;> decide⟩
  · exact ⟨32767, 0, 0x859f83, 4, withCore coreUp 0x859f83, by (repeat' apply And.intro) <;> decide⟩
  · exact ⟨32767, 0, 0x85af83, 4, withCore coreUp 0x85af83, by (repeat' apply And.intro) <;> decide⟩
  · exact ⟨32767, 0, 0x85bf83, 4, withCore coreUp 0x85bf83, by (repeat' apply And.intro) <;> decide⟩
  · exact ⟨32767, 0, 0x85cf83, 4, withCore coreUp 0x85cf83, by (repeat' apply And.intro) <;> decide⟩
  · exact ⟨32767, 0, 0x85df83, 4, withCore coreUp 0x85df83, by (repeat' apply And.intro) <;> decide⟩
  · exact ⟨32767, 0, 0x85ef83, 4, withCore coreUp 0x85ef83, by (repeat' apply And.intro) <;> decide⟩
  · exact ⟨32767, 0, 0xc58423, 4, withCore coreUp 0xc58423, by (repeat' apply And.intro) <;> decide⟩
  · exact ⟨32767, 0, 0xc59423, 4, withCore coreUp 0xc59423, by (repeat' apply And.intro) <;> decide⟩
  · exact ⟨32767, 0, 0xc5a423, 4, withCore coreUp 0xc5a423, by (repeat' apply And.intro) <;> decide⟩
  · exact ⟨32767, 0, 0xc5b423, 4, withCore coreUp 0xc5b423, by (repeat' apply And.intro) <;> decide⟩

theorem witness_RvInstructionsComplete_zones :
    (∃ (t c w len : Nat) (s : State), t < 32768 ∧ coreRuns s t c = true ∧ (s.tile t).fetch c = .ins w len ∧ xtOf w = none ∧ iOp w = 0x03 ∧ ((s.core t c).getX (iRs1 w) + immI w).toNat % 2 ≠ 0) ∧
    (∃ (t c w len : Nat) (s : State), t < 32768 ∧ coreRuns s t c = true ∧ (s.tile t).fetch c = .ins w len ∧ xtOf w = none ∧ iOp w = 0x03 ∧ ((s.core t c).getX (iRs1 w) + immI w).toNat % 8 = 0 ∧ ((s.fetched t c len).tile t).badAt ((s.core t c).getX (iRs1 w) + immI w).toNat = false ∧ zoneOf ((s.fetched t c len).tile t).guarded ((s.core t c).getX (iRs1 w) + immI w).toNat = .scratch ∧ ((s.fetched t c len).tile t).pairDiffers ((s.core t c).getX (iRs1 w) + immI w).toNat 8 = true) ∧
    (∃ (t c w len : Nat) (s : State), t < 32768 ∧ coreRuns s t c = true ∧ (s.tile t).fetch c = .ins w len ∧ xtOf w = none ∧ iOp w = 0x03 ∧ ((s.core t c).getX (iRs1 w) + immI w).toNat % 8 = 0 ∧ ((s.fetched t c len).tile t).badAt ((s.core t c).getX (iRs1 w) + immI w).toNat = false ∧ zoneOf ((s.fetched t c len).tile t).guarded ((s.core t c).getX (iRs1 w) + immI w).toNat = .scratch ∧ ((s.fetched t c len).tile t).pairDiffers ((s.core t c).getX (iRs1 w) + immI w).toNat 8 = false) ∧
    (∃ (t c w len : Nat) (s : State), t < 32768 ∧ coreRuns s t c = true ∧ (s.tile t).fetch c = .ins w len ∧ xtOf w = none ∧ iOp w = 0x03 ∧ ((s.core t c).getX (iRs1 w) + immI w).toNat % 8 = 0 ∧ ((s.fetched t c len).tile t).badAt ((s.core t c).getX (iRs1 w) + immI w).toNat = false ∧ zoneOf ((s.fetched t c len).tile t).guarded ((s.core t c).getX (iRs1 w) + immI w).toNat = .sram) ∧
    (∃ (t c w len : Nat) (s : State), t < 32768 ∧ coreRuns s t c = true ∧ (s.tile t).fetch c = .ins w len ∧ xtOf w = none ∧ iOp w = 0x23 ∧ ((s.core t c).getX (iRs1 w) + immS w).toNat % 8 ≠ 0) ∧
    (∃ (t c w len : Nat) (s : State), t < 32768 ∧ coreRuns s t c = true ∧ (s.tile t).fetch c = .ins w len ∧ xtOf w = none ∧ iOp w = 0x23 ∧ ((s.core t c).getX (iRs1 w) + immS w).toNat % 8 = 0 ∧ ((s.fetched t c len).tile t).badAt ((s.core t c).getX (iRs1 w) + immS w).toNat = false ∧ zoneOf ((s.fetched t c len).tile t).guarded ((s.core t c).getX (iRs1 w) + immS w).toNat = .scratch ∧ ((s.fetched t c len).tile t).badCopy ((s.core t c).getX (iRs1 w) + immS w).toNat = false) ∧
    (∃ (t c w len : Nat) (s : State), t < 32768 ∧ coreRuns s t c = true ∧ (s.tile t).fetch c = .ins w len ∧ xtOf w = none ∧ iOp w = 0x23 ∧ ((s.core t c).getX (iRs1 w) + immS w).toNat % 8 = 0 ∧ ((s.fetched t c len).tile t).badAt ((s.core t c).getX (iRs1 w) + immS w).toNat = false ∧ zoneOf ((s.fetched t c len).tile t).guarded ((s.core t c).getX (iRs1 w) + immS w).toNat = .sram) := by
  refine ⟨?_, ?_, ?_, ?_, ?_, ?_, ?_⟩
  · exact ⟨32767, 0, 0x959f83, 4, withCore coreUp 0x959f83, by (repeat' apply And.intro) <;> decide⟩
  · exact ⟨32767, 0, 0x85bf83, 4, withTile { cores := [(0, coreUp)], scr := memPutWord [] 0 4 0x85bf83, scrCopy := memPutWord (memPutWord [] 0 4 0x85bf83) 8 1 1, guarded := true }, by (repeat' apply And.intro) <;> decide⟩
  · exact ⟨32767, 0, 0x85bf83, 4, withCore coreUp 0x85bf83, by (repeat' apply And.intro) <;> decide⟩
  · exact ⟨32767, 0, 0x85bf83, 4, withCore { coreUp with x := [(11, 0x117FFF0)] } 0x85bf83, by (repeat' apply And.intro) <;> decide⟩
  · exact ⟨32767, 0, 0xc5b423, 4, withCore { coreUp with x := [(11, 1)] } 0xc5b423, by (repeat' apply And.intro) <;> decide⟩
  · exact ⟨32767, 0, 0xc5b423, 4, withCore coreUp 0xc5b423, by (repeat' apply And.intro) <;> decide⟩
  · exact ⟨32767, 0, 0xc5b423, 4, withCore { coreUp with x := [(11, 0x117FFF0)] } 0xc5b423, by (repeat' apply And.intro) <;> decide⟩

theorem witness_ProgramsComplete :
    (∃ (t c len : Nat) (s : State), t < 32768 ∧ coreRuns s t c = true ∧ (s.tile t).fetch c = .ins 0x73 len ∧ (s.core t c).getX 17 = 0) ∧
    (∃ (t c : Nat) (s : State), t < 32768 ∧ c < 4 ∧ s.runs t = true ∧ (s.core t c).st = .run ∧ (s.core t c).ending = true ∧ (s.core t c).tq = [] ∧ (s.core t c).launch = none) ∧
    (∃ (t c : Nat) (s : State) (n : _), t < 32768 ∧ c < 4 ∧ s.runs t = true ∧ (s.core t c).st = .run ∧ (s.core t c).ending = true ∧ (s.core t c).tq = [] ∧ (s.core t c).launch = some n) := by
  refine ⟨?_, ?_, ?_⟩
  · exact ⟨32767, 0, 4, withCore coreUp 0x73, by (repeat' apply And.intro) <;> decide⟩
  · exact ⟨32767, 0, withCore { coreUp with ending := true } 0x73, by (repeat' apply And.intro) <;> decide⟩
  · exact ⟨32767, 0, withCore { coreUp with ending := true, launch := some 1 } 0x73, 1, by (repeat' apply And.intro) <;> decide⟩

theorem witness_ProgramsComplete_events :
    (∃ (t c w : Nat) (s : State), XtAt s t c .evt w ∧ (s.core t c).evt = none) ∧
    (∃ (t c w : Nat) (s : State), XtAt s t c .evt w ∧ (s.core t c).evt ≠ none) ∧
    (∃ (t c w : Nat) (s : State) (e' : _), XtAt s t c .evt w ∧ (s.core t c).evt = some e') := by
  refine ⟨?_, ?_, ?_⟩
  · exact ⟨32767, 0, 0xc5a00b, withCore coreUp 0xc5a00b, by (repeat' apply And.intro) <;> decide⟩
  · exact ⟨32767, 0, 0xc5a00b, withCore { coreUp with evt := some default } 0xc5a00b, by (repeat' apply And.intro) <;> decide⟩
  · exact ⟨32767, 0, 0xc5a00b, withCore { coreUp with evt := some default } 0xc5a00b, default, by (repeat' apply And.intro) <;> decide⟩

theorem witness_TransfersQueue :
    (∃ (t c w : Nat) (s : State) (put : Bool), XtAt s t c (if put then .put else .get) w ∧ (s.core t c).tq.length < 4 ∧ localOk (s.tile t).guarded (transferOf put (s.core t c) w).local_ (transferOf put (s.core t c) w).left = true) ∧
    (∃ (t c w : Nat) (s : State) (put : Bool), XtAt s t c (if put then .put else .get) w ∧ 4 ≤ (s.core t c).tq.length) ∧
    (∃ (t c w : Nat) (s : State) (put : Bool), XtAt s t c (if put then .put else .get) w ∧ (s.core t c).tq.length < 4 ∧ localOk (s.tile t).guarded (transferOf put (s.core t c) w).local_ (transferOf put (s.core t c) w).left = false) := by
  refine ⟨?_, ?_, ?_⟩
  · exact ⟨32767, 0, 0x68c58fab, withCore { coreUp with x := [(11, 8), (12, 0x117FFF8), (13, 7)] } 0x68c58fab, true, by (repeat' apply And.intro) <;> decide⟩
  · exact ⟨32767, 0, 0x68c58fab, withCore { coreUp with tq := [default, default, default, default] } 0x68c58fab, true, by (repeat' apply And.intro) <;> decide⟩
  · exact ⟨32767, 0, 0x68c58fab, withCore { coreUp with x := [(11, 8), (12, 0x117FFFC), (13, 7)] } 0x68c58fab, true, by (repeat' apply And.intro) <;> decide⟩

theorem witness_ProbeCompletes :
    (∃ (t c w : Nat) (s : State), XtAt s t c .probe w ∧ (s.core t c).mode = 0) ∧
    (∃ (t c w : Nat) (s : State), XtAt s t c .probe w ∧ (s.core t c).mode ≠ 0 ∧ probeBad (s.tile t).sram ((s.core t c).getX (iRs1 w)) ((s.core t c).getX (iRs2 w)) ((s.core t c).getX (iRs3 w)) = true) ∧
    (∃ (t c w : Nat) (s : State), XtAt s t c .probe w ∧ (s.core t c).mode ≠ 0 ∧ probeBad (s.tile t).sram ((s.core t c).getX (iRs1 w)) ((s.core t c).getX (iRs2 w)) ((s.core t c).getX (iRs3 w)) = false ∧ probeReads (s.tile t).sram (s.tile t).badSram (probeOf ((s.core t c).getX (iRs1 w)) ((s.core t c).getX (iRs2 w)) ((s.core t c).getX (iRs3 w))) = none) := by
  refine ⟨?_, ?_, ?_⟩
  · exact ⟨32767, 0, 0x68c5afab, withCore coreUp 0x68c5afab, by (repeat' apply And.intro) <;> decide⟩
  · exact ⟨32767, 0, 0x68c5afab, withCore { coreUp with mode := 1 } 0x68c5afab, by (repeat' apply And.intro) <;> decide⟩
  · exact ⟨32767, 0, 0x68c5afab, withTile { cores := [(0, { coreUp with mode := 1, x := [(11, 0x80), (12, 0x10000017FFE0), (13, 0x3F00)] })], scr := memPutWord [] 0 4 0x68c5afab, sram := memPutWord (memPutWord [] 0x80 8 0x100010000) 0x1000 8 0x0500002000400000 }, by (repeat' apply And.intro) <;> decide⟩

theorem witness_EnqueueCompletes :
    (∃ (t c w : Nat) (s : State), XtAt s t c .enq w ∧ ((((s.tile t).core c).getX (iRs1 w)).toNat) % 32 = 0 ∧ localOk (s.tile t).guarded ((((s.tile t).core c).getX (iRs1 w)).toNat) 32 = true ∧ (s.tile t).localBad ((((s.tile t).core c).getX (iRs1 w)).toNat) 32 = none ∧ ((s.tile t).eng.halt = true ∨ (s.tile t).eng.queue.length < 16)) ∧
    (∃ (t c w : Nat) (s : State), XtAt s t c .enq w ∧ ((((s.tile t).core c).getX (iRs1 w)).toNat) % 32 = 0 ∧ localOk (s.tile t).guarded ((((s.tile t).core c).getX (iRs1 w)).toNat) 32 = true ∧ (s.tile t).eng.halt = false ∧ 16 ≤ (s.tile t).eng.queue.length) ∧
    (∃ (t c w : Nat) (s : State), XtAt s t c .enq w ∧ ((((s.tile t).core c).getX (iRs1 w)).toNat) % 32 ≠ 0) ∧
    (∃ (t c w : Nat) (s : State), XtAt s t c .enq w ∧ ((((s.tile t).core c).getX (iRs1 w)).toNat) % 32 = 0 ∧ localOk (s.tile t).guarded ((((s.tile t).core c).getX (iRs1 w)).toNat) 32 = false) := by
  refine ⟨?_, ?_, ?_, ?_⟩
  · exact ⟨32767, 0, 0x58f8b, withTile { cores := [(0, { coreUp with x := [(11, 0x117FFE0)] })], scr := memPutWord [] 0 4 0x58f8b, eng := { halt := true } }, by (repeat' apply And.intro) <;> decide⟩
  · exact ⟨32767, 0, 0x58f8b, withTile { cores := [(0, { coreUp with x := [(11, 0x117FFE0)] })], scr := memPutWord [] 0 4 0x58f8b, eng := { queue := List.replicate 16 default } }, by (repeat' apply And.intro) <;> decide⟩
  · exact ⟨32767, 0, 0x58f8b, withCore { coreUp with x := [(11, 0x117FFF0)] } 0x58f8b, by (repeat' apply And.intro) <;> decide⟩
  · exact ⟨32767, 0, 0x58f8b, withCore { coreUp with x := [(11, 0x2000000)] } 0x58f8b, by (repeat' apply And.intro) <;> decide⟩

theorem witness_CounterInstructions :
    (∃ (t c w : Nat) (s : State), XtAt s t c .cset w) ∧
    (∃ (t c w : Nat) (s : State), XtAt s t c .cadd w) ∧
    (∃ (t c w : Nat) (s : State), XtAt s t c .carm w) := by
  refine ⟨?_, ?_, ?_⟩
  · exact ⟨32767, 0, 0xc59f8b, withCore { coreUp with x := [(11, 63)] } 0xc59f8b, by (repeat' apply And.intro) <;> decide⟩
  · exact ⟨32767, 0, 0x2c59f8b, withCore { coreUp with x := [(11, 63)] } 0x2c59f8b, by (repeat' apply And.intro) <;> decide⟩
  · exact ⟨32767, 0, 0x4c59f8b, withCore { coreUp with x := [(11, 63)] } 0x4c59f8b, by (repeat' apply And.intro) <;> decide⟩

theorem witness_CounterWait :
    (∃ (t c w : Nat) (s : State), XtAt s t c .cwait w ∧ 0 ≤ (((s.tile t).ctr (((s.core t c).getX (iRs1 w)).toNat % 64)).value - ((s.tile t).ctr (((s.core t c).getX (iRs1 w)).toNat % 64)).target).toInt) ∧
    (∃ (t c w : Nat) (s : State), XtAt s t c .cwait w ∧ (((s.tile t).ctr (((s.core t c).getX (iRs1 w)).toNat % 64)).value - ((s.tile t).ctr (((s.core t c).getX (iRs1 w)).toNat % 64)).target).toInt < 0) ∧
    (∃ (t c i rd : Nat) (s : State), t < 32768 ∧ c < 4 ∧ s.runs t = true ∧ (s.core t c).st = .wait ∧ (s.core t c).waiting = some (i, rd) ∧ 0 ≤ (((s.tile t).ctr i).value - ((s.tile t).ctr i).target).toInt) := by
  refine ⟨?_, ?_, ?_⟩
  · exact ⟨32767, 0, 0x6059f8b, withCore { coreUp with x := [(11, 63)] } 0x6059f8b, by (repeat' apply And.intro) <;> decide⟩
  · exact ⟨32767, 0, 0x6059f8b, withTile { cores := [(0, { coreUp with x := [(11, 63)] })], scr := memPutWord [] 0 4 0x6059f8b, ctrs := [(63, { target := 1 })] }, by (repeat' apply And.intro) <;> decide⟩
  · exact ⟨32767, 3, 63, 31, withTile { cores := [(3, { coreUp with st := .wait, waiting := some (63, 31) })] }, by (repeat' apply And.intro) <;> decide⟩

theorem witness_TileTrafficCompletes :
    (∃ (t c : Nat) (x : Transfer) (s : State), t < 32768 ∧ s.runs t = true ∧ (s.tile t).nextIssue = some (c, x)) ∧
    (∃ (i : Nat) (m : StartMsg) (s : State), lget? s.fab.starts i = some m ∧ s.parksTile m.tile = false ∧ (s.tileSt m.tile).part = some m.part ∧ ((s.modFab fun f => { f with starts := ldel f.starts i }).tell (s.tilePhys m.tile) m.ctx).staleCtx (s.tilePhys m.tile) m.ctx m.epoch = false) ∧
    (∃ (i : Nat) (r : LoadReq) (s : State), lget? s.fab.loads i = some r ∧ s.parksTile r.tile = false ∧ (s.tileSt r.tile).part = some r.part ∧ ((s.modFab fun f => { f with loads := ldel f.loads i }).tell (s.tilePhys r.tile) r.ctx).staleCtx (s.tilePhys r.tile) r.ctx r.epoch = false ∧ (s.tileSt r.tile).st = .active ∧ (s.tile r.tile).st = .active ∧ (s.tile r.tile).ld.cur = none ∧ (s.tile r.tile).resetting = false) ∧
    (∃ (t st : Nat) (s : State), t < 32768 ∧ (s.tile t).loadEnds = some st) := by
  refine ⟨?_, ?_, ?_, ?_⟩
  · exact ⟨32767, 3, { put := true, remote := 8, local_ := 0, left := 8, ctr := 0, last := false, total := 0, lden := false, lctr := 0, pc := 0 }, withTile { cores := [(3, { coreUp with tq := [{ put := true, remote := 8, local_ := 0, left := 8, ctr := 0, last := false, total := 0, lden := false, lctr := 0, pc := 0 }] })] }, by (repeat' apply And.intro) <;> decide⟩
  · exact ⟨0, { tile := 32767, ctx := 3071, part := 3, epoch := 9, n := 0, arg := 0, cores := 8, detach := false, entry := 0, mode := 0, audn := 0, theta := 0 }, { withTile {} with fab := { starts := [{ tile := 32767, ctx := 3071, part := 3, epoch := 9, n := 0, arg := 0, cores := 8, detach := false, entry := 0, mode := 0, audn := 0, theta := 0 }] } }, by (repeat' apply And.intro) <;> decide⟩
  · exact ⟨0, { tile := 32767, ctx := 3071, part := 3, epoch := 9, n := 0, src := 0, scratch := true, cores := 8, sitelocal := false, doff := 0, len := 8, digest := [] }, { withTile {} with fab := { loads := [{ tile := 32767, ctx := 3071, part := 3, epoch := 9, n := 0, src := 0, scratch := true, cores := 8, sitelocal := false, doff := 0, len := 8, digest := [] }] } }, by (repeat' apply And.intro) <;> decide⟩
  · exact ⟨32767, 5, withTile { ld := { cur := some { tile := 32767, ctx := 3071, part := 3, epoch := 9, n := 0, src := 0, scratch := true, cores := 8, sitelocal := false, doff := 0, len := 8, digest := [] }, abort := true } }, by (repeat' apply And.intro) <;> decide⟩

theorem witness_EngineLoadsComplete :
    (∃ (t : Nat) (c : EngCmd) (hw : EngHw) (s : State), Heads s t hw.stream c 1 ∧ loadwFieldsBad c = true) ∧
    (∃ (t : Nat) (c : EngCmd) (hw : EngHw) (s : State), Heads s t hw.stream c 1 ∧ loadwFieldsBad c = false ∧ gateSkips (s.tile t) c = true) ∧
    (∃ (t : Nat) (c : EngCmd) (hw : EngHw) (s : State), Heads s t hw.stream c 1 ∧ loadwFieldsBad c = false ∧ gateSkips (s.tile t) c = false ∧ loadwBad (s.tile t).sram c = true) ∧
    (∃ (t : Nat) (c : EngCmd) (hw : EngHw) (s : State), Heads s t hw.stream c 1 ∧ loadwFieldsBad c = false ∧ gateSkips (s.tile t) c = false ∧ loadwBad (s.tile t).sram c = false ∧ ((s.tile t).eng.loader = [] ∧ (s.tile t).eng.array = [] ∧ (s.tile t).eng.packer = []) ∧ hw.first = none ∧ loadwCause (s.tile t).sram (s.tile t).badSram c (loadPanel (s.tile t).sram c) = none) ∧
    (∃ (t : Nat) (c : EngCmd) (hw : EngHw) (s : State), Heads s t hw.stream c 4 ∧ gateSkips (s.tile t) c = true) ∧
    (∃ (t : Nat) (c : EngCmd) (hw : EngHw) (s : State), Heads s t hw.stream c 4 ∧ gateSkips (s.tile t) c = false ∧ ((s.tile t).eng.loader = [] ∧ (s.tile t).eng.array = [] ∧ (s.tile t).eng.packer = []) ∧ hw.first = none) ∧
    (∃ (t : Nat) (c : EngCmd) (s : State), Heads s t .waits c 0 ∧ gateSkips (s.tile t) c = true) ∧
    (∃ (t : Nat) (c : EngCmd) (s : State), Heads s t .waits c 0 ∧ gateSkips (s.tile t) c = false) := by
  refine ⟨?_, ?_, ?_, ?_, ?_, ?_, ?_, ?_⟩
  · exact ⟨32767, (engCmd 0x1000000000000000 1 0), noHw, withTile { eng := { queue := [(engCmd 0x1000000000000000 1 0)] }, sram := [] }, ⟨⟨by decide, by decide, by decide, ⟨_, rfl⟩, by decide, by decide⟩, by decide +kernel⟩⟩
  · exact ⟨32767, (engCmd 0x1400000000000000 0x0017FFE000000000 0x0000000000200000), noHw, withTile { eng := { queue := [(engCmd 0x1400000000000000 0x0017FFE000000000 0x0000000000200000)] }, sram := [] }, by refine ⟨⟨by decide, by decide, by decide, ⟨_, rfl⟩, by decide, by decide⟩, ?_⟩; (repeat' apply And.intro) <;> decide +kernel⟩
  · exact ⟨32767, (engCmd 0x1000000000000000 0x0017FFE000000000 0x0000000000200000), noHw, withTile { eng := { queue := [(engCmd 0x1000000000000000 0x0017FFE000000000 0x0000000000200000)] }, sram := [] }, by refine ⟨⟨by decide, by decide, by decide, ⟨_, rfl⟩, by decide, by decide⟩, ?_⟩; (repeat' apply And.intro) <;> decide +kernel⟩
  · exact ⟨32767, (engCmd 0x1000000000000000 0x0017FFE000000000 0x0000000000200000), noHw, withTile { eng := { queue := [(engCmd 0x1000000000000000 0x0017FFE000000000 0x0000000000200000)] }, sram := memPutWord [] 0x17FFE0 8 0x100010000 }, by refine ⟨⟨by decide, by decide, by decide, ⟨_, rfl⟩, by decide, by decide⟩, ?_⟩; (repeat' apply And.intro) <;> decide +kernel⟩
  · exact ⟨32767, (engCmd 0x4400000000000000 0 0), noHw, withTile { eng := { queue := [(engCmd 0x4400000000000000 0 0)] }, sram := [] }, ⟨⟨by decide, by decide, by decide, ⟨_, rfl⟩, by decide, by decide⟩, by decide +kernel⟩⟩
  · exact ⟨32767, (engCmd 0x40000000000000FF 0 0), noHw, withTile { eng := { queue := [(engCmd 0x40000000000000FF 0 0)] }, sram := [] }, by refine ⟨⟨by decide, by decide, by decide, ⟨_, rfl⟩, by decide, by decide⟩, ?_⟩; (repeat' apply And.intro) <;> decide +kernel⟩
  · exact ⟨32767, (engCmd 0x0404000000000000 0 0), withTile { eng := { queue := [(engCmd 0x0404000000000000 0 0)] }, sram := [] }, ⟨⟨by decide, by decide, by decide, ⟨_, rfl⟩, by decide, by decide⟩, by decide +kernel⟩⟩
  · exact ⟨32767, (engCmd 0x0004000000000000 0 0), withTile { eng := { queue := [(engCmd 0x0004000000000000 0 0)] }, sram := [] }, ⟨⟨by decide, by decide, by decide, ⟨_, rfl⟩, by decide, by decide⟩, by decide +kernel⟩⟩

theorem witness_EngineComputesComplete :
    (∃ (t : Nat) (c : EngCmd) (hw : EngHw) (s : State), Heads s t hw.stream c 2 ∧ mmaFieldsBad c = true) ∧
    (∃ (t : Nat) (c : EngCmd) (hw : EngHw) (s : State), Heads s t hw.stream c 2 ∧ mmaFieldsBad c = false ∧ gateSkips (s.tile t) c = true) ∧
    (∃ (t : Nat) (c : EngCmd) (hw : EngHw) (s : State), Heads s t hw.stream c 2 ∧ mmaFieldsBad c = false ∧ gateSkips (s.tile t) c = false ∧ mmaBad ((s.tile t).eng.slotOf c.slot) (s.tile t).sram c = true) ∧
    (∃ (t : Nat) (c : EngCmd) (hw : EngHw) (s : State) (cl : RateClass), Heads s t hw.stream c 2 ∧ mmaFieldsBad c = false ∧ gateSkips (s.tile t) c = false ∧ mmaBad ((s.tile t).eng.slotOf c.slot) (s.tile t).sram c = false ∧ c.pred = false ∧ rateClass (readHdr (s.tile t).sram c.hdr).etype ((s.tile t).eng.slotOf c.slot).etype ((s.tile t).eng.slotOf c.slot).fmt = some cl ∧ ((s.tile t).eng.loader = [] ∧ (s.tile t).eng.array = [] ∧ (s.tile t).eng.packer = []) ∧ hw.first = none ∧ hw.upset = none ∧ mmaCause (s.tile t).sram (s.tile t).badSram c ((s.tile t).eng.slotOf c.slot) (if c.mrows then min ((s.tile t).ctr c.gctr).value.toNat (c.mm1 + 1) else c.mm1 + 1) true = none) ∧
    (∃ (t : Nat) (c : EngCmd) (hw : EngHw) (s : State), Heads s t hw.stream c 3 ∧ storeFieldsBad c = true) ∧
    (∃ (t : Nat) (c : EngCmd) (hw : EngHw) (s : State), Heads s t hw.stream c 3 ∧ storeFieldsBad c = false ∧ gateSkips (s.tile t) c = true) ∧
    (∃ (t : Nat) (c : EngCmd) (hw : EngHw) (s : State), Heads s t hw.stream c 3 ∧ storeFieldsBad c = false ∧ gateSkips (s.tile t) c = false ∧ c.hdr + (storeBlock (s.tile t).eng c).length ≤ sramSize ∧ (c.maskout = true → c.maskptr % 32 = 0 → (readRec (s.tile t).sram c.maskptr).resv = false) ∧ (s.tile t).badSram.any (storeReads (s.tile t).sram c (storeBlock (s.tile t).eng c).length) = false ∧ c.maskout = false ∧ ((s.tile t).eng.loader = [] ∧ (s.tile t).eng.array = [] ∧ (s.tile t).eng.packer = []) ∧ hw.first = none) := by
  refine ⟨?_, ?_, ?_, ?_, ?_, ?_, ?_⟩
  · exact ⟨32767, (engCmd 0x2000000000000000 0 1), noHw, withTile { eng := { queue := [(engCmd 0x2000000000000000 0 1)] }, sram := [] }, ⟨⟨by decide, by decide, by decide, ⟨_, rfl⟩, by decide, by decide⟩, by decide +kernel⟩⟩
  · exact ⟨32767, (engCmd 0x2400000000000000 0x0017FFE000000000 0), noHw, withTile { eng := { queue := [(engCmd 0x2400000000000000 0x0017FFE000000000 0)] }, sram := [] }, by refine ⟨⟨by decide, by decide, by decide, ⟨_, rfl⟩, by decide, by decide⟩, ?_⟩; (repeat' apply And.intro) <;> decide +kernel⟩
  · exact ⟨32767, (engCmd 0x2000000000000000 0x0017FFE000000000 0), noHw, withTile { eng := { queue := [(engCmd 0x2000000000000000 0x0017FFE000000000 0)] }, sram := memPutWord [] 0x17FFE0 8 0x100010000 }, by refine ⟨⟨by decide, by decide, by decide, ⟨_, rfl⟩, by decide, by decide⟩, ?_⟩; (repeat' apply And.intro) <;> decide +kernel⟩
  · exact ⟨32767, (engCmd 0x2000000000000000 0x0017FFE000000000 0), noHw, withTile { eng := { queue := [(engCmd 0x2000000000000000 0x0017FFE000000000 0)], slot0 := { loaded := true, klen := 32 } }, sram := memPutWord [] 0x17FFE0 8 0x100010000 }, { int8 := false, unit := -266, c := 4, slice := 32, kmax := 128 }, by refine ⟨⟨by decide, by decide, by decide, ⟨_, rfl⟩, by decide, by decide⟩, ?_⟩; (repeat' apply And.intro) <;> decide +kernel⟩
  · exact ⟨32767, (engCmd 0x3000000000000000 0x0010000000000000 1), noHw, withTile { eng := { queue := [(engCmd 0x3000000000000000 0x0010000000000000 1)] }, sram := [] }, ⟨⟨by decide, by decide, by decide, ⟨_, rfl⟩, by decide, by decide⟩, by decide +kernel⟩⟩
  · exact ⟨32767, (engCmd 0x3400000000000000 0x0010000000000000 0), noHw, withTile { eng := { queue := [(engCmd 0x3400000000000000 0x0010000000000000 0)] }, sram := [] }, by refine ⟨⟨by decide, by decide, by decide, ⟨_, rfl⟩, by decide, by decide⟩, ?_⟩; (repeat' apply And.intro) <;> decide +kernel⟩
  · exact ⟨32767, (engCmd 0x3000000000000000 0x0010000000000000 0), noHw, withTile { eng := { queue := [(engCmd 0x3000000000000000 0x0010000000000000 0)] }, sram := [] }, by refine ⟨⟨by decide, by decide, by decide, ⟨_, rfl⟩, by decide, by decide⟩, ?_⟩; (repeat' apply And.intro) <;> decide +kernel⟩

theorem witness_EngineEndsComplete :
    (∃ (t : Nat) (u : EngUnit) (r0 : Running) (l : List Running) (s : State), t < 32768 ∧ s.runs t = true ∧ (s.tile t).eng.unit u = r0 :: l ∧ (r0.readsBad (freeWords (s.tile t).sram s.freeN ((s.tile t).eng.unsure r0))).bad = false ∧ (r0.readsBad (freeWords (s.tile t).sram s.freeN ((s.tile t).eng.unsure r0))).fares (s.tile t).eng.retryEn (freeWords (s.tile t).sram s.freeN ((s.tile t).eng.unsure r0)) (s.tile t).badSram = .runs) ∧
    (∃ (t : Nat) (u : EngUnit) (r0 : Running) (l : List Running) (s : State) (k : EngCause), t < 32768 ∧ s.runs t = true ∧ (s.tile t).eng.unit u = r0 :: l ∧ (r0.readsBad (freeWords (s.tile t).sram s.freeN ((s.tile t).eng.unsure r0))).fares (s.tile t).eng.retryEn (freeWords (s.tile t).sram s.freeN ((s.tile t).eng.unsure r0)) (s.tile t).badSram = .retried k) ∧
    (∃ (t : Nat) (u : EngUnit) (r0 : Running) (l : List Running) (s : State) (k : EngCause), t < 32768 ∧ s.runs t = true ∧ (s.tile t).eng.unit u = r0 :: l ∧ (r0.readsBad (freeWords (s.tile t).sram s.freeN ((s.tile t).eng.unsure r0))).bad = false ∧ (r0.readsBad (freeWords (s.tile t).sram s.freeN ((s.tile t).eng.unsure r0))).fares (s.tile t).eng.retryEn (freeWords (s.tile t).sram s.freeN ((s.tile t).eng.unsure r0)) (s.tile t).badSram = .halts k ∧ (s.tile t).eng.halt = false) ∧
    (∃ (t : Nat) (s : State), t < 32768 ∧ s.runs t = true) ∧
    (∃ (e : Engine), e.halt = true) ∧
    (∃ (e : Engine), e.halt = false) := by
  refine ⟨?_, ?_, ?_, ?_, ?_, ?_⟩
  · exact ⟨32767, .array, { cmd := (engCmd 0x40000000000000FF 0 0) }, [], withTile { eng := { array := [{ cmd := (engCmd 0x40000000000000FF 0 0) }] } }, by (repeat' apply And.intro) <;> decide +kernel⟩
  · exact ⟨32767, .array, { cmd := (engCmd 0x40000000000000FF 0 0), hw := { first := some .dupcmp, retry := none, corrected := 0 } }, [], withTile { eng := { array := [{ cmd := (engCmd 0x40000000000000FF 0 0), hw := { first := some .dupcmp, retry := none, corrected := 0 } }] } }, .dupcmp, by (repeat' apply And.intro) <;> decide +kernel⟩
  · exact ⟨32767, .array, { cmd := (engCmd 0x40000000000000FF 0 0), hw := { first := some .accUncorr, retry := none, corrected := 0 } }, [], withTile { eng := { array := [{ cmd := (engCmd 0x40000000000000FF 0 0), hw := { first := some .accUncorr, retry := none, corrected := 0 } }] } }, .accUncorr, by (repeat' apply And.intro) <;> decide +kernel⟩
  · exact ⟨32767, withTile { eng := { halt := true } }, by (repeat' apply And.intro) <;> decide⟩
  · exact ⟨{ halt := true }, by (repeat' apply And.intro) <;> decide⟩
  · exact ⟨{}, by (repeat' apply And.intro) <;> decide⟩

theorem witness_EngineComputesComplete_clinker :
    ∃ (h : Hdr) (m : Mem) (c : EngCmd) (sl : Slot) (cl : RateClass) (mr : Nat) (mask : W64) (u : BlockUpset), u.row < mr ∧ u.col < 64 ∧ u.block < sl.klen / 32 ∧ mask.getLsbD u.col = true := by
  exact ⟨readHdr [] 0, [], (engCmd 0x2000000000000000 0x0017FFE000000000 0), { klen := 32 }, { int8 := false, unit := 512, c := 4, slice := 32, kmax := 128 }, 1, 0x8000000000000000, { row := 0, col := 63, block := 0, delta := 21 }, by (repeat' apply And.intro) <;> decide⟩

theorem witness_WritesLand :
    let counted (T : Tile) (p : Packet) : Ctr := { value := (T.ctr p.dctr).value + 1, target := if p.last then p.total else (T.ctr p.dctr).target }
    (∃ (i t : Nat) (f : Flight) (s : State), AtTile s i f t ∧ f.pkt.opc = .write ∧ aSpace f.pkt.dest = 0 ∧ aOff f.pkt.dest + f.pkt.payload.length ≤ sramSize) ∧
    (∃ (i t : Nat) (f : Flight) (s : State), AtTile s i f t ∧ f.pkt.opc = .write ∧ aSpace f.pkt.dest = 1 ∧ windowOf (s.tile t).guarded (aOff f.pkt.dest) f.pkt.payload.length = .scratch) ∧
    (∃ (i t : Nat) (f : Flight) (s : State), AtTile s i f t ∧ f.pkt.opc = .write ∧ aSpace f.pkt.dest = 0 ∧ aOff f.pkt.dest + f.pkt.payload.length ≤ sramSize ∧ partBad (s.tile t).badSram (aOff f.pkt.dest) f.pkt.payload.length = [] ∧ (s.tile t).recsHeld = []) ∧
    (∃ (i t : Nat) (f : Flight) (s : State), AtTile s i f t ∧ f.pkt.opc = .cnt ∧ aSpace f.pkt.dest = 1) := by
  intros
  refine ⟨?_, ?_, ?_, ?_⟩
  · exact ⟨0, 32767, toTile (pkt .write 0x17fff8 [1, 2, 3, 4, 5, 6, 7, 8]), withPkt {} (toTile (pkt .write 0x17fff8 [1, 2, 3, 4, 5, 6, 7, 8])), by (repeat' apply And.intro) <;> decide⟩
  · exact ⟨0, 32767, toTile (pkt .write 0x8000000003fff8 [1, 2, 3, 4, 5, 6, 7, 8]), withPkt {} (toTile (pkt .write 0x8000000003fff8 [1, 2, 3, 4, 5, 6, 7, 8])), by (repeat' apply And.intro) <;> decide⟩
  · exact ⟨0, 32767, toTile (pkt .write 0x17fff8 [1, 2, 3, 4, 5, 6, 7, 8]), withPkt { badSram := [0] } (toTile (pkt .write 0x17fff8 [1, 2, 3, 4, 5, 6, 7, 8])), by (repeat' apply And.intro) <;> decide⟩
  · exact ⟨0, 32767, toTile (pkt .cnt 0x80000000000000 []), withPkt {} (toTile (pkt .cnt 0x80000000000000 [])), by (repeat' apply And.intro) <;> decide⟩

theorem witness_ListWritesComplete :
    let goes (s : State) (i t : Nat) (f : Flight) (w : Window) : Prop := AtTile s i f t ∧ f.pkt.opc = .write ∧ aSpace f.pkt.dest = 1 ∧
      windowOf (s.tile t).guarded (aOff f.pkt.dest) f.pkt.payload.length = w
    (∃ (i t p : Nat) (f : Flight) (s : State), goes s i t f (.append p)) ∧
    (∃ (i t p : Nat) (f : Flight) (s : State), goes s i t f (.close p)) ∧
    (∃ (i t : Nat) (f : Flight) (s : State), goes s i t f .regs ∧ armsList (aOff f.pkt.dest) f.pkt.payload = true) ∧
    (∃ (i t p : Nat) (f : Flight) (s : State), goes s i t f (.append p) ∧ f.pkt.payload.length = 8 ∧ ((s.tile t).list p).en = true ∧ ((s.tile t).list p).closed = false ∧ ((s.tile t).list p).excess = false ∧ ((s.tile t).list p).acc.toNat < ((s.tile t).list p).cap ∧ ((s.tile t).list p).base + 8 * ((s.tile t).list p).acc.toNat + 8 ≤ sramSize ∧ ((s.tile t).list p).closes < ((s.tile t).list p).nsrc) := by
  intros
  refine ⟨?_, ?_, ?_, ?_⟩
  · exact ⟨0, 32767, 3, toTile (pkt .write 0x80000000110e00 [1]), withPkt {} (toTile (pkt .write 0x80000000110e00 [1])), by (repeat' apply And.intro) <;> decide⟩
  · exact ⟨0, 32767, 3, toTile (pkt .write 0x80000000110f00 [1, 2, 3, 4, 5, 6, 7, 8]), withPkt {} (toTile (pkt .write 0x80000000110f00 [1, 2, 3, 4, 5, 6, 7, 8])), by (repeat' apply And.intro) <;> decide⟩
  · exact ⟨0, 32767, toTile (pkt .write 0x800000001106d0 [0, 0, 0, 0x80]), withPkt {} (toTile (pkt .write 0x800000001106d0 [0, 0, 0, 0x80])), by (repeat' apply And.intro) <;> decide⟩
  · exact ⟨0, 32767, 3, toTile (pkt .write 0x80000000110e00 [1, 2, 3, 4, 5, 6, 7, 8]), withPkt { lists := [(3, { en := true, cap := 1, base := 0x17FFF8, nsrc := 1 })] } (toTile (pkt .write 0x80000000110e00 [1, 2, 3, 4, 5, 6, 7, 8])), by (repeat' apply And.intro) <;> decide⟩

theorem witness_OwnersAnswer :
    let atEdge (s : State) (i e : Nat) (f : Flight) : Prop :=
      s.flight i = some f ∧ f.goal = .edge e ∧ f.place = .edge e ∧ aPanel f.pkt.dest = s.rick.panel
    let ofEdge (s : State) (e : Nat) (f : Flight) (o : Out) (r : State → State) : Prop :=
      (f.fill.isSome = true → o = .next (r s)) ∧
      (f.fill = none → (s.tell (edgeEp e) f.pkt.ctx).staleCtx (edgeEp e) f.pkt.ctx f.pkt.epoch = false → o = .next (r (s.tell (edgeEp e) f.pkt.ctx)))
    let atPort (s d : State) (i S : Nat) (f : Flight) : Prop :=
      s.flight i = some f ∧ f.goal = .control S ∧ f.arrived (s.phys S) = true ∧ (s.site (s.phys S)).part = some f.pkt.spart ∧
        d = s.tell (s.phys S) f.pkt.ctx ∧ d.staleCtx (s.phys S) f.pkt.ctx f.pkt.epoch = false
    (∃ (i t : Nat) (f : Flight) (joins : Bool) (s : State), AtTile s i f t ∧ f.pkt.opc = .read) ∧
    (∃ (i t : Nat) (f : Flight) (joins : Bool) (s : State), AtTile s i f t ∧ f.pkt.opc = .read ∧ aSpace f.pkt.dest = 0 ∧ aOff f.pkt.dest + f.pkt.len ≤ sramSize ∧ allBad (s.tile t).badSram (aOff f.pkt.dest) f.pkt.len = []) ∧
    (∃ (i t : Nat) (f : Flight) (joins : Bool) (s : State), AtTile s i f t ∧ f.pkt.opc = .read ∧ aSpace f.pkt.dest = 0 ∧ sramSize < aOff f.pkt.dest + f.pkt.len) ∧
    (∃ (i S : Nat) (f : Flight) (joins : Bool) (bs : List Byte) (s d : State), atPort s d i S f ∧ f.pkt.opc = .read ∧ d.siteBytes (s.phys S) (aOff f.pkt.dest) f.pkt.len = some bs) ∧
    (∃ (i S : Nat) (f : Flight) (joins : Bool) (s d : State), atPort s d i S f ∧ f.pkt.opc = .read ∧ d.siteBytes (s.phys S) (aOff f.pkt.dest) f.pkt.len = none) ∧
    (∃ (i e : Nat) (f : Flight) (joins : Bool) (s : State), atEdge s i e f ∧ f.pkt.opc = .read) ∧
    (∃ (i S : Nat) (f : Flight) (s d : State), atPort s d i S f ∧ f.pkt.opc = .write) ∧
    (∃ (i e : Nat) (f : Flight) (s : State), atEdge s i e f ∧ f.pkt.opc = .write) := by
  intros
  refine ⟨?_, ?_, ?_, ?_, ?_, ?_, ?_, ?_⟩
  · exact ⟨0, 32767, toTile (pkt .read 0 []), true, withPkt {} (toTile (pkt .read 0 [])), by (repeat' apply And.intro) <;> decide⟩
  · exact ⟨0, 32767, toTile (pkt .read 0 []), true, withPkt {} (toTile (pkt .read 0 [])), by (repeat' apply And.intro) <;> decide⟩
  · exact ⟨0, 32767, toTile (pkt .read 0x17FFFC []), false, withPkt {} (toTile (pkt .read 0x17FFFC [])), by (repeat' apply And.intro) <;> decide⟩
  · exact ⟨0, 255, { pkt := pkt .read 0x208 [], goal := .control 255, place := .dest 255, escape := false, fill := none }, false, _, withPkt {} { pkt := pkt .read 0x208 [], goal := .control 255, place := .dest 255, escape := false, fill := none }, _, ⟨⟨by decide, by decide, by decide, by decide, rfl, by decide⟩, by decide, rfl⟩⟩
  · exact ⟨0, 255, { pkt := pkt .read 0x7000 [], goal := .control 255, place := .dest 255, escape := false, fill := none }, false, withPkt {} { pkt := pkt .read 0x7000 [], goal := .control 255, place := .dest 255, escape := false, fill := none }, _, ⟨⟨by decide, by decide, by decide, by decide, rfl, by decide⟩, by decide, by decide⟩⟩
  · exact ⟨0, 15, { pkt := pkt .read 0 [], goal := .edge 15, place := .edge 15, escape := false, fill := none }, false, withPkt {} { pkt := pkt .read 0 [], goal := .edge 15, place := .edge 15, escape := false, fill := none }, by (repeat' apply And.intro) <;> decide⟩
  · exact ⟨0, 255, { pkt := pkt .write 0x110 [1], goal := .control 255, place := .dest 255, escape := false, fill := none }, withPkt {} { pkt := pkt .write 0x110 [1], goal := .control 255, place := .dest 255, escape := false, fill := none }, _, ⟨⟨by decide, by decide, by decide, by decide, rfl, by decide⟩, by decide⟩⟩
  · exact ⟨0, 15, { pkt := pkt .write 0 [1, 2, 3, 4, 5, 6, 7, 8], goal := .edge 15, place := .edge 15, escape := false, fill := none }, withPkt {} { pkt := pkt .write 0 [1, 2, 3, 4, 5, 6, 7, 8], goal := .edge 15, place := .edge 15, escape := false, fill := none }, by (repeat' apply And.intro) <;> decide⟩

theorem witness_ResponsesLand :
    (∃ (i t k : Nat) (f : Flight) (s : State), RespAt s i f t ∧ f.pkt.opc = .rdata ∧ ((s.tile t).match_ f.pkt = some k ∧ ((s.tile t).trk k).st = .live ∧ (s.tile t).ld.cur = none) ∧ ((s.tile t).trk k).loader = false ∧ 0x1000000 ≤ ((s.tile t).trk k).local_ ∧ partBad (s.tile t).badSram (((s.tile t).trk k).local_ - 0x1000000) f.pkt.payload.length = [] ∧ (s.tile t).recsHeld = []) ∧
    (∃ (i t k : Nat) (f : Flight) (s : State), RespAt s i f t ∧ f.pkt.opc = .rdata ∧ ((s.tile t).match_ f.pkt = some k ∧ ((s.tile t).trk k).st = .live ∧ (s.tile t).ld.cur = none) ∧ ((s.tile t).trk k).loader = false ∧ ((s.tile t).trk k).local_ < 0x1000000 ∧ partBad (s.tile t).badScr ((s.tile t).trk k).local_ f.pkt.payload.length = []) ∧
    (∃ (i t k : Nat) (f : Flight) (s : State), RespAt s i f t ∧ f.pkt.opc = .rerr ∧ ((s.tile t).match_ f.pkt = some k ∧ ((s.tile t).trk k).st = .live ∧ (s.tile t).ld.cur = none) ∧ ((s.tile t).trk k).loader = false) ∧
    (∃ (i t k : Nat) (f : Flight) (s : State), RespAt s i f t ∧ f.pkt.opc = .rerr ∧ ((s.tile t).match_ f.pkt = some k ∧ ((s.tile t).trk k).st = .live ∧ (s.tile t).ld.cur = none) ∧ ((s.tile t).trk k).loader = true) ∧
    (∃ (i t : Nat) (f : Flight) (s : State), RespAt s i f t ∧ f.pkt.opc = .rdata ∧ (s.tile t).match_ f.pkt = none) ∧
    (∃ (i t : Nat) (f : Flight) (s : State), RespAt s i f t ∧ f.pkt.opc = .rerr ∧ (s.tile t).match_ f.pkt = none) ∧
    (∃ (i t : Nat) (f : Flight) (s : State), RespAt s i f t ∧ f.pkt.opc = .wack ∧ (s.tell (s.tilePhys t) f.pkt.ctx).staleCtx (s.tilePhys t) f.pkt.ctx f.pkt.epoch = false) ∧
    (∃ (i t : Nat) (f : Flight) (s : State), RespAt s i f t ∧ f.pkt.opc = .wack ∧ (s.tell (s.tilePhys t) f.pkt.ctx).staleCtx (s.tilePhys t) f.pkt.ctx f.pkt.epoch = true) ∧
    (∃ (i e : Nat) (f : Flight) (s : State), s.flight i = some f ∧ f.goal = .edge e ∧ f.place = .edge e ∧ aPanel f.pkt.dest = s.rick.panel ∧ f.pkt.opc = .rdata) ∧
    (∃ (i e : Nat) (f : Flight) (s : State), s.flight i = some f ∧ f.goal = .edge e ∧ f.place = .edge e ∧ aPanel f.pkt.dest = s.rick.panel ∧ f.pkt.opc = .rerr) ∧
    (∃ (i e : Nat) (f : Flight) (s : State), s.flight i = some f ∧ f.goal = .edge e ∧ f.place = .edge e ∧ aPanel f.pkt.dest = s.rick.panel ∧ f.pkt.opc = .wack ∧ bitsOf f.pkt.dest 15 0 = 0xFFFF) ∧
    (∃ (i e : Nat) (f : Flight) (s : State), s.flight i = some f ∧ f.goal = .edge e ∧ f.place = .edge e ∧ aPanel f.pkt.dest = s.rick.panel ∧ f.pkt.opc = .wack ∧ bitsOf f.pkt.dest 15 0 ≠ 0xFFFF ∧ (s.tell (edgeEp e) f.pkt.ctx).staleCtx (edgeEp e) f.pkt.ctx f.pkt.epoch = false) := by
  refine ⟨?_, ?_, ?_, ?_, ?_, ?_, ?_, ?_, ?_, ?_, ?_, ?_⟩
  · exact ⟨0, 32767, 31, toTile (pkt .rdata 31 [1, 2, 3, 4, 5, 6, 7, 8]), withPkt { trks := [(31, { st := .live, len := 8, part := 3, ctx := 3071, epoch := 9, seq := 1, local_ := 0x117FFF8 })] } (toTile (pkt .rdata 31 [1, 2, 3, 4, 5, 6, 7, 8])), by (repeat' apply And.intro) <;> decide⟩
  · exact ⟨0, 32767, 31, toTile (pkt .rdata 31 [1, 2, 3, 4, 5, 6, 7, 8]), withPkt { trks := [(31, { st := .live, len := 8, part := 3, ctx := 3071, epoch := 9, seq := 1, local_ := 0x3FFF8 })] } (toTile (pkt .rdata 31 [1, 2, 3, 4, 5, 6, 7, 8])), by (repeat' apply And.intro) <;> decide⟩
  · exact ⟨0, 32767, 31, toTile (pkt .rerr 31 []), withPkt { trks := [(31, { st := .live, len := 8, part := 3, ctx := 3071, epoch := 9, seq := 1 })] } (toTile (pkt .rerr 31 [])), by (repeat' apply And.intro) <;> decide⟩
  · exact ⟨0, 32767, 31, toTile (pkt .rerr 31 []), withPkt { trks := [(31, { st := .live, len := 8, part := 3, ctx := 3071, epoch := 9, seq := 1, loader := true })] } (toTile (pkt .rerr 31 [])), by (repeat' apply And.intro) <;> decide⟩
  · exact ⟨0, 32767, toTile (pkt .rdata 31 [1, 2, 3, 4, 5, 6, 7, 8]), withPkt {} (toTile (pkt .rdata 31 [1, 2, 3, 4, 5, 6, 7, 8])), by (repeat' apply And.intro) <;> decide⟩
  · exact ⟨0, 32767, toTile (pkt .rerr 31 []), withPkt {} (toTile (pkt .rerr 31 [])), by (repeat' apply And.intro) <;> decide⟩
  · exact ⟨0, 32767, toTile (pkt .wack 0x1F []), withPkt {} (toTile (pkt .wack 0x1F [])), by (repeat' apply And.intro) <;> decide⟩
  · exact ⟨0, 32767, toTile { pkt .wack 0x1F [] with epoch := 8 }, withPkt {} (toTile { pkt .wack 0x1F [] with epoch := 8 }), by (repeat' apply And.intro) <;> decide⟩
  · exact ⟨0, 15, { pkt := pkt .rdata 0x8001 [], goal := .edge 15, place := .edge 15, escape := false, fill := none }, withPkt {} { pkt := pkt .rdata 0x8001 [], goal := .edge 15, place := .edge 15, escape := false, fill := none }, by (repeat' apply And.intro) <;> decide⟩
  · exact ⟨0, 15, { pkt := pkt .rerr 0x8001 [], goal := .edge 15, place := .edge 15, escape := false, fill := none }, withPkt {} { pkt := pkt .rerr 0x8001 [], goal := .edge 15, place := .edge 15, escape := false, fill := none }, by (repeat' apply And.intro) <;> decide⟩
  · exact ⟨0, 15, { pkt := pkt .wack 0xFFFF [], goal := .edge 15, place := .edge 15, escape := false, fill := none }, withPkt {} { pkt := pkt .wack 0xFFFF [], goal := .edge 15, place := .edge 15, escape := false, fill := none }, by (repeat' apply And.intro) <;> decide⟩
  · exact ⟨0, 15, { pkt := pkt .wack 0xFFFE [], goal := .edge 15, place := .edge 15, escape := false, fill := none }, withPkt {} { pkt := pkt .wack 0xFFFE [], goal := .edge 15, place := .edge 15, escape := false, fill := none }, by (repeat' apply And.intro) <;> decide⟩

theorem witness_RoutersAndLinksComplete :
    (∃ (i p row pos : Nat) (f : Flight) (env : HopEnv) (s : State), s.flight i = some f ∧ f.place = .router p row pos ∧ env.parityBad = false ∧ f.pkt.hops < 1023) ∧
    (∃ (i p row pos : Nat) (f : Flight) (link : Option LinkId) (to_ : Place) (esc : Bool) (env : HopEnv) (s : State), s.flight i = some f ∧ f.place = .router p row pos ∧ env.parityBad = false ∧ f.pkt.hops < 1023 ∧ s.fab.republishing = false ∧ s.hopPlan f p row pos env.starved = .go link to_ esc ∧ s.granted f p row pos link = true) ∧
    (∃ (i p row pos : Nat) (f : Flight) (env : HopEnv) (s : State), s.flight i = some f ∧ f.place = .router p row pos ∧ env.parityBad = false ∧ 1023 ≤ f.pkt.hops) ∧
    (∃ (p idx : Nat) (s : State), p < 272 ∧ (s.site p).badRoutes.contains idx = true) ∧
    (∃ (l : LinkId) (i k : Nat) (f : Flight) (crc : W16) (d : List Nat) (s : State), s.flight i = some f ∧ linkExists l = true ∧ s.linkDown l = false ∧ s.heads f l = true ∧ k < Packet_flits f.pkt ∧ crc ≠ crc16 (flitBytes f.pkt k) ∧ (match s.fab.refused.find? fun r => r.of l f.pkt k with
      | some r => r.n
      | none => 0) < 8) ∧
    (∃ (l : LinkId) (i k : Nat) (f : Flight) (crc : W16) (d : List Nat) (s : State), s.flight i = some f ∧ linkExists l = true ∧ s.linkDown l = false ∧ s.heads f l = true ∧ k < Packet_flits f.pkt ∧ crc ≠ crc16 (flitBytes f.pkt k) ∧ 8 ≤ (match s.fab.refused.find? fun r => r.of l f.pkt k with
      | some r => r.n
      | none => 0)) ∧
    (∃ (l : LinkId) (i k : Nat) (f : Flight) (d : List Nat) (s : State), s.flight i = some f ∧ linkExists l = true ∧ s.linkDown l = false ∧ s.heads f l = true ∧ k < Packet_flits f.pkt) ∧
    (∃ (l : LinkId) (fails : List Nat) (s : State), linkExists l = true ∧ s.linkDown l = true ∧ s.fab.dead.any (sameLink l) = false ∧ passes l fails = true) ∧
    (∃ (l : LinkId) (fails : List Nat) (s : State), linkExists l = true ∧ linkKind l = 1 ∧ s.linkDown l = false ∧ passes l fails = true) := by
  refine ⟨?_, ?_, ?_, ?_, ?_, ?_, ?_, ?_, ?_⟩
  · exact ⟨0, 255, 7, 16, atRouter { pkt .write 0 [] with hops := 1022 }, { starved := false, parityBad := false }, withPkt {} (atRouter { pkt .write 0 [] with hops := 1022 }), by (repeat' apply And.intro) <;> decide⟩
  · exact ⟨0, 255, 7, 16, atRouter { pkt .write 0 [] with hops := 1022 }, some { site := 255, row := 7, pos := 16, face := .west }, .router 255 7 15, false, { starved := false, parityBad := false }, withPkt {} (atRouter { pkt .write 0 [] with hops := 1022 }), by (repeat' apply And.intro) <;> decide⟩
  · exact ⟨0, 255, 7, 16, atRouter { pkt .write 0 [] with hops := 1023 }, { starved := false, parityBad := false }, withPkt {} (atRouter { pkt .write 0 [] with hops := 1023 }), by (repeat' apply And.intro) <;> decide⟩
  · exact ⟨271, 383, withSite { badRoutes := [383] }, by (repeat' apply And.intro) <;> decide⟩
  · exact ⟨{ site := 255, row := 7, pos := 16, face := .west }, 0, 0, atRouter { pkt .write 0 [] with hops := 1022 }, crc16 (flitBytes (atRouter { pkt .write 0 [] with hops := 1022 }).pkt 0) + 1, [], withPkt {} (atRouter { pkt .write 0 [] with hops := 1022 }), ⟨by decide +kernel, by decide +kernel, by decide +kernel, by decide +kernel, by decide +kernel, by bv_omega, Nat.zero_lt_succ 7⟩⟩
  · exact ⟨{ site := 255, row := 7, pos := 16, face := .west }, 0, 0, atRouter { pkt .write 0 [] with hops := 1022 }, crc16 (flitBytes (atRouter { pkt .write 0 [] with hops := 1022 }).pkt 0) + 1, [], { withPkt {} (atRouter { pkt .write 0 [] with hops := 1022 }) with fab := { flights := [atRouter { pkt .write 0 [] with hops := 1022 }], refused := [{ link := { site := 255, row := 7, pos := 16, face := .west }, src := 0, ctx := 3071, seq := 1, flit := 0, n := 8 }] } }, ⟨by decide +kernel, by decide +kernel, by decide +kernel, by decide +kernel, by decide +kernel, by bv_omega, Nat.le_refl 8⟩⟩
  · exact ⟨{ site := 255, row := 7, pos := 16, face := .west }, 0, 0, atRouter { pkt .write 0 [] with hops := 1022 }, [], withPkt {} (atRouter { pkt .write 0 [] with hops := 1022 }), by (repeat' apply And.intro) <;> decide +kernel⟩
  · exact ⟨lastLink, [0], { up with fab := { down := [lastLink] } }, by (repeat' apply And.intro) <;> decide⟩
  · exact ⟨{ site := 255, row := 0, pos := 16, face := .east }, [2, 2, 2, 2], up, by (repeat' apply And.intro) <;> decide⟩

theorem witness_RoutersAndLinksComplete_tables :
    (∃ (t k : Nat) (s : State), t < 32768 ∧ k < 32 ∧ ((s.tile t).trk k).st = .live ∧ s.parksTile t = false ∧ ((s.tile t).trk k).since + s.rtoNs ((s.tile t).trk k).part ≤ s.time) ∧
    (∃ (t k : Nat) (s : State), t < 32768 ∧ ((s.tile t).trk k).st = .ended ∧ ((s.tile t).trk k).since + 4 * s.rtoNs ((s.tile t).trk k).part ≤ s.time) ∧
    (∃ (t k : Nat) (s : State), t < 32768 ∧ ((s.tile t).trk k).st = .ended ∧ ((s.tile t).trk k).since + 4 * s.rtoNs ((s.tile t).trk k).part ≤ s.time ∧ (s.tile t).ld.cur = none) ∧
    (∃ (p : Nat) (s : State), p < 272) ∧
    (∃ (s : State), HltFree s) ∧
    (∃ (s : State), s.fab.republishing = true ∧ s.svRuns = true) := by
  refine ⟨?_, ?_, ?_, ?_, ?_, ?_⟩
  · exact ⟨32767, 31, { withTile { trks := [(31, { st := .live, part := 3 })] } with time := 16000000 }, by (repeat' apply And.intro) <;> decide⟩
  · exact ⟨32767, 31, { withTile { trks := [(31, { st := .ended, part := 3 })] } with time := 64000000 }, by (repeat' apply And.intro) <;> decide⟩
  · exact ⟨32767, 31, { withTile { trks := [(31, { st := .ended, part := 3 })] } with time := 64000000 }, by (repeat' apply And.intro) <;> decide⟩
  · exact ⟨271, withSite { st := .active }, by (repeat' apply And.intro) <;> decide⟩
  · exact ⟨up, by (repeat' apply And.intro) <;> decide⟩
  · exact ⟨{ up with fab := { republishing := true } }, by (repeat' apply And.intro) <;> decide⟩

theorem witness_RoutersAndLinksComplete_waits :
    (∃ (i p row pos : Nat) (f : Flight) (link : Option LinkId) (to_ : Place) (esc : Bool) (env : HopEnv) (s : State), s.flight i = some f ∧ f.place = .router p row pos ∧ env.parityBad = false ∧ f.pkt.hops < 1023 ∧ s.fab.republishing = false ∧ s.hopPlan f p row pos env.starved = .go link to_ esc ∧ s.granted f p row pos link = false) ∧
    (∃ (i p row pos : Nat) (f : Flight) (env : HopEnv) (s : State), s.flight i = some f ∧ f.place = .router p row pos ∧ env.parityBad = false ∧ f.pkt.hops < 1023 ∧ s.fab.republishing = false ∧ s.hopPlan f p row pos env.starved = .wait) ∧
    (∃ (i p row pos : Nat) (f : Flight) (env : HopEnv) (s : State), s.flight i = some f ∧ f.place = .router p row pos ∧ env.parityBad = false ∧ f.pkt.hops < 1023 ∧ s.fab.republishing = false ∧ s.hopPlan f p row pos env.starved = .noRoute) ∧
    (∃ (p idx : Nat) (s : State), p < 272 ∧ (s.site p).badRoutes.contains idx = false ∧ idx < 384 ∧ (s.site p).routeGen ≠ 0) ∧
    (∃ (l : LinkId) (i k : Nat) (f : Flight) (crc : W16) (s : State), s.flight i = some f ∧ linkExists l = true ∧ s.linkDown l = false ∧ s.heads f l = true ∧ k < Packet_flits f.pkt ∧ crc = crc16 (flitBytes f.pkt k)) ∧
    (∃ (l : LinkId) (fails : List Nat) (s : State), linkExists l = true ∧ s.linkDown l = true ∧ s.fab.dead.any (sameLink l) = false ∧ passes l fails = false ∧ linkKind l = 0) ∧
    (∃ (l : LinkId) (fails : List Nat) (s : State), linkExists l = true ∧ s.linkDown l = true ∧ s.fab.dead.any (sameLink l) = false ∧ passes l fails = false ∧ linkKind l ≠ 0) := by
  refine ⟨?_, ?_, ?_, ?_, ?_, ?_, ?_⟩
  · exact ⟨0, 255, 7, 16, atRouter { pkt .write 0 [] with hops := 1022 }, some { site := 255, row := 7, pos := 16, face := .west }, .router 255 7 15, false, { starved := false, parityBad := false }, { withTile {} with fab := { flights := [atRouter { pkt .write 0 [] with hops := 1022 }, atRouter { pkt .rdata 0 [] with hops := 1022 }] } }, by (repeat' apply And.intro) <;> decide +kernel⟩
  · exact ⟨0, 255, 7, 16, atRouter { pkt .write 0 [] with hops := 1022 }, { starved := false, parityBad := false }, { withTile {} with fab := { flights := [atRouter { pkt .write 0 [] with hops := 1022 }, { pkt := pkt .write 0 (List.replicate 256 0), goal := .tile 32767, place := .router 255 7 15, escape := false, fill := none, via := some { site := 255, row := 7, pos := 16, face := .west } }, { pkt := pkt .write 0 (List.replicate 256 0), goal := .tile 32767, place := .router 255 7 15, escape := false, fill := none, via := some { site := 255, row := 7, pos := 16, face := .west } }] } }, by (repeat' apply And.intro) <;> decide +kernel⟩
  · exact ⟨0, 254, 7, 16, { atRouter { pkt .write 0 [] with hops := 1022 } with place := .router 254 7 16 }, { starved := false, parityBad := false }, withPkt {} { atRouter { pkt .write 0 [] with hops := 1022 } with place := .router 254 7 16 }, by (repeat' apply And.intro) <;> decide +kernel⟩
  · exact ⟨271, 383, withSite { routeGen := 1 }, by (repeat' apply And.intro) <;> decide +kernel⟩
  · exact ⟨{ site := 255, row := 7, pos := 16, face := .west }, 0, 0, atRouter { pkt .write 0 [] with hops := 1022 }, crc16 (flitBytes (atRouter { pkt .write 0 [] with hops := 1022 }).pkt 0), withPkt {} (atRouter { pkt .write 0 [] with hops := 1022 }), ⟨by decide +kernel, by decide +kernel, by decide +kernel, by decide +kernel, by decide +kernel, rfl⟩⟩
  · exact ⟨lastLink, [0, 1, 2, 3], { up with fab := { down := [lastLink] } }, by (repeat' apply And.intro) <;> decide +kernel⟩
  · exact ⟨{ site := 255, row := 0, pos := 16, face := .east }, [3], { up with fab := { down := [{ site := 255, row := 0, pos := 16, face := .east }] } }, by (repeat' apply And.intro) <;> decide +kernel⟩

theorem witness_RoutersAndLinksComplete_loader :
    (∃ (t k : Nat) (s : State), t < 32768 ∧ k < 32 ∧ ((s.tile t).trk k).st = .live ∧ s.parksTile t = false ∧ ((s.tile t).trk k).since + s.rtoNs ((s.tile t).trk k).part ≤ s.time ∧ ((s.tile t).trk k).loader = false) ∧
    (∃ (t k : Nat) (s : State), t < 32768 ∧ k < 32 ∧ ((s.tile t).trk k).st = .live ∧ s.parksTile t = false ∧ ((s.tile t).trk k).since + s.rtoNs ((s.tile t).trk k).part ≤ s.time ∧ ((s.tile t).trk k).loader = true) ∧
    (∃ (p : Nat) (s : State), p < 272 ∧ (s.site p).st ≠ .dark) := by
  refine ⟨?_, ?_, ?_⟩
  · exact ⟨32767, 31, { withTile { trks := [(31, { st := .live, part := 3 })] } with time := 16000000 }, by (repeat' apply And.intro) <;> decide⟩
  · exact ⟨32767, 31, { withTile { trks := [(31, { st := .live, part := 3, loader := true })] } with time := 16000000 }, by (repeat' apply And.intro) <;> decide⟩
  · exact ⟨271, withSite { st := .active, routeGen := 1 }, by (repeat' apply And.intro) <;> decide⟩

theorem witness_MemoriesComplete :
    (∃ (t w : Nat) (s : State), t < 32768 ∧ (s.tileSt t).scrubEn = true ∧ (s.tileSt t).st ≠ .off ∧ (s.tileSt t).st ≠ .dark ∧ (s.tile t).scrubBad = []) ∧
    (∃ (t w : Nat) (s : State), t < 32768 ∧ (s.tileSt t).scrubEn = true ∧ (s.tileSt t).st ≠ .off ∧ (s.tileSt t).st ≠ .dark ∧ (s.tile t).scrubBad = [] ∧ (s.tile t).flips = [] ∧ w / 8 = (s.tile t).scrubAt ∧ w < 229376 ∧ (s.tile t).badSram.contains w = false ∧ (s.tile t).badScr.contains (w - scrWord0) = false) ∧
    (∃ (ch : Nat) (s : State), ch < 32 ∧ (s.chan ch).st = 2) ∧
    (∃ (ch n : Nat) (s : State), ch < 32 ∧ (s.chan ch).st = 2 ∧ s.patrolCode ≠ 0 ∧ (s.chan ch).patrolAt + 1 < (s.chan ch).bursts ∧ (s.chan ch).bad.contains (s.chan ch).patrolAt = false ∧ (s.chan ch).flips.contains (s.chan ch).patrolAt = false) ∧
    (∃ (ch : Nat) (s : State), ch < 32 ∧ (s.chan ch).st = 2 ∧ s.patrolCode ≠ 0 ∧ (s.chan ch).patrolAt + 1 < (s.chan ch).bursts ∧ (s.chan ch).bad.contains (s.chan ch).patrolAt = false ∧ (s.chan ch).flips = []) := by
  refine ⟨?_, ?_, ?_, ?_, ?_⟩
  · exact ⟨32767, 1, withTile {}, by (repeat' apply And.intro) <;> decide⟩
  · exact ⟨32767, 1, withTile {}, by (repeat' apply And.intro) <;> decide⟩
  · exact ⟨31, { up with chans := [(31, { st := 2, cap := 8 })] }, by (repeat' apply And.intro) <;> decide⟩
  · exact ⟨31, 1073741822, { up with chans := [(31, { st := 2, cap := 8 })] }, by (repeat' apply And.intro) <;> decide⟩
  · exact ⟨31, { up with chans := [(31, { st := 2, cap := 8 })] }, by (repeat' apply And.intro) <;> decide⟩

theorem witness_MemoriesComplete_regions :
    (∃ (p : Nat) (s : State), p < 16 ∧ Managed s 0 ∧ (s.partn p).ddr.stage.size ≠ 0 ∧ s.regionCheck p (s.partn p).ddr.stage = 0) ∧
    (∃ (p : Nat) (s : State), p < 16 ∧ Managed s 0 ∧ (s.partn p).ddr.stage.size ≠ 0 ∧ s.regionCheck p (s.partn p).ddr.stage ≠ 0) ∧
    (∃ (k : Nat) (v : W32) (s : State), k < 7 ∧ Managed s 0) ∧
    (∃ (v : W32) (s : State), Managed s 0) := by
  refine ⟨?_, ?_, ?_, ?_⟩
  · exact ⟨15, { up with chans := [(31, { st := 2, cap := 8 })], parts := [(15, { ddr := { stage := { base := 0, size := 1, nlog2 := 0, mask := 0x80000000 } } })] }, by (repeat' apply And.intro) <;> decide +kernel⟩
  · exact ⟨15, { up with parts := [(15, { ddr := { stage := { base := 0, size := 1, nlog2 := 0, mask := 0x80000000 } } })] }, by (repeat' apply And.intro) <;> decide +kernel⟩
  · exact ⟨6, 0xFFFF, up, by (repeat' apply And.intro) <;> decide⟩
  · exact ⟨1, up, by (repeat' apply And.intro) <;> decide⟩

theorem witness_MemoriesComplete_more :
    (∃ (t w : Nat) (found : MemErr) (s : State), t < 32768 ∧ (s.tileSt t).st ≠ .off ∧ (s.tileSt t).st ≠ .dark ∧ (s.tileSt t).scrubEn = false) ∧
    (∃ (t w : Nat) (found : MemErr) (s : State), t < 32768 ∧ (s.tileSt t).st ≠ .off ∧ (s.tileSt t).st ≠ .dark ∧ (s.tileSt t).scrubEn = true) ∧
    (∃ (ch : Nat) (s : State), ch < 32) ∧
    (∃ (ch b n : Nat) (s : State), ch < 32 ∧ (s.chan ch).st = 2 ∧ s.patrolCode ≠ 0 ∧ (s.chan ch).patrolAt + 1 < (s.chan ch).bursts ∧ (s.chan ch).bad.contains (s.chan ch).patrolAt = true ∧ (s.chan ch).flips.contains (s.chan ch).patrolAt = false) ∧
    (∃ (p : Nat) (s : State), p < 16 ∧ Managed s 0 ∧ ((s.partn p).ddr.stage.size = 0 ∨ s.regionCheck p (s.partn p).ddr.stage = 0)) := by
  refine ⟨?_, ?_, ?_, ?_, ?_⟩
  · exact ⟨32767, 229375, .corrected, { withTile {} with sites := [(255, { siteUp with scrubEn := false })] }, by (repeat' apply And.intro) <;> decide⟩
  · exact ⟨32767, 229375, .uncorrectable, withTile {}, by (repeat' apply And.intro) <;> decide⟩
  · exact ⟨31, up, by (repeat' apply And.intro) <;> decide⟩
  · exact ⟨31, 0, 1, { up with chans := [(31, { st := 2, cap := 8, bad := [0] })] }, by (repeat' apply And.intro) <;> decide⟩
  · exact ⟨15, up, by (repeat' apply And.intro) <;> decide⟩

theorem witness_SlicesComplete :
    (∃ (i p : Nat) (joins : Bool) (f : Flight) (x : CLine) (s : State), AtSlice s i f p ∧ f.pkt.opc = .read ∧ (s.site p).cache.find (f.pkt.dest.toNat / 256) = some x) ∧
    (∃ (i p e : Nat) (f : Flight) (s : State), AtSlice s i f p ∧ f.pkt.opc = .write ∧ ((s.tell p f.pkt.ctx).modSite p fun x => { x with cache := x.cache.write f.pkt.dest.toNat f.pkt.payload }).lineOwner f.pkt.spart f.pkt.dest = some e) ∧
    (∃ (i p line q : Nat) (f : Flight) (x : Fill) (s : State), s.flight i = some f ∧ f.goal = .slice p ∧ f.fill = some (q, line) ∧ f.arrived p = true ∧ f.pkt.opc = .rdata ∧ ((s.site p).cache.fills.find? fun x => x.line == line) = some x ∧ x.joined = [] ∧ x.dropped = false) ∧
    (∃ (p : Nat) (q : Packet) (s : State), Maintains s p q ∧ mOp q = 1) ∧
    (∃ (p : Nat) (q : Packet) (s : State), Maintains s p q ∧ mOp q = 2) ∧
    (∃ (p : Nat) (q : Packet) (s : State), Maintains s p q ∧ mOp q = 3) ∧
    (∃ (p : Nat) (q : Packet) (s : State), Maintains s p q ∧ (mOp q = 0 ∨ 3 < mOp q)) := by
  refine ⟨?_, ?_, ?_, ?_, ?_, ?_, ?_⟩
  · exact ⟨0, 255, false, { pkt := pkt .read 0x180000000000100 [], goal := .slice 255, place := .dest 255, escape := false, fill := none }, { line := 422212465065985, way := 0, bytes := [] }, { busy ctxUp { siteUp with cache := { lines := [{ line := 422212465065985, way := 0, bytes := [] }] } } with fab := { flights := [{ pkt := pkt .read 0x180000000000100 [], goal := .slice 255, place := .dest 255, escape := false, fill := none }] } }, by (repeat' apply And.intro) <;> decide⟩
  · exact ⟨0, 255, 8, { pkt := pkt .write 0x180000000000100 [1, 2, 3, 4, 5, 6, 7, 8], goal := .slice 255, place := .dest 255, escape := false, fill := none }, { { busy ctxUp { siteUp with cache := {} } with fab := { flights := [{ pkt := pkt .write 0x180000000000100 [1, 2, 3, 4, 5, 6, 7, 8], goal := .slice 255, place := .dest 255, escape := false, fill := none }] } } with parts := [(3, { ddr := { cur := { size := 1, mask := 1 } } })] }, by (repeat' apply And.intro) <;> decide +kernel⟩
  · exact ⟨0, 255, 422212465065985, 255, { pkt := pkt .rdata 0 [], goal := .slice 255, place := .dest 255, escape := false, fill := some (255, 422212465065985) }, { line := 422212465065985, joined := [], patch := [], patchMask := [], dropped := false }, { busy ctxUp { siteUp with cache := { fills := [{ line := 422212465065985, joined := [], patch := [], patchMask := [], dropped := false }] } } with fab := { flights := [{ pkt := pkt .rdata 0 [], goal := .slice 255, place := .dest 255, escape := false, fill := some (255, 422212465065985) }] } }, by (repeat' apply And.intro) <;> decide⟩
  · exact ⟨271, pkt .write 0 [1, 0, 0, 0, 0, 0, 0, 0], withSite { st := .active, cache := { mq := [pkt .write 0 [1, 0, 0, 0, 0, 0, 0, 0]] } }, ⟨⟨by decide, ⟨_, rfl⟩, by decide⟩, by decide⟩⟩
  · exact ⟨271, pkt .write 0 [2, 0, 0, 0, 0, 0, 0, 0], withSite { st := .active, cache := { mq := [pkt .write 0 [2, 0, 0, 0, 0, 0, 0, 0]] } }, ⟨⟨by decide, ⟨_, rfl⟩, by decide⟩, by decide⟩⟩
  · exact ⟨271, pkt .write 0 [3, 0, 0, 0, 0, 0, 0, 0], withSite { st := .active, cache := { mq := [pkt .write 0 [3, 0, 0, 0, 0, 0, 0, 0]] } }, ⟨⟨by decide, ⟨_, rfl⟩, by decide⟩, by decide⟩⟩
  · exact ⟨271, pkt .write 0 [0, 0, 0, 0, 0, 0, 0, 0], withSite { st := .active, cache := { mq := [pkt .write 0 [0, 0, 0, 0, 0, 0, 0, 0]] } }, ⟨⟨by decide, ⟨_, rfl⟩, by decide⟩, by decide⟩⟩

theorem witness_SlicesComplete_more :
    (∃ (i p : Nat) (f : Flight) (s : State), AtSlice s i f p ∧ f.pkt.opc = .read ∧ (s.site p).cache.find (f.pkt.dest.toNat / 256) = none) ∧
    (∃ (i p : Nat) (f : Flight) (s : State), AtSlice s i f p ∧ f.pkt.opc = .write ∧ ((s.tell p f.pkt.ctx).modSite p fun x => { x with cache := x.cache.write f.pkt.dest.toNat f.pkt.payload }).lineOwner f.pkt.spart f.pkt.dest = none) ∧
    (∃ (i p line q : Nat) (f : Flight) (x : Fill) (s : State), s.flight i = some f ∧ f.goal = .slice p ∧ f.fill = some (q, line) ∧ f.arrived p = true ∧ Opc_isReq f.pkt.opc = false ∧ ((s.site p).cache.fills.find? fun x => x.line == line) = some x ∧ f.pkt.opc = .rdata ∧ x.dropped = false) ∧
    (∃ (i p line q : Nat) (f : Flight) (x : Fill) (s : State), s.flight i = some f ∧ f.goal = .slice p ∧ f.fill = some (q, line) ∧ f.arrived p = true ∧ Opc_isReq f.pkt.opc = false ∧ ((s.site p).cache.fills.find? fun x => x.line == line) = some x ∧ f.pkt.opc = .rdata ∧ x.dropped = true) ∧
    (∃ (i p line q : Nat) (f : Flight) (x : Fill) (s : State), s.flight i = some f ∧ f.goal = .slice p ∧ f.fill = some (q, line) ∧ f.arrived p = true ∧ Opc_isReq f.pkt.opc = false ∧ ((s.site p).cache.fills.find? fun x => x.line == line) = some x ∧ f.pkt.opc ≠ .rdata) := by
  refine ⟨?_, ?_, ?_, ?_, ?_⟩
  · exact ⟨0, 255, { pkt := pkt .read 0x180000000000100 [], goal := .slice 255, place := .dest 255, escape := false, fill := none }, { busy ctxUp siteUp with fab := { flights := [{ pkt := pkt .read 0x180000000000100 [], goal := .slice 255, place := .dest 255, escape := false, fill := none }] } }, by (repeat' apply And.intro) <;> decide +kernel⟩
  · exact ⟨0, 255, { pkt := pkt .write 0x180000000000100 [1, 2, 3, 4, 5, 6, 7, 8], goal := .slice 255, place := .dest 255, escape := false, fill := none }, { busy ctxUp siteUp with fab := { flights := [{ pkt := pkt .write 0x180000000000100 [1, 2, 3, 4, 5, 6, 7, 8], goal := .slice 255, place := .dest 255, escape := false, fill := none }] } }, by (repeat' apply And.intro) <;> decide +kernel⟩
  · exact ⟨0, 255, 422212465065985, 255, { pkt := pkt .rdata 0 [], goal := .slice 255, place := .dest 255, escape := false, fill := some (255, 422212465065985) }, { line := 422212465065985, joined := [pkt .read 0x180000000000108 []], patch := [], patchMask := [], dropped := false }, { busy ctxUp { siteUp with cache := { fills := [{ line := 422212465065985, joined := [pkt .read 0x180000000000108 []], patch := [], patchMask := [], dropped := false }] } } with fab := { flights := [{ pkt := pkt .rdata 0 [], goal := .slice 255, place := .dest 255, escape := false, fill := some (255, 422212465065985) }] } }, by (repeat' apply And.intro) <;> decide +kernel⟩
  · exact ⟨0, 255, 422212465065985, 255, { pkt := pkt .rdata 0 [], goal := .slice 255, place := .dest 255, escape := false, fill := some (255, 422212465065985) }, { line := 422212465065985, joined := [pkt .read 0x180000000000108 []], patch := [], patchMask := [], dropped := true }, { busy ctxUp { siteUp with cache := { fills := [{ line := 422212465065985, joined := [pkt .read 0x180000000000108 []], patch := [], patchMask := [], dropped := true }] } } with fab := { flights := [{ pkt := pkt .rdata 0 [], goal := .slice 255, place := .dest 255, escape := false, fill := some (255, 422212465065985) }] } }, by (repeat' apply And.intro) <;> decide +kernel⟩
  · exact ⟨0, 255, 422212465065985, 255, { pkt := pkt .rerr 0 [], goal := .slice 255, place := .dest 255, escape := false, fill := some (255, 422212465065985) }, { line := 422212465065985, joined := [pkt .read 0x180000000000108 []], patch := [], patchMask := [], dropped := false }, { busy ctxUp { siteUp with cache := { fills := [{ line := 422212465065985, joined := [pkt .read 0x180000000000108 []], patch := [], patchMask := [], dropped := false }] } } with fab := { flights := [{ pkt := pkt .rerr 0 [], goal := .slice 255, place := .dest 255, escape := false, fill := some (255, 422212465065985) }] } }, by (repeat' apply And.intro) <;> decide +kernel⟩

theorem witness_PortsComplete :
    (∃ (p : Nat) (s : State), p < 4 ∧ (s.port p).link = true ∧ (s.port p).cutLink = false) ∧
    (∃ (p w g : Nat) (m : LinkMode) (s : State), p < 4 ∧ (s.port p).downSeen = true ∧ (s.port p).width ≠ 0 ∧ (if (s.port p).cutLink = true then LinkMode_best m = some (w, g) else w = (s.port p).width ∧ g = (s.port p).gts10)) ∧
    (∃ (p : Nat) (s : State), p < 4 ∧ s.cfgAnswer p = .normal) ∧
    (∃ (p : Nat) (s : State), p < 4 ∧ s.cfgAnswer p = .normal ∧ (s.port p).cutBme = false) ∧
    (∃ (p w g : Nat) (m : LinkMode) (s : State), p < 4 ∧ (s.port p).link = false ∧ (s.port p).width = 0 ∧ s.pwr.powered = true ∧ ((s.inRecovery = false ∧ s.spi.stage ≠ .failed) ∨ p = 0) ∧ LinkMode_best m = some (w, g)) ∧
    (∃ (m : LinkMode) (w g : Nat), LinkMode_best m = some (w, g)) := by
  refine ⟨?_, ?_, ?_, ?_, ?_, ?_⟩
  · exact ⟨3, { up with host := { ports := [(3, portUp)] } }, by (repeat' apply And.intro) <;> decide⟩
  · exact ⟨3, 16, 320, { widths := [16, 12, 1], rates := [640, 320] }, { up with host := { ports := [(3, { portUp with link := false, cutLink := true, downSeen := true })] } }, by (repeat' apply And.intro) <;> decide⟩
  · exact ⟨3, { up with host := { ports := [(3, portUp)] } }, by (repeat' apply And.intro) <;> decide⟩
  · exact ⟨3, { up with host := { ports := [(3, portUp)] } }, by (repeat' apply And.intro) <;> decide⟩
  · exact ⟨3, 16, 320, { widths := [16, 12, 1], rates := [640, 320] }, { State.reset with pwr := { powered := true } }, by (repeat' apply And.intro) <;> decide⟩
  · exact ⟨{ widths := [16, 12, 1], rates := [640, 320] }, 16, 320, by decide⟩

theorem witness_HostReadsComplete :
    (∃ (id : Nat) (r : HostRead) (s : State), s.readOf id = some r ∧ (s.port r.port).ctoOff = false ∧ r.since + ctoNs (s.port r.port).cto ≤ s.time) ∧
    (∃ (id c count : Nat) (first : W32) (bs : List Byte) (res : HostResult) (r : HostRead) (s : State), s.readOf id = some r ∧ r.for_ = .fetch c first count ∧ (res = .data bs ∨ (res = .badEcrc bs ∧ (s.port r.port).ecrcChk = false)) ∧ ((s.ctx c).st = .ready ∨ (s.ctx c).st = .active)) ∧
    (∃ (id c count : Nat) (first : W32) (res : HostResult) (r : HostRead) (s : State), s.readOf id = some r ∧ r.for_ = .fetch c first count ∧ (res = .ur ∨ res = .ca ∨ res = .poisoned)) ∧
    (∃ (id c at_ : Nat) (n : W32) (bs : List Byte) (res : HostResult) (r : HostRead) (s : State), s.readOf id = some r ∧ r.for_ = .copy c n at_ ∧ (res = .data bs ∨ (res = .badEcrc bs ∧ (s.port r.port).ecrcChk = false))) ∧
    (∃ (id : Nat) (q : Packet) (fill : Option (Nat × Nat)) (bs : List Byte) (res : HostResult) (r : HostRead) (s : State), s.readOf id = some r ∧ r.for_ = .tileRead q fill ∧ (res = .data bs ∨ (res = .badEcrc bs ∧ (s.port r.port).ecrcChk = false))) ∧
    (∃ (id c : Nat) (n : W32) (bs : List Byte) (res : HostResult) (r : HostRead) (s : State), s.readOf id = some r ∧ r.for_ = .flush c n ∧ (res = .data bs ∨ (res = .badEcrc bs ∧ (s.port r.port).ecrcChk = false))) ∧
    (∃ (id at_ : Nat) (bs : List Byte) (res : HostResult) (r : HostRead) (s : State), s.readOf id = some r ∧ r.for_ = .image at_ ∧ (res = .data bs ∨ (res = .badEcrc bs ∧ (s.port r.port).ecrcChk = false))) ∧
    (∃ (id : Nat) (res : HostResult) (r : HostRead) (s : State), s.readOf id = some r ∧ (∀ c f n, r.for_ ≠ .fetch c f n) ∧ (res = .ur ∨ res = .ca ∨ res = .poisoned)) := by
  refine ⟨?_, ?_, ?_, ?_, ?_, ?_, ?_, ?_⟩
  · exact ⟨7, { id := 7, port := 3, addr := 0, len := 8, for_ := .image 0, since := 0 }, { { up with host := { up.host with reads := [{ id := 7, port := 3, addr := 0, len := 8, for_ := .image 0, since := 0 }], ctxs := [(3071, ctxUp)] } } with time := 40000000 }, by (repeat' apply And.intro) <;> decide⟩
  · exact ⟨7, 3071, 1, 0, [1], .data [1], { id := 7, port := 3, addr := 0, len := 8, for_ := (.fetch 3071 0 1), since := 0 }, { up with host := { up.host with reads := [{ id := 7, port := 3, addr := 0, len := 8, for_ := (.fetch 3071 0 1), since := 0 }], ctxs := [(3071, ctxUp)] } }, by (repeat' apply And.intro) <;> first | decide | exact .inl rfl⟩
  · exact ⟨7, 3071, 1, 0, .poisoned, { id := 7, port := 3, addr := 0, len := 8, for_ := (.fetch 3071 0 1), since := 0 }, { up with host := { up.host with reads := [{ id := 7, port := 3, addr := 0, len := 8, for_ := (.fetch 3071 0 1), since := 0 }], ctxs := [(3071, ctxUp)] } }, ⟨by decide, by decide, .inr (.inr rfl)⟩⟩
  · exact ⟨7, 3071, 0, 0, [1], .data [1], { id := 7, port := 3, addr := 0, len := 8, for_ := (.copy 3071 0 0), since := 0 }, { up with host := { up.host with reads := [{ id := 7, port := 3, addr := 0, len := 8, for_ := (.copy 3071 0 0), since := 0 }], ctxs := [(3071, ctxUp)] } }, by (repeat' apply And.intro) <;> first | decide | exact .inl rfl⟩
  · exact ⟨7, pkt .read 0 [], none, [1], .data [1], { id := 7, port := 3, addr := 0, len := 8, for_ := (.tileRead (pkt .read 0 []) none), since := 0 }, { up with host := { up.host with reads := [{ id := 7, port := 3, addr := 0, len := 8, for_ := (.tileRead (pkt .read 0 []) none), since := 0 }], ctxs := [(3071, ctxUp)] } }, by (repeat' apply And.intro) <;> first | decide | exact .inl rfl⟩
  · exact ⟨7, 3071, 0, [1], .data [1], { id := 7, port := 3, addr := 0, len := 8, for_ := (.flush 3071 0), since := 0 }, { up with host := { up.host with reads := [{ id := 7, port := 3, addr := 0, len := 8, for_ := (.flush 3071 0), since := 0 }], ctxs := [(3071, ctxUp)] } }, by (repeat' apply And.intro) <;> first | decide | exact .inl rfl⟩
  · exact ⟨7, 0, [1], .data [1], { id := 7, port := 3, addr := 0, len := 8, for_ := (.image 0), since := 0 }, { up with host := { up.host with reads := [{ id := 7, port := 3, addr := 0, len := 8, for_ := (.image 0), since := 0 }], ctxs := [(3071, ctxUp)] } }, by (repeat' apply And.intro) <;> first | decide | exact .inl rfl⟩
  · exact ⟨7, .ur, { id := 7, port := 3, addr := 0, len := 8, for_ := (.copy 3071 0 0), since := 0 }, { up with host := { up.host with reads := [{ id := 7, port := 3, addr := 0, len := 8, for_ := (.copy 3071 0 0), since := 0 }] } }, ⟨by decide, fun _ _ _ h => (by cases h), .inl rfl⟩⟩

theorem witness_DoorbellsComplete :
    (∃ (p c : Nat) (v : W32) (s : State), RingsAt s p c ∧ v ≠ (s.ctx c).sqTail ∧ ((s.ctx c).st = .ready ∨ (s.ctx c).st = .active) ∧ (v - (s.ctx c).sqHead).toNat ≤ 2 ^ (s.ctx c).cfg.sqLog2 ∧ ((s.ctx c).asked - (s.ctx c).sqHead).toNat ≤ (v - (s.ctx c).sqHead).toNat) ∧
    (∃ (p c : Nat) (v : W32) (s : State), RingsAt s p c ∧ ((s.ctx c).st = .halted ∨ (s.ctx c).st = .resetting)) ∧
    (∃ (p c : Nat) (v : W32) (s : State), RingsAt s p c ∧ v ≠ (s.ctx c).sqTail ∧ ((s.ctx c).st = .ready ∨ (s.ctx c).st = .active) ∧ 2 ^ (s.ctx c).cfg.sqLog2 < (v - (s.ctx c).sqHead).toNat) ∧
    (∃ (p c : Nat) (v : W32) (s : State), RingsAt s p c ∧ (v - (s.ctx c).cqTail).toInt ≤ 0) ∧
    (∃ (p c : Nat) (v : W32) (s : State), RingsAt s p c ∧ 0 < (v - (s.ctx c).cqTail).toInt) ∧
    (∃ (p c : Nat) (v : W32) (s : State), s.reach p = true ∧ c < 3072 ∧ ((s.ctx c).st = .free ∨ (s.ctx c).cfg.port ≠ p)) := by
  refine ⟨?_, ?_, ?_, ?_, ?_, ?_⟩
  · exact ⟨0, 3071, 256, busy ctxUp siteUp, by (repeat' apply And.intro) <;> decide⟩
  · exact ⟨0, 3071, 256, busy { ctxUp with st := .halted } siteUp, by (repeat' apply And.intro) <;> decide⟩
  · exact ⟨0, 3071, 257, busy ctxUp siteUp, by (repeat' apply And.intro) <;> decide⟩
  · exact ⟨0, 3071, 1, busy { ctxUp with cqTail := 1 } siteUp, by (repeat' apply And.intro) <;> decide⟩
  · exact ⟨0, 3071, 1, busy ctxUp siteUp, by (repeat' apply And.intro) <;> decide⟩
  · exact ⟨0, 3071, 1, up, by (repeat' apply And.intro) <;> decide⟩

theorem witness_DoorbellsComplete_more :
    (∃ (p c : Nat) (v : W32) (s : State), RingsAt s p c ∧ v = (s.ctx c).sqTail) ∧
    (∃ (p c : Nat) (v : W32) (s : State), RingsAt s p c ∧ v ≠ (s.ctx c).sqTail ∧ ((s.ctx c).st = .ready ∨ (s.ctx c).st = .active) ∧ (v - (s.ctx c).sqHead).toNat < ((s.ctx c).asked - (s.ctx c).sqHead).toNat) := by
  refine ⟨?_, ?_⟩
  · exact ⟨0, 3071, 0, busy ctxUp siteUp, by (repeat' apply And.intro) <;> decide⟩
  · exact ⟨0, 3071, 4, busy { ctxUp with sqTail := 5, asked := 5 } siteUp, by (repeat' apply And.intro) <;> decide⟩

theorem witness_VectorsAndEventRingComplete :
    (∃ (p vec : Nat) (v : W32) (s : State), p < 4 ∧ s.reach p = true ∧ vec < 2048) ∧
    (∃ (p : Nat) (v : W32) (s : State), s.reach p = true) ∧
    (∃ (v : W32) (s : State), Managed s 0 ∧ bitOf v 31 = true ∧ s.host.evt.en = false) := by
  refine ⟨?_, ?_, ?_⟩
  · exact ⟨0, 2047, 1, up, by (repeat' apply And.intro) <;> decide⟩
  · exact ⟨0, 1, up, by (repeat' apply And.intro) <;> decide⟩
  · exact ⟨0x80000000, up, by (repeat' apply And.intro) <;> decide⟩

theorem witness_VectorsAndEventRingComplete_sends :
    ∃ (p vec : Nat) (v : W32) (s : State), p < 4 ∧ s.reach p = true ∧ vec < 2048 ∧ (tget {} (s.port p).msix vec).pend = true ∧ bitOf v 0 = false ∧ (s.port p).fmask = false ∧ (s.port p).mute = false := by
  exact ⟨0, 2047, 0, { up with host := { ports := [(0, { portUp with msix := [(2047, { pend := true })], fmask := false })] } }, by (repeat' apply And.intro) <;> decide⟩

theorem witness_ShortDescriptorsComplete :
    (∃ (c : Nat) (d : Desc) (s : State), Starts s c d 0) ∧
    (∃ (c k : Nat) (d : Desc) (s : State), Starts s c d k ∧ 11 ≤ k) ∧
    (∃ (c : Nat) (d : Desc) (s : State), Starts s c d 6) ∧
    (∃ (c : Nat) (d : Desc) (s : State), Starts s c d 8 ∧ (bitOf (d.w 1) 0 = false ∨ ((started s c d (.fence 0)).ctx c).ports4 = [])) ∧
    (∃ (c : Nat) (d : Desc) (s : State), Starts s c d 8 ∧ bitOf (d.w 1) 0 = true ∧ ((started s c d (.fence 0)).ctx c).ports4 ≠ []) ∧
    (∃ (c : Nat) (d : Desc) (s : State), Starts s c d 9) ∧
    (∃ (c : Nat) (d : Desc) (s : State), Starts s c d 10) ∧
    (∃ (c n : Nat) (x : InFl) (e : Ending) (s : State), c < 3072 ∧ s.desc c (BitVec.ofNat 32 n) = some x ∧ x.fin = some e ∧ (s.ctx c).st = .active ∧ e.status = 0) := by
  refine ⟨?_, ?_, ?_, ?_, ?_, ?_, ?_, ?_⟩
  · exact ⟨3071, desc 0 [], withDesc (desc 0 []), by (repeat' apply And.intro) <;> decide⟩
  · exact ⟨3071, 11, desc 11 [1], withDesc (desc 11 [1]), by (repeat' apply And.intro) <;> decide⟩
  · exact ⟨3071, desc 6 [0xFF], withDesc (desc 6 [0xFF]), by (repeat' apply And.intro) <;> decide⟩
  · exact ⟨3071, desc 8 [0], withDesc (desc 8 [0]), by (repeat' apply And.intro) <;> decide⟩
  · exact ⟨3071, desc 8 [1], busy { ctxUp with ready := [desc 8 [1]], asked := 1, ports4 := [3] } siteUp, by (repeat' apply And.intro) <;> decide⟩
  · exact ⟨3071, desc 9 [3], withDesc (desc 9 [3]), by (repeat' apply And.intro) <;> decide⟩
  · exact ⟨3071, desc 10 [0xFFFFFFFF], withDesc (desc 10 [0xFFFFFFFF]), by (repeat' apply And.intro) <;> decide⟩
  · exact ⟨3071, 0, { d := desc 0 [], prog := .plain, fin := some { status := 0, result := 0, skipped := false } }, { status := 0, result := 0, skipped := false }, busy { ctxUp with inflight := [{ d := desc 0 [], prog := .plain, fin := some { status := 0, result := 0, skipped := false } }] } siteUp, by (repeat' apply And.intro) <;> decide⟩

theorem witness_ShortDescriptorsComplete_mute :
    ∃ (c q : Nat) (d : Desc) (s : State), Starts s c d 8 ∧ bitOf (d.w 1) 0 = true ∧ q ∈ ((started s c d (.fence 0)).ctx c).ports4 ∧ ((started s c d (.fence 0)).port q).mute = true := by
  exact ⟨3071, 0, desc 8 [1], { busy { ctxUp with ready := [desc 8 [1]], asked := 1, ports4 := [0] } siteUp with host := { ctxs := [(3071, { ctxUp with ready := [desc 8 [1]], asked := 1, ports4 := [0] })], ports := [(0, { portUp with cutBme := true })] } }, by (repeat' apply And.intro) <;> decide⟩

theorem witness_LongDescriptorsComplete :
    (∃ (c : Nat) (d : Desc) (s : State), Starts s c d 1 ∧ (aSpace d.copyDst) ≠ 4) ∧
    (∃ (c : Nat) (d : Desc) (s : State), Starts s c d 1 ∧ (aSpace d.copyDst) = 4) ∧
    (∃ (c : Nat) (d : Desc) (s : State), Starts s c d 2) ∧
    (∃ (c : Nat) (d : Desc) (s : State), Starts s c d 3 ∧ regionIn (d.w 2) = true ∧ d.reservedBad = false ∧ loadBad (loadReqOf (s.ctx c) c d 0) = false) ∧
    (∃ (c : Nat) (d : Desc) (s : State), Starts s c d 4) ∧
    (∃ (c n since : Nat) (x : InFl) (s : State), c < 3072 ∧ s.desc c (BitVec.ofNat 32 n) = some x ∧ x.prog = .wait false since ∧ x.fin = none ∧ (s.ctx c).st = .active ∧ since + us ≤ s.time) ∧
    (∃ (c : Nat) (d : Desc) (s : State), Starts s c d 5) ∧
    (∃ (c : Nat) (d : Desc) (s : State), Starts s c d 7 ∧ bitOf (d.w 1) 63 = false) ∧
    (∃ (c : Nat) (d : Desc) (s : State), Starts s c d 7 ∧ bitOf (d.w 1) 63 = true ∧ (((started s c d .barrier).wildDesc c ((bitsOf (d.w 1) 31 0) == 0)).partn (((started s c d .barrier).wildDesc c ((bitsOf (d.w 1) 31 0) == 0)).ctx c).cfg.part).cur.rickbar = true ∧ ((started s c d .barrier).wildDesc c ((bitsOf (d.w 1) 31 0) == 0)).rick.master = true) ∧
    (∃ (c : Nat) (d : Desc) (s : State), Starts s c d 7 ∧ bitOf (d.w 1) 63 = true ∧ (((started s c d .barrier).wildDesc c ((bitsOf (d.w 1) 31 0) == 0)).partn (((started s c d .barrier).wildDesc c ((bitsOf (d.w 1) 31 0) == 0)).ctx c).cfg.part).cur.rickbar = true ∧ ((started s c d .barrier).wildDesc c ((bitsOf (d.w 1) 31 0) == 0)).rick.master = false ∧ ((started s c d .barrier).wildDesc c ((bitsOf (d.w 1) 31 0) == 0)).rick.inrick = true) ∧
    (∃ (c : Nat) (d : Desc) (s : State), Starts s c d 7 ∧ bitOf (d.w 1) 63 = true ∧ ((((started s c d .barrier).wildDesc c ((bitsOf (d.w 1) 31 0) == 0)).partn (((started s c d .barrier).wildDesc c ((bitsOf (d.w 1) 31 0) == 0)).ctx c).cfg.part).cur.rickbar = false ∨ (((started s c d .barrier).wildDesc c ((bitsOf (d.w 1) 31 0) == 0)).rick.master = false ∧ ((started s c d .barrier).wildDesc c ((bitsOf (d.w 1) 31 0) == 0)).rick.inrick = false))) := by
  refine ⟨?_, ?_, ?_, ?_, ?_, ?_, ?_, ?_, ?_, ?_, ?_⟩
  · exact ⟨3071, desc 1 [0, 0, 8], withDesc (desc 1 [0, 0, 8]), by (repeat' apply And.intro) <;> decide⟩
  · exact ⟨3071, desc 1 [0, 0x200000000000000, 8], withDesc (desc 1 [0, 0x200000000000000, 8]), by (repeat' apply And.intro) <;> decide⟩
  · exact ⟨3071, desc 2 [0, 0xff00fe0000000000, 0x8000000000000000], withDesc (desc 2 [0, 0xff00fe0000000000, 0x8000000000000000]), by (repeat' apply And.intro) <;> decide⟩
  · exact ⟨3071, desc 3 [0, 0xff00fe0000000000, 8], withDesc (desc 3 [0, 0xff00fe0000000000, 8]), by (repeat' apply And.intro) <;> decide⟩
  · exact ⟨3071, desc 4 [0, 0], withDesc (desc 4 [0, 0]), by (repeat' apply And.intro) <;> decide⟩
  · exact ⟨3071, 0, 0, { d := desc 4 [], prog := .wait false 0, fin := none }, busy { ctxUp with inflight := [{ d := desc 4 [], prog := .wait false 0, fin := none }] } siteUp, by (repeat' apply And.intro) <;> decide⟩
  · exact ⟨3071, desc 5 [0xff00fe0000000000], withDesc (desc 5 [0xff00fe0000000000]), by (repeat' apply And.intro) <;> decide⟩
  · exact ⟨3071, desc 7 [1], withDesc (desc 7 [1]), by (repeat' apply And.intro) <;> decide⟩
  · exact ⟨3071, desc 7 [0x8000000000000001], { withDesc (desc 7 [0x8000000000000001]) with parts := [(3, { st := .defined, cur := { rickbar := true } })], rick := { master := true } }, by (repeat' apply And.intro) <;> decide⟩
  · exact ⟨3071, desc 7 [0x8000000000000001], { withDesc (desc 7 [0x8000000000000001]) with parts := [(3, { st := .defined, cur := { rickbar := true } })], rick := { inrick := true } }, by (repeat' apply And.intro) <;> decide⟩
  · exact ⟨3071, desc 7 [0x8000000000000001], withDesc (desc 7 [0x8000000000000001]), by (repeat' apply And.intro) <;> decide⟩

theorem witness_LongDescriptorsComplete_more :
    (∃ (c : Nat) (d : Desc) (s : State), Starts s c d 2 ∧ bitOf (d.w 3) 63 = false) ∧
    (∃ (c : Nat) (d : Desc) (s : State), Starts s c d 2 ∧ bitOf (d.w 3) 63 = true) ∧
    (∃ (c : Nat) (d : Desc) (s : State), Starts s c d 3 ∧ regionIn (d.w 2) = false) ∧
    (∃ (c : Nat) (d : Desc) (s : State), Starts s c d 5 ∧ ((regionTiles (d.w 1)).any fun t => ((started s c d .plain).tileSt t).part != some ((started s c d .plain).ctx c).cfg.part) = false) ∧
    (∃ (c : Nat) (d : Desc) (s : State), Starts s c d 5 ∧ ((regionTiles (d.w 1)).any fun t => ((started s c d .plain).tileSt t).part != some ((started s c d .plain).ctx c).cfg.part) = true) := by
  refine ⟨?_, ?_, ?_, ?_, ?_⟩
  · exact ⟨3071, desc 2 [0, 0xFF00FE0000000000, 0], withDesc (desc 2 [0, 0xFF00FE0000000000, 0]), by (repeat' apply And.intro) <;> decide +kernel⟩
  · exact ⟨3071, desc 2 [0, 0xFF00FE0000000000, 0x8000000000000000], withDesc (desc 2 [0, 0xFF00FE0000000000, 0x8000000000000000]), by (repeat' apply And.intro) <;> decide +kernel⟩
  · exact ⟨3071, desc 3 [0, 0xFF01FF0000000000, 8], withDesc (desc 3 [0, 0xFF01FF0000000000, 8]), by (repeat' apply And.intro) <;> decide +kernel⟩
  · exact ⟨3071, desc 5 [0xFF00FE0000000000], withDesc (desc 5 [0xFF00FE0000000000]), by (repeat' apply And.intro) <;> decide +kernel⟩
  · exact ⟨3071, desc 5 [0], withDesc (desc 5 [0]), by (repeat' apply And.intro) <;> decide +kernel⟩

theorem witness_ContextsComplete :
    (∃ (p : Nat) (v : W32) (s : State), Managed s p) ∧
    (∃ (p : Nat) (s : State), Managed s p ∧ s.configureCode (s.port p).ctxSel (s.port p).stage = 0) ∧
    (∃ (p : Nat) (s : State), Managed s p ∧ s.configureCode (s.port p).ctxSel (s.port p).stage ≠ 0) ∧
    (∃ (p : Nat) (s : State), Managed s p ∧ ((s.ctx (s.port p).ctxSel).st = .ready ∨ (s.ctx (s.port p).ctxSel).st = .halted)) ∧
    (∃ (p c : Nat) (s : State), RingsAt s p c ∧ ((s.ctx c).st = .ready ∨ (s.ctx c).st = .active ∨ (s.ctx c).st = .halted)) ∧
    (∃ (p c : Nat) (s : State), s.reach p = true ∧ ((s.ctx (s.port p).ctxSel).st = .ready ∨ (s.ctx (s.port p).ctxSel).st = .active ∨ (s.ctx (s.port p).ctxSel).st = .halted)) ∧
    (∃ (c : Nat) (s : State), c < 3072 ∧ (s.ctx c).st = .resetting ∧ (s.ctx c).byWarm = false ∧ s.svRuns = true) ∧
    (∃ (p : Nat) (s : State), Managed s p ∧ ((s.ctx (s.port p).ctxSel).st = .ready ∨ (s.ctx (s.port p).ctxSel).st = .active)) ∧
    (∃ (i : Nat) (f : FaultNote) (s : State), lget? s.host.faults i = some f ∧ (∀ g ∈ s.host.faults.take i, g.ctx ≠ f.ctx) ∧ ((s.ctx f.ctx).st = .ready ∨ (s.ctx f.ctx).st = .active)) ∧
    (∃ (c : Nat) (x : InFl) (l : List InFl) (s : State), c < 3072 ∧ (s.ctx c).inflight = x :: l ∧ (s.ctx c).st = .active ∧ (s.ctx c).cfg.wdog ≠ 0 ∧ (s.ctx c).wdogAt + (s.ctx c).cfg.wdog * ms ≤ s.time) := by
  refine ⟨?_, ?_, ?_, ?_, ?_, ?_, ?_, ?_, ?_, ?_⟩
  · exact ⟨0, 3071, up, by (repeat' apply And.intro) <;> decide⟩
  · exact ⟨0, { up with host := { ports := [(0, { portUp with ctxSel := 3071, stage := { part := 15, sqLog2 := 16, cqLog2 := 6, wdog := 3600000 } })] }, parts := [(15, { st := .defined, cur := { count := 1, first := 3071 } })] }, by (repeat' apply And.intro) <;> decide⟩
  · exact ⟨0, { up with host := { ports := [(0, { portUp with ctxSel := 3071, stage := { part := 15, sqLog2 := 17, cqLog2 := 6 } })] }, parts := [(15, { st := .defined, cur := { count := 1, first := 3071 } })] }, by (repeat' apply And.intro) <;> decide⟩
  · exact ⟨0, { up with host := { ports := [(0, { portUp with ctxSel := 3071 })], ctxs := [(3071, { ctxUp with st := .ready })] } }, by (repeat' apply And.intro) <;> decide⟩
  · exact ⟨0, 3071, busy ctxUp siteUp, by (repeat' apply And.intro) <;> decide⟩
  · exact ⟨0, 3071, { up with host := { ports := [(0, { portUp with ctxSel := 3071 })], ctxs := [(3071, { ctxUp with st := .halted })] } }, by (repeat' apply And.intro) <;> decide⟩
  · exact ⟨3071, busy { ctxUp with st := .resetting } siteUp, by (repeat' apply And.intro) <;> decide⟩
  · exact ⟨0, { up with host := { ports := [(0, { portUp with ctxSel := 3071 })], ctxs := [(3071, { ctxUp with st := .active })] } }, by (repeat' apply And.intro) <;> decide⟩
  · exact ⟨0, { ctx := 3071, cause := 5, n := none, ending := none, tile := some 32767 }, { busy ctxUp siteUp with host := { up.host with ctxs := [(3071, ctxUp)], faults := [{ ctx := 3071, cause := 5, n := none, ending := none, tile := some 32767 }] } }, by (repeat' apply And.intro) <;> decide⟩
  · exact ⟨3071, { d := desc 4 [], prog := .wait true 0, fin := none }, [], { busy { ctxUp with inflight := [{ d := desc 4 [], prog := .wait true 0, fin := none }], cfg := { ctxUp.cfg with wdog := 1 } } siteUp with time := 1000000 }, by (repeat' apply And.intro) <;> decide⟩

theorem witness_ContextsComplete_refused :
    (∃ (p : Nat) (s : State), Managed s p ∧ (s.ctx (s.port p).ctxSel).st ≠ .ready ∧ (s.ctx (s.port p).ctxSel).st ≠ .halted) ∧
    (∃ (p : Nat) (s : State), Managed s p ∧ (s.ctx (s.port p).ctxSel).st ≠ .ready ∧ (s.ctx (s.port p).ctxSel).st ≠ .active) ∧
    (∃ (p c : Nat) (s : State), s.reach p = true ∧ (s.ctx (s.port p).ctxSel).st ≠ .ready ∧ (s.ctx (s.port p).ctxSel).st ≠ .active ∧ (s.ctx (s.port p).ctxSel).st ≠ .halted) := by
  refine ⟨?_, ?_, ?_⟩
  · exact ⟨0, { up with host := { ports := [(0, { portUp with ctxSel := 3071 })], ctxs := [(3071, ctxUp)] } }, by (repeat' apply And.intro) <;> decide⟩
  · exact ⟨0, { up with host := { ports := [(0, { portUp with ctxSel := 3071 })], ctxs := [(3071, { ctxUp with st := .halted })] } }, by (repeat' apply And.intro) <;> decide⟩
  · exact ⟨0, 3071, { up with host := { ports := [(0, { portUp with ctxSel := 3071 })], ctxs := [(3071, { ctxUp with st := .resetting })] } }, by (repeat' apply And.intro) <;> decide⟩

theorem witness_HostReadsComplete_trackers :
    ∃ (pe k : Nat) (x : ETrk) (s : State), pe < 2 ∧ lget? (s.etrks pe) k = some x ∧ x.ended = false ∧ x.since + s.rtoNs x.part ≤ s.time := by
  exact ⟨1, 0, { id := 0, ctx := 3071, epoch := 9, part := 3, seq := 0, for_ := .dbg, since := 0, ended := false }, { up with time := 16000000, host := { up.host with etrk1 := [{ id := 0, ctx := 3071, epoch := 9, part := 3, seq := 0, for_ := .dbg, since := 0, ended := false }] } }, by (repeat' apply And.intro) <;> decide⟩

theorem witness_HostReadsComplete_ecrc :
    (∃ (id c count : Nat) (first : W32) (bs : List Byte) (r : HostRead) (s : State), s.readOf id = some r ∧ (s.port r.port).ecrcChk = true ∧ r.for_ = .fetch c first count) ∧
    (∃ (id : Nat) (bs : List Byte) (r : HostRead) (s : State), s.readOf id = some r ∧ (s.port r.port).ecrcChk = true ∧ ∀ c first count, r.for_ ≠ .fetch c first count) ∧
    (∃ (id at_ : Nat) (bs : List Byte) (res : HostResult) (r : HostRead) (s : State), s.readOf id = some r ∧ r.for_ = .image at_ ∧ res = .badEcrc bs ∧ (s.port r.port).ecrcChk = false) := by
  refine ⟨?_, ?_, ?_⟩
  · exact ⟨7, 3071, 1, 0, [], { id := 7, port := 3, addr := 0, len := 8, for_ := (.fetch 3071 0 1), since := 0 }, { up with host := { up.host with ports := [(0, portUp), (3, { portUp with ecrcChk := true })], reads := [{ id := 7, port := 3, addr := 0, len := 8, for_ := (.fetch 3071 0 1), since := 0 }], ctxs := [(3071, ctxUp)] } }, by (repeat' apply And.intro) <;> decide⟩
  · exact ⟨7, [], { id := 7, port := 3, addr := 0, len := 8, for_ := (.image 0), since := 0 }, { up with host := { up.host with ports := [(0, portUp), (3, { portUp with ecrcChk := true })], reads := [{ id := 7, port := 3, addr := 0, len := 8, for_ := (.image 0), since := 0 }], ctxs := [(3071, ctxUp)] } }, ⟨by decide, by decide, fun _ _ _ h => (by cases h)⟩⟩
  · exact ⟨7, 0, [], .badEcrc [], { id := 7, port := 3, addr := 0, len := 8, for_ := (.image 0), since := 0 }, { up with host := { up.host with ports := [(0, portUp), (3, { portUp with ecrcChk := false })], reads := [{ id := 7, port := 3, addr := 0, len := 8, for_ := (.image 0), since := 0 }], ctxs := [(3071, ctxUp)] } }, by (repeat' apply And.intro) <;> decide⟩

theorem witness_PartitionsComplete :
    (∃ (p : Nat) (s : State), p < 16 ∧ Served s ∧ s.defineCode p (s.partn p) = 0) ∧
    (∃ (p : Nat) (s : State), p < 16 ∧ Served s ∧ s.defineCode p (s.partn p) ≠ 0) ∧
    (∃ (p : Nat) (s : State), p < 16 ∧ Served s ∧ s.changeCode p (s.partn p) = 0) ∧
    (∃ (p : Nat) (s : State), p < 16 ∧ Served s ∧ s.changeCode p (s.partn p) ≠ 0) ∧
    (∃ (p : Nat) (s : State), p < 16 ∧ Served s ∧ s.deleteCode p (s.partn p) = 0) ∧
    (∃ (p : Nat) (s : State), p < 16 ∧ Served s ∧ s.deleteCode p (s.partn p) ≠ 0) ∧
    (∃ (p : Nat) (found suspects : List BadUnit) (s : State), p < 16 ∧ (s.partn p).st = .resetting ∧ (s.partn p).deleting = false ∧ s.svRuns = true ∧ s.warmRails p = true) ∧
    (∃ (p : Nat) (s : State), p < 16 ∧ (s.partn p).st = .resetting ∧ (s.partn p).deleting = true ∧ s.svRuns = true ∧ s.warmRails p = true) := by
  refine ⟨?_, ?_, ?_, ?_, ?_, ?_, ?_, ?_⟩
  · exact ⟨15, { up with parts := [(15, { stage := { sc := 15, sr := 15, wm1 := 0, hm1 := 0, count := 1, first := 3071 } })] }, by (repeat' apply And.intro) <;> decide +kernel⟩
  · exact ⟨15, { up with parts := [(15, { stage := { sc := 15, wm1 := 1, count := 1 } })] }, by (repeat' apply And.intro) <;> decide +kernel⟩
  · exact ⟨15, { up with parts := [(15, partUp)] }, by (repeat' apply And.intro) <;> decide +kernel⟩
  · exact ⟨15, { up with parts := [(15, { stage := { sc := 15, wm1 := 1, count := 1 } })] }, by (repeat' apply And.intro) <;> decide +kernel⟩
  · exact ⟨15, { up with parts := [(15, partUp)] }, by (repeat' apply And.intro) <;> decide +kernel⟩
  · exact ⟨15, up, by (repeat' apply And.intro) <;> decide +kernel⟩
  · exact ⟨15, [], [], { up with parts := [(15, { st := .resetting })] }, by (repeat' apply And.intro) <;> decide +kernel⟩
  · exact ⟨15, { up with parts := [(15, { st := .resetting, deleting := true })] }, by (repeat' apply And.intro) <;> decide +kernel⟩

theorem witness_PartitionsComplete_update :
    ∃ (p : Nat) (s : State), p < 16 ∧ Served s ∧ s.changeCode p (s.partn p) = 0 := by
  exact ⟨15, { up with parts := [(15, partUp)] }, by (repeat' apply And.intro) <;> decide +kernel⟩

theorem witness_CascadePortsComplete :
    (∃ (n : Nat) (cw : Codeword) (s : State), n < 32 ∧ (s.cas n).st = 2 ∧ cw.good = false) ∧
    (∃ (n : Nat) (cw : Codeword) (s : State), n < 32 ∧ (s.cas n).st = 2 ∧ cw.good = true ∧ cw.nak = false ∧ cw.cseq ≠ (s.cas n).lastSeq + 1) ∧
    (∃ (n k : Nat) (cw : Codeword) (s : State), n < 32 ∧ (s.cas n).st = 2 ∧ cw.good = true ∧ cw.nak = false ∧ cw.cseq = (s.cas n).lastSeq + 1 ∧ cw.slots = List.replicate k .idle) ∧
    (∃ (n : Nat) (w : Sent) (l : List Sent) (s : State), n < 32 ∧ (s.cas n).st = 2 ∧ (s.cas n).replay = w :: l ∧ (s.cas n).since + 2 * us ≤ s.time ∧ w.resends < 8) ∧
    (∃ (n : Nat) (w : Sent) (l : List Sent) (s : State), n < 32 ∧ (s.cas n).st = 2 ∧ (s.cas n).replay = w :: l ∧ (s.cas n).since + 2 * us ≤ s.time ∧ 8 ≤ w.resends) ∧
    (∃ (n : Nat) (d : List Nat) (s : State), n < 32 ∧ (s.cas n).st = 2) ∧
    (∃ (n : Nat) (q : CasPartner) (s : State), n < 32 ∧ (s.cas n).en = true ∧ (s.cas n).st ≠ 2 ∧ s.rick.conflict = false ∧ s.pwr.powered = true ∧ Stage_trains s.spi.stage = true ∧ (s.rick.master = true → q.panel = 0 → q.serial = Config.serial)) ∧
    (∃ (n : Nat) (v : W32) (s : State), n < 32 ∧ Managed s 0 ∧ bitOf v 31 = true ∧ s.rick.conflict = false) := by
  refine ⟨?_, ?_, ?_, ?_, ?_, ?_, ?_, ?_⟩
  · exact ⟨31, { good := false, cseq := 0, ack := 0, nak := false, slots := [] }, { up with rick := { ports := [(31, { st := 2, lastSeq := 0xFF })] } }, by (repeat' apply And.intro) <;> decide⟩
  · exact ⟨31, { good := true, cseq := 1, ack := 0, nak := false, slots := [] }, { up with rick := { ports := [(31, { st := 2, lastSeq := 0xFF })] } }, by (repeat' apply And.intro) <;> decide⟩
  · exact ⟨31, 10, { good := true, cseq := 0, ack := 0, nak := false, slots := List.replicate 10 .idle }, withCas portIn, by (repeat' apply And.intro) <;> decide⟩
  · exact ⟨31, { cseq := 0, slots := [], resends := 7, at_ := 0 }, [], withCas { portIn with replay := [{ cseq := 0, slots := [], resends := 7, at_ := 0 }] }, by (repeat' apply And.intro) <;> decide⟩
  · exact ⟨31, { cseq := 0, slots := [], resends := 8, at_ := 0 }, [], withCas { portIn with replay := [{ cseq := 0, slots := [], resends := 8, at_ := 0 }] }, by (repeat' apply And.intro) <;> decide⟩
  · exact ⟨31, [], { up with rick := { ports := [(31, { st := 2, lastSeq := 0xFF })] } }, by (repeat' apply And.intro) <;> decide⟩
  · exact ⟨31, { width := 16, rate := 64, detok := true, spare := false, panel := 0, port := 31, serial := Config.serial }, { up with rick := { master := true, ports := [(31, { st := 1 })] } }, ⟨by decide, by decide, by decide, by decide, by decide, by decide, fun _ _ => rfl⟩⟩
  · exact ⟨31, 0x80000000, up, by (repeat' apply And.intro) <;> decide⟩

theorem witness_CascadePortsComplete_more :
    (∃ (n : Nat) (cw : Codeword) (s : State), n < 32 ∧ (s.cas n).st = 2 ∧ cw.good = true ∧ cw.cseq = (s.cas n).lastSeq + 1 ∧ cw.nak = true) ∧
    (∃ (n : Nat) (v : W32) (s : State), n < 32 ∧ Managed s 0 ∧ bitOf v 31 = false) ∧
    (∃ (n : Nat) (v : W32) (s : State), n < 32 ∧ Managed s 0 ∧ s.rick.conflict = true) := by
  refine ⟨?_, ?_, ?_⟩
  · exact ⟨31, { good := true, cseq := 0, ack := 0, nak := true, slots := [.flit (pkt .cnt 0 []) 0] }, withCas portIn, by (repeat' apply And.intro) <;> decide⟩
  · exact ⟨31, 0, withCas portIn, by (repeat' apply And.intro) <;> decide⟩
  · exact ⟨31, 0x80000000, { up with rick := { conflict := true, ports := [(31, portIn)] } }, by (repeat' apply And.intro) <;> decide⟩

theorem witness_RickCommandsComplete :
    (∃ (q via : Nat) (sn : W64) (ps : List W64) (s : State), s.rick.master = true ∧ 0 < q ∧ q < 64 ∧ via < 32 ∧ (s.cas via).st = 2 ∧ (s.rick.admitted.find? fun m => m.1 == q) = none) ∧
    (∃ (s : State), Served s ∧ s.rick.busy = false ∧ s.rick.master = true) ∧
    (∃ (s : State), Served s ∧ s.rick.busy = false ∧ s.rick.master = false) ∧
    (∃ (v : W32) (s : State), Served s ∧ s.rick.busy = false ∧ s.rick.master = false) ∧
    (∃ (g : Nat) (s : State), s.svRuns = true ∧ s.rick.conflict = false ∧ 0 < g ∧ (s.rick.master = true → g = s.rick.pubs)) ∧
    (∃ (v : W32) (s : State), Served s ∧ s.rick.busy = false ∧ s.rick.master = true) ∧
    (∃ (v : W32) (s : State), s.rick.inrick = true ∧ s.rick.master = false ∧ s.rick.conflict = false) ∧
    (∃ (s : State), s.rick.busy = true ∧ s.rick.publishing = false ∧ (s.ctx s.rick.context).st ≠ .resetting) := by
  refine ⟨?_, ?_, ?_, ?_, ?_, ?_, ?_, ?_⟩
  · exact ⟨63, 31, 7, [], { up with rick := { master := true, ports := [(31, portIn)] } }, by (repeat' apply And.intro) <;> decide⟩
  · exact ⟨{ up with rick := { master := true } }, by (repeat' apply And.intro) <;> decide⟩
  · exact ⟨up, by (repeat' apply And.intro) <;> decide⟩
  · exact ⟨0, up, by (repeat' apply And.intro) <;> decide⟩
  · exact ⟨1, { up with rick := { master := true, pubs := 1 } }, by (repeat' apply And.intro) <;> decide⟩
  · exact ⟨0, { up with rick := { master := true } }, by (repeat' apply And.intro) <;> decide⟩
  · exact ⟨0x0BFF0000, { up with rick := { inrick := true } }, by (repeat' apply And.intro) <;> decide⟩
  · exact ⟨{ up with rick := { busy := true, context := 3071 } }, by (repeat' apply And.intro) <;> decide⟩

theorem witness_TimebaseAndReferencesComplete_time :
    (∃ (m : Nat) (s : State), s.rick.master = false ∧ s.rick.inrick = true ∧ s.rick.conflict = false) ∧
    (∃ (s : State), s.rick.master = false ∧ s.rick.tsync = true) ∧
    (∃ (q id : Nat) (n : W32) (s : State), s.rick.master = true ∧ id < 64 ∧ s.members.contains q = true) ∧
    (∃ (id : Nat) (t : W64) (s : State), s.rick.master = false ∧ s.rick.inrick = true ∧ id < 64) := by
  refine ⟨?_, ?_, ?_, ?_⟩
  · exact ⟨7, { up with rick := { inrick := true } }, by (repeat' apply And.intro) <;> decide⟩
  · exact ⟨{ up with rick := { tsync := true } }, by (repeat' apply And.intro) <;> decide⟩
  · exact ⟨5, 63, 9, { up with rick := { master := true, admitted := [(5, 7)], ports := [(31, { portIn with pserial := 7 })] } }, by (repeat' apply And.intro) <;> decide⟩
  · exact ⟨63, 9, { up with rick := { inrick := true } }, by (repeat' apply And.intro) <;> decide⟩

theorem witness_TimebaseAndReferencesComplete_references :
    (∃ (i : Nat) (s : State), 8 ≤ i ∧ i < 0x18 ∧ s.clk.lossOf i = none) ∧
    (∃ (i : Nat) (s : State), i < 3 ∧ (∀ j ∈ refInputs i, s.clk.lossOf j = none) ∧ (i = 2 ∨ (if i = 0 then s.clk.refB else s.clk.refA) = false)) ∧
    (∃ (i : Nat) (s : State), refInput i = true ∧ (∀ j ∈ refInputs i, s.clk.lossOf j ≠ none)) ∧
    (∃ (i t : Nat) (s : State), s.clk.lossOf i = some t ∧ 2 ≤ i ∧ t + 10 * sec ≤ s.time) ∧
    (∃ (p : Nat) (fs : BitVec 4) (s : State), p < 272 ∧ (s.site p).st ≠ .dark ∧ (s.site p).clk.freeRun = false ∧ (s.site p).clk.coupled &&& fs ≠ 0) ∧
    (∃ (p : Nat) (s : State), p < 272 ∧ (s.site p).st ≠ .dark ∧ isCorner p = true ∧ ((s.site p).clk.decoupled = true ∨ (s.site p).clk.freeRun = true ∨ (s.site p).clk.lossHold = true ∨ (s.site p).clk.coupled ≠ (s.site p).clk.present)) ∧
    (∃ (p q : Nat) (f : Face) (s : State), p < 272 ∧ (s.site p).st ≠ .dark ∧ siteNeighbour p f = some q ∧ (s.site q).inMesh = true ∧ ((s.site p).clk.decoupled = true ∨ (s.site p).clk.freeRun = true ∨ (s.site p).clk.lossHold = true ∨ (s.site p).clk.coupled ≠ (s.site p).clk.present)) ∧
    (∃ (p r : Nat) (s : State), p < 272 ∧ (s.site p).clk.freeRun = true ∧ (s.site p).st ≠ .dark ∧ s.svRuns = true) := by
  refine ⟨?_, ?_, ?_, ?_, ?_, ?_, ?_, ?_⟩
  · exact ⟨0x17, up, by (repeat' apply And.intro) <;> decide⟩
  · exact ⟨1, up, by (repeat' apply And.intro) <;> decide⟩
  · exact ⟨2, { up with clk := { losses := [(0, 5), (1, 6)], holdover := true } }, by (repeat' apply And.intro) <;> decide⟩
  · exact ⟨0x17, 0, { up with clk := { losses := [(0x17, 0)] }, time := 10000000000 }, by (repeat' apply And.intro) <;> decide⟩
  · exact ⟨271, 8, withSite { st := .active, clk := { coupled := 12 } }, by (repeat' apply And.intro) <;> decide⟩
  · exact ⟨271, withSite { st := .active, clk := { freeRun := true } }, by (repeat' apply And.intro) <;> decide⟩
  · exact ⟨271, 270, .north, { up with sites := [(270, { st := .active }), (271, { st := .active, clk := { freeRun := true } })] }, by (repeat' apply And.intro) <;> decide⟩
  · exact ⟨271, 999990, withSite { st := .active, clk := { freeRun := true } }, by (repeat' apply And.intro) <;> decide⟩

theorem witness_TimebaseAndReferencesComplete_more :
    (∃ (m : Nat) (s : State), s.rick.master = false ∧ s.rick.inrick = true ∧ s.rick.conflict = false ∧ m < s.time) ∧
    (∃ (m : Nat) (s : State), s.rick.master = false ∧ s.rick.inrick = true ∧ s.rick.conflict = false ∧ s.time ≤ m ∧ m ≤ s.time + 10 * us) ∧
    (∃ (m : Nat) (s : State), s.rick.master = false ∧ s.rick.inrick = true ∧ s.rick.conflict = false ∧ s.time + 10 * us < m) ∧
    (∃ (i : Nat) (s : State), i < 2 ∧ s.clk.lossOf i = none ∧ (if i = 0 then s.clk.refB else s.clk.refA) = true) ∧
    (∃ (i t : Nat) (s : State), s.clk.lossOf i = some t ∧ 2 ≤ i ∧ t + 10 * sec ≤ s.time ∧ i < 0x10) ∧
    (∃ (p : Nat) (fs : BitVec 4) (s : State), p < 272 ∧ (s.site p).st ≠ .dark ∧ (s.site p).clk.freeRun = false ∧ (s.site p).clk.coupled &&& fs ≠ 0 ∧ (s.site p).clk.coupled &&& ~~~fs = 0 ∧ isCorner p = false) ∧
    (∃ (p : Nat) (fs : BitVec 4) (s : State), p < 272 ∧ (s.site p).st = .off ∧ (s.site p).clk.coupled &&& fs = 0 ∧ (s.site p).clk.decoupled = true) ∧
    (∃ (p : Nat) (s : State), p < 272 ∧ (s.site p).st ≠ .dark ∧ isCorner p = true ∧ (s.site p).clk.lossHold = true) := by
  refine ⟨?_, ?_, ?_, ?_, ?_, ?_, ?_, ?_⟩
  · exact ⟨0, { up with rick := { inrick := true } }, by (repeat' apply And.intro) <;> decide⟩
  · exact ⟨15000, { up with rick := { inrick := true } }, by (repeat' apply And.intro) <;> decide⟩
  · exact ⟨15001, { up with rick := { inrick := true } }, by (repeat' apply And.intro) <;> decide⟩
  · exact ⟨1, { up with clk := { refA := true, refB := true } }, by (repeat' apply And.intro) <;> decide⟩
  · exact ⟨0x0F, 0, { up with clk := { losses := [(0x0F, 0)] }, time := 10000000000 }, by (repeat' apply And.intro) <;> decide⟩
  · exact ⟨255, 15, { up with sites := [(255, { st := .active, clk := { coupled := 13 } })] }, by (repeat' apply And.intro) <;> decide⟩
  · exact ⟨271, 15, withSite { st := .off, clk := { decoupled := true } }, by (repeat' apply And.intro) <;> decide⟩
  · exact ⟨271, withSite { st := .active, clk := { lossHold := true } }, by (repeat' apply And.intro) <;> decide⟩

theorem witness_StepsAndBanksComplete :
    (∃ (p : Nat) (s : State), p < 272 ∧ s.svRuns = true ∧ (s.site p).clk.hold = false ∧ (s.site p).clk.pllBad = false ∧ ((s.site p).st = .active ∨ (s.site p).st = .held)) ∧
    (∃ (p : Nat) (s : State), p < 272 ∧ (s.site p).pwr.settled = false ∧ (s.site p).pwr.settleAt ≤ s.time ∧ (s.site p).st ≠ .dark) ∧
    (∃ (p ns : Nat) (back : Bool) (s : State), p < 272 ∧ (s.site p).clk.ph = .stop ∧ (back = true ∨ ns ≤ 4000)) ∧
    (∃ (p : Nat) (s : State), p < 272 ∧ (s.site p).clk.ph = .stop) ∧
    (∃ (q : Nat) (v : W32) (s : State), q < 16 ∧ Managed s 0) ∧
    (∃ (v : W32) (s : State), Served s ∧ ((s.site (s.phys (bitsOf v 7 0))).st = .active ∨ (s.site (s.phys (bitsOf v 7 0))).st = .banked ∨ (s.site (s.phys (bitsOf v 7 0))).st = .held)) ∧
    (∃ (v : W32) (s : State), Served s ∧ ((s.site (s.phys (bitsOf v 7 0))).st = .dark ∨ (s.site (s.phys (bitsOf v 7 0))).st = .off ∨ (s.site (s.phys (bitsOf v 7 0))).st = .reset)) ∧
    (∃ (p : Nat) (s : State), p < 272 ∧ (s.site p).st = .banked ∧ (s.site p).clk.returning = true ∧ (s.site p).pwr.settled = true) := by
  refine ⟨?_, ?_, ?_, ?_, ?_, ?_, ?_, ?_⟩
  · exact ⟨271, withSite { st := .active, pwr := { settled := false, settleAt := 5000 } }, by (repeat' apply And.intro) <;> decide⟩
  · exact ⟨271, withSite { st := .active, pwr := { settled := false, settleAt := 5000 } }, by (repeat' apply And.intro) <;> decide⟩
  · exact ⟨271, 4000, true, withSite { st := .held, clk := { ph := .stop } }, by (repeat' apply And.intro) <;> decide⟩
  · exact ⟨271, withSite { st := .held, clk := { ph := .stop } }, by (repeat' apply And.intro) <;> decide⟩
  · exact ⟨15, 7, up, by (repeat' apply And.intro) <;> decide⟩
  · exact ⟨255, busy ctxUp siteUp, by (repeat' apply And.intro) <;> decide⟩
  · exact ⟨255, busy ctxUp { st := .dark }, by (repeat' apply And.intro) <;> decide⟩
  · exact ⟨271, withSite { st := .banked, clk := { returning := true } }, by (repeat' apply And.intro) <;> decide⟩

theorem witness_InputCompletes :
    (∃ (mv us_ : Nat) (s : State), s.pwr.powered = true ∧ mv < 40000) ∧
    (∃ (mv : Nat) (s : State), s.pwr.powered = true ∧ s.pwr.stopped = false ∧ mv < 36000) ∧
    (∃ (mv : Nat) (s : State), s.pwr.powered = true ∧ 57000 < mv) ∧
    (∃ (mv : Nat) (s : State), s.pwr.powered = true ∧ 60000 < mv) ∧
    (∃ (mv : Nat) (s : State), s.pwr.powered = true ∧ mv < 30000) ∧
    (∃ (mv : Nat) (s : State), s.pwr.powered = true ∧ s.pwr.warned = true ∧ 44000 ≤ mv) := by
  refine ⟨?_, ?_, ?_, ?_, ?_, ?_⟩
  · exact ⟨39999, 500, up, by (repeat' apply And.intro) <;> decide⟩
  · exact ⟨35999, up, by (repeat' apply And.intro) <;> decide⟩
  · exact ⟨57001, up, by (repeat' apply And.intro) <;> decide⟩
  · exact ⟨60001, up, by (repeat' apply And.intro) <;> decide⟩
  · exact ⟨29999, up, by (repeat' apply And.intro) <;> decide⟩
  · exact ⟨44000, { up with pwr := { powered := true, warned := true } }, by (repeat' apply And.intro) <;> decide⟩

theorem witness_RailsComplete :
    (∃ (g : Nat) (s : State), g < 34 ∧ s.pwr.powered = true ∧ s.pwr.convOn = true ∧ (tget {} s.pwr.convs g).st ≠ 1 ∧ (tget {} s.pwr.convs ((g + 17) % 34)).st ≠ 1) ∧
    (∃ (g : Nat) (s : State), g < 34 ∧ s.pwr.powered = true ∧ s.pwr.convOn = true ∧ (tget {} s.pwr.convs g).st ≠ 1 ∧ (tget {} s.pwr.convs ((g + 17) % 34)).st = 1) ∧
    (∃ (p ph : Nat) (s : State), p < 272 ∧ ph < 12 ∧ (s.site p).st ≠ .dark ∧ (s.site p).pwr.phFail.getLsbD ph = false) ∧
    (∃ (p : Nat) (low : Bool) (s : State), p < 272 ∧ (s.site p).st ≠ .dark ∧ (s.site p).st ≠ .off) ∧
    (∃ (p : Nat) (s : State), p < 272 ∧ (s.site p).pwr.fastBub = true) ∧
    (∃ (p : Nat) (r : Rail) (depth ns : Nat) (s : State), p < 272 ∧ (s.site p).st ≠ .dark ∧ 50 < depth ∧ (r = .vb ∨ (s.site p).st ≠ .off)) ∧
    (∃ (p t : Nat) (s : State), p < 272 ∧ (s.site p).pwr.lastReduce = some t ∧ (s.site p).clk.dipLim < 15 ∧ max t ((s.site p).pwr.lastRise.getD 0) + sec ≤ s.time ∧ s.svRuns = true) ∧
    (∃ (p depth : Nat) (s : State), p < 272 ∧ (s.site p).st ≠ .dark) ∧
    (∃ (p depth : Nat) (s : State), p < 272 ∧ (s.site p).st ≠ .dark ∧ (s.site p).st ≠ .off) := by
  refine ⟨?_, ?_, ?_, ?_, ?_, ?_, ?_, ?_, ?_⟩
  · exact ⟨33, up, by (repeat' apply And.intro) <;> decide⟩
  · exact ⟨33, { up with pwr := { powered := true, convOn := true, convs := [(16, { st := 1 })] } }, by (repeat' apply And.intro) <;> decide⟩
  · exact ⟨271, 11, withSite { st := .active }, by (repeat' apply And.intro) <;> decide⟩
  · exact ⟨271, true, withSite { st := .active }, by (repeat' apply And.intro) <;> decide⟩
  · exact ⟨271, withSite { st := .active, pwr := { fastBub := true } }, by (repeat' apply And.intro) <;> decide⟩
  · exact ⟨271, .vc, 51, 100, withSite { st := .active }, by (repeat' apply And.intro) <;> decide⟩
  · exact ⟨271, 0, { withSite { st := .active, clk := { dipLim := 14 }, pwr := { lastReduce := some 0 } } with time := 1000000000 }, by (repeat' apply And.intro) <;> decide⟩
  · exact ⟨271, 200, withSite { st := .off }, by (repeat' apply And.intro) <;> decide⟩
  · exact ⟨271, 200, withSite { st := .active }, by (repeat' apply And.intro) <;> decide⟩

theorem witness_RailsComplete_more :
    (∃ (p ph : Nat) (s : State), p < 272 ∧ ph < 12 ∧ (s.site p).st ≠ .dark ∧ (s.site p).pwr.phFail.getLsbD ph = false ∧ 4 ≤ popcount ((s.site p).pwr.phFail ||| BitVec.ofNat 12 (2 ^ ph)) ∧ s.svRuns = true) ∧
    (∃ (p : Nat) (r : Rail) (depth ns : Nat) (s : State), p < 272 ∧ (s.site p).st ≠ .dark ∧ 50 < depth ∧ r = .vb) := by
  refine ⟨?_, ?_⟩
  · exact ⟨271, 11, withSite { st := .active, pwr := { phFail := 7 } }, by (repeat' apply And.intro) <;> decide⟩
  · exact ⟨271, .vb, 51, 100, withSite { st := .off }, by (repeat' apply And.intro) <;> decide⟩

theorem witness_PathsComplete :
    let sel (s : State) : Nat := bitsOf (s.port 0).sitesel 8 4 * 16 + bitsOf (s.port 0).sitesel 3 0
    (∃ (p c : Nat) (r : Rail) (s : State), p < 272 ∧ (s.site p).pwr.sw ≠ .isolated ∧ s.pwr.convOn = true ∧ (c = 1 ∨ c = 2)) ∧
    (∃ (p r : Nat) (s : State), p < 272 ∧ 130 < r ∧ (s.site p).st ≠ .dark ∧ s.svRuns = true) ∧
    (∃ (s : State), Served s ∧ sel s < 272 ∧ (s.site (sel s)).st ≠ .dark) ∧
    (∃ (s : State), Served s ∧ sel s < 272 ∧ (s.site (sel s)).st = .dark) ∧
    (∃ (s : State), Served s ∧ sel s < 272 ∧ (s.site (sel s)).pwr.sw ≠ .isolated) ∧
    (∃ (s : State), Served s ∧ sel s < 272 ∧ (s.site (sel s)).pwr.sw = .isolated) ∧
    (∃ (s : State), Served s ∧ sel s < 272 ∧ (s.site (sel s)).pwr.sw = .isolated ∧ popcount (s.site (sel s)).pwr.phFail < 4) ∧
    (∃ (s : State), Served s ∧ sel s < 272 ∧ (s.site (sel s)).pwr.sw = .isolated ∧ 4 ≤ popcount (s.site (sel s)).pwr.phFail) ∧
    (∃ (p b : Nat) (s : State), p < 272 ∧ (s.site p).pwr.refining = true ∧ (s.site p).pwr.refineSince + 72 * hour ≤ s.time ∧ (s.site p).st ≠ .dark ∧ s.svRuns = true) := by
  intros
  refine ⟨?_, ?_, ?_, ?_, ?_, ?_, ?_, ?_, ?_⟩
  · exact ⟨271, 1, .vc, withSite { st := .active, pwr := { sw := .on } }, by (repeat' apply And.intro) <;> decide⟩
  · exact ⟨271, 131, withSite { st := .active }, by (repeat' apply And.intro) <;> decide⟩
  · exact ⟨{ up with host := { ports := [(0, { portUp with sitesel := 0x10F })] }, sites := [(271, { st := .active })] }, by (repeat' apply And.intro) <;> decide⟩
  · exact ⟨{ up with host := { ports := [(0, { portUp with sitesel := 0x10F })] }, sites := [(271, { st := .dark })] }, by (repeat' apply And.intro) <;> decide⟩
  · exact ⟨{ up with host := { ports := [(0, { portUp with sitesel := 0x10F })] }, sites := [(271, { st := .active })] }, by (repeat' apply And.intro) <;> decide⟩
  · exact ⟨{ up with host := { ports := [(0, { portUp with sitesel := 0x10F })] }, sites := [(271, { st := .dark, pwr := { sw := .isolated } })] }, by (repeat' apply And.intro) <;> decide⟩
  · exact ⟨{ up with host := { ports := [(0, { portUp with sitesel := 0x10F })] }, sites := [(271, { st := .dark, pwr := { sw := .isolated, phFail := 7 } })] }, by (repeat' apply And.intro) <;> decide⟩
  · exact ⟨{ up with host := { ports := [(0, { portUp with sitesel := 0x10F })] }, sites := [(271, { st := .dark, pwr := { sw := .isolated, phFail := 15 } })] }, by (repeat' apply And.intro) <;> decide⟩
  · exact ⟨271, 400, { withSite { st := .active } with time := 259200000000000 }, by (repeat' apply And.intro) <;> decide⟩

theorem witness_SoftStartsComplete :
    (∃ (p : Nat) (s : State), p < 272 ∧ (s.site p).pwr.soft = .queued ∧ (s.site p).pwr.sw ≠ .isolated ∧ s.maySoft p = true) ∧
    (∃ (p : Nat) (s : State), p < 272 ∧ (s.site p).pwr.soft = .ramping ∧ s.groupFed (groupOf p) = true ∧ s.svRuns = true ∧ (s.site p).pwr.softSince + (600 * us + (s.site p).pwr.held) ≤ s.time ∧ (s.site p).st = .dark) ∧
    (∃ (p : Nat) (s : State), p < 272 ∧ (s.site p).pwr.soft = .ramping ∧ s.groupFed (groupOf p) = true ∧ (s.site p).pwr.softSince + (1400 * us + (s.site p).pwr.held) ≤ s.time ∧ (s.site p).st ≠ .dark ∧ (s.site p).pwr.rejoining = true) ∧
    (∃ (p : Nat) (s : State), p < 272 ∧ (s.site p).pwr.soft = .ramping ∧ s.groupFed (groupOf p) = true ∧ (s.site p).pwr.softSince + (1400 * us + (s.site p).pwr.held) ≤ s.time ∧ (s.site p).st ≠ .dark ∧ (s.site p).pwr.rejoining = false ∧ (s.site p).clk.wantsBank = false) ∧
    (∃ (p : Nat) (s : State), p < 272 ∧ (s.site p).pwr.soft = .ramping ∧ 10 * ms < heldFor (s.site p) s.time) ∧
    (∃ (p : Nat) (s : State), p < 272 ∧ (s.site p).pwr.soft = .abandoned ∧ (s.site p).pwr.sw ≠ .isolated ∧ (s.site p).pwr.softSince + 100 * ms ≤ s.time ∧ s.svRuns = true) ∧
    (∃ (p : Nat) (s : State), p < 272 ∧ (s.site p).pwr.rejoinDue = true ∧ (s.site p).pwr.sw ≠ .isolated ∧ s.svRuns = true ∧ s.pwr.convOn = true ∧ s.pwr.stopped = false) ∧
    (∃ (p : Nat) (s : State), p < 272 ∧ (s.site p).pwr.rejoining = true ∧ (s.site p).st = .reset ∧ s.svRuns = true ∧ (s.site p).clk.wantsBank = false ∧ (s.site p).clk.ph = .none) := by
  refine ⟨?_, ?_, ?_, ?_, ?_, ?_, ?_, ?_⟩
  · exact ⟨271, withSite { st := .dark, pwr := { soft := .queued } }, by (repeat' apply And.intro) <;> decide +kernel⟩
  · exact ⟨271, { withSite { st := .dark, pwr := { soft := .ramping } } with time := 600000 }, by (repeat' apply And.intro) <;> decide⟩
  · exact ⟨271, { withSite { st := .off, pwr := { soft := .ramping, rejoining := true } } with time := 1400000 }, by (repeat' apply And.intro) <;> decide⟩
  · exact ⟨271, { withSite { st := .off, pwr := { soft := .ramping } } with time := 1400000 }, by (repeat' apply And.intro) <;> decide⟩
  · exact ⟨271, { withSite { st := .off, pwr := { soft := .ramping, held := 10000001, holdEnd := 20000000 } } with time := 20000000 }, by (repeat' apply And.intro) <;> decide⟩
  · exact ⟨271, { withSite { st := .off, pwr := { soft := .abandoned } } with time := 100000000 }, by (repeat' apply And.intro) <;> decide⟩
  · exact ⟨271, withSite { st := .dark, pwr := { rejoinDue := true } }, by (repeat' apply And.intro) <;> decide⟩
  · exact ⟨271, withSite { st := .reset, pwr := { rejoining := true } }, by (repeat' apply And.intro) <;> decide⟩

theorem witness_SoftStartsComplete_fails :
    ∃ (p : Nat) (found : List BadUnit) (s : State), p < 272 ∧ (s.site p).pwr.rejoining = true ∧ (s.site p).st = .reset ∧ s.svRuns = true ∧ ∃ u ∈ found, BadUnit_kind u = 1 ∧ BadUnit_site u = p := by
  exact ⟨271, [{ kind := 1, pc := 16, pr := 15, trow := 0, tpos := 0, face := 0, link := 0 }], withSite { st := .reset, pwr := { rejoining := true } }, ⟨by decide, by decide, by decide, by decide, { kind := 1, pc := 16, pr := 15, trow := 0, tpos := 0, face := 0, link := 0 }, by decide, by decide, by decide⟩⟩

theorem witness_CapControlCompletes :
    (∃ (l : List SiteMeas) (k : List ConvMeas) (s : State), s.pwr.convOn = true) ∧
    (∃ (v : W32) (s : State), Served s ∧ 8000 ≤ bitsOf v 15 0 ∧ bitsOf v 15 0 ≤ 40000) ∧
    (∃ (v : W32) (s : State), Served s ∧ (bitsOf v 15 0 < 8000 ∨ 40000 < bitsOf v 15 0)) ∧
    (∃ (m : PowerMeas) (s : State), s.pwr.convOn = true) ∧
    (∃ (p : Nat) (v : W32) (s : State), p < 16 ∧ Served s) ∧
    (∃ (p m mv : Nat) (s : State), p < 272 ∧ ((s.site p).st = .active ∨ (s.site p).st = .held)) ∧
    (∃ (p : Nat) (s : State), p < 272 ∧ ((s.site p).st = .active ∨ (s.site p).st = .held) ∧ s.svRuns = true ∧ (s.site p).ctl.capAt = some 0 ∧ 0 + 10 * ms ≤ s.time) ∧
    (∃ (p : Nat) (s : State), p < 16 ∧ Served s ∧ (s.partn p).st ≠ .undefined) ∧
    (∃ (p : Nat) (s : State), p < 16 ∧ Served s ∧ (s.partn p).st = .undefined) ∧
    (∃ (s : State), s.svRuns = true ∧ (s.hlt.sva = .standby ∨ s.hlt.svb = .standby)) ∧
    (∃ (p : Nat) (v : W32) (s : State), s.reach p = true) ∧
    (∃ (v : W32) (s : State), Managed s 0) := by
  refine ⟨?_, ?_, ?_, ?_, ?_, ?_, ?_, ?_, ?_, ?_, ?_, ?_⟩
  · exact ⟨[], [], up, by (repeat' apply And.intro) <;> decide⟩
  · exact ⟨8000, up, by (repeat' apply And.intro) <;> decide⟩
  · exact ⟨7999, up, by (repeat' apply And.intro) <;> decide⟩
  · exact ⟨{ panel := 20000000, sites := [] }, up, by (repeat' apply And.intro) <;> decide⟩
  · exact ⟨15, 0x80000000, up, by (repeat' apply And.intro) <;> decide⟩
  · exact ⟨271, 900, 700, withSite { st := .active }, by (repeat' apply And.intro) <;> decide⟩
  · exact ⟨271, { withSite { st := .active, ctl := { capAt := some 0 } } with time := 10000000 }, by (repeat' apply And.intro) <;> decide⟩
  · exact ⟨15, { up with parts := [(15, { st := .defined })] }, by (repeat' apply And.intro) <;> decide⟩
  · exact ⟨15, up, by (repeat' apply And.intro) <;> decide⟩
  · exact ⟨up, by (repeat' apply And.intro) <;> decide⟩
  · exact ⟨0, 5, up, by (repeat' apply And.intro) <;> decide⟩
  · exact ⟨0x80000000, up, by (repeat' apply And.intro) <;> decide⟩

theorem witness_CapControlCompletes_more :
    (∃ (v : W32) (s : State), Managed s 0 ∧ bitOf v 31 = true ∧ s.host.tel.en = false) ∧
    (∃ (p : Nat) (s : State), p < 272 ∧ ((s.site p).st = .active ∨ (s.site p).st = .held) ∧ s.svRuns = true ∧ (s.site p).ctl.capAt = none) := by
  refine ⟨?_, ?_⟩
  · exact ⟨0x80000000, up, by (repeat' apply And.intro) <;> decide⟩
  · exact ⟨271, withSite { st := .held }, by (repeat' apply And.intro) <;> decide⟩

theorem witness_ThermalCompletes :
    (∃ (p a b c : Nat) (s : State), p < 272 ∧ (s.site p).st ≠ .dark ∧ (s.site p).thm.sensorBad = false ∧ max a (max b c) < 105) ∧
    (∃ (p a b c : Nat) (s : State), p < 272 ∧ (s.site p).st ≠ .dark ∧ 115 ≤ c) ∧
    (∃ (p a b c : Nat) (s : State), p < 272 ∧ (s.site p).st ≠ .dark ∧ (s.site p).st ≠ .off ∧ c < 115 ∧ (115 ≤ a ∨ 115 ≤ b)) ∧
    (∃ (p a b c : Nat) (s : State), p < 272 ∧ ((s.site p).st = .active ∨ (s.site p).st = .held ∨ (s.site p).st = .banked) ∧ a < 115 ∧ b < 115 ∧ c < 115 ∧ 105 ≤ max a (max b c)) ∧
    (∃ (s : State), s.svRuns = true) ∧
    (∃ (p t : Nat) (s : State), p < 272 ∧ (s.site p).clk.bankHeat = true ∧ s.svRuns = true ∧ (s.site p).thm.sensorBad = false ∧ (s.site p).thm.coolSince = some t ∧ t + 100 * ms ≤ s.time ∧ (s.site p).temp < 90) ∧
    (∃ (p t : Nat) (s : State), p < 272 ∧ (s.site p).thm.heatOff = true ∧ (s.site p).st = .off ∧ (s.site p).pwr.soft = .none ∧ (s.site p).pwr.attempts < 3 ∧ (s.site p).thm.coolSince = some t ∧ t + sec ≤ s.time ∧ (s.site p).thm.sensorBad = false ∧ s.svRuns = true ∧ s.pwr.stopped = false) := by
  refine ⟨?_, ?_, ?_, ?_, ?_, ?_, ?_⟩
  · exact ⟨271, 104, 104, 104, withSite { st := .active }, by (repeat' apply And.intro) <;> decide⟩
  · exact ⟨271, 20, 20, 115, withSite { st := .active }, by (repeat' apply And.intro) <;> decide⟩
  · exact ⟨271, 115, 20, 114, withSite { st := .active }, by (repeat' apply And.intro) <;> decide⟩
  · exact ⟨271, 105, 20, 114, withSite { st := .banked }, by (repeat' apply And.intro) <;> decide⟩
  · exact ⟨up, by (repeat' apply And.intro) <;> decide⟩
  · exact ⟨271, 0, { withSite { st := .banked, clk := { bankHeat := true }, thm := { coolSince := some 0 } } with time := 100000000 }, by (repeat' apply And.intro) <;> decide⟩
  · exact ⟨271, 0, { withSite { st := .off, thm := { heatOff := true, coolSince := some 0 } } with time := 1000000000 }, by (repeat' apply And.intro) <;> decide⟩

theorem witness_ThermalCompletes_sensors :
    (∃ (p d : Nat) (r : TempReading) (s : State), p < 272 ∧ ((s.site p).st = .active ∨ (s.site p).st = .held ∨ (s.site p).st = .banked) ∧ r.disagree = some d ∧ r.comp.getD 0 < 115 ∧ r.sram.getD 0 < 115 ∧ r.base.getD 0 < 115) ∧
    (∃ (p t t' : Nat) (s : State), p < 272 ∧ (s.site p).clk.bankHeat = true ∧ s.svRuns = true ∧ (s.site p).thm.sensorBad = true ∧ (s.site p).thm.sensorSince = some t' ∧ t' + 100 * ms ≤ s.time ∧ (s.site p).thm.coolSince = some t ∧ t + 100 * ms ≤ s.time ∧ (s.site p).temp < 90) := by
  refine ⟨?_, ?_⟩
  · exact ⟨271, 2, { comp := some 114, sram := none, base := none, disagree := some 2 }, withSite { st := .banked }, by (repeat' apply And.intro) <;> decide⟩
  · exact ⟨271, 0, 0, { withSite { st := .banked, clk := { bankHeat := true }, thm := { sensorBad := true, sensorSince := some 0, coolSince := some 0 } } with time := 100000000 }, by (repeat' apply And.intro) <;> decide⟩

theorem witness_BringUpCompletes :
    (∃ (env : BringUpEnv) (s : State), s.pwr.powered = false ∧ 44000 ≤ env.vin ∧ env.vin ≤ 60000 ∧ env.svaReads = false) ∧
    (∃ (env : BringUpEnv) (s : State), s.pwr.powered = false ∧ 44000 ≤ env.vin ∧ env.vin ≤ 60000 ∧ env.svaReads = true ∧ env.strapRecov = true) ∧
    (∃ (env : BringUpEnv) (s : State), s.pwr.powered = false ∧ 44000 ≤ env.vin ∧ env.vin ≤ 60000 ∧ env.svaReads = true ∧ env.strapRecov = false ∧ env.flashAlive = false) ∧
    (∃ (env : BringUpEnv) (s : State), s.pwr.powered = false ∧ 44000 ≤ env.vin ∧ env.vin ≤ 60000 ∧ env.svaReads = true ∧ env.strapRecov = false ∧ env.flashAlive = true ∧ imageCheck s.spi.image s.ses.owner s.ses.svnMin ≠ 0) ∧
    (∃ (env : BringUpEnv) (s : State), s.spi.boot = some env ∧ s.pwr.powered = true ∧ s.pwr.stopped = false ∧ s.spi.stage = .rom ∧ env.svaReads = false) ∧
    (∃ (s : State), s.spi.stage = .publish ∧ s.spi.ddrZeroed = true ∧ s.pwr.powered = true ∧ s.pwr.stopped = false ∧ ∀ p, p < 272 → s.siteReady p = true) ∧
    (∃ (env : BringUpEnv) (s : State), s.spiReach 0 = true ∧ s.spi.running = false ∧ (s.isReady = false ∨ s.hasSession 0 = true)) := by
  refine ⟨?_, ?_, ?_, ?_, ?_, ?_, ?_⟩
  · exact ⟨{ bring with svaReads := false }, State.reset, by (repeat' apply And.intro) <;> decide +kernel⟩
  · exact ⟨{ bring with vin := 60000, strapRecov := true }, State.reset, by (repeat' apply And.intro) <;> decide +kernel⟩
  · exact ⟨{ bring with flashAlive := false }, State.reset, by (repeat' apply And.intro) <;> decide +kernel⟩
  · exact ⟨bring, State.reset, by (repeat' apply And.intro) <;> decide +kernel⟩
  · exact ⟨{ bring with svaReads := false }, { State.reset with pwr := { powered := true }, spi := { boot := some { bring with svaReads := false } } }, by (repeat' apply And.intro) <;> decide +kernel⟩
  · exact ⟨{ up with spi := { stage := .publish, ddrZeroed := true }, sites := (rangeFrom 0 272).map fun p => (p, { st := .dark }) }, by (repeat' apply And.intro) <;> decide +kernel⟩
  · exact ⟨bring, up, by (repeat' apply And.intro) <;> decide +kernel⟩

theorem witness_SerialMemoryCompletes :
    (∃ (s : State), SpiFree s ∧ s.inRecovery = false ∧ settingsOk (memGetList s.spi.staging 0 512) = true) ∧
    (∃ (s : State), SpiFree s ∧ s.inRecovery = false ∧ settingsOk (memGetList s.spi.staging 0 512) = false) ∧
    (∃ (f : List Byte) (s : State), s.spi.committing = some f ∧ s.svRuns = true) ∧
    (∃ (s : State), s.spiReach 0 = true ∧ s.spi.running = false ∧ (s.inRecovery = true ∨ s.hasSession 0 = true) ∧ 0x3000 ≤ s.spi.upLen ∧ imgLenOk (s.spi.upLen - 0x3000) = true ∧ (s.port 0).mute = false) ∧
    (∃ (s : State), s.spiReach 0 = true ∧ s.spi.running = false ∧ (s.inRecovery = true ∨ s.hasSession 0 = true) ∧ (s.spi.upLen < 0x3000 ∨ imgLenOk (s.spi.upLen - 0x3000) = false)) ∧
    (∃ (s : State), s.spiReach 0 = true ∧ s.spi.running = false ∧ (s.inRecovery = true ∨ s.hasSession 0 = true) ∧ 0x3000 ≤ s.spi.upLen ∧ imgLenOk (s.spi.upLen - 0x3000) = true ∧ (s.port 0).mute = true) ∧
    (∃ (r : Nat) (s : State), s.svRuns = true ∧ (r = 9 ∨ r = 10) ∧ s.spi.cmdSt = 5) ∧
    (∃ (r : Nat) (s : State), s.svRuns = true ∧ r = 9 ∧ (s.spi.cmdSt = 3 ∨ s.spi.cmdSt = 4)) ∧
    (∃ (s : State), s.svRuns = true ∧ s.spi.cmdSt = 5 ∧ s.updateCheck ≠ 0) ∧
    (∃ (s : State), s.svRuns = true ∧ (s.spi.lrWait ≠ [] ∨ s.spi.lrPhase ≠ 0) ∧ s.spi.holdsWrites = false ∧ (s.spi.half s.spi.lrUseB).complete = true ∧ s.spi.lrPhase = 0 ∧ lrBytes ((s.spi.half s.spi.lrUseB).append s.spi.lrWait).entries * 10 < 0x200000 * 9) ∧
    (∃ (s : State), s.svRuns = true ∧ (s.spi.lrWait ≠ [] ∨ s.spi.lrPhase ≠ 0) ∧ s.spi.holdsWrites = false ∧ (s.spi.half s.spi.lrUseB).complete = true ∧ s.spi.lrPhase = 1) ∧
    (∃ (s : State), s.svRuns = true ∧ (s.spi.lrWait ≠ [] ∨ s.spi.lrPhase ≠ 0) ∧ s.spi.holdsWrites = false ∧ (s.spi.half s.spi.lrUseB).complete = true ∧ s.spi.lrPhase = 2) ∧
    (∃ (s : State), s.svRuns = true ∧ (s.spi.lrWait ≠ [] ∨ s.spi.lrPhase ≠ 0) ∧ s.spi.holdsWrites = false ∧ (s.spi.half s.spi.lrUseB).complete = false ∧ lrBytes s.spi.lrWait * 10 < 0x200000 * 9) ∧
    (∃ (s : State), s.svRuns = true ∧ (s.spi.logBuf ≠ [] ∨ s.spi.logLost ≠ 0) ∧ s.spi.holdsWrites = false ∧ s.spi.logLost = 0) ∧
    (∃ (s : State), s.svRuns = true ∧ (s.spi.logBuf ≠ [] ∨ s.spi.logLost ≠ 0) ∧ s.spi.holdsWrites = false ∧ s.spi.logLost ≠ 0) := by
  refine ⟨?_, ?_, ?_, ?_, ?_, ?_, ?_, ?_, ?_, ?_, ?_, ?_, ?_, ?_, ?_⟩
  · exact ⟨up, by (repeat' apply And.intro) <;> decide +kernel⟩
  · exact ⟨{ up with spi := { stage := .ready, staging := [(0, 1), (4, 64)] } }, by (repeat' apply And.intro) <;> decide +kernel⟩
  · exact ⟨[1], { up with spi := { stage := .ready, committing := some [1] } }, by (repeat' apply And.intro) <;> decide +kernel⟩
  · exact ⟨{ up with spi := { stage := .ready, upLen := 0x3008 } }, by (repeat' apply And.intro) <;> decide +kernel⟩
  · exact ⟨{ up with spi := { stage := .ready, upLen := 0x2FFF } }, by (repeat' apply And.intro) <;> decide +kernel⟩
  · exact ⟨{ up with spi := { stage := .ready, upLen := 0x3008 }, host := { ports := [(0, { portUp with cutBme := true })] } }, by (repeat' apply And.intro) <;> decide +kernel⟩
  · exact ⟨10, { up with spi := { stage := .ready, cmdSt := 5 } }, by (repeat' apply And.intro) <;> decide +kernel⟩
  · exact ⟨9, { up with spi := { stage := .ready, cmdSt := 3 } }, by (repeat' apply And.intro) <;> decide +kernel⟩
  · exact ⟨{ up with spi := { stage := .ready, cmdSt := 5 } }, by (repeat' apply And.intro) <;> decide +kernel⟩
  · exact ⟨{ up with spi := { stage := .ready, lrA := { gen := 1, complete := true }, lrWait := [{ type := 2, seq := 0, payload := [5] }] } }, by (repeat' apply And.intro) <;> decide +kernel⟩
  · exact ⟨{ up with spi := { stage := .ready, lrA := { gen := 1, complete := true }, lrPhase := 1 } }, by (repeat' apply And.intro) <;> decide +kernel⟩
  · exact ⟨{ up with spi := { stage := .ready, lrA := { gen := 1, complete := true }, lrPhase := 2 } }, by (repeat' apply And.intro) <;> decide +kernel⟩
  · exact ⟨{ up with spi := { stage := .ready, lrWait := [{ type := 2, seq := 0, payload := [5] }] } }, by (repeat' apply And.intro) <;> decide +kernel⟩
  · exact ⟨{ up with spi := { stage := .ready, logBuf := [{ w0 := 0, w1 := 0, w2 := 0, w3 := 0 }] } }, by (repeat' apply And.intro) <;> decide +kernel⟩
  · exact ⟨{ up with spi := { stage := .ready, logLost := 1 } }, by (repeat' apply And.intro) <;> decide +kernel⟩

/-- A section with more than nine tenths of its half. -/
theorem witness_SerialMemoryCompletes_full :
    ∃ (s : State), s.svRuns = true ∧ (s.spi.lrWait ≠ [] ∨ s.spi.lrPhase ≠ 0) ∧ s.spi.holdsWrites = false ∧ (s.spi.half s.spi.lrUseB).complete = true ∧ s.spi.lrPhase = 0 ∧
      0x200000 * 9 ≤ lrBytes ((s.spi.half s.spi.lrUseB).append s.spi.lrWait).entries * 10 := by
  have bytes (n : Nat) (hn : 235920 ≤ n) : 0x200000 * 9 ≤ lrBytes (LrHalf.append { gen := 1, complete := true } [{ type := 2, seq := 0, payload := List.replicate n 0 }]).entries * 10 := by
    simp only [lrBytes, LrHalf.append, Learned.bytes, List.map_cons, List.map_nil, List.nil_append, List.foldl_cons, List.foldl_nil, List.length_replicate]; omega
  have key (n : Nat) (hn : 235920 ≤ n) : ∃ (s : State), s.svRuns = true ∧ (s.spi.lrWait ≠ [] ∨ s.spi.lrPhase ≠ 0) ∧ s.spi.holdsWrites = false ∧
      (s.spi.half s.spi.lrUseB).complete = true ∧ s.spi.lrPhase = 0 ∧ 0x200000 * 9 ≤ lrBytes ((s.spi.half s.spi.lrUseB).append s.spi.lrWait).entries * 10 :=
    ⟨{ up with spi := { stage := .ready, lrA := { gen := 1, complete := true }, lrWait := [{ type := 2, seq := 0, payload := List.replicate n 0 }] } },
      rfl, .inl (List.cons_ne_nil _ _), rfl, rfl, rfl, bytes n hn⟩
  exact key 235920 (Nat.le_refl _)

theorem witness_SelfTestsComplete :
    (∃ (t : Nat) (s : State), t < 32768 ∧ (s.tileSt t).st = .active ∧ s.runs t = true ∧ s.sliceDue t = true) ∧
    (∃ (t : Nat) (s : State), t < 32768 ∧ (s.tileSt t).st = .active ∧ s.runs t = true ∧ s.sliceDue t = true ∧ s.svRuns = false) ∧
    (∃ (t : Nat) (s : State), t < 32768 ∧ (s.tileSt t).st = .active ∧ s.runs t = true ∧ s.sliceDue t = true ∧ s.svRuns = true) ∧
    (∃ (s : State), s.svRuns = true ∧ s.hlt.hourAt + hour ≤ s.time) ∧
    (∃ (t : Nat) (s : State), t < 32768 ∧ s.svRuns = true ∧ (s.tile t).retest = true ∧ (s.tile t).retestOf = 0) ∧
    (∃ (t : Nat) (s : State), t < 32768 ∧ s.svRuns = true ∧ (s.tile t).retest = true ∧ (s.tile t).retestOf = 2 ∧ (s.tile t).st = .fenced) ∧
    (∃ (t : Nat) (s : State), t < 32768 ∧ s.svRuns = true ∧ (s.tile t).retest = true ∧ (s.tile t).retestOf = 3) ∧
    (∃ (k : Nat) (s : State), k < 2176 ∧ s.svRuns = true ∧ s.hlt.spareTest = some k) ∧
    (∃ (t : Nat) (s : State), t < 32768 ∧ s.hlt.run = some (1, t) ∧ (s.tileSt t).clk.ph = .none ∧ s.tilePhys t < 272) ∧
    (∃ (t : Nat) (s : State), t < 32768 ∧ (s.tile t).resetting = true) ∧
    (∃ (t : Nat) (s : State), t < 32768 ∧ (s.tile t).resetting = true ∧ (s.tile t).ld.waiting = [] ∧ s.hlt.run = some (6, t)) ∧
    (∃ (p : Nat) (s : State), p < 272 ∧ (s.site p).resetting = true) ∧
    (∃ (p : Nat) (s : State), p < 272 ∧ (s.site p).resetting = true ∧ s.hlt.run = some (7, p) ∧ (s.site p).st = .reset ∧ (s.site p).clk.pllBad = false ∧ (s.site p).clk.wantsBank = false ∧ (s.site p).clk.ph = .none) := by
  refine ⟨?_, ?_, ?_, ?_, ?_, ?_, ?_, ?_, ?_, ?_, ?_, ?_, ?_⟩
  · exact ⟨32767, withTile {}, by (repeat' apply And.intro) <;> decide⟩
  · exact ⟨32767, { withTile { sliceAt := some 0 } with time := 100000000000000, hlt := { sva := .failed, svb := .failed } }, by (repeat' apply And.intro) <;> decide⟩
  · exact ⟨32767, { withTile { sliceAt := some 0 } with time := 100000000000000 }, by (repeat' apply And.intro) <;> decide⟩
  · exact ⟨{ up with time := 3600000000000 }, by (repeat' apply And.intro) <;> decide⟩
  · exact ⟨32767, withTile { st := .fenced, retest := true, retestOf := 0 }, by (repeat' apply And.intro) <;> decide⟩
  · exact ⟨32767, withTile { st := .fenced, retest := true, retestOf := 2 }, by (repeat' apply And.intro) <;> decide⟩
  · exact ⟨32767, withTile { st := .fenced, retest := true, retestOf := 3 }, by (repeat' apply And.intro) <;> decide⟩
  · exact ⟨2175, { up with hlt := { busy := true, spareTest := some 2175 } }, by (repeat' apply And.intro) <;> decide⟩
  · exact ⟨32767, { withTile { st := .fenced } with hlt := { busy := true, run := some (1, 32767) } }, by (repeat' apply And.intro) <;> decide⟩
  · exact ⟨32767, withTile { resetting := true }, by (repeat' apply And.intro) <;> decide⟩
  · exact ⟨32767, { withTile { resetting := true } with hlt := { busy := true, run := some (6, 32767) } }, by (repeat' apply And.intro) <;> decide⟩
  · exact ⟨271, withSite { st := .reset, resetting := true }, by (repeat' apply And.intro) <;> decide⟩
  · exact ⟨271, { withSite { st := .reset, resetting := true } with hlt := { busy := true, run := some (7, 271) } }, by (repeat' apply And.intro) <;> decide⟩

theorem witness_HealthCommandsComplete :
    let refused (e : Nat) (v : W32) (o : Out) (s : State) : Prop := GoesTo o fun u => u.hlt = { s.hlt with target := bitsOf v 14 0, err := true, ecode := e } ∧ Only [.hlt] s u
    (∃ (v : W32) (s : State), HltFree s ∧ (s.tile (bitsOf v 14 0)).st = .fenced ∧ s.spareOk (bitsOf v 14 0) = true) ∧
    (∃ (v : W32) (s : State), HltFree s ∧ (s.tile (bitsOf v 14 0)).st ≠ .fenced) ∧
    (∃ (v : W32) (s : State), HltFree s ∧ (s.tile (bitsOf v 14 0)).st = .fenced ∧ s.spareOk (bitsOf v 14 0) = false) ∧
    (∃ (v : W32) (s : State), HltFree s ∧ (s.tile (bitsOf v 14 0)).st ≠ .hole ∧ bitOf v 19 = true) ∧
    (∃ (v : W32) (s : State), HltFree s ∧ (s.tile (bitsOf v 14 0)).st ≠ .hole ∧ bitOf v 19 = false) ∧
    (∃ (v : W32) (s : State), HltFree s ∧ (s.tile (bitsOf v 14 0)).st = .hole) ∧
    (∃ (v : W32) (s : State), HltFree s ∧ (s.tile (bitsOf v 14 0)).st = .fenced ∧ s.tileBadPos (bitsOf v 14 0) = false) ∧
    (∃ (v : W32) (s : State), HltFree s ∧ (s.tile (bitsOf v 14 0)).st ≠ .fenced ∧ (s.tile (bitsOf v 14 0)).cand = true) ∧
    (∃ (v : W32) (s : State), HltFree s ∧ (s.tile (bitsOf v 14 0)).cand = false ∧ ((s.tile (bitsOf v 14 0)).st ≠ .fenced ∨ s.tileBadPos (bitsOf v 14 0) = true)) ∧
    (∃ (v : W32) (s : State), HltFree s ∧ (s.tile (bitsOf v 14 0)).st = .fenced ∧ s.tileBadPos (bitsOf v 14 0) = true) ∧
    (∃ (v : W32) (s : State), HltFree s ∧ ((s.tile (bitsOf v 14 0)).st ≠ .fenced ∨ s.tileBadPos (bitsOf v 14 0) = false)) ∧
    (∃ (v : W32) (s : State), HltFree s ∧ (s.tileSt (bitsOf v 14 0)).st ≠ .off ∧ (s.tileSt (bitsOf v 14 0)).st ≠ .dark ∧ (s.tile (bitsOf v 14 0)).busyCores = false ∧ (s.tile (bitsOf v 14 0)).ld.cur = none) ∧
    (∃ (v : W32) (s : State), HltFree s ∧ (s.tileSt (bitsOf v 14 0)).st ≠ .off ∧ (s.tileSt (bitsOf v 14 0)).st ≠ .dark ∧ (s.tile (bitsOf v 14 0)).busyCores = true) ∧
    (∃ (d : Defect) (v : W32) (s : State), HltFree s ∧ s.hlt.defects.find? (fun d => d.srcLearned && d.seq == s.hlt.cmdarg) = some d) ∧
    (∃ (v : W32) (s : State), HltFree s ∧ s.hlt.defects.find? (fun d => d.srcLearned && d.seq == s.hlt.cmdarg) = none) ∧
    (∃ (v : W32) (s : State), HltFree s ∧ (s.site (s.phys (bitsOf v 14 0 % 256))).st ≠ .off ∧ (s.site (s.phys (bitsOf v 14 0 % 256))).st ≠ .dark ∧ ((s.tilesOf (s.phys (bitsOf v 14 0 % 256))).any fun t => (s.tile t).busyCores) = false) ∧
    (∃ (v : W32) (s : State), s.reach 0 = true ∧ (bitsOf (s.port 0).ssel 8 4 * 16 + bitsOf (s.port 0).ssel 3 0) < 272 ∧ (s.site (bitsOf (s.port 0).ssel 8 4 * 16 + bitsOf (s.port 0).ssel 3 0)).st ≠ .dark) ∧
    (∃ (v : W32) (s : State), s.reach 0 = true) ∧
    (∃ (port : Nat) (v : W32) (s : State), s.reach port = true) := by
  intros
  refine ⟨?_, ?_, ?_, ?_, ?_, ?_, ?_, ?_, ?_, ?_, ?_, ?_, ?_, ?_, ?_, ?_, ?_, ?_, ?_⟩
  · exact ⟨0x10007FFF, withTile { st := .fenced }, by (repeat' apply And.intro) <;> decide⟩
  · exact ⟨0x10007FFF, withTile {}, by (repeat' apply And.intro) <;> decide⟩
  · exact ⟨0x10007FFF, { withTile { st := .fenced } with hlt := { defects := [{ word0 := defectWord 0 15 15 7 16 0 0 9, srcFuse := false, srcLearned := true, srcTest := false, seq := 5 }] } }, by (repeat' apply And.intro) <;> decide⟩
  · exact ⟨0xA7FFF, up, by (repeat' apply And.intro) <;> decide⟩
  · exact ⟨0x10007FFF, { withTile { st := .fenced } with hlt := { defects := [{ word0 := defectWord 0 15 15 7 16 0 0 9, srcFuse := false, srcLearned := true, srcTest := false, seq := 5 }] } }, by (repeat' apply And.intro) <;> decide⟩
  · exact ⟨0x7FFF, withTile { st := .hole }, by (repeat' apply And.intro) <;> decide⟩
  · exact ⟨0x7FFF, withTile { st := .fenced }, by (repeat' apply And.intro) <;> decide⟩
  · exact ⟨0x7FFF, withTile { st := .suspect, cand := true }, by (repeat' apply And.intro) <;> decide⟩
  · exact ⟨0x7FFF, { withTile { st := .fenced } with hlt := { defects := [{ word0 := defectWord 0 15 15 7 15 0 0 9, srcFuse := false, srcLearned := true, srcTest := false, seq := 5 }] } }, by (repeat' apply And.intro) <;> decide⟩
  · exact ⟨0x7FFF, { withTile { st := .fenced } with hlt := { defects := [{ word0 := defectWord 0 15 15 7 15 0 0 9, srcFuse := false, srcLearned := true, srcTest := false, seq := 5 }] } }, by (repeat' apply And.intro) <;> decide⟩
  · exact ⟨0x7FFF, withTile { st := .fenced }, by (repeat' apply And.intro) <;> decide⟩
  · exact ⟨0x7FFF, withTile {}, by (repeat' apply And.intro) <;> decide⟩
  · exact ⟨0x7FFF, withCore coreUp 0x13, by (repeat' apply And.intro) <;> decide⟩
  · exact ⟨{ word0 := defectWord 0 15 15 7 16 0 0 9, srcFuse := false, srcLearned := true, srcTest := false, seq := 5 }, 0, { up with hlt := { cmdarg := 5, defects := [{ word0 := defectWord 0 15 15 7 16 0 0 9, srcFuse := false, srcLearned := true, srcTest := false, seq := 5 }] } }, by (repeat' apply And.intro) <;> decide⟩
  · exact ⟨0, up, by (repeat' apply And.intro) <;> decide⟩
  · exact ⟨255, withTile {}, by (repeat' apply And.intro) <;> decide +kernel⟩
  · exact ⟨2, { up with host := { ports := [(0, { portUp with ssel := 0x10F })] }, sites := [(271, { st := .active, cnt := { sdrop := 1, sdropSeen := true } })] }, by (repeat' apply And.intro) <;> decide⟩
  · exact ⟨3, up, by (repeat' apply And.intro) <;> decide⟩
  · exact ⟨0, 63, up, by (repeat' apply And.intro) <;> decide⟩

theorem witness_HealthCommandsComplete_refused :
    (∃ (v : W32) (s : State), HltFree s ∧ (s.tile (bitsOf v 14 0)).st = .fenced ∧ s.spareOk (bitsOf v 14 0) = true ∧ (s.tileSt (bitsOf v 14 0)).st = .active ∧ (s.tileSt (bitsOf v 14 0)).clk.ph = .none) ∧
    (∃ (v : W32) (s : State), HltFree s ∧ ((s.tileSt (bitsOf v 14 0)).st = .off ∨ (s.tileSt (bitsOf v 14 0)).st = .dark)) ∧
    (∃ (v : W32) (s : State), HltFree s ∧ ((s.site (s.phys (bitsOf v 14 0 % 256))).st = .off ∨ (s.site (s.phys (bitsOf v 14 0 % 256))).st = .dark)) ∧
    (∃ (v : W32) (s : State), HltFree s ∧ (s.site (s.phys (bitsOf v 14 0 % 256))).st ≠ .off ∧ (s.site (s.phys (bitsOf v 14 0 % 256))).st ≠ .dark ∧ ((s.tilesOf (s.phys (bitsOf v 14 0 % 256))).any fun t => (s.tile t).busyCores) = true) ∧
    (∃ (v : W32) (s : State), s.reach 0 = true ∧ bitsOf (s.port 0).esel 5 0 = 63) := by
  refine ⟨?_, ?_, ?_, ?_, ?_⟩
  · exact ⟨0x10007FFF, { busy ctxUp siteUp with tiles := [(32767, { st := .fenced })] }, by (repeat' apply And.intro) <;> decide +kernel⟩
  · exact ⟨0x7FFF, { up with sites := [(255, { st := .off })] }, by (repeat' apply And.intro) <;> decide +kernel⟩
  · exact ⟨255, { up with sites := [(255, { st := .dark })] }, by (repeat' apply And.intro) <;> decide +kernel⟩
  · exact ⟨255, withCore coreUp 0x13, by (repeat' apply And.intro) <;> decide +kernel⟩
  · exact ⟨3, { up with host := { ports := [(0, { portUp with esel := 63 })] } }, by (repeat' apply And.intro) <;> decide⟩

theorem witness_ServiceDiesComplete :
    (∃ (s : State), s.svRuns = true) ∧
    (∃ (r : Bool) (s : State), s.pwr.powered = true ∧ ((s.hlt.sva = .active ∧ s.hlt.svb = .standby) ∨ (s.hlt.sva = .standby ∧ s.hlt.svb = .active)) ∧ (r = true ∨ s.hlt.lastBeat + 3 * ms ≤ s.time)) ∧
    (∃ (r : Bool) (s : State), s.pwr.powered = true ∧ s.hlt.sva = .active ∧ s.hlt.svb = .standby) ∧
    (∃ (s : State), s.pwr.powered = true ∧ s.hlt.sva = .active ∧ s.hlt.svb = .failed ∧ s.hlt.lastBeat + 10 * ms ≤ s.time) ∧
    (∃ (p : Nat) (s : State), s.reach p = true) ∧
    (∃ (p : Nat) (v : W32) (s : State), v ≠ 0x53565253) ∧
    (∃ (a b : Bool) (s : State), s.pwr.powered = true ∧ s.hlt.sva = .resetting ∧ s.hlt.svb = .active ∧ (a = false ∨ imageCheck s.spi.image s.ses.owner s.ses.svnMin ≠ 0)) := by
  refine ⟨?_, ?_, ?_, ?_, ?_, ?_, ?_⟩
  · exact ⟨up, by (repeat' apply And.intro) <;> decide⟩
  · exact ⟨false, { up with hlt := { sva := .standby, svb := .active }, time := 3000000 }, by (repeat' apply And.intro) <;> decide⟩
  · exact ⟨true, up, by (repeat' apply And.intro) <;> decide⟩
  · exact ⟨{ up with hlt := { sva := .active, svb := .failed }, time := 10000000 }, by (repeat' apply And.intro) <;> decide⟩
  · exact ⟨0, { up with hlt := { sva := .active, svb := .failed } }, by (repeat' apply And.intro) <;> decide⟩
  · exact ⟨0, 0, up, by (repeat' apply And.intro) <;> decide⟩
  · exact ⟨true, false, { up with hlt := { sva := .resetting, svb := .active } }, by (repeat' apply And.intro) <;> decide⟩

theorem witness_MarginsComplete :
    (∃ (v : W32) (s : State), Served s ∧ bitOf v 31 = true ∧ 0 < bitsOf v 7 0) ∧
    (∃ (v : W32) (s : State), Served s ∧ bitOf v 31 = false) ∧
    (∃ (s : State), s.hlt.grantOpen = true ∧ s.hlt.grantAt + s.hlt.grantMin * 60 * sec ≤ s.time) ∧
    (∃ (p : Nat) (m : SweepMeas) (s : State), p < 272 ∧ m.begins = true ∧ s.maySweep p = true) ∧
    (∃ (p : Nat) (m : SweepMeas) (s : State), p < 272 ∧ m.begins = false ∧ s.mayMeasure p = true ∧ ((s.site p).clk.bankSweep = false ∨ s.time ≤ (s.site p).mrg.sweepAt + 40 * ms)) ∧
    (∃ (p : Nat) (m : SweepMeas) (s : State), p < 272 ∧ m.begins = false ∧ s.mayMeasure p = true ∧ (s.site p).clk.bankSweep = true ∧ (s.site p).mrg.sweepAt + 40 * ms < s.time) ∧
    (∃ (p : Nat) (s : State), p < 272 ∧ s.svRuns = true ∧ (∀ t, (s.site p).mrg.overdueAt = some t → t + 24 * hour ≤ s.time) ∧ (s.site p).mrg.lastSweep.getD s.spi.t0 + 24 * hour ≤ s.time) ∧
    (∃ (p b : Nat) (s : State), p < 272 ∧ 10 ≤ b) ∧
    (∃ (p b t : Nat) (s : State), p < 272 ∧ (s.site p).mrg.surgeAt = some t ∧ s.time < t + 10 * ms) ∧
    (∃ (p b : Nat) (s : State), p < 272 ∧ (∀ t, (s.site p).mrg.surgeAt = some t → t + sec ≤ s.time)) ∧
    (∃ (p k : Nat) (s : State), p < 272 ∧ k < 30 ∧ (s.site p).mrg.cellCeilOf k < (s.site p).mrg.siteCeil ∧ (s.site p).mrg.cellCeilOf k < 15 ∧ tget 0 (s.site p).mrg.cellAt k + week ≤ s.time ∧ s.svRuns = true) := by
  refine ⟨?_, ?_, ?_, ?_, ?_, ?_, ?_, ?_, ?_, ?_, ?_⟩
  · exact ⟨0x80FF0001, up, by (repeat' apply And.intro) <;> decide⟩
  · exact ⟨0, up, by (repeat' apply And.intro) <;> decide⟩
  · exact ⟨{ up with hlt := { grantOpen := true, grantMin := 1 }, time := 60000000000 }, by (repeat' apply And.intro) <;> decide⟩
  · exact ⟨255, { begins := true, at15 := [], at11 := [], at7 := [], at3 := [], sents := [] }, { busy ctxUp siteUp with hlt := { grantOpen := true, grantS0 := 255, grantS1 := 255 } }, by (repeat' apply And.intro) <;> decide +kernel⟩
  · exact ⟨271, { begins := false, at15 := [700], at11 := [650], at7 := [600], at3 := [550], sents := [] }, { withSite { st := .banked, clk := { bankSweep := true } } with time := 40000000 }, by (repeat' apply And.intro) <;> decide +kernel⟩
  · exact ⟨271, { begins := false, at15 := [700], at11 := [650], at7 := [600], at3 := [550], sents := [] }, { withSite { st := .banked, clk := { bankSweep := true } } with time := 40000001 }, by (repeat' apply And.intro) <;> decide +kernel⟩
  · exact ⟨271, { withSite { st := .off, mrg := { lastSweep := some 0 } } with time := 86400000000000 }, ⟨by decide, by decide, fun _ h => (by cases h), by decide⟩⟩
  · exact ⟨271, 10, withSite { st := .banked }, by (repeat' apply And.intro) <;> decide⟩
  · exact ⟨271, 9, 0, withSite { st := .active, mrg := { surgeAt := some 0 } }, by (repeat' apply And.intro) <;> decide⟩
  · exact ⟨271, 9, withSite { st := .active }, ⟨by decide, fun _ h => by cases h⟩⟩
  · exact ⟨271, 29, { withSite { st := .active, mrg := { cellCeil := [(29, 14)] } } with time := 604800000000000 }, by (repeat' apply And.intro) <;> decide⟩

theorem witness_MarginsComplete_spare :
    ∃ (p : Nat) (m : SweepMeas) (s : State), p < 272 ∧ m.begins = false ∧ s.mayMeasure p = true ∧ (s.site p).clk.bankSweep = false := by
  exact ⟨271, { begins := false, at15 := [700], at11 := [650], at7 := [600], at3 := [550], sents := [] }, withSite { st := .banked, clk := { bankSpare := true }, pwr := { sw := .on } }, by (repeat' apply And.intro) <;> decide +kernel⟩

theorem witness_SessionsComplete :
    let done (u : State) (p cmd e : Nat) : Prop := (u.port p).lastcmd = cmd ∧ (u.port p).secode = e ∧ (u.port p).serr = (e != 0)
    (∃ (p : Nat) (s : State), SesReach s p ∧ 1 ≤ (s.port p).sesMinutes ∧ (s.port p).sesMinutes ≤ 1440) ∧
    (∃ (p : Nat) (s : State), SesReach s p ∧ ((s.port p).sesMinutes = 0 ∨ 1440 < (s.port p).sesMinutes)) ∧
    (∃ (p t : Nat) (c : List Byte) (k m : Nat) (b : Bool) (s : State), p < 4 ∧ (s.port p).chal = some (c, k, m, b, t) ∧ t + 60 * sec ≤ s.time) ∧
    (∃ (p i m slot : Nat) (c : List Byte) (prov : Bool) (s : State), SesReach s p ∧ s.openCode p (s.port p) = 0 ∧ s.challengeOf (s.port p) = some (c, slot, m, prov) ∧ s.freeEntry = some i) ∧
    (∃ (p : Nat) (s : State), SesReach s p ∧ s.openCode p (s.port p) ≠ 0) ∧
    (∃ (p t : Nat) (s : State), p < 4 ∧ (s.port p).locked = some t ∧ t ≤ s.time) ∧
    (∃ (p : Nat) (x : Session) (s : State), SesReach s p ∧ tget none s.ses.ents (s.port p).sesIndex = some x ∧ x.port = p) ∧
    (∃ (p : Nat) (s : State), SesReach s p ∧ (∀ x, tget none s.ses.ents (s.port p).sesIndex = some x → x.port ≠ p)) ∧
    (∃ (e : Nat) (x : Session) (s : State), e < 4 ∧ tget none s.ses.ents e = some x ∧ x.opened + x.minutes * 60 * sec ≤ s.time ∧ s.svRuns = true) ∧
    (∃ (p : Nat) (s : State), SesReach s p) ∧
    (∃ (p : Nat) (s : State), SesReach s p ∧ s.hasSession p = true ∧ s.ses.owner = none ∧ s.bothRun = true) ∧
    (∃ (p : Nat) (s : State), SesReach s p ∧ s.hasSession p = true ∧ s.ses.svnMin < s.runSvn ∧ s.runSvn ≤ 1023 ∧ s.bothRun = true) ∧
    (∃ (p t : Nat) (h : List Byte) (s : State), SesReach s p ∧ s.hasSession p = true ∧ (s.port p).arm = some (1, h, t) ∧ s.time ≤ t + 10 * sec ∧ s.ses.owner = none) ∧
    (∃ (p t : Nat) (h : List Byte) (s : State), SesReach s p ∧ s.hasSession p = true ∧ (s.port p).arm = some (2, h, t) ∧ s.time ≤ t + 10 * sec) ∧
    (∃ (p t k : Nat) (h : List Byte) (s : State), p < 4 ∧ (s.port p).arm = some (k, h, t) ∧ t + 10 * sec ≤ s.time) := by
  intros
  refine ⟨?_, ?_, ?_, ?_, ?_, ?_, ?_, ?_, ?_, ?_, ?_, ?_, ?_, ?_, ?_⟩
  · exact ⟨0, { up with host := { ports := [(0, { portUp with sarg := 1 })] } }, by (repeat' apply And.intro) <;> decide⟩
  · exact ⟨0, up, by (repeat' apply And.intro) <;> decide⟩
  · exact ⟨0, 0, [7], 7, 10, true, { up with host := { ports := [(0, { portUp with chal := some ([7], 7, 10, true, 0) })] }, time := 60000000000 }, by (repeat' apply And.intro) <;> decide⟩
  · exact ⟨0, 1, 10, 7, [7], true, { up with host := { ports := [(0, { portUp with sarg := 0x80000000, chal := some ([7], 7, 10, true, 0) })] }, ses := { up.ses with prov := true } }, by (repeat' apply And.intro) <;> decide⟩
  · exact ⟨0, up, by (repeat' apply And.intro) <;> decide⟩
  · exact ⟨0, 5000, { up with host := { ports := [(0, { portUp with locked := some 5000 })] } }, by (repeat' apply And.intro) <;> decide⟩
  · exact ⟨0, { port := 0, slot := 0, prov := false, minutes := 10, opened := 0 }, up, by (repeat' apply And.intro) <;> decide⟩
  · exact ⟨0, { up with host := { ports := [(0, { portUp with sarg := 0x30000 })] } }, ⟨⟨by decide, by decide, by decide⟩, fun _ h => by cases h⟩⟩
  · exact ⟨3, { port := 0, slot := 0, prov := false, minutes := 10, opened := 0 }, { up with ses := { ents := [(3, some { port := 0, slot := 0, prov := false, minutes := 10, opened := 0 })] }, time := 600000000000 }, by (repeat' apply And.intro) <;> decide⟩
  · exact ⟨0, up, by (repeat' apply And.intro) <;> decide⟩
  · exact ⟨0, up, by (repeat' apply And.intro) <;> decide⟩
  · exact ⟨0, { up with spi := { stage := .ready, runHdr := [0, 0, 0, 0, 0, 0, 0, 0, 0, 0, 0, 0, 0xFF, 3, 0, 0] } }, by (repeat' apply And.intro) <;> decide⟩
  · exact ⟨0, 0, [7], { up with host := { ports := [(0, { portUp with arm := some (1, [7], 0) })] }, time := 10000000000 }, by (repeat' apply And.intro) <;> decide⟩
  · exact ⟨0, 0, [], { up with host := { ports := [(0, { portUp with arm := some (2, [], 0) })] }, spi := { stage := .ready, runHdr := [0, 0, 0, 0, 0, 0, 0, 0, 0, 0, 0, 0, 0xFF, 3, 0, 0] } }, by (repeat' apply And.intro) <;> decide⟩
  · exact ⟨0, 0, 2, [], { up with host := { ports := [(0, { portUp with arm := some (2, [], 0) })] }, time := 10000000000 }, by (repeat' apply And.intro) <;> decide⟩

theorem witness_MeterCompletes :
    (∃ (m : MeterMeas) (s : State), s.meterOn = true ∧ s.secondOver = true) ∧
    (∃ (s : State), s.meterOn = true) ∧
    (∃ (b : List Byte) (s : State), s.svRuns = true ∧ s.mtr.lost = false) ∧
    (∃ (r : MeterRec) (s : State), s.svRuns = true ∧ s.mtr.lost = false ∧ s.mtr.keyOk = true ∧ (verifies meterPub (MeterRec_body r) (fit 3309 r.sig) = true ∨ verifies meterPub (MeterRec_body r) (fit 3309 r.sig) = false)) ∧
    (∃ (t : Nat) (s : State), s.svRuns = true ∧ s.mtr.lost = false ∧ s.mtr.lastFrame = some t ∧ t + 2 * sec ≤ s.time) ∧
    (∃ (p : Nat) (v : W32) (s : State), SesReach s p) ∧
    (∃ (v : W32) (s : State), Served s) := by
  refine ⟨?_, ?_, ?_, ?_, ?_, ?_, ?_⟩
  · exact ⟨{ energy := 1, pmin := 1, pmax := 2, vmean := 48, imean := 1, tamper := true, range := false, refFail := false }, { up with time := 1000000000 }, by (repeat' apply And.intro) <;> decide⟩
  · exact ⟨up, by (repeat' apply And.intro) <;> decide⟩
  · exact ⟨[], up, by (repeat' apply And.intro) <;> decide⟩
  · exact ⟨{ flags := 0, seq := 0, time := 0, boots := 0, energy := 0, pmin := 0, pmax := 0, vmean := 0, imean := 0, fwdig := [], sig := [] }, { up with mtr := { keyOk := true } }, ⟨by decide, by decide, by decide, Bool.eq_false_or_eq_true _⟩⟩
  · exact ⟨0, { up with mtr := { lastFrame := some 0 }, time := 2000000000 }, by (repeat' apply And.intro) <;> decide⟩
  · exact ⟨0, 5, up, by (repeat' apply And.intro) <;> decide⟩
  · exact ⟨0x80000000, { up with mtr := { ren := true } }, by (repeat' apply And.intro) <;> decide⟩

theorem witness_MeterCompletes_noKey :
    ∃ (r : MeterRec) (s : State), s.svRuns = true ∧ s.mtr.lost = false ∧ s.mtr.keyOk = false := by
  exact ⟨{ flags := 0, seq := 0, time := 0, boots := 0, energy := 0, pmin := 0, pmax := 0, vmean := 0, imean := 0, fwdig := [], sig := [] }, up, by (repeat' apply And.intro) <;> decide⟩

theorem witness_RegistersComplete :
    let may (s : State) : Prop := Managed s 0 ∧ s.dbg.locked = false ∧ s.dbg.busy = false ∧ (s.ctx s.dbg.ctx).st ≠ .free ∧ (s.ctx s.dbg.ctx).st ≠ .resetting
    let s1 (s : State) : State :=
      let s' := s.modDbg fun d => { d with err := false, ecode := 0 }
      if s.dbg.addr.toNat % 8 = 0 then s' else s'.wildPart (s.ctx s.dbg.ctx).cfg.part
    (∃ (s : State), may s) ∧
    (∃ (s : State), may s ∧ s.dbg.addr.toNat % 8 = 0) ∧
    (∃ (v : W32) (s : State), Managed s 0) ∧
    (∃ (v : W32) (s : State), Managed s 0 ∧ s.dbg.locked = false) ∧
    (∃ (p : Nat) (v : W64) (s : State), p < 4 ∧ s.cfgAnswer p = .normal ∧ bitsOf v 1 0 = 3) ∧
    (∃ (p : Nat) (v : W64) (s : State), p < 4 ∧ s.cfgAnswer p = .normal) ∧
    (∃ (p : Nat) (v : W64) (s : State), s.reach p = true ∧ (p = 0 ∨ s.svRuns = true)) ∧
    (∃ (p off : Nat) (v : W64) (s : State), p < 4 ∧ off < 0x100000 ∧ off % 8 = 0) ∧
    (∃ (p off w : Nat) (v : W64) (s : State), (w = 1 ∨ w = 2) ∧ off % 8 + w ≤ 8) ∧
    (∃ (p off w : Nat) (v : W64) (s : State), s.reach p = true ∧ off < 0x1000000 ∧ (w = 1 ∨ w = 2)) := by
  intros
  refine ⟨?_, ?_, ?_, ?_, ?_, ?_, ?_, ?_, ?_, ?_⟩
  · exact ⟨{ busy ctxUp siteUp with dbg := { ctx := 3071, addr := 8 } }, by (repeat' apply And.intro) <;> decide⟩
  · exact ⟨{ busy ctxUp siteUp with dbg := { ctx := 3071, addr := 8 } }, by (repeat' apply And.intro) <;> decide⟩
  · exact ⟨1, up, by (repeat' apply And.intro) <;> decide⟩
  · exact ⟨1, up, by (repeat' apply And.intro) <;> decide⟩
  · exact ⟨0, 0xFFFFFFFF, up, by (repeat' apply And.intro) <;> decide⟩
  · exact ⟨0, 0xFFFFFFFF, up, by (repeat' apply And.intro) <;> decide⟩
  · exact ⟨0, 0xFFFFFFFF, up, by (repeat' apply And.intro) <;> decide⟩
  · exact ⟨3, 0xFFFF8, 1, up, by (repeat' apply And.intro) <;> decide⟩
  · exact ⟨0, 6, 2, 1, up, by (repeat' apply And.intro) <;> decide⟩
  · exact ⟨0, 0xFFFFFE, 2, 1, up, by (repeat' apply And.intro) <;> decide⟩

theorem witness_HolesAnswer :
    let atHole (s : State) (i : Nat) (f : Flight) (t : Nat) : Prop := s.flight i = some f ∧ f.goal = .tile t ∧ f.arrived (s.tilePhys t) = true ∧ s.parksTile t = false ∧
      (s.tileSt t).part = some f.pkt.spart ∧ (toldAt s f t).staleCtx (s.tilePhys t) f.pkt.ctx f.pkt.epoch = false ∧ ((s.tileSt t).st = .active ∨ (s.tileSt t).st = .held) ∧ (s.tile t).resetting = false ∧
      (s.tileSt t).resetting = false ∧ ((s.tile t).st = .fenced ∨ (s.tile t).st = .hole)
    (∃ (i t : Nat) (f : Flight) (j : Bool) (s : State), atHole s i f t ∧ f.pkt.opc = .read) ∧
    (∃ (i t : Nat) (f : Flight) (s : State), atHole s i f t ∧ f.pkt.opc = .write ∧ writeKind (s.tile t).guarded f.pkt = 0) ∧
    (∃ (i t : Nat) (f : Flight) (s : State), atHole s i f t ∧ f.pkt.opc = .write ∧ writeKind (s.tile t).guarded f.pkt = 1) ∧
    (∃ (i t : Nat) (f : Flight) (s : State), atHole s i f t ∧ f.pkt.opc = .write ∧ writeKind (s.tile t).guarded f.pkt = 2) ∧
    (∃ (i t : Nat) (f : Flight) (s : State), atHole s i f t ∧ f.pkt.opc = .write ∧ writeKind (s.tile t).guarded f.pkt = 3) ∧
    (∃ (i t : Nat) (f : Flight) (s : State), atHole s i f t ∧ f.pkt.opc = .cnt) ∧
    (∃ (p : Nat) (s : State), (s.site p).cnt.sdropSeen = true) ∧
    (∃ (p : Nat) (s : State), (s.site p).cnt.sdropSeen = false) ∧
    (∃ (v : W32) (s : State), s.reach 0 = true ∧ bitOf v 1 = true ∧ (bitsOf (s.port 0).ssel 8 4 * 16 + bitsOf (s.port 0).ssel 3 0) < 272 ∧ (s.site (bitsOf (s.port 0).ssel 8 4 * 16 + bitsOf (s.port 0).ssel 3 0)).st ≠ .dark) := by
  intros
  refine ⟨?_, ?_, ?_, ?_, ?_, ?_, ?_, ?_, ?_⟩
  · exact ⟨0, 32767, toTile (pkt .read 0 []), true, withPkt { st := .fenced } (toTile (pkt .read 0 [])), by (repeat' apply And.intro) <;> decide⟩
  · exact ⟨0, 32767, toTile (pkt .write 0x0 [0, 0, 0, 0, 0, 0, 0, 0]), withPkt { st := .hole } (toTile (pkt .write 0x0 [0, 0, 0, 0, 0, 0, 0, 0])), by (repeat' apply And.intro) <;> decide⟩
  · exact ⟨0, 32767, toTile (pkt .write 0x80000000110800 [0, 0, 0, 0, 0, 0, 0, 0]), withPkt { st := .hole } (toTile (pkt .write 0x80000000110800 [0, 0, 0, 0, 0, 0, 0, 0])), by (repeat' apply And.intro) <;> decide⟩
  · exact ⟨0, 32767, toTile (pkt .write 0x80000000110900 [0, 0, 0, 0, 0, 0, 0, 0]), withPkt { st := .hole } (toTile (pkt .write 0x80000000110900 [0, 0, 0, 0, 0, 0, 0, 0])), by (repeat' apply And.intro) <;> decide⟩
  · exact ⟨0, 32767, toTile (pkt .write 0x80000000110610 [0, 0, 0, 0x80]), withPkt { st := .hole } (toTile (pkt .write 0x80000000110610 [0, 0, 0, 0x80])), by (repeat' apply And.intro) <;> decide⟩
  · exact ⟨0, 32767, toTile (pkt .cnt 0x80000000000000 []), withPkt { st := .hole } (toTile (pkt .cnt 0x80000000000000 [])), by (repeat' apply And.intro) <;> decide⟩
  · exact ⟨271, withSite { cnt := { sdropSeen := true } }, by (repeat' apply And.intro) <;> decide⟩
  · exact ⟨271, withSite {}, by (repeat' apply And.intro) <;> decide⟩
  · exact ⟨2, { up with host := { ports := [(0, { portUp with ssel := 0x10F })] }, sites := [(271, { st := .active, cnt := { sdrop := 1, sdropSeen := true } })] }, by (repeat' apply And.intro) <;> decide⟩

theorem witness_DoorbellRule :
    let drops (s : State) (p c : Nat) : Prop := (s.ctx c).st = .free ∨ (s.ctx c).cfg.port ≠ p
    let bells (p c : Nat) (v : W32) : List Instr := [.sqTail p c v, .cqHead p c v, .restart p c true]
    (∃ (p c : Nat) (v : W32) (s : State), s.reach p = true ∧ c < 3072 ∧ drops s p c) ∧
    (∃ (p c : Nat) (v : W32) (s u : State), s.reach p = true ∧ c < 3072 ∧ ¬ ((s.ctx c).st = .free ∨ (s.ctx c).cfg.port ≠ p) ∧ exec (.cqHead p c v) s = .next u) ∧
    (∃ (p c : Nat) (s : State), (s.port p).dbSeen = true) ∧
    (∃ (p c : Nat) (s : State), (s.port p).dbSeen = false) ∧
    (∃ (p : Nat) (v : W32) (s : State), s.reach 0 = true ∧ p < 4 ∧ bitOf v p = true) ∧
    (∃ (p q c : Nat) (s : State), c < 3072) := by
  intros
  refine ⟨?_, ?_, ?_, ?_, ?_, ?_⟩
  · exact ⟨0, 3071, 5, up, by (repeat' apply And.intro) <;> decide⟩
  · exact ⟨0, 3071, 0, busy ctxUp siteUp, _, ⟨by decide, by decide, by decide, rfl⟩⟩
  · exact ⟨0, 3071, { up with host := { ports := [(0, { portUp with dbSeen := true })] } }, by (repeat' apply And.intro) <;> decide⟩
  · exact ⟨0, 3071, up, by (repeat' apply And.intro) <;> decide⟩
  · exact ⟨3, 8, up, by (repeat' apply And.intro) <;> decide⟩
  · exact ⟨0, 3, 3071, up, by (repeat' apply And.intro) <;> decide⟩

theorem witness_DebugLock :
    (∃ (v : W32) (s : State), Managed s 0 ∧ bitOf v 0 = true) ∧
    (∃ (off : Nat) (v : W64) (s : State), s.dbg.locked = true ∧ Managed s 0 ∧ 0xF0000 ≤ off ∧ off < 0x100000 ∧ off % 4 = 0) ∧
    (∃ (v : W32) (s : State), s.dbg.locked = true ∧ Managed s 0) ∧
    (∃ (p : Nat) (s : State), s.dbg.locked = true) ∧
    (∃ (c : Instr) (s u : State), s.dbg.locked = true ∧ exec c s = .next u) := by
  refine ⟨?_, ?_, ?_, ?_, ?_⟩
  · exact ⟨1, up, by (repeat' apply And.intro) <;> decide⟩
  · exact ⟨0xF0018, 1, { up with dbg := { locked := true } }, by (repeat' apply And.intro) <;> decide⟩
  · exact ⟨1, { up with dbg := { locked := true } }, by (repeat' apply And.intro) <;> decide⟩
  · exact ⟨0, { up with dbg := { locked := true } }, by (repeat' apply And.intro) <;> decide⟩
  · exact ⟨.svHeartbeat, { up with dbg := { locked := true } }, _, ⟨by decide, rfl⟩⟩

theorem witness_TestEvent :
    ∃ (v : W32) (s : State), Managed s 0 ∧ s.dbg.locked = false := by
  exact ⟨5, up, by (repeat' apply And.intro) <;> decide⟩

theorem witness_GatedWritesNeedSession :
    (∃ (s : State) (v : W32) (k : Nat), s.reach 0 = true ∧ s.hasSession 0 = false ∧ k < 8) ∧
    (∃ (s : State) (v : W32), s.reach 0 = true ∧ s.hasSession 0 = false) ∧
    (∃ (p o : Nat) (s : State), s.ses.deniedSec = some s.second) ∧
    (∃ (p o : Nat) (s : State), s.ses.deniedSec ≠ some s.second) := by
  refine ⟨?_, ?_, ?_, ?_⟩
  · exact ⟨{ up with ses := {} }, 5, 7, by (repeat' apply And.intro) <;> decide⟩
  · exact ⟨{ up with ses := {} }, 5, by (repeat' apply And.intro) <;> decide⟩
  · exact ⟨0, 5, { up with ses := { deniedSec := some 0 } }, by (repeat' apply And.intro) <;> decide⟩
  · exact ⟨0, 5, up, by (repeat' apply And.intro) <;> decide⟩


/-! ### What the frame statements start from -/

/-- The outcome is a next state. -/
def isNext : Out → Bool
  | .next _ => true
  | _ => false
theorem witness_FrameCoresAndEngine : ([
    .rvInstruction 0 0 false, .ecallExit 0 0, .coreDone 0 0, .xtPut 0 0, .xtGet 0 0, .xtProbe 0 0, .xtEnq 0 0, .xtCset 0 0, .xtCadd 0 0, .xtCarm 0 0,
    .xtCwait 0 0, .cwaitResume 0 0, .xtEvt 0 ⟨0, true⟩, .transferPacketIssue 0, .launchStart 0, .loadTileStart 0, .loadEnd 0, .loadw 0 noHw, .mma 0 noHw,
    .store 0 noHw, .zero 0 noHw, .nop 0, .engineRetire 0 .array, .engCtrlClear 0] : List Instr).all (fun c => isNext (exec c (busy ctxUp siteUp))) = true := by decide +kernel

theorem witness_FrameFabricAndMemory : ([
    .write 0, .writeToOwner 0, .read 0 false, .cnt 0, .rdata 0, .rerr 0, .wack 0,
    .routerHop 0 { starved := false, parityBad := false }, .routeEntryRewrite 0 0,
    .flitRefused lastLink ⟨0, 0, 0, []⟩, .linkUp ⟨lastLink, []⟩,
    .seamRetrain lastLink [], .trackerTimeout 0 0, .trackerReuse 0 0, .baseDieFault 0, .republish 0,
    .republishDone, .listAppend 0, .listClose 0, .listArm 0, .scrubAccess 0 .clean 0, .cacheRead 0 false .clean, .cacheFillReturn 0, .cacheWrite 0,
    .maintInvalidateLine 0, .maintInvalidateRange 0, .maintInvalidateAll 0, .maintReserved 0, .ddrChannelDown 0, .patrolRead 0 0 .clean 0,
    .ddrRegionCommit 0 0, .prtBevWrite 0 0 0] : List Instr).all (fun c => isNext (exec c (busy ctxUp siteUp))) = true := by decide +kernel

theorem witness_FrameHostAndDescriptors : ([
    .portDown 0, .portUp 0 { widths := [16], rates := [320] }, .functionLevelReset 0, .busMasterDisable 0, .perstRelease 0 { widths := [16], rates := [320] },
    .hostCompletionTimeout 0, .sqTail 0 0 0, .cqHead 0 0 0, .ctxSel 0 0, .configure 0, .release 0, .restart 0 0 false, .restartDone 0, .halt 0,
    .contextFault 0, .stepWatchdog 0, .evtHead 0 0, .evtCfg 0 0, .msixUnmask 0 0 0, .hostReadCompletion 0 (.data []), .descriptorFetch 0 (.data []),
    .nopDescriptor 0, .copy 0, .launch 0, .load 0, .wait 0, .waitPoll 0 0, .signal 0, .phase 0, .barrier 0, .fence 0, .predict 0, .mark 0,
    .reservedOpcode 0, .descriptorComplete 0 0, .edgeTrackerTimeout 0 0] : List Instr).all (fun c => isNext (exec c (busy ctxUp siteUp))) = true := by decide +kernel

theorem witness_FrameRickAndSessions : ([
    .define 0 0, .delete 0 0, .warmReset 0 0, .warmResetDone 0 [] [], .prtUpdate 0 0,
    .cascadeCodeword 0 { good := true, cseq := 0, ack := 0, nak := false, slots := [] }, .replayTimeout 0, .cascadePortDown 0 [],
    .cascadePortUp 0 { width := 16, rate := 64, detok := true, spare := false, panel := 1, port := 0, serial := 5 }, .casPcfg 0 0 0,
    .rickAnnounce 0 0 ⟨0, []⟩, .publish 0, .rickRoutes 0, .rrestart 0 0, .timebaseSync 0, .masterLost, .rickBarrierArrival 0 0 0, .rickBarrierRelease 0 0,
    .deleteDone 0, .rrestartDone, .challenge 0, .challengeExpiry 0, .sesOpen 0, .lockoutExpiry 0, .sesClose 0, .sessionDeadline 0, .attest 0,
    .pubkey 0, .armOwner 0, .armSvn 0, .commitFuse 0,
    .meterRecord { energy := 1, pmin := 1, pmax := 2, vmean := 48, imean := 1, tamper := true, range := false, refFail := false }, .mtrSeal,
    .meterFrame (.key []), .mtrLinkLost, .mtrSelect 0 0, .mtrRhead 0 0, .mtrRcfg 0 0, .dbgRead 0, .dbgWrite 0, .dbgLock 0 0, .dbgTest 0 0,
    .fuseArmExpiry 0] : List Instr).all (fun c => isNext (exec c (busy ctxUp siteUp))) = true := by decide +kernel

theorem witness_FramePowerAndHealth : ([
    .clkRefLoss 0, .clkRefRestored 0, .edgeHoldoverExpiry 0, .clkDecoupled 0 1, .clkRecoupled 0, .timeMessage 0 0, .stepChange 0 0, .railSettled 0,
    .stepStopEnd 0 ⟨0, false⟩, .clkStepFault 0, .clkCeil 0 0 0, .bank 0 0, .unbank 0 0, .bankReturn 0, .inputWarn 0 0, .orderlyStop 36000, .inputHigh 0,
    .inputOvervoltage 0, .inputLoss 0, .pwrInRestored 0, .converterFail 0, .phaseLost 0 0, .reservoirEngage 0 .vc false, .fastBubbleEnd 0,
    .railDip 0 .vc 0 0, .dipLimitRise 0, .railReset 0 .vc 0, .inputSwitchOpen 0 0 .vc, .pathAnomaly 0 0, .clearPath 0, .isolate 0, .restore 0,
    .softStart 0, .softStartDone 0, .softStartAbandon 0, .softStartRetry 0, .telemetryTick [] [], .pwrCap 0 0,
    .budgetAllocation { panel := 20000000, sites := [] }, .paceLock 0 0 0, .pacerUpdate 0 0 0, .capLimitUpdate 0, .clearProfiles 0 0, .profileMirror,
    .tempSample 0 { comp := some 90, sram := some 90, base := some 90, disagree := none }, .thermalTurn, .thmUnbank 0, .thmOn 0, .telHead 0 0,
    .telCfg 0 0, .pathBaselineFrozen 0 0, .coldPowerOn { bring with flashAlive := false }, .ready, .svBTakeover, .panelReset 0 { bring with flashAlive := false }, .settingsCommit 0, .update 0, .updateDone ⟨0, false, false⟩,
    .siteRejoin 0, .siteRejoined 0 [] [] [], .learnedAppend, .logFlush, .selfTestSlice 0 false, .healthHourly, .confirmingRetestDone 0 false,
    .remap 0 0, .tileRemapStopEnd 0, .retire 0 0, .keep 0 0, .hole 0 0, .clear 0 0, .treset 0 0, .sreset 0 0, .computeResetDone false 0,
    .svHeartbeat, .svFailover false, .svStandbyLost false, .svLost, .svReset 0 0, .svRestored false false, .sweepGrant 0 0,
    .marginSweep 0 { begins := true, at15 := [], at11 := [], at7 := [], at3 := [], sents := [] }, .marginOverdue 0,
    .loadClassUpdate 0 0 false, .cellCeilingRise 0 0, .hltSclr 0 0, .hltEclr 0 0, .hltDbclr 0 0, .hltLsel 0 0, .sweepWindowEnd, .settingsCommitDone] : List Instr).all (fun c => isNext (exec c (busy ctxUp siteUp))) = true := by decide +kernel

/-! ### An image that passes -/

/-- An image of 8 bytes with the digest that its bytes give (R458). -/
def imageHead : Mem := memPutWord (memPutWord (memPutWord [] 0 4 0x4B465731) 4 4 1) 8 4 8
def imageGood : Mem := memPutList imageHead 0x20 (shake256 (memGetList imageHead 0 0x20 ++ memGetList imageHead 0x3000 8))

/-- Whether an image is verified comes down to its signature, which is free: where that is good, the image of this test is verified. -/
theorem witness_BringUpCompletes_verified :
    verifies (fit 1952 Config.firmwareKey) (imgDigest imageGood) (memGetList imageGood 0x40 3309) = true → imageCheck imageGood none 0 = 0 := by
  intro h
  unfold imageCheck
  rw [if_neg (by decide +kernel), if_neg (by decide +kernel), if_neg (by rw [h]; decide), if_neg (by decide +kernel)]
/-- An update that has been written, with that image in the buffer. -/
def updDone : State := { up with spi := { stage := .ready, cmdSt := 5, upBuf := imageGood, upLen := 0x3008 } }
/-- An update that has been written passes R459 again in the same case. -/
theorem witness_SerialMemoryCompletes_verified :
    imageCheck imageGood none 0 = 0 → ∃ (s : State), s.svRuns = true ∧ s.spi.cmdSt = 5 ∧ s.updateCheck = 0 := by
  intro h
  have key (s : State) (h1 : s.spi.upBuf = imageGood) (h2 : s.ses.owner = none) (h3 : s.ses.svnMin = 0) (h4 : s.spi.upLen = 0x3008) : s.updateCheck = 0 := by
    unfold State.updateCheck
    rw [h1, h2, h3, h4, h]
    exact if_neg (by decide +kernel)
  exact ⟨updDone, by decide, by decide, key updDone (by simp only [updDone]) (by simp only [updDone, up, State.reset]) (by simp only [updDone, up, State.reset]) (by simp only [updDone])⟩
/-- With that image a bring-up gets as far as the panel. -/
theorem witness_BringUpCompletes_boots :
    imageCheck imageGood none 0 = 0 → ∃ (env : BringUpEnv) (s : State), s.pwr.powered = false ∧ 44000 ≤ env.vin ∧ env.vin ≤ 60000 ∧ env.svaReads = true ∧ env.strapRecov = false ∧
      env.flashAlive = true ∧ imageCheck s.spi.image s.ses.owner s.ses.svnMin = 0 := by
  intro h
  exact ⟨bring, { State.reset with spi := { image := imageGood } }, by decide, by decide, by decide, by decide, by decide, by decide, by simp only [State.reset]; exact h⟩
/-- Service dies come back with that image. -/
theorem witness_ServiceDiesComplete_restored :
    imageCheck imageGood none 0 = 0 →
    (∃ (s : State), s.pwr.powered = true ∧ s.hlt.sva = .resetting ∧ s.hlt.svb = .active ∧ imageCheck s.spi.image s.ses.owner s.ses.svnMin = 0) ∧
    (∃ (s : State), s.pwr.powered = true ∧ s.hlt.sva = .resetting ∧ s.hlt.svb = .resetting ∧ imageCheck s.spi.image s.ses.owner s.ses.svnMin = 0) := by
  intro h
  exact ⟨⟨{ up with hlt := { sva := .resetting, svb := .active }, spi := { stage := .ready, image := imageGood } }, by decide, by decide, by decide, by simp only [up, State.reset]; exact h⟩,
    ⟨{ up with hlt := { sva := .resetting, svb := .resetting }, spi := { stage := .ready, image := imageGood } }, by decide, by decide, by decide, by simp only [up, State.reset]; exact h⟩⟩

/-! ### Single steps and fields, from the manual's worked examples -/

/-- The worked example of the chapter on sites, tiles and coordinates: tile (173, 45), its site, and its address on panel 3. -/
theorem test_tile_address : tileAt 173 45 = 11693 ∧ tileSite 11693 = 90 ∧ tileTR 11693 = 5 ∧ tileTC 11693 = 13 ∧ tileAddr 3 0 11693 0x42000 = 0x0C56AD0000042000 := by decide
/-- In that example the spare of site row 5 is at physical column 4, and logical column 10 is served by physical site (11, 5). -/
theorem test_site_remap :
    ({ up with hlt := { smap := [(5, [0, 1, 2, 3, 5, 6, 7, 8, 9, 10, 11, 12, 13, 14, 15, 16])] } } : State).phys 90 = 11 * 16 + 5 := by decide
/-- The words that the chapter on small cores gives for XT.PUT a0, a1, a2, a3 and XT.CWAIT a0, s1. -/
theorem test_xt_words : xtOf 0x68C5852B = some .put ∧ iRd 0x68C5852B = 10 ∧ iRs1 0x68C5852B = 11 ∧ iRs2 0x68C5852B = 12 ∧ iRs3 0x68C5852B = 13 ∧
    xtOf 0x0604950B = some .cwait ∧ iRd 0x0604950B = 10 ∧ iRs1 0x0604950B = 9 := by decide
/-- The counted write of that chapter: 1,088 bytes to offset 0x3F80 go in five packets. -/
theorem test_packets : packetsOf 0x0014090000003F80 1088 = 5 := by decide
/-- The DDR address of the chapter on memory: channel 24 at 0x4024_6560, and home site 1 of 32. -/
theorem test_ddr_address :
    ({ base := 0x0400, size := 0x0100, cbase := 0x010, mode := 0, gran := 4, nlog2 := 3, mask := 0x0F00000F } : Region).map 0x1001234560 = (24, 0x40246560) ∧
    homeOf (rangeFrom 0 8 ++ rangeFrom 16 8 ++ rangeFrom 32 8 ++ rangeFrom 48 8) (BitVec.ofNat 64 (3 * 2 ^ 55 + 0x1001234500)) = some 1 := by decide +kernel
/-- The BB16 block of the chapter on sparse formats: 24 bytes of bitmap, 22,552 bytes of data. -/
theorem test_bb16_sizes :
    let h : Hdr := { fmt := 2, etype := 1, rows := 160, cols := 256, density := 88, scaleptr := 0, resv := false }
    h.bitmapBytes = 24 ∧ h.dataBytes = 22552 ∧ { h with fmt := 0 }.dataBytes = 40960 := by decide
/-- The phase example of the chapter on power delivery: phase 9 of VS fails, and phase 7 moves to VS. -/
theorem test_phase_lost :
    (match exec (.phaseLost (6 * 16 + 4) 9) { up with sites := [(6 * 16 + 4, { st := .active })] } with
      | .next u => ((u.site (6 * 16 + 4)).pwr.phFail, lget 9 (u.site (6 * 16 + 4)).pwr.phRail 9, lget 9 (u.site (6 * 16 + 4)).pwr.phRail 7)
      | _ => (0, 0, 0)) = (0x200, 3, 1) := by decide
/-- The link-down record of the register reference: HLT_LINK of the east seam of site (7, 3) at tile row 5 with two packets in doubt. -/
theorem test_link_record : ({ kind := 1, pc := 7, pr := 3, trow := 5, tpos := 0, face := 1, time := 0, doubt := [pkt .write 0 [], pkt .read 0 []] } : LinkRec).word = 0x4E740802 := by decide
/-- ADDI with −1 sign-extends and leaves the pc 4 further. -/
theorem test_addi_sign :
    (match exec (.rvInstruction 32767 0 false) (withCore coreUp 0xFFF58F93) with
      | .next u => ((u.core 32767 0).getX 31, (u.core 32767 0).pc)
      | _ => (0, 0)) = (0xFFFFFFFFFFFFFFFF, 4) := by decide
/-- XT.CADD wraps modulo 2^32 and returns the value before (R192). -/
theorem test_cadd_wraps :
    (match exec (.xtCadd 32767 0) (withTile { cores := [(0, { coreUp with x := [(11, 63), (12, 2)] })], scr := memPutWord [] 0 4 0x02C59F8B, ctrs := [(63, { value := 0xFFFFFFFF })] }) with
      | .next u => (((u.tile 32767).ctr 63).value, (u.core 32767 0).getX 31)
      | _ => (0, 0)) = (1, 0xFFFFFFFF) := by decide
/-- A packet for a HOLE is dropped and counted; a READ is answered (R31). -/
theorem test_hole_drops :
    (match exec (.write 0) (withPkt { st := .hole } (toTile (pkt .write 0 [1]))) with
      | .next u => ((u.site 255).cnt.sdrop, u.fab.flights.length)
      | _ => (0, 7)) = (1, 0) := by decide
/-- A panel whose serial memory is silent ends in recovery with cause 5 (R441, R463). -/
theorem test_cold_power_on :
    (match exec (.coldPowerOn { bring with flashAlive := false }) State.reset with
      | .next u => decide (u.spi.stage = .recovery ∧ u.spi.cause = 5 ∧ u.pwr.powered = true)
      | _ => false) = true := by decide +kernel
/-- The counts of R527 saturate. -/
theorem test_saturates : satAdd 0xFFFFFFFF 1 = 0xFFFFFFFF ∧ satAdd 0xFFFFFFFE 1 = 0xFFFFFFFF := by decide
/-- A gated write without a session is counted and changes nothing else (R503). -/
theorem test_denied :
    (match exec (.pwrCap 0 20000) { up with ses := {} } with
      | .next u => (u.ses.denied, u.cap.cap)
      | _ => (0, 0)) = (1, 40000) := by decide
/-- SHAKE256 of no bytes begins as the standard's known answer does. -/
theorem test_shake : (shake256 []).take 4 = [0x46, 0xb9, 0xdd, 0x2b] := by decide +kernel
/-- No word spells a command: the table gives no bits. -/
theorem test_no_word : decodeTableWord 32 0x68C5852B = none ∧ (up.withFetchWord 32 5).pending = [] := by decide

end Sys2Proof.Tests
end

section
/-! PROOFS. What the frames of `Only` say of single fields, for every proof that needs a field left alone. -/

namespace Sys2Proof.Machine

open Sys2Proof.Safety (Blk outsideOf Only toldAt)

section OnlyFields

variable {bs : List Blk} {s u : State}

theorem tiles_of_only (h : Only bs s u) (hb : Blk.tiles ∉ bs) : u.tiles = s.tiles := by
  simpa [outsideOf, hb] using congrArg State.tiles h
theorem sites_of_only (h : Only bs s u) (hb : Blk.sites ∉ bs) : u.sites = s.sites := by
  simpa [outsideOf, hb] using congrArg State.sites h
theorem fab_of_only (h : Only bs s u) (hb : Blk.fab ∉ bs) : u.fab = s.fab := by
  simpa [outsideOf, hb] using congrArg State.fab h
theorem hlt_of_only (h : Only bs s u) (hb : Blk.hlt ∉ bs) : u.hlt = s.hlt := by
  simpa [outsideOf, hb] using congrArg State.hlt h

end OnlyFields

/-- Telling an endpoint of a restart touches its context and the free choices alone (R222, R223). -/
theorem State.tell_only (s : State) (ep ctx : Nat) : Only [.freeN, .host] s (s.tell ep ctx) :=
  letI : Blanks := ⟨[.freeN, .host]⟩
  haveI : Blanked .freeN := ⟨by decide⟩
  haveI : Blanked .host := ⟨by decide⟩
  State.tell_outside s ep ctx

/-- An event of a site reaches the ring and the log alone (R327 to R330, R457). -/
theorem State.raiseSite_only (s : State) (code p d0 d1 : Nat) : Only [.host, .spi] s (s.raiseSite code p d0 d1) :=
  letI : Blanks := ⟨[.host, .spi]⟩
  haveI : Blanked .host := ⟨by decide⟩
  haveI : Blanked .spi := ⟨by decide⟩
  State.raiseSite_outside s code p d0 d1

@[simp] theorem State.tell_tiles (s : State) (ep ctx : Nat) : (s.tell ep ctx).tiles = s.tiles := tiles_of_only (s.tell_only ep ctx) (by decide)
@[simp] theorem State.tell_sites (s : State) (ep ctx : Nat) : (s.tell ep ctx).sites = s.sites := sites_of_only (s.tell_only ep ctx) (by decide)
@[simp] theorem State.tell_hlt (s : State) (ep ctx : Nat) : (s.tell ep ctx).hlt = s.hlt := hlt_of_only (s.tell_only ep ctx) (by decide)
@[simp] theorem State.raiseSite_tiles (s : State) (code p d0 d1 : Nat) : (s.raiseSite code p d0 d1).tiles = s.tiles :=
  tiles_of_only (s.raiseSite_only code p d0 d1) (by decide)
@[simp] theorem State.raiseSite_sites (s : State) (code p d0 d1 : Nat) : (s.raiseSite code p d0 d1).sites = s.sites :=
  sites_of_only (s.raiseSite_only code p d0 d1) (by decide)
@[simp] theorem State.raiseSite_fab (s : State) (code p d0 d1 : Nat) : (s.raiseSite code p d0 d1).fab = s.fab :=
  fab_of_only (s.raiseSite_only code p d0 d1) (by decide)
@[simp] theorem State.raiseSite_site (s : State) (code p d0 d1 j : Nat) : (s.raiseSite code p d0 d1).site j = s.site j := by
  simp [State.site]

/-! ### The destination tile as its port sees it, before and after the endpoint is told -/

@[simp] theorem toldAt_tile (s : State) (f : Flight) (t n : Nat) : (toldAt s f t).tile n = s.tile n := by
  simp [State.tile, toldAt]
@[simp] theorem toldAt_site (s : State) (f : Flight) (t p : Nat) : (toldAt s f t).site p = s.site p := by
  simp [State.site, toldAt]
@[simp] theorem toldAt_tilePhys (s : State) (f : Flight) (t n : Nat) : (toldAt s f t).tilePhys n = s.tilePhys n := by
  simp [State.tilePhys, State.phys, State.smapRow, toldAt]
@[simp] theorem toldAt_tileSt (s : State) (f : Flight) (t n : Nat) : (toldAt s f t).tileSt n = s.tileSt n := by
  simp [State.tileSt]
@[simp] theorem toldAt_tilePlace (s : State) (f : Flight) (t n : Nat) : (toldAt s f t).tilePlace n = s.tilePlace n := by
  simp [State.tilePlace, State.tilePos]
@[simp] theorem toldAt_parksTile (s : State) (f : Flight) (t n : Nat) : (toldAt s f t).parksTile n = s.parksTile n := by
  simp [State.parksTile]

end Sys2Proof.Machine
end

section
/-! PROOFS. Drops at a site: the count of HLT_SDROP and its event HOLE_DROP (R31, R527). -/

namespace Sys2Proof.Machine

open Sys2Proof.Safety (GoesTo)

@[simp] theorem State.modCnt_site (s : State) (p j : Nat) (f : SiteCnt → SiteCnt) :
    (s.modCnt p f).site j = if j = p then { s.site p with cnt := f (s.site p).cnt } else s.site j := State.modSite_site ..
@[simp] theorem State.modCnt_tiles (s : State) (p : Nat) (f : SiteCnt → SiteCnt) : (s.modCnt p f).tiles = s.tiles := rfl
@[simp] theorem State.modCnt_fab (s : State) (p : Nat) (f : SiteCnt → SiteCnt) : (s.modCnt p f).fab = s.fab := rfl

/-- A site's counters with one more drop. -/
def SiteCnt.dropped (c : SiteCnt) : SiteCnt := { c with sdrop := satAdd c.sdrop 1, sdropSeen := true }

/-- A drop after one that was seen is counted and nothing else. -/
theorem State.dropAt_of_seen {s : State} {p : Nat} (h : (s.site p).cnt.sdropSeen = true) : s.dropAt p = s.modCnt p SiteCnt.dropped := by
  unfold State.dropAt; rw [h]; rfl
/-- The first drop is counted and raises HOLE_DROP. -/
theorem State.dropAt_of_unseen {s : State} {p : Nat} (h : (s.site p).cnt.sdropSeen = false) :
    s.dropAt p = (s.modCnt p SiteCnt.dropped).raiseSite 0x0104 p 0 0 := by
  unfold State.dropAt; rw [h]; rfl

theorem State.dropAt_site (s : State) (p j : Nat) : (s.dropAt p).site j = (s.modCnt p SiteCnt.dropped).site j := by
  cases h : (s.site p).cnt.sdropSeen with
  | true => rw [State.dropAt_of_seen h]
  | false => rw [State.dropAt_of_unseen h, State.raiseSite_site]
theorem State.dropAt_tiles (s : State) (p : Nat) : (s.dropAt p).tiles = s.tiles := by
  cases h : (s.site p).cnt.sdropSeen with
  | true => rw [State.dropAt_of_seen h, State.modCnt_tiles]
  | false => rw [State.dropAt_of_unseen h, State.raiseSite_tiles, State.modCnt_tiles]
theorem State.dropAt_fab (s : State) (p : Nat) : (s.dropAt p).fab = s.fab := by
  cases h : (s.site p).cnt.sdropSeen with
  | true => rw [State.dropAt_of_seen h, State.modCnt_fab]
  | false => rw [State.dropAt_of_unseen h, State.raiseSite_fab, State.modCnt_fab]

/-- HLT_SCLR with bit 1 clears the selected site's drop count, so that the next drop there is a first one (R527). -/
theorem exec_hltSclr_clears_sdrop {v : W32} {s : State} {p : Nat} (hr : s.reach 0 = true) (hv : bitOf v 1 = true)
    (hsel : bitsOf (s.port 0).ssel 8 4 * 16 + bitsOf (s.port 0).ssel 3 0 = p) (hp : p < 272) (hd : (s.site p).st ≠ .dark) :
    GoesTo (exec (.hltSclr 0 v) s) fun u => (u.site p).cnt.sdrop = 0 ∧ (u.site p).cnt.sdropSeen = false := by
  have hexec : exec (.hltSclr 0 v) s = execHltSclr 0 v s := rfl
  rw [hexec]
  simp [execHltSclr, when_, ok, GoesTo, hr, hsel, hp, hd, hv]

end Sys2Proof.Machine
end

section
/-! PROOFS. Requests that have arrived at a FENCED tile or a HOLE (R31). -/

namespace Sys2Proof.Machine

open Sys2Proof.Safety (toldAt)

/-- A request has arrived at a FENCED tile or a HOLE of a running site, with partition and epoch in order. -/
def AtHole (s : State) (i : Nat) (f : Flight) (t : Nat) : Prop :=
  s.flight i = some f ∧ f.goal = .tile t ∧ f.arrived (s.tilePhys t) = true ∧ s.parksTile t = false ∧
    (s.tileSt t).part = some f.pkt.spart ∧ (toldAt s f t).staleCtx (s.tilePhys t) f.pkt.ctx f.pkt.epoch = false ∧
    ((s.tileSt t).st = .active ∨ (s.tileSt t).st = .held) ∧ (s.tile t).resetting = false ∧
    (s.tileSt t).resetting = false ∧ ((s.tile t).st = .fenced ∨ (s.tile t).st = .hole)

variable {s : State} {i t : Nat} {f : Flight}

/-- Such a request passes every check before the last one, which answers RERR HOLE (R31). -/
theorem AtHole.tileFate (h : AtHole s i f t) : (toldAt s f t).tileFate t f.pkt = .answer stHole := by
  obtain ⟨-, -, -, hpark, hpart, hepoch, hsite, htr, hsr, htile⟩ := h
  have hst : (s.tileSt t).st ≠ .reset ∧ (s.tileSt t).st ≠ .off ∧ (s.tileSt t).st ≠ .dark := by
    rcases hsite with h | h <;> simp [h]
  simp [State.tileFate, hpark, hpart, hepoch, hst, htr, hsr, htile]

/-- Whatever would serve it, the request is turned away with status HOLE. -/
theorem AtHole.atTile (h : AtHole s i f t) (k : State → Out) :
    atTile s i f t k = .next ((toldAt s f t).turnAway i f (s.tilePhys t) (s.tilePlace t) stHole) := by
  have hfate := h.tileFate
  obtain ⟨-, -, harr, -⟩ := h
  have htell : s.tell (s.tilePhys t) f.pkt.ctx = toldAt s f t := rfl
  simp [Machine.atTile, harr, htell, hfate, ok]

theorem AtHole.goal (h : AtHole s i f t) : f.goal = .tile t := by
  obtain ⟨-, hgoal, -⟩ := h
  exact hgoal

theorem AtHole.onFlight (h : AtHole s i f t) (k : Flight → Out) : onFlight s i k = k f := by
  obtain ⟨hflight, -⟩ := h
  simp [Machine.onFlight, hflight]

theorem State.turnAway_of_read (s : State) (i p st : Nat) (a : Place) (h : f.pkt.opc = .read) :
    s.turnAway i f p a st = (s.dropFlight i).respond f a .rerr st [] := by simp [State.turnAway, h]
theorem State.turnAway_of_not_read (s : State) (i p st : Nat) (a : Place) (h : f.pkt.opc ≠ .read) :
    s.turnAway i f p a st = (s.dropFlight i).dropAt p := by simp [State.turnAway, h]

/-- A READ of a HOLE is answered with RERR HOLE. -/
theorem AtHole.exec_read (h : AtHole s i f t) (hop : f.pkt.opc = .read) (j : Bool) :
    exec (.read i j) s = .next (((toldAt s f t).dropFlight i).respond f (s.tilePlace t) .rerr stHole []) := by
  have hexec : exec (.read i j) s = execRead i j s := rfl
  rw [hexec, execRead, h.onFlight]
  simp only [hop, h.goal, ne_eq, not_true_eq_false, if_false]
  rw [h.atTile, State.turnAway_of_read _ _ _ _ _ hop]

/-- A WRITE to a HOLE, of whatever kind, is dropped and counted. -/
theorem AtHole.writeAt {kind : Nat} (h : AtHole s i f t) (hop : f.pkt.opc = .write) (hk : writeKind (s.tile t).guarded f.pkt = kind) :
    writeAt i kind s = .next (((toldAt s f t).dropFlight i).dropAt (s.tilePhys t)) := by
  rw [Machine.writeAt, h.onFlight]
  simp only [hop, h.goal, hk, and_self, if_true]
  rw [h.atTile, State.turnAway_of_not_read _ _ _ _ _ (by simp [hop])]

/-- A CNT to a HOLE is dropped and counted. -/
theorem AtHole.exec_cnt (h : AtHole s i f t) (hop : f.pkt.opc = .cnt) :
    exec (.cnt i) s = .next (((toldAt s f t).dropFlight i).dropAt (s.tilePhys t)) := by
  have hexec : exec (.cnt i) s = execCnt i s := rfl
  rw [hexec, execCnt, h.onFlight]
  simp only [hop, h.goal, if_true]
  rw [h.atTile, State.turnAway_of_not_read _ _ _ _ _ (by simp [hop])]

/-- Settles O56: the four kinds of WRITE go by one lemma, and the drop's count and event by the two cases of `State.dropAt`. -/
theorem holesAnswer : Obligations.HolesAnswer := by
  unfold Obligations.HolesAnswer
  intro atHole
  refine ⟨fun _ _ _ j _ h hop => AtHole.exec_read h hop j, fun _ _ _ _ => AtHole.writeAt, fun _ _ _ _ => AtHole.writeAt, fun _ _ _ _ => AtHole.writeAt,
    fun _ _ _ _ => AtHole.writeAt, fun _ _ _ _ => AtHole.exec_cnt,
    fun p s => ⟨?count, ?seen, ?others, s.dropAt_tiles p, s.dropAt_fab p⟩, fun p s h => ?quiet, fun _ _ => State.dropAt_of_unseen,
    fun _ _ hr hv hp hd => exec_hltSclr_clears_sdrop hr hv rfl hp hd⟩
  case count => simp [State.dropAt_site, SiteCnt.dropped]
  case seen => simp [State.dropAt_site, SiteCnt.dropped]
  case others =>
    intro q hq
    simp [State.dropAt_site, hq]
  case quiet =>
    rw [State.dropAt_of_seen h]
    exact ⟨rfl, rfl⟩

end Sys2Proof.Machine
end

section
/-! PROOFS. Session entries (R507) exchanged for others: what neither reads nor writes them gives the same result with any others (R291: a doorbell needs no session). -/

namespace Sys2Proof.Machine

/-- The state with other session entries. -/
def State.withEnts (ents : Tbl (Option Session)) (s : State) : State := { s with ses := { s.ses with ents } }
/-- The outcome with other session entries in its next state. -/
def Out.withEnts (ents : Tbl (Option Session)) : Out → Out
  | .next u => .next (u.withEnts ents)
  | .fault f => .fault f
  | .refused r => .refused r

variable (e : Tbl (Option Session)) (s : State)

/-! ### What reads the state beside the session entries -/

@[simp] theorem State.withEnts_time : (s.withEnts e).time = s.time := rfl
@[simp] theorem State.withEnts_freeN : (s.withEnts e).freeN = s.freeN := rfl
@[simp] theorem State.withEnts_tiles : (s.withEnts e).tiles = s.tiles := rfl
@[simp] theorem State.withEnts_host : (s.withEnts e).host = s.host := rfl
@[simp] theorem State.withEnts_rick : (s.withEnts e).rick = s.rick := rfl
@[simp] theorem State.withEnts_tile (t : Nat) : (s.withEnts e).tile t = s.tile t := rfl
@[simp] theorem State.withEnts_site (p : Nat) : (s.withEnts e).site p = s.site p := rfl
@[simp] theorem State.withEnts_port (p : Nat) : (s.withEnts e).port p = s.port p := rfl
@[simp] theorem State.withEnts_ctx (c : Nat) : (s.withEnts e).ctx c = s.ctx c := rfl
@[simp] theorem State.withEnts_partn (q : Nat) : (s.withEnts e).partn q = s.partn q := rfl
@[simp] theorem State.withEnts_desc (c : Nat) (n : W32) : (s.withEnts e).desc c n = s.desc c n := rfl
@[simp] theorem State.withEnts_tileSt (t : Nat) : (s.withEnts e).tileSt t = s.tileSt t := rfl
@[simp] theorem State.withEnts_tilePhys (t : Nat) : (s.withEnts e).tilePhys t = s.tilePhys t := rfl
@[simp] theorem State.withEnts_tilePlace (t : Nat) : (s.withEnts e).tilePlace t = s.tilePlace t := rfl
@[simp] theorem State.withEnts_siteSource (p : Nat) : (s.withEnts e).siteSource p = s.siteSource p := rfl
@[simp] theorem State.withEnts_svRuns : (s.withEnts e).svRuns = s.svRuns := rfl
@[simp] theorem State.withEnts_reach (p : Nat) : (s.withEnts e).reach p = s.reach p := rfl
@[simp] theorem State.withEnts_evtRoom : (s.withEnts e).evtRoom = s.evtRoom := rfl
@[simp] theorem State.withEnts_etrks (pe : Nat) : (s.withEnts e).etrks pe = s.etrks pe := rfl
@[simp] theorem State.withEnts_copyReads (pe : Nat) : (s.withEnts e).copyReads pe = s.copyReads pe := rfl
@[simp] theorem State.withEnts_copyDirect (pe c : Nat) (a : W64) : (s.withEnts e).copyDirect pe c a = s.copyDirect pe c a := rfl
@[simp] theorem State.withEnts_route (own : Option Nat) (part ctx : Nat) (a : W64) : (s.withEnts e).route own part ctx a = s.route own part ctx a := rfl

/-! ### Updates in one piece -/

@[simp] theorem State.modTile_withEnts (t : Nat) (f : Tile → Tile) : (s.withEnts e).modTile t f = (s.modTile t f).withEnts e := Eq.symm rfl
@[simp] theorem State.modChan_withEnts (c : Nat) (f : Chan → Chan) : (s.withEnts e).modChan c f = (s.modChan c f).withEnts e := Eq.symm rfl
@[simp] theorem State.modHost_withEnts (f : HostIf → HostIf) : (s.withEnts e).modHost f = (s.modHost f).withEnts e := Eq.symm rfl
@[simp] theorem State.modPort_withEnts (p : Nat) (f : Port → Port) : (s.withEnts e).modPort p f = (s.modPort p f).withEnts e := Eq.symm rfl
@[simp] theorem State.modCtx_withEnts (c : Nat) (f : Ctx → Ctx) : (s.withEnts e).modCtx c f = (s.modCtx c f).withEnts e := Eq.symm rfl
@[simp] theorem State.spend_withEnts : (s.withEnts e).spend = s.spend.withEnts e := Eq.symm rfl
@[simp] theorem State.spendN_withEnts (n : Nat) : (s.withEnts e).spendN n = (s.spendN n).withEnts e := Eq.symm rfl
@[simp] theorem State.modCnt_withEnts (p : Nat) (f : SiteCnt → SiteCnt) : (s.withEnts e).modCnt p f = (s.modCnt p f).withEnts e := Eq.symm rfl
@[simp] theorem State.logPut_withEnts (w0 w1 w2 w3 : Nat) : (s.withEnts e).logPut w0 w1 w2 w3 = (s.logPut w0 w1 w2 w3).withEnts e := Eq.symm rfl
@[simp] theorem State.note_withEnts (x : FaultNote) : (s.withEnts e).note x = (s.note x).withEnts e := Eq.symm rfl
@[simp] theorem State.modDesc_withEnts (c : Nat) (n : W32) (f : InFl → InFl) : (s.withEnts e).modDesc c n f = (s.modDesc c n f).withEnts e := Eq.symm rfl
@[simp] theorem State.stopCtx_withEnts (c : Nat) : (s.withEnts e).stopCtx c = (s.stopCtx c).withEnts e := Eq.symm rfl
@[simp] theorem State.forget_withEnts (c : Nat) : (s.withEnts e).forget c = (s.forget c).withEnts e := Eq.symm rfl
@[simp] theorem State.wild_withEnts (t : Nat) : (s.withEnts e).wild t = (s.wild t).withEnts e := Eq.symm rfl
@[simp] theorem State.addFlight_withEnts (f : Flight) : (s.withEnts e).addFlight f = (s.addFlight f).withEnts e := Eq.symm rfl
@[simp] theorem State.respond_withEnts (f : Flight) (at_ : Place) (opc : Opc) (status : Nat) (payload : List Byte) :
    (s.withEnts e).respond f at_ opc status payload = (s.respond f at_ opc status payload).withEnts e := Eq.symm rfl
@[simp] theorem State.partDropAt_withEnts (p : Nat) : (s.withEnts e).partDropAt p = (s.partDropAt p).withEnts e := Eq.symm rfl
@[simp] theorem State.tileSeq_withEnts (t c : Nat) : (s.withEnts e).tileSeq t c = ((s.tileSeq t c).1, (s.tileSeq t c).2.withEnts e) := Eq.symm rfl
@[simp] theorem State.edgeSeq_withEnts (pe c : Nat) : (s.withEnts e).edgeSeq pe c = ((s.edgeSeq pe c).1, (s.edgeSeq pe c).2.withEnts e) := Eq.symm rfl
@[simp] theorem State.issueRead_withEnts (port addr len : Nat) (for_ : HostFor) :
    (s.withEnts e).issueRead port addr len for_ = (s.issueRead port addr len for_).withEnts e := Eq.symm rfl
@[simp] theorem State.setEtrks_withEnts (pe : Nat) (l : List ETrk) : (s.withEnts e).setEtrks pe l = (s.setEtrks pe l).withEnts e := Eq.symm rfl
@[simp] theorem State.edgeReuse_withEnts (pe : Nat) : (s.withEnts e).edgeReuse pe = (s.edgeReuse pe).withEnts e := Eq.symm rfl

/-! ### Choices and repetitions -/

@[simp] theorem ite_withEnts (c : Prop) [Decidable c] (a b : State) : (if c then a.withEnts e else b.withEnts e) = (if c then a else b).withEnts e :=
  (apply_ite ..).symm
@[simp] theorem foldl_withEnts {α : Type} (g : State → α → State) (h : ∀ s a, g (s.withEnts e) a = (g s a).withEnts e) (l : List α) :
    l.foldl g (s.withEnts e) = (l.foldl g s).withEnts e := List.foldl_hom _ h

/-! ### Events (R292, R327 to R330, R457) -/

@[simp] theorem State.send_withEnts (x : HostTxn) : (s.withEnts e).send x = (s.send x).withEnts e := Eq.symm rfl
@[simp] theorem State.hostWrite_withEnts (port addr : Nat) (bytes : List Byte) (relaxed : Bool) :
    (s.withEnts e).hostWrite port addr bytes relaxed = (s.hostWrite port addr bytes relaxed).withEnts e := by
  simp [State.hostWrite]
@[simp] theorem State.sendMsix_withEnts (port vec : Nat) : (s.withEnts e).sendMsix port vec = (s.sendMsix port vec).withEnts e := by
  simp [State.sendMsix]
@[simp] theorem State.evtRecord_withEnts (w0 w1 w2 w3 : Nat) : (s.withEnts e).evtRecord w0 w1 w2 w3 = (s.evtRecord w0 w1 w2 w3).withEnts e := by
  simp [State.evtRecord]
@[simp] theorem State.evtLose_withEnts : (s.withEnts e).evtLose = s.evtLose.withEnts e := Eq.symm rfl
@[simp] theorem State.evtPut_withEnts (w0 w1 w2 w3 : Nat) : (s.withEnts e).evtPut w0 w1 w2 w3 = (s.evtPut w0 w1 w2 w3).withEnts e := by
  simp [State.evtPut]
@[simp] theorem State.raise_withEnts (x : Ev) : (s.withEnts e).raise x = (s.raise x).withEnts e := by
  simp [State.raise, State.raiseAt]
@[simp] theorem State.raiseSite_withEnts (code p d0 d1 : Nat) : (s.withEnts e).raiseSite code p d0 d1 = (s.raiseSite code p d0 d1).withEnts e := by
  simp [State.raiseSite]
@[simp] theorem State.raisePort_withEnts (code p d0 d1 : Nat) : (s.withEnts e).raisePort code p d0 d1 = (s.raisePort code p d0 d1).withEnts e := by
  simp [State.raisePort]

/-! ### Packets (R31, R36, R211, R237) -/

@[simp] theorem State.dropAt_withEnts (p : Nat) : (s.withEnts e).dropAt p = (s.dropAt p).withEnts e := by
  simp [State.dropAt]
@[simp] theorem State.noRouteAt_withEnts (p : Nat) (dest : W64) : (s.withEnts e).noRouteAt p dest = (s.noRouteAt p dest).withEnts e := by
  simp [State.noRouteAt]
@[simp] theorem State.inject_withEnts (at_ : Place) (own : Option Nat) (site : Nat) (pkt : Packet) :
    (s.withEnts e).inject at_ own site pkt = (s.inject at_ own site pkt).withEnts e := by
  simp only [State.inject, State.withEnts_route]
  split <;> simp

/-! ### Loads and COPYs that go on as trackers and reads are free again (R203, R311) -/

@[simp] theorem State.tileRead_withEnts (t k core : Nat) (x : Trk) (a : W64) :
    (s.withEnts e).tileRead t k core x a = (s.tileRead t k core x a).withEnts e := by
  simp [State.tileRead]
@[simp] theorem State.loaderAsk_withEnts (t fuel : Nat) : (s.withEnts e).loaderAsk t fuel = (s.loaderAsk t fuel).withEnts e := by
  induction fuel generalizing s with
  | zero => rfl
  | succ fuel ih =>
    cases hcur : (s.tile t).ld.cur with
    | none => simp [State.loaderAsk, hcur]
    | some r =>
      cases hfree : (s.tile t).freeTrk with
      | none => simp [State.loaderAsk, hcur, hfree]
      | some k => simp [State.loaderAsk, hcur, hfree, ih]
@[simp] theorem State.loadersGo_withEnts : (s.withEnts e).loadersGo = s.loadersGo.withEnts e := by
  simp [State.loadersGo]
@[simp] theorem State.endDesc_withEnts (c : Nat) (n : W32) (x : Ending) : (s.withEnts e).endDesc c n x = (s.endDesc c n x).withEnts e := by
  simp only [State.endDesc, State.withEnts_desc]
  split <;> simp
@[simp] theorem State.edgeRead_withEnts (pe c : Nat) (a : W64) (len : Nat) (for_ : EdgeFor) :
    (s.withEnts e).edgeRead pe c a len for_ = (s.edgeRead pe c a len for_).withEnts e := by
  simp [State.edgeRead]
@[simp] theorem State.copyAsk_withEnts (pe c : Nat) (n : W32) (d : Desc) (fuel : Nat) :
    (s.withEnts e).copyAsk pe c n d fuel = (s.copyAsk pe c n d fuel).withEnts e := by
  induction fuel generalizing s with
  | zero => rfl
  | succ fuel ih =>
    simp only [State.copyAsk, State.withEnts_desc, State.withEnts_copyReads, State.withEnts_copyDirect]
    split
    · split
      · split <;> simp [ih]
      · rfl
    · rfl
@[simp] theorem State.copiesAsk_withEnts (pe : Nat) : (s.withEnts e).copiesAsk pe = (s.copiesAsk pe).withEnts e := by
  refine foldl_withEnts e s _ (fun s x => ?_) _
  split
  · refine foldl_withEnts e s _ (fun s x => ?_) _
    split <;> simp
  · rfl

/-! ### What a doorbell does to its context (R291, R297, R301, R331) -/

@[simp] theorem State.fetchAsk_withEnts (c fuel : Nat) : (s.withEnts e).fetchAsk c fuel = (s.fetchAsk c fuel).withEnts e := by
  induction fuel generalizing s with
  | zero => rfl
  | succ fuel ih => simp [State.fetchAsk, ih]
@[simp] theorem State.wildDdr_withEnts (r : Region) (n : Nat) : (s.withEnts e).wildDdr r n = (s.wildDdr r n).withEnts e := by
  simp [State.wildDdr]
@[simp] theorem State.wildPart_withEnts (q : Nat) : (s.withEnts e).wildPart q = (s.wildPart q).withEnts e := by
  simp [State.wildPart]
@[simp] theorem State.quiet_withEnts (c : Nat) : (s.withEnts e).quiet c = (s.quiet c).withEnts e := by simp [State.quiet]
@[simp] theorem State.copiesGo_withEnts : (s.withEnts e).copiesGo = s.copiesGo.withEnts e := by simp [State.copiesGo]
@[simp] theorem State.restart_withEnts (c : Nat) : (s.withEnts e).restart c = (s.restart c).withEnts e := by
  rw [State.restart, State.withEnts_svRuns, State.quiet_withEnts, State.forget_withEnts, State.modCtx_withEnts, State.copiesGo_withEnts, State.restart]
@[simp] theorem State.doorbellDrop_withEnts (p c : Nat) : (s.withEnts e).doorbellDrop p c = (s.doorbellDrop p c).withEnts e := by
  simp [State.doorbellDrop]

end Sys2Proof.Machine
end

section
/-! PROOFS. What an event reaches (R292, R327 to R330, R457): the transactions sent, the ring, pending bits and the log, and no other part of the state. -/

namespace Sys2Proof.Machine

/-- A part of the state that holds none of what an event reaches. -/
structure BesideEvents {α : Type} (π : State → α) : Prop where
  sent : ∀ s x, π (s.send x) = π s
  pending : ∀ s p (f : Port → Tbl MsixEnt), π (s.modPort p fun x => { x with msix := f x }) = π s
  ring : ∀ s (f : HostIf → EvtRing), π (s.modHost fun h => { h with evt := f h }) = π s
  log : ∀ s f, π (s.modSpi f) = π s

namespace BesideEvents

variable {α : Type} {π : State → α}

theorem foldl {β : Type} {g : State → β → State} (hg : ∀ s b, π (g s b) = π s) (l : List β) (s : State) : π (l.foldl g s) = π s := by
  induction l generalizing s with
  | nil => rfl
  | cons b l ih => rw [List.foldl_cons, ih, hg]

variable (h : BesideEvents π) (s : State)
include h

theorem hostWrite (port addr : Nat) (bytes : List Byte) (relaxed : Bool) : π (s.hostWrite port addr bytes relaxed) = π s := by
  simp [State.hostWrite, apply_ite π, foldl, h.sent]
theorem sendMsix (port vec : Nat) : π (s.sendMsix port vec) = π s := by
  simp [State.sendMsix, apply_ite π, h.sent, h.pending]
theorem evtRecord (w0 w1 w2 w3 : Nat) : π (s.evtRecord w0 w1 w2 w3) = π s := by
  simp [State.evtRecord, apply_ite π, h.hostWrite, h.sendMsix, h.ring]
theorem evtPut (w0 w1 w2 w3 : Nat) : π (s.evtPut w0 w1 w2 w3) = π s := by
  simp [State.evtPut, State.evtLose, apply_ite π, h.evtRecord, h.ring]
theorem raise (x : Ev) : π (s.raise x) = π s := by
  simp [State.raise, State.raiseAt, State.logPut, apply_ite π, h.evtPut, h.log]

end BesideEvents

end Sys2Proof.Machine
end

section
/-! PROOFS. The marks that a doorbell leaves only where it is dropped: the doorbell-drop counts of the ports, and the sessions' registers (R291, R503, R526). -/

namespace Sys2Proof.Machine

/-- Each port's doorbell-drop count with its mark, and the sessions' registers. -/
def State.bellMarks (s : State) : (Nat → W32 × Bool) × Ses := (fun q => ((s.port q).dbdrop, (s.port q).dbSeen), s.ses)

theorem State.dbdrop_of_bellMarks {s u : State} (h : u.bellMarks = s.bellMarks) (q : Nat) : (u.port q).dbdrop = (s.port q).dbdrop :=
  congrArg (fun m => (m.1 q).1) h
theorem State.dbSeen_of_bellMarks {s u : State} (h : u.bellMarks = s.bellMarks) (q : Nat) : (u.port q).dbSeen = (s.port q).dbSeen :=
  congrArg (fun m => (m.1 q).2) h
theorem State.ses_of_bellMarks {s u : State} (h : u.bellMarks = s.bellMarks) : u.ses = s.ses := congrArg Prod.snd h

theorem State.besideEvents_bellMarks : BesideEvents State.bellMarks where
  sent _ _ := rfl
  pending s p f := by
    refine Prod.ext (funext fun q => ?_) rfl
    by_cases hq : q = p <;> simp [State.bellMarks, hq]
  ring _ _ := rfl
  log _ _ := rfl
theorem State.besideEvents_ctx (c : Nat) : BesideEvents (State.ctx · c) where
  sent _ _ := rfl
  pending _ _ _ := rfl
  ring _ _ := rfl
  log _ _ := rfl

variable (s : State)

/-! ### Updates in one piece -/

@[simp] theorem State.modTile_bellMarks (t : Nat) (f : Tile → Tile) : (s.modTile t f).bellMarks = s.bellMarks := Eq.symm rfl
@[simp] theorem State.modChan_bellMarks (c : Nat) (f : Chan → Chan) : (s.modChan c f).bellMarks = s.bellMarks := Eq.symm rfl
@[simp] theorem State.modCtx_bellMarks (c : Nat) (f : Ctx → Ctx) : (s.modCtx c f).bellMarks = s.bellMarks := Eq.symm rfl
@[simp] theorem State.modHost_bellMarks (f : HostIf → HostIf) (h : (f s.host).ports = s.host.ports) : (s.modHost f).bellMarks = s.bellMarks := by
  simp [State.bellMarks, State.port, h]
@[simp] theorem State.spend_bellMarks : s.spend.bellMarks = s.bellMarks := Eq.symm rfl
@[simp] theorem State.spendN_bellMarks (n : Nat) : (s.spendN n).bellMarks = s.bellMarks := Eq.symm rfl
@[simp] theorem State.modCnt_bellMarks (p : Nat) (f : SiteCnt → SiteCnt) : (s.modCnt p f).bellMarks = s.bellMarks := Eq.symm rfl
@[simp] theorem State.note_bellMarks (x : FaultNote) : (s.note x).bellMarks = s.bellMarks := Eq.symm rfl
@[simp] theorem State.modDesc_bellMarks (c : Nat) (n : W32) (f : InFl → InFl) : (s.modDesc c n f).bellMarks = s.bellMarks := Eq.symm rfl
@[simp] theorem State.stopCtx_bellMarks (c : Nat) : (s.stopCtx c).bellMarks = s.bellMarks := Eq.symm rfl
@[simp] theorem State.forget_bellMarks (c : Nat) : (s.forget c).bellMarks = s.bellMarks := Eq.symm rfl
@[simp] theorem State.wild_bellMarks (t : Nat) : (s.wild t).bellMarks = s.bellMarks := Eq.symm rfl
@[simp] theorem State.addFlight_bellMarks (f : Flight) : (s.addFlight f).bellMarks = s.bellMarks := Eq.symm rfl
@[simp] theorem State.respond_bellMarks (f : Flight) (at_ : Place) (opc : Opc) (status : Nat) (payload : List Byte) :
    (s.respond f at_ opc status payload).bellMarks = s.bellMarks := Eq.symm rfl
@[simp] theorem State.partDropAt_bellMarks (p : Nat) : (s.partDropAt p).bellMarks = s.bellMarks := Eq.symm rfl
@[simp] theorem State.tileSeq_bellMarks (t c : Nat) : (s.tileSeq t c).2.bellMarks = s.bellMarks := Eq.symm rfl
@[simp] theorem State.edgeSeq_bellMarks (pe c : Nat) : (s.edgeSeq pe c).2.bellMarks = s.bellMarks := Eq.symm rfl
@[simp] theorem State.issueRead_bellMarks (port addr len : Nat) (for_ : HostFor) : (s.issueRead port addr len for_).bellMarks = s.bellMarks := Eq.symm rfl
@[simp] theorem State.setEtrks_bellMarks (pe : Nat) (l : List ETrk) : (s.setEtrks pe l).bellMarks = s.bellMarks := by
  by_cases hpe : pe = 0 <;> simp [State.setEtrks, hpe]
@[simp] theorem State.edgeReuse_bellMarks (pe : Nat) : (s.edgeReuse pe).bellMarks = s.bellMarks := by simp [State.edgeReuse]

/-! ### Choices, repetitions and events -/

@[simp] theorem bellMarks_ite (c : Prop) [Decidable c] (a b : State) : (if c then a else b).bellMarks = if c then a.bellMarks else b.bellMarks :=
  apply_ite ..
@[simp] theorem bellMarks_foldl {α : Type} (g : State → α → State) (h : ∀ s a, (g s a).bellMarks = s.bellMarks) (l : List α) (s : State) :
    (l.foldl g s).bellMarks = s.bellMarks := BesideEvents.foldl h l s
@[simp] theorem State.raise_bellMarks (x : Ev) : (s.raise x).bellMarks = s.bellMarks := State.besideEvents_bellMarks.raise s x
@[simp] theorem State.raiseSite_bellMarks (code p d0 d1 : Nat) : (s.raiseSite code p d0 d1).bellMarks = s.bellMarks := s.raise_bellMarks _
@[simp] theorem State.raisePort_bellMarks (code p d0 d1 : Nat) : (s.raisePort code p d0 d1).bellMarks = s.bellMarks := s.raise_bellMarks _
@[simp] theorem State.raisePort_ctx (code p d0 d1 c : Nat) : (s.raisePort code p d0 d1).ctx c = s.ctx c := (State.besideEvents_ctx c).raise s _

/-! ### Packets, loads and COPYs (R31, R36, R203, R211, R311) -/

@[simp] theorem State.dropAt_bellMarks (p : Nat) : (s.dropAt p).bellMarks = s.bellMarks := by simp [State.dropAt]
@[simp] theorem State.noRouteAt_bellMarks (p : Nat) (dest : W64) : (s.noRouteAt p dest).bellMarks = s.bellMarks := by simp [State.noRouteAt]
@[simp] theorem State.inject_bellMarks (at_ : Place) (own : Option Nat) (site : Nat) (pkt : Packet) :
    (s.inject at_ own site pkt).bellMarks = s.bellMarks := by
  unfold State.inject
  split <;> simp
@[simp] theorem State.tileRead_bellMarks (t k core : Nat) (x : Trk) (a : W64) : (s.tileRead t k core x a).bellMarks = s.bellMarks := by
  simp [State.tileRead]
@[simp] theorem State.loaderAsk_bellMarks (t fuel : Nat) : (s.loaderAsk t fuel).bellMarks = s.bellMarks := by
  induction fuel generalizing s with
  | zero => rfl
  | succ fuel ih =>
    cases hcur : (s.tile t).ld.cur with
    | none => simp [State.loaderAsk, hcur]
    | some r =>
      cases hfree : (s.tile t).freeTrk with
      | none => simp [State.loaderAsk, hcur, hfree]
      | some k => simp [State.loaderAsk, hcur, hfree, ih]
@[simp] theorem State.loadersGo_bellMarks : s.loadersGo.bellMarks = s.bellMarks := by simp [State.loadersGo]
@[simp] theorem State.endDesc_bellMarks (c : Nat) (n : W32) (x : Ending) : (s.endDesc c n x).bellMarks = s.bellMarks := by
  unfold State.endDesc
  split <;> simp
@[simp] theorem State.edgeRead_bellMarks (pe c : Nat) (a : W64) (len : Nat) (for_ : EdgeFor) :
    (s.edgeRead pe c a len for_).bellMarks = s.bellMarks := by simp [State.edgeRead]
@[simp] theorem State.copyAsk_bellMarks (pe c : Nat) (n : W32) (d : Desc) (fuel : Nat) : (s.copyAsk pe c n d fuel).bellMarks = s.bellMarks := by
  induction fuel generalizing s with
  | zero => rfl
  | succ fuel ih =>
    unfold State.copyAsk
    split
    · split
      · dsimp only
        split <;> simp [ih]
      · rfl
    · rfl
@[simp] theorem State.copiesAsk_bellMarks (pe : Nat) : (s.copiesAsk pe).bellMarks = s.bellMarks := by
  refine bellMarks_foldl _ (fun s x => ?_) _ _
  split
  · refine bellMarks_foldl _ (fun s x => ?_) _ _
    split <;> simp
  · rfl

/-! ### What a doorbell does to its context (R291, R297, R301, R331) -/

@[simp] theorem State.fetchAsk_bellMarks (c fuel : Nat) : (s.fetchAsk c fuel).bellMarks = s.bellMarks := by
  induction fuel generalizing s with
  | zero => rfl
  | succ fuel ih => simp [State.fetchAsk, ih]
@[simp] theorem State.wildDdr_bellMarks (r : Region) (n : Nat) : (s.wildDdr r n).bellMarks = s.bellMarks := by simp [State.wildDdr]
@[simp] theorem State.wildPart_bellMarks (q : Nat) : (s.wildPart q).bellMarks = s.bellMarks := by simp [State.wildPart]
@[simp] theorem State.quiet_bellMarks (c : Nat) : (s.quiet c).bellMarks = s.bellMarks := by simp [State.quiet]
@[simp] theorem State.copiesGo_bellMarks : s.copiesGo.bellMarks = s.bellMarks := by simp [State.copiesGo]
@[simp] theorem State.restart_bellMarks (c : Nat) : (s.restart c).bellMarks = s.bellMarks := by simp [State.restart]

end Sys2Proof.Machine
end

section
/-! PROOFS. Doorbells (R290, R291): which are taken, what a dropped one leaves, and what its page reads. -/

namespace Sys2Proof.Machine

open Sys2Proof.Safety (GoesTo)

variable {s : State} {p c : Nat}

/-! ### A dropped doorbell -/

/-- A port with one more doorbell dropped. -/
def Port.bellDropped (x : Port) : Port := { x with dbdrop := satAdd x.dbdrop 1, dbSeen := true }

/-- A drop after one that was seen is counted and nothing else. -/
theorem State.doorbellDrop_of_seen (c : Nat) (h : (s.port p).dbSeen = true) : s.doorbellDrop p c = s.modPort p Port.bellDropped := by
  unfold State.doorbellDrop; rw [h]; rfl
/-- The first drop is counted and raises DOORBELL_DROP. -/
theorem State.doorbellDrop_of_unseen (c : Nat) (h : (s.port p).dbSeen = false) :
    s.doorbellDrop p c = (s.modPort p Port.bellDropped).raisePort 0x0012 p c p := by
  unfold State.doorbellDrop; rw [h]; rfl

theorem State.doorbellDrop_bellMarks (s : State) (p c : Nat) : (s.doorbellDrop p c).bellMarks = (s.modPort p Port.bellDropped).bellMarks := by
  cases h : (s.port p).dbSeen with
  | true => rw [State.doorbellDrop_of_seen c h]
  | false => rw [State.doorbellDrop_of_unseen c h, State.raisePort_bellMarks]
theorem State.doorbellDrop_ctx (s : State) (p c x : Nat) : (s.doorbellDrop p c).ctx x = s.ctx x := by
  cases h : (s.port p).dbSeen with
  | true => rw [State.doorbellDrop_of_seen c h, State.modPort_ctx]
  | false => rw [State.doorbellDrop_of_unseen c h, State.raisePort_ctx, State.modPort_ctx]
theorem State.doorbellDrop_dbdrop (s : State) (p c : Nat) : ((s.doorbellDrop p c).port p).dbdrop = satAdd (s.port p).dbdrop 1 := by
  rw [State.dbdrop_of_bellMarks (s.doorbellDrop_bellMarks p c), State.modPort_port, if_pos rfl]; rfl
theorem State.doorbellDrop_dbSeen (s : State) (p c : Nat) : ((s.doorbellDrop p c).port p).dbSeen = true := by
  rw [State.dbSeen_of_bellMarks (s.doorbellDrop_bellMarks p c), State.modPort_port, if_pos rfl]; rfl

/-- What HLT_DBCLR does to one port. -/
def State.clearBells (v : W32) (s : State) (p : Nat) : State := if bitOf v p then s.modPort p fun x => { x with dbdrop := 0, dbSeen := false } else s

theorem State.clearBells_foldl_port {v : W32} (hv : bitOf v p = true) (l : List Nat) (s : State)
    (h : p ∈ l ∨ ((s.port p).dbdrop = 0 ∧ (s.port p).dbSeen = false)) :
    ((l.foldl (State.clearBells v) s).port p).dbdrop = 0 ∧ ((l.foldl (State.clearBells v) s).port p).dbSeen = false := by
  induction l generalizing s with
  | nil => simpa using h
  | cons q l ih =>
    refine ih _ ?_
    by_cases hq : p = q
    · subst hq
      simp [State.clearBells, hv]
    · have hsame : (s.clearBells v q).port p = s.port p := by
        unfold State.clearBells
        split <;> simp [hq]
      simpa [hq, hsame] using h

/-- HLT_DBCLR clears the doorbell-drop count of each port whose bit is set, so that the next drop there is a first one (R526). -/
theorem exec_hltDbclr_clears {v : W32} (hr : s.reach 0 = true) (hp : p < 4) (hv : bitOf v p = true) :
    GoesTo (exec (.hltDbclr 0 v) s) fun u => (u.port p).dbdrop = 0 ∧ (u.port p).dbSeen = false := by
  have hexec : exec (.hltDbclr 0 v) s = when_ (s.reach 0) s (ok ((rangeFrom 0 4).foldl (State.clearBells v) s)) := rfl
  have hmem : ∀ p < 4, p ∈ rangeFrom 0 4 := by decide
  rw [hexec, hr]
  exact ⟨_, rfl, State.clearBells_foldl_port hv _ s (.inl (hmem p hp))⟩

/-! ### Which doorbells are taken -/

/-- A doorbell that is not taken: its context is FREE, or has another port (R291). -/
def State.dropsBell (s : State) (p c : Nat) : Prop := (s.ctx c).st = .free ∨ (s.ctx c).cfg.port ≠ p

theorem doorbell_of_dropsBell (hr : s.reach p = true) (hc : c < 3072) (h : s.dropsBell p c) (k : Ctx → Out) :
    doorbell s p c k = ok (s.doorbellDrop p c) := by
  rcases h with h | h <;> simp [doorbell, hr, hc, h]
theorem doorbell_of_taken (hr : s.reach p = true) (hc : c < 3072) (h : ¬ s.dropsBell p c) (k : Ctx → Out) : doorbell s p c k = k (s.ctx c) := by
  obtain ⟨hst, hport⟩ := not_or.mp h
  simp [doorbell, hr, hc, hst, not_not.mp hport]

variable (e : Tbl (Option Session))

theorem ok_withEnts (s : State) : ok (s.withEnts e) = Out.withEnts e (ok s) := rfl
theorem outWithEnts_ite (b : Prop) [Decidable b] (x y : Out) : (if b then Out.withEnts e x else Out.withEnts e y) = Out.withEnts e (if b then x else y) :=
  (apply_ite ..).symm
theorem when_withEnts (b : Bool) (s : State) (k : Out) : when_ b (s.withEnts e) (Out.withEnts e k) = Out.withEnts e (when_ b s k) := by
  cases b <;> rfl
theorem doorbell_withEnts {k k' : Ctx → Out} (h : ∀ x, k' x = Out.withEnts e (k x)) (s : State) (p c : Nat) :
    doorbell (s.withEnts e) p c k' = Out.withEnts e (doorbell s p c k) := by
  simp [doorbell, h, ok_withEnts, outWithEnts_ite]

/-- A command is a doorbell of context `c` through port `p`, and `k` is what it does once it is taken: a next state that no session entry bears on, with the marks of
dropped doorbells as they were. -/
structure Rings (p c : Nat) (i : Instr) (k : State → Ctx → Out) : Prop where
  exec_eq : ∀ s, exec i s = doorbell s p c (k s)
  ents : ∀ e s x, k (s.withEnts e) x = Out.withEnts e (k s x)
  marks : ∀ s x, GoesTo (k s x) fun u => u.bellMarks = s.bellMarks

theorem sqTail_rings (p c : Nat) (v : W32) : ∃ k, Rings p c (.sqTail p c v) k := by
  refine ⟨_, fun s => (show execSqTail p c v s = _ by unfold execSqTail; rfl), fun e s x => ?_, fun s x => ?_⟩
  · simp [ok_withEnts, outWithEnts_ite]
  · (repeat' split) <;> exact ⟨_, rfl, by simp⟩
theorem cqHead_rings (p c : Nat) (v : W32) : ∃ k, Rings p c (.cqHead p c v) k := by
  refine ⟨_, fun s => (show execCqHead p c v s = _ by unfold execCqHead; rfl), fun e s x => ?_, fun s x => ?_⟩
  · simp [ok_withEnts]
  · exact ⟨_, rfl, by simp⟩
theorem restart_rings (p c : Nat) : ∃ k, Rings p c (.restart p c true) k := by
  refine ⟨fun s x => when_ (x.st == .ready || x.st == .active || x.st == .halted) s (ok (s.restart c)), fun _ => rfl, fun e s x => ?_, fun s x => ?_⟩
  · simp [ok_withEnts, when_withEnts]
  · unfold when_
    split <;> exact ⟨_, rfl, by simp⟩

/-- The doorbells of a context: its two ring registers and RESTART (R290). -/
def bells (p c : Nat) (v : W32) : List Instr := [.sqTail p c v, .cqHead p c v, .restart p c true]
theorem rings_of_mem_bells {v : W32} {i : Instr} (h : i ∈ bells p c v) : ∃ k, Rings p c i k := by
  simp only [bells, List.mem_cons, List.not_mem_nil, or_false] at h
  rcases h with rfl | rfl | rfl
  · exact sqTail_rings p c v
  · exact cqHead_rings p c v
  · exact restart_rings p c

variable {e} {v : W32} {i : Instr}

theorem exec_bell_of_dropsBell (hi : i ∈ bells p c v) (hr : s.reach p = true) (hc : c < 3072) (h : s.dropsBell p c) :
    exec i s = .next (s.doorbellDrop p c) := by
  obtain ⟨k, hk⟩ := rings_of_mem_bells hi
  rw [hk.exec_eq, doorbell_of_dropsBell hr hc h]; rfl
theorem exec_bell_of_taken {u : State} (hi : i ∈ bells p c v) (hr : s.reach p = true) (hc : c < 3072) (h : ¬ s.dropsBell p c)
    (hu : exec i s = .next u) : u.bellMarks = s.bellMarks := by
  obtain ⟨k, hk⟩ := rings_of_mem_bells hi
  rw [hk.exec_eq, doorbell_of_taken hr hc h] at hu
  obtain ⟨u', hu', hmarks⟩ := hk.marks s (s.ctx c)
  cases hu.symm.trans hu'
  exact hmarks
theorem exec_bell_withEnts (hi : i ∈ bells p c v) (e : Tbl (Option Session)) (s : State) : exec i (s.withEnts e) = Out.withEnts e (exec i s) := by
  obtain ⟨k, hk⟩ := rings_of_mem_bells hi
  rw [hk.exec_eq, hk.exec_eq, doorbell_withEnts e (hk.ents e s)]

/-! ### The doorbell page (R290) -/

theorem State.bar2_sqTail (s : State) (p : Nat) (hc : c < 3072) : s.bar2 p (0x1000 * c) = if s.down_ then 0 else (s.ctx c).sqTail.toNat := by
  simp [State.bar2, hc]
theorem State.bar2_cqHead (s : State) (p : Nat) (hc : c < 3072) : s.bar2 p (0x1000 * c + 8) = if s.down_ then 0 else (s.ctx c).cqHead.toNat := by
  have hpage : (0x1000 * c + 8) / 0x1000 = c := by omega
  have hreg : (0x1000 * c + 8) % 0x1000 = 8 := by omega
  simp [State.bar2, hpage, hreg, hc]

/-- Settles O57: the three doorbells share one guard, and what each does once it is taken neither reads a session entry nor touches a doorbell-drop count. -/
theorem doorbellRule : Obligations.DoorbellRule := by
  unfold Obligations.DoorbellRule
  intro drops bells
  refine ⟨fun _ _ _ _ hr hc h _ hi => exec_bell_of_dropsBell hi hr hc h, fun p c v s u hr hc h i hi hu q => ?taken, fun p c v s ents i hi => ?sessions,
    fun p c s => ⟨s.doorbellDrop_dbdrop p c, s.doorbellDrop_dbSeen p c, s.doorbellDrop_ctx p c⟩, fun _ c _ => State.doorbellDrop_of_seen c,
    fun _ c _ => State.doorbellDrop_of_unseen c, fun _ _ _ => exec_hltDbclr_clears, fun p q c s hc => ?page⟩
  case taken =>
    have hmarks : u.bellMarks = s.bellMarks := exec_bell_of_taken hi hr hc h hu
    exact ⟨State.dbdrop_of_bellMarks hmarks q, State.ses_of_bellMarks hmarks⟩
  case sessions =>
    refine (exec_bell_withEnts hi ents s).trans ?_
    cases exec i s <;> rfl
  case page =>
    simp only [State.bar2_sqTail s _ hc, State.bar2_cqHead s _ hc, and_self]

end Sys2Proof.Machine
end

section
/-! PROOFS. REGISTER_WRITE outside the debug block (R289 to R291, R503, R520): the parts that a write to each block of registers can change. None of them is the debug
block, but for the PANEL_RESET of SPI_CMD. -/

namespace Sys2Proof.Machine

/-- Only port 0 has SPI_CMD (R463). -/
theorem execPanelReset_of_port {port : Nat} (h : port ≠ 0) (env : BringUpEnv) (s : State) : execPanelReset port env s = ok s := by
  simp [execPanelReset, spiCmd, State.spiReach, h]

variable [Blanks]
variable {s : State} (port off : Nat) (v : W32)

/-! ### The ways a register is written -/

theorem plain_stays {g : State → State} (h : (g s).outside = s.outside) : Stays s.outside (plain s port g) := by
  simp [plain, h]
theorem spiSet_stays [Blanked .host] [Blanked .spi] [Blanked .ses] (free : Bool) (g : Spi → Spi) : Stays s.outside (spiSet s port off free g) := by
  simp [spiSet]

/-! ### One block of registers each -/

theorem writeId_stays [Blanked .host] : Stays s.outside (writeId s port off v) := by
  simp [writeId]
theorem writeSes_stays [Blanked .freeN] [Blanked .host] [Blanked .spi] [Blanked .ses] : Stays s.outside (writeSes s port off v) := by
  simp [writeSes, plain_stays, execChallenge_stays, execSesOpen_stays, execSesClose_stays, execAttest_stays, execPubkey_stays, execArmOwner_stays, execArmSvn_stays,
    execCommitFuse_stays]
theorem writePart_stays [Blanked .tiles] [Blanked .sites] [Blanked .fab] [Blanked .host] [Blanked .parts] [Blanked .rick] [Blanked .clk] [Blanked .cap]
    [Blanked .spi] [Blanked .hlt] [Blanked .ses] (p r : Nat) : Stays s.outside (writePart s port p r v) := by
  simp [writePart, gated0_stays, execDefine_stays, execDelete_stays, execWarmReset_stays, execPrtUpdate_stays]
theorem writeWin_stays [Blanked .freeN] [Blanked .tiles] [Blanked .chans] [Blanked .host] [Blanked .spi] [Blanked .ses] (w r : Nat) :
    Stays s.outside (writeWin s port w r v) :=
  gated0_stays (by simp)
theorem writeDdr_stays [Blanked .sites] [Blanked .host] [Blanked .parts] [Blanked .spi] [Blanked .ses] (p r : Nat) : Stays s.outside (writeDdr s port p r v) := by
  simp [writeDdr, gated0_stays, execDdrRegionCommit_stays]
theorem writePrt_stays [Blanked .freeN] [Blanked .tiles] [Blanked .sites] [Blanked .fab] [Blanked .chans] [Blanked .bev] [Blanked .host] [Blanked .parts]
    [Blanked .rick] [Blanked .clk] [Blanked .cap] [Blanked .spi] [Blanked .hlt] [Blanked .ses] : Stays s.outside (writePrt s port off v) := by
  simp [writePrt, writePart_stays, writeWin_stays, writeDdr_stays, execPrtBevWrite_stays]
theorem writeCtx_stays [Blanked .tiles] [Blanked .sites] [Blanked .fab] [Blanked .host] [Blanked .rick] [Blanked .spi] [Blanked .ses] :
    Stays s.outside (writeCtx s port off v) := by
  simp [writeCtx, gated_stays, execCtxSel_stays, execConfigure_stays, execRelease_stays, execRestart_stays, execHalt_stays]
theorem writeMsi_stays [Blanked .host] : Stays s.outside (writeMsi s port off v) := by
  simp [writeMsi, plain_stays, execMsixUnmask_stays]
theorem writePwr_stays [Blanked .tiles] [Blanked .sites] [Blanked .fab] [Blanked .host] [Blanked .parts] [Blanked .clk] [Blanked .pwr] [Blanked .cap] [Blanked .spi]
    [Blanked .hlt] [Blanked .ses] : Stays s.outside (writePwr s port off v) := by
  simp [writePwr, gated0_stays, plain_stays, execPwrCap_stays, execPaceLock_stays, execClearProfiles_stays, execClearPath_stays, execIsolate_stays, execRestore_stays]
theorem writeClk_stays [Blanked .sites] [Blanked .host] [Blanked .parts] [Blanked .clk] [Blanked .spi] [Blanked .ses] : Stays s.outside (writeClk s port off v) := by
  simp [writeClk, gated0_stays, execClkCeil_stays, execBank_stays, execUnbank_stays]
theorem writeTel_stays [Blanked .host] [Blanked .spi] [Blanked .ses] : Stays s.outside (writeTel s port off v) := by
  simp [writeTel, gated0_stays, execTelCfg_stays, execTelHead_stays]
theorem writeEvt_stays [Blanked .host] [Blanked .spi] [Blanked .ses] : Stays s.outside (writeEvt s port off v) := by
  simp [writeEvt, gated0_stays, gated_stays, execEvtCfg_stays, execEvtHead_stays]
theorem writeMtr_stays [Blanked .host] [Blanked .spi] [Blanked .ses] [Blanked .mtr] : Stays s.outside (writeMtr s port off v) := by
  simp [writeMtr, gated0_stays, plain_stays, execMtrSelect_stays, execMtrRcfg_stays, execMtrRhead_stays]
theorem writeCas_stays [Blanked .tiles] [Blanked .sites] [Blanked .fab] [Blanked .host] [Blanked .rick] [Blanked .spi] [Blanked .ses] :
    Stays s.outside (writeCas s port off v) := by
  simp [writeCas, gated0_stays, execRrestart_stays, execPublish_stays, execCasPcfg_stays]
theorem writeSpi_stays [Blanked .freeN] [Blanked .host] [Blanked .spi] [Blanked .ses] (h : port ≠ 0 ∨ off ≠ 0x28054) : Stays s.outside (writeSpi s port off v) := by
  rcases h with h | h
  · simp [writeSpi, spiSet_stays, execUpdate_stays, execSettingsCommit_stays, execPanelReset_of_port, h]
  · simp [writeSpi, spiSet_stays, h]
theorem writeHltCmd_stays [Blanked .freeN] [Blanked .tiles] [Blanked .sites] [Blanked .fab] [Blanked .host] [Blanked .spi] [Blanked .hlt] [Blanked .ses] :
    Stays s.outside (writeHltCmd s port v) := by
  simp [writeHltCmd, gated0_stays, execRemap_stays, execRetire_stays, execKeep_stays, execHole_stays, execClear_stays, execTreset_stays, execSreset_stays,
    execRepublish_stays]
theorem writeHlt_stays [Blanked .freeN] [Blanked .tiles] [Blanked .sites] [Blanked .fab] [Blanked .host] [Blanked .spi] [Blanked .hlt] [Blanked .ses] :
    Stays s.outside (writeHlt s port off v) := by
  simp [writeHlt, plain_stays, gated0_stays, writeHltCmd_stays, execSweepGrant_stays, execSvReset_stays, execHltSclr_stays, execHltEclr_stays, execHltLsel_stays,
    execHltDbclr_stays]

/-! ### BAR2 and the configuration space -/

theorem writeBar2_stays [Blanked .freeN] [Blanked .tiles] [Blanked .sites] [Blanked .fab] [Blanked .chans] [Blanked .host] [Blanked .rick] [Blanked .spi]
    (width : Nat) (v : W64) : Stays s.outside (writeBar2 s port off width v) := by
  simp [writeBar2, execSqTail_stays, execCqHead_stays, execRestart_stays, doorbell_stays]
@[simp] theorem State.sendPending_outside [Blanked .host] (s : State) (port : Nat) : (s.sendPending port).outside = s.outside :=
  outside_foldl _ (fun s e => by simp) _ _
theorem writeCfg_stays [Blanked .tiles] [Blanked .fab] [Blanked .host] [Blanked .spi] : Stays s.outside (writeCfg s port off v) := by
  simp [writeCfg, execFunctionLevelReset_stays]

end Sys2Proof.Machine
end

section
/-! PROOFS. The debug lock (R533): while DBG_CTL.LOCK is set, what the DBG_ block still does, and that only a start of bring-up or a loss of power ends it. -/

namespace Sys2Proof.Machine

open Sys2Proof.Safety (Managed)

variable {s : State}

/-! ### With a session bound to port 0 (R503) -/

theorem gated0_of_managed (h : Managed s 0) (off : Nat) (k : Out) : gated0 s 0 off k = k := by
  obtain ⟨hreach, hsession⟩ := h
  simp [gated0, gated, hreach, hsession]
theorem execDbgLock_of_managed (h : Managed s 0) (v : W32) :
    execDbgLock 0 v s = .next (if bitOf v 0 then s.modDbg fun d => { d with locked := true } else s) := gated0_of_managed h _ _
theorem execDbgTest_of_managed (h : Managed s 0) (hl : s.dbg.locked = false) (v : W32) : execDbgTest 0 v s = .next (s.raisePort 0x0016 0 v.toNat 0) := by
  rw [execDbgTest, gated0_of_managed h, hl]; rfl

/-! ### The DBG_ block under the lock (R533) -/

section Locked

variable (hs : s.dbg.locked = true)
include hs

theorem State.setLock_of_locked : (s.modDbg fun d => { d with locked := true }) = s := by
  rw [State.modDbg, ← hs]
theorem dbgCmd_of_locked (port : Nat) (k : State → State) : dbgCmd s port k = gated0 s port 0xF0018 (ok (s.dbgRefuse 1)) := by
  simp [dbgCmd, hs]
theorem execDbgRead_of_locked (port : Nat) : execDbgRead port s = gated0 s port 0xF0018 (ok (s.dbgRefuse 1)) := dbgCmd_of_locked hs port _
theorem execDbgWrite_of_locked (port : Nat) : execDbgWrite port s = gated0 s port 0xF0018 (ok (s.dbgRefuse 1)) := dbgCmd_of_locked hs port _
theorem execDbgLock_of_locked (port : Nat) (v : W32) : execDbgLock port v s = gated0 s port 0xF0000 (ok s) := by
  rw [execDbgLock, State.setLock_of_locked hs, ite_self]
theorem execDbgTest_of_locked (port : Nat) (v : W32) : execDbgTest port v s = gated0 s port 0xF001C (ok s) := by
  rw [execDbgTest, if_pos hs]
theorem dbgSet_of_locked (port off : Nat) (f : Dbg → Dbg) : dbgSet s port off f = gated0 s port off (ok s) := by
  rw [dbgSet, if_pos (.inl hs)]

end Locked

/-- The registers of the DBG_ block (R531). -/
def dbgRegs : List Nat := [0xF0000, 0xF0004, 0xF0008, 0xF000C, 0xF0010, 0xF0014, 0xF0018, 0xF001C]
/-- What a write to the DBG_ block leaves while it is locked: a command is refused, anything else is ignored. -/
def State.lockedWrite (s : State) (off : Nat) (v : W32) : State :=
  if off = 0xF0018 ∧ (bitsOf v 1 0 = 1 ∨ bitsOf v 1 0 = 2) then s.dbgRefuse 1 else s

theorem State.lockedWrite_locked (hs : s.dbg.locked = true) (off : Nat) (v : W32) : (s.lockedWrite off v).dbg.locked = true := by
  unfold State.lockedWrite
  split <;> exact hs
theorem writeDbg_of_not_mem {off : Nat} (h : off ∉ dbgRegs) (port : Nat) (v : W32) : writeDbg s port off v = ok s := by
  simp only [dbgRegs, List.mem_cons, List.not_mem_nil, or_false, not_or] at h
  simp [writeDbg, h]
/-- Under the lock every register of the block answers by one rule (R533). -/
theorem writeDbg_of_mem (hs : s.dbg.locked = true) {off : Nat} (h : off ∈ dbgRegs) (port : Nat) (v : W32) :
    writeDbg s port off v = gated0 s port off (ok (s.lockedWrite off v)) := by
  simp only [dbgRegs, List.mem_cons, List.not_mem_nil, or_false] at h
  by_cases hcmd : off = 0xF0018
  · subst hcmd
    simp only [writeDbg, State.lockedWrite, execDbgRead_of_locked hs, execDbgWrite_of_locked hs]
    by_cases h1 : bitsOf v 1 0 = 1
    · simp [h1]
    · by_cases h2 : bitsOf v 1 0 = 2 <;> simp [h1, h2]
  · have hkeep : s.lockedWrite off v = s := if_neg fun h => hcmd h.1
    rw [hkeep]
    simp only [hcmd, false_or] at h
    rcases h with rfl | rfl | rfl | rfl | rfl | rfl | rfl <;>
      simp [writeDbg, dbgSet_of_locked hs, execDbgLock_of_locked hs, execDbgTest_of_locked hs]

theorem State.bar0_dbgLo (hs : s.dbg.locked = true) (p : Nat) : s.bar0 p 0xF0010 = 0 := by
  simp [State.bar0, shown, State.dbgView, hs]
theorem State.bar0_dbgHi (hs : s.dbg.locked = true) (p : Nat) : s.bar0 p 0xF0014 = 0 := by
  simp [State.bar0, shown, State.dbgView, hs]

/-- The low half of a value holds its low two bits. -/
theorem bitsOf_low (v : W64) : bitsOf (BitVec.ofNat 32 (bitsOf v 31 0)) 1 0 = bitsOf v 1 0 := by
  simp only [bitsOf, BitVec.toNat_ofNat]
  omega
/-- A 32-bit write to the block goes to its register (R520). -/
theorem exec_registerWrite_dbg {off : Nat} (h0 : 0xF0000 ≤ off) (h1 : off < 0x100000) (h4 : off % 4 = 0) (v : W64) (s : State) :
    exec (.registerWrite 0 0 off 4 v) s = writeDbg s 0 off (BitVec.ofNat 32 (bitsOf v 31 0)) := by
  have hexec : exec (.registerWrite 0 0 off 4 v) s = execRegisterWrite 0 0 off 4 v s := rfl
  have hword : off % 8 + 4 ≤ 8 := by omega
  have hblock : write32 s 0 off (BitVec.ofNat 32 (bitsOf v 31 0)) = writeDbg s 0 off (BitVec.ofNat 32 (bitsOf v 31 0)) := by
    unfold write32
    repeat rw [if_neg (by omega)]
    exact if_pos ⟨h0, h1⟩
  simp [hexec, execRegisterWrite, writeBar0, h1, h4, hblock, Nat.not_lt.mpr hword]

end Sys2Proof.Machine
end

section
/-! PROOFS. Which commands leave the debug block locked (R533): all but those that start the panel anew or take its power away. -/

namespace Sys2Proof.Machine

open Sys2Proof.Safety (Blk)

/-- If an outcome is a next state, the debug block is locked in it. -/
structure StaysLocked (o : Out) : Prop where
  holds : ∀ t, o = .next t → t.dbg.locked = true

/-- The commands that may end the lock: a start of bring-up, a loss of power, and SPI_CMD written as a register (R449, R460, R463). -/
def mayUnlock : Instr → Prop
  | .coldPowerOn _ | .panelReset _ _ | .updateDone _ | .inputLoss _ | .inputOvervoltage _ => True
  | .registerWrite port bar off _ _ => port = 0 ∧ bar = 0 ∧ (off = 0x28054 ∨ off = 0x28050)
  | _ => False

variable {s u : State}

section Outcomes

variable {a b o : Out}

theorem StaysLocked.ok (hs : s.dbg.locked = true) : StaysLocked (ok s) := ⟨fun t ht => by cases ht; exact hs⟩
theorem StaysLocked.refused (r : Refusal) : StaysLocked (.refused r) := ⟨fun t ht => by cases ht⟩
theorem StaysLocked.ite {c : Prop} [Decidable c] (ha : StaysLocked a) (hb : StaysLocked b) : StaysLocked (if c then a else b) := by
  split
  · exact ha
  · exact hb
theorem StaysLocked.when_ {c : Bool} (hs : s.dbg.locked = true) (ho : StaysLocked o) : StaysLocked (when_ c s o) := .ite ho (.ok hs)
theorem StaysLocked.andThen {k : State → Out} (ho : StaysLocked o) (hk : ∀ t, t.dbg.locked = true → StaysLocked (k t)) : StaysLocked (andThen o k) := by
  cases ho' : o with
  | next t => exact hk t (ho.holds t ho')
  | fault r => exact ⟨fun t ht => by cases ht⟩
  | refused r => exact .refused r
theorem StaysLocked.onFlight {i : Nat} {k : Flight → Out} (hs : s.dbg.locked = true) (hk : ∀ f, StaysLocked (k f)) : StaysLocked (onFlight s i k) := by
  unfold Machine.onFlight
  split
  · exact hk _
  · exact .ok hs

end Outcomes

/-! ### What the frames say of the lock -/

section Frame

variable [Blanks]

theorem dbg_of_outside (hd : Blk.dbg ∉ Blanks.bs) (h : u.outside = s.outside) : u.dbg = s.dbg := by
  simpa [State.outside, Safety.outsideOf, hd] using congrArg State.dbg h
theorem locked_of_outside (hd : Blk.dbg ∉ Blanks.bs) (h : u.outside = s.outside) (hs : s.dbg.locked = true) : u.dbg.locked = true := by
  rw [dbg_of_outside hd h, hs]
/-- A meaning that does not reach the debug block leaves it locked. -/
theorem Stays.staysLocked {o : Out} (h : Stays s.outside o) (hd : Blk.dbg ∉ Blanks.bs) (hs : s.dbg.locked = true) : StaysLocked o :=
  ⟨fun t ht => locked_of_outside hd (h.holds t ht) hs⟩

end Frame

section Locked

variable [Blanks] (hd : Blk.dbg ∉ Blanks.bs) (hs : s.dbg.locked = true)
include hd hs

/-! ### Answers at a PCIe edge die (R323, R532) -/

theorem State.edgeFail_locked [Blanked .tiles] [Blanked .host] (t : ETrk) (status : Nat) : (s.edgeFail t status).dbg.locked = true := by
  unfold State.edgeFail
  cases t.for_ with
  | copy n at_ len => exact locked_of_outside hd (by simp) hs
  | wait n => exact locked_of_outside hd (by simp) hs
  | gate n mode audn theta => exact locked_of_outside hd (by simp) hs
  | dbg => exact hs
theorem State.edgeData_locked [Blanked .tiles] [Blanked .sites] [Blanked .fab] [Blanked .host] [Blanked .spi] (t : ETrk) (bs : List Byte) :
    (s.edgeData t bs).dbg.locked = true := by
  unfold State.edgeData
  cases t.for_ with
  | copy n at_ len => exact locked_of_outside hd (by simp) hs
  | wait n =>
    refine locked_of_outside hd ?_ hs
    dsimp only
    split <;> simp
  | gate n mode audn theta =>
    refine locked_of_outside hd ?_ hs
    dsimp only
    split <;> simp
  | dbg => exact hs
theorem State.edgeResponse_locked [Blanked .tiles] [Blanked .sites] [Blanked .fab] [Blanked .host] [Blanked .spi] (pe : Nat) (p : Packet) :
    (s.edgeResponse pe p).dbg.locked = true := by
  have hreuse : (s.edgeReuse pe).dbg.locked = true := locked_of_outside hd (by simp) hs
  unfold State.edgeResponse
  dsimp only
  split
  next => exact hreuse
  next t _ =>
    refine locked_of_outside hd (State.copiesAsk_outside _ pe) ?_
    have hfreed : ((s.edgeReuse pe).setEtrks pe (((s.edgeReuse pe).etrks pe).filter fun u => u.id != t.id)).dbg.locked = true :=
      locked_of_outside hd (State.setEtrks_outside ..) hreuse
    split
    · exact hfreed
    · split
      · exact State.edgeData_locked hd hfreed t _
      · exact State.edgeFail_locked hd hfreed t _
theorem execEdgeTrackerTimeout_staysLocked [Blanked .tiles] [Blanked .sites] [Blanked .fab] [Blanked .host] [Blanked .spi] (pe k : Nat) :
    StaysLocked (execEdgeTrackerTimeout pe k s) := by
  unfold execEdgeTrackerTimeout
  refine .ite (.ok hs) ?_
  split
  next => exact .ok hs
  next t _ =>
    have hended : (s.setEtrks pe (lset (s.etrks pe) k { t with ended := true, since := s.time })).dbg.locked = true :=
      locked_of_outside hd (State.setEtrks_outside ..) hs
    exact .when_ hs (.ok (locked_of_outside hd (State.copiesAsk_outside ..) (State.edgeFail_locked hd hended t _)))

/-! ### Responses on the fabric (R217, R532) -/

/-- A response at an edge die whose packet is for this panel. -/
theorem edgeAnswer_staysLocked [Blanked .tiles] [Blanked .sites] [Blanked .fab] [Blanked .host] [Blanked .spi] (c : Prop) [Decidable c] (i e : Nat) (p : Packet) :
    StaysLocked (if c then ok ((s.dropFlight i).edgeResponse e p) else ok s) :=
  .ite (.ok (State.edgeResponse_locked hd (locked_of_outside hd (State.dropFlight_outside s i) hs) e p)) (.ok hs)
theorem execRdata_staysLocked [Blanked .freeN] [Blanked .tiles] [Blanked .sites] [Blanked .fab] [Blanked .host] [Blanked .spi] [Blanked .hlt] (i : Nat) :
    StaysLocked (execRdata i s) := by
  refine .onFlight hs fun f => .ite (.ok hs) ?_
  cases f.goal with
  | tile t => exact (respAtTile_stays fun u hu => by simp [hu]).staysLocked hd hs
  | edge e => exact edgeAnswer_staysLocked hd hs _ i e f.pkt
  | _ => exact .ok hs
theorem execRerr_staysLocked [Blanked .tiles] [Blanked .sites] [Blanked .fab] [Blanked .host] [Blanked .spi] (i : Nat) : StaysLocked (execRerr i s) := by
  refine .onFlight hs fun f => .ite (.ok hs) ?_
  cases f.goal with
  | tile t =>
    refine (respAtTile_stays fun u hu => ?_).staysLocked hd hs
    split <;> simp [hu]
  | edge e => exact edgeAnswer_staysLocked hd hs _ i e f.pkt
  | _ => exact .ok hs
theorem execWack_staysLocked [Blanked .freeN] [Blanked .tiles] [Blanked .sites] [Blanked .fab] [Blanked .host] [Blanked .spi] (i : Nat) :
    StaysLocked (execWack i s) := by
  refine .onFlight hs fun f => .ite (.ok hs) ?_
  cases f.goal with
  | tile t => exact (respAtTile_stays fun u hu => by simp [hu]).staysLocked hd hs
  | edge e =>
    have hdrop : (s.dropFlight i).dbg.locked = true := locked_of_outside hd (State.dropFlight_outside s i) hs
    refine .ite (.ite (.ok hdrop) ?_) (.ok hs)
    exact Stays.staysLocked (by simp) hd hs
  | _ => exact .ok hs

/-! ### Writes to registers (R449, R520, R533) -/

theorem gated0_staysLocked [Blanked .host] [Blanked .spi] [Blanked .ses] {o : Out} (port off : Nat) (ho : StaysLocked o) : StaysLocked (gated0 s port off o) := by
  have hdenied : (s.denied port off).dbg.locked = true := locked_of_outside hd (State.denied_outside ..) hs
  exact .ite (.ite (.ok hs) (.ite ho (.ok hdenied))) (.ok hs)
theorem execDbgRead_staysLocked [Blanked .host] [Blanked .spi] [Blanked .ses] (port : Nat) : StaysLocked (execDbgRead port s) := by
  rw [execDbgRead_of_locked hs]
  exact gated0_staysLocked hd hs port _ (.ok hs)
theorem execDbgWrite_staysLocked [Blanked .host] [Blanked .spi] [Blanked .ses] (port : Nat) : StaysLocked (execDbgWrite port s) := by
  rw [execDbgWrite_of_locked hs]
  exact gated0_staysLocked hd hs port _ (.ok hs)
theorem execDbgLock_staysLocked [Blanked .host] [Blanked .spi] [Blanked .ses] (port : Nat) (v : W32) : StaysLocked (execDbgLock port v s) := by
  rw [execDbgLock_of_locked hs]
  exact gated0_staysLocked hd hs port _ (.ok hs)
theorem writeDbg_staysLocked [Blanked .host] [Blanked .spi] [Blanked .ses] (port off : Nat) (v : W32) : StaysLocked (writeDbg s port off v) := by
  by_cases h : off ∈ dbgRegs
  · rw [writeDbg_of_mem hs h]
    exact gated0_staysLocked hd hs port off (.ok (State.lockedWrite_locked hs off v))
  · rw [writeDbg_of_not_mem h]
    exact .ok hs

end Locked

section Registers

variable [Blanks] [Blanked .freeN] [Blanked .tiles] [Blanked .sites] [Blanked .fab] [Blanked .chans] [Blanked .bev] [Blanked .host] [Blanked .parts] [Blanked .rick]
  [Blanked .clk] [Blanked .pwr] [Blanked .cap] [Blanked .spi] [Blanked .hlt] [Blanked .ses] [Blanked .mtr] (hd : Blk.dbg ∉ Blanks.bs) (hs : s.dbg.locked = true)
include hd hs

theorem write32_staysLocked {port off : Nat} (v : W32) (h : port ≠ 0 ∨ off ≠ 0x28054) : StaysLocked (write32 s port off v) := by
  have keeps {o : Out} (ho : Stays s.outside o) : StaysLocked o := ho.staysLocked hd hs
  exact .ite (.ok hs) (.ite (keeps (writeId_stays ..)) (.ite (keeps (writeSes_stays ..)) (.ite (keeps (writePrt_stays ..)) (.ite (keeps (writeCtx_stays ..))
    (.ite (keeps (writeMsi_stays ..)) (.ite (keeps (writePwr_stays ..)) (.ite (keeps (writeClk_stays ..)) (.ite (keeps (writeTel_stays ..))
    (.ite (keeps (writeEvt_stays ..)) (.ite (keeps (writeMtr_stays ..)) (.ite (keeps (writeCas_stays ..)) (.ite (keeps (writeSpi_stays _ _ _ h))
    (.ite (keeps (writeHlt_stays ..)) (.ite (writeDbg_staysLocked hd hs ..) (.ok hs)))))))))))))))
theorem writeBar0_staysLocked {port off : Nat} (width : Nat) (v : W64) (h : port ≠ 0 ∨ (off ≠ 0x28054 ∧ off ≠ 0x28050)) :
    StaysLocked (writeBar0 s port off width v) := by
  have hlow : port ≠ 0 ∨ off ≠ 0x28054 := h.imp_right And.left
  have hhigh : port ≠ 0 ∨ off + 4 ≠ 0x28054 := h.imp_right fun h => by omega
  exact .ite (.refused _) (.ite (.andThen (write32_staysLocked hd hs _ hlow) fun t ht => write32_staysLocked hd ht _ hhigh)
    (.ite (write32_staysLocked hd hs _ hlow) (.ok hs)))
theorem execRegisterWrite_staysLocked (port bar off width : Nat) (v : W64) (h : ¬ mayUnlock (.registerWrite port bar off width v)) :
    StaysLocked (execRegisterWrite port bar off width v s) := by
  refine .ite (.ok hs) ?_
  by_cases hbar : bar = 0
  · have hoff : port ≠ 0 ∨ (off ≠ 0x28054 ∧ off ≠ 0x28050) := by
      simp only [mayUnlock] at h
      omega
    rw [if_pos hbar]
    exact .ite (writeBar0_staysLocked hd hs width v hoff) (.ok hs)
  · rw [if_neg hbar]
    exact .ite (.ite ((writeBar2_stays ..).staysLocked hd hs) (.ok hs)) (.ite ((writeCfg_stays ..).staysLocked hd hs) (.ok hs))

variable [Blanked .time]

/-- Every other command: its frame leaves the debug block out, or it is one of the debug block's own or of its responses. -/
theorem exec_staysLocked (c : Instr) (hc : ¬ mayUnlock c) : StaysLocked (exec c s) := by
  have keeps {o : Out} (ho : Stays s.outside o) : StaysLocked o := ho.staysLocked hd hs
  cases c with
  | rvInstruction => exact keeps (execRvInstruction_stays _ _ _ s rfl)
  | ecallExit => exact keeps (execEcallExit_stays _ _ s rfl)
  | coreDone => exact keeps (execCoreDone_stays _ _ s rfl)
  | xtPut => exact keeps (execXtPut_stays _ _ s rfl)
  | xtGet => exact keeps (execXtGet_stays _ _ s rfl)
  | xtProbe => exact keeps (execXtProbe_stays _ _ s rfl)
  | xtEnq => exact keeps (execXtEnq_stays _ _ s rfl)
  | xtCset => exact keeps (execXtCset_stays _ _ s rfl)
  | xtCadd => exact keeps (execXtCadd_stays _ _ s rfl)
  | xtCarm => exact keeps (execXtCarm_stays _ _ s rfl)
  | xtCwait => exact keeps (execXtCwait_stays _ _ s rfl)
  | cwaitResume => exact keeps (execCwaitResume_stays _ _ s rfl)
  | xtEvt => exact keeps (execXtEvt_stays _ _ s rfl)
  | transferPacketIssue => exact keeps (execTransferPacketIssue_stays _ s rfl)
  | launchStart => exact keeps (execLaunchStart_stays _ s rfl)
  | loadTileStart => exact keeps (execLoadTileStart_stays _ s rfl)
  | loadEnd => exact keeps (execLoadEnd_stays _ s rfl)
  | loadw => exact keeps (execLoadw_stays _ _ s rfl)
  | mma => exact keeps (execMma_stays _ _ s rfl)
  | store => exact keeps (execStore_stays _ _ s rfl)
  | zero => exact keeps (execZero_stays _ _ s rfl)
  | nop => exact keeps (execNop_stays _ s rfl)
  | engineRetire => exact keeps (execEngineRetire_stays _ _ s rfl)
  | engCtrlClear => exact keeps (execEngCtrlClear_stays _ s rfl)
  | write => exact keeps (execWrite_stays _ s rfl)
  | writeToOwner => exact keeps (execWriteToOwner_stays _ s rfl)
  | read => exact keeps (execRead_stays _ _ s rfl)
  | cnt => exact keeps (execCnt_stays _ s rfl)
  | rdata => exact execRdata_staysLocked hd hs _
  | rerr => exact execRerr_staysLocked hd hs _
  | wack => exact execWack_staysLocked hd hs _
  | routerHop => exact keeps (execRouterHop_stays _ _ s rfl)
  | routeEntryRewrite => exact keeps (execRouteEntryRewrite_stays _ _ s rfl)
  | flitRefused => exact keeps (execFlitRefused_stays _ _ s rfl)
  | linkUp => exact keeps (execLinkUp_stays _ s rfl)
  | seamRetrain => exact keeps (execSeamRetrain_stays _ _ s rfl)
  | trackerTimeout => exact keeps (execTrackerTimeout_stays _ _ s rfl)
  | trackerReuse => exact keeps (execTrackerReuse_stays _ _ s rfl)
  | baseDieFault => exact keeps (execBaseDieFault_stays _ s rfl)
  | republish => exact keeps (execRepublish_stays _ s rfl)
  | republishDone => exact keeps (execRepublishDone_stays s rfl)
  | listAppend => exact keeps (execListAppend_stays _ s rfl)
  | listClose => exact keeps (execListClose_stays _ s rfl)
  | listArm => exact keeps (execListArm_stays _ s rfl)
  | scrubAccess => exact keeps (execScrubAccess_stays _ _ _ s rfl)
  | cacheRead => exact keeps (execCacheRead_stays _ _ _ s rfl)
  | cacheFillReturn => exact keeps (execCacheFillReturn_stays _ s rfl)
  | cacheWrite => exact keeps (execCacheWrite_stays _ s rfl)
  | maintInvalidateLine => exact keeps (execMaintInvalidateLine_stays _ s rfl)
  | maintInvalidateRange => exact keeps (execMaintInvalidateRange_stays _ s rfl)
  | maintInvalidateAll => exact keeps (execMaintInvalidateAll_stays _ s rfl)
  | maintReserved => exact keeps (execMaintReserved_stays _ s rfl)
  | ddrChannelDown => exact keeps (execDdrChannelDown_stays _ s rfl)
  | patrolRead => exact keeps (execPatrolRead_stays _ _ _ _ s rfl)
  | ddrRegionCommit => exact keeps (execDdrRegionCommit_stays _ _ s rfl)
  | prtBevWrite => exact keeps (execPrtBevWrite_stays _ _ _ s rfl)
  | portDown => exact keeps (execPortDown_stays _ s rfl)
  | portUp => exact keeps (execPortUp_stays _ _ s rfl)
  | functionLevelReset => exact keeps (execFunctionLevelReset_stays _ s rfl)
  | busMasterDisable => exact keeps (execBusMasterDisable_stays _ s rfl)
  | perstRelease => exact keeps (execPerstRelease_stays _ _ s rfl)
  | hostCompletionTimeout => exact keeps (execHostCompletionTimeout_stays _ s rfl)
  | sqTail => exact keeps (execSqTail_stays _ _ _ s rfl)
  | cqHead => exact keeps (execCqHead_stays _ _ _ s rfl)
  | descriptorFetch => exact keeps (execDescriptorFetch_stays _ _ s rfl)
  | nopDescriptor => exact keeps (execNopDescriptor_stays _ s rfl)
  | copy => exact keeps (execCopy_stays _ s rfl)
  | launch => exact keeps (execLaunch_stays _ s rfl)
  | load => exact keeps (execLoad_stays _ s rfl)
  | wait => exact keeps (execWait_stays _ s rfl)
  | waitPoll => exact keeps (execWaitPoll_stays _ _ s rfl)
  | signal => exact keeps (execSignal_stays _ s rfl)
  | phase => exact keeps (execPhase_stays _ s rfl)
  | barrier => exact keeps (execBarrier_stays _ s rfl)
  | fence => exact keeps (execFence_stays _ s rfl)
  | predict => exact keeps (execPredict_stays _ s rfl)
  | mark => exact keeps (execMark_stays _ s rfl)
  | reservedOpcode => exact keeps (execReservedOpcode_stays _ s rfl)
  | descriptorComplete => exact keeps (execDescriptorComplete_stays _ _ s rfl)
  | ctxSel => exact keeps (execCtxSel_stays _ _ s rfl)
  | configure => exact keeps (execConfigure_stays _ s rfl)
  | release => exact keeps (execRelease_stays _ s rfl)
  | restart => exact keeps (execRestart_stays _ _ _ s rfl)
  | restartDone => exact keeps (execRestartDone_stays _ s rfl)
  | halt => exact keeps (execHalt_stays _ s rfl)
  | contextFault => exact keeps (execContextFault_stays _ s rfl)
  | stepWatchdog => exact keeps (execStepWatchdog_stays _ s rfl)
  | edgeTrackerTimeout => exact execEdgeTrackerTimeout_staysLocked hd hs _ _
  | evtHead => exact keeps (execEvtHead_stays _ _ s rfl)
  | evtCfg => exact keeps (execEvtCfg_stays _ _ s rfl)
  | msixUnmask => exact keeps (execMsixUnmask_stays _ _ _ s rfl)
  | define => exact keeps (execDefine_stays _ _ s rfl)
  | delete => exact keeps (execDelete_stays _ _ s rfl)
  | warmReset => exact keeps (execWarmReset_stays _ _ s rfl)
  | warmResetDone => exact keeps (execWarmResetDone_stays _ _ _ s rfl)
  | prtUpdate => exact keeps (execPrtUpdate_stays _ _ s rfl)
  | cascadeCodeword => exact keeps (execCascadeCodeword_stays _ _ s rfl)
  | replayTimeout => exact keeps (execReplayTimeout_stays _ s rfl)
  | cascadePortDown => exact keeps (execCascadePortDown_stays _ _ s rfl)
  | cascadePortUp => exact keeps (execCascadePortUp_stays _ _ s rfl)
  | casPcfg => exact keeps (execCasPcfg_stays _ _ _ s rfl)
  | rickAnnounce => exact keeps (execRickAnnounce_stays _ _ _ s rfl)
  | publish => exact keeps (execPublish_stays _ s rfl)
  | rickRoutes => exact keeps (execRickRoutes_stays _ s rfl)
  | rrestart => exact keeps (execRrestart_stays _ _ s rfl)
  | timebaseSync => exact keeps (execTimebaseSync_stays _ s rfl)
  | masterLost => exact keeps (execMasterLost_stays s rfl)
  | rickBarrierArrival => exact keeps (execRickBarrierArrival_stays _ _ _ s rfl)
  | rickBarrierRelease => exact keeps (execRickBarrierRelease_stays _ _ s rfl)
  | clkRefLoss => exact keeps (execClkRefLoss_stays _ s rfl)
  | clkRefRestored => exact keeps (execClkRefRestored_stays _ s rfl)
  | edgeHoldoverExpiry => exact keeps (execEdgeHoldoverExpiry_stays _ s rfl)
  | clkDecoupled => exact keeps (execClkDecoupled_stays _ _ s rfl)
  | clkRecoupled => exact keeps (execClkRecoupled_stays _ s rfl)
  | timeMessage => exact keeps (execTimeMessage_stays _ _ s rfl)
  | stepChange => exact keeps (execStepChange_stays _ _ s rfl)
  | railSettled => exact keeps (execRailSettled_stays _ s rfl)
  | stepStopEnd => exact keeps (execStepStopEnd_stays _ _ s rfl)
  | clkStepFault => exact keeps (execClkStepFault_stays _ s rfl)
  | clkCeil => exact keeps (execClkCeil_stays _ _ _ s rfl)
  | bank => exact keeps (execBank_stays _ _ s rfl)
  | unbank => exact keeps (execUnbank_stays _ _ s rfl)
  | bankReturn => exact keeps (execBankReturn_stays _ s rfl)
  | inputWarn => exact keeps (execInputWarn_stays _ _ s rfl)
  | orderlyStop => exact keeps (execOrderlyStop_stays _ s rfl)
  | inputHigh => exact keeps (execInputHigh_stays _ s rfl)
  | inputOvervoltage => exact absurd trivial hc
  | inputLoss => exact absurd trivial hc
  | pwrInRestored => exact keeps (execPwrInRestored_stays _ s rfl)
  | converterFail => exact keeps (execConverterFail_stays _ s rfl)
  | phaseLost => exact keeps (execPhaseLost_stays _ _ s rfl)
  | reservoirEngage => exact keeps (execReservoirEngage_stays _ _ _ s rfl)
  | fastBubbleEnd => exact keeps (execFastBubbleEnd_stays _ s rfl)
  | railDip => exact keeps (execRailDip_stays _ _ _ _ s rfl)
  | dipLimitRise => exact keeps (execDipLimitRise_stays _ s rfl)
  | railReset => exact keeps (execRailReset_stays _ _ _ s rfl)
  | inputSwitchOpen => exact keeps (execInputSwitchOpen_stays _ _ _ s rfl)
  | pathAnomaly => exact keeps (execPathAnomaly_stays _ _ s rfl)
  | clearPath => exact keeps (execClearPath_stays _ s rfl)
  | isolate => exact keeps (execIsolate_stays _ s rfl)
  | restore => exact keeps (execRestore_stays _ s rfl)
  | softStart => exact keeps (execSoftStart_stays _ s rfl)
  | softStartDone => exact keeps (execSoftStartDone_stays _ s rfl)
  | softStartAbandon => exact keeps (execSoftStartAbandon_stays _ s rfl)
  | softStartRetry => exact keeps (execSoftStartRetry_stays _ s rfl)
  | telemetryTick => exact keeps (execTelemetryTick_stays _ _ s rfl)
  | pwrCap => exact keeps (execPwrCap_stays _ _ s rfl)
  | budgetAllocation => exact keeps (execBudgetAllocation_stays _ s rfl)
  | paceLock => exact keeps (execPaceLock_stays _ _ _ s rfl)
  | pacerUpdate => exact keeps (execPacerUpdate_stays _ _ _ s rfl)
  | capLimitUpdate => exact keeps (execCapLimitUpdate_stays _ s rfl)
  | clearProfiles => exact keeps (execClearProfiles_stays _ _ s rfl)
  | profileMirror => exact keeps (execProfileMirror_stays s rfl)
  | tempSample => exact keeps (execTempSample_stays _ _ s rfl)
  | thermalTurn => exact keeps (execThermalTurn_stays s rfl)
  | thmUnbank => exact keeps (execThmUnbank_stays _ s rfl)
  | thmOn => exact keeps (execThmOn_stays _ s rfl)
  | telHead => exact keeps (execTelHead_stays _ _ s rfl)
  | telCfg => exact keeps (execTelCfg_stays _ _ s rfl)
  | coldPowerOn => exact absurd trivial hc
  | ready => exact keeps (execReady_stays s rfl)
  | svBTakeover => exact keeps (execSvBTakeover_stays s rfl)
  | panelReset => exact absurd trivial hc
  | settingsCommit => exact keeps (execSettingsCommit_stays _ s rfl)
  | update => exact keeps (execUpdate_stays _ s rfl)
  | updateDone => exact absurd trivial hc
  | siteRejoin => exact keeps (execSiteRejoin_stays _ s rfl)
  | siteRejoined => exact keeps (execSiteRejoined_stays _ _ _ _ s rfl)
  | learnedAppend => exact keeps (execLearnedAppend_stays s rfl)
  | logFlush => exact keeps (execLogFlush_stays s rfl)
  | selfTestSlice => exact keeps (execSelfTestSlice_stays _ _ s rfl)
  | healthHourly => exact keeps (execHealthHourly_stays s rfl)
  | confirmingRetestDone => exact keeps (execConfirmingRetestDone_stays _ _ s rfl)
  | remap => exact keeps (execRemap_stays _ _ s rfl)
  | tileRemapStopEnd => exact keeps (execTileRemapStopEnd_stays _ s rfl)
  | retire => exact keeps (execRetire_stays _ _ s rfl)
  | keep => exact keeps (execKeep_stays _ _ s rfl)
  | hole => exact keeps (execHole_stays _ _ s rfl)
  | clear => exact keeps (execClear_stays _ _ s rfl)
  | treset => exact keeps (execTreset_stays _ _ s rfl)
  | sreset => exact keeps (execSreset_stays _ _ s rfl)
  | computeResetDone => exact keeps (execComputeResetDone_stays _ _ s rfl)
  | svHeartbeat => exact keeps (execSvHeartbeat_stays s rfl)
  | svFailover => exact keeps (execSvFailover_stays _ s rfl)
  | svStandbyLost => exact keeps (execSvStandbyLost_stays _ s rfl)
  | svLost => exact keeps (execSvLost_stays s rfl)
  | svReset => exact keeps (execSvReset_stays _ _ s rfl)
  | svRestored => exact keeps (execSvRestored_stays _ _ s rfl)
  | sweepGrant => exact keeps (execSweepGrant_stays _ _ s rfl)
  | marginSweep => exact keeps (execMarginSweep_stays _ _ s rfl)
  | marginOverdue => exact keeps (execMarginOverdue_stays _ s rfl)
  | loadClassUpdate => exact keeps (execLoadClassUpdate_stays _ _ _ s rfl)
  | cellCeilingRise => exact keeps (execCellCeilingRise_stays _ _ s rfl)
  | hltSclr => exact keeps (execHltSclr_stays _ _ s rfl)
  | hltEclr => exact keeps (execHltEclr_stays _ _ s rfl)
  | hltDbclr => exact keeps (execHltDbclr_stays _ _ s rfl)
  | hltLsel => exact keeps (execHltLsel_stays _ _ s rfl)
  | challenge => exact keeps (execChallenge_stays _ s rfl)
  | challengeExpiry => exact keeps (execChallengeExpiry_stays _ s rfl)
  | sesOpen => exact keeps (execSesOpen_stays _ s rfl)
  | lockoutExpiry => exact keeps (execLockoutExpiry_stays _ s rfl)
  | sesClose => exact keeps (execSesClose_stays _ s rfl)
  | sessionDeadline => exact keeps (execSessionDeadline_stays _ s rfl)
  | attest => exact keeps (execAttest_stays _ s rfl)
  | pubkey => exact keeps (execPubkey_stays _ s rfl)
  | armOwner => exact keeps (execArmOwner_stays _ s rfl)
  | armSvn => exact keeps (execArmSvn_stays _ s rfl)
  | commitFuse => exact keeps (execCommitFuse_stays _ s rfl)
  | meterRecord => exact keeps (execMeterRecord_stays _ s rfl)
  | mtrSeal => exact keeps (execMtrSeal_stays s rfl)
  | meterFrame => exact keeps (execMeterFrame_stays _ s rfl)
  | mtrLinkLost => exact keeps (execMtrLinkLost_stays s rfl)
  | mtrSelect => exact keeps (execMtrSelect_stays _ _ s rfl)
  | mtrRhead => exact keeps (execMtrRhead_stays _ _ s rfl)
  | mtrRcfg => exact keeps (execMtrRcfg_stays _ _ s rfl)
  | dbgRead => exact execDbgRead_staysLocked hd hs _
  | dbgWrite => exact execDbgWrite_staysLocked hd hs _
  | dbgLock => exact execDbgLock_staysLocked hd hs _ _
  | dbgTest => exact keeps (execDbgTest_stays _ _ s rfl)
  | registerWrite => exact execRegisterWrite_staysLocked hd hs _ _ _ _ _ hc
  | hostReadCompletion => exact keeps (execHostReadCompletion_stays _ _ s rfl)
  | pathBaselineFrozen => exact keeps (execPathBaselineFrozen_stays _ _ s rfl)
  | sweepWindowEnd => exact keeps (execSweepWindowEnd_stays s rfl)
  | settingsCommitDone => exact keeps (execSettingsCommitDone_stays s rfl)
  | deleteDone => exact keeps (execDeleteDone_stays _ s rfl)
  | rrestartDone => exact keeps (execRrestartDone_stays s rfl)
  | fuseArmExpiry => exact keeps (execFuseArmExpiry_stays _ s rfl)

end Registers

/-- No command but those of `mayUnlock` ends the lock: every part but the debug block is taken as one that may change. -/
theorem exec_locked {c : Instr} {s u : State} (hc : ¬ mayUnlock c) (hs : s.dbg.locked = true) (hu : exec c s = .next u) : u.dbg.locked = true :=
  letI : Blanks := ⟨[.time, .freeN, .tiles, .sites, .fab, .chans, .bev, .host, .parts, .rick, .clk, .pwr, .cap, .spi, .hlt, .ses, .mtr]⟩
  haveI : Blanked .time := ⟨by decide⟩
  haveI : Blanked .freeN := ⟨by decide⟩
  haveI : Blanked .tiles := ⟨by decide⟩
  haveI : Blanked .sites := ⟨by decide⟩
  haveI : Blanked .fab := ⟨by decide⟩
  haveI : Blanked .chans := ⟨by decide⟩
  haveI : Blanked .bev := ⟨by decide⟩
  haveI : Blanked .host := ⟨by decide⟩
  haveI : Blanked .parts := ⟨by decide⟩
  haveI : Blanked .rick := ⟨by decide⟩
  haveI : Blanked .clk := ⟨by decide⟩
  haveI : Blanked .pwr := ⟨by decide⟩
  haveI : Blanked .cap := ⟨by decide⟩
  haveI : Blanked .spi := ⟨by decide⟩
  haveI : Blanked .hlt := ⟨by decide⟩
  haveI : Blanked .ses := ⟨by decide⟩
  haveI : Blanked .mtr := ⟨by decide⟩
  (exec_staysLocked (by decide) hs c hc).holds u hu

end Sys2Proof.Machine
end

section
/-! PROOFS. The debug block's lock and its test event (R533, R534). -/

namespace Sys2Proof.Machine

open Sys2Proof.Safety (Managed)

/-- Settles O59: under a session the write raises the event, which goes straight to the ring while a service die runs, for its code is none of the log's. -/
theorem testEvent : Obligations.TestEvent := by
  unfold Obligations.TestEvent
  intro v s hm hl e
  have hraise : exec (.dbgTest 0 v) s = .next (s.raise e) := execDbgTest_of_managed hm hl v
  have hring (hsv : s.svRuns = true) : s.raise e = s.evtPut e.word0 s.time v.toNat 0 := by
    simp [State.raise, State.raiseAt, hsv, e]
  exact ⟨hraise, fun hsv => by rw [hraise, hring hsv], by norm_num [e, Ev.word0, b2n]⟩

/-- Settles O58: a locked block answers through `writeDbg_of_mem`, and by the frames of the commands only those of `mayUnlock` reach its lock. -/
theorem debugLock : Obligations.DebugLock := by
  unfold Obligations.DebugLock
  refine ⟨fun v s hm hv => ?sets, fun off v s hs hm h0 h1 h4 => ?writes, fun v s hs hm => ?commands, fun p s hs => ⟨State.bar0_dbgLo hs p, State.bar0_dbgHi hs p⟩,
    fun c s u hs hu => ?lasts⟩
  case sets =>
    have hexec : exec (.dbgLock 0 v) s = execDbgLock 0 v s := rfl
    rw [hexec, execDbgLock_of_managed hm, if_pos hv]
    exact ⟨_, rfl, rfl⟩
  case writes =>
    rw [exec_registerWrite_dbg h0 h1 h4]
    by_cases h : off ∈ dbgRegs
    · rw [writeDbg_of_mem hs h, gated0_of_managed hm, State.lockedWrite, bitsOf_low]
      split <;> rfl
    · have hcmd : off ≠ 0xF0018 := fun e => h (by simp [dbgRegs, e])
      rw [writeDbg_of_not_mem h, if_neg fun e => hcmd e.1]
      rfl
  case commands =>
    have hgate (off : Nat) (u : State) : gated0 s 0 off (ok u) = .next u := gated0_of_managed hm off (ok u)
    exact ⟨(execDbgRead_of_locked hs 0).trans (hgate _ _), (execDbgWrite_of_locked hs 0).trans (hgate _ _), (execDbgTest_of_locked hs 0 v).trans (hgate _ _),
      (execDbgLock_of_locked hs 0 v).trans (hgate _ _)⟩
  case lasts =>
    by_cases hc : mayUnlock c
    · right
      cases c with
      | coldPowerOn env => exact .inl ⟨env, rfl⟩
      | panelReset p env => exact .inr (.inl ⟨p, env, rfl⟩)
      | updateDone r => exact .inr (.inr (.inl ⟨r, rfl⟩))
      | inputLoss mv => exact .inr (.inr (.inr (.inl ⟨mv, rfl⟩)))
      | inputOvervoltage mv => exact .inr (.inr (.inr (.inr (.inl ⟨mv, rfl⟩))))
      | registerWrite p bar off w v =>
        obtain ⟨rfl, rfl, rfl | rfl⟩ := hc
        · exact .inr (.inr (.inr (.inr (.inr ⟨w, v, .inl rfl⟩))))
        · exact .inr (.inr (.inr (.inr (.inr ⟨w, v, .inr rfl⟩))))
      | _ => exact absurd hc id
    · exact .inl (exec_locked hc hs hu)

end Sys2Proof.Machine
end

section
/-! PROOFS. What is left alone: single fields and entries under the frames of `Only`, and how a composite operation gets its frame from the frames of its parts. -/

namespace Sys2Proof.Machine

open Sys2Proof.Safety (Blk outsideOf Only GoesTo)

theorem goesTo_next {u : State} {P : State → Prop} (h : P u) : GoesTo (.next u) P := ⟨u, rfl, h⟩
theorem goesTo_ok {u : State} {P : State → Prop} (h : P u) : GoesTo (ok u) P := ⟨u, rfl, h⟩
/-- A command that is known to answer one next state goes to what holds of that state. -/
theorem goesTo_of_eq {o : Out} {u : State} {P : State → Prop} (ho : o = .next u) (h : P u) : GoesTo o P := ⟨u, ho, h⟩

theorem blanked_head (b : Blk) (bs : List Blk) : Fact (b ∈ b :: bs) := ⟨List.mem_cons_self⟩
theorem blanked_tail (a b : Blk) (bs : List Blk) [h : Fact (a ∈ bs)] : Fact (a ∈ b :: bs) := ⟨List.mem_cons_of_mem b h.out⟩

section OnlyFields

variable {bs : List Blk} {s u : State}

/-- A frame of the library, with the parts of `bs` blanked, as a statement about `Only`. -/
theorem only_of_outside (h : let _ : Blanks := ⟨bs⟩; (∀ (b : Blk) (l : List Blk), Fact (b ∈ b :: l)) → (∀ (a b : Blk) (l : List Blk) [Fact (a ∈ l)], Fact (a ∈ b :: l)) →
    u.outside = s.outside) : Only bs s u := h blanked_head @blanked_tail
theorem Only.refl (s : State) : Only bs s s := rfl
theorem Only.trans {v : State} (h : Only bs s u) (h' : Only bs u v) : Only bs s v := Eq.trans h' h

theorem pending_of_only (h : Only bs s u) : u.pending = s.pending := by
  simpa [outsideOf] using congrArg State.pending h
theorem time_of_only (h : Only bs s u) (hb : Blk.time ∉ bs) : u.time = s.time := by
  simpa [outsideOf, hb] using congrArg State.time h
theorem freeN_of_only (h : Only bs s u) (hb : Blk.freeN ∉ bs) : u.freeN = s.freeN := by
  simpa [outsideOf, hb] using congrArg State.freeN h
theorem chans_of_only (h : Only bs s u) (hb : Blk.chans ∉ bs) : u.chans = s.chans := by
  simpa [outsideOf, hb] using congrArg State.chans h
theorem bev_of_only (h : Only bs s u) (hb : Blk.bev ∉ bs) : u.bev = s.bev := by
  simpa [outsideOf, hb] using congrArg State.bev h
theorem host_of_only (h : Only bs s u) (hb : Blk.host ∉ bs) : u.host = s.host := by
  simpa [outsideOf, hb] using congrArg State.host h
theorem parts_of_only (h : Only bs s u) (hb : Blk.parts ∉ bs) : u.parts = s.parts := by
  simpa [outsideOf, hb] using congrArg State.parts h
theorem rick_of_only (h : Only bs s u) (hb : Blk.rick ∉ bs) : u.rick = s.rick := by
  simpa [outsideOf, hb] using congrArg State.rick h
theorem clk_of_only (h : Only bs s u) (hb : Blk.clk ∉ bs) : u.clk = s.clk := by
  simpa [outsideOf, hb] using congrArg State.clk h
theorem pwr_of_only (h : Only bs s u) (hb : Blk.pwr ∉ bs) : u.pwr = s.pwr := by
  simpa [outsideOf, hb] using congrArg State.pwr h
theorem cap_of_only (h : Only bs s u) (hb : Blk.cap ∉ bs) : u.cap = s.cap := by
  simpa [outsideOf, hb] using congrArg State.cap h
theorem spi_of_only (h : Only bs s u) (hb : Blk.spi ∉ bs) : u.spi = s.spi := by
  simpa [outsideOf, hb] using congrArg State.spi h
theorem ses_of_only (h : Only bs s u) (hb : Blk.ses ∉ bs) : u.ses = s.ses := by
  simpa [outsideOf, hb] using congrArg State.ses h
theorem mtr_of_only (h : Only bs s u) (hb : Blk.mtr ∉ bs) : u.mtr = s.mtr := by
  simpa [outsideOf, hb] using congrArg State.mtr h
theorem dbg_of_only (h : Only bs s u) (hb : Blk.dbg ∉ bs) : u.dbg = s.dbg := by
  simpa [outsideOf, hb] using congrArg State.dbg h
theorem tile_of_only (h : Only bs s u) (hb : Blk.tiles ∉ bs) (n : Nat) : u.tile n = s.tile n := by
  rw [State.tile, State.tile, tiles_of_only h hb]
theorem site_of_only (h : Only bs s u) (hb : Blk.sites ∉ bs) (n : Nat) : u.site n = s.site n := by
  rw [State.site, State.site, sites_of_only h hb]
theorem chan_of_only (h : Only bs s u) (hb : Blk.chans ∉ bs) (n : Nat) : u.chan n = s.chan n := by
  rw [State.chan, State.chan, chans_of_only h hb]
theorem port_of_only (h : Only bs s u) (hb : Blk.host ∉ bs) (n : Nat) : u.port n = s.port n := by
  rw [State.port, State.port, host_of_only h hb]
theorem ctx_of_only (h : Only bs s u) (hb : Blk.host ∉ bs) (n : Nat) : u.ctx n = s.ctx n := by
  rw [State.ctx, State.ctx, host_of_only h hb]
theorem win_of_only (h : Only bs s u) (hb : Blk.host ∉ bs) (n : Nat) : u.win n = s.win n := by
  rw [State.win, State.win, host_of_only h hb]
theorem partn_of_only (h : Only bs s u) (hb : Blk.parts ∉ bs) (n : Nat) : u.partn n = s.partn n := by
  rw [State.partn, State.partn, parts_of_only h hb]
theorem cas_of_only (h : Only bs s u) (hb : Blk.rick ∉ bs) (n : Nat) : u.cas n = s.cas n := by
  rw [State.cas, State.cas, rick_of_only h hb]

end OnlyFields

end Sys2Proof.Machine
end

section
/-! PROOFS. What each family of commands can change (R43 to R534): the frames of the meanings, read for the parts that each statement names. -/

namespace Sys2Proof.Machine

open Sys2Proof.Safety (Blk Only Changes)

/-- A command whose meaning keeps everything outside the blanked parts `bs` changes at most those. -/
theorem changes_of_stays {bs : List Blk} {c : Instr} (h : let _ : Blanks := ⟨bs⟩; ∀ s : State, Stays s.outside (exec c s)) : Changes bs c :=
  fun s => (letI : Blanks := ⟨bs⟩; (h s).only)



/-- Settles O6: for each command by the frame of its meaning, with the parts named for it blanked. -/
theorem frameCoresAndEngine : Obligations.FrameCoresAndEngine := by
  unfold Obligations.FrameCoresAndEngine
  have := blanked_head
  have := @blanked_tail
  and_intros
  all_goals
    intros
    refine changes_of_stays ?_
    intro _ s
  exacts [
    execRvInstruction_stays _ _ _ s rfl, execEcallExit_stays _ _ s rfl, execCoreDone_stays _ _ s rfl, execXtPut_stays _ _ s rfl, execXtGet_stays _ _ s rfl,
    execXtProbe_stays _ _ s rfl, execXtEnq_stays _ _ s rfl, execXtCset_stays _ _ s rfl, execXtCadd_stays _ _ s rfl, execXtCarm_stays _ _ s rfl,
    execXtCwait_stays _ _ s rfl, execCwaitResume_stays _ _ s rfl, execXtEvt_stays _ _ s rfl, execTransferPacketIssue_stays _ s rfl, execLaunchStart_stays _ s rfl,
    execLoadTileStart_stays _ s rfl, execLoadEnd_stays _ s rfl, execLoadw_stays _ _ s rfl, execMma_stays _ _ s rfl, execStore_stays _ _ s rfl, execZero_stays _ _ s rfl,
    execNop_stays _ s rfl, execEngineRetire_stays _ _ s rfl, execEngCtrlClear_stays _ s rfl]

/-- Settles O7: for each command by the frame of its meaning, with the parts named for it blanked. -/
theorem frameFabricAndMemory : Obligations.FrameFabricAndMemory := by
  unfold Obligations.FrameFabricAndMemory
  have := blanked_head
  have := @blanked_tail
  and_intros
  all_goals
    intros
    refine changes_of_stays ?_
    intro _ s
  exacts [
    execWrite_stays _ s rfl, execWriteToOwner_stays _ s rfl, execRead_stays _ _ s rfl, execCnt_stays _ s rfl, execRdata_stays _ s rfl, execRerr_stays _ s rfl,
    execWack_stays _ s rfl, execRouterHop_stays _ _ s rfl, execRouteEntryRewrite_stays _ _ s rfl, execFlitRefused_stays _ _ s rfl, execLinkUp_stays _ s rfl,
    execSeamRetrain_stays _ _ s rfl, execTrackerTimeout_stays _ _ s rfl, execTrackerReuse_stays _ _ s rfl, execBaseDieFault_stays _ s rfl, execRepublish_stays _ s rfl,
    execRepublishDone_stays s rfl, execListAppend_stays _ s rfl, execListClose_stays _ s rfl, execListArm_stays _ s rfl, execScrubAccess_stays _ _ _ s rfl,
    execCacheRead_stays _ _ _ s rfl, execCacheFillReturn_stays _ s rfl, execCacheWrite_stays _ s rfl, execMaintInvalidateLine_stays _ s rfl,
    execMaintInvalidateRange_stays _ s rfl, execMaintInvalidateAll_stays _ s rfl, execMaintReserved_stays _ s rfl, execDdrChannelDown_stays _ s rfl,
    execPatrolRead_stays _ _ _ _ s rfl, execDdrRegionCommit_stays _ _ s rfl, execPrtBevWrite_stays _ _ _ s rfl]

/-- Settles O8: for each command by the frame of its meaning, with the parts named for it blanked. -/
theorem frameHostAndDescriptors : Obligations.FrameHostAndDescriptors := by
  unfold Obligations.FrameHostAndDescriptors
  have := blanked_head
  have := @blanked_tail
  and_intros
  all_goals
    intros
    refine changes_of_stays ?_
    intro _ s
  exacts [
    execPortDown_stays _ s rfl, execPortUp_stays _ _ s rfl, execFunctionLevelReset_stays _ s rfl, execBusMasterDisable_stays _ s rfl, execPerstRelease_stays _ _ s rfl,
    execHostCompletionTimeout_stays _ s rfl, execSqTail_stays _ _ _ s rfl, execCqHead_stays _ _ _ s rfl, execDescriptorFetch_stays _ _ s rfl,
    execNopDescriptor_stays _ s rfl, execCopy_stays _ s rfl, execLaunch_stays _ s rfl, execLoad_stays _ s rfl, execWait_stays _ s rfl, execWaitPoll_stays _ _ s rfl,
    execSignal_stays _ s rfl, execPhase_stays _ s rfl, execBarrier_stays _ s rfl, execFence_stays _ s rfl, execPredict_stays _ s rfl, execMark_stays _ s rfl,
    execReservedOpcode_stays _ s rfl, execDescriptorComplete_stays _ _ s rfl, execCtxSel_stays _ _ s rfl, execConfigure_stays _ s rfl, execRelease_stays _ s rfl,
    execRestart_stays _ _ _ s rfl, execRestartDone_stays _ s rfl, execHalt_stays _ s rfl, execContextFault_stays _ s rfl, execStepWatchdog_stays _ s rfl,
    execEdgeTrackerTimeout_stays _ _ s rfl, execEvtHead_stays _ _ s rfl, execEvtCfg_stays _ _ s rfl, execMsixUnmask_stays _ _ _ s rfl,
    execHostReadCompletion_stays _ _ s rfl]

/-- Settles O9: for each command by the frame of its meaning, with the parts named for it blanked. -/
theorem frameRickAndSessions : Obligations.FrameRickAndSessions := by
  unfold Obligations.FrameRickAndSessions
  have := blanked_head
  have := @blanked_tail
  and_intros
  all_goals
    intros
    refine changes_of_stays ?_
    intro _ s
  exacts [
    execDefine_stays _ _ s rfl, execDelete_stays _ _ s rfl, execWarmReset_stays _ _ s rfl, execWarmResetDone_stays _ _ _ s rfl, execPrtUpdate_stays _ _ s rfl,
    execCascadeCodeword_stays _ _ s rfl, execReplayTimeout_stays _ s rfl, execCascadePortDown_stays _ _ s rfl, execCascadePortUp_stays _ _ s rfl,
    execCasPcfg_stays _ _ _ s rfl, execRickAnnounce_stays _ _ _ s rfl, execPublish_stays _ s rfl, execRickRoutes_stays _ s rfl, execRrestart_stays _ _ s rfl,
    execTimebaseSync_stays _ s rfl, execMasterLost_stays s rfl, execRickBarrierArrival_stays _ _ _ s rfl, execRickBarrierRelease_stays _ _ s rfl,
    execChallenge_stays _ s rfl, execChallengeExpiry_stays _ s rfl, execSesOpen_stays _ s rfl, execLockoutExpiry_stays _ s rfl, execSesClose_stays _ s rfl,
    execSessionDeadline_stays _ s rfl, execAttest_stays _ s rfl, execPubkey_stays _ s rfl, execArmOwner_stays _ s rfl, execArmSvn_stays _ s rfl,
    execCommitFuse_stays _ s rfl, execMeterRecord_stays _ s rfl, execMtrSeal_stays s rfl, execMeterFrame_stays _ s rfl, execMtrLinkLost_stays s rfl,
    execMtrSelect_stays _ _ s rfl, execMtrRhead_stays _ _ s rfl, execMtrRcfg_stays _ _ s rfl, execDbgRead_stays _ s rfl, execDbgWrite_stays _ s rfl,
    execDbgLock_stays _ _ s rfl, execDbgTest_stays _ _ s rfl, execDeleteDone_stays _ s rfl, execRrestartDone_stays s rfl, execFuseArmExpiry_stays _ s rfl]

/-- Settles O10: for each command by the frame of its meaning, with the parts named for it blanked. -/
theorem framePowerAndHealth : Obligations.FramePowerAndHealth := by
  unfold Obligations.FramePowerAndHealth
  have := blanked_head
  have := @blanked_tail
  and_intros
  all_goals
    intros
    refine changes_of_stays ?_
    intro _ s
  exacts [
    execClkRefLoss_stays _ s rfl, execClkRefRestored_stays _ s rfl, execEdgeHoldoverExpiry_stays _ s rfl, execClkDecoupled_stays _ _ s rfl,
    execClkRecoupled_stays _ s rfl, execTimeMessage_stays _ _ s rfl, execStepChange_stays _ _ s rfl, execRailSettled_stays _ s rfl, execStepStopEnd_stays _ _ s rfl,
    execClkStepFault_stays _ s rfl, execClkCeil_stays _ _ _ s rfl, execBank_stays _ _ s rfl, execUnbank_stays _ _ s rfl, execBankReturn_stays _ s rfl,
    execInputWarn_stays _ _ s rfl, execOrderlyStop_stays _ s rfl, execInputHigh_stays _ s rfl, execInputOvervoltage_stays _ s rfl, execInputLoss_stays _ s rfl,
    execPwrInRestored_stays _ s rfl, execConverterFail_stays _ s rfl, execPhaseLost_stays _ _ s rfl, execReservoirEngage_stays _ _ _ s rfl,
    execFastBubbleEnd_stays _ s rfl, execRailDip_stays _ _ _ _ s rfl, execDipLimitRise_stays _ s rfl, execRailReset_stays _ _ _ s rfl,
    execInputSwitchOpen_stays _ _ _ s rfl, execPathAnomaly_stays _ _ s rfl, execClearPath_stays _ s rfl, execIsolate_stays _ s rfl, execRestore_stays _ s rfl,
    execSoftStart_stays _ s rfl, execSoftStartDone_stays _ s rfl, execSoftStartAbandon_stays _ s rfl, execSoftStartRetry_stays _ s rfl,
    execTelemetryTick_stays _ _ s rfl, execPwrCap_stays _ _ s rfl, execBudgetAllocation_stays _ s rfl, execPaceLock_stays _ _ _ s rfl,
    execPacerUpdate_stays _ _ _ s rfl, execCapLimitUpdate_stays _ s rfl, execClearProfiles_stays _ _ s rfl, execProfileMirror_stays s rfl,
    execTempSample_stays _ _ s rfl, execThermalTurn_stays s rfl, execThmUnbank_stays _ s rfl, execThmOn_stays _ s rfl, execTelHead_stays _ _ s rfl,
    execTelCfg_stays _ _ s rfl, execColdPowerOn_stays _ s rfl, execReady_stays s rfl, execSvBTakeover_stays s rfl, execPanelReset_stays _ _ s rfl,
    execSettingsCommit_stays _ s rfl, execUpdate_stays _ s rfl, execUpdateDone_stays _ s rfl, execSiteRejoin_stays _ s rfl, execSiteRejoined_stays _ _ _ _ s rfl,
    execLearnedAppend_stays s rfl, execLogFlush_stays s rfl, execSelfTestSlice_stays _ _ s rfl, execHealthHourly_stays s rfl, execConfirmingRetestDone_stays _ _ s rfl,
    execRemap_stays _ _ s rfl, execTileRemapStopEnd_stays _ s rfl, execRetire_stays _ _ s rfl, execKeep_stays _ _ s rfl, execHole_stays _ _ s rfl,
    execClear_stays _ _ s rfl, execTreset_stays _ _ s rfl, execSreset_stays _ _ s rfl, execComputeResetDone_stays _ _ s rfl, execSvHeartbeat_stays s rfl,
    execSvFailover_stays _ s rfl, execSvStandbyLost_stays _ s rfl, execSvLost_stays s rfl, execSvReset_stays _ _ s rfl, execSvRestored_stays _ _ s rfl,
    execSweepGrant_stays _ _ s rfl, execMarginSweep_stays _ _ s rfl, execMarginOverdue_stays _ s rfl, execLoadClassUpdate_stays _ _ _ s rfl,
    execCellCeilingRise_stays _ _ s rfl, execHltSclr_stays _ _ s rfl, execHltEclr_stays _ _ s rfl, execHltDbclr_stays _ _ s rfl, execHltLsel_stays _ _ s rfl,
    execPathBaselineFrozen_stays _ _ s rfl, execSweepWindowEnd_stays s rfl, execSettingsCommitDone_stays s rfl]

end Sys2Proof.Machine
end

section
/-! PROOFS. What no command changes: the queue, and that a fused owner key hash, the minimum SVN and a broken seal only grow (R497, R506, R511). -/

namespace Sys2Proof.Machine

open Sys2Proof.Safety (FusesKept SealKept)

/-- Every command leaves the queue alone and lets the fuses and the seal only grow: all but the five that write them keep them as they are. -/
theorem exec_grows (c : Instr) (s : State) : Grows s (exec c s) := by
  cases c with
  | rvInstruction => exact (execRvInstruction_keeps _ _ _ s rfl).grows
  | ecallExit => exact (execEcallExit_keeps _ _ s rfl).grows
  | coreDone => exact (execCoreDone_keeps _ _ s rfl).grows
  | xtPut => exact (execXtPut_keeps _ _ s rfl).grows
  | xtGet => exact (execXtGet_keeps _ _ s rfl).grows
  | xtProbe => exact (execXtProbe_keeps _ _ s rfl).grows
  | xtEnq => exact (execXtEnq_keeps _ _ s rfl).grows
  | xtCset => exact (execXtCset_keeps _ _ s rfl).grows
  | xtCadd => exact (execXtCadd_keeps _ _ s rfl).grows
  | xtCarm => exact (execXtCarm_keeps _ _ s rfl).grows
  | xtCwait => exact (execXtCwait_keeps _ _ s rfl).grows
  | cwaitResume => exact (execCwaitResume_keeps _ _ s rfl).grows
  | xtEvt => exact (execXtEvt_keeps _ _ s rfl).grows
  | transferPacketIssue => exact (execTransferPacketIssue_keeps _ s rfl).grows
  | launchStart => exact (execLaunchStart_keeps _ s rfl).grows
  | loadTileStart => exact (execLoadTileStart_keeps _ s rfl).grows
  | loadEnd => exact (execLoadEnd_keeps _ s rfl).grows
  | loadw => exact (execLoadw_keeps _ _ s rfl).grows
  | mma => exact (execMma_keeps _ _ s rfl).grows
  | store => exact (execStore_keeps _ _ s rfl).grows
  | zero => exact (execZero_keeps _ _ s rfl).grows
  | nop => exact (execNop_keeps _ s rfl).grows
  | engineRetire => exact (execEngineRetire_keeps _ _ s rfl).grows
  | engCtrlClear => exact (execEngCtrlClear_keeps _ s rfl).grows
  | write => exact (execWrite_keeps _ s rfl).grows
  | writeToOwner => exact (execWriteToOwner_keeps _ s rfl).grows
  | read => exact (execRead_keeps _ _ s rfl).grows
  | cnt => exact (execCnt_keeps _ s rfl).grows
  | rdata => exact (execRdata_keeps _ s rfl).grows
  | rerr => exact (execRerr_keeps _ s rfl).grows
  | wack => exact (execWack_keeps _ s rfl).grows
  | routerHop => exact (execRouterHop_keeps _ _ s rfl).grows
  | routeEntryRewrite => exact (execRouteEntryRewrite_keeps _ _ s rfl).grows
  | flitRefused => exact (execFlitRefused_keeps _ _ s rfl).grows
  | linkUp => exact (execLinkUp_keeps _ s rfl).grows
  | seamRetrain => exact (execSeamRetrain_keeps _ _ s rfl).grows
  | trackerTimeout => exact (execTrackerTimeout_keeps _ _ s rfl).grows
  | trackerReuse => exact (execTrackerReuse_keeps _ _ s rfl).grows
  | baseDieFault => exact (execBaseDieFault_keeps _ s rfl).grows
  | republish => exact (execRepublish_keeps _ s rfl).grows
  | republishDone => exact (execRepublishDone_keeps s rfl).grows
  | listAppend => exact (execListAppend_keeps _ s rfl).grows
  | listClose => exact (execListClose_keeps _ s rfl).grows
  | listArm => exact (execListArm_keeps _ s rfl).grows
  | scrubAccess => exact (execScrubAccess_keeps _ _ _ s rfl).grows
  | cacheRead => exact (execCacheRead_keeps _ _ _ s rfl).grows
  | cacheFillReturn => exact (execCacheFillReturn_keeps _ s rfl).grows
  | cacheWrite => exact (execCacheWrite_keeps _ s rfl).grows
  | maintInvalidateLine => exact (execMaintInvalidateLine_keeps _ s rfl).grows
  | maintInvalidateRange => exact (execMaintInvalidateRange_keeps _ s rfl).grows
  | maintInvalidateAll => exact (execMaintInvalidateAll_keeps _ s rfl).grows
  | maintReserved => exact (execMaintReserved_keeps _ s rfl).grows
  | ddrChannelDown => exact (execDdrChannelDown_keeps _ s rfl).grows
  | patrolRead => exact (execPatrolRead_keeps _ _ _ _ s rfl).grows
  | ddrRegionCommit => exact (execDdrRegionCommit_keeps _ _ s rfl).grows
  | prtBevWrite => exact (execPrtBevWrite_keeps _ _ _ s rfl).grows
  | portDown => exact (execPortDown_keeps _ s rfl).grows
  | portUp => exact (execPortUp_keeps _ _ s rfl).grows
  | functionLevelReset => exact (execFunctionLevelReset_keeps _ s rfl).grows
  | busMasterDisable => exact (execBusMasterDisable_keeps _ s rfl).grows
  | perstRelease => exact (execPerstRelease_keeps _ _ s rfl).grows
  | hostCompletionTimeout => exact (execHostCompletionTimeout_keeps _ s rfl).grows
  | sqTail => exact (execSqTail_keeps _ _ _ s rfl).grows
  | cqHead => exact (execCqHead_keeps _ _ _ s rfl).grows
  | descriptorFetch => exact (execDescriptorFetch_keeps _ _ s rfl).grows
  | nopDescriptor => exact (execNopDescriptor_keeps _ s rfl).grows
  | copy => exact (execCopy_keeps _ s rfl).grows
  | launch => exact (execLaunch_keeps _ s rfl).grows
  | load => exact (execLoad_keeps _ s rfl).grows
  | wait => exact (execWait_keeps _ s rfl).grows
  | waitPoll => exact (execWaitPoll_keeps _ _ s rfl).grows
  | signal => exact (execSignal_keeps _ s rfl).grows
  | phase => exact (execPhase_keeps _ s rfl).grows
  | barrier => exact (execBarrier_keeps _ s rfl).grows
  | fence => exact (execFence_keeps _ s rfl).grows
  | predict => exact (execPredict_keeps _ s rfl).grows
  | mark => exact (execMark_keeps _ s rfl).grows
  | reservedOpcode => exact (execReservedOpcode_keeps _ s rfl).grows
  | descriptorComplete => exact (execDescriptorComplete_keeps _ _ s rfl).grows
  | ctxSel => exact (execCtxSel_keeps _ _ s rfl).grows
  | configure => exact (execConfigure_keeps _ s rfl).grows
  | release => exact (execRelease_keeps _ s rfl).grows
  | restart => exact (execRestart_keeps _ _ _ s rfl).grows
  | restartDone => exact (execRestartDone_keeps _ s rfl).grows
  | halt => exact (execHalt_keeps _ s rfl).grows
  | contextFault => exact (execContextFault_keeps _ s rfl).grows
  | stepWatchdog => exact (execStepWatchdog_keeps _ s rfl).grows
  | edgeTrackerTimeout => exact (execEdgeTrackerTimeout_keeps _ _ s rfl).grows
  | evtHead => exact (execEvtHead_keeps _ _ s rfl).grows
  | evtCfg => exact (execEvtCfg_keeps _ _ s rfl).grows
  | msixUnmask => exact (execMsixUnmask_keeps _ _ _ s rfl).grows
  | define => exact (execDefine_keeps _ _ s rfl).grows
  | delete => exact (execDelete_keeps _ _ s rfl).grows
  | warmReset => exact (execWarmReset_keeps _ _ s rfl).grows
  | warmResetDone => exact (execWarmResetDone_keeps _ _ _ s rfl).grows
  | prtUpdate => exact (execPrtUpdate_keeps _ _ s rfl).grows
  | cascadeCodeword => exact (execCascadeCodeword_keeps _ _ s rfl).grows
  | replayTimeout => exact (execReplayTimeout_keeps _ s rfl).grows
  | cascadePortDown => exact (execCascadePortDown_keeps _ _ s rfl).grows
  | cascadePortUp => exact (execCascadePortUp_keeps _ _ s rfl).grows
  | casPcfg => exact (execCasPcfg_keeps _ _ _ s rfl).grows
  | rickAnnounce => exact (execRickAnnounce_keeps _ _ _ s rfl).grows
  | publish => exact (execPublish_keeps _ s rfl).grows
  | rickRoutes => exact (execRickRoutes_keeps _ s rfl).grows
  | rrestart => exact (execRrestart_keeps _ _ s rfl).grows
  | timebaseSync => exact (execTimebaseSync_keeps _ s rfl).grows
  | masterLost => exact (execMasterLost_keeps s rfl).grows
  | rickBarrierArrival => exact (execRickBarrierArrival_keeps _ _ _ s rfl).grows
  | rickBarrierRelease => exact (execRickBarrierRelease_keeps _ _ s rfl).grows
  | clkRefLoss => exact (execClkRefLoss_keeps _ s rfl).grows
  | clkRefRestored => exact (execClkRefRestored_keeps _ s rfl).grows
  | edgeHoldoverExpiry => exact (execEdgeHoldoverExpiry_keeps _ s rfl).grows
  | clkDecoupled => exact (execClkDecoupled_keeps _ _ s rfl).grows
  | clkRecoupled => exact (execClkRecoupled_keeps _ s rfl).grows
  | timeMessage => exact (execTimeMessage_keeps _ _ s rfl).grows
  | stepChange => exact (execStepChange_keeps _ _ s rfl).grows
  | railSettled => exact (execRailSettled_keeps _ s rfl).grows
  | stepStopEnd => exact (execStepStopEnd_keeps _ _ s rfl).grows
  | clkStepFault => exact (execClkStepFault_keeps _ s rfl).grows
  | clkCeil => exact (execClkCeil_keeps _ _ _ s rfl).grows
  | bank => exact (execBank_keeps _ _ s rfl).grows
  | unbank => exact (execUnbank_keeps _ _ s rfl).grows
  | bankReturn => exact (execBankReturn_keeps _ s rfl).grows
  | inputWarn => exact (execInputWarn_keeps _ _ s rfl).grows
  | orderlyStop => exact (execOrderlyStop_keeps _ s rfl).grows
  | inputHigh => exact (execInputHigh_keeps _ s rfl).grows
  | inputOvervoltage => exact (execInputOvervoltage_keeps _ s rfl).grows
  | inputLoss => exact (execInputLoss_keeps _ s rfl).grows
  | pwrInRestored => exact (execPwrInRestored_keeps _ s rfl).grows
  | converterFail => exact (execConverterFail_keeps _ s rfl).grows
  | phaseLost => exact (execPhaseLost_keeps _ _ s rfl).grows
  | reservoirEngage => exact (execReservoirEngage_keeps _ _ _ s rfl).grows
  | fastBubbleEnd => exact (execFastBubbleEnd_keeps _ s rfl).grows
  | railDip => exact (execRailDip_keeps _ _ _ _ s rfl).grows
  | dipLimitRise => exact (execDipLimitRise_keeps _ s rfl).grows
  | railReset => exact (execRailReset_keeps _ _ _ s rfl).grows
  | inputSwitchOpen => exact (execInputSwitchOpen_keeps _ _ _ s rfl).grows
  | pathAnomaly => exact (execPathAnomaly_keeps _ _ s rfl).grows
  | clearPath => exact (execClearPath_keeps _ s rfl).grows
  | isolate => exact (execIsolate_keeps _ s rfl).grows
  | restore => exact (execRestore_keeps _ s rfl).grows
  | softStart => exact (execSoftStart_keeps _ s rfl).grows
  | softStartDone => exact (execSoftStartDone_keeps _ s rfl).grows
  | softStartAbandon => exact (execSoftStartAbandon_keeps _ s rfl).grows
  | softStartRetry => exact (execSoftStartRetry_keeps _ s rfl).grows
  | telemetryTick => exact (execTelemetryTick_keeps _ _ s rfl).grows
  | pwrCap => exact (execPwrCap_keeps _ _ s rfl).grows
  | budgetAllocation => exact (execBudgetAllocation_keeps _ s rfl).grows
  | paceLock => exact (execPaceLock_keeps _ _ _ s rfl).grows
  | pacerUpdate => exact (execPacerUpdate_keeps _ _ _ s rfl).grows
  | capLimitUpdate => exact (execCapLimitUpdate_keeps _ s rfl).grows
  | clearProfiles => exact (execClearProfiles_keeps _ _ s rfl).grows
  | profileMirror => exact (execProfileMirror_keeps s rfl).grows
  | tempSample => exact (execTempSample_keeps _ _ s rfl).grows
  | thermalTurn => exact (execThermalTurn_keeps s rfl).grows
  | thmUnbank => exact (execThmUnbank_keeps _ s rfl).grows
  | thmOn => exact (execThmOn_keeps _ s rfl).grows
  | telHead => exact (execTelHead_keeps _ _ s rfl).grows
  | telCfg => exact (execTelCfg_keeps _ _ s rfl).grows
  | coldPowerOn => exact (execColdPowerOn_keeps _ s rfl).grows
  | ready => exact (execReady_keeps s rfl).grows
  | svBTakeover => exact (execSvBTakeover_keeps s rfl).grows
  | panelReset => exact (execPanelReset_keeps _ _ s rfl).grows
  | settingsCommit => exact (execSettingsCommit_keeps _ s rfl).grows
  | update => exact (execUpdate_keeps _ s rfl).grows
  | updateDone => exact (execUpdateDone_keeps _ s rfl).grows
  | siteRejoin => exact (execSiteRejoin_keeps _ s rfl).grows
  | siteRejoined => exact (execSiteRejoined_keeps _ _ _ _ s rfl).grows
  | learnedAppend => exact (execLearnedAppend_keeps s rfl).grows
  | logFlush => exact (execLogFlush_keeps s rfl).grows
  | selfTestSlice => exact (execSelfTestSlice_keeps _ _ s rfl).grows
  | healthHourly => exact (execHealthHourly_keeps s rfl).grows
  | confirmingRetestDone => exact (execConfirmingRetestDone_keeps _ _ s rfl).grows
  | remap => exact (execRemap_keeps _ _ s rfl).grows
  | tileRemapStopEnd => exact (execTileRemapStopEnd_keeps _ s rfl).grows
  | retire => exact (execRetire_keeps _ _ s rfl).grows
  | keep => exact (execKeep_keeps _ _ s rfl).grows
  | hole => exact (execHole_keeps _ _ s rfl).grows
  | clear => exact (execClear_keeps _ _ s rfl).grows
  | treset => exact (execTreset_keeps _ _ s rfl).grows
  | sreset => exact (execSreset_keeps _ _ s rfl).grows
  | computeResetDone => exact (execComputeResetDone_keeps _ _ s rfl).grows
  | svHeartbeat => exact (execSvHeartbeat_keeps s rfl).grows
  | svFailover => exact (execSvFailover_keeps _ s rfl).grows
  | svStandbyLost => exact (execSvStandbyLost_keeps _ s rfl).grows
  | svLost => exact (execSvLost_keeps s rfl).grows
  | svReset => exact (execSvReset_keeps _ _ s rfl).grows
  | svRestored => exact (execSvRestored_keeps _ _ s rfl).grows
  | sweepGrant => exact (execSweepGrant_keeps _ _ s rfl).grows
  | marginSweep => exact (execMarginSweep_keeps _ _ s rfl).grows
  | marginOverdue => exact (execMarginOverdue_keeps _ s rfl).grows
  | loadClassUpdate => exact (execLoadClassUpdate_keeps _ _ _ s rfl).grows
  | cellCeilingRise => exact (execCellCeilingRise_keeps _ _ s rfl).grows
  | hltSclr => exact (execHltSclr_keeps _ _ s rfl).grows
  | hltEclr => exact (execHltEclr_keeps _ _ s rfl).grows
  | hltDbclr => exact (execHltDbclr_keeps _ _ s rfl).grows
  | hltLsel => exact (execHltLsel_keeps _ _ s rfl).grows
  | challenge => exact (execChallenge_keeps _ s rfl).grows
  | challengeExpiry => exact (execChallengeExpiry_keeps _ s rfl).grows
  | sesOpen => exact (execSesOpen_keeps _ s rfl).grows
  | lockoutExpiry => exact (execLockoutExpiry_keeps _ s rfl).grows
  | sesClose => exact (execSesClose_keeps _ s rfl).grows
  | sessionDeadline => exact (execSessionDeadline_keeps _ s rfl).grows
  | attest => exact (execAttest_keeps _ s rfl).grows
  | pubkey => exact (execPubkey_keeps _ s rfl).grows
  | armOwner => exact (execArmOwner_keeps _ s rfl).grows
  | armSvn => exact (execArmSvn_keeps _ s rfl).grows
  | commitFuse => exact execCommitFuse_grows _ s
  | meterRecord => exact execMeterRecord_grows _ s
  | mtrSeal => exact execMtrSeal_grows s
  | meterFrame => exact (execMeterFrame_keeps _ s rfl).grows
  | mtrLinkLost => exact (execMtrLinkLost_keeps s rfl).grows
  | mtrSelect => exact (execMtrSelect_keeps _ _ s rfl).grows
  | mtrRhead => exact (execMtrRhead_keeps _ _ s rfl).grows
  | mtrRcfg => exact (execMtrRcfg_keeps _ _ s rfl).grows
  | dbgRead => exact (execDbgRead_keeps _ s rfl).grows
  | dbgWrite => exact (execDbgWrite_keeps _ s rfl).grows
  | dbgLock => exact (execDbgLock_keeps _ _ s rfl).grows
  | dbgTest => exact (execDbgTest_keeps _ _ s rfl).grows
  | registerWrite => exact execRegisterWrite_grows _ _ _ _ _ s
  | hostReadCompletion => exact (execHostReadCompletion_keeps _ _ s rfl).grows
  | pathBaselineFrozen => exact (execPathBaselineFrozen_keeps _ _ s rfl).grows
  | sweepWindowEnd => exact (execSweepWindowEnd_keeps s rfl).grows
  | settingsCommitDone => exact (execSettingsCommitDone_keeps s rfl).grows
  | deleteDone => exact (execDeleteDone_keeps _ s rfl).grows
  | rrestartDone => exact (execRrestartDone_keeps s rfl).grows
  | fuseArmExpiry => exact (execFuseArmExpiry_keeps _ s rfl).grows

/-- So does every step, whose queue is the old one without its front. -/
theorem step_grows (s : State) : ∀ u, step s = .next u → u.pending = s.pending.tail ∧ FusesKept s u ∧ SealKept s u := by
  intro u hu
  cases hp : s.pending with
  | nil =>
    have htick : u = s.tick := by simpa [step, hp, eq_comm] using hu
    obtain ⟨hq, hf, hm⟩ := Lasting_grows (State.tick_lasting s)
    exact ⟨by simp [htick, hq, hp], htick ▸ hf, htick ▸ hm⟩
  | cons c rest =>
    have hexec : exec c { s with pending := rest } = .next u := by simpa [step, hp] using hu
    exact (exec_grows c _).holds u hexec

/-- Settles O4, by `exec_grows` and `step_grows`. -/
theorem queueKept : Obligations.QueueKept := by
  unfold Obligations.QueueKept
  refine ⟨fun c s u hu => ?command, fun c rest s u hp hu => ?step⟩
  case command =>
    obtain ⟨hq, -⟩ := (exec_grows c s).holds u hu
    exact hq
  case step =>
    obtain ⟨hq, -⟩ := step_grows s u hu
    rw [hq, hp, List.tail_cons]

/-- A run is its first step and then the rest. -/
theorem run_succ (n : Nat) (s : State) : Host.Core.run Sys2Proof.core (n + 1) s = andThen (step s) (Host.Core.run Sys2Proof.core n) := by
  have hrun := Host.Core.run.eq_2 Sys2Proof.core s n
  have hstep : Sys2Proof.core.step s = step s := rfl
  rw [hstep] at hrun
  refine hrun.trans ?_
  cases step s <;> rfl

/-- Settles O5: over a run by induction on the number of steps. -/
theorem fusesAndSealKept : Obligations.FusesAndSealKept := by
  unfold Obligations.FusesAndSealKept
  have hstep (s u : State) (hu : step s = .next u) : FusesKept s u ∧ SealKept s u := (step_grows s u hu).2
  refine ⟨hstep, fun n => ?_⟩
  induction n with
  | zero =>
    intro s u hu
    cases hu
    exact ⟨⟨fun _ h => h, Nat.le_refl _⟩, id⟩
  | succ n ih =>
    intro s u hu
    rw [run_succ] at hu
    cases hv : step s with
    | next v =>
      rw [hv] at hu
      obtain ⟨⟨howner, hsvn⟩, hseal⟩ := hstep s v hv
      obtain ⟨⟨howner', hsvn'⟩, hseal'⟩ := ih v u hu
      exact ⟨⟨fun k hk => howner' k (howner k hk), Nat.le_trans hsvn hsvn'⟩, fun hk => hseal' (hseal hk)⟩
    | fault r => exact nomatch r
    | refused r => rw [hv] at hu; cases hu

end Sys2Proof.Machine
end

section
/-! PROOFS. Steps, the idle cycle (R360, R367) and the panel before its power comes on (R258, R437). -/

namespace Sys2Proof.Machine

open Sys2Proof.Safety (Only MemOk TileMemOk)

/-- Settles O1. -/
theorem stepRunsFront : Obligations.StepRunsFront := by
  unfold Obligations.StepRunsFront
  intro c rest s
  rfl

/-- What a cycle does beside counting its time leaves the timebase alone. -/
theorem State.tick_time (s : State) (h : s.pwr.powered = true) : s.tick.time = s.tickTime.time := by
  have honly : Only [.sites, .host, .clk, .spi, .hlt] s.tickTime s.tick := by
    rw [State.tick, if_pos h]
    exact only_of_outside (by intros; simp)
  exact time_of_only honly (by decide)

/-- The timebase gains what of the cycle no hold takes, and at most 1 ns of a slew (R360). -/
theorem State.tickTime_time (s : State) : s.time ≤ s.tickTime.time ∧ (s.rick.holdNs = 0 → s.rick.slew = 0 → s.tickTime.time = s.time + 10) := by
  refine ⟨?le, fun hhold hslew => ?free⟩
  case le =>
    simp only [State.tickTime, State.modRick_time]
    omega
  case free => simp [State.tickTime, hhold, hslew, meshNs]

/-- Settles O2. -/
theorem stepIdles : Obligations.StepIdles := by
  unfold Obligations.StepIdles
  have hoff (s : State) (h : s.pwr.powered = false) : s.tick = s := by simp [State.tick, h]
  refine ⟨fun s h => by simp [step, h], hoff, fun s => ?le, fun s hp hhold hslew => ?gains⟩
  case le =>
    cases hp : s.pwr.powered with
    | false => rw [hoff s hp]
    | true => rw [State.tick_time s hp]; exact s.tickTime_time.1
  case gains => rw [State.tick_time s hp]; exact s.tickTime_time.2 hhold hslew

/-- The tables of the reset state are empty, so that every read of them answers the empty record. -/
theorem memOk_reset : MemOk State.reset :=
  ⟨fun _ => ⟨rfl, rfl, rfl⟩, fun _ => rfl, rfl, rfl, rfl, fun _ => rfl⟩

/-- Settles O3. -/
theorem resetState : Obligations.ResetState := by
  unfold Obligations.ResetState
  exact ⟨rfl, rfl, rfl, rfl, rfl, rfl, rfl, memOk_reset, fun _ _ => rfl, fun _ _ => rfl⟩

end Sys2Proof.Machine
end

section
/-! PROOFS. Gated writes without a session (R503, R529). -/

namespace Sys2Proof.Machine

open Sys2Proof.Safety (Only)

section Denied

variable {s : State} (hr : s.reach 0 = true) (hn : s.hasSession 0 = false)
include hr hn

/-- A gated write through port 0 without a session is denied, whatever it would do. -/
theorem gated_of_denied (off : Nat) (k : Out) : gated s 0 off k = .next (s.denied 0 off) := by simp [gated, hr, hn, ok]
theorem gated0_of_denied (off : Nat) (k : Out) : gated0 s 0 off k = .next (s.denied 0 off) := by rw [gated0, if_pos rfl, gated_of_denied hr hn]
theorem prtGate_of_denied {p : Nat} (hp : p < 16) (code : Part → Nat) (k : State → Out) : prtGate s 0 p code k = .next (s.denied 0 (0x2010 + 0x40 * p)) := by
  rw [prtGate, onPart, if_pos hp, gated0_of_denied hr hn]
theorem onPart_of_denied {p : Nat} (hp : p < 16) (off : Nat) (k : Part → Out) : onPart s p (fun q => gated0 s 0 off (k q)) = .next (s.denied 0 off) := by
  rw [onPart, if_pos hp, gated0_of_denied hr hn]
/-- HLT_CMD also reports it (R491). -/
theorem hltGate_of_denied (v : Option W32) (k : State → Out) : hltGate s 0 v k = .next ((s.denied 0 0x30010).modHlt fun h => { h with err := true, ecode := 1 }) := by
  simp [hltGate, hr, hn, ok]

end Denied

theorem State.denied_only (s : State) (p o : Nat) : Only [.host, .spi, .ses] s (s.denied p o) := only_of_outside (by intros; simp)
/-- A write denied in a second in which one was denied already raises nothing. -/
theorem State.denied_of_seen {s : State} (p o : Nat) (h : s.ses.deniedSec = some s.second) :
    s.denied p o = s.modSes fun x => { x with denied := x.denied + 1, deniedSec := some s.second } := by simp [State.denied, h]
/-- The first denied write of a second raises SES_DENIED. -/
theorem State.denied_of_first {s : State} (p o : Nat) (h : s.ses.deniedSec ≠ some s.second) :
    s.denied p o = (s.modSes fun x => { x with denied := x.denied + 1, deniedSec := some s.second }).raisePanel 0x0604 p o := by simp [State.denied, h]
@[simp] theorem State.raisePanel_bellMarks (s : State) (code d0 d1 : Nat) : (s.raisePanel code d0 d1).bellMarks = s.bellMarks := s.raise_bellMarks _
theorem State.denied_bellMarks (s : State) (p o : Nat) :
    (s.denied p o).bellMarks = (s.modSes fun x => { x with denied := x.denied + 1, deniedSec := some s.second }).bellMarks := by
  by_cases h : s.ses.deniedSec = some s.second
  · rw [State.denied_of_seen p o h]
  · rw [State.denied_of_first p o h, State.raisePanel_bellMarks]

/-- Settles O60: every command of the first list comes to `gated` or `gated0` at the offset of its register, those of HLT_CMD to `hltGate`. -/
theorem gatedWritesNeedSession : Obligations.GatedWritesNeedSession := by
  unfold Obligations.GatedWritesNeedSession
  refine ⟨fun s v k hr hn hk => ?gated, fun s v hr hn => ?hlt, fun p o s => ⟨?count, fun q => ?bells, s.denied_only p o⟩, fun p o s h => ?quiet,
    fun p o s h => State.denied_of_first p o h⟩
  case gated =>
    have h0 : ∀ off k, gated0 s 0 off k = .next (s.denied 0 off) := gated0_of_denied hr hn
    have h1 : ∀ off k, gated s 0 off k = .next (s.denied 0 off) := gated_of_denied hr hn
    have hp : ∀ code f, prtGate s 0 k code f = .next (s.denied 0 (0x2010 + 0x40 * k)) := prtGate_of_denied hr hn (by omega)
    have hpart : ∀ (off : Nat) (f : Part → Out), onPart s k (fun q => gated0 s 0 off (f q)) = .next (s.denied 0 off) := onPart_of_denied hr hn (by omega)
    have hbev : ¬ 8 ≤ k := by omega
    have hcas : k < 32 := by omega
    simp only [List.forall_mem_cons]
    exact ⟨⟨_, (h0 _ _ : execPwrCap 0 v s = _)⟩,
      ⟨_, (hpart _ _ : execPaceLock 0 k v s = _)⟩,
      ⟨_, (hpart _ _ : execClearProfiles 0 k s = _)⟩,
      ⟨_, (hpart _ _ : execClkCeil 0 k v s = _)⟩,
      ⟨_, (h0 _ _ : execBank 0 v s = _)⟩,
      ⟨_, (h0 _ _ : execUnbank 0 v s = _)⟩,
      ⟨_, (h0 _ _ : execClearPath 0 s = _)⟩,
      ⟨_, (h0 _ _ : execIsolate 0 s = _)⟩,
      ⟨_, (h0 _ _ : execRestore 0 s = _)⟩,
      ⟨_, (h0 _ _ : execTelCfg 0 v s = _)⟩,
      ⟨_, (h0 _ _ : execEvtCfg 0 v s = _)⟩,
      ⟨_, (hp _ _ : execDefine 0 k s = _)⟩,
      ⟨_, (hp _ _ : execDelete 0 k s = _)⟩,
      ⟨_, (hp _ _ : execWarmReset 0 k s = _)⟩,
      ⟨_, (hp _ _ : execPrtUpdate 0 k s = _)⟩,
      ⟨_, (hpart _ _ : execDdrRegionCommit 0 k s = _)⟩,
      ⟨_, ((if_neg hbev).trans (h0 _ _) : execPrtBevWrite 0 k v s = _)⟩,
      ⟨_, ((if_pos hcas).trans (h0 _ _) : execCasPcfg 0 k v s = _)⟩,
      ⟨_, (h0 _ _ : execPublish 0 s = _)⟩,
      ⟨_, (h0 _ _ : execRrestart 0 v s = _)⟩,
      ⟨_, (h0 _ _ : execMtrRcfg 0 v s = _)⟩,
      ⟨_, (h0 _ _ : execSweepGrant 0 v s = _)⟩,
      ⟨_, (h0 _ _ : execDbgRead 0 s = _)⟩,
      ⟨_, (h0 _ _ : execDbgWrite 0 s = _)⟩,
      ⟨_, (h0 _ _ : execDbgLock 0 v s = _)⟩,
      ⟨_, (h0 _ _ : execDbgTest 0 v s = _)⟩,
      ⟨_, (h1 _ _ : execCtxSel 0 v s = _)⟩,
      ⟨_, (h1 _ _ : execConfigure 0 s = _)⟩,
      ⟨_, (h1 _ _ : execRelease 0 s = _)⟩,
      ⟨_, (h1 _ _ : execHalt 0 s = _)⟩, List.forall_mem_nil _⟩
  case hlt =>
    have hg : ∀ v k, hltGate s 0 v k = .next ((s.denied 0 0x30010).modHlt fun h => { h with err := true, ecode := 1 }) := hltGate_of_denied hr hn
    simp only [List.forall_mem_cons]
    exact ⟨(hg _ _ : execRemap 0 v s = _), (hg _ _ : execRetire 0 v s = _), (hg _ _ : execKeep 0 v s = _), (hg _ _ : execHole 0 v s = _),
      (hg _ _ : execClear 0 v s = _), (hg _ _ : execTreset 0 v s = _), (hg _ _ : execSreset 0 v s = _), (hg _ _ : execRepublish 0 s = _), List.forall_mem_nil _⟩
  case count => exact State.ses_of_bellMarks (s.denied_bellMarks p o)
  case bells => exact State.dbdrop_of_bellMarks (s.denied_bellMarks p o) q
  case quiet =>
    rw [State.denied_of_seen p o h]
    exact ⟨rfl, rfl⟩

end Sys2Proof.Machine
end

section
/-! PROOFS. What the shared operations leave alone, field by field: events reach the ring and the log, and the operations on a site their own site. -/

namespace Sys2Proof.Machine

open Sys2Proof.Safety (Blk Only)

section Raise

variable (s : State) (e : Ev)

theorem State.raise_only : Only [.host, .spi] s (s.raise e) := only_of_outside (by intros; simp)
@[simp] theorem State.raise_time : (s.raise e).time = s.time := time_of_only (s.raise_only e) (by decide)
@[simp] theorem State.raise_freeN : (s.raise e).freeN = s.freeN := freeN_of_only (s.raise_only e) (by decide)
@[simp] theorem State.raise_tiles : (s.raise e).tiles = s.tiles := tiles_of_only (s.raise_only e) (by decide)
@[simp] theorem State.raise_sites : (s.raise e).sites = s.sites := sites_of_only (s.raise_only e) (by decide)
@[simp] theorem State.raise_fab : (s.raise e).fab = s.fab := fab_of_only (s.raise_only e) (by decide)
@[simp] theorem State.raise_parts : (s.raise e).parts = s.parts := parts_of_only (s.raise_only e) (by decide)
@[simp] theorem State.raise_rick : (s.raise e).rick = s.rick := rick_of_only (s.raise_only e) (by decide)
@[simp] theorem State.raise_clk : (s.raise e).clk = s.clk := clk_of_only (s.raise_only e) (by decide)
@[simp] theorem State.raise_pwr : (s.raise e).pwr = s.pwr := pwr_of_only (s.raise_only e) (by decide)
@[simp] theorem State.raise_cap : (s.raise e).cap = s.cap := cap_of_only (s.raise_only e) (by decide)
@[simp] theorem State.raise_hlt : (s.raise e).hlt = s.hlt := hlt_of_only (s.raise_only e) (by decide)
@[simp] theorem State.raise_ses : (s.raise e).ses = s.ses := ses_of_only (s.raise_only e) (by decide)
@[simp] theorem State.raise_mtr : (s.raise e).mtr = s.mtr := mtr_of_only (s.raise_only e) (by decide)
@[simp] theorem State.raise_dbg : (s.raise e).dbg = s.dbg := dbg_of_only (s.raise_only e) (by decide)
@[simp] theorem State.raise_pending : (s.raise e).pending = s.pending := pending_of_only (s.raise_only e)
@[simp] theorem State.raise_tile (n : Nat) : (s.raise e).tile n = s.tile n := tile_of_only (s.raise_only e) (by decide) n
@[simp] theorem State.raise_site (n : Nat) : (s.raise e).site n = s.site n := site_of_only (s.raise_only e) (by decide) n
@[simp] theorem State.raise_chan (n : Nat) : (s.raise e).chan n = s.chan n := chan_of_only (s.raise_only e) (by decide) n
@[simp] theorem State.raise_partn (n : Nat) : (s.raise e).partn n = s.partn n := partn_of_only (s.raise_only e) (by decide) n
@[simp] theorem State.raise_cas (n : Nat) : (s.raise e).cas n = s.cas n := cas_of_only (s.raise_only e) (by decide) n
@[simp] theorem State.raise_ctx (c : Nat) : (s.raise e).ctx c = s.ctx c := (State.besideEvents_ctx c).raise s e
@[simp] theorem State.raise_svRuns : (s.raise e).svRuns = s.svRuns := by simp [State.svRuns]

end Raise

end Sys2Proof.Machine
end

section
/-! PROOFS. Sites that lose power, and the events of the 48 V input (R384, R398, R399, R408). -/

namespace Sys2Proof.Machine

open Sys2Proof.Safety (Blk Only GoesTo)

/-! ### The serial memory's part of an event -/

/-- Of the serial memory an event reaches only the buffered log (R457). -/
theorem State.raise_spi (s : State) (e : Ev) : ∃ b n, (s.raise e).spi = { s.spi with logBuf := b, logLost := n } := by
  have hput (u : State) (w0 w1 w2 w3 : Nat) : (u.evtPut w0 w1 w2 w3).spi = u.spi :=
    spi_of_only (bs := [.host]) (only_of_outside (by intros; simp)) (by decide)
  have hlog : ∃ b n, (s.logPut e.word0 s.time e.d0 e.d1).spi = { s.spi with logBuf := b, logLost := n } := by
    simp only [State.logPut, State.modSpi_spi]
    split
    · exact ⟨_, _, rfl⟩
    · exact ⟨_, _, rfl⟩
  simp only [State.raise, State.raiseAt]
  split
  · split
    · exact ⟨_, _, hput ..⟩
    · exact ⟨_, _, rfl⟩
  · split
    · rw [hput]; exact hlog
    · exact ⟨_, _, hput ..⟩
/-- What an event leaves alone of the serial memory: every field that does not depend on the buffered log. -/
theorem State.raise_spi_field {α : Type} (π : Spi → α) (hπ : ∀ x b n, π { x with logBuf := b, logLost := n } = π x) (s : State) (e : Ev) :
    π (s.raise e).spi = π s.spi := by
  obtain ⟨b, n, h⟩ := s.raise_spi e
  rw [h, hπ]

theorem Spi.logWrite_foldl_field {α : Type} (π : Spi → α) (hπ : ∀ x l p c, π { x with log := l, logPos := p, logCnt := c } = π x) (rs : List LogRec) (x : Spi) :
    π (rs.foldl Spi.logWrite x) = π x := by
  induction rs generalizing x with
  | nil => rfl
  | cons r rs ih => rw [List.foldl_cons, ih, Spi.logWrite, hπ]

@[simp] theorem Spi.modHalf_cmdSt (x : Spi) (b : Bool) (f : LrHalf → LrHalf) : (x.modHalf b f).cmdSt = x.cmdSt := by cases b <;> rfl
@[simp] theorem Spi.modHalf_committing (x : Spi) (b : Bool) (f : LrHalf → LrHalf) : (x.modHalf b f).committing = x.committing := by cases b <;> rfl

/-- SPI_CMD's state and a running commit: what neither the log nor the learned records reach. -/
def Spi.command (x : Spi) : Nat × Option (List Byte) := (x.cmdSt, x.committing)

theorem Spi.compactStep_command (x : Spi) : x.compactStep.command = x.command := by
  unfold Spi.compactStep
  dsimp only
  split
  · simp [Spi.command]
  · split
    · simp [Spi.command]
    · split <;> simp [Spi.command]
theorem State.flushLog_command (s : State) : s.flushLog.spi.command = s.spi.command := by
  unfold State.flushLog
  split
  · rfl
  · exact Spi.logWrite_foldl_field Spi.command (fun _ _ _ _ => rfl) _ _
theorem State.writeLearned_command (s : State) : s.writeLearned.spi.command = s.spi.command := by
  unfold State.writeLearned
  split
  · rfl
  · refine (Spi.compactStep_command _).trans ?_
    dsimp only
    split <;> split <;> simp [Spi.command]
theorem State.promise_spi_field {α : Type} (π : Spi → α) (hπ : ∀ x b n, π { x with logBuf := b, logLost := n } = π x) (s : State) : π s.promise.spi = π s.spi := by
  unfold State.promise
  dsimp only
  split
  · rfl
  · split
    · exact State.raise_spi_field π hπ _ _
    · split
      · exact State.raise_spi_field π hπ _ _
      · rfl

/-! ### A site that goes OFF -/

/-- A site OFF, its rails at 0 and what ran there gone (R399). -/
def Site.turnedOff (x : Site) : Site :=
  { x with st := if x.st = .dark then .dark else .off, resetting := false, heldRow := none, clk := { x.clk.abandon with cur := 0, bankHeat := false, bankSweep := false },
           pwr := { x.pwr with sw := if x.pwr.sw = .isolated then .isolated else .off, soft := .none, vc := 0, vs := 0, settled := true } }

/-- What a site loses of its tiles before its own record changes. -/
def State.tilesOff (s : State) (p : Nat) : State :=
  (s.tilesOf p).foldl (fun s t => s.modTile t Tile.powerOff) ((s.tilesOf p).foldl State.loadsLost ((s.tilesOf p).foldl State.noteLost s))
theorem State.siteOff_eq (s : State) (p : Nat) : s.siteOff p = (s.tilesOff p).modSite p Site.turnedOff := rfl
theorem State.tilesOff_only (s : State) (p : Nat) : Only [.tiles, .host] s (s.tilesOff p) := only_of_outside (by intros; simp [State.tilesOff])
@[simp] theorem State.siteOff_site (s : State) (p q : Nat) : (s.siteOff p).site q = if q = p then (s.site p).turnedOff else s.site q := by
  rw [State.siteOff_eq, State.modSite_site]
  simp only [site_of_only (s.tilesOff_only p) (by decide)]

/-! ### The input -/

/-- Each site of a list that is not DARK is turned off, and any other stays. -/
theorem State.allOff_site (l : List Nat) (s : State) (p : Nat) (hp : p ∈ l ∨ (s.site p).st = .off) (h : (s.site p).st ≠ .dark) :
    ((l.foldl (fun s p => if (s.site p).st = .dark then s else s.siteOff p) s).site p).st = .off := by
  induction l generalizing s with
  | nil => exact hp.resolve_left List.not_mem_nil
  | cons q l ih =>
    rw [List.foldl_cons]
    by_cases hq : (s.site q).st = .dark
    · rw [if_pos hq]
      refine ih s (hp.imp_left fun hm => ?_) h
      rcases List.mem_cons.1 hm with rfl | hm
      · exact absurd hq h
      · exact hm
    · rw [if_neg hq]
      by_cases hpq : p = q
      · subst hpq
        exact ih _ (.inr (by simp [Site.turnedOff, hq])) (by simp [Site.turnedOff, hq])
      · have hsite : (s.siteOff q).site p = s.site p := by rw [State.siteOff_site, if_neg hpq]
        refine ih _ ?_ (hsite ▸ h)
        rw [hsite]
        exact hp.imp_left fun hm => (List.mem_cons.1 hm).resolve_left hpq

theorem mem_rangeFrom {a n k : Nat} : k ∈ rangeFrom a n ↔ a ≤ k ∧ k < a + n := by
  induction n generalizing a with
  | zero => simp [rangeFrom]
  | succ n ih => simp [rangeFrom, ih]; omega

theorem State.stopAll_site (s : State) (mv p : Nat) (hp : p < 272) (h : (s.site p).st ≠ .dark) : ((s.stopAll mv).site p).st = .off :=
  State.allOff_site _ _ p (.inl (mem_rangeFrom.2 (by omega))) (by simpa [State.raisePanel, State.inputAt] using h)
theorem State.stopAll_pwr (s : State) (mv : Nat) : (s.stopAll mv).pwr.stopped = true := by
  have honly : Only [.tiles, .sites, .host, .spi] ((s.inputAt mv).modPwr fun w => { w with stopped := true }) (s.stopAll mv) :=
    only_of_outside (by intros; simp [State.stopAll])
  rw [pwr_of_only honly (by decide)]
  rfl

theorem State.foldl_dipReduce_pwr (l : List Nat) (s : State) : (l.foldl State.dipReduce s).pwr = s.pwr :=
  pwr_of_only (bs := [.sites, .host, .clk, .spi]) (only_of_outside (by intros; simp)) (by decide)

/-- The end of an orderly stop: the buffered log and the learned records go to the serial memory while a service die runs (R399). -/
theorem exec_orderlyStop {s : State} {mv : Nat} (hp : s.pwr.powered = true) (hs : s.pwr.stopped = false) (hmv : mv < 36000) :
    let v := (s.stopAll mv).modSpi fun p => { p with cmdSt := 0, committing := none }
    exec (.orderlyStop mv) s = .next (if v.svRuns then v.flushLog.writeLearned.promise else v.promise) := by
  have hexec : exec (.orderlyStop mv) s = execOrderlyStop mv s := rfl
  rw [hexec]
  simp only [execOrderlyStop, when_, hp, hs, hmv, decide_true, Bool.not_false, Bool.and_self, if_true]
  split <;> rfl

/-- Settles O41. -/
theorem inputCompletes : Obligations.InputCompletes := by
  unfold Obligations.InputCompletes
  refine ⟨fun mv us_ s hp hmv => ?warn, fun mv s hp hs hmv => ?stop, fun mv s hp hmv => ?high, fun mv s hp hmv => ?overvoltage, fun mv s hp hmv => ?loss, fun mv s hp hw hmv => ?restored⟩
  case warn =>
    have hexec : exec (.inputWarn mv us_) s = execInputWarn mv us_ s := rfl
    rw [hexec]
    rw [execInputWarn, when_, if_pos (by simp [hp, hmv])]
    extract_lets s1 times due three s2 s3
    have hs3 : s3.pwr.warned = true ∧ s3.pwr.warn = true ∧ s3.pwr.vmin = min s.pwr.vmin mv ∧ s3.pwr.vin = s.pwr.vin ∧ s3.pwr.powered = true := by
      simp only [s3]
      split <;> simp [State.raisePanel, State.inputAt, s2, s1, hp, hmv]
    split
    · exact goesTo_ok (by rw [State.foldl_dipReduce_pwr]; exact hs3)
    · exact goesTo_ok hs3
  case stop =>
    refine goesTo_of_eq (exec_orderlyStop hp hs hmv) ?_
    generalize hv : (s.stopAll mv).modSpi (fun p => { p with cmdSt := 0, committing := none }) = v
    have hpwr : v.pwr.stopped = true := by rw [← hv, State.modSpi_pwr, s.stopAll_pwr mv]
    have hsite (p : Nat) (hp : p < 272) (hd : (s.site p).st ≠ .dark) : (v.site p).st = .off := by rw [← hv, State.modSpi_site, s.stopAll_site mv p hp hd]
    have hcmd : v.spi.command = (0, none) := by rw [← hv]; rfl
    have hend (u : State) (ho : Only [.host, .spi, .hlt] v u) (hc : u.spi.command = v.spi.command) : u.pwr.stopped = true ∧
        (∀ p, p < 272 → (s.site p).st ≠ .dark → (u.site p).st = .off) ∧ u.spi.cmdSt = 0 ∧ u.spi.committing = none := by
      rw [hcmd] at hc
      refine ⟨by rw [pwr_of_only ho (by decide), hpwr], fun p hp hd => by rw [site_of_only ho (by decide), hsite p hp hd], congrArg Prod.fst hc, congrArg Prod.snd hc⟩
    split
    · have ho : Only [.host, .spi, .hlt] v v.flushLog.writeLearned.promise := only_of_outside (by intros; simp)
      refine hend _ ho ?_
      rw [State.promise_spi_field Spi.command fun _ _ _ => rfl, State.writeLearned_command, State.flushLog_command]
    · have ho : Only [.host, .spi, .hlt] v v.promise := only_of_outside (by intros; simp)
      exact hend _ ho (State.promise_spi_field Spi.command (fun _ _ _ => rfl) v)
  case high =>
    have hexec : exec (.inputHigh mv) s = execInputHigh mv s := rfl
    rw [hexec]
    simp [execInputHigh, when_, hp, hmv, ok]
  case overvoltage =>
    have hexec : exec (.inputOvervoltage mv) s = execInputOvervoltage mv s := rfl
    rw [hexec]
    simp only [execInputOvervoltage, when_, hp, hmv, decide_true, Bool.and_self, if_true]
    exact goesTo_ok ⟨rfl, rfl, rfl, rfl, rfl, rfl, rfl, rfl, rfl, rfl, rfl⟩
  case loss =>
    have hexec : exec (.inputLoss mv) s = execInputLoss mv s := rfl
    rw [hexec]
    simp only [execInputLoss, when_, hp, hmv, decide_true, Bool.and_self, if_true]
    exact goesTo_ok ⟨rfl, rfl, rfl, rfl, rfl, rfl, rfl⟩
  case restored =>
    have hexec : exec (.pwrInRestored mv) s = execPwrInRestored mv s := rfl
    rw [hexec]
    simp [execPwrInRestored, when_, hp, hw, hmv, ok]

end Sys2Proof.Machine
end

section
/-! PROOFS. The oscillator mesh around a site that leaves it or joins it (R366, R375, R378): what it changes of each site. -/

namespace Sys2Proof.Machine

open Sys2Proof.Safety (Blk Only GoesTo)

/-- A site without what the mesh may change of it: its node's coupling and hold, a step change or a return that banking ends, its state and its rails. -/
def Site.besideNode (x : Site) : Site :=
  { x with st := .off, clk := { x.clk with present := 0, coupled := 0, freeRun := false, hold := false, lossHold := false, ph := .none, returning := false },
           pwr := { x.pwr with vc := 0, vs := 0, settled := true, settleAt := 0 } }

/-- The second site is the first after changes of the mesh: beside its node it is the same, its state changes only where it banks, and so do its rails. -/
structure NodeEdit (x y : Site) : Prop where
  beside : y.besideNode = x.besideNode
  st : y.st = x.st ∨ (x.st = .active ∧ y.st = .banked ∧ x.clk.wantsBank = true)
  pwr : y.pwr = x.pwr ∨ (x.clk.wantsBank = true ∧ (x.st = .active ∨ x.st = .banked))

namespace NodeEdit

variable {x y z : Site}

theorem refl (x : Site) : NodeEdit x x := ⟨rfl, .inl rfl, .inl rfl⟩
theorem of_clk {k : SiteClk} (h : ({ x with clk := k } : Site).besideNode = x.besideNode) : NodeEdit x { x with clk := k } := ⟨h, .inl rfl, .inl rfl⟩
theorem wantsBank (h : NodeEdit x y) : y.clk.wantsBank = x.clk.wantsBank := by
  have hclk : y.besideNode.clk.wantsBank = x.besideNode.clk.wantsBank := by rw [h.beside]
  exact hclk
theorem trans (h : NodeEdit x y) (h' : NodeEdit y z) : NodeEdit x z := by
  have hw := h.wantsBank
  obtain ⟨hb, hs, hp⟩ := h
  obtain ⟨hb', hs', hp'⟩ := h'
  refine ⟨hb'.trans hb, ?_, ?_⟩
  · rcases hs with hs | ⟨ha, hs, hwx⟩
    · rcases hs' with hs' | ⟨ha', hs', hwy⟩
      · exact .inl (hs'.trans hs)
      · exact .inr ⟨hs ▸ ha', hs', hw ▸ hwy⟩
    · rcases hs' with hs' | ⟨ha', -, -⟩
      · exact .inr ⟨ha, hs'.trans hs, hwx⟩
      · rw [hs] at ha'; cases ha'
  · rcases hp' with hp' | ⟨hwy, hst⟩
    · rcases hp with hp | hp
      · exact .inl (hp'.trans hp)
      · exact .inr hp
    · refine .inr ⟨hw ▸ hwy, ?_⟩
      rcases hs with hs | ⟨ha, -, -⟩
      · exact hs ▸ hst
      · exact .inl ha
theorem field {α : Type} (π : Site → α) (hπ : ∀ x, π x.besideNode = π x) (h : NodeEdit x y) : π y = π x := by rw [← hπ y, h.beside, hπ]
/-- Where nothing asks to bank the site its state stays. -/
theorem st_of_not_wantsBank (h : NodeEdit x y) (hw : x.clk.wantsBank = false) : y.st = x.st := by
  rcases h.st with hs | ⟨-, -, hw'⟩
  · exact hs
  · rw [hw] at hw'; cases hw'
theorem st_of_not_active (h : NodeEdit x y) (hx : x.st ≠ .active) : y.st = x.st := by
  rcases h.st with hs | ⟨ha, -, -⟩
  · exact hs
  · exact absurd ha hx
theorem pwr_of_st (h : NodeEdit x y) (hx : x.st ≠ .active) (hx' : x.st ≠ .banked) : y.pwr = x.pwr := by
  rcases h.pwr with hp | ⟨-, ha | hb⟩
  · exact hp
  · exact absurd ha hx
  · exact absurd hb hx'

end NodeEdit

/-! ### Banking -/

/-- The rails of a site at new setpoints from a moment on (R388). -/
def Site.withRails (x : Site) (now vc vs : Nat) : Site :=
  let far (a b : Nat) : Nat := a - b + (b - a)
  let d := max (far vc x.pwr.vc) (far vs x.pwr.vs)
  if d = 0 then x else { x with pwr := { x.pwr with vc, vs, settled := false, settleAt := max x.pwr.settleAt (now + d * 100 + 2 * us) } }
@[simp] theorem State.setRails_site (s : State) (p q vc vs : Nat) : (s.setRails p vc vs).site q = if q = p then (s.site p).withRails s.time vc vs else s.site q :=
  State.modSite_site ..
@[simp] theorem Site.withRails_st (x : Site) (now vc vs : Nat) : (x.withRails now vc vs).st = x.st := by unfold Site.withRails; dsimp only; split <;> rfl
@[simp] theorem Site.withRails_clk (x : Site) (now vc vs : Nat) : (x.withRails now vc vs).clk = x.clk := by unfold Site.withRails; dsimp only; split <;> rfl
@[simp] theorem Site.withRails_mrg (x : Site) (now vc vs : Nat) : (x.withRails now vc vs).mrg = x.mrg := by unfold Site.withRails; dsimp only; split <;> rfl
@[simp] theorem Site.withRails_thm (x : Site) (now vc vs : Nat) : (x.withRails now vc vs).thm = x.thm := by unfold Site.withRails; dsimp only; split <;> rfl
/-- The rails have the setpoints asked for. -/
theorem Site.withRails_rails (x : Site) (now vc vs : Nat) : (x.withRails now vc vs).pwr.vc = vc ∧ (x.withRails now vc vs).pwr.vs = vs := by
  unfold Site.withRails
  dsimp only
  split
  · next h => constructor <;> omega
  · exact ⟨rfl, rfl⟩
/-- Beside the rails nothing changes. -/
theorem Site.withRails_pwr {α : Type} (π : SitePwr → α) (hπ : ∀ w vc vs b t, π { w with vc := vc, vs := vs, settled := b, settleAt := t } = π w) (x : Site) (now vc vs : Nat) :
    π (x.withRails now vc vs).pwr = π x.pwr := by
  unfold Site.withRails
  dsimp only
  split
  · rfl
  · exact hπ ..
theorem Site.withRails_besideNode (x : Site) (now vc vs : Nat) : (x.withRails now vc vs).besideNode = x.besideNode := by
  unfold Site.withRails
  dsimp only
  split <;> rfl

theorem State.bankNow_site_other (s : State) {p q : Nat} (h : q ≠ p) : (s.bankNow p).site q = s.site q := by
  unfold State.bankNow
  dsimp only
  (repeat' split) <;> simp [h]
theorem State.bankNow_of_not_wantsBank {s : State} {p : Nat} (h : (s.site p).clk.wantsBank = false) : s.bankNow p = s := by simp [State.bankNow, h]
theorem State.bankNow_edit (s : State) (p : Nat) : NodeEdit (s.site p) ((s.bankNow p).site p) := by
  unfold State.bankNow
  dsimp only
  split
  · exact .refl _
  · next hw =>
    have hw : (s.site p).clk.wantsBank = true := by simpa using hw
    split
    · next h =>
      obtain ⟨hb, -⟩ := h
      refine ⟨?_, .inl (by simp), .inr ⟨hw, .inr hb⟩⟩
      simp only [State.setRails_site, State.modSite_site, if_true]
      exact Site.withRails_besideNode ..
    · split
      · next h =>
        obtain ⟨ha, -⟩ := h
        refine ⟨?_, .inr ⟨ha, by simp, hw⟩, .inr ⟨hw, .inl ha⟩⟩
        simp only [State.setRails_site, State.modSite_site, if_true]
        exact Site.withRails_besideNode ..
      · exact .refl _
theorem State.bankNow_site_edit (s : State) (p q : Nat) : NodeEdit (s.site q) ((s.bankNow p).site q) := by
  by_cases h : q = p
  · subst h; exact s.bankNow_edit q
  · rw [State.bankNow_site_other s h]; exact .refl _

/-! ### Nodes that are dropped -/

/-- An edit of one site's node is one of every site. -/
theorem NodeEdit.modSite {s : State} {q : Nat} {f : Site → Site} (h : NodeEdit (s.site q) (f (s.site q))) (r : Nat) : NodeEdit (s.site r) ((s.modSite q f).site r) := by
  rw [State.modSite_site]
  split
  · next e => rw [e]; exact h
  · exact .refl _
theorem Site.alone_edit (x : Site) (p : Nat) : NodeEdit x (x.alone p) := by
  unfold Site.alone
  split
  · exact .of_clk rfl
  · exact .refl _

/-- Dropping the neighbours of a node, and theirs, edits nodes and nothing else. -/
theorem State.dropNode_edit (n p : Nat) (s : State) (r : Nat) : NodeEdit (s.site r) ((State.dropNode n p s).site r) := by
  induction n generalizing p s with
  | zero => exact .refl _
  | succ n ih =>
    unfold State.dropNode
    refine List.foldlRecOn (motive := fun u : State => NodeEdit (s.site r) (u.site r)) allFaces _ (.refl _) fun u hu f _ => ?_
    split
    · exact hu
    · next q _ =>
      refine hu.trans ?_
      have hdrop (v : State) : NodeEdit (v.site r) ((v.modSite q fun x => ({ x with clk := { x.clk with coupled := x.clk.coupled &&& ~~~faceBit (faceOpp f) } } : Site).alone q).site r) := by
        refine .modSite ?_ r
        refine .trans ?_ (Site.alone_edit _ q)
        exact ⟨rfl, .inl rfl, .inl rfl⟩
      dsimp only
      split
      · refine (hdrop u).trans (.trans ?_ (ih ..))
        rw [State.raiseSite_site]
        exact State.bankNow_site_edit ..
      · exact hdrop u

/-! ### Nodes whose neighbour comes or goes -/

/-- Neighbours see a node come or go in their PRESENT bits alone. -/
theorem State.nodeSeen_edit (s : State) (p : Nat) (up : Bool) (r : Nat) : NodeEdit (s.site r) ((s.nodeSeen p up).site r) := by
  unfold State.nodeSeen
  refine List.foldlRecOn (motive := fun u : State => NodeEdit (s.site r) (u.site r)) allFaces _ (.refl _) fun u hu f _ => ?_
  split
  · exact hu
  · refine hu.trans (.trans (.modSite ?_ r) (.modSite ?_ r)) <;> exact ⟨rfl, .inl rfl, .inl rfl⟩
/-- They keep everything but the node's PRESENT bits. -/
theorem State.nodeSeen_pwr (s : State) (p : Nat) (up : Bool) (r : Nat) : ((s.nodeSeen p up).site r).pwr = (s.site r).pwr ∧ ((s.nodeSeen p up).site r).st = (s.site r).st := by
  unfold State.nodeSeen
  refine List.foldlRecOn (motive := fun u : State => (u.site r).pwr = (s.site r).pwr ∧ (u.site r).st = (s.site r).st) allFaces _ ⟨rfl, rfl⟩ fun u hu f _ => ?_
  split
  · exact hu
  · simp only [State.modSite_site]
    split <;> split <;> simp_all

/-- A node that leaves the mesh edits those of other sites only. -/
theorem State.nodeLeave_edit (s : State) (p : Nat) (powered : Bool) {q : Nat} (h : q ≠ p) : NodeEdit (s.site q) ((s.nodeLeave p powered).site q) := by
  unfold State.nodeLeave
  dsimp only
  have hmid : NodeEdit (s.site q) (((s.nodeDropped p).modSite p fun x => { x.unheld with clk := { x.clk.unhold with coupled := 0, decoupled := true, freeRun := false } }).site q) := by
    rw [State.modSite_site, if_neg h]
    exact State.dropNode_edit ..
  split
  · exact hmid
  · exact hmid.trans (State.nodeSeen_edit ..)
/-- A DARK site that leaves it keeps its state and its power. -/
theorem State.nodeLeave_dark {s : State} {p : Nat} (powered : Bool) (h : (s.site p).st = .dark) :
    ((s.nodeLeave p powered).site p).st = .dark ∧ ((s.nodeLeave p powered).site p).pwr = (s.site p).pwr := by
  have hdrop := State.dropNode_edit 272 p s p
  have hst : ((s.nodeDropped p).site p).st = .dark := by rw [State.nodeDropped, hdrop.st_of_not_active (by simp [h]), h]
  have hpwr : ((s.nodeDropped p).site p).pwr = (s.site p).pwr := hdrop.pwr_of_st (by simp [h]) (by simp [h])
  unfold State.nodeLeave
  dsimp only
  split
  · simp [Site.unheld, hst, hpwr]
  · obtain ⟨hseen, hseen'⟩ := State.nodeSeen_pwr ((s.nodeDropped p).modSite p fun x => { x.unheld with clk := { x.clk.unhold with coupled := 0, decoupled := true, freeRun := false } }) p false p
    rw [hseen, hseen']
    simp [Site.unheld, hst, hpwr]

/-! ### Sites that go DARK -/

/-- A site without power: everything that stood in it is gone, and its converters are off (R398, R239). -/
def Site.darkened (x : Site) : Site :=
  { x.turnedOff with st := .dark, cache := {}, cnt := {}, routeGen := 0, badRoutes := [], scrubEn := true,
                     pwr := { x.turnedOff.pwr with vb := 0, vc := 0, vs := 0, rejoining := false, rejoinDue := false, telDips := 0, telDepth := 0, telNs := 0 } }

/-- The state in which a site that goes DARK leaves the mesh. -/
def State.unpowered (s : State) (p : Nat) : State :=
  ((s.siteOff p).modFab fun f => { f with flights := f.flights.filter fun x =>
    match x.place with
    | .router q _ _ => q != p
    | .dest q => q != p
    | .parked q => q != p
    | .edge _ => true }).modSite p fun x =>
    { x with st := .dark, cache := {}, cnt := {}, routeGen := 0, badRoutes := [], scrubEn := true,
             pwr := { x.pwr with vb := 0, vc := 0, vs := 0, rejoining := false, rejoinDue := false, telDips := 0, telDepth := 0, telNs := 0 } }
theorem State.siteDark_eq (s : State) (p : Nat) : s.siteDark p = (s.unpowered p).nodeLeave p false := rfl
theorem State.unpowered_site (s : State) (p q : Nat) : (s.unpowered p).site q = if q = p then (s.site p).darkened else s.site q := by
  by_cases h : q = p
  · subst h; simp [State.unpowered, Site.darkened]
  · simp [State.unpowered, h]
theorem State.siteDark_site (s : State) (p : Nat) : ((s.siteDark p).site p).st = .dark ∧ ((s.siteDark p).site p).pwr = (s.site p).darkened.pwr := by
  have hsite : (s.unpowered p).site p = (s.site p).darkened := by rw [State.unpowered_site, if_pos rfl]
  obtain ⟨hst, hpwr⟩ := State.nodeLeave_dark (s := s.unpowered p) (p := p) false (by rw [hsite]; rfl)
  rw [State.siteDark_eq, hst, hpwr, hsite]
  exact ⟨rfl, rfl⟩
theorem State.siteDark_edit (s : State) {p q : Nat} (h : q ≠ p) : NodeEdit (s.site q) ((s.siteDark p).site q) := by
  have hsite : (s.unpowered p).site q = s.site q := by rw [State.unpowered_site, if_neg h]
  have hedit := State.nodeLeave_edit (s.unpowered p) p false h
  rwa [hsite] at hedit

@[simp] theorem State.settle_site (s : State) (k n q : Nat) : (s.settle k n).site q = s.site q := rfl
@[simp] theorem State.unsettle_site (s : State) (k n q : Nat) : (s.unsettle k n).site q = s.site q := by unfold State.unsettle; split <;> rfl
/-- A site that goes DARK is DARK, keeps which of its phases failed, and whether it is isolated. -/
theorem State.darken_self (s : State) (p : Nat) : ((s.darken p).site p).st = .dark ∧ ((s.darken p).site p).pwr.phFail = (s.site p).pwr.phFail ∧
    ((s.site p).pwr.sw = .isolated → ((s.darken p).site p).pwr.sw = .isolated) := by
  unfold State.darken
  split
  · next h => simp +contextual [h]
  · obtain ⟨hst, hpwr⟩ := s.siteDark_site p
    rw [State.raiseSite_site, State.settle_site, hst, hpwr]
    simp +contextual [Site.darkened, Site.turnedOff]
theorem State.darken_edit (s : State) {p q : Nat} (h : q ≠ p) : NodeEdit (s.site q) ((s.darken p).site q) := by
  unfold State.darken
  split
  · rw [State.modSite_site, if_neg h]; exact .refl _
  · rw [State.raiseSite_site, State.settle_site]; exact s.siteDark_edit h
/-- Once DARK a site stays so whatever other sites go DARK. -/
theorem State.darken_stays_dark (s : State) (p : Nat) {q : Nat} (h : (s.site q).st = .dark) : ((s.darken p).site q).st = .dark := by
  by_cases hq : q = p
  · rw [hq]; obtain ⟨hst, -⟩ := s.darken_self p; exact hst
  · rw [(s.darken_edit hq).st_of_not_active (by simp [h]), h]
theorem State.darkenAll_dark (l : List Nat) (s : State) {p : Nat} (h : p ∈ l ∨ (s.site p).st = .dark) : ((l.foldl State.darken s).site p).st = .dark := by
  induction l generalizing s with
  | nil => exact h.resolve_left List.not_mem_nil
  | cons q l ih =>
    refine ih _ ?_
    rcases h with h | h
    · rcases List.mem_cons.1 h with rfl | h
      · obtain ⟨hst, -⟩ := s.darken_self p
        exact .inr hst
      · exact .inl h
    · exact .inr (s.darken_stays_dark q h)
theorem State.isolate_self (s : State) (p c : Nat) : ((s.isolate p c).site p).st = .dark ∧ ((s.isolate p c).site p).pwr.phFail = (s.site p).pwr.phFail ∧
    ((s.isolate p c).site p).pwr.sw = .isolated := by
  unfold State.isolate
  dsimp only
  obtain ⟨hst, hph, hsw⟩ := State.darken_self ((s.modSite p fun x => { x with pwr := { x.pwr with sw := .isolated, isoCause := c, rejoining := false, rejoinDue := false } }).raiseSite
    0x0414 p (siteWord p) c) p
  refine ⟨hst, hph.trans ?_, hsw ?_⟩
  · simp
  · simp

end Sys2Proof.Machine
end

section
/-! PROOFS. Converters, phases, reservoirs, rails and power paths (R386 to R407; O42, O43). -/

namespace Sys2Proof.Machine

open Sys2Proof.Safety (Blk Only GoesTo Managed Served)

/-! ### What leaves sites alone -/

@[simp] theorem State.promise_site (s : State) (p : Nat) : s.promise.site p = s.site p :=
  site_of_only (bs := [.host, .spi, .hlt]) (only_of_outside (by intros; simp)) (by decide) p
@[simp] theorem State.promise_tiles (s : State) : s.promise.tiles = s.tiles :=
  tiles_of_only (bs := [.host, .spi, .hlt]) (only_of_outside (by intros; simp)) (by decide)
@[simp] theorem State.promise_pwr (s : State) : s.promise.pwr = s.pwr :=
  pwr_of_only (bs := [.host, .spi, .hlt]) (only_of_outside (by intros; simp)) (by decide)
@[simp] theorem State.addDefect_site (s : State) (w : W64) (b : Bool) (p : Nat) : (s.addDefect w b).site p = s.site p :=
  site_of_only (bs := [.spi, .hlt]) (only_of_outside (by intros; simp)) (by decide) p
@[simp] theorem State.modConv_site (s : State) (g p : Nat) (f : Conv → Conv) : (s.modConv g f).site p = s.site p := rfl

/-! ### Step limits of a site -/

/-- Taking the step limits of a site anew changes its limits and what they say of it (R383). -/
theorem State.relimit_self (s : State) (p : Nat) : ∃ v a b, (s.relimit p).site p = { s.site p with clk := { (s.site p).clk with lims := v, limAt := a, limitBy := b } } :=
  ⟨_, _, _, by unfold State.relimit; rw [State.modSite_site, if_pos rfl]; rfl⟩
theorem State.relimit_site_other (s : State) {p q : Nat} (h : q ≠ p) : (s.relimit p).site q = s.site q := by
  unfold State.relimit
  rw [State.modSite_site, if_neg h]
  rfl
theorem State.relimit_field {α : Type} (π : Site → α) (hπ : ∀ x v a b, π { x with clk := { x.clk with lims := v, limAt := a, limitBy := b } } = π x) (s : State) (p q : Nat) :
    π ((s.relimit p).site q) = π (s.site q) := by
  by_cases h : q = p
  · subst h
    obtain ⟨v, a, b, hsite⟩ := s.relimit_self q
    rw [hsite, hπ]
  · rw [s.relimit_site_other h]
/-- A dip that lowers a site's limit leaves other sites alone, and of the site its state and what it keeps of its dips. -/
theorem State.dipReduce_site_other (s : State) {p q : Nat} (h : q ≠ p) : (s.dipReduce p).site q = s.site q := by
  unfold State.dipReduce
  dsimp only
  rw [State.relimit_site_other _ h, State.raiseSite_site, State.modSite_site, if_neg h]
theorem State.dipReduce_field {α : Type} (π : Site → α) (hl : ∀ x v a b, π { x with clk := { x.clk with lims := v, limAt := a, limitBy := b } } = π x)
    (hd : ∀ x l t, π { x with clk := { x.clk with dipLim := l }, pwr := { x.pwr with lastReduce := t }, ctl := { x.ctl with msDr := true } } = π x) (s : State) (p q : Nat) :
    π ((s.dipReduce p).site q) = π (s.site q) := by
  unfold State.dipReduce
  dsimp only
  rw [State.relimit_field π hl, State.raiseSite_site, State.modSite_site]
  split
  · next h => rw [h]; exact hd ..
  · rfl

/-! ### Ramps held by a dip -/

/-- A site without what a dip adds to the hold of its ramp (R405). -/
def Site.besideHold (x : Site) : Site := { x with pwr := { x.pwr with held := 0, holdEnd := 0 } }
theorem State.rampHold_only (s : State) (p ns : Nat) : Only [.sites] s (s.rampHold p ns) := only_of_outside (by intros; simp)
/-- Only ramps of the group are held. -/
theorem State.rampHold_site_other (s : State) (p ns q : Nat) (h : (s.site q).pwr.soft ≠ .ramping ∨ q ∉ groupSites (groupOf p)) : (s.rampHold p ns).site q = s.site q := by
  unfold State.rampHold
  refine List.foldlRecOn (motive := fun u : State => u.site q = s.site q) (groupSites (groupOf p)) _ rfl fun u hu r hr => ?_
  dsimp only
  split
  · next hsoft =>
    rw [State.modSite_site, if_neg, hu]
    rintro rfl
    rcases h with h | h
    · rw [hu] at hsoft; exact h hsoft
    · exact h hr
  · exact hu
theorem State.rampHold_besideHold (s : State) (p ns q : Nat) : ((s.rampHold p ns).site q).besideHold = (s.site q).besideHold := by
  unfold State.rampHold
  refine List.foldlRecOn (motive := fun u : State => (u.site q).besideHold = (s.site q).besideHold) (groupSites (groupOf p)) _ rfl fun u hu r _ => ?_
  dsimp only
  split
  · rw [State.modSite_site]
    split
    · next e => rw [← hu, e]; rfl
    · exact hu
  · exact hu
theorem State.rampHold_field {α : Type} (π : Site → α) (hπ : ∀ x, π x.besideHold = π x) (s : State) (p ns q : Nat) : π ((s.rampHold p ns).site q) = π (s.site q) := by
  rw [← hπ, s.rampHold_besideHold, hπ]

/-! ### Converters -/

theorem State.darkenAll_only (l : List Nat) (s : State) : Only [.tiles, .sites, .fab, .host, .spi, .hlt] s (l.foldl State.darken s) := only_of_outside (by intros; simp)
theorem pairGroup_ne (g : Nat) : (g + 17) % 34 ≠ g := by omega
theorem State.modConv_convs (s : State) (g h : Nat) (f : Conv → Conv) : tget {} (s.modConv g f).pwr.convs h = if h = g then f (tget {} s.pwr.convs g) else tget {} s.pwr.convs h := by
  simp only [State.modConv, State.modPwr_pwr, tget_tmod]

/-- Settles O42. -/
theorem railsComplete : Obligations.RailsComplete := by
  unfold Obligations.RailsComplete
  refine ⟨fun g s hg hp hc h1 h2 => ?partner, fun g s hg hp hc h1 h2 => ?both, fun p ph s hp hph hd hf => ?phase, fun p low s hp hd ho => ?engageVc, fun p low s hp hd ho => ?engageVs,
    fun p s hp hb => ?bubble, fun p r depth ns s hp hd hdepth hr => ?dip, fun p t s hp ht hl hdue hsv => ?rise, fun p depth s hp hd => ?vb, fun p depth s hp hd ho => ?vc, fun p depth s hp hd ho => ?vs⟩
  case partner =>
    have hexec : exec (.converterFail g) s = execConverterFail g s := rfl
    rw [hexec, execConverterFail]
    extract_lets sBoth s1 s2
    rw [when_, if_pos (by simp [hg, hp, hc, h1]), if_neg h2]
    have hne := pairGroup_ne g
    have hs2 : s2.pwr = s1.pwr ∧ s2.tiles = s.tiles :=
      List.foldlRecOn (motive := fun u : State => u.pwr = s1.pwr ∧ u.tiles = s.tiles) _ _ ⟨rfl, rfl⟩ fun u hu q _ => by simpa using hu
    obtain ⟨hpwr, htiles⟩ := hs2
    have hconvs : ∀ h, tget {} s1.pwr.convs h = if h = (g + 17) % 34 then _ else if h = g then _ else tget {} s.pwr.convs h := fun h => by
      rw [State.modConv_convs, State.modConv_convs, State.modConv_convs]
    refine goesTo_ok ⟨?_, ?_, fun h h1 h2 => ?_, ?_⟩
    · simp [State.raisePanel, hpwr, hconvs, hne.symm]
    · simp [State.raisePanel, hpwr, hconvs]
    · simp [State.raisePanel, hpwr, hconvs, h1, h2]
    · simp [State.raisePanel, htiles]
  case both =>
    have hexec : exec (.converterFail g) s = execConverterFail g s := rfl
    rw [hexec, execConverterFail, when_, if_pos (by simp [hg, hp, hc, h1])]
    dsimp only
    rw [if_pos h2]
    refine goesTo_ok ⟨?_, fun p hp => ?_⟩
    · have ho := State.darkenAll_only (groupSites g ++ groupSites ((g + 17) % 34)) ((s.modConv g fun c => { c with st := 1 }).raisePanel 0x0413 g ((g + 17) % 34))
      rw [State.promise_pwr, pwr_of_only ho (by decide), State.raisePanel, State.raise_pwr, State.modConv_convs, if_pos rfl]
    · rw [State.promise_site, State.darkenAll_dark _ _ (.inl (List.mem_append.2 hp))]
  case phase =>
    have hexec : exec (.phaseLost p ph) s = execPhaseLost p ph s := rfl
    rw [hexec, execPhaseLost, onSite, if_pos hp, when_, if_pos (by rw [hf]; simp [hph, hd])]
    extract_lets r rails rails' fails s1 s2
    have hs2 : s2.site p = { s.site p with pwr := { (s.site p).pwr with phFail := fails, phRail := rails' } } := by simp [s2, s1]
    have hiso := s2.isolate_self p 3
    obtain ⟨hst, hph, hsw⟩ := hiso
    split
    · next h =>
      obtain ⟨hmany, -⟩ := h
      refine goesTo_ok ?_
      rw [State.promise_site, State.addDefect_site, hph, hst, hsw, hs2]
      exact ⟨rfl, fun hlt => absurd hmany (Nat.not_le.2 hlt), fun _ _ => ⟨rfl, rfl⟩⟩
    · next h =>
      refine goesTo_ok ?_
      rw [hs2]
      exact ⟨rfl, fun _ => ⟨rfl, by simp [s2, s1, State.raiseSite]⟩, fun hmany hsv => absurd ⟨hmany, by simpa [s2, s1, State.raiseSite, State.svRuns] using hsv⟩ h⟩
  case engageVc =>
    have hexec : exec (.reservoirEngage p .vc low) s = execReservoirEngage p .vc low s := rfl
    rw [hexec, execReservoirEngage, onSite, if_pos hp, when_, if_pos (by simp [hd, ho])]
    exact goesTo_ok ⟨by rw [State.modSite_site, if_pos rfl]; rfl, fun q hq => by rw [State.modSite_site, if_neg hq]; rfl, only_of_outside (by intros; simp)⟩
  case engageVs =>
    have hexec : exec (.reservoirEngage p .vs low) s = execReservoirEngage p .vs low s := rfl
    rw [hexec, execReservoirEngage, onSite, if_pos hp, when_, if_pos (by simp [hd, ho])]
    exact goesTo_ok ⟨by rw [State.modSite_site, if_pos rfl]; rfl, fun q hq => by rw [State.modSite_site, if_neg hq]; rfl, only_of_outside (by intros; simp)⟩
  case bubble =>
    have hexec : exec (.fastBubbleEnd p) s = execFastBubbleEnd p s := rfl
    rw [hexec, execFastBubbleEnd, onSite, if_pos hp, when_, if_pos hb]
    exact goesTo_ok ⟨by simp, fun q hq => by simp [hq], only_of_outside (by intros; simp)⟩
  case dip =>
    have hexec : exec (.railDip p r depth ns) s = execRailDip p r depth ns s := rfl
    have hcond : (r == .vb || (s.site p).st != .off) = true := by rcases hr with h | h <;> simp [h]
    rw [hexec, execRailDip, onSite, if_pos hp, when_, if_pos (by simp [hd, hdepth, hcond])]
    extract_lets s1 times three first deeper s2 s3
    have hs2 (q : Nat) : s3.site q = s2.site q := by simp only [s3]; split <;> simp
    have htiles : s3.tiles = s.tiles := by
      have ho : Only [.sites, .host, .spi] s s3 := only_of_outside (by intros; simp [s3, s2, s1])
      exact tiles_of_only ho (by decide)
    have hdips : (s3.site p).pwr.telDips = (s.site p).pwr.telDips + 1 := by
      rw [hs2, State.modSite_site, if_pos rfl, ← State.rampHold_field (fun x => x.pwr.telDips) (fun _ => rfl) s p ns p]
    have hdepth' : (s3.site p).pwr.telDepth = max (s.site p).pwr.telDepth depth := by
      rw [hs2, State.modSite_site, if_pos rfl, ← State.rampHold_field (fun x => x.pwr.telDepth) (fun _ => rfl) s p ns p]
    have hst : (s3.site p).st = (s.site p).st := by
      rw [hs2, State.modSite_site, if_pos rfl, ← State.rampHold_field (fun x => x.st) (fun _ => rfl) s p ns p]
    have hlast : (s3.site p).pwr.lastDip = some s.time := by
      rw [hs2, State.modSite_site, if_pos rfl, ← time_of_only (s.rampHold_only p ns) (by decide)]
    have hother (q : Nat) (hq : q ≠ p) (h : (s.site q).pwr.soft ≠ .ramping ∨ q ∉ groupSites (groupOf p)) : s3.site q = s.site q := by
      rw [hs2, State.modSite_site, if_neg hq, State.rampHold_site_other s p ns q h]
    generalize s3 = v at *
    split
    · have hfield {α : Type} (π : SitePwr × SiteSt → α) (hπ : ∀ w k t, π ({ w with lastReduce := t }, k) = π (w, k)) : _ :=
        State.dipReduce_field (fun x => π (x.pwr, x.st)) (fun _ _ _ _ => rfl) (fun x _ _ => hπ x.pwr x.st _) v p p
      refine goesTo_ok ⟨?_, ?_, ?_, ?_, fun q hq h => ?_, ?_⟩
      · exact (hfield (fun x => x.1.lastDip) fun _ _ _ => rfl).trans hlast
      · exact (hfield (fun x => x.1.telDips) fun _ _ _ => rfl).trans hdips
      · exact (hfield (fun x => x.1.telDepth) fun _ _ _ => rfl).trans hdepth'
      · exact (hfield (fun x => x.2) fun _ _ _ => rfl).trans hst
      · rw [State.dipReduce_site_other v hq, hother q hq h]
      · have ho : Only [.sites, .host, .spi, .clk] v (v.dipReduce p) := only_of_outside (by intros; simp)
        rw [tiles_of_only ho (by decide), htiles]
    · exact goesTo_ok ⟨hlast, hdips, hdepth', hst, hother, htiles⟩
  case rise =>
    have hexec : exec (.dipLimitRise p) s = execDipLimitRise p s := rfl
    rw [hexec, execDipLimitRise, onSite, if_pos hp, ht]
    dsimp only
    rw [when_, if_pos (by simp [hl, hdue, hsv])]
    refine goesTo_ok ⟨?_, fun q hq => ?_, only_of_outside (by intros; simp)⟩
    · rw [State.relimit_field (fun x => x.clk.dipLim) (fun _ _ _ _ => rfl)]
      simp
    · rw [State.relimit_site_other _ hq, State.modSite_site, if_neg hq]
  case vb =>
    have hexec : exec (.railReset p .vb depth) s = execRailReset p .vb depth s := rfl
    rw [hexec, execRailReset, onSite, if_pos hp, when_, if_pos (by simp [hd])]
    extract_lets s1
    obtain ⟨hst, -⟩ := s1.darken_self p
    exact goesTo_ok (by simp [hst])
  case vc =>
    have hexec : exec (.railReset p .vc depth) s = execRailReset p .vc depth s := rfl
    rw [hexec, execRailReset, onSite, if_pos hp, when_, if_pos (by simp [hd, ho])]
    extract_lets s1
    exact goesTo_ok (by simp [State.siteReset])
  case vs =>
    have hexec : exec (.railReset p .vs depth) s = execRailReset p .vs depth s := rfl
    rw [hexec, execRailReset, onSite, if_pos hp, when_, if_pos (by simp [hd, ho])]
    extract_lets s1
    have hs1 : (s1.site p).st = (s.site p).st := by
      rw [State.raiseSite_site]
      exact State.rampHold_field (fun x => x.st) (fun _ => rfl) ..
    exact goesTo_ok (by simp [State.askSoft, Site.turnedOff, hs1, hd])

/-! ### PWR_SITECMD -/

/-- The site that PWR_SITESEL of port 0 names (R407). -/
def State.selectedSite (s : State) : Nat := bitsOf (s.port 0).sitesel 8 4 * 16 + bitsOf (s.port 0).sitesel 3 0

section

variable {s : State} {code : Site → Nat} {k : State → Nat → Out}

theorem siteCmd_of_served (h : Served s) (hp : s.selectedSite < 272) : siteCmd s 0 code k =
    let v := s.modPwr fun w => { w with cmdErr := code (s.site s.selectedSite) != 0, cmdCode := code (s.site s.selectedSite) }
    if code (s.site s.selectedSite) = 0 then k v s.selectedSite else ok v := by
  obtain ⟨hm, hsv⟩ := h
  unfold State.selectedSite at *
  simp only [siteCmd, gated0_of_managed hm, when_, hsv, if_true, hp]
theorem siteCmd_taken (h : Served s) (hp : s.selectedSite < 272) (hc : code (s.site s.selectedSite) = 0) :
    siteCmd s 0 code k = k (s.modPwr fun w => { w with cmdErr := false, cmdCode := 0 }) s.selectedSite := by simp [siteCmd_of_served h hp, hc]
/-- A command that does not apply sets ERR with its code and nothing else. -/
theorem siteCmd_refused {e : Nat} (h : Served s) (hp : s.selectedSite < 272) (hc : code (s.site s.selectedSite) = e) (he : e ≠ 0) :
    GoesTo (siteCmd s 0 code k) fun u => u.pwr = { s.pwr with cmdErr := true, cmdCode := e } ∧ Only [.pwr] s u := by
  rw [siteCmd_of_served h hp, hc]
  dsimp only
  rw [if_neg he]
  exact goesTo_ok ⟨by simp [he], only_of_outside (by intros; simp)⟩

end

/-- A site that may return from BANKED gets its rails back and its state only later (R389). -/
theorem State.unbankNow_field {α : Type} (π : Site → α) (hr : ∀ x now vc vs, π (x.withRails now vc vs) = π x)
    (hk : ∀ x k, π { x with clk := { x.clk with returning := true, req := k } } = π x) (s : State) (p : Nat) : π ((s.unbankNow p).site p) = π (s.site p) := by
  unfold State.unbankNow
  dsimp only
  split
  · rfl
  · split
    · rw [State.setRails_site, if_pos rfl, hr]
    · split
      · rfl
      · rw [State.setRails_site, if_pos rfl, hr, State.modSite_site, if_pos rfl, hk]
theorem State.unbankNow_site_other (s : State) {p q : Nat} (h : q ≠ p) : (s.unbankNow p).site q = s.site q := by
  unfold State.unbankNow
  dsimp only
  (repeat' split) <;> simp [h]

theorem State.unbankNow_only (s : State) (p : Nat) : Only [.sites] s (s.unbankNow p) := only_of_outside (by intros; simp)

/-- Settles O43. -/
theorem pathsComplete : Obligations.PathsComplete := by
  unfold Obligations.PathsComplete
  extract_lets sel
  have hsel : sel = State.selectedSite := rfl
  clear_value sel
  subst hsel
  refine ⟨fun p c r s hp hsw hc hcause => ?switch, fun p r s hp hr hd hsv => ?anomaly, fun s h hp hd => ?clear, fun s h hp hd => ?clearDark, fun s h hp hsw => ?isolate,
    fun s h hp hsw => ?isolated, fun s h hp hsw hph => ?restore, fun s h hp hsw hph => ?restoreLost, fun p b s hp hr ht hd hsv => ?frozen⟩
  case switch =>
    have hexec : exec (.inputSwitchOpen p c r) s = execInputSwitchOpen p c r s := rfl
    have hcond : (c == 1 || c == 2) = true := by rcases hcause with rfl | rfl <;> rfl
    rw [hexec, execInputSwitchOpen, onSite, if_pos hp, when_, if_pos (by simp [hsw, hc, hcond])]
    obtain ⟨hst, -, hiso⟩ := s.isolate_self p (if c = 2 then 2 + railCode r * 256 else 1)
    exact goesTo_ok (by simp [hst, hiso])
  case anomaly =>
    have hexec : exec (.pathAnomaly p r) s = execPathAnomaly p r s := rfl
    rw [hexec, execPathAnomaly, onSite, if_pos hp, when_, if_pos (by simp [hr, hd, hsv])]
    extract_lets s1 s2
    have hlim : (s2.site p).pwr.pathLim = true ∧ (s2.site p).pwr.pathRatio = r ∧ (s2.site p).clk = (s.site p).clk := by
      simp only [s2]
      split
      · next hl => simp [s1, hl]
      · simp [s1]
    have hother (q : Nat) (hq : q ≠ p) : s2.site q = s.site q := by
      simp only [s2]
      split <;> simp [s1, hq]
    have htiles : s2.tiles = s.tiles := by
      have ho : Only [.sites, .host, .spi] s s2 := only_of_outside (by intros; simp [s2, s1])
      exact tiles_of_only ho (by decide)
    obtain ⟨hlim, hratio, hclk⟩ := hlim
    split
    · have hedit := State.bankNow_edit (s2.modSite p fun x => { x with clk := { x.clk with bankPath := true } }) p
      rw [State.modSite_site, if_pos rfl] at hedit
      refine goesTo_ok ⟨?_, ?_, fun _ => ?_, fun q hq => ?_, ?_⟩
      · rw [State.raiseSite_site]; exact (hedit.field (fun x => x.pwr.pathLim) fun _ => rfl).trans hlim
      · rw [State.raiseSite_site]; exact (hedit.field (fun x => x.pwr.pathRatio) fun _ => rfl).trans hratio
      · rw [State.raiseSite_site]; exact hedit.field (fun x => x.clk.bankPath) fun _ => rfl
      · rw [State.raiseSite_site, State.bankNow_site_other _ hq, State.modSite_site, if_neg hq, hother q hq]
      · simp only [State.raiseSite, State.raise_tiles]
        have ho : Only [.sites] s2 ((s2.modSite p fun x => { x with clk := { x.clk with bankPath := true } }).bankNow p) := only_of_outside (by intros; simp)
        rw [tiles_of_only ho (by decide), htiles]
    · next h =>
      refine goesTo_ok ⟨hlim, hratio, fun hmore => ?_, hother, htiles⟩
      rw [hclk]
      simpa using fun hb => h ⟨hmore, hb⟩
  case clear =>
    have hexec : exec (.clearPath 0) s = execClearPath 0 s := rfl
    rw [hexec, execClearPath, siteCmd_taken h hp (if_neg hd)]
    have hfield {α : Type} (π : Site → α) (hr : ∀ x now vc vs, π (x.withRails now vc vs) = π x) (hk : ∀ x k, π { x with clk := { x.clk with returning := true, req := k } } = π x)
        (v : State) : π ((v.unbankNow s.selectedSite).site s.selectedSite) = π (v.site s.selectedSite) := State.unbankNow_field π hr hk v _
    refine goesTo_ok ⟨?_, ?_, ?_, ?_, ?_, fun q hq => ?_⟩
    · exact (hfield (fun x => x.pwr.pathLim) (Site.withRails_pwr (fun w => w.pathLim) fun _ _ _ _ _ => rfl) (fun _ _ => rfl) _).trans (by simp)
    · exact (hfield (fun x => x.pwr.pathBase) (Site.withRails_pwr (fun w => w.pathBase) fun _ _ _ _ _ => rfl) (fun _ _ => rfl) _).trans (by simp)
    · exact (hfield (fun x => x.pwr.refining) (Site.withRails_pwr (fun w => w.refining) fun _ _ _ _ _ => rfl) (fun _ _ => rfl) _).trans (by simp)
    · exact (hfield (fun x => x.clk.bankPath) (by simp) (fun _ _ => rfl) _).trans (by simp)
    · rw [pwr_of_only (State.unbankNow_only _ _) (by decide)]
      rfl
    · rw [State.unbankNow_site_other _ hq, State.modSite_site, if_neg hq]
      rfl
  case clearDark =>
    have hexec : exec (.clearPath 0) s = execClearPath 0 s := rfl
    rw [hexec, execClearPath]
    exact siteCmd_refused h hp (if_pos hd) (by decide)
  case isolate =>
    have hexec : exec (.isolate 0) s = execIsolate 0 s := rfl
    rw [hexec, execIsolate, siteCmd_taken h hp (if_neg hsw)]
    obtain ⟨hst, -, -⟩ := (s.modPwr fun w => { w with cmdErr := false, cmdCode := 0 }).isolate_self s.selectedSite 4
    refine goesTo_ok ⟨by rw [State.promise_site]; exact hst, ?_⟩
    have ho : Only [.tiles, .sites, .fab, .host, .spi, .hlt] (s.modPwr fun w => { w with cmdErr := false, cmdCode := 0 })
        ((s.modPwr fun w => { w with cmdErr := false, cmdCode := 0 }).isolate s.selectedSite 4) := only_of_outside (by intros; simp)
    rw [State.promise_pwr, pwr_of_only ho (by decide), State.modPwr_pwr]
  case isolated =>
    have hexec : exec (.isolate 0) s = execIsolate 0 s := rfl
    rw [hexec, execIsolate]
    exact siteCmd_refused h hp (if_pos hsw) (by decide)
  case restore =>
    have hexec : exec (.restore 0) s = execRestore 0 s := rfl
    rw [hexec, execRestore, siteCmd_taken h hp (by rw [if_neg (not_not.2 hsw), if_neg (Nat.not_le.2 hph)])]
    refine goesTo_ok ⟨?_, ?_, ?_, fun q hq => ?_, only_of_outside (by intros; simp)⟩
    · rw [State.modSite_site, if_pos rfl]
    · rw [State.modSite_site, if_pos rfl]
    · rw [State.modSite_site, if_pos rfl]
    · rw [State.modSite_site, if_neg hq]
      rfl
  case restoreLost =>
    have hexec : exec (.restore 0) s = execRestore 0 s := rfl
    rw [hexec, execRestore]
    exact siteCmd_refused h hp (by rw [if_neg (not_not.2 hsw), if_pos hph]) (by decide)
  case frozen =>
    have hexec : exec (.pathBaselineFrozen p b) s = execPathBaselineFrozen p b s := rfl
    rw [hexec, execPathBaselineFrozen, onSite, if_pos hp, when_, if_pos (by simp [hr, ht, hd, hsv])]
    exact goesTo_ok ⟨by simp [State.learn], by simp [State.learn], fun q hq => by simp [State.learn, hq], by simp [State.learn]⟩

end Sys2Proof.Machine
end

section
/-! PROOFS. Soft starts and rejoins (R403 to R405, R448; O44). -/

namespace Sys2Proof.Machine

open Sys2Proof.Safety (Blk Only GoesTo)

/-! ### Sites whose row a REMAP holds -/

theorem State.remapHold_of_none {s : State} {p : Nat} (h : s.remapRow p = none) : s.remapHold p = s := by simp [State.remapHold, h]
theorem State.remapHold_of_busy {s : State} {p : Nat} (h : ¬ ((s.site p).st = .active ∧ (s.site p).clk.ph = .none)) : s.remapHold p = s := by
  unfold State.remapHold
  split
  · exact if_neg h
  · rfl
theorem State.remapHold_of_some {s : State} {p r : Nat} (h : s.remapRow p = some r) (ha : (s.site p).st = .active) (hph : (s.site p).clk.ph = .none) :
    s.remapHold p = s.modSite p fun x => { x with st := .held, heldRow := some r, clk := { x.clk with stopAt := s.time } } := by simp [State.remapHold, h, ha, hph]
theorem State.remapHold_field {α : Type} (π : Site → α) (hπ : ∀ x r t, π { x with st := .held, heldRow := r, clk := { x.clk with stopAt := t } } = π x) (s : State) (p : Nat) :
    π ((s.remapHold p).site p) = π (s.site p) := by
  by_cases hbusy : (s.site p).st = .active ∧ (s.site p).clk.ph = .none
  · obtain ⟨ha, hph⟩ := hbusy
    cases hrow : s.remapRow p with
    | none => rw [State.remapHold_of_none hrow]
    | some r => rw [State.remapHold_of_some hrow ha hph, State.modSite_site, if_pos rfl, hπ]
  · rw [State.remapHold_of_busy hbusy]
theorem State.remapHold_st_of_not_active {s : State} {p : Nat} (h : (s.site p).st ≠ .active) : ((s.remapHold p).site p).st = (s.site p).st := by
  rw [State.remapHold_of_busy fun hbusy => h hbusy.1]
/-- A site that came to ACTIVE is HELD for the row of a REMAP that runs. -/
theorem State.remapHold_st_of_active {s : State} {p : Nat} (ha : (s.site p).st = .active) (hph : (s.site p).clk.ph = .none) :
    ((s.remapHold p).site p).st = if s.remapRow p = none then .active else .held := by
  cases hrow : s.remapRow p with
  | none => rw [State.remapHold_of_none hrow, if_pos rfl, ha]
  | some r => rw [State.remapHold_of_some hrow ha hph, State.modSite_site, if_pos rfl, if_neg (by simp)]
/-- The row that a REMAP holds depends on the command that runs and on the map of its site alone. -/
theorem State.remapRow_congr {s u : State} (hrun : u.hlt.run = s.hlt.run) (hsmap : u.hlt.smap = s.hlt.smap) (p : Nat) : u.remapRow p = s.remapRow p := by
  unfold State.remapRow State.tilePhys State.phys State.smapRow
  rw [hrun, hsmap]
@[simp] theorem State.remapHold_tiles (s : State) (p : Nat) : (s.remapHold p).tiles = s.tiles :=
  tiles_of_only (bs := [.sites]) (only_of_outside (by intros; simp)) (by decide)
@[simp] theorem State.remapHold_hlt (s : State) (p : Nat) : (s.remapHold p).hlt = s.hlt :=
  hlt_of_only (bs := [.sites]) (only_of_outside (by intros; simp)) (by decide)
@[simp] theorem State.bankNow_tiles (s : State) (p : Nat) : (s.bankNow p).tiles = s.tiles :=
  tiles_of_only (bs := [.sites]) (only_of_outside (by intros; simp)) (by decide)
@[simp] theorem State.bankNow_hlt (s : State) (p : Nat) : (s.bankNow p).hlt = s.hlt :=
  hlt_of_only (bs := [.sites]) (only_of_outside (by intros; simp)) (by decide)

@[simp] theorem State.askSoft_site (s : State) (p q : Nat) (why : SoftFor) : (s.askSoft p why).site q =
    if q = p then { s.site p with pwr := { (s.site p).pwr with soft := .queued, softFor := why, softTurn := s.pwr.softTurns, softSince := s.time } } else s.site q :=
  State.modSite_site ..

/-! ### Findings of a test that finds nothing -/

theorem State.promise_hlt_field {α : Type} (π : Hlt → α) (hπ : ∀ h b n, π { h with promise := b, holds := n } = π h) (s : State) : π s.promise.hlt = π s.hlt := by
  unfold State.promise
  dsimp only
  (repeat' split) <;> simp [State.raisePanel, hπ]
@[simp] theorem State.disagree_hlt (s : State) (f : BadUnit → Bool) (l : List BadUnit) : (s.disagree f l).hlt = s.hlt := hlt_of_only (bs := [.spi]) (only_of_outside (by intros; simp)) (by decide)
/-- A test that finds nothing changes the history of its sites alone. -/
theorem State.findings_nil_hlt {α : Type} (π : Hlt → α) (hπ : ∀ h l, π { h with history := l } = π h) (s : State) (c : Nat) (sites : List Nat) (links : Bool) :
    π (s.findings c sites links [] []).hlt = π s.hlt := by
  have htags : π (sites.foldl (fun s p => s.tag p false) s).hlt = π s.hlt :=
    List.foldlRecOn (motive := fun u : State => π u.hlt = π s.hlt) sites _ rfl fun u hu q _ => by rw [State.tag, State.modHlt_hlt, hπ, hu]
  simpa [State.findings, State.tagTests] using htags
theorem State.trainLinks_nil (s : State) : Only [.fab] s (s.trainLinks []) := only_of_outside (by intros; simp)

/-! ### Tiles changed one after the other -/

/-- What an edit makes true of a tile, whatever it was, is true of each tile edited, and of those of which it was true. -/
theorem State.foldl_modTile_of_mem {P : Tile → Prop} {f : Tile → Tile} (hf : ∀ T, P (f T)) (l : List Nat) (s : State) {t : Nat} (h : t ∈ l ∨ P (s.tile t)) :
    P ((l.foldl (fun s t => s.modTile t f) s).tile t) := by
  induction l generalizing s with
  | nil => exact h.resolve_left List.not_mem_nil
  | cons q l ih =>
    refine ih _ ?_
    rw [State.modTile_tile]
    rcases h with h | h
    · rcases List.mem_cons.1 h with rfl | h
      · rw [if_pos rfl]; exact .inr (hf _)
      · exact .inl h
    · split
      · exact .inr (hf _)
      · exact .inr h

/-- Settles O44. -/
theorem softStartsComplete : Obligations.SoftStartsComplete := by
  unfold Obligations.SoftStartsComplete
  refine ⟨fun p s hp hq hsw hm => ?start, fun p s hp hr hg hsv ht hd => ?doneDark, fun p s hp hr hg ht hd hrj => ?doneRejoin, fun p s hp hr hg ht hd hrj hw => ?doneActive,
    fun p s hp hr hheld => ?abandon, fun p s hp hr hsw ht hsv => ?retry, fun p s hp hr hsw hsv hc hstop => ?rejoin, fun p found suspects w s hp hr hst hsv hbad => ?rejoinedBad,
    fun p s hp hr hst hsv hw hph => ?rejoined⟩
  case start =>
    have hexec : exec (.softStart p) s = execSoftStart p s := rfl
    rw [hexec, execSoftStart, onSite, if_pos hp, when_, if_pos (by simp [hq, hsw, hm])]
    exact goesTo_ok ⟨by rw [State.modSite_site, if_pos rfl], fun q hq => by rw [State.modSite_site, if_neg hq], only_of_outside (by intros; simp)⟩
  case doneDark =>
    have hexec : exec (.softStartDone p) s = execSoftStartDone p s := rfl
    have hramp : rampNs (s.site p) = 600 * us + (s.site p).pwr.held := by simp [rampNs, hd]
    rw [hexec, execSoftStartDone, onSite, if_pos hp, when_, if_pos (by simp [hr, hg, hsv, hramp, ht]), if_pos hd]
    extract_lets s1
    have hseen (q : Nat) := State.nodeSeen_pwr s1 p true q
    have hs1 : s1.site p = _ := State.modSite_site .. |>.trans (if_pos rfl)
    refine goesTo_ok ⟨?_, ?_, ?_, ?_, ?_, fun q hq => ?_, ?_⟩
    · rw [State.askSoft_site, if_pos rfl]
      exact (hseen p).2.trans (by rw [hs1])
    · rw [State.askSoft_site, if_pos rfl]
      exact ((State.nodeSeen_edit s1 p true p).field (fun x => x.routeGen) fun _ => rfl).trans (by rw [hs1])
    · rw [State.askSoft_site, if_pos rfl]
    · rw [State.askSoft_site, if_pos rfl]
    · rw [State.askSoft_site, if_pos rfl]
      exact (congrArg (fun w : SitePwr => w.vb) (hseen p).1).trans (by rw [hs1])
    · rw [State.askSoft_site, if_neg hq, (hseen q).2, State.modSite_site, if_neg hq]
    · have ho : Only [.sites, .pwr] s ((s1.nodeSeen p true).askSoft p .rejoin) := only_of_outside (by intros; simp [s1])
      exact tiles_of_only ho (by decide)
  case doneRejoin =>
    have hexec : exec (.softStartDone p) s = execSoftStartDone p s := rfl
    have hramp : rampNs (s.site p) = 1400 * us + (s.site p).pwr.held := by simp [rampNs, hd]
    rw [hexec, execSoftStartDone, onSite, if_pos hp, when_, if_pos (by simp [hr, hg, hd, hramp, ht]), if_neg hd]
    extract_lets s1 rejoin s2
    have hs2 : s2.site p = _ := State.modSite_site .. |>.trans (if_pos rfl)
    have hrj' : rejoin = true := hrj
    have hedit := s2.bankNow_edit p
    have hst : ((s2.bankNow p).site p).st = .reset := by
      have hst2 : (s2.site p).st = .reset := by rw [hs2, hrj']; rfl
      rw [hedit.st_of_not_active (by simp [hst2]), hst2]
    have hpwr : ((s2.bankNow p).site p).pwr.sw = .on := (hedit.field (fun x => x.pwr.sw) fun _ => rfl).trans (by rw [hs2])
    have hcur : ((s2.bankNow p).site p).clk.cur = 0 := (hedit.field (fun x => x.clk.cur) fun _ => rfl).trans (by rw [hs2])
    refine goesTo_ok ⟨?_, ?_, ?_, fun t a ht => ?_⟩
    · rw [State.promise_site, State.remapHold_st_of_not_active (by simp [hst]), hst]
    · rw [State.promise_site, State.remapHold_field (fun x => x.clk.cur) (fun _ _ _ => rfl), hcur]
    · rw [State.promise_site, State.remapHold_field (fun x => x.pwr.sw) (fun _ _ _ => rfl), hpwr]
    · have htiles : (((s2.bankNow p).remapHold p).promise).tiles = s1.tiles := by
        rw [State.promise_tiles, State.remapHold_tiles, State.bankNow_tiles]
        exact State.modSite_tiles ..
      rw [State.tile, htiles]
      exact State.foldl_modTile_of_mem (P := fun T => memGet T.sram a = 0) (fun _ => rfl) (s.tilesOf p) s (.inl ht)
  case doneActive =>
    have hexec : exec (.softStartDone p) s = execSoftStartDone p s := rfl
    have hramp : rampNs (s.site p) = 1400 * us + (s.site p).pwr.held := by simp [rampNs, hd]
    rw [hexec, execSoftStartDone, onSite, if_pos hp, when_, if_pos (by simp [hr, hg, hd, hramp, ht]), if_neg hd]
    extract_lets s1 rejoin s2
    have hs1 : Only [.tiles] s s1 := only_of_outside (by intros; simp [s1])
    have hs2 : s2.site p = _ := State.modSite_site .. |>.trans (if_pos rfl)
    have hrj' : rejoin = false := hrj
    have hw2 : (s2.site p).clk.wantsBank = false := by
      rw [hs2, ← hw, ← site_of_only hs1 (by decide) p]
      rfl
    have hhlt : s2.hlt = s.hlt := (State.modSite_hlt ..).trans (hlt_of_only hs1 (by decide))
    have hst : (s2.site p).st = .active := by rw [hs2, hrj']; rfl
    have hph : (s2.site p).clk.ph = .none := by rw [hs2]
    rw [State.bankNow_of_not_wantsBank hw2]
    refine goesTo_ok ⟨?_, ?_, ?_⟩
    · rw [State.promise_site, State.remapHold_st_of_active hst hph, State.remapRow_congr (s := s) (by rw [hhlt]) (by rw [hhlt])]
    · rw [State.promise_site, State.remapHold_field (fun x => x.clk.cur) (fun _ _ _ => rfl), hs2]
    · rw [State.promise_site, State.remapHold_field (fun x => x.pwr.sw) (fun _ _ _ => rfl), hs2]
  case abandon =>
    have hexec : exec (.softStartAbandon p) s = execSoftStartAbandon p s := rfl
    rw [hexec, execSoftStartAbandon, onSite, if_pos hp, when_, if_pos (by simp [hr, hheld])]
    extract_lets n s1
    have hsite (q : Nat) : (if 3 ≤ n then s1.raiseSite 0x041B p (siteWord p) n else s1).site q = s1.site q := by split <;> simp
    refine goesTo_ok ?_
    simp only [hsite]
    refine ⟨?_, ?_, ?_, ?_, fun q hq => ?_⟩
    · rw [State.modSite_site, if_pos rfl]
    · rw [State.modSite_site, if_pos rfl]
    · rw [State.modSite_site, if_pos rfl]
    · rw [State.modSite_site, if_pos rfl]
    · rw [State.modSite_site, if_neg hq]
  case retry =>
    have hexec : exec (.softStartRetry p) s = execSoftStartRetry p s := rfl
    rw [hexec, execSoftStartRetry, onSite, if_pos hp, when_, if_pos (by simp [hr, hsw, ht, hsv])]
    rfl
  case rejoin =>
    have hexec : exec (.siteRejoin p) s = execSiteRejoin p s := rfl
    rw [hexec, execSiteRejoin, onSite, if_pos hp, when_, if_pos (by simp [hr, hsw, hsv, hc, hstop])]
    extract_lets s1
    refine goesTo_ok ⟨?_, ?_, ?_, ?_, ?_, fun q hq => ?_⟩
    · rw [State.askSoft_site, if_pos rfl, State.modSite_site, if_pos rfl]
    · rw [State.askSoft_site, if_pos rfl, State.modSite_site, if_pos rfl]
    · rw [State.askSoft_site, if_pos rfl, State.modSite_site, if_pos rfl]
    · rw [State.askSoft_site, if_pos rfl]
    · rw [State.askSoft_site, if_pos rfl]
    · rw [State.askSoft_site, if_neg hq, State.modSite_site, if_neg hq]
  case rejoinedBad =>
    have hexec : exec (.siteRejoined p found suspects w) s = execSiteRejoined p found suspects w s := rfl
    rw [hexec, execSiteRejoined, onSite, if_pos hp, when_, if_pos (by simp [hr, hst, hsv])]
    extract_lets guarded s1 d1 s2 mine s3 base s4 s5 word s6
    have hbase : base = true := by
      obtain ⟨u, hu, hkind, hsite⟩ := hbad
      exact List.any_eq_true.2 ⟨u, hu, by simp [hkind, hsite]⟩
    rw [if_pos hbase]
    obtain ⟨hdark, -, -⟩ := (s6.addDefect word true).darken_self p
    exact goesTo_ok (by rw [State.promise_site, hdark])
  case rejoined =>
    have hexec : exec (.siteRejoined p [] [] []) s = execSiteRejoined p [] [] [] s := rfl
    rw [hexec, execSiteRejoined, onSite, if_pos hp, when_, if_pos (by simp [hr, hst, hsv])]
    extract_lets guarded s1 d1 s2 mine s3 base s4 s5 word s6
    have hbase : ¬ (base = true) := by simp [base]
    rw [if_neg hbase]
    have hs1 : Only [.tiles] s s1 := only_of_outside (by intros; simp [s1])
    have hs4 : Only [.tiles, .fab, .host, .spi, .hlt] s2 s4 := only_of_outside (by intros; simp [s4, s3])
    have hs5 : s5.site p = { s1.site p with st := .active, pwr := { (s1.site p).pwr with rejoining := false } } := by
      rw [State.settle_site, site_of_only hs4 (by decide), State.modSite_site, if_pos rfl]
    rw [site_of_only hs1 (by decide)] at hs5
    have hw5 : (s5.site p).clk.wantsBank = false := by rw [hs5]; exact hw
    rw [State.bankNow_of_not_wantsBank hw5]
    have hst5 : (s5.site p).st = .active := by rw [hs5]
    have hph5 : (s5.site p).clk.ph = .none := by rw [hs5]; exact hph
    have hs2 : s2.hlt = s.hlt := (State.modSite_hlt ..).trans (hlt_of_only hs1 (by decide))
    have hs4' : s4 = (s2.trainLinks []).findings 0x02 [p] true [] [] := rfl
    have hhlt {α : Type} (π : Hlt → α) (hπ : ∀ h l, π { h with history := l } = π h) (hu : ∀ h l, π { h with unsettled := l } = π h) : π s5.hlt = π s.hlt := by
      rw [show s5 = s4.settle 2 p from rfl, State.settle, State.modHlt_hlt, hu, hs4', State.findings_nil_hlt π hπ, hlt_of_only (State.trainLinks_nil s2) (by decide), hs2]
    have hrun : s5.hlt.run = s.hlt.run := hhlt (fun h => h.run) (fun _ _ => rfl) fun _ _ => rfl
    have hsmap : s5.hlt.smap = s.hlt.smap := hhlt (fun h => h.smap) (fun _ _ => rfl) fun _ _ => rfl
    refine goesTo_ok ⟨?_, ?_, ?_⟩
    · rw [State.promise_site, State.raiseSite_site, State.remapHold_st_of_active hst5 hph5, State.remapRow_congr hrun hsmap]
    · rw [State.promise_site, State.raiseSite_site, State.remapHold_field (fun x => x.pwr.rejoining) (fun _ _ _ => rfl), hs5]
    · rw [State.promise_hlt_field (fun h => h.unsettled) (fun _ _ _ => rfl), State.raiseSite, State.raise_hlt, State.remapHold_hlt]
      simp [s5, State.settle]

end Sys2Proof.Machine
end

section
/-! PROOFS. Frequency steps, ceilings and banking (R370 to R373, R380 to R389; O40), and a node that drops its last neighbour (R366; O39). -/

namespace Sys2Proof.Machine

open Sys2Proof.Safety (Blk Only GoesTo Managed Served)

/-- A command of CLK_BANK that a running service die takes (R380). -/
theorem clkBank_of_served {s : State} (h : Served s) (v : W32) (k : State → Nat → Out) : clkBank s 0 v k =
    let st := (s.site (s.phys (bitsOf v 7 0))).st
    let bad := st == .dark || st == .off || st == .reset
    let u := s.modClk fun c => { c with bankS := bitsOf v 7 0, bankErr := bad }
    if bad then ok u else k u (s.phys (bitsOf v 7 0)) := by
  obtain ⟨hm, hsv⟩ := h
  simp only [clkBank, gated0_of_managed hm, when_, hsv, if_true]

/-- Taking limits anew touches no partition and no tile. -/
theorem State.foldl_relimit_only (l : List Nat) (s : State) : Only [.sites, .clk] s (l.foldl State.relimit s) := only_of_outside (by intros; simp)

/-- Settles O40. -/
theorem stepsAndBanksComplete : Obligations.StepsAndBanksComplete := by
  unfold Obligations.StepsAndBanksComplete
  refine ⟨fun p s hp hsv hh hb hst => ?change, fun p s hp hs ht hd => ?settled, fun p ns back s hp hph hb => ?stopEnd, fun p s hp hph => ?fault, fun q v s hq hm => ?ceil,
    fun v s h hst => ?bank, fun v s h hst => ?refused, fun p s hp hst hr hs => ?back⟩
  case change =>
    have hexec : exec (.stepChange p (s.stepCeiling p)) s = execStepChange p (s.stepCeiling p) s := rfl
    have hask : s.mayAsk p = true := by
      unfold State.mayAsk
      rcases hst with h | h <;> simp [hsv, hh, hb, h]
    rw [hexec, execStepChange, onSite, if_pos hp, when_, if_pos (by simp [hask])]
    rfl
  case settled =>
    have hexec : exec (.railSettled p) s = execRailSettled p s := rfl
    rw [hexec, execRailSettled, onSite, if_pos hp, when_, if_pos (by simp [hs, ht, hd])]
    rfl
  case stopEnd =>
    intro k s1 s2 s3
    have hexec : exec (.stepStopEnd p ⟨ns, back⟩) s = execStepStopEnd p ⟨ns, back⟩ s := rfl
    have hcond : (back || decide (ns ≤ 4000)) = true := by rcases hb with h | h <;> simp [h]
    rw [hexec, execStepStopEnd, onSite, if_pos hp, when_, if_pos (by simp [hph, hcond])]
    rfl
  case fault =>
    intro s1
    have hexec : exec (.clkStepFault p) s = execClkStepFault p s := rfl
    rw [hexec, execClkStepFault, onSite, if_pos hp, when_, if_pos (by simp [hph])]
    rfl
  case ceil =>
    have hexec : exec (.clkCeil 0 q v) s = execClkCeil 0 q v s := rfl
    rw [hexec, execClkCeil, onPart, if_pos hq, gated0_of_managed hm]
    have ho := State.foldl_relimit_only (s.partSites q) (s.modPart q fun x => { x with ceil := bitsOf v 3 0 })
    refine goesTo_ok ⟨?_, fun r hr => ?_, ?_⟩
    · rw [partn_of_only ho (by decide), State.modPart_partn, if_pos rfl]
    · rw [partn_of_only ho (by decide), State.modPart_partn, if_neg hr]
    · rw [tiles_of_only ho (by decide), State.modPart_tiles]
  case bank =>
    have hexec : exec (.bank 0 v) s = execBank 0 v s ∧ exec (.unbank 0 v) s = execUnbank 0 v s := ⟨rfl, rfl⟩
    obtain ⟨hbank, hunbank⟩ := hexec
    rw [hbank, hunbank, execBank, execUnbank, clkBank_of_served h, clkBank_of_served h]
    rcases hst with hst | hst | hst <;> exact ⟨by rw [hst]; rfl, by rw [hst]; rfl⟩
  case refused =>
    have hexec : exec (.bank 0 v) s = execBank 0 v s ∧ exec (.unbank 0 v) s = execUnbank 0 v s := ⟨rfl, rfl⟩
    obtain ⟨hbank, hunbank⟩ := hexec
    rw [hbank, hunbank, execBank, execUnbank, clkBank_of_served h, clkBank_of_served h]
    rcases hst with hst | hst | hst <;> exact ⟨by rw [hst]; rfl, by rw [hst]; rfl⟩
  case back =>
    intro k
    have hexec : exec (.bankReturn p) s = execBankReturn p s := rfl
    rw [hexec, execBankReturn, onSite, if_pos hp, when_, if_pos (by simp [hst, hr, hs])]
    rfl

/-! ### A node outside the mesh that drops its last neighbour -/

/-- A panel whose site 1, which no edge of the mesh makes a corner, is ACTIVE and marked as decoupled while one bit of COUPLED stands. -/
def decoupledNode : State := State.reset.modSite 1 fun x => { x with st := .active, clk := { x.clk with decoupled := true, coupled := 1, freeRun := false, bankDrv := false } }
theorem decoupledNode_site : (decoupledNode.site 1).st = .active ∧ (decoupledNode.site 1).clk.decoupled = true ∧ (decoupledNode.site 1).clk.coupled = 1 ∧
    (decoupledNode.site 1).clk.freeRun = false ∧ (decoupledNode.site 1).clk.wantsBank = false := by decide
/-- It drops the neighbour and does not free-run: only a node that has joined the mesh does (R366). -/
theorem exec_clkDecoupled_decoupledNode : GoesTo (exec (.clkDecoupled 1 1) decoupledNode) fun u => (u.site 1).clk.freeRun = false := by
  obtain ⟨hst, hdec, hcoupled, hfree, hbank⟩ := decoupledNode_site
  have hexec : exec (.clkDecoupled 1 1) decoupledNode = execClkDecoupled 1 1 decoupledNode := rfl
  rw [hexec, execClkDecoupled, onSite, if_pos (by decide), if_pos ⟨by simp [hst], by rw [hcoupled]; decide⟩]
  extract_lets s1 s2 s3
  have hs1 : (s1.site 1).clk.freeRun = false ∧ (s1.site 1).clk.wantsBank = false := by
    simp only [s1, State.modSite_site, if_true]
    rw [Site.alone, if_neg (by simp [hdec])]
    exact ⟨hfree, hbank⟩
  obtain ⟨hfree1, hbank1⟩ := hs1
  have hs2 : s2 = s1 := State.bankNow_of_not_wantsBank hbank1
  have hs3 : s3 = s1 := by simp only [s3]; rw [hs2, if_neg (by simp [hfree1])]
  rw [hs3]
  exact goesTo_ok (by rw [State.raiseSite_site, hfree1])

/-- Refutes O39: a site whose node is marked as decoupled (it has not joined the mesh again) and still has a bit of COUPLED drops that neighbour without free-running, since `Site.alone` lets only nodes free-run that are in the mesh. -/
theorem not_timebaseAndReferencesComplete : ¬ Obligations.TimebaseAndReferencesComplete := by
  unfold Obligations.TimebaseAndReferencesComplete
  intro h
  obtain ⟨-, -, -, -, -, -, hdropped, -⟩ := h
  obtain ⟨hst, hdec, hcoupled, hfree, hbank⟩ := decoupledNode_site
  obtain ⟨u, hu, -, -, -, hruns⟩ := hdropped 1 1 decoupledNode (by decide) (by simp [hst]) hfree (by rw [hcoupled]; decide)
  obtain ⟨v, hv, hnot⟩ := exec_clkDecoupled_decoupledNode
  obtain rfl : u = v := by rw [hu] at hv; exact Host.Outcome.next.inj hv
  rw [hruns (by rw [hcoupled]; decide) (by decide)] at hnot
  exact absurd hnot (by decide)

end Sys2Proof.Machine
end

section
/-! PROOFS. Power cap, telemetry, pacing and profiles (R410 to R435; O45). -/

namespace Sys2Proof.Machine

open Sys2Proof.Safety (Blk Only GoesTo Managed Served)

theorem Site.budgeted_of_st {x : Site} (h : x.st = .active ∨ x.st = .held) : x.budgeted = true := by
  unfold Site.budgeted
  rcases h with h | h <;> simp [h]
@[simp] theorem State.raisePanel_cap (s : State) (code d0 d1 : Nat) : (s.raisePanel code d0 d1).cap = s.cap := State.raise_cap ..
theorem State.promise_only (s : State) : Only [.host, .spi, .hlt] s s.promise := only_of_outside (by intros; simp)

/-! ### Telemetry -/

theorem State.foldl_telSite_only (k : List ConvMeas) (l : List SiteMeas) (s : State) : Only [.sites, .host] s (l.foldl (State.telSite k) s) := only_of_outside (by intros; simp)
theorem State.foldl_telConv_only (k : List ConvMeas) (s : State) : Only [.host, .pwr] s (k.foldl State.telConv s) := only_of_outside (by intros; simp)

/-! ### Allocations -/

theorem State.measured_cap (s : State) (m : PowerMeas) : (s.measured m).cap =
    { s.cap with ppanel := m.panel, energy := s.cap.energy + (s.cap.energyUj + m.panel) / 1000, energyUj := (s.cap.energyUj + m.panel) % 1000 } := by
  unfold State.measured
  dsimp only
  rw [State.modCap_cap]
  have hcap : (m.sites.foldl (fun s e => if e.1 < 272 then s.modSite e.1 fun x => { x with ctl := { x.ctl with power := e.2.1, pVc := e.2.2.1, pOther := e.2.1 - e.2.2.1 } } else s) s).cap = s.cap :=
    List.foldlRecOn (motive := fun u : State => u.cap = s.cap) m.sites _ rfl fun u hu e _ => by
      split
      · exact hu
      · exact hu
  rw [hcap]

/-! ### Pacing of a partition -/

theorem State.paceUpdate_only (s : State) (q : Nat) : Only [.sites, .host, .parts, .clk, .spi] s (s.paceUpdate q) := only_of_outside (by intros; simp)
@[simp] theorem State.setPace_parts (s : State) (q n : Nat) : (s.setPace q n).parts = s.parts := parts_of_only (bs := [.sites, .clk]) (only_of_outside (by intros; simp)) (by decide)
@[simp] theorem State.setPace_partn (s : State) (q n r : Nat) : (s.setPace q n).partn r = s.partn r := partn_of_only (bs := [.sites, .clk]) (only_of_outside (by intros; simp)) (by decide) r
/-- A lock of paces changes what it says of its partition alone (R433). -/
theorem State.paceUpdate_partn_other (s : State) {q r : Nat} (h : r ≠ q) : (s.paceUpdate q).partn r = s.partn r := by
  unfold State.paceUpdate
  dsimp only
  (repeat' split) <;> simp [h]
theorem State.paceUpdate_field {α : Type} (π : Part → α) (hπ : ∀ x a b c d, π { x with lockstep := a, throttled := b, slow := c, engaged := d } = π x) (s : State) (q : Nat) :
    π ((s.paceUpdate q).partn q) = π (s.partn q) := by
  unfold State.paceUpdate
  extract_lets ps lock ceil slow thr s1 x s2
  have hs1 : s1.partn q = { s.partn q with lockstep := lock, throttled := thr, slow := if ps.isEmpty then 0 else slow } := (State.modPart_partn ..).trans (if_pos rfl)
  have hs2 : s2.partn q = { s1.partn q with engaged := true } := by rw [State.modPart_partn, if_pos rfl, State.setPace_partn]
  have hkept (b : Bool) : π { s1.partn q with engaged := b } = π (s.partn q) := by rw [hs1]; exact hπ (s.partn q) ..
  split
  · split
    · rw [hs2, hkept]
    · rw [State.raise_partn, hs2, hkept]
  · split
    · rw [State.raise_partn, State.modPart_partn, if_pos rfl, State.setPace_partn, hkept]
    · exact hkept (s1.partn q).engaged

/-- Settles O45. -/
theorem capControlCompletes : Obligations.CapControlCompletes := by
  unfold Obligations.CapControlCompletes
  refine ⟨fun l k s hc => ?tick, fun v s h h1 h2 => ?cap, fun v s h hv => ?capBad, fun m s hc => ?alloc, fun p v s hp h => ?lock, fun p m mv s hp hst => ?pacer,
    fun p s hp hst hsv ht => ?limit, fun p s hp h hst => ?clear, fun p s hp h hst => ?clearBad, fun s hsv hst => ?mirror, fun p v s hr => ?telHead, fun v s h => ?telCfg⟩
  case tick =>
    have hexec : exec (.telemetryTick l k) s = execTelemetryTick l k s := rfl
    rw [hexec]
    unfold execTelemetryTick
    rw [when_, if_pos hc]
    extract_lets s1 s2 s3 s4 s5 c s6 s7
    have hcap1 : s1.cap = s.cap := by cases k <;> rfl
    have htiles1 : s1.tiles = s.tiles := by cases k <;> rfl
    have h3 : Only [.sites, .host, .pwr] s1 s3 := only_of_outside (by intros; simp [s3, s2])
    have h5 : Only [.sites, .host] s4 s5 := only_of_outside (by intros; simp only [s5]; split <;> simp)
    have h7 : Only [.host, .spi, .hlt] s5 ((if s7.svRuns then s7.telShadow else s7).promise) := only_of_outside (by intros; split <;> simp [s7, s6, State.modTel])
    refine goesTo_ok ⟨?_, ?_⟩
    · rw [cap_of_only h7 (by decide), cap_of_only h5 (by decide), State.modCap_cap, cap_of_only h3 (by decide), hcap1]
    · rw [tiles_of_only h7 (by decide), tiles_of_only h5 (by decide), State.modCap_tiles, tiles_of_only h3 (by decide), htiles1]
  case cap =>
    have hexec : exec (.pwrCap 0 v) s = execPwrCap 0 v s := rfl
    obtain ⟨hm, hsv⟩ := h
    rw [hexec, execPwrCap, gated0_of_managed hm, when_, if_pos hsv]
    dsimp only
    rw [if_pos ⟨h1, h2⟩]
    exact goesTo_ok ⟨by rw [State.raisePanel_cap, State.modCap_cap], by simp [State.raisePanel]⟩
  case capBad =>
    have hexec : exec (.pwrCap 0 v) s = execPwrCap 0 v s := rfl
    obtain ⟨hm, hsv⟩ := h
    rw [hexec, execPwrCap, gated0_of_managed hm, when_, if_pos hsv]
    dsimp only
    rw [if_neg (by omega)]
    exact goesTo_ok ⟨by rw [State.modCap_cap], only_of_outside (by intros; simp)⟩
  case alloc =>
    have hexec : exec (.budgetAllocation m) s = execBudgetAllocation m s := rfl
    rw [hexec, execBudgetAllocation, when_, if_pos hc]
    extract_lets s1 s2 ps psites pool s3 l e15 s4 s5 s6 s7 s8 floor
    have hm : Only [.sites, .cap] s s1 := only_of_outside (by intros; simp [s1])
    have hcap1 := State.measured_cap s m
    split
    · next hsv =>
      refine goesTo_ok ⟨?_, ?_, tiles_of_only hm (by decide), fun h => ?_⟩
      · exact congrArg Cap.ppanel hcap1
      · exact congrArg Cap.energy hcap1
      · have hsv1 : s1.svRuns = s.svRuns := by unfold State.svRuns; rw [pwr_of_only hm (by decide), hlt_of_only hm (by decide)]
        rw [hsv1, h] at hsv
        cases hsv
    · have h6 : Only [.sites, .pwr, .hlt, .freeN] s1 s6 := only_of_outside (by intros; simp [s6, s5, s4, s3, s2])
      have h8 : Only [.sites, .host, .parts, .clk, .spi] s7 s8 := only_of_outside (by intros; simp [s8])
      have hcap8 : s8.cap = { s1.cap with pool := pool, psites := psites, lastAlloc := some s6.time, static_ := false } := by
        rw [cap_of_only h8 (by decide), State.modCap_cap, cap_of_only h6 (by decide)]
      clear_value s8
      have htime : s6.time = s.time := by rw [time_of_only h6 (by decide), time_of_only hm (by decide)]
      have hend (u : State) (hu : ∃ x, u.cap = { s8.cap with unmetSec := x }) (ht : u.tiles = s8.tiles) :
          u.cap.ppanel = m.panel ∧ u.cap.energy = s.cap.energy + (s.cap.energyUj + m.panel) / 1000 ∧ u.tiles = s.tiles ∧ (s.svRuns = true → u.cap.lastAlloc = some s.time) := by
        obtain ⟨x, hu⟩ := hu
        refine ⟨?_, ?_, ?_, fun _ => ?_⟩
        · rw [hu, hcap8]; exact congrArg Cap.ppanel hcap1
        · rw [hu, hcap8]; exact congrArg Cap.energy hcap1
        · rw [ht, tiles_of_only h8 (by decide), State.modCap_tiles, tiles_of_only h6 (by decide), tiles_of_only hm (by decide)]
        · rw [hu, hcap8, htime]
      split
      · exact goesTo_ok (hend _ ⟨_, by rw [State.raisePanel_cap, State.modCap_cap]⟩ (by simp [State.raisePanel]))
      · exact goesTo_ok (hend _ ⟨s8.cap.unmetSec, rfl⟩ rfl)
  case lock =>
    have hexec : exec (.paceLock 0 p v) s = execPaceLock 0 p v s := rfl
    obtain ⟨hm, hsv⟩ := h
    rw [hexec, execPaceLock, onPart, if_pos hp, gated0_of_managed hm, when_, if_pos hsv]
    refine goesTo_ok ⟨?_, fun q hq => ?_, ?_⟩
    · rw [State.paceUpdate_field (fun x => x.lock) (fun _ _ _ _ _ => rfl), State.modPart_partn, if_pos rfl]
    · rw [State.paceUpdate_partn_other _ hq, State.modPart_partn, if_neg hq]
    · rw [tiles_of_only (State.paceUpdate_only _ _) (by decide), State.modPart_tiles]
  case pacer =>
    have hexec : exec (.pacerUpdate p m mv) s = execPacerUpdate p m mv s := rfl
    rw [hexec, execPacerUpdate, onSite, if_pos hp, when_, if_pos (Site.budgeted_of_st hst)]
    extract_lets c b high hand want enter k full leave mode bub evt s1 s2
    have hsite (q : Nat) : (if evt then s2.raiseSite 0x0432 p (siteWord p) k else s2).site q = s2.site q := by split <;> simp
    have hctl : (s2.site p).ctl.capN = (s.site p).ctl.capN + 1 ∧ (s2.site p).ctl.mode = mode ∧ (s2.site p).ctl.bubble = bub ∧
        (s2.site p).ctl.pacerK = if mode = .draught then k else 16 := by
      simp [s2, s1]
    obtain ⟨hcapN, hmode, hbub, hk⟩ := hctl
    refine goesTo_ok ⟨?_, fun h => ?_, fun h => ?_, fun q hq => ?_, ?_⟩
    · rw [hsite, hcapN]
    · rw [hsite, hmode] at h
      rw [hsite, hbub]
      exact if_neg (by simp [h])
    · rw [hsite, hmode] at h
      rw [hsite, hk, if_neg (by simp [h])]
    · rw [hsite, State.modSite_site, if_neg hq, State.modSite_site, if_neg hq]
    · have ho : Only [.sites, .host, .spi] s (if evt then s2.raiseSite 0x0432 p (siteWord p) k else s2) := only_of_outside (by intros; split <;> simp [s2, s1])
      exact tiles_of_only ho (by decide)
  case limit =>
    have hexec : exec (.capLimitUpdate p) s = execCapLimitUpdate p s := rfl
    rw [hexec, execCapLimitUpdate, onSite, if_pos hp]
    extract_lets due c lower k raise lim
    have hdue : due = true := by
      simp only [due]
      split
      · next t hcap => exact decide_eq_true (ht t hcap)
      · rfl
    rw [when_, if_pos (by simp [Site.budgeted_of_st hst, hsv, hdue])]
    have hfield {α : Type} (π : SiteCtl → α) : ∀ v : State, π ((v.relimit p).site p).ctl = π (v.site p).ctl := fun v => State.relimit_field (fun x => π x.ctl) (fun _ _ _ _ => rfl) v p p
    refine goesTo_ok ⟨?_, ?_, ?_, ?_, fun q hq => ?_, only_of_outside (by intros; simp)⟩
    · rw [hfield (fun c => c.capAt), State.modSite_site, if_pos rfl]
    · rw [hfield (fun c => c.capN), State.modSite_site, if_pos rfl]
    · rw [hfield (fun c => c.capSum), State.modSite_site, if_pos rfl]
    · rw [hfield (fun c => c.capDr), State.modSite_site, if_pos rfl]
    · rw [State.relimit_site_other _ hq, State.modSite_site, if_neg hq]
  case clear =>
    have hexec : exec (.clearProfiles 0 p) s = execClearProfiles 0 p s := rfl
    obtain ⟨hm, hsv⟩ := h
    rw [hexec, execClearProfiles, onPart, if_pos hp, gated0_of_managed hm, when_, if_pos hsv]
    extract_lets bad s1
    have hbad : ¬ (bad = true) := by simp [bad, hst]
    rw [if_neg hbad]
    refine goesTo_ok ⟨?_, ?_, fun q hq => ?_, only_of_outside (by intros; simp [s1])⟩
    · rw [State.profClear, State.modCap_partn, State.modPart_partn, if_pos rfl]
      simpa using hbad
    · rw [State.profClear, State.modCap_cap]
      rfl
    · rw [State.profClear, State.modCap_partn, State.modPart_partn, if_neg hq]
  case clearBad =>
    have hexec : exec (.clearProfiles 0 p) s = execClearProfiles 0 p s := rfl
    obtain ⟨hm, hsv⟩ := h
    rw [hexec, execClearProfiles, onPart, if_pos hp, gated0_of_managed hm, when_, if_pos hsv]
    extract_lets bad s1
    have hbad : bad = true := by simp [bad, hst]
    rw [if_pos hbad]
    exact goesTo_ok ⟨by rw [State.modPart_partn, if_pos rfl, hbad], only_of_outside (by intros; simp [s1])⟩
  case mirror =>
    have hexec : exec .profileMirror s = execProfileMirror s := rfl
    have hcond : (s.hlt.sva == .standby || s.hlt.svb == .standby) = true := by rcases hst with h | h <;> simp [h]
    rw [hexec, execProfileMirror, when_, if_pos (by simp [hsv, hcond])]
    exact goesTo_ok ⟨by rw [State.modCap_cap], only_of_outside (by intros; simp)⟩
  case telHead =>
    have hexec : exec (.telHead p v) s = execTelHead p v s := rfl
    rw [hexec, execTelHead, when_, if_pos hr]
    exact goesTo_ok ⟨rfl, rfl, fun c => rfl, only_of_outside (by intros; simp)⟩
  case telCfg =>
    have hexec : exec (.telCfg 0 v) s = execTelCfg 0 v s := rfl
    rw [hexec, execTelCfg, gated0_of_managed h]
    refine goesTo_ok ⟨?_, ?_, fun hen hwas => ?_, only_of_outside (by intros; simp)⟩
    · show (if (bitOf v 31 && !s.host.tel.en) = true then _ else _ : TelRing).en = _
      split <;> rfl
    · show (if (bitOf v 31 && !s.host.tel.en) = true then _ else _ : TelRing).irqEn = _
      split <;> rfl
    · have hfresh : (bitOf v 31 && !s.host.tel.en) = true := by simp [hen, hwas]
      simp only [State.modTel, State.modHost_host, hfresh, if_true, and_self]

end Sys2Proof.Machine
end

section
/-! PROOFS. Temperature samples and thermal control (R426, R427; O46). -/

namespace Sys2Proof.Machine

open Sys2Proof.Safety (Blk Only GoesTo)

/-! ### Sites that go DARK or OFF for heat -/

theorem State.darken_isoCause (s : State) (p : Nat) : ((s.darken p).site p).pwr.isoCause = (s.site p).pwr.isoCause := by
  unfold State.darken
  split
  · rw [State.modSite_site, if_pos rfl]
  · obtain ⟨-, hpwr⟩ := s.siteDark_site p
    rw [State.raiseSite_site, State.settle_site, hpwr]
    rfl
theorem State.isolate_isoCause (s : State) (p c : Nat) : ((s.isolate p c).site p).pwr.isoCause = c := by
  unfold State.isolate
  rw [State.darken_isoCause]
  simp
/-- A site that is neither ACTIVE nor BANKED keeps its state when its node leaves the mesh. -/
theorem State.nodeLeave_st {s : State} {p : Nat} (powered : Bool) (ha : (s.site p).st ≠ .active) : ((s.nodeLeave p powered).site p).st = (s.site p).st := by
  have hdrop := State.dropNode_edit 272 p s p
  unfold State.nodeLeave
  dsimp only
  split
  · rw [State.modSite_site, if_pos rfl]
    exact hdrop.st_of_not_active ha
  · obtain ⟨-, hseen⟩ := State.nodeSeen_pwr ((s.nodeDropped p).modSite p fun x => { x.unheld with clk := { x.clk.unhold with coupled := 0, decoupled := true, freeRun := false } }) p false p
    rw [hseen, State.modSite_site, if_pos rfl]
    exact hdrop.st_of_not_active ha

/-! ### What a sample says -/

/-- A reading of all three sensors of a site, which agree. -/
def threeSensors (a b c : Nat) : TempReading := { comp := some a, sram := some b, base := some c, disagree := none }
theorem threeSensors_max (a b c : Nat) : TempReading_max (threeSensors a b c) = max a (max b c) := by
  simp only [TempReading_max, threeSensors, lmax, List.filterMap_cons, List.filterMap_nil, id]
  (repeat' split) <;> omega
/-- It leaves no sensor silent. -/
theorem silentFrom_threeSensors (x : Site) (a b c now : Nat) : silentFrom x (threeSensors a b c) now = [none, none, none] := by
  simp [silentFrom, threeSensors]
theorem silentDie_none (now : Nat) : silentDie [none, none, none] now = none := by
  simp [silentDie, rangeFrom, lget]

/-- What a sample leaves of its site, of which `bad` says whether its sensors are out of order (R426). -/
structure TookSample (s : State) (p : Nat) (r : TempReading) (bad : Bool) (u : State) : Prop where
  temps : (u.site p).thm.tComp = r.comp.getD (s.site p).thm.tComp ∧ (u.site p).thm.tSram = r.sram.getD (s.site p).thm.tSram ∧ (u.site p).thm.tBase = r.base.getD (s.site p).thm.tBase
  sensorBad : (u.site p).thm.sensorBad = bad
  st : (u.site p).st = (s.site p).st
  other : ∀ q, q ≠ p → u.site q = s.site q
  disagree : r.disagree.isSome → bad = true
  quiet : ∀ a b c, r = threeSensors a b c → (s.site p).thm.sensorBad = false → bad = false ∧ Only [.sites, .clk] s u

theorem exec_tempSample {s : State} {p : Nat} (r : TempReading) (hp : p < 272) (hd : (s.site p).st ≠ .dark) : ∃ bad u, TookSample s p r bad u ∧
    exec (.tempSample p r) s = u.tempActs p (s.site p).st r (TempReading_max r) (if bad then 105 else TempReading_max r) := by
  have hexec : exec (.tempSample p r) s = execTempSample p r s := rfl
  rw [hexec, execTempSample, onSite, if_pos hp, when_, if_pos (by simp [hd])]
  extract_lets t now since badDie valid validAt mended bad te cool s1 s2 s3
  have hs3 (q : Nat) : s3.site q = s2.site q := by
    simp only [s3]
    generalize badDie = o
    cases o with
    | none => rfl
    | some d => dsimp only; split <;> simp
  have hs1 : s1.site p = _ := (State.modSite_site ..).trans (if_pos rfl)
  have hfield {α : Type} (π : SiteThm → SiteSt → α) : π (s3.site p).thm (s3.site p).st = π (s1.site p).thm (s1.site p).st := by
    rw [hs3]
    exact State.relimit_field (fun x => π x.thm x.st) (fun _ _ _ _ => rfl) s1 p p
  refine ⟨bad, s3, ⟨?_, ?_, ?_, fun q hq => ?_, fun h => ?_, fun a b c hr hsb => ?_⟩, rfl⟩
  · exact ⟨(hfield fun x _ => x.tComp).trans (by rw [hs1]), (hfield fun x _ => x.tSram).trans (by rw [hs1]), (hfield fun x _ => x.tBase).trans (by rw [hs1])⟩
  · exact (hfield fun x _ => x.sensorBad).trans (by rw [hs1])
  · exact (hfield fun _ k => k).trans (by rw [hs1])
  · rw [hs3, State.relimit_site_other _ hq, State.modSite_site, if_neg hq]
  · have hdie : badDie = r.disagree := if_pos h
    simp [bad, hdie, h]
  · have hdie : badDie = none := by
      simp only [badDie, since]
      rw [hr, silentFrom_threeSensors, silentDie_none]
      rfl
    refine ⟨by simp [bad, hdie, hsb], ?_⟩
    have hquiet : s3 = s2 := by simp only [s3, hdie]
    rw [hquiet]
    exact only_of_outside (by intros; simp [s2, s1])

/-- Heat banks a site that can bank (R427). -/
theorem State.heatBank_bankHeat {s : State} {p : Nat} (t : Nat) (h : (s.site p).st = .active ∨ (s.site p).st = .held ∨ (s.site p).st = .banked) :
    ((s.heatBank p t).site p).clk.bankHeat = true ∧ ((s.heatBank p t).site p).thm.sensorBad = (s.site p).thm.sensorBad := by
  unfold State.heatBank
  dsimp only
  have hst : ((s.site p).st == .active || (s.site p).st == .held || (s.site p).st == .banked) = true := by rcases h with h | h | h <;> simp [h]
  split
  · next hb => exact ⟨hb.resolve_right (by simp [hst]), rfl⟩
  · have hedit := State.bankNow_edit (s.modSite p fun x => { x with clk := { x.clk with bankHeat := true }, thm := { x.thm with thmAtBank := x.clk.thmLim, coolSince := none } }) p
    rw [State.raiseSite_site]
    refine ⟨(hedit.field (fun x => x.clk.bankHeat) fun _ => rfl).trans ?_, (hedit.field (fun x => x.thm.sensorBad) fun _ => rfl).trans ?_⟩
    · rw [State.modSite_site, if_pos rfl]
    · rw [State.modSite_site, if_pos rfl]

/-! ### Turns of the thermal controller -/

theorem State.throttle_thmLim (s : State) (p q : Nat) : ((s.throttle p).site q).clk.thmLim ≤ (s.site q).clk.thmLim := by
  unfold State.throttle
  dsimp only
  split
  · rw [State.modSite_site]
    split
    · next h => rw [h]
    · exact le_rfl
  · split
    · exact le_rfl
    · have hlim (v : State) : ((v.relimit p).site q).clk.thmLim = (v.site q).clk.thmLim := State.relimit_field (fun x => x.clk.thmLim) (fun _ _ _ _ => rfl) v p q
      split
      all_goals
        simp only [State.raiseSite_site, hlim, State.modSite_site]
        split
        · next h => rw [h]; exact Nat.sub_le ..
        · exact le_rfl
theorem State.unthrottle_thmLim (s : State) (p q : Nat) : ((s.unthrottle p).site q).clk.thmLim ≤ max 15 (s.site q).clk.thmLim := by
  unfold State.unthrottle
  dsimp only
  split
  · rw [State.modSite_site]
    split
    · next h => rw [h]; exact le_max_right ..
    · exact le_max_right ..
  · rw [State.relimit_field (fun x => x.clk.thmLim) (fun _ _ _ _ => rfl), State.modSite_site]
    split
    · exact le_max_of_le_left (min_le_left ..)
    · exact le_max_right ..

theorem State.throttle_only (s : State) (p : Nat) : Only [.sites, .clk, .host, .spi] s (s.throttle p) := only_of_outside (by intros; simp)

/-- Settles O46. -/
theorem thermalCompletes : Obligations.ThermalCompletes := by
  unfold Obligations.ThermalCompletes
  refine ⟨fun p a b c s hp hd hsb hmax => ?cool, fun p a b c s hp hd hc => ?isolates, fun p a b c s hp hd ho hc hab => ?turnsOff, fun p a b c s hp hst ha hb hc hmax => ?banks,
    fun p d r s hp hst hr ha hb hc => ?disagree, fun s hsv => ?turn, fun p t s hp hb hsv hsens ht hdue htemp => ?unbank, fun p t s hp hh hst hsoft hatt ht hdue hsb hsv hstop => ?on⟩
  case cool =>
    obtain ⟨bad, u, hu, hexec⟩ := exec_tempSample (threeSensors a b c) hp hd
    obtain ⟨hbad, honly⟩ := hu.quiet a b c rfl hsb
    obtain ⟨ha, hb, hc⟩ := hu.temps
    refine goesTo_of_eq (hexec.trans ?_) ⟨ha, hb, hc, hu.sensorBad.trans hbad, hu.st, hu.other, honly⟩
    rw [threeSensors_max, hbad, State.tempActs, if_neg, if_neg, if_neg]
    · rfl
    all_goals simp [threeSensors]; omega
  case isolates =>
    obtain ⟨bad, u, -, hexec⟩ := exec_tempSample (threeSensors a b c) hp hd
    refine goesTo_of_eq (hexec.trans (if_pos hc)) ?_
    obtain ⟨hst, -, hsw⟩ := (u.raiseSite 0x043A p (siteWord p) (TempReading_max (threeSensors a b c))).isolate_self p 5
    rw [State.promise_site, State.isolate_isoCause, hst, hsw]
    exact ⟨rfl, rfl, rfl⟩
  case turnsOff =>
    obtain ⟨bad, u, hu, hexec⟩ := exec_tempSample (threeSensors a b c) hp hd
    refine goesTo_of_eq (hexec.trans ((if_neg (Nat.not_le.2 hc)).trans (if_pos ⟨hab, ho⟩))) ?_
    have hoff : ((u.siteOff p).site p).st = .off := by
      rw [State.siteOff_site, if_pos rfl, Site.turnedOff, hu.st, if_neg hd]
    rw [State.promise_site, State.raiseSite_site, State.modSite_site, if_pos rfl]
    exact ⟨(State.nodeLeave_st true (by rw [hoff]; decide)).trans hoff, rfl⟩
  case banks =>
    have hd : (s.site p).st ≠ .dark := by rcases hst with h | h | h <;> simp [h]
    obtain ⟨bad, u, hu, hexec⟩ := exec_tempSample (threeSensors a b c) hp hd
    have hhot : 105 ≤ if bad then 105 else TempReading_max (threeSensors a b c) := by
      rw [threeSensors_max]
      split <;> omega
    refine goesTo_of_eq (hexec.trans ((if_neg (Nat.not_le.2 hc)).trans ((if_neg ?_).trans (if_pos hhot)))) ?_
    · simp [threeSensors]; omega
    · exact (State.heatBank_bankHeat _ (by rw [hu.st]; exact hst)).1
  case disagree =>
    have hd : (s.site p).st ≠ .dark := by rcases hst with h | h | h <;> simp [h]
    obtain ⟨bad, u, hu, hexec⟩ := exec_tempSample r hp hd
    have hbad : bad = true := hu.disagree (by rw [hr]; rfl)
    refine goesTo_of_eq (hexec.trans ((if_neg (Nat.not_le.2 hc)).trans ((if_neg (by omega)).trans (if_pos (by rw [hbad]; exact le_rfl))))) ?_
    obtain ⟨hheat, hsens⟩ := State.heatBank_bankHeat (s := u) (p := p) (if bad then 105 else TempReading_max r) (by rw [hu.st]; exact hst)
    exact ⟨hsens.trans (hu.sensorBad.trans hbad), hheat⟩
  case turn =>
    have hexec : exec .thermalTurn s = execThermalTurn s := rfl
    rw [hexec, execThermalTurn, when_, if_pos hsv]
    extract_lets live hot cool s1
    have hs1 : Only [.sites, .clk, .host, .spi] s s1 := by
      simp only [s1]
      split
      · exact State.throttle_only ..
      · exact Only.refl _
    have hlim1 (p : Nat) : (s1.site p).clk.thmLim ≤ (s.site p).clk.thmLim := by
      simp only [s1]
      split
      · exact State.throttle_thmLim ..
      · exact le_rfl
    clear_value s1
    split
    · next q _ =>
      have h2 : Only [.sites, .clk] s1 (s1.unthrottle q) := only_of_outside (by intros; simp)
      refine goesTo_ok ⟨?_, ?_, fun p => ?_⟩
      · rw [tiles_of_only h2 (by decide), tiles_of_only hs1 (by decide)]
      · rw [fab_of_only h2 (by decide), fab_of_only hs1 (by decide)]
      · exact (State.unthrottle_thmLim ..).trans (max_le_max_left 15 (hlim1 p))
    · exact goesTo_ok ⟨tiles_of_only hs1 (by decide), fab_of_only hs1 (by decide), fun p => le_max_of_le_right (hlim1 p)⟩
  case unbank =>
    have hexec : exec (.thmUnbank p) s = execThmUnbank p s := rfl
    rw [hexec, execThmUnbank, onSite, if_pos hp]
    extract_lets for100 sensors s1
    have hsensors : sensors = true := by
      rcases hsens with h | ⟨t', h, hdue'⟩
      · simp [sensors, h]
      · simp [sensors, for100, h, hdue']
    have hcool : for100 (s.site p).thm.coolSince = true := by rw [ht]; exact decide_eq_true hdue
    rw [when_, if_pos (by simp [hb, hsv, hsensors, hcool, htemp])]
    have hfield {α : Type} (π : SiteClk → α) (hπ : ∀ k b r, π { k with returning := b, req := r } = π k) : π (((s1.relimit p).unbankNow p).site p).clk = π ((s1.relimit p).site p).clk :=
      State.unbankNow_field (fun x => π x.clk) (fun x _ _ _ => by rw [Site.withRails_clk]) (fun _ _ => hπ ..) _ _
    refine goesTo_ok ⟨?_, ?_, fun q hq => ?_, ?_⟩
    · rw [State.raiseSite_site, hfield (fun k => k.bankHeat) fun _ _ _ => rfl, State.relimit_field (fun x => x.clk.bankHeat) (fun _ _ _ _ => rfl), State.modSite_site, if_pos rfl]
    · rw [State.raiseSite_site, hfield (fun k => k.thmLim) fun _ _ _ => rfl, State.relimit_field (fun x => x.clk.thmLim) (fun _ _ _ _ => rfl), State.modSite_site, if_pos rfl]
      rfl
    · rw [State.raiseSite_site, State.unbankNow_site_other _ hq, State.relimit_site_other _ hq, State.modSite_site, if_neg hq]
    · have ho : Only [.sites, .clk, .host, .spi] s (((s1.relimit p).unbankNow p).raiseSite 0x0437 p (siteWord p) (s.site p).temp) := only_of_outside (by intros; simp [s1])
      exact tiles_of_only ho (by decide)
  case on =>
    have hexec : exec (.thmOn p) s = execThmOn p s := rfl
    rw [hexec, execThmOn, onSite, if_pos hp]
    extract_lets cool s1
    have hcool : cool = true := by simp only [cool]; rw [ht]; exact decide_eq_true hdue
    rw [when_, if_pos (by simp [hh, hst, hsoft, hatt, hcool, hsb, hsv, hstop])]
    refine goesTo_ok ⟨?_, ?_, ?_, fun q hq => ?_, ?_⟩
    · rw [State.raiseSite_site, State.askSoft_site, if_pos rfl]
      exact (State.relimit_field (fun x => x.clk.thmLim) (fun _ _ _ _ => rfl) ..).trans (by rw [State.modSite_site, if_pos rfl]; rfl)
    · rw [State.raiseSite_site, State.askSoft_site, if_pos rfl]
    · rw [State.raiseSite_site, State.askSoft_site, if_pos rfl]
    · rw [State.raiseSite_site, State.askSoft_site, if_neg hq, State.relimit_site_other _ hq, State.modSite_site, if_neg hq]
    · have ho : Only [.sites, .clk, .pwr, .host, .spi] s ((s1.askSoft p .heat).raiseSite 0x0439 p (siteWord p) (s.site p).temp) := only_of_outside (by intros; simp [s1])
      exact tiles_of_only ho (by decide)

end Sys2Proof.Machine
end

section
/-! PROOFS. The serial memory beside its records (R455, R457), and bring-up (R437 to R449; O47). -/

namespace Sys2Proof.Machine

open Sys2Proof.Safety (Blk Only GoesTo)

/-! ### What records leave alone -/

/-- The serial memory without its learned records and its log. -/
def Spi.besideRecords (p : Spi) : Spi :=
  { p with lrA := {}, lrB := {}, lrUseB := false, lrPhase := 0, lrNext := 0, lrWait := [], log := [], logPos := 0, logCnt := 0, logBuf := [], logLost := 0 }
/-- Two states whose serial memories differ at most in learned records and log. -/
def SameBeside (s u : State) : Prop := u.spi.besideRecords = s.spi.besideRecords

theorem SameBeside.refl (s : State) : SameBeside s s := rfl
theorem SameBeside.trans {s u v : State} (h : SameBeside s u) (h' : SameBeside u v) : SameBeside s v := Eq.trans h' h
theorem SameBeside.of_spi {s u : State} (h : u.spi = s.spi) : SameBeside s u := congrArg Spi.besideRecords h
theorem SameBeside.field {s u : State} {α : Type} (h : SameBeside s u) (π : Spi → α) (hπ : ∀ p, π p.besideRecords = π p) : π u.spi = π s.spi := by
  rw [← hπ u.spi, h, hπ]
/-- Steps that each change records alone, one for each of a list. -/
theorem SameBeside.foldl {α : Type} {f : State → α → State} (hf : ∀ s a, SameBeside s (f s a)) (l : List α) (s : State) : SameBeside s (l.foldl f s) :=
  List.foldlRecOn (motive := fun u : State => SameBeside s u) l f (.refl s) fun u hu a _ => hu.trans (hf u a)
theorem SameBeside.of_only {s u : State} {bs : List Blk} (h : Only bs s u) (hb : Blk.spi ∉ bs) : SameBeside s u := .of_spi (spi_of_only h hb)

theorem Spi.modHalf_beside (p : Spi) (b : Bool) (f : LrHalf → LrHalf) : (p.modHalf b f).besideRecords = p.besideRecords := by cases b <;> rfl
theorem Spi.compactStep_beside (p : Spi) : p.compactStep.besideRecords = p.besideRecords := by
  unfold Spi.compactStep
  dsimp only
  split
  · exact Spi.modHalf_beside ..
  · split
    · exact Spi.modHalf_beside ..
    · split
      · exact Spi.modHalf_beside ..
      · rfl

theorem State.logPut_beside (s : State) (w0 w1 w2 w3 : Nat) : SameBeside s (s.logPut w0 w1 w2 w3) := by
  unfold SameBeside State.logPut
  rw [State.modSpi_spi]
  split <;> rfl
theorem State.bootLog_beside (s : State) (code d0 d1 : Nat) : SameBeside s (s.bootLog code d0 d1) := s.logPut_beside ..
theorem State.raise_beside (s : State) (e : Ev) : SameBeside s (s.raise e) := s.raise_spi_field Spi.besideRecords (fun _ _ _ => rfl) e
theorem State.learn_beside (s : State) (type : Nat) (l : List W64) : SameBeside s (s.learn type l) := rfl
theorem State.addDefect_beside (s : State) (w : W64) (b : Bool) : SameBeside s (s.addDefect w b) := rfl
theorem State.promise_beside (s : State) : SameBeside s s.promise := s.promise_spi_field Spi.besideRecords fun _ _ _ => rfl
theorem State.flushLog_beside (s : State) : SameBeside s s.flushLog := by
  unfold State.flushLog
  split
  · exact .refl s
  · exact Spi.logWrite_foldl_field Spi.besideRecords (fun _ _ _ _ => rfl) _ _
theorem State.writeLearned_beside (s : State) : SameBeside s s.writeLearned := by
  unfold State.writeLearned
  split
  · exact .refl s
  · refine (Spi.compactStep_beside _).trans ?_
    dsimp only
    split <;> split <;> simp only [Spi.modHalf_beside] <;> exact Spi.modHalf_beside ..
theorem State.disagree_beside (s : State) (f : BadUnit → Bool) (l : List BadUnit) : SameBeside s (s.disagree f l) := by
  unfold State.disagree
  refine SameBeside.foldl (fun u d => ?_) _ s
  dsimp only
  split
  · split <;> split
    · exact (u.bootLog_beside ..).trans (State.bootLog_beside ..)
    · exact u.bootLog_beside ..
    · exact u.bootLog_beside ..
    · exact .refl u
  · exact .refl u
theorem State.bootFound_beside (s : State) (b : BadUnit) : SameBeside s (s.bootFound b) := by
  unfold State.bootFound
  dsimp only
  split
  · exact .refl s
  · exact (s.bootLog_beside ..).trans (State.addDefect_beside ..)
theorem State.foundSuspect_beside (s : State) (b : BadUnit) : SameBeside s (s.foundSuspect b) := by
  unfold State.foundSuspect
  dsimp only
  split
  · exact s.bootLog_beside ..
  · split
    · exact s.bootLog_beside ..
    · exact s.bootLog_beside ..
theorem State.learnRemap_beside (s : State) : SameBeside s s.learnRemap := by
  unfold State.learnRemap
  dsimp only
  generalize pieces _ _ = l
  have hfold : ∀ (l : List (List W64)) (a : State × Nat), SameBeside a.1 (l.foldl (fun (a : State × Nat) w => (a.1.learn 6 (remapHead a.2 :: w), a.2 + 1)) a).1 := fun l => by
    induction l with
    | nil => exact fun a => .refl a.1
    | cons w l ih => exact fun a => (a.1.learn_beside ..).trans (ih _)
  exact hfold l (s, 0)
theorem State.trainChannel_beside (s : State) (l : List Dimm) (c : Nat) : SameBeside s (s.trainChannel l c) := by
  unfold State.trainChannel
  split
  · exact .refl s
  · split
    · exact .refl s
    · exact Spi.modHalf_beside ..
  · exact .refl s

/-! ### Steps of bring-up -/

theorem State.portsDetect_beside (s : State) : SameBeside s s.portsDetect := .of_only (bs := [.host]) (only_of_outside (by intros; simp)) (by decide)
theorem State.recovery_stage (s : State) (c : Nat) : (s.recovery c).spi.stage = .recovery ∧ (s.recovery c).spi.cause = c := by
  have hlog := ((s.modSpi fun p => { p with stage := .recovery, cause := c }).portsDetect_beside).trans (State.bootLog_beside _ 0x0004 c 0)
  exact ⟨hlog.field (fun p => p.stage) fun _ => rfl, hlog.field (fun p => p.cause) fun _ => rfl⟩
theorem State.bootFails_stage (s : State) (c n : Nat) : (s.bootFails c n).spi.stage = .failed ∧ (s.bootFails c n).spi.cause = c := by
  unfold State.bootFails
  extract_lets hlt0 s1 s2
  have hlog := ((s2.modSpi fun p => { p with stage := .failed, cause := c }).portsDetect_beside).trans (State.bootLog_beside _ 0x0003 c n)
  exact ⟨hlog.field (fun p => p.stage) fun _ => rfl, hlog.field (fun p => p.cause) fun _ => rfl⟩
/-- Settings taking effect show the stage and leave the image region alone (R438). -/
theorem State.bootSettings_spi (s : State) (env : BringUpEnv) (v : SvSt) (byB : Bool) :
    (s.bootSettings env v byB).spi.stage = .image ∧ (s.bootSettings env v byB).spi.image = s.spi.image := by
  unfold State.bootSettings
  extract_lets best fields s1 s2 s3 s4 s5 s6 s7 s8 s9 s10
  have h2 : s7.spi.stage = .image ∧ s7.spi.image = s.spi.image := by
    have hhalf : SameBeside s1 s2 := Spi.modHalf_beside ..
    have hstage : s2.spi.stage = .image := hhalf.field (fun p => p.stage) fun _ => rfl
    have himage : s2.spi.image = s.spi.image := hhalf.field (fun p => p.image) fun _ => rfl
    have h3 : s3.spi = s2.spi := rfl
    simp only [s7, s6, s5, s4, State.modSes_spi, State.modRick_spi, State.modHlt_spi, State.modCap_spi, h3, hstage, himage, and_self]
  have h8 : SameBeside s7 s8 := State.bootLog_beside ..
  have h9 : SameBeside s8 s9 := by
    simp only [s9]
    split
    · exact State.bootLog_beside ..
    · exact .refl _
  have h10 : SameBeside s9 s10 := by
    simp only [s10]
    split
    · exact .refl _
    · exact State.bootLog_beside ..
  have hend : SameBeside s10 (if v = .failed ∧ byB = false then s10.raisePanel 0x050B 1 2 else s10) := by
    split
    · exact State.raise_beside ..
    · exact .refl _
  have hall := (h8.trans h9).trans (h10.trans hend)
  exact ⟨(hall.field (fun p => p.stage) fun _ => rfl).trans h2.1, (hall.field (fun p => p.image) fun _ => rfl).trans h2.2⟩
/-- What of a panel bring-up's later steps leave alone: its supply and which service dies run (R438). -/
def State.supply (s : State) : Bool × Nat × SvSt × SvSt := (s.pwr.powered, s.pwr.vin, s.hlt.sva, s.hlt.svb)
theorem State.supply_of_only {s u : State} {bs : List Blk} (h : Only bs s u) (hp : Blk.pwr ∉ bs) (hh : Blk.hlt ∉ bs) : u.supply = s.supply := by
  unfold State.supply
  rw [pwr_of_only h hp, hlt_of_only h hh]

theorem State.bootFails_supply (s : State) (c n : Nat) : (s.bootFails c n).supply = s.supply := by
  unfold State.bootFails
  extract_lets hlt0 s1 s2
  have ho : Only [.host, .spi] s2 (((s2.modSpi fun p => { p with stage := .failed, cause := c }).portsDetect).bootLog 0x0003 c n) := only_of_outside (by intros; simp)
  rw [State.supply_of_only ho (by decide) (by decide)]
  rfl
theorem State.recovery_supply (s : State) (c : Nat) : (s.recovery c).supply = s.supply := State.supply_of_only (bs := [.host, .spi]) (only_of_outside (by intros; simp)) (by decide) (by decide)
theorem State.svUnsettled_supply (s : State) : s.svUnsettled.supply = s.supply := by
  have hone (u : State) (k n : Nat) : (u.unsettle k n).supply = u.supply := by
    unfold State.unsettle
    split <;> rfl
  unfold State.svUnsettled
  dsimp only
  split <;> split <;> simp only [hone]
theorem State.bootSettings_supply (s : State) (env : BringUpEnv) (v : SvSt) (byB : Bool) : (s.bootSettings env v byB).supply = s.supply := by
  unfold State.bootSettings
  extract_lets best fields s1 s2 s3 s4 s5 s6 s7 s8 s9 s10
  have h3 : s3.pwr = s2.pwr ∧ s3.hlt = s2.hlt := ⟨rfl, rfl⟩
  obtain ⟨hpwr3, hhlt3⟩ := h3
  have hpwr : s7.pwr = s.pwr := by
    simp only [s7, s6, s5, s4, State.modSes_pwr, State.modRick_pwr, State.modHlt_pwr, State.modCap_pwr]
    simp only [hpwr3, s2, s1, State.modSpi_pwr]
  have hhlt : s7.hlt = setHlt fields s.hlt := by
    simp only [s7, s6, s5, s4, State.modSes_hlt, State.modRick_hlt, State.modHlt_hlt, State.modCap_hlt]
    simp only [hhlt3, s2, s1, State.modSpi_hlt]
  have h7 : s7.supply = s.supply := by unfold State.supply; rw [hpwr, hhlt]; rfl
  have ho : Only [.host, .spi] s7 (if v = .failed ∧ byB = false then s10.raisePanel 0x050B 1 2 else s10) := only_of_outside (by intros; split <;> (simp only [s10, s9, s8]; (repeat' split) <;> simp))
  rw [State.supply_of_only ho (by decide) (by decide), h7]

theorem State.foldl_supply {α : Type} {f : State → α → State} (hf : ∀ s a, (f s a).supply = s.supply) (l : List α) (s : State) : (l.foldl f s).supply = s.supply :=
  List.foldlRecOn (motive := fun u : State => u.supply = s.supply) l f rfl fun u hu a _ => (hf u a).trans hu
theorem State.tagTests_supply (s : State) (l : List Nat) (f g : List BadUnit) : (s.tagTests l f g).supply = s.supply := by
  unfold State.tagTests
  extract_lets s1 s2
  have h1 : s1.supply = s.supply := State.foldl_supply (f := fun (s : State) (u : BadUnit) => (s.tag (BadUnit_site u) true).tag (BadUnit_site u) true) (fun _ _ => rfl) f s
  have h2 : s2.supply = s1.supply := State.foldl_supply (f := fun (s : State) (u : BadUnit) => (s.tag (BadUnit_site u) true).tag (BadUnit_site u) false) (fun _ _ => rfl) g s1
  refine (State.foldl_supply (fun u p => ?_) l s2).trans (h2.trans h1)
  split <;> rfl
theorem State.modHlt_supply (s : State) (f : Hlt → Hlt) (hf : ∀ h, (f h).sva = h.sva ∧ (f h).svb = h.svb) : (s.modHlt f).supply = s.supply := by
  obtain ⟨ha, hb⟩ := hf s.hlt
  simp only [State.supply, State.modHlt_pwr, State.modHlt_hlt, ha, hb]
theorem State.addDefect_supply (s : State) (w : W64) (b : Bool) : (s.addDefect w b).supply = s.supply := by
  unfold State.addDefect
  refine (State.modHlt_supply _ _ fun h => ?_).trans rfl
  split <;> exact ⟨rfl, rfl⟩
theorem State.bootFound_supply (s : State) (b : BadUnit) : (s.bootFound b).supply = s.supply := by
  unfold State.bootFound
  dsimp only
  split
  · rfl
  · rw [State.addDefect_supply]
    exact State.supply_of_only (bs := [.spi]) (only_of_outside (by intros; simp)) (by decide) (by decide)
theorem State.kindle_supply (s : State) (env : BringUpEnv) : (s.kindle env).supply = s.supply := by
  unfold State.kindle
  extract_lets smap s1 s2 s3
  have h1 : s1.supply = s.supply := State.supply_of_only (bs := [.sites]) (only_of_outside (by intros; simp [s1])) (by decide) (by decide)
  have h2 : s2.supply = s1.supply := State.modHlt_supply s1 _ fun _ => ⟨rfl, rfl⟩
  have h3 : s3.supply = s2.supply := State.supply_of_only (bs := [.tiles]) (only_of_outside (by intros; simp [s3])) (by decide) (by decide)
  refine (State.supply_of_only (s := s3) (bs := [.sites, .clk]) ?_ (by decide) (by decide)).trans (h3.trans (h2.trans h1))
  exact only_of_outside (by intros; simp)

/-- The state of bring-up before its last step, in which a panel without an ACTIVE site has FAILED. -/
theorem State.bootPanel_cases (s : State) (env : BringUpEnv) : ∃ u : State, SameBeside s u ∧ u.supply = s.supply ∧
    (s.bootPanel env = u.bootFails 0x11 6 ∨ s.bootPanel env = (u.modSpi fun p => { p with ddrZeroed := true }).writeLearned) := by
  unfold State.bootPanel
  extract_lets s1 s2 s3 unfed s4 s5 s6 s7 found s8 s9 s10 s11 s12 s13 s14 s15 s16 s17 s18
  have hraise (u : State) (e : Ev) : SameBeside u (u.raise e) ∧ (u.raise e).supply = u.supply := ⟨u.raise_beside e, State.supply_of_only (u.raise_only e) (by decide) (by decide)⟩
  have h3 : SameBeside s2 s3 ∧ s3.supply = s2.supply := by
    refine ⟨SameBeside.foldl (fun u g => ?_) _ _, State.foldl_supply (fun u g => ?_) _ _⟩ <;> split
    · exact (hraise ..).1
    · exact .refl u
    · exact (hraise ..).2
    · rfl
  have h5 : SameBeside s3 s5 ∧ s5.supply = s3.supply := by
    refine ⟨(SameBeside.foldl (fun u g => ?_) _ _).trans (SameBeside.foldl (fun u g => ?_) _ _), (State.foldl_supply (fun u g => ?_) _ _).trans (State.foldl_supply (fun u g => ?_) _ _)⟩ <;> split
    · exact (hraise ..).1
    · exact .refl u
    · exact (hraise ..).1
    · exact .refl u
    · exact (hraise ..).2
    · rfl
    · exact (hraise ..).2
    · rfl
  have h8 : SameBeside s7 s8 ∧ s8.supply = s7.supply := by
    have ho : Only [.fab] s7 s8 := only_of_outside (by intros; simp [s8])
    exact ⟨.of_only ho (by decide), State.supply_of_only ho (by decide) (by decide)⟩
  have h9 : SameBeside s8 s9 ∧ s9.supply = s8.supply := ⟨State.disagree_beside .., State.supply_of_only (bs := [.spi]) (only_of_outside (by intros; simp [s9])) (by decide) (by decide)⟩
  have h10 : SameBeside s9 s10 ∧ s10.supply = s9.supply := ⟨.of_only (bs := [.hlt]) (only_of_outside (by intros; simp [s10])) (by decide), State.tagTests_supply ..⟩
  have h11 : SameBeside s10 s11 ∧ s11.supply = s10.supply := ⟨SameBeside.foldl State.bootFound_beside _ _, State.foldl_supply State.bootFound_supply _ _⟩
  have h12 : SameBeside s11 s12 ∧ s12.supply = s11.supply := by
    have ho : Only [.fab] s11 s12 := only_of_outside (by intros; simp [s12])
    exact ⟨.of_only ho (by decide), State.supply_of_only ho (by decide) (by decide)⟩
  have h14 : SameBeside s12 s14 ∧ s14.supply = s12.supply := by
    refine ⟨(State.learn_beside ..).trans (.of_only (s := s13) (bs := [.tiles, .sites, .clk, .hlt]) (only_of_outside (by intros; simp [s14])) (by decide)), ?_⟩
    exact (State.kindle_supply ..).trans rfl
  have h15 : SameBeside s14 s15 ∧ s15.supply = s14.supply :=
    ⟨SameBeside.foldl State.foundSuspect_beside _ _, State.supply_of_only (bs := [.tiles, .spi]) (only_of_outside (by intros; simp [s15])) (by decide) (by decide)⟩
  have h17 : SameBeside s15 s17 ∧ s17.supply = s15.supply := by
    have ho : Only [.sites, .fab, .parts] s16 s17 := only_of_outside (by intros; simp [s17])
    have ho' : Only [.spi] s15 s16 := only_of_outside (by intros; simp [s16])
    exact ⟨(State.learnRemap_beside s15).trans (.of_only ho (by decide)), (State.supply_of_only ho (by decide) (by decide)).trans (State.supply_of_only ho' (by decide) (by decide))⟩
  have h18 : SameBeside s17 s18 ∧ s18.supply = s17.supply :=
    ⟨SameBeside.foldl (fun u c => u.trainChannel_beside _ c) _ _, State.supply_of_only (bs := [.chans, .spi]) (only_of_outside (by intros; simp [s18])) (by decide) (by decide)⟩
  have hstart : SameBeside s s2 ∧ s2.supply = s.supply := 
    ⟨.of_spi (by simp only [s2, s1, State.modPwr_spi, State.modClk_spi]), by simp only [State.supply, s2, s1, State.modPwr_pwr, State.modPwr_hlt, State.modClk_pwr, State.modClk_hlt]⟩
  have hmid : SameBeside s5 s7 ∧ s7.supply = s5.supply :=
    ⟨.of_spi (by simp only [s7, s6, State.modHlt_spi, State.modFab_spi]), by simp only [State.supply, s7, s6, State.modHlt_pwr, State.modHlt_hlt, State.modFab_pwr, State.modFab_hlt]⟩
  refine ⟨s18, ?_, ?_, ?_⟩
  · exact hstart.1.trans <| h3.1.trans <| h5.1.trans <| hmid.1.trans <| h8.1.trans <| h9.1.trans <| h10.1.trans <| h11.1.trans <| h12.1.trans <| h14.1.trans <| h15.1.trans <| h17.1.trans h18.1
  · rw [h18.2, h17.2, h15.2, h14.2, h12.2, h11.2, h10.2, h9.2, h8.2, hmid.2, h5.2, h3.2, hstart.2]
  · split
    · exact .inl rfl
    · exact .inr rfl

theorem State.bootPanel_supply (s : State) (env : BringUpEnv) : (s.bootPanel env).supply = s.supply := by
  obtain ⟨u, -, hsupply, h | h⟩ := s.bootPanel_cases env
  · rw [h, State.bootFails_supply, hsupply]
  · rw [h, ← hsupply]
    exact State.supply_of_only (bs := [.spi]) (only_of_outside (by intros; simp)) (by decide) (by decide)
/-- Bring-up goes on with DDR zeroed, or has FAILED for want of an ACTIVE site (R437, R442). -/
theorem State.bootPanel_stage {s : State} (env : BringUpEnv) (h : s.spi.stage = .image) :
    ((s.bootPanel env).spi.stage = .image ∧ (s.bootPanel env).spi.ddrZeroed = true) ∨ ((s.bootPanel env).spi.stage = .failed ∧ (s.bootPanel env).spi.cause = 0x11) := by
  obtain ⟨u, hbeside, -, hu | hu⟩ := s.bootPanel_cases env
  · rw [hu]
    exact .inr (u.bootFails_stage 0x11 6)
  · rw [hu]
    have hlearned := State.writeLearned_beside (u.modSpi fun p => { p with ddrZeroed := true })
    exact .inl ⟨(hlearned.field (fun p => p.stage) fun _ => rfl).trans ((hbeside.field (fun p => p.stage) fun _ => rfl).trans h), hlearned.field (fun p => p.ddrZeroed) fun _ => rfl⟩

/-- What a bring-up comes to, from what it meets (R438 to R442). -/
def BootRuns (env : BringUpEnv) (s u : State) : Prop :=
  (env.strapRecov = true → u.spi.stage = .recovery ∧ u.spi.cause = 6) ∧
  (env.strapRecov = false → env.flashAlive = false → u.spi.stage = .recovery ∧ u.spi.cause = 5) ∧
  (env.strapRecov = false → env.flashAlive = true → imageCheck s.spi.image s.ses.owner s.ses.svnMin ≠ 0 → u.spi.stage = .recovery) ∧
  (env.strapRecov = false → env.flashAlive = true → imageCheck s.spi.image s.ses.owner s.ses.svnMin = 0 → env.refA = false → env.refB = false → u.spi.stage = .failed ∧ u.spi.cause = 0x10) ∧
  (env.strapRecov = false → env.flashAlive = true → imageCheck s.spi.image s.ses.owner s.ses.svnMin = 0 → (env.refA = true ∨ env.refB = true) →
    (u.spi.stage = .image ∧ u.spi.ddrZeroed = true) ∨ (u.spi.stage = .failed ∧ u.spi.cause = 0x11))
theorem BootRuns.congr {env : BringUpEnv} {s s' u : State} (h : BootRuns env s u) (himage : s'.spi.image = s.spi.image) (howner : s'.ses.owner = s.ses.owner)
    (hsvn : s'.ses.svnMin = s.ses.svnMin) : BootRuns env s' u := by
  unfold BootRuns
  rw [himage, howner, hsvn]
  exact h
theorem BootRuns.of_spi {env : BringUpEnv} {s u u' : State} (h : BootRuns env s u) (hspi : u'.spi = u.spi) : BootRuns env s u' := by
  unfold BootRuns
  rw [hspi]
  exact h
theorem State.bootFrom_runs (s : State) (env : BringUpEnv) (byB : Bool) : BootRuns env s (s.bootFrom env byB) := by
  unfold State.bootFrom
  extract_lets check svb s1 s2
  have hcheck : check = imageCheck s.spi.image s.ses.owner s.ses.svnMin := rfl
  refine ⟨fun hstrap => ?_, fun hstrap hflash => ?_, fun hstrap hflash hbad => ?_, fun hstrap hflash hgood ha hb => ?_, fun hstrap hflash hgood href => ?_⟩
  · rw [if_pos hstrap]
    exact s2.recovery_stage 6
  · rw [if_neg (by simp [hstrap]), if_pos (by simp [hflash])]
    exact s2.recovery_stage 5
  · rw [if_neg (by simp [hstrap]), if_neg (by simp [hflash]), if_pos (hcheck ▸ hbad)]
    exact (s2.recovery_stage _).1
  · rw [if_neg (by simp [hstrap]), if_neg (by simp [hflash]), if_neg (by rw [hcheck, hgood]; decide), if_pos ⟨ha, hb⟩]
    exact State.bootFails_stage _ 0x10 2
  · rw [if_neg (by simp [hstrap]), if_neg (by simp [hflash]), if_neg (by rw [hcheck, hgood]; decide), if_neg (by rcases href with h | h <;> simp [h])]
    exact State.bootPanel_stage env (State.bootSettings_spi ..).1
/-- It leaves the supply alone, and which die runs it is the one that has the bus (R441). -/
theorem State.bootFrom_supply (s : State) (env : BringUpEnv) (byB : Bool) :
    (s.bootFrom env byB).supply = (s.pwr.powered, s.pwr.vin, if byB then .failed else .active, if byB then .active else if env.svbChecks then .standby else .failed) := by
  unfold State.bootFrom
  extract_lets check svb s1 s2
  have h2 : s2.supply = (s.pwr.powered, s.pwr.vin, if byB then .failed else .active, svb) :=
    (State.supply_of_only (s := s1) (bs := [.spi]) (only_of_outside (by intros; simp [s2])) (by decide) (by decide)).trans (State.svUnsettled_supply _)
  split
  · rw [State.recovery_supply, h2]
  · split
    · rw [State.recovery_supply, h2]
    · split
      · rw [State.recovery_supply, h2]
      · split
        · rw [State.bootFails_supply, State.bootSettings_supply, h2]
        · rw [State.bootPanel_supply, State.bootSettings_supply, h2]
/-- Nor does it change the image region. -/
theorem State.bootFrom_image (s : State) (env : BringUpEnv) (byB : Bool) : (s.bootFrom env byB).spi.image = s.spi.image := by
  have hrecovery (u : State) (c : Nat) : (u.recovery c).spi.image = u.spi.image :=
    (((u.modSpi fun p => { p with stage := .recovery, cause := c }).portsDetect_beside).trans (State.bootLog_beside _ 0x0004 c 0)).field (fun p => p.image) fun _ => rfl
  have hfails (u : State) (c n : Nat) : (u.bootFails c n).spi.image = u.spi.image := by
    unfold State.bootFails
    extract_lets hlt0 s1 s2
    exact (((s2.modSpi fun p => { p with stage := .failed, cause := c }).portsDetect_beside).trans (State.bootLog_beside _ 0x0003 c n)).field (fun p => p.image) fun _ => rfl
  have hpanel (v : State) : (v.bootPanel env).spi.image = v.spi.image := by
    obtain ⟨u, hbeside, -, hu | hu⟩ := v.bootPanel_cases env
    · rw [hu, hfails]
      exact hbeside.field (fun p => p.image) fun _ => rfl
    · rw [hu]
      exact ((State.writeLearned_beside (u.modSpi fun p => { p with ddrZeroed := true })).field (fun p => p.image) fun _ => rfl).trans (hbeside.field (fun p => p.image) fun _ => rfl)
  unfold State.bootFrom
  extract_lets check svb s1 s2
  have h1 : s1.spi = s.spi := spi_of_only (bs := [.hlt]) (only_of_outside (by intros; simp [s1])) (by decide)
  have h2 : s2.spi.image = s.spi.image := by rw [← h1]; rfl
  (repeat' split)
  · rw [hrecovery, h2]
  · rw [hrecovery, h2]
  · rw [hrecovery, h2]
  · rw [hfails, (State.bootSettings_spi ..).2, h2]
  · rw [hpanel, (State.bootSettings_spi ..).2, h2]
/-- Nor does it open a session. -/
theorem State.bootSettings_ents (s : State) (env : BringUpEnv) (v : SvSt) (byB : Bool) : (s.bootSettings env v byB).ses.ents = s.ses.ents := by
  unfold State.bootSettings
  extract_lets best fields s1 s2 s3 s4 s5 s6 s7 s8 s9 s10
  have h3 : s3.ses = s2.ses := rfl
  have h7 : s7.ses.ents = s.ses.ents := by
    simp only [s7, s6, s5, s4, State.modSes_ses, State.modRick_ses, State.modHlt_ses, State.modCap_ses]
    simp only [h3, s2, s1, State.modSpi_ses]
  have ho : Only [.host, .spi] s7 (if v = .failed ∧ byB = false then s10.raisePanel 0x050B 1 2 else s10) := only_of_outside (by intros; split <;> (simp only [s10, s9, s8]; (repeat' split) <;> simp))
  rw [ses_of_only ho (by decide), h7]
theorem State.bootFrom_ents (s : State) (env : BringUpEnv) (byB : Bool) : (s.bootFrom env byB).ses.ents = s.ses.ents := by
  have hrecovery (u : State) (c : Nat) : (u.recovery c).ses = u.ses := ses_of_only (bs := [.host, .spi]) (only_of_outside (by intros; simp)) (by decide)
  have hfails (u : State) (c n : Nat) : (u.bootFails c n).ses = u.ses := ses_of_only (bs := [.tiles, .sites, .spi, .hlt, .pwr, .host]) (only_of_outside (by intros; simp)) (by decide)
  have hpanel (u : State) : (u.bootPanel env).ses = u.ses :=
    ses_of_only (bs := [.tiles, .sites, .fab, .chans, .host, .parts, .clk, .pwr, .spi, .hlt]) (only_of_outside (by intros; simp)) (by decide)
  unfold State.bootFrom
  extract_lets check svb s1 s2
  have h2 : s2.ses = s.ses := ses_of_only (bs := [.spi, .hlt]) (only_of_outside (by intros; simp [s2, s1])) (by decide)
  (repeat' split)
  · rw [hrecovery, h2]
  · rw [hrecovery, h2]
  · rw [hrecovery, h2]
  · rw [hfails, State.bootSettings_ents, h2]
  · rw [hpanel, State.bootSettings_ents, h2]

/-! ### Starts of bring-up -/

/-- A start of bring-up by a panel without power takes the supply on, and runs where SV-A reads the serial memory. -/
theorem State.bringUp_supply (s : State) (env : BringUpEnv) : (s.bringUp env).pwr.powered = true ∧ (s.bringUp env).pwr.vin = env.vin := by
  unfold State.bringUp
  extract_lets s1 s2
  split
  · have h := State.bootFrom_supply s2 env false
    exact ⟨congrArg (fun x => x.1) h, congrArg (fun x => x.2.1) h⟩
  · exact ⟨rfl, rfl⟩
theorem State.bringUp_runs (s : State) (env : BringUpEnv) (h : env.svaReads = true) : BootRuns env s (s.bringUp env) := by
  unfold State.bringUp
  extract_lets s1 s2
  rw [if_pos h]
  exact s2.bootFrom_runs env false
theorem State.bringUp_waits (s : State) (env : BringUpEnv) (h : env.svaReads = false) : (s.bringUp env).spi.stage = s.spi.stage := by
  unfold State.bringUp
  extract_lets s1 s2
  rw [if_neg (by simp [h])]
  rfl
theorem State.bringUp_image (s : State) (env : BringUpEnv) : (s.bringUp env).spi.image = s.spi.image := by
  unfold State.bringUp
  extract_lets s1 s2
  split
  · rw [State.bootFrom_image]
    rfl
  · rfl
theorem State.bringUp_ents (s : State) (env : BringUpEnv) : (s.bringUp env).ses.ents = s.ses.ents := by
  unfold State.bringUp
  extract_lets s1 s2
  split
  · rw [State.bootFrom_ents]
    rfl
  · rfl
theorem State.bringUp_time (s : State) (env : BringUpEnv) : (s.bringUp env).time = s.time :=
  time_of_only (bs := [.tiles, .sites, .fab, .chans, .bev, .host, .parts, .rick, .clk, .pwr, .cap, .spi, .hlt, .ses]) (only_of_outside (by intros; simp)) (by decide)
theorem owner_of_lasting {s u : State} (h : u.lasting = s.lasting) : u.ses.owner = s.ses.owner ∧ u.ses.svnMin = s.ses.svnMin ∧ u.pending = s.pending :=
  ⟨congrArg (fun x => x.2.1) h, congrArg (fun x => x.2.2.1) h, congrArg (fun x => x.1) h⟩

/-- A command of SPI_CMD that is taken (R461, R463). -/
theorem spiCmd_taken {s : State} {port cmd : Nat} {free : Bool} {k : State → Out} (hr : s.spiReach port = true) (hrun : s.spi.running = false)
    (h : free = true ∨ s.hasSession port = true) : spiCmd s port cmd free k = k (s.spiRefuse cmd 0) := by
  unfold spiCmd
  rw [if_neg (by simp [hr]), if_neg (by rcases h with h | h <;> simp [h]), if_neg (by simp [hrun])]

/-- Settles O47. -/
theorem bringUpCompletes : Obligations.BringUpCompletes := by
  unfold Obligations.BringUpCompletes
  extract_lets runs
  have hruns : runs = BootRuns := rfl
  clear_value runs
  subst hruns
  refine ⟨fun env s hp hlow hhigh => ?cold, fun env s hb hp hstop hst hsva => ?takeover, fun s hst hddr hp hstop hready => ?ready, fun env s hr hfree hses => ?reset⟩
  case cold =>
    have hexec : exec (.coldPowerOn env) s = execColdPowerOn env s := rfl
    rw [hexec, execColdPowerOn, when_, if_pos (by simp [hp, hlow, hhigh])]
    extract_lets s0 s1 s2
    obtain ⟨hpow, -⟩ := s2.bringUp_supply env
    have hlasting : s2.lasting = s.lasting := by simp only [s2]; rfl
    have htime : s2.time = 0 := rfl
    have hstage : s2.spi.stage = .rom := rfl
    have himage : s2.spi.image = s.spi.image := rfl
    have hses : s2.ses.owner = s.ses.owner ∧ s2.ses.svnMin = s.ses.svnMin := ⟨rfl, rfl⟩
    clear_value s2
    obtain ⟨howner, hsvn, hpending⟩ := owner_of_lasting ((s2.bringUp_lasting env).trans hlasting)
    exact goesTo_ok ⟨hpow, (s2.bringUp_time env).trans htime, howner, hsvn, hpending, fun h => (s2.bringUp_waits env h).trans hstage,
      fun h => (s2.bringUp_runs env h).congr himage.symm hses.1.symm hses.2.symm⟩
  case takeover =>
    have hexec : exec .svBTakeover s = execSvBTakeover s := rfl
    rw [hexec, execSvBTakeover, hb]
    dsimp only
    rw [when_, if_pos (by simp [hp, hstop, hst, hsva])]
    have hsupply := s.bootFrom_supply env true
    exact goesTo_ok ⟨congrArg (fun x => x.2.2.1) hsupply, congrArg (fun x => x.2.2.2) hsupply, s.bootFrom_runs env true⟩
  case ready =>
    have hexec : exec .ready s = execReady s := rfl
    have hall : allSites.all s.siteReady = true := List.all_eq_true.2 fun p hp => hready p (by have := (mem_rangeFrom.1 hp).2; omega)
    rw [hexec, execReady, when_, if_pos (by simp [hst, hddr, hp, hstop, hall])]
    extract_lets n s1
    have hend := (s1.bootLog_beside 0x0002 s1.bootMsNow n).trans (State.promise_beside _)
    have ho : Only [.host, .spi, .hlt] s1 (s1.bootLog 0x0002 s1.bootMsNow n).promise := only_of_outside (by intros; simp)
    exact goesTo_ok ⟨hend.field (fun p => p.stage) fun _ => rfl, hend.field (fun p => p.bootMs) fun _ => rfl, sites_of_only ho (by decide), tiles_of_only ho (by decide)⟩
  case reset =>
    have hexec : exec (.panelReset 0 env) s = execPanelReset 0 env s := rfl
    have hfree' : (!s.isReady) = true ∨ s.hasSession 0 = true := by simpa using hses
    rw [hexec, execPanelReset, spiCmd_taken hr hfree hfree']
    extract_lets s1 kept s0 s2 s3
    have h1 : Only [.spi] s s1 := only_of_outside (by intros; simp [s1, State.spiRefuse])
    have himage : s1.spi.image = s.spi.image :=
      ((State.bootLog_beside (s.spiRefuse 3 0) 0x000A 0 0).trans ((State.flushLog_beside _).trans (State.writeLearned_beside _))).field (fun p => p.image) fun _ => rfl
    have hkept : Only [.tiles] s3 (kept.foldl (fun s e => if e.2.errSeen then s.modTile e.1 fun T => { T with errAddr := e.2.errAddr, errSeen := true } else s) s3) := by
      refine List.foldlRecOn (motive := fun u : State => Only [.tiles] s3 u) kept _ (Only.refl s3) fun u hu e _ => Only.trans hu ?_
      split
      · exact only_of_outside (by intros; simp)
      · exact Only.refl u
    have hses1 : s1.ses = s.ses := ses_of_only h1 (by decide)
    have hvin : s1.pwr.vin = s.pwr.vin := by rw [pwr_of_only h1 (by decide)]
    obtain ⟨hpow, hvin3⟩ := s2.bringUp_supply { env with vin := s2.pwr.vin }
    have hlasting : s2.lasting = s1.lasting := rfl
    obtain ⟨howner, hsvn, -⟩ := owner_of_lasting ((s2.bringUp_lasting { env with vin := s2.pwr.vin }).trans hlasting)
    refine goesTo_ok ⟨?_, ?_, ?_, ?_, ?_, ?_, fun h => ?_, fun h => ?_⟩
    · rw [pwr_of_only hkept (by decide), hpow]
    · rw [time_of_only hkept (by decide)]
      exact s2.bringUp_time _
    · rw [pwr_of_only hkept (by decide), hvin3]
      exact hvin
    · rw [ses_of_only hkept (by decide), howner, hses1]
    · rw [ses_of_only hkept (by decide), hsvn, hses1]
    · rw [ses_of_only hkept (by decide)]
      exact s2.bringUp_ents _
    · rw [spi_of_only hkept (by decide)]
      exact s2.bringUp_waits { env with vin := s2.pwr.vin } h
    · refine BootRuns.of_spi ?_ (spi_of_only hkept (by decide))
      exact (s2.bringUp_runs { env with vin := s2.pwr.vin } h).congr himage.symm (by rw [← hses1]; rfl) (by rw [← hses1]; rfl)

end Sys2Proof.Machine
end

section
/-! PROOFS. Settings commits, updates, learned records and the log (R454 to R462; O48). -/

namespace Sys2Proof.Machine

open Sys2Proof.Safety (Blk Only GoesTo SpiFree)

/-! ### Ends of updates -/

/-- The end of an update shows its ECODE and leaves all but SPI_CMDSTAT and the log alone (R460, R461). -/
theorem State.updateEnds_spi (s : State) (e : Nat) : (s.updateEnds e).spi.cmdSt = (if e = 0 then 6 else 7) ∧ (s.updateEnds e).spi.cmdEcode = e ∧
    (e = 0 → (s.updateEnds e).spi.progress = 100) ∧ (s.updateEnds e).spi.image = s.spi.image ∧ (s.updateEnds e).spi.imageLen = s.spi.imageLen ∧
    (s.updateEnds e).spi.boot = s.spi.boot ∧ (s.updateEnds e).spi.stage = s.spi.stage := by
  unfold State.updateEnds
  extract_lets s1
  have hlog := s1.bootLog_beside 0x0008 s1.spi.cmdStat (imgSvn s1.spi.upBuf)
  have hs1 : s1.spi = if e = 0 then { s.spi with cmdSt := 6, cmdEcode := 0, progress := 100 } else { s.spi with cmdSt := 7, cmdEcode := e } := rfl
  refine ⟨(hlog.field (fun p => p.cmdSt) fun _ => rfl).trans ?_, (hlog.field (fun p => p.cmdEcode) fun _ => rfl).trans ?_, fun he => (hlog.field (fun p => p.progress) fun _ => rfl).trans ?_,
    (hlog.field (fun p => p.image) fun _ => rfl).trans ?_, (hlog.field (fun p => p.imageLen) fun _ => rfl).trans ?_, (hlog.field (fun p => p.boot) fun _ => rfl).trans ?_,
    (hlog.field (fun p => p.stage) fun _ => rfl).trans ?_⟩ <;> rw [hs1]
  · split <;> rfl
  · split
    · next he => exact he.symm
    · rfl
  · rw [if_pos he]
  all_goals split <;> rfl
theorem State.updateEnds_only (s : State) (e : Nat) : Only [.spi] s (s.updateEnds e) := only_of_outside (by intros; simp)

/-- An update that ends with an ECODE: with 0 the fetched image is in force (R460). -/
def State.updatedTo (s : State) (e : Nat) : State := (if e = 0 then s.modSpi fun p => { p with image := p.upBuf, imageLen := p.upLen } else s).updateEnds e
theorem State.updatedTo_tiles (s : State) (e : Nat) : (s.updatedTo e).tiles = s.tiles := by
  unfold State.updatedTo
  rw [tiles_of_only (State.updateEnds_only _ e) (by decide)]
  split <;> rfl
theorem State.updatedTo_good (s : State) : (s.updatedTo 0).spi.cmdSt = 6 ∧ (s.updatedTo 0).spi.cmdEcode = 0 ∧ (s.updatedTo 0).spi.progress = 100 ∧
    (s.updatedTo 0).spi.image = s.spi.upBuf ∧ (s.updatedTo 0).spi.imageLen = s.spi.upLen := by
  obtain ⟨hst, hcode, hprog, himage, hlen, -, -⟩ := (s.modSpi fun p => { p with image := p.upBuf, imageLen := p.upLen }).updateEnds_spi 0
  exact ⟨hst, hcode, hprog rfl, himage, hlen⟩
theorem State.updatedTo_bad (s : State) {e : Nat} (he : e ≠ 0) : (s.updatedTo e).spi.cmdSt = 7 ∧ (s.updatedTo e).spi.cmdEcode = e ∧ (s.updatedTo e).spi.image = s.spi.image := by
  unfold State.updatedTo
  rw [if_neg he]
  obtain ⟨hst, hcode, -, himage, -⟩ := s.updateEnds_spi e
  rw [if_neg he] at hst
  exact ⟨hst, hcode, himage⟩
theorem State.updatedTo_boot (s : State) (e : Nat) : (s.updatedTo e).spi.boot = s.spi.boot ∧ (s.updatedTo e).inRecovery = s.inRecovery := by
  unfold State.updatedTo State.inRecovery
  obtain ⟨-, -, -, -, -, hboot, hstage⟩ := (if e = 0 then s.modSpi fun p => { p with image := p.upBuf, imageLen := p.upLen } else s).updateEnds_spi e
  rw [hboot, hstage]
  split <;> exact ⟨rfl, rfl⟩

/-- An update that ends checks what was written, or fails in one of its steps (R460). -/
theorem exec_updateDone {x : UpdateEnd} {s : State} (hsv : s.svRuns = true)
    (hcond : (s.spi.cmdSt = 5 ∧ (x.result = 0 ∨ x.result = 10)) ∨ ((s.spi.cmdSt = 3 ∨ s.spi.cmdSt = 4 ∨ s.spi.cmdSt = 5) ∧ x.result = 9)) :
    let e := if x.result = 0 then s.updateCheck else x.result
    exec (.updateDone x) s = match (s.updatedTo e).spi.boot with
      | some env => if e == 0 && (s.updatedTo e).inRecovery && !x.strap
          then .next (({ (s.updatedTo e).flushLog.unpower (s.updatedTo e).flushLog.pwr.vin with time := 0 } : State).bringUp { env with strapRecov := false, strapProv := x.prov }) else .next (s.updatedTo e)
      | none => .next (s.updatedTo e) := by
  have hexec : exec (.updateDone x) s = execUpdateDone x s := rfl
  intro e
  rw [hexec, execUpdateDone, when_, if_pos]
  · rfl
  · rcases hcond with ⟨h5, h | h⟩ | ⟨h | h | h, h9⟩ <;> simp [*]
theorem exec_updateDone_ends {x : UpdateEnd} {s : State} {e : Nat} (hsv : s.svRuns = true)
    (hcond : (s.spi.cmdSt = 5 ∧ (x.result = 0 ∨ x.result = 10)) ∨ ((s.spi.cmdSt = 3 ∨ s.spi.cmdSt = 4 ∨ s.spi.cmdSt = 5) ∧ x.result = 9))
    (he : (if x.result = 0 then s.updateCheck else x.result) = e) (hcold : e ≠ 0 ∨ s.inRecovery = false ∨ x.strap = true ∨ s.spi.boot = none) :
    exec (.updateDone x) s = .next (s.updatedTo e) := by
  obtain ⟨hboot, hrec⟩ := s.updatedTo_boot e
  rw [exec_updateDone hsv hcond, he]
  dsimp only
  split
  · next env henv =>
    rw [if_neg]
    rcases hcold with h | h | h | h
    · simp [h]
    · simp [hrec, h]
    · simp [h]
    · rw [hboot, h] at henv; cases henv
  · rfl

/-! ### Settings copies -/

theorem Spi.putCopy_copyA (p : Spi) (c : Option Settings) : (p.putCopy c).copyA = if p.toB then p.copyA else c := by unfold Spi.putCopy; split <;> rfl
theorem Spi.putCopy_copyB (p : Spi) (c : Option Settings) : (p.putCopy c).copyB = if p.toB then c else p.copyB := by unfold Spi.putCopy; split <;> rfl

/-! ### The first fetch of an update -/

/-- With bytes to fetch, a port that issues reads is asked for them, and nothing of the update has come yet (R460). -/
theorem State.updateAsk_asks {s : State} (hmore : s.spi.upAsked < s.spi.upLen) (hmute : (s.port 0).mute = false) :
    s.updateAsk.spi = { s.spi with upAsked := s.spi.upAsked + min 4096 (s.spi.upLen - s.spi.upAsked) } ∧ s.updateAsk.tiles = s.tiles := by
  unfold State.updateAsk
  dsimp only
  rw [if_pos hmore, if_neg (by simp [hmute])]
  exact ⟨rfl, rfl⟩
/-- A port that issues nothing is a host read failure (R461). -/
theorem State.updateAsk_lost {s : State} (hmore : s.spi.upAsked < s.spi.upLen) (hmute : (s.port 0).mute = true) (hst : s.spi.cmdSt = 1) : s.updateAsk = s.updateEnds 3 := by
  unfold State.updateAsk State.updateLost
  dsimp only
  rw [if_pos hmore, if_pos hmute, if_pos hst]

/-! ### Learned records -/

theorem lrBytes_append_check (l : List Learned) : lrBytes (l.map fun e => { e with chk := e.check }) = lrBytes l := by
  unfold lrBytes
  rw [List.foldl_map]
  rfl

/-- The serial memory with its half in use marked: where none was, a new one is begun (R455). -/
def Spi.opened (p : Spi) : Spi := if (p.half p.lrUseB).complete then p else { p.modHalf p.lrUseB fun _ => { gen := 1, complete := true } with lrPhase := 0 }
/-- The serial memory after its waiting records have been appended to the half in use, and to the other where a compaction fills it (R455). -/
def Spi.appended (p : Spi) : Spi :=
  let q := p.opened.modHalf p.opened.lrUseB fun h => h.append p.opened.lrWait
  let q := if p.opened.lrPhase = 1 then q.modHalf (!p.opened.lrUseB) fun h => h.append p.opened.lrWait else q
  { q.compactStep with lrWait := [] }
theorem State.writeLearned_spi {s : State} (h : s.spi.holdsWrites = false) : s.writeLearned.spi = s.spi.appended := by
  unfold State.writeLearned
  rw [if_neg (by simp [h])]
  rfl
theorem Spi.half_congr {p q : Spi} (ha : p.lrA = q.lrA) (hb : p.lrB = q.lrB) (b : Bool) : p.half b = q.half b := by
  unfold Spi.half
  rw [ha, hb]
@[simp] theorem Spi.modHalf_half (p : Spi) (b c : Bool) (f : LrHalf → LrHalf) : (p.modHalf b f).half c = if c = b then f (p.half b) else p.half c := by
  cases b <;> cases c <;> rfl
@[simp] theorem Spi.modHalf_lrUseB (p : Spi) (b : Bool) (f : LrHalf → LrHalf) : (p.modHalf b f).lrUseB = p.lrUseB := by cases b <;> rfl
@[simp] theorem Spi.modHalf_lrPhase (p : Spi) (b : Bool) (f : LrHalf → LrHalf) : (p.modHalf b f).lrPhase = p.lrPhase := by cases b <;> rfl
@[simp] theorem Spi.modHalf_lrWait (p : Spi) (b : Bool) (f : LrHalf → LrHalf) : (p.modHalf b f).lrWait = p.lrWait := by cases b <;> rfl

theorem Spi.opened_of_complete {p : Spi} (h : (p.half p.lrUseB).complete = true) : p.opened = p := if_pos h
theorem Spi.opened_of_blank {p : Spi} (h : (p.half p.lrUseB).complete = false) :
    p.opened.half p.lrUseB = { gen := 1, complete := true } ∧ p.opened.lrUseB = p.lrUseB ∧ p.opened.lrPhase = 0 ∧ p.opened.lrWait = p.lrWait := by
  unfold Spi.opened
  rw [if_neg (by simp [h])]
  exact ⟨(Spi.half_congr (q := Spi.modHalf _ _ _) rfl rfl _).trans (by simp), by simp, rfl, by simp⟩
theorem Spi.appended_of_phase {p : Spi} (hph : p.opened.lrPhase ≠ 1) :
    p.appended = { (p.opened.modHalf p.opened.lrUseB fun h => h.append p.opened.lrWait).compactStep with lrWait := [] } := by
  simp only [Spi.appended, if_neg hph]
/-- A half that is marked takes the records as it is. -/
theorem Spi.appended_of_complete {p : Spi} (h : (p.half p.lrUseB).complete = true) (hph : p.lrPhase ≠ 1) :
    p.appended = { (p.modHalf p.lrUseB fun h => h.append p.lrWait).compactStep with lrWait := [] } := by
  have ho := Spi.opened_of_complete h
  rw [Spi.appended_of_phase (by rwa [ho]), ho]
theorem LrHalf.append_complete (h : LrHalf) (l : List Learned) : (h.append l).complete = h.complete := rfl
theorem Spi.compactStep_of_room {p : Spi} (hph : p.lrPhase = 0) (hroom : lrBytes (p.half p.lrUseB).entries * 10 < 0x200000 * 9) : p.compactStep = p := by
  unfold Spi.compactStep
  dsimp only
  rw [if_neg (by omega), if_neg (by omega), if_neg (by omega)]
theorem Spi.compactStep_of_full {p : Spi} (hph : p.lrPhase = 0) (hfull : 0x200000 * 9 ≤ lrBytes (p.half p.lrUseB).entries * 10) :
    p.compactStep = { p.modHalf (!p.lrUseB) fun _ => ({ gen := (p.half p.lrUseB).gen + 1 } : LrHalf).append (compactAll (p.half p.lrUseB).entries (p.half p.lrUseB).entries) with lrPhase := 1 } := by
  unfold Spi.compactStep
  dsimp only
  rw [if_neg (by omega), if_neg (by omega), if_pos hfull]
theorem Spi.compactStep_of_filled {p : Spi} (hph : p.lrPhase = 1) :
    p.compactStep = { p.modHalf (!p.lrUseB) fun x => { x with complete := true } with lrUseB := !p.lrUseB, lrPhase := 2 } := by
  unfold Spi.compactStep
  dsimp only
  rw [if_pos hph]
theorem Spi.compactStep_of_swapped {p : Spi} (hph : p.lrPhase = 2) : p.compactStep = { p.modHalf (!p.lrUseB) fun _ => {} with lrPhase := 0 } := by
  unfold Spi.compactStep
  dsimp only
  rw [if_neg (by omega), if_pos hph]

/-- Settles O48. -/
theorem serialMemoryCompletes : Obligations.SerialMemoryCompletes := by
  unfold Obligations.SerialMemoryCompletes
  extract_lets staged
  refine ⟨fun s h hrec hok => ?commit, fun s h hrec hok => ?refused, fun f s hf hsv => ?commitDone, fun s hr hrun hfree hlen hok hmute => ?update, fun s hr hrun hfree hlen => ?badLength,
    fun s hr hrun hfree hlen hok hmute => ?muted, fun strap prov s hsv hst hcheck hcold => ?done, fun prov env s hsv hst hcheck hrec hb => ?restarts, fun r strap prov s hsv hr => ?fails,
    fun strap prov s hsv hst hcheck => ?unverified, fun s hsv hw hh => ?learned, fun s hsv hl hh => ?flush⟩
  case commit =>
    have hexec : exec (.settingsCommit 0) s = execSettingsCommit 0 s := rfl
    obtain ⟨hreach, hses, hrun⟩ := h
    rw [hexec, execSettingsCommit, if_neg (by simp [hrec]), spiCmd_taken hreach hrun (.inr hses)]
    have hfields : settingsOk (memGetList (s.spiRefuse 2 0).spi.staging 0 512) = true := hok
    dsimp only
    rw [if_pos hfields]
    exact goesTo_ok ⟨rfl, only_of_outside (by intros; simp [State.spiRefuse])⟩
  case refused =>
    have hexec : exec (.settingsCommit 0) s = execSettingsCommit 0 s := rfl
    obtain ⟨hreach, hses, hrun⟩ := h
    rw [hexec, execSettingsCommit, if_neg (by simp [hrec]), spiCmd_taken hreach hrun (.inr hses)]
    have hfields : settingsOk (memGetList (s.spiRefuse 2 0).spi.staging 0 512) = false := hok
    dsimp only
    rw [if_neg (by rw [hfields]; decide)]
    exact goesTo_ok ⟨rfl, only_of_outside (by intros; simp [State.spiRefuse])⟩
  case commitDone =>
    intro n inB w
    have hexec : exec .settingsCommitDone s = execSettingsCommitDone s := rfl
    rw [hexec, execSettingsCommitDone, hf]
    show GoesTo (when_ s.svRuns s _) _
    rw [when_, if_pos hsv]
    extract_lets c e s1 s2
    have hend : SameBeside s2 (if e = 0 then s2.bootLog 0x0009 c.seq.toNat 0 else s2) := by
      split
      · exact State.bootLog_beside ..
      · exact .refl _
    have hA : s2.spi.copyA = if inB then s.spi.copyA else if e = 0 then some c else none := Spi.putCopy_copyA ..
    have hB : s2.spi.copyB = if inB then (if e = 0 then some c else none) else s.spi.copyB := Spi.putCopy_copyB ..
    have hw : (if e = 0 then some c else none) = w := by
      by_cases hgood : Config.freeBool s.freeN = true
      · have he : e = 0 := if_pos hgood
        rw [if_pos he]
        exact (if_pos hgood).symm
      · have he : e ≠ 0 := by
          simp only [e, if_neg hgood]
          split <;> decide
        rw [if_neg he]
        exact (if_neg hgood).symm
    refine goesTo_ok ⟨hend.field (fun p => p.committing) fun _ => rfl, ?_, ?_, fun hgood => ?_, fun hbad => ?_⟩
    · exact (hend.field (fun p => p.copyA) fun _ => rfl).trans (hA.trans (by rw [hw]))
    · exact (hend.field (fun p => p.copyB) fun _ => rfl).trans (hB.trans (by rw [hw]))
    · have he : e = 0 := if_pos hgood
      exact ⟨(hend.field (fun p => p.cmdSt) fun _ => rfl).trans (if_pos he), (hend.field (fun p => p.cmdEcode) fun _ => rfl).trans he⟩
    · have he : e = 9 ∨ e = 10 := by
        simp only [e, hbad, Bool.false_eq_true, if_false]
        split <;> simp
      refine ⟨(hend.field (fun p => p.cmdSt) fun _ => rfl).trans (if_neg (by omega)), ?_⟩
      rcases he with he | he
      · exact .inl ((hend.field (fun p => p.cmdEcode) fun _ => rfl).trans he)
      · exact .inr ((hend.field (fun p => p.cmdEcode) fun _ => rfl).trans he)
  case update =>
    have hexec : exec (.update 0) s = execUpdate 0 s := rfl
    rw [hexec, execUpdate, spiCmd_taken hr hrun hfree]
    rw [if_neg (by simp [State.spiRefuse, hok, hlen])]
    have hask := State.updateAsk_asks (s := (s.spiRefuse 1 0).modSpi fun p => { p with cmdSt := 1, progress := 0, upBuf := [], upGot := 0, upAsked := 0 }) (show 0 < s.spi.upLen by omega) hmute
    obtain ⟨hspi, htiles⟩ := hask
    refine goesTo_ok ?_
    rw [hspi, htiles]
    exact ⟨rfl, rfl, rfl, rfl, rfl, rfl, rfl⟩
  case badLength =>
    have hexec : exec (.update 0) s = execUpdate 0 s := rfl
    rw [hexec, execUpdate, spiCmd_taken hr hrun hfree]
    rw [if_pos (show imgLenOk ((s.spiRefuse 1 0).spi.upLen - 0x3000) = false ∨ (s.spiRefuse 1 0).spi.upLen < 0x3000 from Or.comm.1 hlen)]
    obtain ⟨hst, hcode, -, himage, -⟩ := ((s.spiRefuse 1 0).modSpi fun p => { p with upBuf := [] }).updateEnds_spi 8
    exact goesTo_ok ⟨hst, hcode, himage⟩
  case muted =>
    have hexec : exec (.update 0) s = execUpdate 0 s := rfl
    rw [hexec, execUpdate, spiCmd_taken hr hrun hfree]
    rw [if_neg (by simp [State.spiRefuse, hok, hlen])]
    rw [State.updateAsk_lost (s := (s.spiRefuse 1 0).modSpi fun p => { p with cmdSt := 1, progress := 0, upBuf := [], upGot := 0, upAsked := 0 }) (show 0 < s.spi.upLen by omega) hmute rfl]
    obtain ⟨hst, hcode, -, himage, -⟩ := ((s.spiRefuse 1 0).modSpi fun p => { p with cmdSt := 1, progress := 0, upBuf := [], upGot := 0, upAsked := 0 }).updateEnds_spi 3
    exact goesTo_ok ⟨hst, hcode, himage⟩
  case done =>
    obtain ⟨h1, h2, h3, h4, h5⟩ := s.updatedTo_good
    exact goesTo_of_eq (exec_updateDone_ends hsv (.inl ⟨hst, .inl rfl⟩) hcheck (.inr hcold)) ⟨h1, h2, h3, h4, h5, s.updatedTo_tiles 0⟩
  case restarts =>
    obtain ⟨hboot, hrec'⟩ := s.updatedTo_boot 0
    have hexec : exec (.updateDone ⟨0, false, prov⟩) s =
        .next (({ (s.updatedTo 0).flushLog.unpower (s.updatedTo 0).flushLog.pwr.vin with time := 0 } : State).bringUp { env with strapRecov := false, strapProv := prov }) := by
      rw [exec_updateDone hsv (.inl ⟨hst, .inl rfl⟩)]
      dsimp only
      rw [if_pos rfl, hcheck, hboot, hb]
      dsimp only
      rw [if_pos (by simp [hrec', hrec])]
    generalize hv : ({ (s.updatedTo 0).flushLog.unpower (s.updatedTo 0).flushLog.pwr.vin with time := 0 } : State) = v at hexec
    have htime : v.time = 0 := by rw [← hv]
    have himage : v.spi.image = s.spi.upBuf := by
      have hflush := State.flushLog_beside (s.updatedTo 0)
      obtain ⟨-, -, -, himage, -⟩ := s.updatedTo_good
      rw [← hv]
      exact (hflush.field (fun p => p.image) fun _ => rfl).trans himage
    have hlasting : v.lasting = s.lasting := by
      have hflush : (s.updatedTo 0).flushLog.lasting = s.lasting := by simp [State.updatedTo]
      rw [← hv, ← hflush]
      rfl
    obtain ⟨howner, hsvn, -⟩ := owner_of_lasting ((v.bringUp_lasting { env with strapRecov := false, strapProv := prov }).trans hlasting)
    obtain ⟨hpow, -⟩ := v.bringUp_supply { env with strapRecov := false, strapProv := prov }
    exact goesTo_of_eq hexec ⟨hpow, (v.bringUp_time _).trans htime, (v.bringUp_image _).trans himage, howner, hsvn⟩
  case fails =>
    have hne : r ≠ 0 := by omega
    obtain ⟨h1, h2, h3⟩ := s.updatedTo_bad hne
    refine goesTo_of_eq (exec_updateDone_ends hsv ?_ (if_neg hne) (.inl hne)) ⟨h1, h2, h3, s.updatedTo_tiles r⟩
    dsimp only
    omega
  case unverified =>
    obtain ⟨h1, h2, h3⟩ := s.updatedTo_bad hcheck
    exact goesTo_of_eq (exec_updateDone_ends hsv (.inl ⟨hst, .inl rfl⟩) (if_pos rfl) (.inl hcheck)) ⟨h1, h2, h3, s.updatedTo_tiles _⟩
  case learned =>
    have hexec : exec .learnedAppend s = execLearnedAppend s := rfl
    have hcond : (s.svRuns && (!s.spi.lrWait.isEmpty || s.spi.lrPhase != 0)) = true := by rcases hw with h | h <;> simp [hsv, h]
    rw [hexec, execLearnedAppend, when_, if_pos hcond]
    have hspi : s.writeLearned.spi = s.spi.appended := State.writeLearned_spi hh
    refine goesTo_ok ⟨by rw [hspi]; rfl, only_of_outside (by intros; simp), ?_⟩
    rw [hspi]
    refine ⟨fun hc hph hroom => ?_, fun hc hph hfull => ?_, fun hc hph => ?_, fun hc hph => ?_, fun hc hroom => ?_⟩
    · rw [Spi.appended_of_complete hc (by omega), Spi.compactStep_of_room (by simp [hph]) (by simpa using hroom)]
      have hhalf (c : Bool) := Spi.half_congr (p := { s.spi.modHalf s.spi.lrUseB fun h => h.append s.spi.lrWait with lrWait := [] }) (q := s.spi.modHalf s.spi.lrUseB fun h => h.append s.spi.lrWait) rfl rfl c
      rw [hhalf, hhalf]
      simp [hph]
    · rw [Spi.appended_of_complete hc (by omega), Spi.compactStep_of_full (by simp [hph]) (by simpa using hfull)]
      exact ⟨(Spi.half_congr (q := Spi.modHalf _ _ _) rfl rfl _).trans (by simp), (Spi.half_congr (q := Spi.modHalf _ _ _) rfl rfl _).trans (by simp), by simp, rfl⟩
    · have hhalf : s.spi.appended = { ((s.spi.modHalf s.spi.lrUseB fun h => h.append s.spi.lrWait).modHalf (!s.spi.lrUseB) fun h => h.append s.spi.lrWait).compactStep with lrWait := [] } := by
        simp only [Spi.appended, Spi.opened_of_complete hc, if_pos hph]
      rw [hhalf, Spi.compactStep_of_filled (by simp [hph])]
      exact ⟨(Spi.half_congr (q := Spi.modHalf _ _ _) rfl rfl _).trans (by simp), by simp, rfl⟩
    · rw [Spi.appended_of_complete hc (by omega), Spi.compactStep_of_swapped (by simp [hph])]
      exact ⟨(Spi.half_congr (q := Spi.modHalf _ _ _) rfl rfl _).trans (by simp), (Spi.half_congr (q := Spi.modHalf _ _ _) rfl rfl _).trans (by simp), by simp, rfl⟩
    · obtain ⟨hhalf, huse, hph, hwait⟩ := Spi.opened_of_blank hc
      have hbytes : lrBytes (({ gen := 1, complete := true } : LrHalf).append s.spi.lrWait).entries = lrBytes s.spi.lrWait := lrBytes_append_check s.spi.lrWait
      rw [Spi.appended_of_phase (by omega), Spi.compactStep_of_room (by simp [hph]) (by simpa [huse, hhalf, hwait, hbytes] using hroom)]
      exact ⟨(Spi.half_congr (q := Spi.modHalf _ _ _) rfl rfl _).trans (by simp [huse, hhalf, hwait]), by simp [huse]⟩
  case flush =>
    have hexec : exec .logFlush s = execLogFlush s := rfl
    rw [hexec, execLogFlush, when_, if_pos (by rcases hl with h | h <;> simp [hsv, h]), State.flushLog, if_neg (by simp [hh])]
    refine goesTo_ok ⟨?_, ?_, fun h => ?_, fun h => ?_, only_of_outside (by intros; simp)⟩
    · rfl
    · rfl
    · rw [State.modSpi_spi, if_pos h]
      dsimp only
      rw [List.append_nil]
    · rw [State.modSpi_spi, if_neg h]
      dsimp only
      rw [List.foldl_append]
      have hcode : bitsOf (BitVec.ofNat 64 (0xB * 2 ^ 48 + 7 * 2 ^ 20)) 63 48 = 0xB := by decide
      exact ⟨_, List.getLast?_concat .., hcode, rfl⟩

end Sys2Proof.Machine
end

section
/-! PROOFS. Sweep windows, sweeps of margins, load classes and cell ceilings (R484 to R490; O52). -/

namespace Sys2Proof.Machine

open Sys2Proof.Safety (Blk Only GoesTo Served)

/-! ### The begin and the end of a sweep at its site -/

@[simp] theorem State.raiseSite_hlt (s : State) (code p d0 d1 : Nat) : (s.raiseSite code p d0 d1).hlt = s.hlt := s.raise_hlt _
@[simp] theorem State.learnMargin_site (s : State) (p q : Nat) : (s.learnMargin p).site q = s.site q := rfl
@[simp] theorem State.learnMargin_tiles (s : State) (p : Nat) : (s.learnMargin p).tiles = s.tiles := rfl
@[simp] theorem State.learnMargin_sites (s : State) (p : Nat) : (s.learnMargin p).sites = s.sites := rfl
@[simp] theorem State.learnMargin_hlt (s : State) (p : Nat) : (s.learnMargin p).hlt = s.hlt := rfl
@[simp] theorem State.ceilingChanged_site (s : State) (p c k q : Nat) : (s.ceilingChanged p c k).site q = s.site q := by simp [State.ceilingChanged]
@[simp] theorem State.relimit_tiles (s : State) (p : Nat) : (s.relimit p).tiles = s.tiles := rfl
theorem State.relimit_only (s : State) (p : Nat) : Only [.sites, .clk] s (s.relimit p) := only_of_outside (by intros; simp)
@[simp] theorem State.relimit_hlt (s : State) (p : Nat) : (s.relimit p).hlt = s.hlt := rfl

/-- A site that is active without a step change and is asked to bank does so at once, at the rails of a bank (R388). -/
theorem State.bankNow_self {s : State} {p : Nat} (hw : (s.site p).clk.wantsBank = true) (hst : (s.site p).st = .active) (hph : (s.site p).clk.ph = .none) :
    (s.bankNow p).site p = ({ s.site p with st := .banked, clk := { (s.site p).clk with ph := .none } } : Site).withRails s.time 550 650 := by
  unfold State.bankNow
  dsimp only
  rw [if_neg (by rw [hw]; decide), if_neg (by rw [hst]; exact fun h => absurd h.1 (by decide)), if_pos ⟨hst, .inl hph⟩, State.setRails_site, if_pos rfl, State.modSite_site,
    if_pos rfl]
  rfl

/-- The end of a sweep keeps what its site is beside the bank that the sweep asked for. -/
theorem State.sweepEnds_bankSweep (s : State) (p : Nat) : ((s.sweepEnds p).site p).clk.bankSweep = false := by
  unfold State.sweepEnds
  split
  · rw [State.unbankNow_field (fun x => x.clk.bankSweep) (fun _ _ _ _ => congrArg SiteClk.bankSweep (Site.withRails_clk ..)) (fun _ _ => rfl), State.modSite_site, if_pos rfl]
  · next h => exact Bool.eq_false_iff.2 h
theorem State.sweepEnds_site_other (s : State) {p q : Nat} (h : q ≠ p) : (s.sweepEnds p).site q = s.site q := by
  unfold State.sweepEnds
  split
  · rw [State.unbankNow_site_other _ h, State.modSite_site, if_neg h]
  · rfl
theorem State.sweepEnds_self (s : State) (p : Nat) : ((s.sweepEnds p).site p).st = (s.site p).st ∧ ((s.sweepEnds p).site p).mrg = (s.site p).mrg := by
  unfold State.sweepEnds
  split
  · rw [State.unbankNow_field (fun x => x.st) (fun _ _ _ _ => Site.withRails_st ..) (fun _ _ => rfl),
      State.unbankNow_field (fun x => x.mrg) (fun _ _ _ _ => Site.withRails_mrg ..) (fun _ _ => rfl), State.modSite_site, if_pos rfl]
    exact ⟨rfl, rfl⟩
  · exact ⟨rfl, rfl⟩
theorem State.sweepEnds_only (s : State) (p : Nat) : Only [.sites] s (s.sweepEnds p) := only_of_outside (by intros; simp)

/-! ### What a sweep measures -/

/-- The record of the margins after a sweep: `replan` and the word of the sweep's time (R487, R488). -/
def State.sweptMrg (s : State) (p : Nat) (m : SweepMeas) : SiteMrg :=
  { (s.site p).mrg.replan m s.hlt.guard s.hlt.vsguard s.freeN s.time with sweptWord := BitVec.ofNat 64 (s.spi.bootNum.toNat * 2 ^ 32 + s.bootSec % 2 ^ 32) }
theorem State.sweptMrg_sweeps (s : State) (p : Nat) (m : SweepMeas) : (s.sweptMrg p m).sweeps = (s.site p).mrg.sweeps + 1 ∧ (s.sweptMrg p m).lastSweep = some s.time :=
  ⟨rfl, rfl⟩

/-- A sweep's measurement writes its site's margins and counts a logical site's sweep; else it reports, records and suspects tiles. -/
theorem State.suspectTiles_only (s : State) (l : List Nat) : Only [.tiles] s (l.foldl (fun s t => s.modTile t fun T => { T with st := if T.st = .active then .suspect else T.st }) s) :=
  only_of_outside (by intros; exact outside_foldl _ (by intros; simp) _ _)
theorem State.sweepMeasured_writes (s : State) (p : Nat) (m : SweepMeas) : (s.sweepMeasured p m).sites = (s.modSite p fun x => { x with mrg := s.sweptMrg p m }).sites ∧
    (s.sweepMeasured p m).hlt = if (s.logical p).isSome then { s.hlt with swept := s.hlt.swept + 1 } else s.hlt := by
  unfold State.sweepMeasured
  extract_lets x y0 y s1 s2 s3 s4 s5 top
  have h3 : s3.sites = s2.sites ∧ s3.hlt = if (s.logical p).isSome then { s.hlt with swept := s.hlt.swept + 1 } else s.hlt := by
    have hlog : (s2.logical p).isSome = (s.logical p).isSome := rfl
    unfold s3
    rw [hlog]
    by_cases h : (s.logical p).isSome = true
    · rw [if_pos h, if_pos h]
      exact ⟨rfl, rfl⟩
    · rw [if_neg h, if_neg h]
      exact ⟨rfl, rfl⟩
  have h5 : s5.sites = s3.sites ∧ s5.hlt = s3.hlt := by
    unfold s5 s4
    split <;> simp
  have hmod : s2.sites = (s.modSite p fun x => { x with mrg := s.sweptMrg p m }).sites := rfl
  rw [← hmod, ← h3.1, ← h3.2, ← h5.1, ← h5.2]
  split
  · have honly := State.suspectTiles_only (s5.raiseSite 0x0513 p (s5.siteSource p) top) (s5.tilesOf p)
    exact ⟨(sites_of_only honly (by decide)).trans (State.raiseSite_sites ..), (hlt_of_only honly (by decide)).trans (State.raiseSite_hlt ..)⟩
  · exact ⟨rfl, rfl⟩

theorem State.sweepMeasured_site (s : State) (p q : Nat) (m : SweepMeas) :
    (s.sweepMeasured p m).site q = if q = p then { s.site p with mrg := s.sweptMrg p m } else s.site q := by
  unfold State.site
  rw [(s.sweepMeasured_writes p m).1]
  exact State.modSite_site ..

/-! ### The commands -/

theorem exec_marginSweep_begins {s : State} {p : Nat} {m : SweepMeas} (hp : p < 272) (hb : m.begins = true) (h : s.maySweep p = true) : exec (.marginSweep p m) s =
    ok ((s.modSite p fun x => { x with clk := { x.clk with bankSweep := true }, mrg := { x.mrg with sweepAt := s.time } }).bankNow p).promise := by
  have hexec : exec (.marginSweep p m) s = execMarginSweep p m s := rfl
  rw [hexec, execMarginSweep, onSite, if_pos hp, if_pos hb, when_, if_pos h]
theorem exec_marginSweep_ends {s : State} {p : Nat} {m : SweepMeas} (hp : p < 272) (hb : m.begins = false) (h : s.mayMeasure p = true) : exec (.marginSweep p m) s =
    if (s.site p).clk.bankSweep = true ∧ (s.site p).mrg.sweepAt + 40 * ms < s.time then ok (s.sweepEnds p).promise else ok (((s.sweepMeasured p m).sweepEnds p).relimit p).promise := by
  have hexec : exec (.marginSweep p m) s = execMarginSweep p m s := rfl
  rw [hexec, execMarginSweep, onSite, if_pos hp, if_neg (by rw [hb]; decide), when_, if_pos h]

theorem State.maySweep_idle {s : State} {p : Nat} (h : s.maySweep p = true) : (s.site p).st = .active ∧ (s.site p).clk.ph = .none := by
  unfold State.maySweep at h
  dsimp only at h
  split at h
  · simp at h
  · simp only [Bool.and_eq_true, beq_iff_eq] at h
    tauto
theorem State.mayMeasure_banked {s : State} {p : Nat} (h : s.mayMeasure p = true) : (s.site p).st = .banked := by
  simp only [State.mayMeasure, Bool.and_eq_true, beq_iff_eq] at h
  exact h.1.2

theorem exec_loadClassUpdate {s : State} {p b : Nat} {surged : Bool} (hp : p < 272) : ∃ cls at_, exec (.loadClassUpdate p b surged) s =
      ok ((s.modSite p fun x => { x with mrg := { x.mrg with cls, surgeAt := at_ } }).relimit p) ∧
    at_ = (if decide (10 ≤ b) && surged then some s.time else (s.site p).mrg.surgeAt) ∧
    ((decide (10 ≤ b) && surged) = true → cls = 2) ∧
    ((decide (10 ≤ b) && surged) = false → (∀ t, (s.site p).mrg.surgeAt = some t → s.time < t + 10 * ms → cls = 2) ∧
      ((∀ t, (s.site p).mrg.surgeAt = some t → t + sec ≤ s.time) → cls = if 10 ≤ b then 1 else 0)) := by
  have hexec : exec (.loadClassUpdate p b surged) s = execLoadClassUpdate p b surged s := rfl
  rw [hexec, execLoadClassUpdate, onSite, if_pos hp]
  refine ⟨_, _, rfl, rfl, fun hs => if_pos (.inl hs), fun hs => ⟨fun t ht hk => if_pos (.inr ?kept), fun hold => if_neg ?gone⟩⟩
  case kept =>
    simp only [hs, ht, Bool.false_eq_true, if_false, decide_eq_true_eq]
    have : (10 : Nat) * ms ≤ sec := by decide
    split <;> omega
  case gone =>
    simp only [hs, Bool.false_eq_true, if_false, false_or]
    cases ht : (s.site p).mrg.surgeAt with
    | none => simp
    | some t =>
      have := hold t ht
      have : (10 : Nat) * ms ≤ sec := by decide
      simp only [decide_eq_true_eq]
      split <;> omega
theorem loadClass_written (s : State) (p cls : Nat) (at_ : Option Nat) :
    let u := (s.modSite p fun x => { x with mrg := { x.mrg with cls, surgeAt := at_ } }).relimit p
    (u.site p).mrg.cls = cls ∧ (u.site p).mrg.surgeAt = at_ ∧ (∀ q, q ≠ p → u.site q = s.site q) ∧ Only [.sites, .clk] s u := by
  intro u
  have hmrg : (u.site p).mrg = { (s.site p).mrg with cls, surgeAt := at_ } := by
    rw [State.relimit_field (fun x => x.mrg) (fun _ _ _ _ => rfl), State.modSite_site, if_pos rfl]
  refine ⟨by rw [hmrg], by rw [hmrg], fun q hq => ?_, only_of_outside (by intros; simp [u])⟩
  rw [State.relimit_site_other _ hq, State.modSite_site, if_neg hq]

/-- Settles O52. -/
theorem marginsComplete : Obligations.MarginsComplete := by
  refine ⟨fun v s h hen hmin => ?grantOpens, fun v s h hen => ?grantEnds, fun s hopen hdue => ?windowEnds, fun p m s hp hb h => ?sweepBegins, fun p m s hp hb h hin => ?sweepMeasures,
    fun p m s hp hb h hbank hlate => ?sweepLate, fun p s hp hsv hover hsince => ?sweepOverdue, fun p b s hp hb => ?surges, fun p b t s hp hat hin => ?surgeLasts,
    fun p b s hp hold => ?noSurge, fun p k s hp hk hsite hmax hat hsv => ?ceilingRises⟩
  case grantOpens =>
    have hexec : exec (.sweepGrant 0 v) s = execSweepGrant 0 v s := rfl
    rw [hexec, execSweepGrant, gated0_of_managed h.1, when_, if_pos h.2]
    dsimp only
    rw [if_pos ⟨hen, hmin⟩, hen]
    exact goesTo_ok ⟨rfl, only_of_outside (by intros; simp)⟩
  case grantEnds =>
    have hexec : exec (.sweepGrant 0 v) s = execSweepGrant 0 v s := rfl
    rw [hexec, execSweepGrant, gated0_of_managed h.1, when_, if_pos h.2]
    dsimp only
    rw [if_neg (by rw [hen]; simp), hen]
    exact goesTo_ok ⟨rfl, only_of_outside (by intros; simp)⟩
  case windowEnds =>
    have hexec : exec .sweepWindowEnd s = execSweepWindowEnd s := rfl
    rw [hexec, execSweepWindowEnd, when_, if_pos (by simp [hopen, hdue])]
    rfl
  case sweepBegins =>
    obtain ⟨hst, hph⟩ := State.maySweep_idle h
    rw [exec_marginSweep_begins hp hb h]
    generalize hs1 : (s.modSite p fun x => { x with clk := { x.clk with bankSweep := true }, mrg := { x.mrg with sweepAt := s.time } }) = s1
    have hsite : s1.site p = { s.site p with clk := { (s.site p).clk with bankSweep := true }, mrg := { (s.site p).mrg with sweepAt := s.time } } := by
      rw [← hs1, State.modSite_site, if_pos rfl]
    have hbank : (s1.bankNow p).site p = _ := State.bankNow_self (by rw [hsite]; simp [SiteClk.wantsBank]) (by rw [hsite]; exact hst) (by rw [hsite]; exact hph)
    refine goesTo_ok ⟨?_, ?_, ?_, ?_, ?_, fun q hq => ?_, ?_⟩
    · rw [State.promise_site, hbank, Site.withRails_st]
    · rw [State.promise_site, hbank, Site.withRails_clk, hsite]
    · rw [State.promise_site, hbank, Site.withRails_mrg, hsite]
    · rw [State.promise_site, hbank]
      exact (Site.withRails_rails ..).1
    · rw [State.promise_site, hbank]
      exact (Site.withRails_rails ..).2
    · rw [State.promise_site, State.bankNow_site_other _ hq, ← hs1, State.modSite_site, if_neg hq]
    · rw [State.promise_tiles, State.bankNow_tiles, ← hs1, State.modSite_tiles]
  case sweepMeasures =>
    have hintime : ¬ ((s.site p).clk.bankSweep = true ∧ (s.site p).mrg.sweepAt + 40 * ms < s.time) := by
      rintro ⟨hbank, hlate⟩
      rcases hin with hin | hin
      · simp [hin] at hbank
      · omega
    rw [exec_marginSweep_ends hp hb h, if_neg hintime]
    have hself := State.sweepEnds_self (s.sweepMeasured p m) p
    rw [State.sweepMeasured_site, if_pos rfl] at hself
    have hmrg : ((((s.sweepMeasured p m).sweepEnds p).relimit p).promise.site p).mrg = s.sweptMrg p m := by
      rw [State.promise_site, State.relimit_field (fun x => x.mrg) (fun _ _ _ _ => rfl), hself.2]
    refine goesTo_ok ⟨hmrg, by rw [hmrg]; exact (s.sweptMrg_sweeps p m).1, by rw [hmrg]; exact (s.sweptMrg_sweeps p m).2, ?_, ?_, fun q hq => ?_, ?_⟩
    · rw [State.promise_site, State.relimit_field (fun x => x.clk.bankSweep) (fun _ _ _ _ => rfl), State.sweepEnds_bankSweep]
    · rw [State.promise_site, State.relimit_field (fun x => x.st) (fun _ _ _ _ => rfl), hself.1]
      exact State.mayMeasure_banked h
    · rw [State.promise_site, State.relimit_site_other _ hq, State.sweepEnds_site_other _ hq, State.sweepMeasured_site, if_neg hq]
    · rw [State.promise_hlt_field (fun x => x.swept) (fun _ _ _ => rfl), State.relimit_hlt, hlt_of_only (State.sweepEnds_only ..) (by decide), (s.sweepMeasured_writes p m).2]
      split <;> rfl
  case sweepLate =>
    rw [exec_marginSweep_ends hp hb h, if_pos ⟨hbank, hlate⟩]
    refine goesTo_ok ⟨?_, ?_, fun q hq => ?_, ?_⟩
    · rw [State.promise_site, (s.sweepEnds_self p).2]
    · rw [State.promise_site, s.sweepEnds_bankSweep p]
    · rw [State.promise_site, State.sweepEnds_site_other _ hq]
    · rw [State.promise_hlt_field (fun x => x.swept) (fun _ _ _ => rfl), hlt_of_only (State.sweepEnds_only ..) (by decide)]
  case sweepOverdue =>
    have hexec : exec (.marginOverdue p) s = execMarginOverdue p s := rfl
    rw [hexec, execMarginOverdue, onSite, if_pos hp]
    dsimp only
    have hdue : ∀ b : Bool, b = true → (s.svRuns && b && decide ((s.site p).mrg.lastSweep.getD s.spi.t0 + 24 * hour ≤ s.time)) = true := by simpa [hsv] using hsince
    rw [when_, if_pos (hdue _ ?due)]
    case due =>
      cases ht : (s.site p).mrg.overdueAt with
      | none => rfl
      | some t => exact decide_eq_true (hover t ht)
    refine goesTo_ok ⟨?_, fun q hq => ?_, ?_⟩
    · rw [State.promise_site, State.raiseSite_site, State.modSite_site, if_pos rfl]
    · rw [State.promise_site, State.raiseSite_site, State.modSite_site, if_neg hq]
    · rw [State.promise_tiles, State.raiseSite_tiles, State.modSite_tiles]
  case surges =>
    obtain ⟨cls, at_, hex, hat, hcls, -⟩ := exec_loadClassUpdate (s := s) (b := b) (surged := true) hp
    obtain ⟨hc, ht, hother, honly⟩ := loadClass_written s p cls at_
    refine goesTo_of_eq hex ⟨hc.trans (hcls (by simpa using hb)), ht.trans ?_, hother, honly⟩
    rw [hat, if_pos (by simpa using hb)]
  case surgeLasts =>
    obtain ⟨cls, at_, hex, -, -, hcls⟩ := exec_loadClassUpdate (s := s) (b := b) (surged := false) hp
    obtain ⟨hc, -, hother, honly⟩ := loadClass_written s p cls at_
    exact goesTo_of_eq hex ⟨hc.trans ((hcls (by simp)).1 t hat hin), hother, honly⟩
  case noSurge =>
    obtain ⟨cls, at_, hex, -, -, hcls⟩ := exec_loadClassUpdate (s := s) (b := b) (surged := false) hp
    obtain ⟨hc, -, hother, honly⟩ := loadClass_written s p cls at_
    exact goesTo_of_eq hex ⟨hc.trans ((hcls (by simp)).2 hold), hother, honly⟩
  case ceilingRises =>
    have hexec : exec (.cellCeilingRise p k) s = execCellCeilingRise p k s := rfl
    rw [hexec, execCellCeilingRise, onSite, if_pos hp]
    dsimp only
    rw [when_, if_pos (by simp [hk, hsite, hmax, hat, hsv])]
    generalize hs1 : (s.modSite p fun x => { x with mrg := { x.mrg with cellCeil := _, cellAt := _ } }) = s1
    have hcell (j : Nat) : (((s1.ceilingChanged p k ((s.site p).mrg.cellCeilOf k + 1)).relimit p).site p).mrg.cellCeilOf j =
        if j = k then (s.site p).mrg.cellCeilOf k + 1 else (s.site p).mrg.cellCeilOf j := by
      rw [State.relimit_field (fun x => x.mrg.cellCeilOf j) (fun _ _ _ _ => rfl), State.ceilingChanged_site, ← hs1, State.modSite_site, if_pos rfl]
      unfold SiteMrg.cellCeilOf
      simp only [tget_tput]
    refine goesTo_ok ⟨by rw [hcell, if_pos rfl], fun j hj => by rw [hcell, if_neg hj], fun q hq => ?_, ?_⟩
    · rw [State.relimit_site_other _ hq, State.ceilingChanged_site, ← hs1, State.modSite_site, if_neg hq]
    · rw [State.relimit_tiles, ← hs1]
      simp [State.ceilingChanged]

end Sys2Proof.Machine

end

section
/-! PROOFS. Service dies: failover, loss, reset (R478 to R483; O51). -/

namespace Sys2Proof.Machine

open Sys2Proof.Safety (Blk Only GoesTo)

/-! ### What packets, events and restarts leave of the ports and of the serial memory

They write no register of a port but the pending bits of its vectors, and nothing of the serial memory but its waiting records and the buffered log. -/

def State.portRegs (s : State) : Nat → Port := fun q => { s.port q with msix := [] }
theorem State.besideEvents_portRegs : BesideEvents State.portRegs where
  sent _ _ := rfl
  pending s p f := by
    funext q
    by_cases hq : q = p <;> simp [State.portRegs, hq]
  ring _ _ := rfl
  log _ _ := rfl

/-- The ports beside the pending bits, and the serial memory beside the records that wait. -/
def State.held (s : State) : (Nat → Port) × Spi := (s.portRegs, s.spi.besideRecords)
theorem State.port_of_held {s u : State} (h : u.held = s.held) {α : Type} (π : Port → α) (hπ : ∀ x, π { x with msix := [] } = π x) (q : Nat) : π (u.port q) = π (s.port q) := by
  rw [← hπ, ← hπ (s.port q)]
  exact congrArg (fun m => π (m.1 q)) h
theorem State.spi_of_held {s u : State} (h : u.held = s.held) {α : Type} (π : Spi → α) (hπ : ∀ x, π x.besideRecords = π x) : π u.spi = π s.spi :=
  SameBeside.field (congrArg Prod.snd h) π hπ

variable (s : State)

/-! ### Updates in one piece -/

@[simp] theorem State.modTile_held (t : Nat) (f : Tile → Tile) : (s.modTile t f).held = s.held := Eq.symm rfl
@[simp] theorem State.modChan_held (c : Nat) (f : Chan → Chan) : (s.modChan c f).held = s.held := Eq.symm rfl
@[simp] theorem State.modCtx_held (c : Nat) (f : Ctx → Ctx) : (s.modCtx c f).held = s.held := Eq.symm rfl
@[simp] theorem State.modHost_held (f : HostIf → HostIf) (h : (f s.host).ports = s.host.ports) : (s.modHost f).held = s.held :=
  Prod.ext (funext fun q => by simp [State.held, State.portRegs, State.port, h]) rfl
@[simp] theorem State.modSite_held (p : Nat) (f : Site → Site) : (s.modSite p f).held = s.held := Eq.symm rfl
@[simp] theorem State.modPart_held (p : Nat) (f : Part → Part) : (s.modPart p f).held = s.held := Eq.symm rfl
@[simp] theorem State.modSes_held (f : Ses → Ses) : (s.modSes f).held = s.held := Eq.symm rfl
@[simp] theorem State.modHlt_held (f : Hlt → Hlt) : (s.modHlt f).held = s.held := Eq.symm rfl
@[simp] theorem State.modCap_held (f : Cap → Cap) : (s.modCap f).held = s.held := Eq.symm rfl
@[simp] theorem State.dropFlight_held (i : Nat) : (s.dropFlight i).held = s.held := Eq.symm rfl
@[simp] theorem State.spend_held : s.spend.held = s.held := Eq.symm rfl
@[simp] theorem State.spendN_held (n : Nat) : (s.spendN n).held = s.held := Eq.symm rfl
@[simp] theorem State.modCnt_held (p : Nat) (f : SiteCnt → SiteCnt) : (s.modCnt p f).held = s.held := Eq.symm rfl
@[simp] theorem State.note_held (x : FaultNote) : (s.note x).held = s.held := Eq.symm rfl
@[simp] theorem State.modDesc_held (c : Nat) (n : W32) (f : InFl → InFl) : (s.modDesc c n f).held = s.held := Eq.symm rfl
@[simp] theorem State.stopCtx_held (c : Nat) : (s.stopCtx c).held = s.held := Eq.symm rfl
@[simp] theorem State.forget_held (c : Nat) : (s.forget c).held = s.held := Eq.symm rfl
@[simp] theorem State.wild_held (t : Nat) : (s.wild t).held = s.held := Eq.symm rfl
@[simp] theorem State.addFlight_held (f : Flight) : (s.addFlight f).held = s.held := Eq.symm rfl
@[simp] theorem State.respond_held (f : Flight) (at_ : Place) (opc : Opc) (status : Nat) (payload : List Byte) :
    (s.respond f at_ opc status payload).held = s.held := Eq.symm rfl
@[simp] theorem State.partDropAt_held (p : Nat) : (s.partDropAt p).held = s.held := Eq.symm rfl
@[simp] theorem State.tileSeq_held (t c : Nat) : (s.tileSeq t c).2.held = s.held := Eq.symm rfl
@[simp] theorem State.edgeSeq_held (pe c : Nat) : (s.edgeSeq pe c).2.held = s.held := Eq.symm rfl
@[simp] theorem State.issueRead_held (port addr len : Nat) (for_ : HostFor) : (s.issueRead port addr len for_).held = s.held := Eq.symm rfl
@[simp] theorem State.setEtrks_held (pe : Nat) (l : List ETrk) : (s.setEtrks pe l).held = s.held := by
  by_cases hpe : pe = 0 <;> simp [State.setEtrks, hpe]
@[simp] theorem State.edgeReuse_held (pe : Nat) : (s.edgeReuse pe).held = s.held := by simp [State.edgeReuse]

/-! ### Choices, repetitions and events -/

@[simp] theorem held_ite (c : Prop) [Decidable c] (a b : State) : (if c then a else b).held = if c then a.held else b.held :=
  apply_ite ..
@[simp] theorem held_foldl {α : Type} (g : State → α → State) (h : ∀ s a, (g s a).held = s.held) (l : List α) (s : State) :
    (l.foldl g s).held = s.held := BesideEvents.foldl h l s
@[simp] theorem State.raise_held (x : Ev) : (s.raise x).held = s.held := Prod.ext (State.besideEvents_portRegs.raise s x) (s.raise_beside x)
@[simp] theorem State.raisePanel_held (code d0 d1 : Nat) : (s.raisePanel code d0 d1).held = s.held := s.raise_held _
@[simp] theorem State.raiseSite_held (code p d0 d1 : Nat) : (s.raiseSite code p d0 d1).held = s.held := s.raise_held _
@[simp] theorem State.raisePort_held (code p d0 d1 : Nat) : (s.raisePort code p d0 d1).held = s.held := s.raise_held _

/-! ### Packets, loads and COPYs (R31, R36, R203, R211, R311) -/

@[simp] theorem State.dropAt_held (p : Nat) : (s.dropAt p).held = s.held := by simp [State.dropAt]
@[simp] theorem State.noRouteAt_held (p : Nat) (dest : W64) : (s.noRouteAt p dest).held = s.held := by simp [State.noRouteAt]
@[simp] theorem State.inject_held (at_ : Place) (own : Option Nat) (site : Nat) (pkt : Packet) :
    (s.inject at_ own site pkt).held = s.held := by
  unfold State.inject
  split <;> simp
@[simp] theorem State.tileRead_held (t k core : Nat) (x : Trk) (a : W64) : (s.tileRead t k core x a).held = s.held := by
  simp [State.tileRead]
@[simp] theorem State.loaderAsk_held (t fuel : Nat) : (s.loaderAsk t fuel).held = s.held := by
  induction fuel generalizing s with
  | zero => rfl
  | succ fuel ih =>
    cases hcur : (s.tile t).ld.cur with
    | none => simp [State.loaderAsk, hcur]
    | some r =>
      cases hfree : (s.tile t).freeTrk with
      | none => simp [State.loaderAsk, hcur, hfree]
      | some k => simp [State.loaderAsk, hcur, hfree, ih]
@[simp] theorem State.loadersGo_held : s.loadersGo.held = s.held := by simp [State.loadersGo]
@[simp] theorem State.endDesc_held (c : Nat) (n : W32) (x : Ending) : (s.endDesc c n x).held = s.held := by
  unfold State.endDesc
  split <;> simp
@[simp] theorem State.edgeRead_held (pe c : Nat) (a : W64) (len : Nat) (for_ : EdgeFor) :
    (s.edgeRead pe c a len for_).held = s.held := by simp [State.edgeRead]
@[simp] theorem State.copyAsk_held (pe c : Nat) (n : W32) (d : Desc) (fuel : Nat) : (s.copyAsk pe c n d fuel).held = s.held := by
  induction fuel generalizing s with
  | zero => rfl
  | succ fuel ih =>
    unfold State.copyAsk
    split
    · split
      · dsimp only
        split <;> simp [ih]
      · rfl
    · rfl
@[simp] theorem State.copiesAsk_held (pe : Nat) : (s.copiesAsk pe).held = s.held := by
  refine held_foldl _ (fun s x => ?_) _ _
  split
  · refine held_foldl _ (fun s x => ?_) _ _
    split <;> simp
  · rfl

/-! ### What a doorbell does to its context (R291, R297, R301, R331) -/

@[simp] theorem State.fetchAsk_held (c fuel : Nat) : (s.fetchAsk c fuel).held = s.held := by
  induction fuel generalizing s with
  | zero => rfl
  | succ fuel ih => simp [State.fetchAsk, ih]
@[simp] theorem State.wildDdr_held (r : Region) (n : Nat) : (s.wildDdr r n).held = s.held := by simp [State.wildDdr]
@[simp] theorem State.wildPart_held (q : Nat) : (s.wildPart q).held = s.held := by simp [State.wildPart]
@[simp] theorem State.quiet_held (c : Nat) : (s.quiet c).held = s.held := by simp [State.quiet]
@[simp] theorem State.copiesGo_held : s.copiesGo.held = s.held := by simp [State.copiesGo]
@[simp] theorem State.restart_held (c : Nat) : (s.restart c).held = s.held := by simp [State.restart]

/-! ### Warm resets and ends of sessions (R334, R502) -/

@[simp] theorem State.turnAway_held (i : Nat) (f : Flight) (p : Nat) (at_ : Place) (status : Nat) : (s.turnAway i f p at_ status).held = s.held := by simp [State.turnAway]
@[simp] theorem State.unpark_held (p : Nat) : (s.unpark p).held = s.held := by
  refine held_foldl _ (fun s i => ?_) _ _
  split
  · split <;> simp
  · rfl
@[simp] theorem State.setRails_held (p vc vs : Nat) : (s.setRails p vc vs).held = s.held := by simp [State.setRails]
@[simp] theorem State.invalidateSlice_held (p : Nat) : (s.invalidateSlice p).held = s.held := by simp [State.invalidateSlice]
@[simp] theorem State.warmSite_held (p : Nat) : (s.warmSite p).held = s.held := by simp [State.warmSite]
@[simp] theorem State.tagClear_held (p : Nat) : (s.tagClear p).held = s.held := by simp [State.tagClear]
@[simp] theorem State.warmReset_held (p : Nat) : (s.warmReset p).held = s.held := by simp [State.warmReset]
@[simp] theorem State.endSession_held (e r : Nat) : (s.endSession e r).held = s.held := by
  unfold State.endSession
  split <;> simp
@[simp] theorem State.sweepEnds_held (p : Nat) : (s.sweepEnds p).held = s.held := by simp [State.sweepEnds, State.unbankNow]
@[simp] theorem State.promise_held : s.promise.held = s.held := by simp [State.promise]

/-! ### The active die and the standby -/

theorem State.svIn_active {s : State} (hp : s.pwr.powered = true) : s.svIn .active = if s.hlt.sva = .active then some 0 else if s.hlt.svb = .active then some 1 else none := by
  rw [State.svIn, if_pos hp]
  rfl
theorem State.svIn_standby {s : State} (hp : s.pwr.powered = true) : s.svIn .standby = if s.hlt.sva = .standby then some 0 else if s.hlt.svb = .standby then some 1 else none := by
  rw [State.svIn, if_pos hp]
  rfl
@[simp] theorem State.setDie_pwr (d : Nat) (st : SvSt) : (s.setDie d st).pwr = s.pwr := rfl

theorem State.promise_dies : s.promise.hlt.sva = s.hlt.sva ∧ s.promise.hlt.svb = s.hlt.svb :=
  ⟨s.promise_hlt_field (fun h => h.sva) fun _ _ _ => rfl, s.promise_hlt_field (fun h => h.svb) fun _ _ _ => rfl⟩

/-! ### What a die was at work on (R479, R480) -/

theorem State.disarm_arm (l : List Nat) : ∀ (s : State) (p : Nat), p ∈ l ∨ (s.port p).arm = none →
    ((l.foldl (fun s q => s.modPort q fun p => { p with arm := none }) s).port p).arm = none := by
  induction l with
  | nil => exact fun s p h => h.resolve_left (by simp)
  | cons q l ih =>
    intro s p h
    refine ih _ p ?_
    by_cases hq : p = q
    · exact .inr (by simp [hq])
    · exact h.imp (fun h => (List.mem_cons.1 h).resolve_left hq) fun h => by simpa [hq] using h
theorem State.dieWork_disarms {p : Nat} (hp : p < 4) : (s.dieWork.port p).arm = none :=
  State.disarm_arm _ _ p (.inl (mem_rangeFrom.2 (by omega)))
theorem State.dieWork_spi : s.dieWork.spi.committing = none ∧ s.dieWork.spi.logBuf = [] := by
  unfold State.dieWork
  extract_lets s1
  rw [spi_of_only (bs := [.host]) (s := s1) (only_of_outside (by intros; simp)) (by decide)]
  exact ⟨rfl, rfl⟩
theorem State.dieWork_only : Only [.host, .spi] s s.dieWork := only_of_outside (by intros; simp)

theorem State.endSession_ents (e r k : Nat) : tget none (s.endSession e r).ses.ents k = if k = e then none else tget none s.ses.ents k := by
  unfold State.endSession
  split
  · next h => split <;> simp_all
  · simp [State.raisePanel]
theorem State.endSessions_ents (r : Nat) (l : List Nat) : ∀ (s : State) (k : Nat), k ∈ l ∨ tget none s.ses.ents k = none →
    tget none (l.foldl (fun s e => s.endSession e r) s).ses.ents k = none := by
  induction l with
  | nil => exact fun s k h => h.resolve_left (by simp)
  | cons e l ih =>
    intro s k h
    refine ih _ k ?_
    rw [State.endSession_ents]
    split
    · exact .inr rfl
    · next hk => exact h.imp_left fun h => (List.mem_cons.1 h).resolve_left hk

/-! ### A panel without a service die (R482) -/

/-- Without a service die an event reaches the event ring alone. -/
theorem State.raise_spi_of_none {s : State} (h : s.svRuns = false) (e : Ev) : (s.raise e).spi = s.spi := by
  unfold State.raise State.raiseAt
  rw [if_pos (by rw [h]; rfl)]
  split
  · exact spi_of_only (bs := [.host]) (only_of_outside (by intros; simp)) (by decide)
  · rfl
theorem State.promise_spi_of_none {s : State} (h : s.svRuns = false) : s.promise.spi = s.spi := by
  unfold State.promise
  extract_lets b was holds lapsed s1
  have h1 : s1.svRuns = false := h
  have hspi : s1.spi = s.spi := rfl
  clear_value s1
  repeat' split
  · rfl
  · exact (State.raise_spi_of_none h1 _).trans hspi
  · exact (State.raise_spi_of_none h1 _).trans hspi
  · exact hspi

theorem mem_allSites {p : Nat} : p ∈ allSites ↔ p < 272 := by
  unfold allSites
  rw [mem_rangeFrom]
  omega
theorem State.budgets_site (b : Nat) (l : List Nat) : ∀ (s : State) (p : Nat), p ∈ l ∨ (s.site p).ctl.budget = b → (s.site p).st ≠ .dark →
    ((l.foldl (fun s p => if (s.site p).st = .dark then s else s.modSite p fun x => { x with ctl := { x.ctl with budget := b } }) s).site p).ctl.budget = b := by
  induction l with
  | nil => exact fun s p h _ => h.resolve_left (by simp)
  | cons q l ih =>
    intro s p h hd
    rw [List.foldl_cons]
    by_cases hq : p = q
    · subst hq
      rw [if_neg hd]
      exact ih _ p (.inr (by simp)) (by simpa using hd)
    · have hsite : (if (s.site q).st = .dark then s else s.modSite q fun x => { x with ctl := { x.ctl with budget := b } }).site p = s.site p := by
        split
        · rfl
        · rw [State.modSite_site, if_neg hq]
      exact ih _ p (by rw [hsite]; exact h.imp_left fun h => (List.mem_cons.1 h).resolve_left hq) (by rwa [hsite])

/-! ### What a die that is back finds due (R482, R483) -/

theorem State.settle_supply (k n : Nat) : (s.settle k n).supply = s.supply := State.modHlt_supply _ _ fun _ => ⟨rfl, rfl⟩
theorem State.darken_supply (p : Nat) : (s.darken p).supply = s.supply := by
  unfold State.darken
  split
  · rfl
  · rw [State.supply_of_only (bs := [.host, .spi]) (State.raiseSite_only ..) (by decide) (by decide), State.settle_supply]
    exact State.supply_of_only (bs := [.tiles, .sites, .fab, .host, .spi]) (only_of_outside (by intros; simp)) (by decide) (by decide)
theorem State.promise_supply : s.promise.supply = s.supply := by
  simp only [State.supply, State.promise_pwr, (s.promise_dies).1, (s.promise_dies).2]
theorem State.siteDue_supply (p : Nat) : (s.siteDue p).supply = s.supply := by
  unfold State.siteDue
  rw [State.supply_of_only (bs := [.sites]) (s := s.phasesChecked p) (only_of_outside (by intros; simp)) (by decide) (by decide), State.phasesChecked]
  split
  · rw [State.promise_supply, State.addDefect_supply, State.isolate, State.darken_supply, State.supply_of_only (State.raiseSite_only ..) (by decide) (by decide)]
    rfl
  · rfl
theorem State.dueDone_supply (t : Nat) : (s.dueDone t).supply = s.supply :=
  State.supply_of_only (bs := [.tiles, .host, .spi]) (only_of_outside (by intros; simp)) (by decide) (by decide)
theorem State.dues_only (l m : List Nat) : (l.foldl State.siteDue (m.foldl State.dueDone s)).supply = s.supply ∧
    Only [.tiles, .sites, .fab, .host, .spi, .hlt] s (l.foldl State.siteDue (m.foldl State.dueDone s)) :=
  ⟨(State.foldl_supply State.siteDue_supply _ _).trans (State.foldl_supply State.dueDone_supply _ _), only_of_outside (by intros; simp)⟩
/-- The panel says that dies are back, and the watch of the heartbeat begins anew (R483). -/
theorem State.backAgain (n bits : Nat) :
    let u := ((s.modHlt fun h => { h with lastBeat := n, svLostAt := none }).raisePanel 0x050D bits 0).promise
    u.hlt.sva = s.hlt.sva ∧ u.hlt.svb = s.hlt.svb ∧ u.cap = s.cap ∧ u.hlt.svLostAt = none ∧ u.hlt.lastBeat = n := by
  intro u
  have hhlt : ((s.modHlt fun h => { h with lastBeat := n, svLostAt := none }).raisePanel 0x050D bits 0).hlt = { s.hlt with lastBeat := n, svLostAt := none } := State.raise_hlt ..
  refine ⟨(State.promise_dies _).1.trans (by rw [hhlt]), (State.promise_dies _).2.trans (by rw [hhlt]), ?_, (State.promise_hlt_field (fun h => h.svLostAt) (fun _ _ _ => rfl) _).trans (by rw [hhlt]),
    (State.promise_hlt_field (fun h => h.lastBeat) (fun _ _ _ => rfl) _).trans (by rw [hhlt])⟩
  exact (cap_of_only (State.promise_only _) (by decide)).trans (State.raisePanel_cap ..)
theorem State.dies_of_supply {s : State} {b : Bool} {n : Nat} {x y : SvSt} (h : s.supply = (b, n, x, y)) : s.hlt.sva = x ∧ s.hlt.svb = y := by
  obtain ⟨-, -, hx, hy⟩ : _ = b ∧ _ = n ∧ _ = x ∧ _ = y := by simpa [State.supply] using h
  exact ⟨hx, hy⟩
theorem State.svRuns_of_supply {s : State} {n : Nat} {y : SvSt} (h : s.supply = (true, n, .active, y)) : s.svRuns = true := by
  obtain ⟨hp, -, hx, -⟩ : _ = true ∧ _ = n ∧ _ = SvSt.active ∧ _ = y := by simpa [State.supply] using h
  simp [State.svRuns, hp, hx]
/-- A die that comes back where none runs is active; one that comes back beside the active one stands by (R483). -/
theorem State.dieBack_alone {s : State} (hp : s.pwr.powered = true) (ha : s.hlt.sva = .resetting) (hb : s.hlt.svb = .resetting) :
    (s.dieBack 0 true).supply = (true, s.pwr.vin, .active, .resetting) ∧ (s.dieBack 0 true).cap.prof = s.cap.prof ∧ (s.dieBack 0 true).time = s.time := by
  have hin : s.svIn .active = none := by
    rw [State.svIn_active hp, ha, hb]
    rfl
  have hback : s.dieBack 0 true = (s.setDie 0 .active).settle 4 0 := by simp [State.dieBack, ha, hin]
  rw [hback, State.settle_supply, ← hp, ← hb]
  exact ⟨rfl, rfl, rfl⟩
theorem State.dieBack_beside {s : State} {n : Nat} (h : s.supply = (true, n, .active, .resetting)) :
    (s.dieBack 1 true).supply = (true, n, .active, .standby) ∧ (s.dieBack 1 true).cap.prof = s.cap.prof ∧ (s.dieBack 1 true).time = s.time := by
  obtain ⟨hp, rfl, ha, hb⟩ : _ = true ∧ _ = n ∧ _ = SvSt.active ∧ _ = SvSt.resetting := by simpa [State.supply] using h
  have hin : s.svIn .active = some 0 := by
    rw [State.svIn_active hp, ha]
    rfl
  have hback : s.dieBack 1 true = ((s.setDie 1 .standby).modCap fun c => { c with mirror := c.prof }).settle 4 1 := by simp [State.dieBack, hb, hin]
  rw [hback, State.settle_supply, ← hp, ← ha]
  exact ⟨rfl, rfl, rfl⟩
theorem State.unsettle_dies (k n : Nat) : (s.unsettle k n).hlt.sva = s.hlt.sva ∧ (s.unsettle k n).hlt.svb = s.hlt.svb := by
  unfold State.unsettle
  split <;> exact ⟨rfl, rfl⟩

/-! ### The commands -/

/-- What a failover from die `a` to die `b` leaves (R480). -/
theorem State.failedOver (a b n : Nat) (r : Bool) {va vb : SvSt} (ha : ((s.setDie a .failed).setDie b .active).hlt.sva = va) (hb : ((s.setDie a .failed).setDie b .active).hlt.svb = vb) :
    let s1 := ((s.setDie a .failed).setDie b .active).modHlt fun h => { h with failovers := satAdd16 h.failovers 1, lastBeat := n }
    let s2 := (s1.dieWork.modCap fun c => { c with prof := c.mirror }).raisePanel 0x050A b (if r then 2 else 1)
    let s3 := (rangeFrom 0 4).foldl (fun s e => s.endSession e 3) s2
    let s4 := allParts.foldl (fun s q => if (s.partn q).st = .resetting then s.warmReset q else s) s3
    let s5 := allSites.foldl State.sweepEnds s4
    s5.promise.hlt.sva = va ∧ s5.promise.hlt.svb = vb ∧ s5.promise.hlt.failovers = satAdd16 s.hlt.failovers 1 ∧ s5.promise.cap.prof = s.cap.mirror ∧ s5.promise.spi.committing = none ∧
      (∀ e, e < 4 → tget none s5.promise.ses.ents e = none) ∧ ∀ p, p < 4 → (s5.promise.port p).arm = none := by
  intro s1 s2 s3 s4 s5
  have hhlt1 : s1.hlt.sva = va ∧ s1.hlt.svb = vb ∧ s1.hlt.failovers = satAdd16 s.hlt.failovers 1 := by
    refine ⟨ha, hb, ?_⟩
    change satAdd16 ((s.setDie a .failed).setDie b .active).hlt.failovers 1 = _
    unfold State.setDie
    split <;> split <;> rfl
  have hcap : s1.cap = s.cap := rfl
  clear_value s1
  have h12 : Only [.host, .spi, .cap] s1 s2 := only_of_outside (by intros; simp [s2])
  have h23 : Only [.host, .spi, .ses] s2 s3 := only_of_outside (by intros; exact outside_foldl _ (by intros; simp) _ _)
  have h34 : Only [.tiles, .sites, .fab, .host, .parts, .rick, .spi] s3 s4 :=
    only_of_outside (by intros; refine outside_foldl _ (fun u q => ?_) _ _; split <;> simp)
  have h45 : Only [.sites] s4 s5 := only_of_outside (by intros; simp [s5])
  have h5 : Only [.host, .spi, .hlt] s5 s5.promise := State.promise_only _
  have hheld : s5.promise.held = (s1.dieWork.modCap fun c => { c with prof := c.mirror }).held := by
    refine (State.promise_held _).trans ((held_foldl _ State.sweepEnds_held _ _).trans ((held_foldl _ (fun v q => ?_) _ _).trans
      ((held_foldl _ (fun v e => v.endSession_held e 3) _ _).trans (State.raisePanel_held ..))))
    split
    · exact v.warmReset_held q
    · rfl
  have hhlt : s5.hlt = s1.hlt :=
    (hlt_of_only h45 (by decide)).trans ((hlt_of_only h34 (by decide)).trans ((hlt_of_only h23 (by decide)).trans (hlt_of_only h12 (by decide))))
  obtain ⟨hsva, hsvb, hfail⟩ := hhlt1
  have hents (e : Nat) (he : e < 4) : tget none s3.ses.ents e = none := State.endSessions_ents 3 _ _ e (.inl (mem_rangeFrom.2 (by omega)))
  have hprof : s2.cap.prof = s.cap.mirror := (congrArg Cap.prof (State.raisePanel_cap ..)).trans (congrArg Cap.mirror ((cap_of_only s1.dieWork_only (by decide)).trans hcap))
  clear_value s5 s4 s3 s2
  obtain ⟨hpa, hpb⟩ := s5.promise_dies
  rw [hhlt] at hpa hpb
  refine ⟨hpa.trans hsva, hpb.trans hsvb, (State.promise_hlt_field (fun h => h.failovers) (fun _ _ _ => rfl) _).trans ((congrArg Hlt.failovers hhlt).trans hfail), ?_, ?_, fun e he => ?_, fun p hp => ?_⟩
  · rw [cap_of_only h5 (by decide), cap_of_only h45 (by decide), cap_of_only h34 (by decide), cap_of_only h23 (by decide), hprof]
  · exact (State.spi_of_held hheld (fun x => x.committing) fun _ => rfl).trans s1.dieWork_spi.1
  · rw [ses_of_only h5 (by decide), ses_of_only h45 (by decide), ses_of_only h34 (by decide), hents e he]
  · exact (State.port_of_held hheld (fun x => x.arm) (fun _ => rfl) p).trans (s1.dieWork_disarms hp)
/-- What the loss of the last service die leaves (R482). -/
theorem State.diesLost {s s1 : State} (ha : s1.hlt.sva = .failed) (hb : s1.hlt.svb = .failed) (honly : Only [.host, .spi, .hlt] s s1) (hlog : s1.spi.logBuf = []) (n : Nat) :
    let s2 := s1.modHlt fun h => { h with svLostAt := some s.time }
    let s3 := (rangeFrom 0 4).foldl (fun s q => if (s.port q).alertEn then s.sendMsix q (s.port q).avec else s) s2
    let s4 := s3.raisePanel 0x050C 0 n
    let b := s4.cap.cap * 1000 / 256
    let s5 := allSites.foldl (fun s p => if (s.site p).st = .dark then s else s.modSite p fun x => { x with ctl := { x.ctl with budget := b } }) s4
    let s6 := s5.modCap fun c => { c with static_ := true }
    s6.promise.hlt.sva = .failed ∧ s6.promise.hlt.svb = .failed ∧ s6.promise.hlt.svLostAt = some s.time ∧ s6.promise.cap.static_ = true ∧ s6.promise.spi.logBuf = [] ∧ s6.promise.tiles = s.tiles ∧
      ∀ p, p < 272 → (s.site p).st ≠ .dark → (s6.promise.site p).ctl.budget = s.cap.cap * 1000 / 256 := by
  intro s2 s3 s4 b s5 s6
  have h2 : s2.hlt.sva = .failed ∧ s2.hlt.svb = .failed ∧ s2.hlt.svLostAt = some s.time ∧ s2.spi.logBuf = [] ∧ Only [.host, .spi, .hlt] s s2 :=
    ⟨ha, hb, rfl, hlog, honly.trans (only_of_outside (by intros; simp))⟩
  clear_value s2
  obtain ⟨hsva, hsvb, hlost, hlog2, honly2⟩ := h2
  have h23 : Only [.host] s2 s3 := only_of_outside (by intros; refine outside_foldl _ (fun u q => ?_) _ _; split <;> simp)
  have h34 : Only [.host, .spi] s3 s4 := only_of_outside (by intros; simp [s4])
  have h45 : Only [.sites] s4 s5 := only_of_outside (by intros; refine outside_foldl _ (fun u q => ?_) _ _; split <;> simp)
  have h5 : Only [.cap, .host, .spi, .hlt] s5 s6.promise := only_of_outside (by intros; simp [s6])
  have hhlt : s5.hlt = s2.hlt := (hlt_of_only h45 (by decide)).trans ((hlt_of_only h34 (by decide)).trans (hlt_of_only h23 (by decide)))
  have hnone : ∀ v : State, v.hlt = s2.hlt → v.svRuns = false := by
    intro v hv
    simp [State.svRuns, hv, hsva, hsvb]
  have hspi : s5.spi = s2.spi := (spi_of_only h45 (by decide)).trans ((State.raise_spi_of_none (hnone s3 (hlt_of_only h23 (by decide))) _).trans (spi_of_only h23 (by decide)))
  have hcap : s4.cap = s.cap := (cap_of_only h34 (by decide)).trans ((cap_of_only h23 (by decide)).trans (cap_of_only honly2 (by decide)))
  have hsite (p : Nat) : s4.site p = s.site p := (site_of_only h34 (by decide) p).trans ((site_of_only h23 (by decide) p).trans (site_of_only honly2 (by decide) p))
  have hb' : b = s.cap.cap * 1000 / 256 := congrArg (fun c : Cap => c.cap * 1000 / 256) hcap
  have hbudget (p : Nat) (hp : p < 272) (hd : (s.site p).st ≠ .dark) : (s5.site p).ctl.budget = s.cap.cap * 1000 / 256 := by
    rw [← hb', State.budgets_site b allSites s4 p (.inl (mem_allSites.2 hp)) (by rwa [hsite])]
  clear_value s5
  have h6 : s6.hlt = s2.hlt ∧ s6.spi = s2.spi ∧ s6.cap.static_ = true := ⟨hhlt, hspi, rfl⟩
  clear_value s6 b s4 s3
  obtain ⟨hpa, hpb⟩ := s6.promise_dies
  rw [h6.1] at hpa hpb
  refine ⟨hpa.trans hsva, hpb.trans hsvb, (State.promise_hlt_field (fun h => h.svLostAt) (fun _ _ _ => rfl) _).trans ((congrArg Hlt.svLostAt h6.1).trans hlost), ?_, ?_, ?_, fun p hp hd => ?_⟩
  · rw [cap_of_only s6.promise_only (by decide), h6.2.2]
  · rw [State.promise_spi_of_none (hnone _ h6.1), h6.2.1, hlog2]
  · exact (tiles_of_only h5 (by decide)).trans ((tiles_of_only h45 (by decide)).trans ((tiles_of_only h34 (by decide)).trans ((tiles_of_only h23 (by decide)).trans (tiles_of_only honly2 (by decide)))))
  · rw [site_of_only h5 (by decide), hbudget p hp hd]

/-- Settles O51. -/
theorem serviceDiesComplete : Obligations.ServiceDiesComplete := by
  refine ⟨fun s hsv => ?heartbeat, fun r s hp hdies hr => ?failover, fun r s hp ha hb => ?standbyLost, fun s hp ha hb hbeat => ?lost, fun p s hr => ?resets, fun p v s hv => ?wrongKey,
    fun b s hp ha hb himg => ?restored, fun s hp ha hb himg => ?bothRestored, fun a b s hp ha hb hbad => ?stillFailed⟩
  case heartbeat =>
    have hexec : exec .svHeartbeat s = execSvHeartbeat s := rfl
    rw [hexec, execSvHeartbeat, when_, if_pos hsv]
    rfl
  case failover =>
    have hexec : exec (.svFailover r) s = execSvFailover r s := rfl
    obtain ⟨a, b, hina, hinb, hsva, hsvb⟩ : ∃ a b, s.svIn .active = some a ∧ s.svIn .standby = some b ∧
        ((s.setDie a .failed).setDie b .active).hlt.sva = (if s.hlt.sva = .active then .failed else .active) ∧
        ((s.setDie a .failed).setDie b .active).hlt.svb = (if s.hlt.sva = .active then .active else .failed) := by
      rw [State.svIn_active hp, State.svIn_standby hp]
      rcases hdies with ⟨ha, hb⟩ | ⟨ha, hb⟩ <;> rw [ha, hb]
      · exact ⟨0, 1, rfl, rfl, rfl, rfl⟩
      · exact ⟨1, 0, rfl, rfl, rfl, rfl⟩
    rw [hexec, execSvFailover, hina, hinb]
    dsimp only
    rw [when_, if_pos (by simpa using hr)]
    exact goesTo_ok (State.failedOver s a b _ r hsva hsvb)
  case standbyLost =>
    have hexec : exec (.svStandbyLost r) s = execSvStandbyLost r s := rfl
    have hin : s.svIn .standby = some 1 := by
      rw [State.svIn_standby hp, ha, hb]
      rfl
    rw [hexec, execSvStandbyLost, hin]
    dsimp only
    generalize hs1 : (s.setDie 1 .failed).unsettle 4 1 = s1
    have h1 : s1.hlt.sva = .active ∧ s1.hlt.svb = .failed ∧ Only [.hlt] s s1 := by
      subst hs1
      refine ⟨(State.unsettle_dies ..).1.trans ha, (State.unsettle_dies ..).2, only_of_outside (by intros; simp)⟩
    obtain ⟨hsva, hsvb, honly⟩ := h1
    obtain ⟨hpa, hpb⟩ := (s1.raisePanel 0x050B 1 (if r then 2 else 1)).promise_dies
    have hall : Only [.host, .spi, .hlt] s1 (s1.raisePanel 0x050B 1 (if r then 2 else 1)).promise := only_of_outside (by intros; simp)
    refine goesTo_ok ⟨hpa.trans ?_, hpb.trans ?_, ?_, ?_, ?_, ?_⟩
    · simpa [State.raisePanel] using hsva
    · simpa [State.raisePanel] using hsvb
    · exact (ses_of_only hall (by decide)).trans (ses_of_only honly (by decide))
    · exact (cap_of_only hall (by decide)).trans (cap_of_only honly (by decide))
    · exact (sites_of_only hall (by decide)).trans (sites_of_only honly (by decide))
    · exact (tiles_of_only hall (by decide)).trans (tiles_of_only honly (by decide))
  case lost =>
    have hexec : exec .svLost s = execSvLost s := rfl
    have hina : s.svIn .active = some 0 := by
      rw [State.svIn_active hp, ha]
      rfl
    have hinb : s.svIn .standby = none := by
      rw [State.svIn_standby hp, ha, hb]
      rfl
    rw [hexec, execSvLost, hina, hinb]
    dsimp only
    rw [when_, if_pos (by simpa using hbeat)]
    generalize hs1 : ((s.setDie 0 .failed).unsettle 4 0).dieWork = s1
    have h1 : s1.hlt.sva = .failed ∧ s1.hlt.svb = .failed ∧ Only [.host, .spi, .hlt] s s1 ∧ s1.spi.logBuf = [] := by
      subst hs1
      refine ⟨?_, ?_, only_of_outside (by intros; simp), (State.dieWork_spi _).2⟩
      · rw [hlt_of_only (State.dieWork_only _) (by decide)]
        exact (State.unsettle_dies ..).1
      · rw [hlt_of_only (State.dieWork_only _) (by decide)]
        exact (State.unsettle_dies ..).2.trans hb
    have hafter := State.diesLost h1.1 h1.2.1 h1.2.2.1 h1.2.2.2 ((s.time - s.hlt.lastBeat) / ms)
    dsimp only at hafter
    exact goesTo_ok hafter
  case resets =>
    have hexec : exec (.svReset p 0x53565253) s = execSvReset p 0x53565253 s := rfl
    rw [hexec, execSvReset, when_, if_pos (by simp [hr])]
    rfl
  case wrongKey =>
    have hexec : exec (.svReset p v) s = execSvReset p v s := rfl
    rw [hexec, execSvReset, when_, if_neg fun h => hv (by simpa using (Bool.and_eq_true_iff.1 h).2)]
    rfl
  case restored =>
    have hexec : exec (.svRestored true b) s = execSvRestored true b s := rfl
    have hruns : s.svRuns = true := by simp [State.svRuns, hp, hb]
    have hin : s.svIn .active = some 1 := by
      rw [State.svIn_active hp, ha, hb]
      rfl
    have hback : s.dieBack 0 true = ((s.setDie 0 .standby).modCap fun c => { c with mirror := c.prof }).settle 4 0 := by
      simp [State.dieBack, ha, hin]
    have hne : (SvSt.active == SvSt.resetting) = false := rfl
    rw [hexec, execSvRestored]
    simp only [ha, hb, himg, hruns, hback, hne, when_, beq_self_eq_true, Bool.and_self, Bool.true_or, if_true, if_false, Bool.not_true, Bool.false_eq_true, Bool.true_eq_false, false_and, and_false,
      and_self]
    rw [if_neg (by simp [b2n])]
    refine goesTo_ok ⟨(State.promise_dies _).1.trans ?_, (State.promise_dies _).2.trans ?_, ?_⟩
    · simp [State.raisePanel, State.settle, State.setDie]
    · simp [State.raisePanel, State.settle, State.setDie, hb]
    · rw [cap_of_only (State.promise_only _) (by decide), State.raisePanel_cap]
      rfl
  case bothRestored =>
    have hexec : exec (.svRestored true true) s = execSvRestored true true s := rfl
    have hruns : s.svRuns = false := by simp [State.svRuns, ha, hb]
    rw [hexec, execSvRestored]
    have hgood : (imageCheck s.spi.image s.ses.owner s.ses.svnMin == 0) = true := by simp [himg]
    simp only [ha, hb, hgood, hruns, when_, beq_self_eq_true, Bool.and_self, Bool.or_self, if_true, Bool.not_false, and_self, Bool.true_eq_false, if_false, and_false, true_and]
    generalize hs1 : (s.modCap _) = s1
    have h1 : s1.pwr = s.pwr ∧ s1.hlt = s.hlt ∧ s1.ses = s.ses ∧ s1.spi = s.spi ∧ s1.cap.prof = [] ∧ s1.time = s.time := by
      subst hs1
      exact ⟨rfl, rfl, rfl, rfl, rfl, rfl⟩
    obtain ⟨hpwr, hhlt, hses, hspi, hprof, htime⟩ := h1
    obtain ⟨hsup2, hprof2, htime2⟩ := s1.dieBack_alone (by rw [hpwr]; exact hp) (by rw [hhlt]; exact ha) (by rw [hhlt]; exact hb)
    generalize s1.dieBack 0 true = s2 at *
    obtain ⟨hsup, hprof3, htime3⟩ := s2.dieBack_beside hsup2
    generalize s2.dieBack 1 true = s3 at *
    have hruns3 : s3.svRuns = true := State.svRuns_of_supply hsup
    rw [if_pos hruns3, if_neg (by simp [b2n])]
    obtain ⟨hsup4, honly⟩ := s3.dues_only allSites (s3.tiles.map (·.1))
    generalize allSites.foldl State.siteDue ((s3.tiles.map (·.1)).foldl State.dueDone s3) = s4 at *
    obtain ⟨hsva, hsvb⟩ := State.dies_of_supply (hsup4.trans hsup)
    obtain ⟨ha4, hb4, hcap4, hlost4, hbeat4⟩ := s4.backAgain s4.time (b2n true + 2 * b2n true)
    rw [hsva] at ha4
    rw [hsvb] at hb4
    rw [cap_of_only honly (by decide)] at hcap4
    exact goesTo_ok ⟨ha4, hb4, (congrArg Cap.prof hcap4).trans (hprof3.trans (hprof2.trans hprof)), hlost4, hbeat4.trans ((time_of_only honly (by decide)).trans (htime3.trans (htime2.trans htime)))⟩
  case stillFailed =>
    have hexec : exec (.svRestored a b) s = execSvRestored a b s := rfl
    have hruns : s.svRuns = true := by simp [State.svRuns, hp, hb]
    have hne : (SvSt.active == SvSt.resetting) = false := rfl
    have hok : (a && imageCheck s.spi.image s.ses.owner s.ses.svnMin == 0) = false := by
      rcases hbad with rfl | hbad
      · rfl
      · simp [hbad]
    have hback : (s.dieBack 0 false).hlt.sva = .failed ∧ (s.dieBack 0 false).hlt.svb = .active ∧ (s.dieBack 0 false).cap = s.cap := by
      simp [State.dieBack, ha, State.raisePanel, State.setDie, hb]
    rw [hexec, execSvRestored]
    simp only [ha, hb, hruns, hok, hne, when_, beq_self_eq_true, Bool.true_or, if_true, if_false, Bool.not_true, Bool.false_eq_true, false_and, and_false, and_self, Bool.and_false, Bool.false_and]
    rw [if_pos (by rfl)]
    refine goesTo_ok ⟨(State.promise_dies _).1.trans hback.1, (State.promise_dies _).2.trans hback.2.1, ?_⟩
    rw [cap_of_only (State.promise_only _) (by decide), hback.2.2]

end Sys2Proof.Machine

end

section
/-! PROOFS. Sessions, attestation and fuses (R498 to R507; O53). -/

namespace Sys2Proof.Machine

open Sys2Proof.Safety (Blk Only GoesTo SesReach)

/-- The command `cmd` of a port ended with ECODE `e` (R498). -/
def State.sesShows (u : State) (p cmd e : Nat) : Prop := (u.port p).lastcmd = cmd ∧ (u.port p).secode = e ∧ (u.port p).serr = (e != 0)

variable {s : State} {p : Nat}

theorem State.sesEnd_shows (s : State) (p cmd e : Nat) : (s.sesEnd p cmd e).sesShows p cmd e := by
  simp [State.sesShows, State.sesEnd]
theorem State.sesShows_of_held {u : State} (h : u.held = s.held) {cmd e : Nat} (hs : s.sesShows p cmd e) : u.sesShows p cmd e := by
  unfold State.sesShows
  rw [State.port_of_held h (fun x => x.lastcmd) fun _ => rfl, State.port_of_held h (fun x => x.secode) fun _ => rfl, State.port_of_held h (fun x => x.serr) fun _ => rfl]
  exact hs
@[simp] theorem State.sesEnd_port (s : State) (p cmd e q : Nat) :
    (s.sesEnd p cmd e).port q = if q = p then { s.port p with lastcmd := cmd, serr := e != 0, secode := e } else s.port q := State.modPort_port ..
@[simp] theorem State.sesEnd_ses (s : State) (p cmd e : Nat) : (s.sesEnd p cmd e).ses = s.ses := rfl
theorem State.sesEnd_only (s : State) (p cmd e : Nat) : Only [.host] s (s.sesEnd p cmd e) := only_of_outside (by intros; simp)
/-- Of a port the end of a command writes the three fields that show it. -/
theorem State.sesEnd_field {α : Type} (π : Port → α) (hπ : ∀ x a b c, π { x with lastcmd := a, serr := b, secode := c } = π x) (s : State) (p cmd e q : Nat) :
    π ((s.sesEnd p cmd e).port q) = π (s.port q) := by
  rw [State.sesEnd_port]
  split
  · next h => rw [hπ, h]
  · rfl
/-- A session command that writes its port and ends. -/
theorem State.sesWrites (s : State) (p cmd e : Nat) (f : Port → Port) : ((s.modPort p f).sesEnd p cmd e).sesShows p cmd e ∧ (∀ q, q ≠ p → ((s.modPort p f).sesEnd p cmd e).port q = s.port q) ∧
    Only [.host] s ((s.modPort p f).sesEnd p cmd e) ∧ ((s.modPort p f).sesEnd p cmd e).port p = { f (s.port p) with lastcmd := cmd, serr := e != 0, secode := e } :=
  ⟨State.sesEnd_shows .., fun q hq => by simp [hq], only_of_outside (by intros; simp [State.sesEnd]), by simp⟩

theorem sesCmd_of_reach (h : SesReach s p) (k : Port → Out) : sesCmd s p k = k (s.port p) := by
  rw [sesCmd, onPort, if_pos h.1, when_, if_pos (by rw [h.2.1, h.2.2]; rfl)]
theorem sesGated_of_reach (h : SesReach s p) (hses : s.hasSession p = true) (cmd : Nat) (k : Port → Out) : sesGated s p cmd k = k (s.port p) := by
  rw [sesGated, sesCmd_of_reach h, if_pos hses]

/-- An OPEN that fails shows its ECODE and opens nothing (R501). -/
theorem State.openFails_shows (s : State) (p e : Nat) (he : (s.port p).chal = none) : (s.openFails p e).sesShows p 2 e ∧ ((s.openFails p e).port p).chal = none ∧ (s.openFails p e).ses.ents = s.ses.ents := by
  have h1 : (s.sesEnd p 2 e).sesShows p 2 e := s.sesEnd_shows p 2 e
  have h1c : ((s.sesEnd p 2 e).port p).chal = none := by rw [State.sesEnd_field (fun x => x.chal) fun _ _ _ _ => rfl, he]
  have hraise (u : State) (c d0 d1 : Nat) (hu : u.sesShows p 2 e ∧ (u.port p).chal = none ∧ u.ses.ents = s.ses.ents) :
      (u.raisePanel c d0 d1).sesShows p 2 e ∧ ((u.raisePanel c d0 d1).port p).chal = none ∧ (u.raisePanel c d0 d1).ses.ents = s.ses.ents :=
    ⟨State.sesShows_of_held (u.raisePanel_held c d0 d1) hu.1, (State.port_of_held (u.raisePanel_held c d0 d1) (fun x => x.chal) (fun _ => rfl) p).trans hu.2.1,
      (congrArg Ses.ents (u.raise_ses _)).trans hu.2.2⟩
  unfold State.openFails
  extract_lets s1 s2 l
  have hs1 : s1.sesShows p 2 e ∧ (s1.port p).chal = none ∧ s1.ses.ents = s.ses.ents := hraise _ _ _ _ ⟨h1, h1c, rfl⟩
  have hs2 : s2.sesShows p 2 e ∧ (s2.port p).chal = none ∧ s2.ses.ents = s.ses.ents := hs1
  clear_value s1 l
  clear_value s2
  have hport (f : Port → Port) (hf : ∀ x, (f x).lastcmd = x.lastcmd ∧ (f x).secode = x.secode ∧ (f x).serr = x.serr ∧ (f x).chal = x.chal) :
      (s2.modPort p f).sesShows p 2 e ∧ ((s2.modPort p f).port p).chal = none ∧ (s2.modPort p f).ses.ents = s.ses.ents := by
    obtain ⟨hl, hc, hr, hch⟩ := hf (s2.port p)
    unfold State.sesShows
    rw [State.modPort_port, if_pos rfl, hl, hc, hr, hch]
    exact hs2
  split
  · split
    · exact hraise _ _ _ _ (hport _ fun _ => ⟨rfl, rfl, rfl, rfl⟩)
    · exact hport _ fun _ => ⟨rfl, rfl, rfl, rfl⟩
  · exact hs1

/-- A fuse that is written ends its arm and is the one thing of the sessions' registers that changes (R506). -/
theorem State.fuseWritten (s : State) (p k : Nat) (f : Ses → Ses) :
    let s1 := (s.modPort p fun x => { x with arm := none }).modSes f
    let u := (s1.sesEnd p 8 0).raisePanel 0x0605 k (s1.sesEnd p 8 0).ses.svnMin
    u.sesShows p 8 0 ∧ (u.port p).arm = none ∧ u.ses = f s.ses := by
  intro s1 u
  have harm : (s1.port p).arm = none := by simp [s1]
  refine ⟨State.sesShows_of_held (State.raisePanel_held ..) (s1.sesEnd_shows p 8 0), ?_, State.raise_ses ..⟩
  rw [State.port_of_held (State.raisePanel_held ..) (fun x => x.arm) fun _ => rfl, State.sesEnd_field (fun x => x.arm) fun _ _ _ _ => rfl, harm]

/-- Settles O53. -/
theorem sessionsComplete : Obligations.SessionsComplete := by
  unfold Obligations.SessionsComplete
  intro done
  refine ⟨fun p s h hlo hhi => ?challenge, fun p s h hm => ?badMinutes, fun p t c k m b s hp hchal hdue => ?challengeEnds, fun p i m slot c prov s h hopen hchal hfree => ?opens,
    fun p s h hopen => ?refused, fun p t s hp hl ht => ?lockoutEnds, fun p x s h hent hx => ?closes, fun p s h hent => ?notMine, fun e x s he hent hdue hsv => ?deadline,
    fun p s h => ?attests, fun p s h => ?pubkey, fun p s h hses hown hboth => ?armsOwner, fun p s h hses hmin hmax hboth => ?armsSvn, fun p t hash s h hses harm hin hown => ?commitsOwner,
    fun p t hash s h hses harm hin => ?commitsSvn, fun p t k hash s hp harm hdue => ?armEnds⟩
  case challenge =>
    have hexec : exec (.challenge p) s = execChallenge p s := rfl
    rw [hexec, execChallenge, sesCmd_of_reach h, if_neg (by omega)]
    obtain ⟨hshow, hother, honly, hport⟩ := State.sesWrites { s with freeN := s.freeN + 32 } p 1 0
      fun x => { x with chal := some ((rangeFrom s.freeN 32).map Config.freeByte, x.sesSlot, x.sesMinutes, x.sesProv, s.time) }
    refine goesTo_ok ⟨hshow, ?_, hother, ?_, ?_⟩
    · rw [hport]
      rfl
    · rw [freeN_of_only honly (by decide)]
    · exact only_of_outside (by intros; simp [State.sesEnd])
  case badMinutes =>
    have hexec : exec (.challenge p) s = execChallenge p s := rfl
    rw [hexec, execChallenge, sesCmd_of_reach h, if_pos hm]
    exact goesTo_ok ⟨s.sesEnd_shows p 1 11, State.sesEnd_field (fun x => x.chal) (fun _ _ _ _ => rfl) .., s.sesEnd_only p 1 11⟩
  case challengeEnds =>
    have hexec : exec (.challengeExpiry p) s = execChallengeExpiry p s := rfl
    rw [hexec, execChallengeExpiry, onPort, if_pos hp, hchal]
    dsimp only
    rw [when_, if_pos (by simpa using hdue)]
    rfl
  case opens =>
    have hexec : exec (.sesOpen p) s = execSesOpen p s := rfl
    rw [hexec, execSesOpen, sesCmd_of_reach h]
    dsimp only
    rw [if_neg (by rw [hopen]; exact fun h => h rfl), hchal, hfree]
    dsimp only
    generalize hs1 : ((s.modPort p fun p => { p with chal := none }).modSes fun v => { v with ents := tput none v.ents i (some _) }) = s1
    have hents (e : Nat) : tget none s1.ses.ents e = if e = i then some { port := p, slot, prov, minutes := m, opened := s.time } else tget none s.ses.ents e := by
      rw [← hs1]
      simp only [State.modSes_ses, State.modPort_ses, tget_tput]
    have hchal1 : (s1.port p).chal = none := by
      rw [← hs1]
      simp
    have hses : ((s1.sesEnd p 2 0).raisePanel 0x0600 (sesWord i { port := p, slot, prov, minutes := m, opened := s.time } + b2n prov * 4096) m).ses = s1.ses := State.raise_ses ..
    refine goesTo_ok ⟨State.sesShows_of_held (State.raisePanel_held ..) (s1.sesEnd_shows p 2 0), ?_, ?_, fun e he => ?_⟩
    · rw [State.port_of_held (State.raisePanel_held ..) (fun x => x.chal) fun _ => rfl, State.sesEnd_field (fun x => x.chal) fun _ _ _ _ => rfl, hchal1]
    · rw [hses, hents, if_pos rfl]
    · rw [hses, hents, if_neg he]
  case refused =>
    have hexec : exec (.sesOpen p) s = execSesOpen p s := rfl
    rw [hexec, execSesOpen, sesCmd_of_reach h]
    dsimp only
    rw [if_pos hopen]
    exact goesTo_ok (State.openFails_shows (s.modPort p fun p => { p with chal := none }) p _ (by simp))
  case lockoutEnds =>
    have hexec : exec (.lockoutExpiry p) s = execLockoutExpiry p s := rfl
    rw [hexec, execLockoutExpiry, onPort, if_pos hp, hl]
    dsimp only
    rw [when_, if_pos (by simpa using ht)]
    rfl
  case closes =>
    have hexec : exec (.sesClose p) s = execSesClose p s := rfl
    rw [hexec, execSesClose, sesCmd_of_reach h, hent]
    dsimp only
    rw [if_pos hx]
    refine goesTo_ok ⟨State.sesEnd_shows .., ?_, fun e he => ?_⟩
    · rw [State.sesEnd_ses, State.endSession_ents, if_pos rfl]
    · rw [State.sesEnd_ses, State.endSession_ents, if_neg he]
  case notMine =>
    have hexec : exec (.sesClose p) s = execSesClose p s := rfl
    rw [hexec, execSesClose, sesCmd_of_reach h]
    cases hx : tget none s.ses.ents (s.port p).sesIndex with
    | none => exact goesTo_ok ⟨State.sesEnd_shows .., rfl⟩
    | some x =>
      dsimp only
      rw [if_neg (hent x hx)]
      exact goesTo_ok ⟨State.sesEnd_shows .., rfl⟩
  case deadline =>
    have hexec : exec (.sessionDeadline e) s = execSessionDeadline e s := rfl
    rw [hexec, execSessionDeadline, hent]
    dsimp only
    rw [when_, if_pos (by simp [he, hdue, hsv])]
    rfl
  case attests =>
    have hexec : exec (.attest p) s = execAttest p s := rfl
    rw [hexec, execAttest, sesCmd_of_reach h]
    obtain ⟨hshow, hother, honly, hport⟩ := s.sesWrites p 4 0 fun x => { x with buf := memPutList [] 0 (s.report (memGetList (s.port p).buf 0 32) ++ idSign (s.report (memGetList (s.port p).buf 0 32))) }
    exact goesTo_ok ⟨hshow, hother, honly, by rw [hport]⟩
  case pubkey =>
    have hexec : exec (.pubkey p) s = execPubkey p s := rfl
    rw [hexec, execPubkey, sesCmd_of_reach h]
    obtain ⟨hshow, hother, honly, hport⟩ := s.sesWrites p 5 0 fun x => { x with buf := memPutList x.buf 0 idKey }
    exact goesTo_ok ⟨hshow, hother, honly, by rw [hport]⟩
  case armsOwner =>
    have hexec : exec (.armOwner p) s = execArmOwner p s := rfl
    rw [hexec, execArmOwner, sesGated_of_reach h hses, if_neg (by simp [hown, hboth])]
    obtain ⟨hshow, hother, honly, hport⟩ := s.sesWrites p 6 0 fun x => { x with arm := some (1, memGetList (s.port p).buf 0 32, s.time) }
    exact goesTo_ok ⟨hshow, by rw [hport], hother, honly⟩
  case armsSvn =>
    have hexec : exec (.armSvn p) s = execArmSvn p s := rfl
    rw [hexec, execArmSvn, sesGated_of_reach h hses, if_neg (by simp [hboth]; omega)]
    obtain ⟨hshow, hother, honly, hport⟩ := s.sesWrites p 7 0 fun x => { x with arm := some (2, [], s.time) }
    exact goesTo_ok ⟨hshow, by rw [hport], hother, honly⟩
  case commitsOwner =>
    have hexec : exec (.commitFuse p) s = execCommitFuse p s := rfl
    rw [hexec, execCommitFuse, sesGated_of_reach h hses, harm]
    dsimp only
    rw [if_neg (by simp [hown]; omega)]
    exact goesTo_ok (State.fuseWritten ..)
  case commitsSvn =>
    have hexec : exec (.commitFuse p) s = execCommitFuse p s := rfl
    rw [hexec, execCommitFuse, sesGated_of_reach h hses, harm]
    dsimp only
    rw [if_neg (by simp; omega)]
    exact goesTo_ok (State.fuseWritten ..)
  case armEnds =>
    have hexec : exec (.fuseArmExpiry p) s = execFuseArmExpiry p s := rfl
    rw [hexec, execFuseArmExpiry, onPort, if_pos hp, harm]
    dsimp only
    rw [when_, if_pos (by simpa using hdue)]
    rfl

end Sys2Proof.Machine

end

section
/-! PROOFS. Meter records, frames and MTR_ registers (R510 to R514; O54). -/

namespace Sys2Proof.Machine

open Sys2Proof.Safety (Blk Only GoesTo Served SesReach)

/-- The five flags of a meter record stand at bits 0 to 4 (R510). -/
theorem meterFlags_bits (a b c d e : Bool) : let w := BitVec.ofNat 16 (b2n a + 2 * b2n b + 4 * b2n c + 8 * b2n d + 16 * b2n e)
    bitOf w 0 = a ∧ bitOf w 1 = b ∧ bitOf w 2 = c ∧ bitOf w 3 = d ∧ bitOf w 4 = e := by
  revert a b c d e
  decide

/-! ### What the panel keeps of a record (R512, R513) -/

variable (s : State)

@[simp] theorem State.raisePanel_mtr (code d0 d1 : Nat) : (s.raisePanel code d0 d1).mtr = s.mtr := s.raise_mtr _
/-- The events of a record change what of the meter says which were raised, and its ring's registers what the ring holds. -/
theorem State.recordEvents_field {α : Type} (π : Mtr → α) (hseal : ∀ x b, π { x with sealSeen := b } = π x) (hrange : ∀ x m, π { x with rangeMin := m } = π x) (r : MeterRec) :
    π (s.recordEvents r).mtr = π s.mtr := by
  unfold State.recordEvents
  extract_lets s1 s2 m
  have h1 : π s1.mtr = π s.mtr := by
    unfold s1
    split
    · rw [State.raisePanel_mtr]
      exact hseal ..
    · rfl
  have h2 : π s2.mtr = π s.mtr := by
    unfold s2
    split
    · rw [State.raisePanel_mtr, h1]
    · exact h1
  split
  · rw [State.raisePanel_mtr]
    exact (hrange ..).trans h2
  · exact h2
theorem State.ringRecord_field {α : Type} (π : Mtr → α) (hlost : ∀ x n, π { x with rlost := n } = π x) (htail : ∀ x n, π { x with rtail := n } = π x) (r : MeterRec) :
    π (s.ringRecord r).mtr = π s.mtr := by
  unfold State.ringRecord
  extract_lets x
  split
  · rfl
  · split
    · exact hlost ..
    · exact (htail ..).trans (congrArg π (mtr_of_only (bs := [.host]) (only_of_outside (by intros; simp)) (by decide)))
/-- A record that verifies enters the newest 256 where it belongs, and the rest of what the panel counts of records stays (R513). -/
theorem State.goodRecord_mtr (r : MeterRec) : (s.goodRecord r).mtr.badsig = s.mtr.badsig ∧
    (s.goodRecord r).mtr.recs = if s.mtr.takes r then (insertRec r s.time s.mtr.recs).take 256 else s.mtr.recs := by
  unfold State.goodRecord
  extract_lets new rx s1
  have hshown : ((rangeFrom 0 4).foldl (fun s q => s.modPort q fun p => p.meterShow r rx s.mtr.oldest) s1).mtr = s1.mtr :=
    mtr_of_only (bs := [.host]) (only_of_outside (by intros; simp)) (by decide)
  rw [hshown]
  unfold s1
  by_cases hnew : new = true
  · rw [if_pos hnew, if_pos hnew, State.ringRecord_field _ (fun x => x.badsig) (fun _ _ => rfl) fun _ _ => rfl, State.ringRecord_field _ (fun x => x.recs) (fun _ _ => rfl) fun _ _ => rfl,
      State.recordEvents_field _ (fun x => x.badsig) (fun _ _ => rfl) fun _ _ => rfl, State.recordEvents_field _ (fun x => x.recs) (fun _ _ => rfl) fun _ _ => rfl]
    exact ⟨rfl, rfl⟩
  · rw [if_neg hnew, if_neg hnew]
    exact ⟨rfl, rfl⟩

/-- A frame on a live link is noted, and its contents are looked at. -/
theorem exec_meterFrame {s : State} (hsv : s.svRuns = true) (hlost : s.mtr.lost = false) (f : MeterFrame) :
    let s1 := s.modMtr fun x => { x with lastFrame := some s.time, lost := false }
    exec (.meterFrame f) s = match f with
      | .key b => ok (s1.modMtr fun x => { x with keyOk := shake256 (fit 1952 b) == shake256 meterPub })
      | .record r => if !s.mtr.keyOk then ok s1 else if verifies meterPub (MeterRec_body r) (fit 3309 r.sig) then ok (s1.goodRecord r)
        else ok ((s1.modMtr fun x => { x with badsig := x.badsig + 1 }).raisePanel 0x0614 r.seq.toNat (s.mtr.badsig + 1).toNat) := by
  have hexec : exec (.meterFrame f) s = execMeterFrame f s := rfl
  intro s1
  rw [hexec, execMeterFrame, when_, if_pos hsv]
  dsimp only
  rw [if_neg (by rw [hlost]; decide)]
  cases f <;> rfl
theorem Mtr.link_kept {x : Mtr} (h : x.lost = false) (n : Nat) : ({ x with lastFrame := some n, lost := false } : Mtr) = { x with lastFrame := some n } := by
  rw [← h]

/-- Settles O54. -/
theorem meterCompletes : Obligations.MeterCompletes := by
  refine ⟨fun m s hon hover => ?records, fun r s hsv hlost hkey => ?passedOver, fun s hon => ?seals, fun b s hsv hlost => ?key, fun r s hsv hlost hkey hgood => ?good,
    fun r s hsv hlost hkey hbad => ?bad, fun t s hsv hlost hlast hdue => ?linkLost, fun p v s h => ?selects, fun p v s h => ?head, fun v s h => ?configures⟩
  case records =>
    have hexec : exec (.meterRecord m) s = execMeterRecord m s := rfl
    rw [hexec, execMeterRecord, when_, if_pos (by rw [hon, hover]; rfl)]
    have hflags := meterFlags_bits (s.mtr.sealBit || m.tamper) m.tamper s.mtr.gap m.range m.refFail
    obtain ⟨h0, h1, h2, h3, h4⟩ := hflags
    exact goesTo_ok ⟨rfl, rfl, rfl, rfl, rfl, only_of_outside (by intros; simp), _, rfl, rfl, rfl, h0, h1, h2, h3, h4, rfl, rfl⟩
  case passedOver =>
    refine goesTo_of_eq ((exec_meterFrame hsv hlost (.record r)).trans (if_pos (by rw [hkey]; rfl))) ?_
    exact Mtr.link_kept hlost s.time
  case seals =>
    have hexec : exec .mtrSeal s = execMtrSeal s := rfl
    rw [hexec, execMtrSeal, when_, if_pos hon]
    rfl
  case key => exact exec_meterFrame hsv hlost (.key b)
  case good =>
    refine goesTo_of_eq ((exec_meterFrame hsv hlost (.record r)).trans ((if_neg (by rw [hkey]; decide)).trans (if_pos hgood))) ?_
    exact State.goodRecord_mtr _ r
  case bad =>
    refine goesTo_of_eq ((exec_meterFrame hsv hlost (.record r)).trans ((if_neg (by rw [hkey]; decide)).trans (if_neg (by rw [hbad]; decide)))) ?_
    rw [State.raisePanel_mtr]
    exact congrArg (fun x : Mtr => { x with badsig := s.mtr.badsig + 1 }) (Mtr.link_kept hlost s.time)
  case linkLost =>
    have hexec : exec .mtrLinkLost s = execMtrLinkLost s := rfl
    rw [hexec, execMtrLinkLost, when_, if_pos (by simp [hsv, hlost, hlast, hdue])]
    exact goesTo_ok (State.raisePanel_mtr ..)
  case selects =>
    intro q
    have hexec : exec (.mtrSelect p v) s = execMtrSelect p v s := rfl
    rw [hexec, execMtrSelect, onPort, if_pos h.1, when_, if_pos (by rw [h.2.1, h.2.2]; rfl)]
    refine goesTo_ok ⟨fun n hn => by simp [hn], only_of_outside (by intros; simp), fun e he => ?_, fun he hold => ?_, fun he hnew => ?_⟩
    · rw [State.modPort_port, if_pos rfl]
      dsimp only
      rw [he]
      exact ⟨rfl, rfl⟩
    · rw [State.modPort_port, if_pos rfl]
      dsimp only
      rw [he]
      dsimp only
      rw [if_pos hold]
    · rw [State.modPort_port, if_pos rfl]
      dsimp only
      rw [he]
      dsimp only
      rw [if_neg (Nat.not_lt.2 hnew)]
  case head =>
    have hexec : exec (.mtrRhead p v) s = execMtrRhead p v s := rfl
    rw [hexec, execMtrRhead, onPort, if_pos h.1, when_, if_pos (by rw [h.2.1, h.2.2]; rfl)]
    rfl
  case configures =>
    have hexec : exec (.mtrRcfg 0 v) s = execMtrRcfg 0 v s := rfl
    rw [hexec, execMtrRcfg, gated0_of_managed h.1, when_, if_pos h.2]
    refine goesTo_ok ⟨?_, ?_, ?_, fun hen hoff => ?_, fun hon => ?_, only_of_outside (by intros; simp)⟩
    · rw [State.modMtr_mtr]
      dsimp only
      split <;> rfl
    · rw [State.modMtr_mtr]
      dsimp only
      split <;> rfl
    · rw [State.modMtr_mtr]
      dsimp only
      split <;> rfl
    · rw [State.modMtr_mtr]
      dsimp only
      rw [if_pos ⟨hen, hoff⟩]
      exact ⟨rfl, rfl, rfl⟩
    · rw [State.modMtr_mtr]
      dsimp only
      rw [if_neg (by rw [hon]; simp)]
      exact ⟨rfl, rfl⟩

end Sys2Proof.Machine

end

section
/-! PROOFS. What the operations at one tile leave of the other tiles and of the health registers (R203 to R206, R256, R472 to R477). -/

namespace Sys2Proof.Machine

open Sys2Proof.Safety (Blk Only)

/-- Every tile but `t`, and the health registers beside the fault history, which every penalty writes. -/
def State.besideTile (t : Nat) (s : State) : (Nat → Tile) × Hlt := (fun n => if n = t then {} else s.tile n, { s.hlt with history := [] })

theorem State.tile_of_beside {s u : State} {t n : Nat} (h : u.besideTile t = s.besideTile t) (hn : n ≠ t) : u.tile n = s.tile n := by
  have hfun := congrArg (fun m => m.1 n) h
  simpa [State.besideTile, hn] using hfun
theorem State.hlt_of_beside {s u : State} {t : Nat} (h : u.besideTile t = s.besideTile t) {α : Type} (π : Hlt → α) (hπ : ∀ x l, π { x with history := l } = π x) : π u.hlt = π s.hlt := by
  rw [← hπ u.hlt [], ← hπ s.hlt []]
  exact congrArg (fun m => π m.2) h
theorem State.besideTile_of_eq {s u : State} (t : Nat) (ht : u.tiles = s.tiles) (hh : u.hlt = s.hlt) : u.besideTile t = s.besideTile t := by
  simp only [State.besideTile, State.tile, ht, hh]
theorem State.besideTile_of_only {s u : State} {bs : List Blk} (t : Nat) (h : Only bs s u) (ht : Blk.tiles ∉ bs) (hh : Blk.hlt ∉ bs) : u.besideTile t = s.besideTile t :=
  State.besideTile_of_eq t (tiles_of_only h ht) (hlt_of_only h hh)

@[simp] theorem besideTile_ite (t : Nat) (c : Prop) [Decidable c] (a b : State) : (if c then a else b).besideTile t = if c then a.besideTile t else b.besideTile t := apply_ite ..
@[simp] theorem besideTile_foldl {α : Type} (t : Nat) (g : State → α → State) (h : ∀ s a, (g s a).besideTile t = s.besideTile t) (l : List α) (s : State) :
    (l.foldl g s).besideTile t = s.besideTile t := BesideEvents.foldl (π := State.besideTile t) h l s

variable (s : State) (t : Nat)

/-! ### Updates in one piece -/

@[simp] theorem State.setTile_besideTile (x : Tile) : (s.setTile t x).besideTile t = s.besideTile t := by
  refine Prod.ext (funext fun n => ?_) rfl
  by_cases hn : n = t <;> simp [State.besideTile, hn]
@[simp] theorem State.modTile_besideTile (f : Tile → Tile) : (s.modTile t f).besideTile t = s.besideTile t := s.setTile_besideTile t _
@[simp] theorem State.modSite_besideTile (p : Nat) (f : Site → Site) : (s.modSite p f).besideTile t = s.besideTile t := Eq.symm rfl
@[simp] theorem State.modHost_besideTile (f : HostIf → HostIf) : (s.modHost f).besideTile t = s.besideTile t := Eq.symm rfl
@[simp] theorem State.modFab_besideTile (f : Fabric → Fabric) : (s.modFab f).besideTile t = s.besideTile t := Eq.symm rfl
@[simp] theorem State.modCtx_besideTile (c : Nat) (f : Ctx → Ctx) : (s.modCtx c f).besideTile t = s.besideTile t := Eq.symm rfl
@[simp] theorem State.spendN_besideTile (n : Nat) : (s.spendN n).besideTile t = s.besideTile t := Eq.symm rfl
@[simp] theorem State.note_besideTile (x : FaultNote) : (s.note x).besideTile t = s.besideTile t := Eq.symm rfl
@[simp] theorem State.tag_besideTile (p : Nat) (b : Bool) : (s.tag p b).besideTile t = s.besideTile t := Eq.symm rfl
@[simp] theorem State.raise_besideTile (e : Ev) : (s.raise e).besideTile t = s.besideTile t := State.besideTile_of_only t (s.raise_only e) (by decide) (by decide)
@[simp] theorem State.raiseTile_besideTile (code n core : Nat) (ctx : Option (Nat × Nat)) (d0 d1 : Nat) : (s.raiseTile code n core ctx d0 d1).besideTile t = s.besideTile t := s.raise_besideTile t _
@[simp] theorem State.raiseSite_besideTile (code p d0 d1 : Nat) : (s.raiseSite code p d0 d1).besideTile t = s.besideTile t := s.raise_besideTile t _

/-! ### Scores and candidates (R472 to R474) -/

@[simp] theorem State.noteLost_besideTile (n : Nat) : (s.noteLost n).besideTile t = s.besideTile t := by simp [State.noteLost]
@[simp] theorem State.fence_besideTile : (s.fence t).besideTile t = s.besideTile t := by simp [State.fence]
@[simp] theorem State.candidate_besideTile (why : Nat) : (s.candidate t why).besideTile t = s.besideTile t := by simp [State.candidate]
@[simp] theorem State.scoreCheck_besideTile : (s.scoreCheck t).besideTile t = s.besideTile t := by simp [State.scoreCheck]
@[simp] theorem State.penalise_besideTile (kind : Nat) : (s.penalise t kind).besideTile t = s.besideTile t := by
  simp only [State.penalise, State.scoreCheck_besideTile, State.modTile_besideTile]
  exact Eq.symm rfl
@[simp] theorem State.beginRetest_besideTile (why : Nat) : (s.beginRetest t why).besideTile t = s.besideTile t := by simp [State.beginRetest]
@[simp] theorem State.sliceFails_besideTile : (s.sliceFails t).besideTile t = s.besideTile t := by simp [State.sliceFails]

/-! ### Bytes that land, and loads (R203 to R206, R256) -/

@[simp] theorem State.sramUe_besideTile (w : Nat) : (s.sramUe t w).besideTile t = s.besideTile t := by simp [State.sramUe]
@[simp] theorem State.sramUes_besideTile (ws : List Nat) : (s.sramUes t ws).besideTile t = s.besideTile t := by simp [State.sramUes]
@[simp] theorem State.wild_besideTile : (s.wild t).besideTile t = s.besideTile t := by simp [State.wild]
@[simp] theorem State.sramStore_besideTile (a : Nat) (bs : List Byte) : (s.sramStore t a bs).besideTile t = s.besideTile t := by simp [State.sramStore]
@[simp] theorem State.landSram_besideTile (a : Nat) (bs : List Byte) : (s.landSram t a bs).besideTile t = s.besideTile t := by simp [State.landSram]
@[simp] theorem State.landScr_besideTile (a : Nat) (bs : List Byte) : (s.landScr t a bs).besideTile t = s.besideTile t := by simp [State.landScr]
@[simp] theorem State.loadWild_besideTile (r : LoadReq) : (s.loadWild t r).besideTile t = s.besideTile t := by simp [State.loadWild]
@[simp] theorem State.endDesc_besideTile (c : Nat) (n : W32) (x : Ending) : (s.endDesc c n x).besideTile t = s.besideTile t := by
  unfold State.endDesc
  split <;> simp [State.modDesc]
@[simp] theorem State.loadCheck_besideTile (c : Nat) (n : W32) : (s.loadCheck c n).besideTile t = s.besideTile t := by
  unfold State.loadCheck
  repeat' split
  all_goals simp
@[simp] theorem State.loadReport_besideTile (c : Nat) (n : W32) (k st : Nat) : (s.loadReport c n k st).besideTile t = s.besideTile t := by simp [State.loadReport, State.modDesc]
@[simp] theorem State.loadStop_besideTile (st : Nat) : (s.loadStop t st).besideTile t = s.besideTile t := by
  unfold State.loadStop
  split <;> simp
@[simp] theorem State.loadsEnd_besideTile : (s.loadsEnd t).besideTile t = s.besideTile t := by simp [State.loadsEnd]
@[simp] theorem State.zeroTile_besideTile : (s.zeroTile t).besideTile t = s.besideTile t := by simp [State.zeroTile]
@[simp] theorem State.inject_besideTile (at_ : Place) (own : Option Nat) (site : Nat) (pkt : Packet) : (s.inject at_ own site pkt).besideTile t = s.besideTile t :=
  State.besideTile_of_only (bs := [.sites, .fab, .host, .spi]) t (only_of_outside (by intros; simp)) (by decide) (by decide)
@[simp] theorem State.tileRead_besideTile (k core : Nat) (x : Trk) (a : W64) : (s.tileRead t k core x a).besideTile t = s.besideTile t := by
  simp [State.tileRead, State.tileSeq]
@[simp] theorem State.loaderAsk_besideTile (fuel : Nat) : (s.loaderAsk t fuel).besideTile t = s.besideTile t := by
  induction fuel generalizing s with
  | zero => rfl
  | succ fuel ih =>
    cases hcur : (s.tile t).ld.cur with
    | none => simp [State.loaderAsk, hcur]
    | some r =>
      cases hfree : (s.tile t).freeTrk with
      | none => simp [State.loaderAsk, hcur, hfree]
      | some k => simp [State.loaderAsk, hcur, hfree, ih]
@[simp] theorem State.loadBegin_besideTile (r : LoadReq) : (s.loadBegin t r).besideTile t = s.besideTile t := by simp [State.loadBegin]
@[simp] theorem State.loadNext_besideTile : (s.loadNext t).besideTile t = s.besideTile t := by
  unfold State.loadNext
  split <;> simp

/-! ### Retirements and commands (R475, R476) -/

@[simp] theorem State.holeTile_besideTile : (s.holeTile t).besideTile t = s.besideTile t := by simp [State.holeTile]
@[simp] theorem State.fencedOrHole_besideTile : (s.fencedOrHole t).besideTile t = s.besideTile t := by simp [State.fencedOrHole]
@[simp] theorem State.tileReturns_besideTile : (s.tileReturns t).besideTile t = s.besideTile t := by simp [State.tileReturns]
@[simp] theorem State.retestPass_besideTile : (s.retestPass t).besideTile t = s.besideTile t := by simp [State.retestPass]
@[simp] theorem State.detectAt_besideTile (p c k : Nat) : (s.detectAt p c k).besideTile t = s.besideTile t :=
  State.besideTile_of_only (bs := [.sites, .host, .spi]) t (only_of_outside (by intros; simp)) (by decide) (by decide)
@[simp] theorem State.relimit_besideTile (p : Nat) : (s.relimit p).besideTile t = s.besideTile t := State.besideTile_of_only t (s.relimit_only p) (by decide) (by decide)
@[simp] theorem State.sliceCleared_besideTile (n : Nat) : (s.sliceCleared n).besideTile t = s.besideTile t := by simp [State.sliceCleared]

end Sys2Proof.Machine

end

section
/-! PROOFS. Self-test slices, hours, retests, remap stops and compute resets (R469 to R477; O49). -/

namespace Sys2Proof.Machine

open Sys2Proof.Safety (Blk Only GoesTo)

/-! ### DEFECT entries (R443, R475, R476) -/

/-- The unit that a word names does not depend on its cause. -/
theorem unitOf_defectWord (kind pc pr trow tpos face link : Nat) {c : Nat} (hc : c < 4096) :
    unitOf (defectWord kind pc pr trow tpos face link c) = unitOf (defectWord kind pc pr trow tpos face link 0) := by
  simp only [unitOf, bitsOf, defectWord, BitVec.toNat_ofNat]
  omega
theorem State.unitOf_tileDefect (s : State) (t : Nat) {c : Nat} (hc : c < 4096) : unitOf (s.tileDefect t c) = unitOf (s.tileDefect t 0) := unitOf_defectWord _ _ _ _ _ _ _ hc
theorem State.addDefect_enters (s : State) (w : W64) (b : Bool) : ∃ d ∈ (s.addDefect w b).hlt.defects, unitOf d.word0 = unitOf w := by
  unfold State.addDefect
  extract_lets q s1
  rw [State.modHlt_hlt]
  split
  · next hany =>
    obtain ⟨d, hd, hu⟩ := List.any_eq_true.1 hany
    exact ⟨_, List.mem_map.2 ⟨d, hd, if_pos (by simpa using hu)⟩, rfl⟩
  · exact ⟨_, List.mem_append_right _ (List.mem_singleton.2 rfl), rfl⟩
theorem State.addDefect_hlt_field {α : Type} (π : Hlt → α) (hπ : ∀ h l, π { h with defects := l } = π h) (s : State) (w : W64) (b : Bool) : π (s.addDefect w b).hlt = π s.hlt := by
  unfold State.addDefect
  extract_lets q s1
  rw [State.modHlt_hlt]
  split <;> exact hπ ..
theorem State.addDefect_only (s : State) (w : W64) (b : Bool) : Only [.spi, .hlt] s (s.addDefect w b) := only_of_outside (by intros; simp)
@[simp] theorem State.addDefect_tile (s : State) (w : W64) (b : Bool) (n : Nat) : (s.addDefect w b).tile n = s.tile n := tile_of_only (s.addDefect_only w b) (by decide) n

/-! ### Fenced tiles and holes (R32, R475) -/

variable (s : State) (t : Nat)

@[simp] theorem State.raiseTile_tile (code n core : Nat) (ctx : Option (Nat × Nat)) (d0 d1 j : Nat) : (s.raiseTile code n core ctx d0 d1).tile j = s.tile j := s.raise_tile _ j
@[simp] theorem State.raiseTile_hlt (code n core : Nat) (ctx : Option (Nat × Nat)) (d0 d1 : Nat) : (s.raiseTile code n core ctx d0 d1).hlt = s.hlt := s.raise_hlt _
@[simp] theorem State.raiseTile_sites (code n core : Nat) (ctx : Option (Nat × Nat)) (d0 d1 : Nat) : (s.raiseTile code n core ctx d0 d1).sites = s.sites := s.raise_sites _
@[simp] theorem State.raiseTile_site (code n core : Nat) (ctx : Option (Nat × Nat)) (d0 d1 p : Nat) : (s.raiseTile code n core ctx d0 d1).site p = s.site p := s.raise_site _ p
@[simp] theorem State.retestPass_tile (n : Nat) : (s.retestPass t).tile n = s.tile n := s.raise_tile _ n
@[simp] theorem State.retestPass_hlt : (s.retestPass t).hlt = s.hlt := s.raise_hlt _
@[simp] theorem State.retestPass_site (p : Nat) : (s.retestPass t).site p = s.site p := s.raise_site _ p

theorem Site.sparePos_congr {x y : Site} (h : x.tmap = y.tmap) (tr : Nat) : x.sparePos tr = y.sparePos tr := by
  have hrow : x.tmapRow tr = y.tmapRow tr := by rw [Site.tmapRow, Site.tmapRow, h]
  rw [Site.sparePos, Site.sparePos, hrow]
theorem State.tilePhys_congr {s u : State} (h : u.hlt.smap = s.hlt.smap) (t : Nat) : u.tilePhys t = s.tilePhys t := by
  rw [State.tilePhys, State.tilePhys, State.phys, State.phys, State.smapRow, State.smapRow, h]
/-- Whether a row's spare is usable turns on the site remap, the defect map and the tile remap. -/
theorem State.spareOk_congr {s u : State} (hsmap : u.hlt.smap = s.hlt.smap) (hdef : u.hlt.defects = s.hlt.defects) (htmap : ∀ p, (u.site p).tmap = (s.site p).tmap) (t : Nat) :
    u.spareOk t = s.spareOk t := by
  rw [State.spareOk, State.spareOk, State.tilePhys_congr hsmap, Site.sparePos_congr (htmap _), State.posBad, State.posBad, hdef]
theorem State.fencedOrHole_tile (n : Nat) : (s.fencedOrHole t).tile n = if n = t ∧ s.spareOk t = false then { s.tile t with st := .hole } else s.tile n := by
  unfold State.fencedOrHole State.holeTile
  cases s.spareOk t with
  | true => simp
  | false =>
    by_cases hn : n = t <;> simp [hn]
theorem State.fencedOrHole_only : Only [.tiles, .host, .spi] s (s.fencedOrHole t) := only_of_outside (by intros; simp)
theorem State.tileEntry_tile (c : Nat) (b : Bool) (n : Nat) : (s.tileEntry t c b).tile n = if n = t then { s.tile t with lastCause := c } else s.tile n := by
  simp [State.tileEntry]
/-- A tile that is retired is fenced, or a hole, under its DEFECT entry; the other tiles stay. -/
theorem State.retireTile_tile (c : Nat) (b : Bool) (n : Nat) : ∃ st, (st = .fenced ∨ st = .hole) ∧ (s.retireTile t c b).tile n = if n = t then { s.tile t with lastCause := c, st := st } else s.tile n := by
  unfold State.retireTile
  extract_lets q s1
  have h1 (j : Nat) : s1.tile j = if j = t then { s.tile t with lastCause := c, st := .fenced } else s.tile j := by
    unfold s1
    rw [State.modTile_tile, State.tileEntry_tile, State.tileEntry_tile, if_pos rfl]
    split <;> rfl
  by_cases hn : n = t
  · subst hn
    rw [State.fencedOrHole_tile, State.raiseTile_tile, h1, if_pos rfl]
    split
    · exact ⟨.hole, .inr rfl, by rw [if_pos rfl]⟩
    · exact ⟨.fenced, .inl rfl, by rw [if_pos rfl]⟩
  · exact ⟨.fenced, .inl rfl, by rw [State.fencedOrHole_tile, if_neg fun h => hn h.1, State.raiseTile_tile, h1, if_neg hn]⟩
theorem State.retireTile_hlt (c : Nat) (b : Bool) : (s.retireTile t c b).hlt = (s.addDefect (s.tileDefect t c) b).hlt := by
  unfold State.retireTile
  rw [hlt_of_only (State.fencedOrHole_only ..) (by decide), State.raiseTile_hlt]
  rfl

/-! ### Tiles that are zeroed (R27, R473) -/

@[simp] theorem Tile.wild_st (T : Tile) (n : Nat) : (T.wild n).st = T.st := by
  have hsram : (T.wildSram n).st = T.st := List.foldlRecOn (motive := fun x : Tile => x.st = T.st) _ _ rfl fun x hx p _ => hx
  unfold Tile.wild
  exact List.foldlRecOn (motive := fun x : Tile => x.st = T.st) _ _ hsram fun x hx p _ => hx
@[simp] theorem State.endDesc_tiles (s : State) (c : Nat) (n : W32) (x : Ending) : (s.endDesc c n x).tiles = s.tiles := by
  unfold State.endDesc
  repeat' split
  all_goals rfl
@[simp] theorem State.loadReport_tiles (s : State) (c : Nat) (n : W32) (k st : Nat) : (s.loadReport c n k st).tiles = s.tiles := by
  unfold State.loadReport State.loadCheck
  repeat' split
  all_goals simp [State.modDesc]
/-- A fenced tile stays fenced when bytes land in it and when its loads end. -/
def State.Fenced (s : State) : Prop := (s.tile t).st = .fenced

variable {s t}

theorem State.Fenced.of_tiles {u : State} (h : s.Fenced t) (ht : u.tiles = s.tiles) : u.Fenced t := by
  simpa [State.Fenced, State.tile, ht] using h
theorem State.Fenced.modTile (h : s.Fenced t) {f : Tile → Tile} (hf : ∀ T, (f T).st = T.st) : (s.modTile t f).Fenced t := by
  simpa [State.Fenced, hf] using h
theorem State.Fenced.foldl {α : Type} {g : State → α → State} (hg : ∀ s a, s.Fenced t → (g s a).Fenced t) (l : List α) (h : s.Fenced t) : (l.foldl g s).Fenced t :=
  List.foldlRecOn (motive := fun u : State => u.Fenced t) l g h fun u hu a _ => hg u a hu
theorem State.Fenced.penalise (h : s.Fenced t) (k : Nat) : (s.penalise t k).Fenced t := by
  unfold State.penalise
  extract_lets n p s1
  have h1 : (s1.modTile t fun T => { T with score := T.score - n, quietSince := s1.time }).Fenced t := by
    refine State.Fenced.modTile (s := s1) (h.of_tiles rfl) ?_
    exact fun _ => rfl
  generalize (s1.modTile t fun T => { T with score := T.score - n, quietSince := s1.time }) = s2 at h1
  unfold State.scoreCheck
  split
  · exact h1.modTile fun _ => rfl
  · simp only [show (s2.tile t).st = .fenced from h1, reduceCtorEq, false_and, or_self, and_false, if_false]
    exact h1
theorem State.Fenced.sramUes (h : s.Fenced t) (ws : List Nat) : (s.sramUes t ws).Fenced t := by
  refine State.Fenced.foldl (fun u w hu => ?_) ws h
  unfold State.sramUe
  extract_lets T known s1
  have h1 : s1.Fenced t := by simpa [State.Fenced, s1] using hu
  split
  · exact h1
  · exact State.Fenced.penalise (h1.of_tiles (s1.raise_tiles _)) 2
theorem State.Fenced.landSram (h : s.Fenced t) (a : Nat) (bs : List Byte) : (s.landSram t a bs).Fenced t := by
  unfold State.landSram
  have hput : (s.setTile t ((s.tile t).sramPut a (guardBytes (s.tile t).sram (s.tile t).badSram a (a + bs.length) a bs))).Fenced t := by
    rw [State.Fenced, State.setTile_tile, if_pos rfl]
    exact h
  have hstore : (s.sramStore t a (guardBytes (s.tile t).sram (s.tile t).badSram a (a + bs.length) a bs)).Fenced t := by
    unfold State.sramStore
    dsimp only
    split
    · exact State.Fenced.of_tiles (hput.modTile fun _ => Tile.wild_st ..) rfl
    · exact hput
  dsimp only
  generalize s.sramStore t a _ = s1 at hstore
  refine State.Fenced.sramUes ?_ _
  refine hstore.modTile ?_
  exact fun _ => rfl
theorem State.Fenced.landScr (h : s.Fenced t) (a : Nat) (bs : List Byte) : (s.landScr t a bs).Fenced t := by
  unfold State.landScr
  refine State.Fenced.sramUes ?_ _
  rw [State.Fenced, State.setTile_tile, if_pos rfl]
  unfold Tile.scrPut
  dsimp only
  change (if (s.tile t).guarded then _ else _ : Tile).st = _
  split <;> exact h
theorem State.Fenced.loadStop (h : s.Fenced t) (k : Nat) : (s.loadStop t k).Fenced t := by
  unfold State.loadStop
  split
  · exact h
  · next r _ =>
    refine State.Fenced.of_tiles (s := _) (State.Fenced.modTile ?_ fun T => ?_) (State.loadReport_tiles ..)
    · unfold State.loadWild
      dsimp only
      have hspend : (s.spendN r.len).Fenced t := h.of_tiles rfl
      split
      · split
        · exact State.Fenced.foldl (fun u c hu => hu.landScr _ _) _ hspend
        · exact hspend.landSram _ _
      · exact h
    · exact List.foldlRecOn (motive := fun x : Tile => x.st = T.st) _ _ rfl fun x hx c _ => hx
theorem State.Fenced.zeroTile (h : s.Fenced t) : (s.zeroTile t).Fenced t := by
  refine State.Fenced.modTile ?_ fun _ => rfl
  unfold State.loadsEnd
  refine State.Fenced.foldl (fun u r hu => hu.of_tiles ?_) _ (State.Fenced.modTile (h.loadStop 5) fun _ => rfl)
  exact State.loadReport_tiles ..

end Sys2Proof.Machine

end

section
/-! PROOFS. Self-test slices, the hour, confirming retests, remap stops and compute resets complete (R469 to R477; O49). -/

namespace Sys2Proof.Machine

open Sys2Proof.Safety (Blk Only GoesTo)

/-! ### Slices and hours (R469 to R474) -/

/-- A slice that failed takes the tile's whole score. -/
def State.sliceFailed (s : State) (t : Nat) : State :=
  ((s.tag (s.tilePhys t) true).modTile t fun T => { T with sliceAt := some s.time }).modTile t fun T =>
    { T with score := 0, quietSince := s.time, detCell := (s.tileSt t).mrg.cell, detStep := (s.tileSt t).clk.cur }
theorem exec_selfTestSlice_fails {s : State} {t : Nat} (ht : t < 32768) (hst : (s.tileSt t).st = .active) (hruns : s.runs t = true) (hdue : s.sliceDue t = true) :
    exec (.selfTestSlice t false) s = if s.svRuns then ok ((s.sliceFailed t).sliceFails t) else ok ((s.sliceFailed t).modTile t fun T => { T with due := 2 }) := by
  have hexec : exec (.selfTestSlice t false) s = execSelfTestSlice t false s := rfl
  rw [hexec, execSelfTestSlice, onTile, if_pos ht]
  dsimp only
  rw [when_, if_pos (by simp [show (s.site (s.tilePhys t)).st = .active from hst, hruns, hdue]), if_neg (by decide)]
  rfl
theorem State.fence_tile (s : State) (t : Nat) : ((s.fence t).tile t).st = .fenced ∧ ((s.fence t).tile t).score = (s.tile t).score ∧ ((s.fence t).tile t).cand = (s.tile t).cand := by
  have hnote : (s.noteLost t).tiles = s.tiles := tiles_of_only (bs := [.host]) (only_of_outside (by intros; simp)) (by decide)
  unfold State.fence
  rw [State.modTile_tile, if_pos rfl]
  simp [State.tile, hnote]
/-- A tile whose slice fails, while a service die runs, is fenced and retested as a candidate. -/
theorem State.sliceFails_tile (s : State) (t : Nat) : ((s.sliceFails t).tile t).score = (s.tile t).score ∧ ((s.sliceFails t).tile t).st = .fenced ∧ ((s.sliceFails t).tile t).cand = true ∧
    ((s.sliceFails t).tile t).retest = true := by
  unfold State.sliceFails
  extract_lets T s1
  have h1 : (s1.tile t).score = (s.tile t).score ∧ (s1.tile t).cand = (s.tile t).cand := by
    unfold s1
    split
    · simp
    · exact ⟨rfl, rfl⟩
  clear_value s1
  split
  · next hc =>
    obtain ⟨hst, hscore, hcand⟩ := s1.fence_tile t
    simpa [State.beginRetest, hst, hscore, hcand, h1] using hc
  · next hc =>
    unfold State.candidate
    rw [if_neg (by rw [h1.2]; exact hc)]
    dsimp only
    split
    · obtain ⟨hst, hscore, hcand⟩ := ((s1.modTile t fun T => { T with cand := true, candBy := 2 }).raiseTile 0x0501 t 0 none t 2).fence_tile t
      simp only [State.modTile_tile, if_true, hst, hscore, hcand, State.raiseTile_tile, h1]
      simp
    · rw [if_pos rfl]
      generalize hs2 : (s1.modTile t fun T => { T with cand := true, defer_ := true, candBy := 2, deferAt := s1.time }) = s2
      obtain ⟨hst, hscore, hcand⟩ := (s2.raiseTile 0x0504 t 0 none t (s2.rowHours t)).fence_tile t
      have h2 : (s2.tile t).score = (s.tile t).score ∧ (s2.tile t).cand = true := by
        rw [← hs2, State.modTile_tile, if_pos rfl]
        exact ⟨h1.1, rfl⟩
      simp only [State.modTile_tile, if_true, hst, hscore, hcand, State.raiseTile_tile, h2]
      simp
theorem State.tileHours_hourAt (l : List Nat) (s : State) : (l.foldl State.tileHour s).hlt.hourAt = s.hlt.hourAt := by
  refine List.foldlRecOn (motive := fun u : State => u.hlt.hourAt = s.hlt.hourAt) l _ rfl fun u hu t _ => ?_
  refine Eq.trans ?_ hu
  refine State.hlt_of_beside (t := t) ?_ (fun x => x.hourAt) fun _ _ => rfl
  simp [State.tileHour]

/-! ### Loads that begin (R203) -/

/-- What a tile is beside its trackers and its loader stays while its loader asks. -/
theorem State.loaderAsk_field {α : Type} (π : Tile → α) (hπ : ∀ T q k l, π { T with seqs := q, trks := k, ld := l } = π T) (t fuel : Nat) (s : State) :
    π ((s.loaderAsk t fuel).tile t) = π (s.tile t) := by
  have hread (u : State) (k core : Nat) (x : Trk) (a : W64) : π ((u.tileRead t k core x a).tile t) = π (u.tile t) := by
    unfold State.tileRead State.tileSeq
    dsimp only
    rw [tile_of_only (bs := [.sites, .fab, .host, .spi]) (only_of_outside (by intros; exact State.inject_outside ..)) (by decide), State.modTile_tile, if_pos rfl, State.modTile_tile, if_pos rfl]
    exact hπ (u.tile t) _ _ _
  induction fuel generalizing s with
  | zero => rfl
  | succ fuel ih =>
    cases hcur : (s.tile t).ld.cur with
    | none => simp [State.loaderAsk, hcur]
    | some r =>
      cases hfree : (s.tile t).freeTrk with
      | none => simp [State.loaderAsk, hcur, hfree]
      | some k =>
        simp only [State.loaderAsk, hcur, hfree]
        split
        · rw [ih, hread, State.modTile_tile, if_pos rfl]
          exact hπ (s.tile t) _ _ _
        · rfl
theorem State.loadNext_field {α : Type} (s : State) (t : Nat) (π : Tile → α) (hπ : ∀ T q k l, π { T with seqs := q, trks := k, ld := l } = π T) : π ((s.loadNext t).tile t) = π (s.tile t) := by
  unfold State.loadNext
  split
  · unfold State.loadBegin
    rw [State.loaderAsk_field π hπ, State.modTile_tile, if_pos rfl, State.modTile_tile, if_pos rfl]
    exact hπ (s.tile t) _ _ _
  · rfl
theorem State.loadNext_of_none (s : State) (t : Nat) (h : (s.tile t).ld.waiting = []) : s.loadNext t = s := by
  unfold State.loadNext
  rw [h]
  cases (s.tile t).ld.cur <;> rfl

/-! ### Rows whose spare is spent (R20, R21, R32) -/

/-- Of a row whose spare is spent only fenced tiles change: they become holes. -/
theorem State.rowSpent_tile (s : State) (p tr n : Nat) : (s.rowSpent p tr).tile n = s.tile n ∨ ((s.tile n).st = .fenced ∧ (s.rowSpent p tr).tile n = { s.tile n with st := .hole }) := by
  refine List.foldlRecOn (motive := fun u : State => u.tile n = s.tile n ∨ ((s.tile n).st = .fenced ∧ u.tile n = { s.tile n with st := .hole })) _ _ (.inl rfl) fun u hu t _ => ?_
  dsimp only
  split
  · next h =>
    rw [State.fencedOrHole_tile]
    split
    · next hn =>
      obtain ⟨rfl, -⟩ := hn
      rcases hu with hu | ⟨-, hu⟩
      · exact .inr ⟨by rw [← hu]; exact h.1, by rw [hu]⟩
      · rw [hu] at h
        exact absurd h.1 TileSt.noConfusion
    · exact hu
  · exact hu
theorem State.rowSpent_only (s : State) (p tr : Nat) : Only [.tiles, .host, .spi] s (s.rowSpent p tr) := only_of_outside (by intros; simp)
theorem lset_ne_nil {α : Type} {l : List α} (h : l ≠ []) (k : Nat) (v : α) : lset l k v ≠ [] := by
  rw [← List.length_pos_iff, length_lset, List.length_pos_iff]
  exact h
theorem Site.tmapRow_ne_nil (x : Site) (tr : Nat) : x.tmapRow tr ≠ [] := by
  unfold Site.tmapRow
  dsimp only
  split
  · decide
  · next h => exact h
/-- A row that is written to the remap of a site is read back, however it is kept. -/
theorem Site.tmapRow_tput {x : Site} {tr : Nat} {row : List Nat} (hrow : row ≠ []) (r : Nat) :
    ({ x with tmap := tput [] x.tmap tr (if row = rangeFrom 0 16 then [] else row) } : Site).tmapRow r = if r = tr then row else x.tmapRow r := by
  unfold Site.tmapRow
  rw [tget_tput]
  by_cases hr : r = tr
  · rw [if_pos hr, if_pos hr]
    by_cases hid : row = rangeFrom 0 16
    · rw [if_pos hid, if_pos rfl, hid]
    · rw [if_neg hid, if_neg hrow]
  · rw [if_neg hr, if_neg hr]

theorem State.remapHold_site_other (s : State) {p q : Nat} (h : q ≠ p) : (s.remapHold p).site q = s.site q := by
  unfold State.remapHold
  split
  · dsimp only
    split
    · rw [State.modSite_site, if_neg h]
    · rfl
  · rfl

/-! ### The end of a command and of a retest (R473, R475) -/

/-- Of the health registers the end of a command writes what runs. -/
theorem State.cmdEnds_hlt_field {α : Type} (π : Hlt → α) (hπ : ∀ h b r, π { h with busy := b, run := r } = π h) (s : State) (l : List Nat) (x : Nat) : π (s.cmdEnds l x).hlt = π s.hlt := by
  unfold State.cmdEnds
  split
  · split
    · exact hπ ..
    · rfl
  · rfl
theorem State.cmdEnds_only (s : State) (l : List Nat) (x : Nat) : Only [.hlt] s (s.cmdEnds l x) := only_of_outside (by intros; simp)
theorem State.cmdEnds_of_run {s : State} {l : List Nat} {c x : Nat} (h : s.hlt.run = some (c, x)) (hc : l.contains c = true) : s.cmdEnds l x = s.modHlt fun h => { h with busy := false, run := none } := by
  rw [State.cmdEnds, h]
  exact if_pos ⟨hc, rfl⟩

/-- A tile that is empty and no longer under test. -/
def Tile.Blank (T : Tile) : Prop := T.retest = false ∧ (∀ a, memGet T.sram a = 0) ∧ (∀ a, memGet T.scr a = 0) ∧ T.ctrs = []

/-- A retest that ends zeroes its tile, tags its result and ends the command that asked for it. -/
def State.retested (s : State) (t : Nat) (passed : Bool) : State :=
  (((s.zeroTile t).modTile t fun T => { T with retest := false }).tag (s.tilePhys t) (!passed)).cmdEnds [2, 5] t

section
variable (s : State) (t : Nat) (passed : Bool)

theorem State.retested_only : Only [.freeN, .tiles, .host, .spi, .hlt] s (s.retested t passed) := only_of_outside (by intros; simp [State.retested])
theorem State.retested_site (p : Nat) : (s.retested t passed).site p = s.site p := site_of_only (s.retested_only t passed) (by decide) p
theorem State.retested_tile : (s.retested t passed).tile t = { (s.zeroTile t).tile t with retest := false } := by
  unfold State.retested
  rw [tile_of_only (State.cmdEnds_only ..) (by decide)]
  simp [State.tag]
theorem State.retested_tile_other {n : Nat} (hn : n ≠ t) : (s.retested t passed).tile n = s.tile n := by
  unfold State.retested
  rw [tile_of_only (State.cmdEnds_only ..) (by decide)]
  exact State.tile_of_beside (t := t) (by simp) hn
theorem State.retested_blank : ((s.retested t passed).tile t).Blank := by
  rw [State.retested_tile, State.zeroTile, State.modTile_tile, if_pos rfl]
  exact ⟨rfl, fun _ => rfl, fun _ => rfl, rfl⟩
theorem State.retested_hlt_field {α : Type} (π : Hlt → α) (hπ : ∀ h l, π { h with history := l } = π h) (hrun : ∀ h b r, π { h with busy := b, run := r } = π h) :
    π (s.retested t passed).hlt = π s.hlt :=
  (State.cmdEnds_hlt_field π hrun ..).trans (State.hlt_of_beside (t := t) (by simp) π hπ)
theorem State.retested_busy {c : Nat} (hc : [2, 5].contains c = true) (h : s.hlt.run = some (c, t)) : (s.retested t passed).hlt.busy = false := by
  have hrun : (((s.zeroTile t).modTile t fun T => { T with retest := false }).tag (s.tilePhys t) (!passed)).hlt.run = some (c, t) :=
    (State.hlt_of_beside (t := t) (by simp) (fun x => x.run) fun _ _ => rfl).trans h
  rw [State.retested, State.cmdEnds_of_run hrun hc]
  rfl
theorem State.retested_fenced (h : (s.tile t).st = .fenced) : ((s.retested t passed).tile t).st = .fenced := by
  rw [State.retested_tile]
  exact State.Fenced.zeroTile h
theorem State.retested_spareOk : (s.retested t passed).spareOk t = s.spareOk t :=
  State.spareOk_congr (s.retested_hlt_field t passed (fun x => x.smap) (fun _ _ => rfl) fun _ _ _ => rfl) (s.retested_hlt_field t passed (fun x => x.defects) (fun _ _ => rfl) fun _ _ _ => rfl)
    (fun p => by rw [State.retested_site]) t
theorem State.retested_unit : unitOf ((s.retested t passed).tileDefect t 0) = unitOf (s.tileDefect t 0) := by
  have hphys := State.tilePhys_congr (s.retested_hlt_field t passed (fun x => x.smap) (fun _ _ => rfl) fun _ _ _ => rfl) t
  simp only [State.tileDefect, State.tilePos, State.tileSt, hphys, State.retested_site]

theorem State.sliceCleared_only : Only [.sites, .clk, .host, .spi] s (s.sliceCleared t) := only_of_outside (by intros; simp [State.sliceCleared])
theorem State.detectAt_tmap (p c k q : Nat) : ((s.detectAt p c k).site q).tmap = (s.site q).tmap := by
  have hmod (u : State) (f : Site → Site) (hf : ∀ x, (f x).tmap = x.tmap) (hu : (u.site q).tmap = (s.site q).tmap) : ((u.modSite p f).site q).tmap = (s.site q).tmap := by
    rw [State.modSite_site]
    split
    · next h => rw [hf, ← h, hu]
    · exact hu
  unfold State.detectAt
  extract_lets x keep flt0 here flt s1 others s2 s3
  have h1 : (s1.site q).tmap = (s.site q).tmap := hmod _ _ (fun _ => rfl) rfl
  have h2 : (s2.site q).tmap = (s.site q).tmap := hmod _ _ (fun _ => rfl) h1
  have h3 : (s3.site q).tmap = (s.site q).tmap := hmod _ _ (fun _ => rfl) h1
  repeat' split
  · exact h1
  · exact h1
  · rw [State.ceilingChanged_site, h2]
  · rw [State.ceilingChanged_site, h3]
  · exact h1
theorem State.sliceCleared_tmap (q : Nat) : ((s.sliceCleared t).site q).tmap = (s.site q).tmap := by
  rw [State.sliceCleared, State.relimit_field (fun x => x.tmap) (fun _ _ _ _ => rfl), State.detectAt_tmap]

/-- What follows a retest of tile `t`, which was `T`, for the reason `why` (R473, R475, R476). -/
def State.retestEnds (s : State) (t : Nat) (T : Tile) (passed : Bool) : Nat → Out
  | 2 =>
    if passed then
      let s := (s.retestPass t).modTile t fun T => { T with cand := false, defer_ := false }
      ok ((if T.cand = true ∧ T.candBy = 2 then s.sliceCleared t else s).fencedOrHole t)
    else ok ((s.retireTile t 6 true).modTile t fun T => { T with cand := false, defer_ := false })
  | 3 =>
    if passed then
      let u := unitOf (s.tileDefect t 0)
      let s := s.modHlt fun h => { h with defects := h.defects.filter fun d => unitOf d.word0 != u || d.srcFuse }
      ok ((s.modTile t fun T => { T with st := .active, score := 255, cand := false, defer_ := false }).retestPass t)
    else ok (s.tileEntry t 6 true)
  | why =>
    if passed then
      let s := (s.tileReturns t).retestPass t
      ok (if T.candBy = 2 then s.sliceCleared t else s)
    else if why = 1 then ok s
    else
      let key := s.rowKey t
      let s := s.retireTile t (if T.candBy = 2 then 3 else 4) true
      let s := s.modHlt fun h => { h with rowRet := tput none h.rowRet key (some s.time) }
      ok (s.modTile t fun T => { T with cand := false, defer_ := false })
theorem exec_confirmingRetestDone {s : State} {t : Nat} (ht : t < 32768) (hsv : s.svRuns = true) (hr : (s.tile t).retest = true) :
    exec (.confirmingRetestDone t passed) s = (s.retested t passed).retestEnds t (s.tile t) passed (s.tile t).retestOf := by
  have hexec : exec (.confirmingRetestDone t passed) s = execConfirmingRetestDone t passed s := rfl
  rw [hexec, execConfirmingRetestDone, if_neg (by omega), onTile, if_pos ht, when_, if_pos hsv, if_neg (by rw [hr]; decide)]
  rfl

end

/-- Settles O49. -/
theorem selfTestsComplete : Obligations.SelfTestsComplete := by
  unfold Obligations.SelfTestsComplete
  intro blank
  refine ⟨fun t s ht hst hruns hdue => ?slicePasses, fun t s ht hst hruns hdue hsv => ?sliceWaits, fun t s ht hst hruns hdue hsv => ?sliceFails, fun s hsv hdue => ?hour,
    fun t s ht hsv hr hof => ?returns, fun t s ht hsv hr hof => ?retires, fun t s ht hsv hr hof hst => ?retirePasses, fun t s ht hsv hr hof => ?clearPasses,
    fun t s ht hsv hr hof => ?entered, fun k s hk hsv hspare => ?spare, fun t s ht hrun hph hp => ?remapped, fun t s ht hres => ?tileBack, fun p s hp hres => ?siteBack⟩
  case slicePasses =>
    have hexec : exec (.selfTestSlice t true) s = execSelfTestSlice t true s := rfl
    rw [hexec, execSelfTestSlice, onTile, if_pos ht]
    dsimp only
    rw [when_, if_pos (by simp [show (s.site (s.tilePhys t)).st = .active from hst, hruns, hdue]), if_pos rfl]
    exact goesTo_ok ⟨rfl, by simp [State.tag], fun n hn => by simp [State.tag, hn], only_of_outside (by intros; simp)⟩
  case sliceWaits =>
    rw [exec_selfTestSlice_fails ht hst hruns hdue, if_neg (by rw [hsv]; decide)]
    refine goesTo_ok ⟨?_, ?_, ?_, fun n hn => ?_, ?_⟩
    · simp [State.sliceFailed, State.tag]
    · simp [State.sliceFailed, State.tag]
    · simp [State.sliceFailed, State.tag]
    · exact State.tile_of_beside (t := t) (by simp [State.sliceFailed]) hn
    · rfl
  case sliceFails =>
    rw [exec_selfTestSlice_fails ht hst hruns hdue, if_pos hsv]
    obtain ⟨hscore, hfenced, hcand, hretest⟩ := (s.sliceFailed t).sliceFails_tile t
    refine goesTo_ok ⟨hscore.trans ?_, hfenced, hcand, hretest, fun n hn => ?_, ?_⟩
    · simp [State.sliceFailed, State.tag]
    · exact State.tile_of_beside (t := t) (by simp [State.sliceFailed]) hn
    · exact sites_of_only (bs := [.tiles, .host, .spi, .hlt]) (only_of_outside (by intros; simp [State.sliceFailed])) (by decide)
  case hour =>
    have hexec : exec .healthHourly s = execHealthHourly s := rfl
    rw [hexec, execHealthHourly, when_, if_pos (by simp [hsv, hdue])]
    generalize hs1 : (s.modHlt fun h => { h with hourAt := s.time }) = s1
    have honly : Only [.tiles, .host, .spi, .hlt] s ((s.tiles.map (·.1)).foldl State.tileHour s1) := by
      subst hs1
      exact only_of_outside (by intros; simp)
    refine goesTo_ok ⟨?_, sites_of_only honly (by decide), fab_of_only honly (by decide)⟩
    rw [State.tileHours_hourAt, ← hs1]
    rfl
  case returns =>
    rw [exec_confirmingRetestDone true ht hsv hr, hof]
    unfold State.retestEnds
    dsimp only
    rw [if_pos rfl]
    have hblank := s.retested_blank t true
    have hother (n : Nat) (hn : n ≠ t) : (s.retested t true).tile n = s.tile n := s.retested_tile_other t true hn
    have hthr : (s.retested t true).hlt.susthr = s.hlt.susthr := s.retested_hlt_field t true (fun x => x.susthr) (fun _ _ => rfl) fun _ _ _ => rfl
    generalize s.retested t true = s1 at *
    have htile (n : Nat) : (if (s.tile t).candBy = 2 then ((s1.tileReturns t).retestPass t).sliceCleared t else (s1.tileReturns t).retestPass t).tile n = (s1.tileReturns t).tile n := by
      split
      · rw [tile_of_only (State.sliceCleared_only ..) (by decide), State.retestPass_tile]
      · rw [State.retestPass_tile]
    have hself : (s1.tileReturns t).tile t = { s1.tile t with st := .suspect, score := s1.hlt.susthr - 1, cand := false, defer_ := false, retest := false, quietSince := s1.time } := by
      simp [State.tileReturns]
    refine goesTo_ok ⟨?_, ?_, ?_, ?_, fun n hn => ?_⟩
    · rw [htile, hself]
    · rw [htile, hself, hthr]
    · rw [htile, hself]
    · rw [htile, hself]
      exact ⟨rfl, hblank.2⟩
    · rw [htile, State.tile_of_beside (s1.tileReturns_besideTile t) hn, hother n hn]
  case retires =>
    rw [exec_confirmingRetestDone false ht hsv hr, hof]
    unfold State.retestEnds
    dsimp only
    rw [if_neg (by decide), if_neg (by decide)]
    have hblank := s.retested_blank t false
    have hother (n : Nat) (hn : n ≠ t) : (s.retested t false).tile n = s.tile n := s.retested_tile_other t false hn
    have hkey : (s.retested t false).rowKey t = s.rowKey t := by
      rw [State.rowKey, State.rowKey, State.tilePhys_congr (s.retested_hlt_field t false (fun x => x.smap) (fun _ _ => rfl) fun _ _ _ => rfl)]
    have hunit := s.retested_unit t false
    have htime : (s.retested t false).time = s.time := time_of_only (s.retested_only t false) (by decide)
    rw [hkey]
    generalize s.retested t false = s1 at *
    generalize hc : (if (s.tile t).candBy = 2 then 3 else 4) = c
    have hc' : c < 4096 := by
      subst hc
      split <;> decide
    obtain ⟨st, hst, hself⟩ := s1.retireTile_tile t c true t
    rw [if_pos rfl] at hself
    have hhlt := s1.retireTile_hlt t c true
    have htime2 : (s1.retireTile t c true).time = s1.time := time_of_only (bs := [.tiles, .host, .spi, .hlt]) (only_of_outside (by intros; simp)) (by decide)
    refine goesTo_ok ⟨?_, ?_, ?_, ?_, ?_, fun n hn => ?_⟩
    · simpa [hself] using hst
    · simp
    · simp only [State.modTile_tile, State.modHlt_tile, if_true, hself]
      exact hblank
    · simp [htime2, htime]
    · obtain ⟨d, hd, hu⟩ := s1.addDefect_enters (s1.tileDefect t c) true
      exact ⟨d, by simpa [hhlt] using hd, hu.trans ((s1.unitOf_tileDefect t hc').trans hunit)⟩
    · obtain ⟨_, -, hn'⟩ := s1.retireTile_tile t c true n
      simp [hn, hn', hother n hn]
  case retirePasses =>
    rw [exec_confirmingRetestDone true ht hsv hr, hof]
    unfold State.retestEnds
    dsimp only
    rw [if_pos rfl]
    have hblank := s.retested_blank t true
    have hother (n : Nat) (hn : n ≠ t) : (s.retested t true).tile n = s.tile n := s.retested_tile_other t true hn
    have hspare := s.retested_spareOk t true
    have hfenced := s.retested_fenced t true hst
    have hbusy : s.hlt.run = some (2, t) → (s.retested t true).hlt.busy = false := s.retested_busy t true (by decide)
    generalize s.retested t true = s1 at *
    generalize hs2 : ((s1.retestPass t).modTile t fun T => { T with cand := false, defer_ := false }) = s2
    have h2 : s2.hlt = s1.hlt ∧ (∀ p, s2.site p = s1.site p) ∧ ∀ n, s2.tile n = if n = t then { s1.tile t with cand := false, defer_ := false } else s1.tile n := by
      subst hs2
      exact ⟨by simp, fun p => by simp, fun n => by simp⟩
    obtain ⟨hhlt, hsite, htile⟩ := h2
    generalize hs3 : (if (s.tile t).cand = true ∧ (s.tile t).candBy = 2 then s2.sliceCleared t else s2) = s3
    have h3 : s3.hlt = s2.hlt ∧ (∀ n, s3.tile n = s2.tile n) ∧ ∀ p, (s3.site p).tmap = (s2.site p).tmap := by
      subst hs3
      split
      · exact ⟨hlt_of_only (s2.sliceCleared_only t) (by decide), tile_of_only (s2.sliceCleared_only t) (by decide), s2.sliceCleared_tmap t⟩
      · exact ⟨rfl, fun _ => rfl, fun _ => rfl⟩
    obtain ⟨hhlt3, htile3, htmap3⟩ := h3
    have hok : s3.spareOk t = s.spareOk t := by
      rw [← hspare]
      exact State.spareOk_congr (by rw [hhlt3, hhlt]) (by rw [hhlt3, hhlt]) (fun p => by rw [htmap3, hsite]) t
    have hself : (s3.fencedOrHole t).tile t = { s1.tile t with cand := false, defer_ := false, st := if s.spareOk t then .fenced else .hole } := by
      rw [State.fencedOrHole_tile, hok, htile3, htile, if_pos rfl]
      cases s.spareOk t
      · simp
      · simp only [reduceCtorEq, and_false, if_false, if_true]
        rw [← hfenced]
    refine goesTo_ok ⟨?_, ?_, ?_, ?_, fun hrun => ?_, fun n hn => ?_⟩
    · rw [hself]
    · rw [hself]
    · rw [hself]
    · rw [hself]
      exact hblank
    · rw [hlt_of_only (s3.fencedOrHole_only t) (by decide), hhlt3, hhlt, hbusy hrun]
    · rw [State.fencedOrHole_tile, if_neg fun h => hn h.1, htile3, htile, if_neg hn, hother n hn]
  case clearPasses =>
    rw [exec_confirmingRetestDone true ht hsv hr, hof]
    unfold State.retestEnds
    dsimp only
    rw [if_pos rfl]
    have hblank := s.retested_blank t true
    have hother (n : Nat) (hn : n ≠ t) : (s.retested t true).tile n = s.tile n := s.retested_tile_other t true hn
    have hbusy : s.hlt.run = some (5, t) → (s.retested t true).hlt.busy = false := s.retested_busy t true (by decide)
    generalize s.retested t true = s1 at *
    refine goesTo_ok ⟨by simp, by simp, ?_, fun hrun => ?_, fun n hn => by simp [hn, hother n hn]⟩
    · simp only [State.retestPass_tile, State.modTile_tile, State.modHlt_tile, if_true]
      exact hblank
    · simpa using hbusy hrun
  case entered =>
    rw [exec_confirmingRetestDone false ht hsv hr]
    have hblank := s.retested_blank t false
    have hother (n : Nat) (hn : n ≠ t) : (s.retested t false).tile n = s.tile n := s.retested_tile_other t false hn
    have hunit := s.retested_unit t false
    generalize s.retested t false = s1 at *
    obtain ⟨d, hd, hu⟩ := s1.addDefect_enters (s1.tileDefect t 6) true
    have hentry : unitOf d.word0 = unitOf (s.tileDefect t 0) := hu.trans ((s1.unitOf_tileDefect t (by decide)).trans hunit)
    rcases hof with hof | hof <;> rw [hof]
    · obtain ⟨st, -, hself⟩ := s1.retireTile_tile t 6 true t
      rw [if_pos rfl] at hself
      unfold State.retestEnds
      dsimp only
      rw [if_neg (by decide)]
      refine goesTo_ok ⟨⟨d, by simpa [s1.retireTile_hlt t 6 true] using hd, hentry⟩, by simp [hself], ?_, fun n hn => ?_⟩
      · simp only [State.modTile_tile, if_true, hself]
        exact hblank
      · obtain ⟨_, -, hn'⟩ := s1.retireTile_tile t 6 true n
        simp [hn, hn', hother n hn]
    · unfold State.retestEnds
      dsimp only
      rw [if_neg (by decide)]
      refine goesTo_ok ⟨⟨d, hd, hentry⟩, by simp [State.tileEntry_tile], ?_, fun n hn => ?_⟩
      · rw [State.tileEntry_tile, if_pos rfl]
        exact hblank
      · rw [State.tileEntry_tile, if_neg hn, hother n hn]
  case spare =>
    have hexec : exec (.confirmingRetestDone (32768 + k) true) s = execConfirmingRetestDone (32768 + k) true s := rfl
    rw [hexec, execConfirmingRetestDone, if_pos (by omega), if_pos ⟨hsv, by simp [hspare]⟩]
    exact goesTo_ok ⟨rfl, rfl, rfl⟩
  case remapped =>
    have hexec : exec (.tileRemapStopEnd (s.tilePhys t)) s = execTileRemapStopEnd (s.tilePhys t) s := rfl
    rw [hexec, execTileRemapStopEnd, onSite, if_pos hp, hrun]
    split
    · next t' heq =>
      obtain rfl : t = t' := by simpa using heq
      rw [when_, if_pos (by simp [show (s.site (s.tilePhys t)).clk.ph = .none from hph])]
      extract_lets tr pos s1 row held s2 s3 s4 s5
      have h1 : s1.sites = s.sites ∧ ∀ n, n ≠ t → s1.tile n = s.tile n := by
        unfold s1
        split
        · exact ⟨rfl, fun _ _ => rfl⟩
        · exact ⟨sites_of_only (bs := [.tiles, .spi, .hlt]) (only_of_outside (by intros; simp)) (by decide), fun n hn => by rw [State.tileEntry_tile, if_neg hn]⟩
      obtain ⟨hsites1, hother1⟩ := h1
      have hsite1 (q : Nat) : s1.site q = s.site q := by rw [State.site, State.site, hsites1]
      clear_value s1
      have hrow : row ≠ [] := lset_ne_nil ((s.site (s.tilePhys t)).tmapRow_ne_nil tr) _ _
      have hrow' : row = lset ((s.tileSt t).tmapRow tr) (tileTC t) pos := rfl
      have hs2 (r : Nat) : (s2.site (s.tilePhys t)).tmapRow r = if r = tr then row else (s.tileSt t).tmapRow r := by
        unfold s2
        rw [State.modSite_site, if_pos rfl]
        refine (Site.tmapRow_tput hrow r).trans ?_
        rw [hsite1]
        rfl
      have hother2 (n : Nat) (hn : n ≠ t) : s2.tile n = s.tile n := hother1 n hn
      clear_value s2 row
      have hother3 : s3.besideTile t = s2.besideTile t := by simp [s3]
      have hsites3 : s3.sites = s2.sites := sites_of_only (bs := [.freeN, .tiles, .host, .spi, .hlt]) (only_of_outside (by intros; simp [s3])) (by decide)
      have hself3 : (s3.tile t).st = .active ∧ (s3.tile t).score = 255 ∧ (s3.tile t).sram = [] := by
        unfold s3
        rw [State.modTile_tile, if_pos rfl]
        exact ⟨rfl, rfl, rfl⟩
      clear_value s3
      have h5 : Only [.host, .spi] s4 s5 := only_of_outside (by intros; simp [s5])
      have h6 : Only [.tiles, .host, .spi] s5 (s5.rowSpent (s.tilePhys t) tr) := State.rowSpent_only ..
      have htile5 (n : Nat) : s5.tile n = s3.tile n := tile_of_only h5 (by decide) n
      have hhlt : (s5.rowSpent (s.tilePhys t) tr).hlt = s4.hlt := (hlt_of_only h6 (by decide)).trans (hlt_of_only h5 (by decide))
      have htmap (r : Nat) : ((s5.rowSpent (s.tilePhys t) tr).site (s.tilePhys t)).tmapRow r = if r = tr then row else (s.tileSt t).tmapRow r := by
        rw [site_of_only h6 (by decide), site_of_only h5 (by decide), ← hs2, State.site, State.site]
        exact congrArg (fun m => (tget {} m (s.tilePhys t)).tmapRow r) hsites3
      have hself : (s5.rowSpent (s.tilePhys t) tr).tile t = s3.tile t := by
        refine ((s5.rowSpent_tile (s.tilePhys t) tr t).resolve_right fun h => ?_).trans (htile5 t)
        rw [htile5, hself3.1] at h
        exact TileSt.noConfusion h.1
      have hother (n : Nat) (hn : n ≠ t) := s5.rowSpent_tile (s.tilePhys t) tr n
      simp only [htile5] at hother
      generalize s5.rowSpent (s.tilePhys t) tr = s6 at *
      refine goesTo_ok ⟨?_, ?_, fun a => ?_, ?_, ?_, ?_, fun r hr => ?_, fun n hn => ?_⟩
      · rw [State.tile, State.bankNow_tiles]
        exact (congrArg Tile.st hself).trans hself3.1
      · rw [State.tile, State.bankNow_tiles]
        exact (congrArg Tile.score hself).trans hself3.2.1
      · rw [State.tile, State.bankNow_tiles]
        change memGet (s6.tile t).sram a = 0
        rw [hself, hself3.2.2]
        rfl
      · rw [State.bankNow_hlt, hhlt]
        rfl
      · rw [State.bankNow_hlt, hhlt]
        rfl
      · rw [(s6.bankNow_edit (s.tilePhys t)).field (fun x => x.tmapRow tr) fun _ => rfl, htmap, if_pos rfl, hrow']
        rfl
      · rw [(s6.bankNow_edit (s.tilePhys t)).field (fun x => x.tmapRow r) fun _ => rfl, htmap, if_neg hr]
      · have hsame : s3.tile n = s.tile n := (State.tile_of_beside hother3 hn).trans (hother2 n hn)
        have hbank : (s6.bankNow (s.tilePhys t)).tile n = s6.tile n := by rw [State.tile, State.bankNow_tiles, State.tile]
        rw [hbank]
        simpa only [hsame] using hother n hn
    · next h => exact absurd rfl (h t)
  case tileBack =>
    have hexec : exec (.computeResetDone false t) s = execComputeResetDone false t s := rfl
    rw [hexec, execComputeResetDone, if_neg (by decide), onTile, if_pos ht]
    dsimp only
    rw [when_, if_pos (by rw [hres]; rfl)]
    generalize hs1 : (s.modTile t fun T => { T with resetting := false }) = s1
    have hother1 : s1.besideTile t = s.besideTile t := by
      rw [← hs1]
      exact s.modTile_besideTile t _
    have hself1 : s1.tile t = { s.tile t with resetting := false } := by simp [← hs1]
    have hsites1 : s1.sites = s.sites := by
      rw [← hs1]
      rfl
    have hu (n : Nat) : ((((s1.loadNext t).cmdEnds [6] t).raiseTile 0x0508 t 0 none t 0).tile n) = (s1.loadNext t).tile n := by
      rw [State.raiseTile_tile, tile_of_only (State.cmdEnds_only ..) (by decide)]
    refine goesTo_ok ⟨?_, fun hw => ⟨?_, ?_⟩, fun hrun => ?_, fun n hn => ?_⟩
    · rw [hu, s1.loadNext_field t (fun T => T.resetting) fun _ _ _ _ => rfl, hself1]
    · rw [hu, s1.loadNext_of_none t (by rw [hself1]; exact hw), hself1]
    · rw [State.raiseTile_sites, sites_of_only (State.cmdEnds_only ..) (by decide), s1.loadNext_of_none t (by rw [hself1]; exact hw), hsites1]
    · have hrun1 : (s1.loadNext t).hlt.run = some (6, t) :=
        (State.hlt_of_beside ((s1.loadNext_besideTile t).trans hother1) (fun x => x.run) fun _ _ => rfl).trans hrun
      rw [State.raiseTile_hlt, State.cmdEnds_of_run hrun1 (by decide)]
      rfl
    · rw [hu, State.tile_of_beside ((s1.loadNext_besideTile t).trans hother1) hn]
  case siteBack =>
    have hexec : exec (.computeResetDone true p) s = execComputeResetDone true p s := rfl
    rw [hexec, execComputeResetDone, if_pos rfl, onSite, if_pos hp]
    dsimp only
    rw [when_, if_pos (by rw [hres]; rfl)]
    generalize hs1 : (s.modSite p fun y => { y with resetting := false, st := if y.resetting ∧ y.st = .reset ∧ y.clk.pllBad = false then .active else y.st }) = s1
    have hself1 : s1.site p = { s.site p with resetting := false, st := if (s.site p).resetting ∧ (s.site p).st = .reset ∧ (s.site p).clk.pllBad = false then .active else (s.site p).st } := by
      simp [← hs1]
    have hother1 (q : Nat) (hq : q ≠ p) : s1.site q = s.site q := by simp [← hs1, hq]
    have hhlt1 : s1.hlt = s.hlt := by
      rw [← hs1]
      rfl
    have htiles1 : s1.tiles = s.tiles := by
      rw [← hs1]
      rfl
    generalize hs2 : ((s1.bankNow p).remapHold p) = s2
    have hhlt2 : s2.hlt = s.hlt := by rw [← hs2, State.remapHold_hlt, State.bankNow_hlt, hhlt1]
    have hsite (q : Nat) : (((s2.cmdEnds [7] p).raiseSite 0x0508 p (s1.siteSource p) 1).promise.site q) = s2.site q := by
      rw [State.promise_site, State.raiseSite_site, site_of_only (State.cmdEnds_only ..) (by decide)]
    refine goesTo_ok ⟨?_, fun hst hpll hbank hph => ?_, fun hrun => ?_, fun q hq => ?_, ?_⟩
    · rw [hsite, ← hs2, State.remapHold_field (fun x => x.resetting) (fun _ _ _ => rfl), (s1.bankNow_edit p).field (fun x => x.resetting) (fun _ => rfl), hself1]
    · have hst1 : (s1.site p).st = .active := by
        rw [hself1]
        exact if_pos ⟨hres, hst, hpll⟩
      have hbank1 : (s1.site p).clk.wantsBank = false := by
        rw [hself1]
        exact hbank
      rw [hsite, ← hs2, State.bankNow_of_not_wantsBank hbank1, State.remapHold_st_of_active hst1 (by rw [hself1]; exact hph), State.remapRow_congr (s := s) (by rw [hhlt1]) (by rw [hhlt1])]
    · rw [State.promise_hlt_field (fun x => x.busy) (fun _ _ _ => rfl), State.raiseSite_hlt, State.cmdEnds_of_run (by rw [hhlt2]; exact hrun) (by decide)]
      rfl
    · rw [hsite, ← hs2, State.remapHold_site_other _ hq, State.bankNow_site_other _ hq, hother1 q hq]
    · rw [State.promise_tiles, State.raiseSite_tiles, tiles_of_only (State.cmdEnds_only ..) (by decide), ← hs2, State.remapHold_tiles, State.bankNow_tiles, htiles1]

end Sys2Proof.Machine

end

section
/-! PROOFS. The commands of HLT_CMD, the clears of the health counts, and HLT_LSEL (R446, R475 to R477, R491, R526 to R528; O50). -/

namespace Sys2Proof.Machine

open Sys2Proof.Safety (Blk Only GoesTo HltFree)

/-! ### Commands that are taken and refused (R491) -/

/-- What HLT_CMD shows of a command that is taken. -/
def State.hltTaken (s : State) (v : W32) : State := s.modHlt fun h => { h with target := bitsOf v 14 0, err := false, ecode := 0 }
theorem hltGate_of_free {s : State} (h : HltFree s) (v : W32) (k : State → Out) : hltGate s 0 (some v) k = k (s.hltTaken v) := by
  obtain ⟨⟨⟨hreach, hses⟩, hsv⟩, hbusy⟩ := h
  unfold hltGate
  dsimp only
  rw [if_neg (by simp [hreach]), if_neg (by rw [hses]; decide), if_neg (by rw [show State.svRuns (s.modHlt _) = s.svRuns from rfl, hsv]; decide),
    if_neg (by rw [State.modHlt_hlt]; simp [hbusy])]
  rfl
theorem hltTaken_refused (s : State) (v : W32) (e : Nat) :
    GoesTo (ok ((s.hltTaken v).hltRefuse e)) fun u => u.hlt = { s.hlt with target := bitsOf v 14 0, err := true, ecode := e } ∧ Only [.hlt] s u :=
  goesTo_ok ⟨rfl, only_of_outside (by intros; simp [State.hltTaken])⟩

section
variable (s : State) (v : W32) (t : Nat)

@[simp] theorem State.hltTaken_target : (s.hltTaken v).hlt.target = bitsOf v 14 0 := rfl
@[simp] theorem State.hltTaken_tile : (s.hltTaken v).tile t = s.tile t := rfl
@[simp] theorem State.hltTaken_tileSt : (s.hltTaken v).tileSt t = s.tileSt t := rfl
@[simp] theorem State.hltTaken_site (p : Nat) : (s.hltTaken v).site p = s.site p := rfl
@[simp] theorem State.hltTaken_spareOk : (s.hltTaken v).spareOk t = s.spareOk t := rfl
@[simp] theorem State.hltTaken_tileBadPos : (s.hltTaken v).tileBadPos t = s.tileBadPos t := rfl
@[simp] theorem State.hltRun_tile (c x : Nat) : (s.hltRun c x).tile t = s.tile t := rfl
@[simp] theorem State.fence_hlt : (s.fence t).hlt = s.hlt := hlt_of_only (bs := [.tiles, .host]) (only_of_outside (by intros; simp)) (by decide)
theorem State.fence_tile_other {n : Nat} (hn : n ≠ t) : (s.fence t).tile n = s.tile n := State.tile_of_beside (s.fence_besideTile t) hn
/-- What runs stays while the tiles of a site are reset. -/
theorem State.siteReset_hlt_field {α : Type} (π : Hlt → α) (hπ : ∀ x l, π { x with history := l } = π x) (p : Nat) : π (s.siteReset p).hlt = π s.hlt := by
  have hfold (f : State → Nat → State) (hf : ∀ u t, π (f u t).hlt = π u.hlt) (l : List Nat) (u : State) : π (l.foldl f u).hlt = π u.hlt :=
    List.foldlRecOn (motive := fun w : State => π w.hlt = π u.hlt) l f rfl fun w hw t _ => (hf w t).trans hw
  unfold State.siteReset
  extract_lets ts s1 s2 s3
  have hlost : π s1.hlt = π s.hlt := hfold State.noteLost (fun u t => congrArg π (hlt_of_only (bs := [.host]) (only_of_outside (by intros; simp)) (by decide))) ts s
  have hreset : π s2.hlt = π s1.hlt := hfold State.tileReset (fun u t => State.hlt_of_beside (t := t) (by simp [State.tileReset]) π hπ) ts s1
  have hloads : π s3.hlt = π s2.hlt := hfold State.loadsLost (fun u t => congrArg π (hlt_of_only (bs := [.tiles, .host]) (only_of_outside (by intros; simp)) (by decide))) ts s2
  exact hloads.trans (hreset.trans hlost)

end

/-- A command of HLT_CMD that is taken works on the tile or site that HLT_TARGET then names. -/
theorem exec_remap_taken {s : State} (h : HltFree s) {v : W32} {t : Nat} (ht : bitsOf v 14 0 = t) :
    exec (.remap 0 v) s = if (s.tile t).st ≠ .fenced then ok ((s.hltTaken v).hltRefuse 3) else if !s.spareOk t then ok ((s.hltTaken v).hltRefuse 4)
      else ok (((s.hltTaken v).hltRun 1 t).remapHold (s.tilePhys t)) := by
  have hexec : exec (.remap 0 v) s = execRemap 0 v s := rfl
  rw [hexec, execRemap, hltGate_of_free h]
  subst ht
  rfl
/-- A RETIRE fences its tile where it is not fenced yet (R475). -/
def State.fencedFirst (s : State) (v : W32) (t : Nat) : State := if (s.tile t).st = .fenced then s.hltTaken v else (s.hltTaken v).fence t
theorem exec_retire_taken {s : State} (h : HltFree s) {v : W32} {t : Nat} (ht : bitsOf v 14 0 = t) (hst : (s.tile t).st ≠ .hole) :
    let u := s.fencedFirst v t
    exec (.retire 0 v) s = if bitOf v 19 then ok ((u.hltRun 2 t).beginRetest t 2)
      else ok ((u.retireTile t 5 false).modTile t fun T => { T with cand := false, defer_ := false, retest := false }) := by
  have hexec : exec (.retire 0 v) s = execRetire 0 v s := rfl
  rw [hexec, execRetire, hltGate_of_free h]
  subst ht
  exact if_neg hst
theorem exec_keep_taken {s : State} (h : HltFree s) {v : W32} {t : Nat} (ht : bitsOf v 14 0 = t) :
    exec (.keep 0 v) s = if (s.tile t).cand = true ∨ ((s.tile t).st = .fenced ∧ s.tileBadPos t = false) then
        (if (s.tile t).st = .fenced then ok (((s.hltTaken v).zeroTile t).tileReturns t) else ok ((s.hltTaken v).modTile t fun T => { T with cand := false, defer_ := false }))
      else ok ((s.hltTaken v).hltRefuse 3) := by
  have hexec : exec (.keep 0 v) s = execKeep 0 v s := rfl
  rw [hexec, execKeep, hltGate_of_free h]
  subst ht
  rfl
theorem exec_hole_taken {s : State} (h : HltFree s) {v : W32} {t : Nat} (ht : bitsOf v 14 0 = t) :
    exec (.hole 0 v) s = if (s.tile t).st = .fenced ∧ s.tileBadPos t = true then ok ((s.hltTaken v).holeTile t) else ok ((s.hltTaken v).hltRefuse 3) := by
  have hexec : exec (.hole 0 v) s = execHole 0 v s := rfl
  rw [hexec, execHole, hltGate_of_free h]
  subst ht
  rfl
theorem exec_treset_taken {s : State} (h : HltFree s) {v : W32} {t : Nat} (ht : bitsOf v 14 0 = t) :
    exec (.treset 0 v) s = if (s.tileSt t).st = .off ∨ (s.tileSt t).st = .dark then ok ((s.hltTaken v).hltRefuse 3) else if (s.tile t).busyCores then ok ((s.hltTaken v).hltRefuse 5)
      else ok ((((s.hltTaken v).hltRun 6 t).tileReset t).modTile t fun T => { T with resetting := true }) := by
  have hexec : exec (.treset 0 v) s = execTreset 0 v s := rfl
  rw [hexec, execTreset, hltGate_of_free h]
  subst ht
  rfl
theorem exec_sreset_taken {s : State} (h : HltFree s) {v : W32} {p : Nat} (hp : s.phys (bitsOf v 14 0 % 256) = p) :
    exec (.sreset 0 v) s = if (s.site p).st = .off ∨ (s.site p).st = .dark then ok ((s.hltTaken v).hltRefuse 3)
      else if (s.tilesOf p).any fun t => (s.tile t).busyCores then ok ((s.hltTaken v).hltRefuse 5) else ok (((s.hltTaken v).hltRun 7 p).siteReset p) := by
  have hexec : exec (.sreset 0 v) s = execSreset 0 v s := rfl
  rw [hexec, execSreset, hltGate_of_free h]
  subst hp
  rfl

theorem State.fencedFirst_tile (s : State) (v : W32) (t : Nat) : ((s.fencedFirst v t).tile t).st = .fenced ∧ (s.fencedFirst v t).hlt = (s.hltTaken v).hlt ∧
    (∀ p, (s.fencedFirst v t).site p = s.site p) ∧ ∀ n, n ≠ t → (s.fencedFirst v t).tile n = s.tile n := by
  unfold State.fencedFirst
  by_cases hst : (s.tile t).st = .fenced
  · rw [if_pos hst]
    exact ⟨hst, rfl, fun _ => rfl, fun _ _ => rfl⟩
  · rw [if_neg hst]
    exact ⟨(State.fence_tile ..).1, State.fence_hlt .., site_of_only (s := s.hltTaken v) (bs := [.tiles, .host]) (only_of_outside (by intros; simp)) (by decide),
      fun n hn => State.fence_tile_other _ _ hn⟩

/-- The entry that CLEAR names is learned no more (R476). -/
def clearEntry (q : W32) (l : List Defect) : List Defect := l.map fun e => if e.seq = q ∧ e.srcLearned = true then { e with srcLearned := false, seq := 0 } else e
theorem find?_clearEntry (q : W32) (l : List Defect) : (clearEntry q l).find? (fun d => d.srcLearned && d.seq == q) = none := by
  refine List.find?_eq_none.2 fun d hd => ?_
  obtain ⟨e, -, rfl⟩ := List.mem_map.1 hd
  split
  · simp
  · next h => simpa [and_comm] using h

/-- Settles O50. -/
theorem healthCommandsComplete : Obligations.HealthCommandsComplete := by
  unfold Obligations.HealthCommandsComplete
  intro refused
  refine ⟨fun v s h => ?tiles, fun d v s h hfind => ?clears, fun v s h hnone => ?noEntry, fun v s h => ?sites, fun v s hr => ?siteCounts, fun v s hr => ?edgeCounts,
    fun v s hr => ?bellCounts, fun port v s hr => ?selects⟩
  case tiles =>
    intro t
    have ht : bitsOf v 14 0 = t := rfl
    clear_value t
    refine ⟨fun hst hok => ?remap, fun hst => ?remapState, fun hst hok => ?remapSpare, fun hst hconf => ?retireTests, fun hst hconf => ?retires, fun hst => ?retireState, fun hst hpos => ?keeps,
      fun hst hcand => ?keepEnds, fun hcand hst => ?keepState, fun hst hpos => ?holes, fun hst => ?holeState, fun hoff hdark hcores hld => ?resets, fun hst => ?resetState, fun hoff hdark hcores => ?resetCores⟩
    case remap =>
      refine goesTo_of_eq ((exec_remap_taken h ht).trans ((if_neg fun hne => hne hst).trans (if_neg (by rw [hok]; decide)))) ?_
      have hrow : ((s.hltTaken v).hltRun 1 t).remapRow (s.tilePhys t) = some (tileTR t) := if_pos rfl
      refine ⟨by rw [State.remapHold_hlt, ← ht]; rfl, fun hact hph => ?_, fun q hq => by rw [State.remapHold_site_other _ hq]; rfl, only_of_outside (by intros; simp [State.hltTaken])⟩
      rw [State.remapHold_of_some hrow hact hph, State.modSite_site, if_pos rfl]
      exact ⟨rfl, rfl⟩
    case remapState =>
      have hexec := (exec_remap_taken h ht).trans (if_pos hst)
      exact hexec ▸ hltTaken_refused s v 3
    case remapSpare =>
      have hexec := (exec_remap_taken h ht).trans ((if_neg fun hne => hne hst).trans (if_pos (by rw [hok]; rfl)))
      exact hexec ▸ hltTaken_refused s v 4
    case retireTests =>
      obtain ⟨hfenced, hhlt, -, hother⟩ := s.fencedFirst_tile v t
      refine goesTo_of_eq ((exec_retire_taken h ht hst).trans (if_pos hconf)) ?_
      generalize s.fencedFirst v t = u at *
      refine ⟨?_, ?_, ?_, rfl, rfl, fun n hn => ?_⟩
      · simpa [State.beginRetest, State.hltRun] using hfenced
      · simp [State.beginRetest]
      · simp [State.beginRetest]
      · simpa [State.beginRetest, State.hltRun, hn] using hother n hn
    case retires =>
      obtain ⟨hfenced, hhlt, hsite, hother⟩ := s.fencedFirst_tile v t
      refine goesTo_of_eq ((exec_retire_taken h ht hst).trans (if_neg (by rw [hconf]; decide))) ?_
      obtain ⟨d, hd, hu⟩ := (s.fencedFirst v t).addDefect_enters ((s.fencedFirst v t).tileDefect t 5) false
      have hunit : unitOf ((s.fencedFirst v t).tileDefect t 5) = unitOf (s.tileDefect t 0) := by
        rw [State.unitOf_tileDefect _ _ (by decide), State.tileDefect, State.tileDefect, State.tilePos, State.tilePos, State.tileSt, State.tileSt,
          State.tilePhys_congr (s := s) (by rw [hhlt]; rfl), hsite]
      have hbusy : ((s.fencedFirst v t).retireTile t 5 false).hlt.busy = false := by
        rw [State.retireTile_hlt, State.addDefect_hlt_field (fun x => x.busy) fun _ _ => rfl, hhlt]
        exact h.2
      generalize s.fencedFirst v t = u at *
      obtain ⟨st, hst', hself⟩ := u.retireTile_tile t 5 false t
      rw [if_pos rfl] at hself
      refine ⟨?_, by simp, by simp, hbusy, ⟨d, by simpa [u.retireTile_hlt] using hd, hu.trans hunit⟩, fun n hn => ?_⟩
      · simpa [hself] using hst'
      · obtain ⟨_, -, hn'⟩ := u.retireTile_tile t 5 false n
        rw [if_neg hn] at hn'
        simpa [hn, hn'] using hother n hn
    case retireState =>
      have hexec : exec (.retire 0 v) s = ok ((s.hltTaken v).hltRefuse 3) := by
        have hexec : exec (.retire 0 v) s = execRetire 0 v s := rfl
        rw [hexec, execRetire, hltGate_of_free h]
        subst ht
        exact if_pos hst
      exact hexec ▸ hltTaken_refused s v 3
    case keeps =>
      refine goesTo_of_eq ((exec_keep_taken h ht).trans ((if_pos (.inr ⟨hst, hpos⟩)).trans (if_pos hst))) ?_
      have hthr : ((s.hltTaken v).zeroTile t).hlt.susthr = s.hlt.susthr := State.hlt_of_beside ((s.hltTaken v).zeroTile_besideTile t) (fun x => x.susthr) fun _ _ => rfl
      refine ⟨by simp [State.tileReturns], by simp [State.tileReturns, hthr], by simp [State.tileReturns], fun a => ?_, fun n hn => ?_⟩
      · rw [State.tileReturns, State.modTile_tile, if_pos rfl, State.zeroTile, State.modTile_tile, if_pos rfl]
        rfl
      · exact State.tile_of_beside (s := s.hltTaken v) (t := t) (by simp) hn
    case keepEnds =>
      refine goesTo_of_eq ((exec_keep_taken h ht).trans ((if_pos (.inl hcand)).trans (if_neg hst))) ⟨by simp, fun n hn => by simp [hn]⟩
    case keepState =>
      have hexec := (exec_keep_taken h ht).trans (if_neg (by rw [hcand]; rcases hst with hst | hst <;> simp [hst]))
      exact hexec ▸ hltTaken_refused s v 3
    case holes =>
      refine goesTo_of_eq ((exec_hole_taken h ht).trans (if_pos ⟨hst, hpos⟩)) ⟨by simp [State.holeTile], fun n hn => by simp [State.holeTile, hn]⟩
    case holeState =>
      have hexec := (exec_hole_taken h ht).trans (if_neg (by rcases hst with hst | hst <;> simp [hst]))
      exact hexec ▸ hltTaken_refused s v 3
    case resets =>
      refine goesTo_of_eq ((exec_treset_taken h ht).trans ((if_neg (by simp [hoff, hdark])).trans (if_neg (by rw [hcores]; decide)))) ?_
      have hreset : ((s.hltTaken v).hltRun 6 t).tileReset t = ((s.hltTaken v).hltRun 6 t).modTile t Tile.computeReset := by
        unfold State.tileReset State.loadStop
        rw [State.modTile_tile, if_pos rfl, show (Tile.computeReset (((s.hltTaken v).hltRun 6 t).tile t)).ld.cur = none from hld]
      rw [hreset]
      exact ⟨by simp, rfl, rfl, fun n hn => by simp [hn]⟩
    case resetState =>
      have hexec := (exec_treset_taken h ht).trans (if_pos hst)
      exact hexec ▸ hltTaken_refused s v 3
    case resetCores =>
      have hexec := (exec_treset_taken h ht).trans ((if_neg (by simp [hoff, hdark])).trans (if_pos hcores))
      exact hexec ▸ hltTaken_refused s v 5
  case clears =>
    have hexec : exec (.clear 0 v) s = execClear 0 v s := rfl
    have hfind' : (s.hltTaken v).hlt.defects.find? (fun d => d.srcLearned && d.seq == (s.hltTaken v).hlt.cmdarg) = some d := hfind
    rw [hexec, execClear, hltGate_of_free h]
    dsimp only
    rw [hfind']
    dsimp only
    generalize hs1 : (((s.hltTaken v).learn 2 _).modHlt _).raisePanel 0x0509 _ _ = s1
    have h1 : s1.hlt.defects = clearEntry s.hlt.cmdarg s.hlt.defects ∧ { type := 2, seq := s.spi.lrNext, payload := [BitVec.ofNat 64 s.hlt.cmdarg.toNat] } ∈ s1.spi.lrWait := by
      subst hs1
      refine ⟨congrArg Hlt.defects (State.raise_hlt ..), ?_⟩
      rw [State.raisePanel, State.raise_spi_field (fun x => x.lrWait) fun _ _ _ => rfl]
      exact List.mem_append_right _ (List.mem_singleton.2 rfl)
    have hkey (u : State) (hd : u.hlt.defects = s1.hlt.defects) (hw : u.spi = s1.spi) : u.hlt.defects.find? (fun d => d.srcLearned && d.seq == s.hlt.cmdarg) = none ∧
        { type := 2, seq := s.spi.lrNext, payload := [BitVec.ofNat 64 s.hlt.cmdarg.toNat] } ∈ u.spi.lrWait := by
      rw [hd, hw, h1.1]
      exact ⟨find?_clearEntry .., h1.2⟩
    split
    · split
      · exact goesTo_ok (hkey _ rfl rfl)
      · exact goesTo_ok (hkey _ rfl rfl)
    · split
      · exact goesTo_ok (hkey _ rfl rfl)
      · exact goesTo_ok (hkey _ rfl rfl)
  case noEntry =>
    have hexec : exec (.clear 0 v) s = execClear 0 v s := rfl
    have hnone' : (s.hltTaken v).hlt.defects.find? (fun d => d.srcLearned && d.seq == (s.hltTaken v).hlt.cmdarg) = none := hnone
    rw [hexec, execClear, hltGate_of_free h]
    dsimp only
    rw [hnone']
    exact hltTaken_refused s v 6
  case sites =>
    intro p
    have hp : s.phys (bitsOf v 14 0 % 256) = p := rfl
    clear_value p
    refine ⟨fun hst => ?resetState, fun hoff hdark hcores => ?resetCores, fun hoff hdark hcores => ?resets⟩
    case resetState =>
      have hexec := (exec_sreset_taken h hp).trans (if_pos hst)
      exact hexec ▸ hltTaken_refused s v 3
    case resetCores =>
      have hexec := (exec_sreset_taken h hp).trans ((if_neg (by simp [hoff, hdark])).trans (if_pos hcores))
      exact hexec ▸ hltTaken_refused s v 5
    case resets =>
      refine goesTo_of_eq ((exec_sreset_taken h hp).trans ((if_neg (by simp [hoff, hdark])).trans (if_neg (by rw [hcores]; decide)))) ⟨?_, ?_, ?_, ?_⟩
      · simp [State.siteReset]
      · simp [State.siteReset]
      · exact State.siteReset_hlt_field _ (fun x => x.busy) (fun _ _ => rfl) p
      · exact State.siteReset_hlt_field _ (fun x => x.run) (fun _ _ => rfl) p
  case siteCounts =>
    intro p hp hd
    have hexec : exec (.hltSclr 0 v) s = execHltSclr 0 v s := rfl
    rw [hexec, execHltSclr, when_, if_pos (by rw [hr]; rfl)]
    dsimp only
    rw [when_, if_pos (by simp [show bitsOf (s.port 0).ssel 8 4 * 16 + bitsOf (s.port 0).ssel 3 0 = p from rfl, hp, hd])]
    refine goesTo_ok ⟨?_, ?_, ?_, ?_, ?_, ?_, fun q hq => ?_, only_of_outside (by intros; simp)⟩
    · rw [State.modCnt_site, if_pos rfl]
    · rw [State.modCnt_site, if_pos rfl]
    · rw [State.modCnt_site, if_pos rfl]
    · rw [State.modCnt_site, if_pos rfl]
    · rw [State.modCnt_site, if_pos rfl]
    · rw [State.modCnt_site, if_pos rfl]
    · rw [State.modCnt_site, if_neg hq]
  case edgeCounts =>
    intro e
    have hexec : exec (.hltEclr 0 v) s = execHltEclr 0 v s := rfl
    have hclear (b : Bool) (l : Tbl W32) (n : Nat) : tget 0 (if b = true then tput 0 l e 0 else l) n = if b = true ∧ n = e then 0 else tget 0 l n := by
      cases b <;> simp
    rw [hexec, execHltEclr, when_, if_pos (by rw [hr]; rfl)]
    refine goesTo_ok ⟨(hclear ..).trans (by simp), (hclear ..).trans (by simp), fun n hn => ⟨(hclear ..).trans (by simp [hn]), (hclear ..).trans (by simp [hn])⟩, only_of_outside (by intros; simp)⟩
  case bellCounts =>
    have hexec : exec (.hltDbclr 0 v) s = when_ (s.reach 0) s (ok ((rangeFrom 0 4).foldl (State.clearBells v) s)) := rfl
    rw [hexec, when_, if_pos hr]
    refine goesTo_ok ⟨fun p hp => ?_, only_of_outside (by intros; exact outside_foldl _ (fun u q => by simp [State.clearBells]) _ _)⟩
    split
    · next hv => exact (State.clearBells_foldl_port hv _ s (.inl (mem_rangeFrom.2 (by omega)))).1
    · next hv =>
      refine List.foldlRecOn (motive := fun u : State => (u.port p).dbdrop = (s.port p).dbdrop) _ _ rfl fun u hu q _ => ?_
      unfold State.clearBells
      split
      · next hq =>
        have hne : p ≠ q := fun h => hv (h ▸ hq)
        rw [State.modPort_port, if_neg hne, hu]
      · exact hu
  case selects =>
    have hexec : exec (.hltLsel port v) s = execHltLsel port v s := rfl
    have hport : port < 4 := by
      simp only [State.reach, Bool.and_eq_true, decide_eq_true_eq] at hr
      tauto
    rw [hexec, execHltLsel, onPort, if_pos hport, when_, if_pos hr]
    exact goesTo_ok ⟨by simp, fun q hq => by simp [hq], only_of_outside (by intros; simp)⟩

end Sys2Proof.Machine

end

section
/-! PROOFS. Debug accesses, and writes to BAR0, BAR2 and the configuration space (R285, R288, R516, R522, R532 to R536; O55). -/

namespace Sys2Proof.Machine

open Sys2Proof.Safety (Blk Only GoesTo Managed)

/-! ### Commands of the debug block (R532) -/

/-- What a debug access meets: the panel as it was, or, before an unaligned access, a free partition (R331). -/
def State.dbgReady (s : State) : State :=
  let s' := s.modDbg fun d => { d with err := false, ecode := 0 }
  if s.dbg.addr.toNat % 8 = 0 then s' else s'.wildPart (s.ctx s.dbg.ctx).cfg.part
theorem dbgCmd_taken {s : State} (h : Managed s 0) (hlock : s.dbg.locked = false) (hbusy : s.dbg.busy = false) (hfree : (s.ctx s.dbg.ctx).st ≠ .free) (hres : (s.ctx s.dbg.ctx).st ≠ .resetting)
    (k : State → State) : dbgCmd s 0 k = ok (k s.dbgReady) := by
  rw [dbgCmd, gated0_of_managed h]
  dsimp only
  rw [if_neg (by rw [hlock]; decide), if_neg (by rw [hbusy]; decide), if_neg (by simp [hfree, hres])]
  unfold State.dbgReady
  by_cases ha : s.dbg.addr.toNat % 8 = 0
  · rw [if_neg (not_not.2 ha), if_pos ha]
  · rw [if_pos ha, if_neg ha]
    rfl
theorem State.dbgReady_dbg (s : State) : s.dbgReady.dbg = { s.dbg with err := false, ecode := 0 } := by
  unfold State.dbgReady
  dsimp only
  split
  · rfl
  · exact dbg_of_only (s := s.modDbg fun d => { d with err := false, ecode := 0 }) (bs := [.freeN, .tiles, .chans, .host, .spi, .hlt]) (only_of_outside (by intros; simp)) (by decide)

/-- The state in which the packet of a debug WRITE is sent. -/
def State.dbgSends (s : State) : State :=
  (s.edgeSeq 0 s.dbg.ctx).2.modDbg fun d => { d with busy := decide (2 ≤ aSpace d.addr), status := if aSpace d.addr < 2 then 0 else d.status }
def State.dbgPacket (s : State) : Packet :=
  { opc := .write, last := false, dctr := s.dbg.dctr, spart := (s.ctx s.dbg.ctx).cfg.part, epoch := (s.ctx s.dbg.ctx).epoch, ctx := s.dbg.ctx, seq := (s.edgeSeq 0 s.dbg.ctx).1, len := 8,
    dest := s.dbg.addr, src := edgeAddr s.rick.panel 0 0xFFFF, total := 0, status := 0, hops := 0, payload := leBytes 8 s.dbg.data.toNat }
theorem exec_dbgWrite {s : State} (h : Managed s 0) (hlock : s.dbg.locked = false) (hbusy : s.dbg.busy = false) (hfree : (s.ctx s.dbg.ctx).st ≠ .free) (hres : (s.ctx s.dbg.ctx).st ≠ .resetting) :
    exec (.dbgWrite 0) s = ok (s.dbgReady.dbgSends.inject (.edge 0) none (edgeSite 0) s.dbgReady.dbgPacket) := by
  have hexec : exec (.dbgWrite 0) s = execDbgWrite 0 s := rfl
  rw [hexec, execDbgWrite, dbgCmd_taken h hlock hbusy hfree hres]
  rfl
theorem State.inject_dbg (s : State) (at_ : Place) (own : Option Nat) (site : Nat) (pkt : Packet) : (s.inject at_ own site pkt).dbg = s.dbg :=
  dbg_of_only (bs := [.sites, .fab, .host, .spi]) (only_of_outside (by intros; simp)) (by decide)
theorem State.inject_tiles (s : State) (at_ : Place) (own : Option Nat) (site : Nat) (pkt : Packet) : (s.inject at_ own site pkt).tiles = s.tiles :=
  tiles_of_only (bs := [.sites, .fab, .host, .spi]) (only_of_outside (by intros; simp)) (by decide)
theorem State.inject_of_go {s : State} {own : Option Nat} {pkt : Packet} {g : Goal} (h : s.route own pkt.spart pkt.ctx pkt.dest = .go g) (at_ : Place) (site : Nat) :
    s.inject at_ own site pkt = s.addFlight { pkt, goal := g, place := at_, escape := false, fill := none } := by
  rw [State.inject, h]

/-! ### Register writes (R516) -/

theorem exec_registerWrite_bar0 {p off : Nat} (hp : p < 4) (ho : off < 0x100000) (h4 : off % 4 = 0) (v : W64) (s : State) :
    exec (.registerWrite p 0 off 4 v) s = write32 s p off (BitVec.ofNat 32 (bitsOf v 31 0)) := by
  have hexec : exec (.registerWrite p 0 off 4 v) s = execRegisterWrite p 0 off 4 v s := rfl
  rw [hexec, execRegisterWrite, if_neg (by omega), if_pos rfl, if_pos ho, writeBar0, if_neg (by omega), if_neg (by omega), if_pos ⟨rfl, h4⟩]
theorem exec_registerWrite_cfg {p off : Nat} (hp : p < 4) (v : W64) (s : State) :
    exec (.registerWrite p 6 off 4 v) s = writeCfg s p off (BitVec.ofNat 32 (bitsOf v 31 0)) := by
  have hexec : exec (.registerWrite p 6 off 4 v) s = execRegisterWrite p 6 off 4 v s := rfl
  rw [hexec, execRegisterWrite, if_neg (by omega), if_neg (by decide), if_neg (by decide), if_pos ⟨rfl, rfl⟩]
theorem lt_of_reach {s : State} {p : Nat} (h : s.reach p = true) : p < 4 := by
  simp only [State.reach, Bool.and_eq_true, decide_eq_true_eq] at h
  tauto
/-- The low half of a value holds its low bits. -/
theorem bitsOf_low32 (v : W64) {hi lo : Nat} (h : hi < 32) : bitsOf (BitVec.ofNat 32 (bitsOf v 31 0)) hi lo = bitsOf v hi lo := by
  have hlow : (BitVec.ofNat 32 (bitsOf v 31 0)).toNat = v.toNat % 2 ^ 32 := by
    simp only [bitsOf, BitVec.toNat_ofNat]
    omega
  unfold bitsOf at hlow ⊢
  rw [hlow]
  by_cases hle : lo ≤ hi
  · have h32 : 2 ^ 32 = 2 ^ lo * 2 ^ (32 - lo) := by rw [← pow_add, show lo + (32 - lo) = 32 by omega]
    rw [h32, Nat.mod_mul_right_div_self, Nat.mod_mod_of_dvd _ (pow_dvd_pow 2 (by omega))]
  · rw [show hi + 1 - lo = 0 by omega, pow_zero, Nat.mod_one, Nat.mod_one]
theorem bitOf_low32 (v : W64) {i : Nat} (h : i < 32) : bitOf (BitVec.ofNat 32 (bitsOf v 31 0)) i = bitOf v i := by
  have hlow : (BitVec.ofNat 32 (bitsOf v 31 0)).toNat = v.toNat % 2 ^ 32 := by
    simp only [bitsOf, BitVec.toNat_ofNat]
    omega
  unfold bitOf
  rw [← BitVec.testBit_toNat, ← BitVec.testBit_toNat, hlow, Nat.testBit_mod_two_pow, decide_eq_true h, Bool.true_and]
theorem bitsOf_high32 (v : W64) : bitsOf (BitVec.ofNat 64 (bitsOf v 63 32)) 31 0 = bitsOf v 63 32 := by
  simp only [bitsOf, BitVec.toNat_ofNat]
  omega

/-- Settles O55. -/
theorem registersComplete : Obligations.RegistersComplete := by
  unfold Obligations.RegistersComplete
  intro may s1
  refine ⟨fun s h => ?reads, fun s h => ?writes, fun s h ha => ?writesAligned, fun v s h => ?locks, fun v s h hlock => ?tests, fun p v s hp hcfg hv => ?d3hot, fun p v s hp hcfg => ?timeout,
    fun p v s hr hsv => ?scratch, fun p off v s hp ho h8 => ?wide, fun p off w v s hw ho => ?narrow, fun p off w v s hr ho hw => ?bell⟩
  case reads =>
    obtain ⟨hm, hlock, hbusy, hfree, hres⟩ := h
    have hexec : exec (.dbgRead 0) s = execDbgRead 0 s := rfl
    rw [hexec, execDbgRead, dbgCmd_taken hm hlock hbusy hfree hres]
    rfl
  case writes =>
    obtain ⟨hm, hlock, hbusy, hfree, hres⟩ := h
    refine goesTo_of_eq (exec_dbgWrite hm hlock hbusy hfree hres) ?_
    rw [State.inject_dbg]
    have hdbg := s.dbgReady_dbg
    exact ⟨congrArg Dbg.err hdbg, congrArg Dbg.ecode hdbg⟩
  case writesAligned =>
    obtain ⟨hm, hlock, hbusy, hfree, hres⟩ := h
    have hready : s.dbgReady = s.modDbg fun d => { d with err := false, ecode := 0 } := if_pos ha
    refine goesTo_of_eq (exec_dbgWrite hm hlock hbusy hfree hres) ?_
    rw [State.inject_dbg, State.inject_tiles, hready]
    refine ⟨rfl, rfl, rfl, rfl, fun g hg => ?_⟩
    rw [State.inject_of_go (g := g) hg]
    exact ⟨_, rfl, rfl, rfl, rfl, rfl, rfl, rfl⟩
  case locks =>
    have hexec : exec (.dbgLock 0 v) s = execDbgLock 0 v s := rfl
    rw [hexec, execDbgLock, gated0_of_managed h]
    cases hb : bitOf v 0 with
    | true => exact goesTo_ok ⟨by simp, only_of_outside (by intros; simp)⟩
    | false => exact goesTo_ok ⟨by simp, Only.refl s⟩
  case tests =>
    have hexec : exec (.dbgTest 0 v) s = execDbgTest 0 v s := rfl
    rw [hexec, execDbgTest, gated0_of_managed h, if_neg (by rw [hlock]; decide)]
    rfl
  case d3hot =>
    rw [exec_registerWrite_cfg hp, writeCfg]
    dsimp only
    rw [when_, if_pos (by rw [hcfg]; rfl), if_neg (by decide), if_neg (by decide), if_pos rfl, bitsOf_low32 v (by decide), hv]
    exact goesTo_ok ⟨by simp, fun q hq => by simp [hq], only_of_outside (by intros; simp)⟩
  case timeout =>
    rw [exec_registerWrite_cfg hp, writeCfg]
    dsimp only
    rw [when_, if_pos (by rw [hcfg]; rfl), if_neg (by decide), if_pos rfl, bitsOf_low32 v (by decide), bitOf_low32 v (by decide)]
    exact goesTo_ok ⟨by simp, by simp, fun q hq => by simp [hq], only_of_outside (by intros; simp)⟩
  case scratch =>
    rw [exec_registerWrite_bar0 (lt_of_reach hr) (by decide) (by decide), write32, if_neg (by rcases hsv with rfl | hsv <;> simp_all), if_pos (by decide), writeId, when_, if_pos (by simp [hr])]
    rfl
  case wide =>
    have hexec : exec (.registerWrite p 0 off 8 v) s = execRegisterWrite p 0 off 8 v s := rfl
    rw [hexec, execRegisterWrite, if_neg (by omega), if_pos rfl, if_pos ho, writeBar0, if_neg (by omega), if_pos rfl, exec_registerWrite_bar0 hp ho (by omega)]
    congr 1
    funext u
    rw [exec_registerWrite_bar0 hp (by omega) (by omega), bitsOf_high32]
  case narrow =>
    have hexec : exec (.registerWrite p 0 off w v) s = execRegisterWrite p 0 off w v s := rfl
    rw [hexec, execRegisterWrite]
    split
    · rfl
    · rw [if_pos rfl]
      split
      · rw [writeBar0, if_neg (by omega), if_neg (by omega), if_neg (by omega)]
        rfl
      · rfl
  case bell =>
    have hp := lt_of_reach hr
    have hexec : exec (.registerWrite p 2 off w v) s = execRegisterWrite p 2 off w v s := rfl
    rw [hexec, execRegisterWrite, if_neg (by omega), if_neg (by decide), if_pos rfl, if_pos ho, writeBar2, if_pos (by omega), when_, if_pos hr]
    rfl

end Sys2Proof.Machine

end

section
/-! PROOFS. What an Xthrumrak instruction of a running core meets, and its counter, event and transfer instructions (R184 to R196; O12, O13, O16, O17). -/

namespace Sys2Proof.Machine

open Sys2Proof.Safety (Blk Only GoesTo XtAt)

/-! ### Words that a tile meets -/

section
variable (T : Tile) (r : Nat → Bool) (a n : Nat)
/-- What a read of tile SRAM or scratch leaves in place: all but the latent single-bit errors and their counts (R182, R253). -/
def Tile.besideFlips (T : Tile) : Tile := { T with flips := [], sramCorr := 0, scrCorr := 0 }
theorem Tile.meet_beside : (T.meet r).besideFlips = T.besideFlips := rfl
theorem Tile.meetPair_beside : (T.meetPair a n).besideFlips = T.besideFlips := by
  unfold Tile.meetPair Tile.meetScr
  split <;> rfl
theorem Tile.meetLocal_beside : (T.meetLocal a n).besideFlips = T.besideFlips := by
  unfold Tile.meetLocal
  split
  · rfl
  · split
    · exact T.meetPair_beside a n
    · rfl
end

section
variable {T U : Tile} (h : U.besideFlips = T.besideFlips)
include h
theorem Tile.core_of_beside (c : Nat) : U.core c = T.core c := (congrArg (Tile.core · c) h :)
theorem Tile.ctr_of_beside (i : Nat) : U.ctr i = T.ctr i := (congrArg (Tile.ctr · i) h :)
theorem Tile.sram_of_beside : U.sram = T.sram := (congrArg Tile.sram h :)
theorem Tile.scr_of_beside : U.scr = T.scr := (congrArg Tile.scr h :)
theorem Tile.eng_of_beside : U.eng = T.eng := (congrArg Tile.eng h :)
theorem Tile.guarded_of_beside : U.guarded = T.guarded := (congrArg Tile.guarded h :)
theorem Tile.badSram_of_beside : U.badSram = T.badSram := (congrArg Tile.badSram h :)
theorem Tile.badScr_of_beside : U.badScr = T.badScr := (congrArg Tile.badScr h :)
end

/-! ### After the fetch -/

section
variable (s : State) (t c len : Nat)
theorem State.fetched_beside (n : Nat) : ((s.fetched t c len).tile n).besideFlips = (s.tile n).besideFlips := by
  rw [State.fetched, State.modTile_tile]
  split
  · next h => rw [h, Tile.meetPair_beside]
  · rfl
@[simp] theorem State.fetched_core (n j : Nat) : (s.fetched t c len).core n j = s.core n j := Tile.core_of_beside (s.fetched_beside t c len n) j
@[simp] theorem State.fetched_tile_core (n j : Nat) : ((s.fetched t c len).tile n).core j = (s.tile n).core j := s.fetched_core t c len n j
@[simp] theorem State.fetched_tile_ctr (n i : Nat) : ((s.fetched t c len).tile n).ctr i = (s.tile n).ctr i := Tile.ctr_of_beside (s.fetched_beside t c len n) i
@[simp] theorem State.fetched_tile_sram (n : Nat) : ((s.fetched t c len).tile n).sram = (s.tile n).sram := Tile.sram_of_beside (s.fetched_beside t c len n)
@[simp] theorem State.fetched_tile_scr (n : Nat) : ((s.fetched t c len).tile n).scr = (s.tile n).scr := Tile.scr_of_beside (s.fetched_beside t c len n)
@[simp] theorem State.fetched_tile_eng (n : Nat) : ((s.fetched t c len).tile n).eng = (s.tile n).eng := Tile.eng_of_beside (s.fetched_beside t c len n)
@[simp] theorem State.fetched_tile_guarded (n : Nat) : ((s.fetched t c len).tile n).guarded = (s.tile n).guarded := Tile.guarded_of_beside (s.fetched_beside t c len n)
@[simp] theorem State.fetched_tile_badSram (n : Nat) : ((s.fetched t c len).tile n).badSram = (s.tile n).badSram := Tile.badSram_of_beside (s.fetched_beside t c len n)
@[simp] theorem State.fetched_tile_badScr (n : Nat) : ((s.fetched t c len).tile n).badScr = (s.tile n).badScr := Tile.badScr_of_beside (s.fetched_beside t c len n)
theorem State.fetched_tile_other {n : Nat} (h : n ≠ t) : (s.fetched t c len).tile n = s.tile n := by rw [State.fetched, State.modTile_tile, if_neg h]
@[simp] theorem State.fetched_time : (s.fetched t c len).time = s.time := rfl
@[simp] theorem State.fetched_freeN : (s.fetched t c len).freeN = s.freeN := rfl
@[simp] theorem State.fetched_tilePart (n : Nat) : (s.fetched t c len).tilePart n = s.tilePart n := rfl
theorem State.fetched_only : Only [.tiles] s (s.fetched t c len) := only_of_outside (by intros; simp)
end

/-! ### Reading a core after an instruction -/

@[simp] theorem Core.getX_zero (k : Core) : k.getX 0 = 0 := rfl
theorem Core.getX_setX (k : Core) (r j : Nat) (v : W64) : (k.setX r v).getX j = if j = 0 then 0 else if j = r then v else k.getX j := by
  unfold Core.setX Core.getX
  by_cases hj : j = 0
  · simp [hj]
  · rw [if_neg hj, if_neg hj]
    split
    · next hr => rw [if_neg (by omega)]
    · exact tget_tput ..
theorem Core.getX_setX_self (k : Core) (r : Nat) (v : W64) : (k.setX r v).getX r = if r = 0 then 0 else v := by
  rw [k.getX_setX, if_pos rfl]
@[simp] theorem Core.getX_next (k : Core) (pc : W64) (r : Nat) : (k.next pc).getX r = k.getX r := rfl
@[simp] theorem Core.next_pc (k : Core) (pc : W64) : (k.next pc).pc = pc := rfl
@[simp] theorem Core.setX_pc (k : Core) (r : Nat) (v : W64) : (k.setX r v).pc = k.pc := by unfold Core.setX; split <;> rfl
@[simp] theorem Core.setX_st (k : Core) (r : Nat) (v : W64) : (k.setX r v).st = k.st := by unfold Core.setX; split <;> rfl
@[simp] theorem Core.setX_waiting (k : Core) (r : Nat) (v : W64) : (k.setX r v).waiting = k.waiting := by unfold Core.setX; split <;> rfl
theorem State.modCore_core_self (s : State) (t c : Nat) (f : Core → Core) : (s.modCore t c f).core t c = f (s.core t c) := by
  unfold State.core State.modCore
  rw [State.modTile_tile, if_pos rfl, Tile.modCore_core, if_pos rfl]
theorem State.modCore_tile_other (s : State) (t c : Nat) (f : Core → Core) {n : Nat} (h : n ≠ t) : (s.modCore t c f).tile n = s.tile n := by
  rw [State.modCore, State.modTile_tile, if_neg h]
theorem State.modCore_tile_self (s : State) (t c : Nat) (f : Core → Core) : (s.modCore t c f).tile t = (s.tile t).modCore c f := by
  rw [State.modCore, State.modTile_tile, if_pos rfl]

/-- An Xthrumrak instruction that a running core stands at runs on the state after its fetch (R184). -/
theorem atXt_of {s : State} {t c w : Nat} {x : Xt} (h : XtAt s t c x w) (k : State → Nat → Out) : atXt s t c x k = k (s.fetched t c 4) w := by
  obtain ⟨ht, hruns, hfetch, hx⟩ := h
  rw [atXt, onTile, if_pos ht, hruns, hfetch]
  exact if_pos hx

/-! ### Counters (R192, R193) -/

/-- What a counter instruction leaves: the counter written, rd, and the pc behind it (R192). -/
theorem counterOp_goesTo (s : State) (t c w : Nat) (old : Ctr → W32) (f : Ctr → W32 → Ctr) :
    let k := s.core t c
    let i := (k.getX (iRs1 w)).toNat % 64
    GoesTo (counterOp s t c w old f) fun u => (u.tile t).ctr i = f ((s.tile t).ctr i) ((k.getX (iRs2 w)).setWidth 32) ∧ (∀ j, j ≠ i → (u.tile t).ctr j = (s.tile t).ctr j) ∧
      (∀ n, n ≠ t → u.tile n = s.tile n) ∧ (u.tile t).sram = (s.tile t).sram ∧ (u.tile t).scr = (s.tile t).scr ∧ (u.core t c).pc = k.pc + 4 ∧
      (u.core t c).getX (iRd w) = (if iRd w = 0 then 0 else (old ((s.tile t).ctr i)).setWidth 64) ∧ Only [.tiles] s u := by
  intro k i
  refine goesTo_ok ⟨?_, fun j hj => ?_, fun n hn => ?_, ?_, ?_, ?_, ?_, only_of_outside (by intros; simp)⟩
  · rw [State.modCore_tile_self, State.setTile_tile, if_pos rfl]
    exact ((s.tile t).setCtr_ctr i i _).trans (if_pos rfl)
  · rw [State.modCore_tile_self, State.setTile_tile, if_pos rfl]
    exact ((s.tile t).setCtr_ctr i j _).trans (if_neg hj)
  · rw [State.modCore_tile_other _ _ _ _ hn, State.setTile_tile, if_neg hn]
  · rw [State.modCore_tile_self, State.setTile_tile, if_pos rfl]
    rfl
  · rw [State.modCore_tile_self, State.setTile_tile, if_pos rfl]
    rfl
  · rw [State.modCore_core_self, Core.next_pc, State.core, State.setTile_tile, if_pos rfl]
    rfl
  · rw [State.modCore_core_self, Core.getX_next, Core.getX_setX_self]
    rfl

/-- The frame of `counterOp` after a fetch, said of the state before it. -/
theorem counterOp_fetched {s : State} {t c w : Nat} {x : Xt} (h : XtAt s t c x w) (old : Ctr → W32) (f : Ctr → W32 → Ctr) :
    let k := s.core t c
    let i := (k.getX (iRs1 w)).toNat % 64
    GoesTo (atXt s t c x fun s w => counterOp s t c w old f) fun u => (u.tile t).ctr i = f ((s.tile t).ctr i) ((k.getX (iRs2 w)).setWidth 32) ∧
      (∀ j, j ≠ i → (u.tile t).ctr j = (s.tile t).ctr j) ∧ (∀ n, n ≠ t → u.tile n = s.tile n) ∧ (u.tile t).sram = (s.tile t).sram ∧ (u.tile t).scr = (s.tile t).scr ∧
      (u.core t c).pc = k.pc + 4 ∧ (u.core t c).getX (iRd w) = (if iRd w = 0 then 0 else (old ((s.tile t).ctr i)).setWidth 64) ∧ Only [.tiles] s u := by
  intro k i
  rw [atXt_of h]
  have hop := counterOp_goesTo (s.fetched t c 4) t c w old f
  simp only [State.fetched_core, State.fetched_tile_ctr, State.fetched_tile_sram, State.fetched_tile_scr] at hop
  obtain ⟨u, hu, hi, hj, hn, hsram, hscr, hpc, hrd, honly⟩ := hop
  exact ⟨u, hu, hi, hj, fun n hne => (hn n hne).trans (s.fetched_tile_other t c 4 hne), hsram, hscr, hpc, hrd, Only.trans (s.fetched_only t c 4) honly⟩

/-- Settles O16: XT.CSET, XT.CADD and XT.CARM write their half of the counter and leave the rest alone. -/
theorem counterInstructions : Obligations.CounterInstructions := by
  unfold Obligations.CounterInstructions
  intro t c w s k i v old rest
  refine ⟨fun h => counterOp_fetched h .., fun h => ?_, fun h => counterOp_fetched h ..⟩
  obtain ⟨u, hu, hi, hrest⟩ := counterOp_fetched h (fun r => r.value) fun r v => { r with value := r.value + v }
  exact ⟨u, hu, by rw [hi]; exact BitVec.toNat_add .., by rw [hi], hrest⟩

/-- Settles O17: XT.CWAIT goes on or waits by whether its counter has reached its target, and CWAIT_RESUME goes on once it has. -/
theorem counterWait : Obligations.CounterWait := by
  refine ⟨fun t c w s h => ?_, fun t c i rd s ht hc hruns hst hwait hreach => ?_⟩
  · intro k i r
    have hexec : exec (.xtCwait t c) s = execXtCwait t c s := rfl
    rw [hexec, execXtCwait, atXt_of h]
    simp only [State.fetched_tile_core, State.fetched_tile_ctr]
    exact ⟨fun hr => if_pos (decide_eq_true hr), fun hr => if_neg (by simp only [Ctr.reached, decide_eq_true_eq]; exact not_le.2 hr)⟩
  · have hexec : exec (.cwaitResume t c) s = execCwaitResume t c s := rfl
    have hw : ((s.tile t).core c).waiting = some (i, rd) := hwait
    rw [hexec, execCwaitResume, onTile, if_pos ht]
    simp only [hw]
    rw [when_, if_pos (by simp only [hc, hruns, Ctr.reached, hreach]; simpa [State.core] using hst)]
    refine goesTo_ok ⟨?_, ?_, ?_, ?_, fun n hn => State.modCore_tile_other _ _ _ _ hn⟩
    · rw [State.modCore_core_self]
      exact Core.setX_st ..
    · rw [State.modCore_core_self]
      exact Core.setX_waiting ..
    · rw [State.modCore_core_self, Core.next_pc]
      rfl
    · rw [State.modCore_core_self, Core.getX_next, Core.getX_setX_self]

/-! ### The end of a program, and XT.EVT (R175, R184, R196) -/

theorem exec_ecallExit {s : State} {t c len : Nat} (ht : t < 32768) (hruns : coreRuns s t c = true) (hfetch : (s.tile t).fetch c = .ins 0x73 len) (ha7 : (s.core t c).getX 17 = 0) :
    exec (.ecallExit t c) s = .next (s.modCore t c fun k => { k with exit := (k.getX 10).setWidth 16, ending := true }) := by
  have hexec : exec (.ecallExit t c) s = execEcallExit t c s := rfl
  have hexit : isExit ((s.tile t).core c) 0x73 = true := by
    unfold isExit
    rw [show ((s.tile t).core c).getX 17 = 0 from ha7]
    rfl
  rw [hexec, execEcallExit, onTile, if_pos ht, hruns, hfetch]
  exact if_pos hexit

/-- Settles O12: a program ends with its exit code, and XT.EVT raises its event or keeps it with the core. -/
theorem programsComplete : Obligations.ProgramsComplete := by
  refine ⟨⟨fun t c len s => exec_ecallExit, fun t c s ht hc hruns hst hend htq => ?_⟩, fun t c w s h => ?_⟩
  · intro k d
    have hexec : exec (.coreDone t c) s = execCoreDone t c s := rfl
    have hk : (s.tile t).core c = k := rfl
    clear_value k
    rw [hexec, execCoreDone, onTile, if_pos ht]
    dsimp only
    rw [hk, when_, if_pos (by rw [State.core, hk] at hst hend htq; simp [hc, hruns, hst, hend, htq])]
    refine ⟨fun hl => ?_, fun n hl => ?_⟩
    all_goals rw [hl]; rfl
  · intro k e f ev
    have hexec (b : Bool) : exec (.xtEvt t ⟨c, b⟩) s = execXtEvt t ⟨c, b⟩ s := rfl
    simp only [hexec, execXtEvt, atXt_of h, State.fetched_core, State.fetched_time, State.fetched_tilePart]
    refine ⟨fun hk => ?_, fun hk => ?_, fun hk => ?_, fun e' hk => ?_⟩
    · rw [show (s.core t c).evt = none from hk]
      rfl
    · rw [show (s.core t c).evt = none from hk]
      rfl
    · rw [if_pos (Option.isSome_iff_ne_none.2 hk)]
      rfl
    · rw [if_pos (by rw [show (s.core t c).evt = some e' from hk]; rfl), if_pos trivial, State.acceptEvt, State.fetched_core, show (s.core t c).evt = some e' from hk]
      rfl

/-! ### Transfers (R184 to R187) -/

/-- Settles O13: XT.PUT and XT.GET queue their transfer, stall, or trap. -/
theorem transfersQueue : Obligations.TransfersQueue := by
  intro t c w s put h k x i f
  have hexec : exec i s = queueTransfer f t c put w := by
    cases put
    · exact atXt_of (x := .get) h fun s w => queueTransfer s t c false w
    · exact atXt_of (x := .put) h fun s w => queueTransfer s t c true w
  rw [hexec, queueTransfer, State.fetched_core, State.fetched_tile_guarded]
  refine ⟨fun hlen hok => ?_, fun hlen => if_pos hlen, fun hlen hok => ?_⟩
  · dsimp only
    rw [if_neg (not_le.2 hlen), if_neg (by rw [show localOk _ _ _ = true from hok]; decide)]
    rfl
  · refine ⟨if Config.freeBool s.freeN then cStoreFault else cLoadFault, ?_, ?_⟩
    · split
      · exact .inr rfl
      · exact .inl rfl
    · dsimp only
      rw [if_neg (not_le.2 hlen), if_pos (by rw [show localOk _ _ _ = false from hok]; rfl)]
      rfl

end Sys2Proof.Machine
end

section
/-! PROOFS. XT.PROBE and XT.ENQ, and the traffic that a tile's cores and loaders begin (R145, R173, R187 to R206; O14, O15, O18). -/

namespace Sys2Proof.Machine

open Sys2Proof.Safety (Blk Only GoesTo XtAt)

/-! ### XT.PROBE (R145, R147, R195) -/

/-- What a probe leaves in its record, in one form for a positive and a negative one. -/
theorem probeApply_eq (r : PredRec) (mode n : Nat) (pos : Bool) :
    probeApply r mode n pos = ({ r with
      w2 := if pos then r.w2 ||| BitVec.ofNat 64 (2 ^ n) else r.w2
      w1 := if pos ∧ mode = 3 ∧ r.aud = false ∧ bitOf r.w0 n = false then r.w1 ||| BitVec.ofNat 64 (2 ^ n) else r.w1 }, { probes := 1, probepos := b2n pos }) := by
  cases pos
  · simp [probeApply]
  · simp [probeApply]

/-- Settles O14: XT.PROBE answers 0 under MODE 0, its result with its record and tallies, or free values. -/
theorem probeCompletes : Obligations.ProbeCompletes := by
  intro t c w s h k T p f ends
  have hexec : exec (.xtProbe t c) s = execXtProbe t c s := rfl
  rw [hexec, execXtProbe, atXt_of h]
  simp only [State.fetched_tile_core, State.fetched_tile_sram, State.fetched_tile_badSram, State.fetched_freeN]
  refine ⟨fun hm => if_pos hm, fun hm hbad => (if_neg hm).trans (if_pos hbad), fun hm hbad hreads => ?_⟩
  refine (if_neg hm).trans ((if_neg (Bool.eq_false_iff.1 hbad)).trans ?_)
  rw [show probeReads (s.tile t).sram (s.tile t).badSram (probeOf (((s.tile t).core c).getX (iRs1 w)) (((s.tile t).core c).getX (iRs2 w)) (((s.tile t).core c).getX (iRs3 w))) = none from hreads]
  have hmeet (p : Probe) : ((s.fetched t c 4).modTile t fun T => T.meet fun w => (probeReads T.sram [w] p).isSome) =
      (s.fetched t c 4).modTile t fun T' => T'.meet fun w => (probeReads (s.tile t).sram [w] p).isSome := by
    simp only [State.modTile, State.fetched_tile_sram]
  simp only [probeApply_eq, hmeet]
  rfl

/-! ### XT.ENQ (R49, R77, R194) -/

theorem Tile.meetLocal_core (T : Tile) (a n c : Nat) : (T.meetLocal a n).core c = T.core c := Tile.core_of_beside (T.meetLocal_beside a n) c
theorem Tile.localBytes_of_beside {T U : Tile} (h : U.besideFlips = T.besideFlips) (a n : Nat) : U.localBytes a n = T.localBytes a n := by
  rw [Tile.localBytes, Tile.localBytes, Tile.sram_of_beside h, Tile.scr_of_beside h]
theorem Tile.localBad_of_beside {T U : Tile} (h : U.besideFlips = T.besideFlips) (a n : Nat) : U.localBad a n = T.localBad a n := by
  rw [Tile.localBad, Tile.localBad, Tile.badSram_of_beside h, Tile.badScr_of_beside h]

/-- Settles O15: XT.ENQ puts its command at the end of the engine's queue, or is discarded, stalls, or traps. -/
theorem enqueueCompletes : Obligations.EnqueueCompletes := by
  intro t c w s h T k a f word cmd
  have hexec : exec (.xtEnq t c) s = execXtEnq t c s := rfl
  have hbeside := s.fetched_beside t c 4 t
  rw [hexec, execXtEnq, atXt_of h]
  simp only [State.fetched_tile_core, State.fetched_tile_guarded, State.fetched_tile_eng, Tile.localBytes_of_beside hbeside, Tile.localBad_of_beside hbeside]
  refine ⟨fun ha hok hbad hroom => ?_, fun ha hok hhalt hfull => ?_, fun ha => if_pos ha, fun ha hok => ?_⟩
  · rw [if_neg (not_not.2 ha), if_neg (by rw [show localOk _ _ _ = true from hok]; decide),
      if_neg (by rcases hroom with hh | hq
                 · simp [show (s.tile t).eng.halt = true from hh]
                 · simp [show (s.tile t).eng.queue.length < 16 from hq]),
      show (s.tile t).localBad (((s.tile t).core c).getX (iRs1 w)).toNat 32 = none from hbad]
    have heng : (((s.fetched t c 4).tile t).meetLocal a 32).eng = T.eng := (Tile.eng_of_beside (Tile.meetLocal_beside _ a 32)).trans (s.fetched_tile_eng t c 4 t)
    refine goesTo_ok ⟨?_, ?_, ?_, fun n hn => ?_⟩
    · rw [State.modCore_tile_self, State.modTile_tile, if_pos rfl]
      refine Eq.trans (b := if (((s.fetched t c 4).tile t).meetLocal a 32).eng.halt then _ else _) rfl ?_
      rw [heng]
    · rw [State.modCore_core_self, Core.next_pc, State.core, State.modTile_tile, if_pos rfl]
      exact congrArg (fun k : Core => k.pc + 4) ((Tile.meetLocal_core ..).trans (s.fetched_tile_core t c 4 t c))
    · rw [State.modCore_core_self, Core.getX_next, Core.getX_setX_self]
      congr 1
      cases hh : (s.tile t).eng.halt
      · rfl
      · rfl
    · rw [State.modCore_tile_other _ _ _ _ hn, State.modTile_tile, if_neg hn, s.fetched_tile_other t c 4 hn]
  · rw [if_neg (not_not.2 ha), if_neg (by rw [show localOk _ _ _ = true from hok]; decide)]
    refine if_pos ?_
    rw [show (s.tile t).eng.halt = false from hhalt]
    exact decide_eq_true hfull
  · rw [if_neg (not_not.2 ha)]
    refine if_pos ?_
    rw [show localOk _ _ _ = false from hok]
    rfl

/-! ### Transfers, starts and loads of tiles (R173, R187 to R190, R202 to R206) -/

theorem exec_transferPacketIssue {s : State} {t c : Nat} {x : Transfer} (ht : t < 32768) (hruns : s.runs t = true) (hnext : (s.tile t).nextIssue = some (c, x)) :
    exec (.transferPacketIssue t) s = .next (let s' := s.modTile t fun T => { T with rotor := (c + 1) % 4 }
      if x.put then issuePut s' t c x else issueGet s' t c x) := by
  have hexec : exec (.transferPacketIssue t) s = execTransferPacketIssue t s := rfl
  rw [hexec, execTransferPacketIssue, onTile, if_pos ht, when_, if_pos hruns, hnext]
  rfl
theorem exec_loadEnd {s : State} {t st : Nat} (ht : t < 32768) (hends : (s.tile t).loadEnds = some st) : exec (.loadEnd t) s = .next (s.loadFinish t st) := by
  have hexec : exec (.loadEnd t) s = execLoadEnd t s := rfl
  rw [hexec, execLoadEnd, onTile, if_pos ht, hends]
  rfl

@[simp] theorem State.tell_tilePhys (s : State) (ep ctx t : Nat) : (s.tell ep ctx).tilePhys t = s.tilePhys t := State.tilePhys_congr (congrArg Hlt.smap (hlt_of_only (s.tell_only ep ctx) (by decide))) t

/-- Settles O18: transfers issue, launches start, loads begin and end. -/
theorem tileTrafficCompletes : Obligations.TileTrafficCompletes := by
  refine ⟨fun t c x s => exec_transferPacketIssue, fun i m s hm hpark hpart => ?_, fun i r s hr hpark hpart => ?_, fun t st s => exec_loadEnd⟩
  · have hexec : exec (.launchStart i) s = execLaunchStart i s := rfl
    have hpart' : ((s.modFab fun f => { f with starts := ldel f.starts i }).tileSt m.tile).part = some m.part := hpart
    have hphys : (s.modFab fun f => { f with starts := ldel f.starts i }).tilePhys m.tile = s.tilePhys m.tile := rfl
    rw [hexec, execLaunchStart, hm]
    dsimp only
    rw [if_neg (by rw [hpark]; decide)]
    generalize (s.modFab fun f => { f with starts := ldel f.starts i }) = d0 at hpart' hphys ⊢
    rw [if_neg (not_not.2 hpart'), hphys]
    rw [State.tell_tilePhys, hphys]
    intro hstale
    exact if_neg (Bool.eq_false_iff.1 hstale)
  · have hexec : exec (.loadTileStart i) s = execLoadTileStart i s := rfl
    have hpart' : ((s.modFab fun f => { f with loads := ldel f.loads i }).tileSt r.tile).part = some r.part := hpart
    have hphys : (s.modFab fun f => { f with loads := ldel f.loads i }).tilePhys r.tile = s.tilePhys r.tile := rfl
    have hsiteSt : (s.modFab fun f => { f with loads := ldel f.loads i }).tileSt r.tile = s.tileSt r.tile := rfl
    rw [hexec, execLoadTileStart, hr]
    dsimp only
    rw [if_neg (by rw [hpark]; decide), State.modFab_tile]
    generalize (s.modFab fun f => { f with loads := ldel f.loads i }) = d0 at hpart' hphys hsiteSt ⊢
    rw [if_neg (not_not.2 hpart'), hphys, hsiteSt]
    rw [State.tell_tilePhys, hphys]
    intro hstale hsite hst hcur hres
    rw [if_neg (Bool.eq_false_iff.1 hstale), if_neg (by rw [hsite]; decide), if_neg (by rw [hst]; decide), if_neg (by rw [hcur, hres]; decide)]
    rfl

end Sys2Proof.Machine
end

section
/-! PROOFS. Doorbells, vectors and the event ring, and the commands of contexts (R285, R291 to R301, R319 to R330; O31, O32, O35). -/

namespace Sys2Proof.Machine

open Sys2Proof.Safety (Blk Only GoesTo Managed RingsAt)

/-! ### What packets, loads and COPYs leave of the contexts

They change no more of a context than the progress and the endings of the descriptors that it has in flight. -/

/-- Each context beside what its descriptors in flight have come to, and how many they are. -/
def State.desks (s : State) : Nat → Ctx × Nat := fun c => ({ s.ctx c with inflight := [] }, (s.ctx c).inflight.length)
theorem State.ctx_of_desks {s u : State} (h : u.desks = s.desks) {α : Type} (π : Ctx → α) (hπ : ∀ x, π { x with inflight := [] } = π x) (c : Nat) : π (u.ctx c) = π (s.ctx c) := by
  rw [← hπ, ← hπ (s.ctx c)]
  exact congrArg (fun m => π (m c).1) h
theorem State.inflight_of_desks {s u : State} (h : u.desks = s.desks) {c : Nat} (hnil : (s.ctx c).inflight = []) : (u.ctx c).inflight = [] :=
  List.length_eq_zero_iff.1 ((congrArg (fun m => (m c).2) h).trans (by simp [State.desks, hnil]))
theorem State.besideEvents_desks : BesideEvents State.desks where
  sent _ _ := rfl
  pending _ _ _ := rfl
  ring _ _ := rfl
  log _ _ := rfl

section
variable (s : State)

@[simp] theorem State.modTile_desks (t : Nat) (f : Tile → Tile) : (s.modTile t f).desks = s.desks := Eq.symm rfl
@[simp] theorem State.modHost_desks (f : HostIf → HostIf) (h : (f s.host).ctxs = s.host.ctxs) : (s.modHost f).desks = s.desks := by
  funext c
  simp [State.desks, State.ctx, h]
@[simp] theorem State.modSite_desks (p : Nat) (f : Site → Site) : (s.modSite p f).desks = s.desks := Eq.symm rfl
@[simp] theorem State.modChan_desks (p : Nat) (f : Chan → Chan) : (s.modChan p f).desks = s.desks := Eq.symm rfl
@[simp] theorem State.modRick_desks (f : Rick → Rick) : (s.modRick f).desks = s.desks := Eq.symm rfl
@[simp] theorem State.modCnt_desks (p : Nat) (f : SiteCnt → SiteCnt) : (s.modCnt p f).desks = s.desks := Eq.symm rfl
@[simp] theorem State.spend_desks : s.spend.desks = s.desks := Eq.symm rfl
@[simp] theorem State.spendN_desks (n : Nat) : (s.spendN n).desks = s.desks := Eq.symm rfl
@[simp] theorem State.note_desks (x : FaultNote) : (s.note x).desks = s.desks := Eq.symm rfl
@[simp] theorem State.stopCtx_desks (c : Nat) : (s.stopCtx c).desks = s.desks := Eq.symm rfl
@[simp] theorem State.forget_desks (c : Nat) : (s.forget c).desks = s.desks := Eq.symm rfl
@[simp] theorem State.wild_desks (t : Nat) : (s.wild t).desks = s.desks := Eq.symm rfl
@[simp] theorem State.addFlight_desks (f : Flight) : (s.addFlight f).desks = s.desks := Eq.symm rfl
@[simp] theorem State.respond_desks (f : Flight) (at_ : Place) (opc : Opc) (status : Nat) (payload : List Byte) : (s.respond f at_ opc status payload).desks = s.desks := Eq.symm rfl
@[simp] theorem State.partDropAt_desks (p : Nat) : (s.partDropAt p).desks = s.desks := Eq.symm rfl
@[simp] theorem State.tileSeq_desks (t c : Nat) : (s.tileSeq t c).2.desks = s.desks := Eq.symm rfl
@[simp] theorem State.edgeSeq_desks (pe c : Nat) : (s.edgeSeq pe c).2.desks = s.desks := Eq.symm rfl
@[simp] theorem State.issueRead_desks (port addr len : Nat) (for_ : HostFor) : (s.issueRead port addr len for_).desks = s.desks := Eq.symm rfl
@[simp] theorem State.setEtrks_desks (pe : Nat) (l : List ETrk) : (s.setEtrks pe l).desks = s.desks := by
  by_cases hpe : pe = 0 <;> simp [State.setEtrks, hpe]
@[simp] theorem State.edgeReuse_desks (pe : Nat) : (s.edgeReuse pe).desks = s.desks := by simp [State.edgeReuse]
@[simp] theorem desks_ite (c : Prop) [Decidable c] (a b : State) : (if c then a else b).desks = if c then a.desks else b.desks := apply_ite ..
@[simp] theorem desks_foldl {α : Type} (g : State → α → State) (h : ∀ s a, (g s a).desks = s.desks) (l : List α) (s : State) : (l.foldl g s).desks = s.desks := BesideEvents.foldl h l s
@[simp] theorem State.raise_desks (x : Ev) : (s.raise x).desks = s.desks := State.besideEvents_desks.raise s x
@[simp] theorem State.raisePanel_desks (code d0 d1 : Nat) : (s.raisePanel code d0 d1).desks = s.desks := s.raise_desks _
@[simp] theorem State.raiseSite_desks (code p d0 d1 : Nat) : (s.raiseSite code p d0 d1).desks = s.desks := s.raise_desks _
@[simp] theorem State.raiseCtx_desks (code c d0 d1 : Nat) : (s.raiseCtx code c d0 d1).desks = s.desks := s.raise_desks _

theorem length_modInfl (f : InFl → InFl) (n : W32) (l : List InFl) : (modInfl f n l).length = l.length := by
  induction l with
  | nil => rfl
  | cons x l ih =>
    rw [modInfl]
    split
    · rfl
    · exact congrArg (· + 1) ih
@[simp] theorem State.modDesc_desks (c : Nat) (n : W32) (f : InFl → InFl) : (s.modDesc c n f).desks = s.desks := by
  funext d
  simp only [State.desks, State.modDesc, State.modCtx_ctx]
  split
  · next h => subst h; simp [length_modInfl]
  · rfl
@[simp] theorem State.endDesc_desks (c : Nat) (n : W32) (x : Ending) : (s.endDesc c n x).desks = s.desks := by
  unfold State.endDesc
  split <;> simp

@[simp] theorem State.dropAt_desks (p : Nat) : (s.dropAt p).desks = s.desks := by simp [State.dropAt]
@[simp] theorem State.noRouteAt_desks (p : Nat) (dest : W64) : (s.noRouteAt p dest).desks = s.desks := by simp [State.noRouteAt]
@[simp] theorem State.inject_desks (at_ : Place) (own : Option Nat) (site : Nat) (pkt : Packet) : (s.inject at_ own site pkt).desks = s.desks := by
  unfold State.inject
  split <;> simp
@[simp] theorem State.tileRead_desks (t k core : Nat) (x : Trk) (a : W64) : (s.tileRead t k core x a).desks = s.desks := by simp [State.tileRead]
@[simp] theorem State.loaderAsk_desks (t fuel : Nat) : (s.loaderAsk t fuel).desks = s.desks := by
  induction fuel generalizing s with
  | zero => rfl
  | succ fuel ih =>
    cases hcur : (s.tile t).ld.cur with
    | none => simp [State.loaderAsk, hcur]
    | some r =>
      cases hfree : (s.tile t).freeTrk with
      | none => simp [State.loaderAsk, hcur, hfree]
      | some k => simp [State.loaderAsk, hcur, hfree, ih]
@[simp] theorem State.loadersGo_desks : s.loadersGo.desks = s.desks := by simp [State.loadersGo]
@[simp] theorem State.edgeRead_desks (pe c : Nat) (a : W64) (len : Nat) (for_ : EdgeFor) : (s.edgeRead pe c a len for_).desks = s.desks := by simp [State.edgeRead]
@[simp] theorem State.copyAsk_desks (pe c : Nat) (n : W32) (d : Desc) (fuel : Nat) : (s.copyAsk pe c n d fuel).desks = s.desks := by
  induction fuel generalizing s with
  | zero => rfl
  | succ fuel ih =>
    unfold State.copyAsk
    split
    · split
      · dsimp only
        split <;> simp [ih]
      · rfl
    · rfl
@[simp] theorem State.copiesAsk_desks (pe : Nat) : (s.copiesAsk pe).desks = s.desks := by
  refine desks_foldl _ (fun s x => ?_) _ _
  split
  · refine desks_foldl _ (fun s x => ?_) _ _
    split <;> simp
  · rfl
@[simp] theorem State.copiesGo_desks : s.copiesGo.desks = s.desks := by simp [State.copiesGo]
@[simp] theorem State.quiet_desks (c : Nat) : (s.quiet c).desks = s.desks := by simp [State.quiet]
@[simp] theorem State.wildDdr_desks (r : Region) (n : Nat) : (s.wildDdr r n).desks = s.desks := by simp [State.wildDdr]
@[simp] theorem State.wildPart_desks (q : Nat) : (s.wildPart q).desks = s.desks := by simp [State.wildPart]
end

/-! ### Completion records (R318) -/

/-- What a completion record leaves of every context: all but the times and counts of its completions. -/
theorem State.complete_ctx {α : Type} (π : Ctx → α) (hw : ∀ x v, π { x with wdogAt := v } = π x) (ht : ∀ x v, π { x with cqTail := v } = π x) (hi : ∀ x v, π { x with irqSent := v } = π x)
    (s : State) (c : Nat) (n : W32) (tag : Nat) (irq : Bool) (e : Ending) (d : Nat) : π ((s.complete c n tag irq e).ctx d) = π (s.ctx d) := by
  have hev : BesideEvents fun u : State => π (u.ctx d) := ⟨fun _ _ => rfl, fun _ _ _ => rfl, fun _ _ => rfl, fun _ _ => rfl⟩
  have hmod (u : State) (f : Ctx → Ctx) (hf : ∀ x, π (f x) = π x) : π ((u.modCtx c f).ctx d) = π (u.ctx d) := by
    rw [State.modCtx_ctx]
    split
    · next h => rw [hf, h]
    · rfl
  have hset : π ((s.setCtx c { s.ctx c with wdogAt := s.time }).ctx d) = π (s.ctx d) := hmod s (fun x => { x with wdogAt := s.time }) fun x => hw x _
  have hend (u : State) (port a b : Nat) (l m : List Byte) :
      π ((((u.hostWrite port a l false).hostWrite port b m false).modCtx c fun x => { x with cqTail := x.cqTail + 1 }).ctx d) = π (u.ctx d) := by
    rw [hmod _ (fun x => { x with cqTail := x.cqTail + 1 }) fun x => ht x _]
    exact (hev.hostWrite ..).trans (hev.hostWrite ..)
  unfold State.complete
  dsimp only
  split
  · exact hset
  · split
    · exact (hev.sendMsix ..).trans ((hmod _ (fun x => { x with irqSent := true }) fun x => hi x _).trans ((hend ..).trans hset))
    · exact (hend ..).trans hset
theorem State.faultRecords_ctx {α : Type} (π : Ctx → α) (hw : ∀ x v, π { x with wdogAt := v } = π x) (ht : ∀ x v, π { x with cqTail := v } = π x) (hi : ∀ x v, π { x with irqSent := v } = π x)
    (s : State) (c : Nat) (n : Option W32) (e : Ending) (d : Nat) : π ((s.faultRecords c n e).ctx d) = π (s.ctx d) := by
  have hfold (l : List InFl) (u : State) : π ((l.foldl (fun s y => s.complete c y.d.n y.d.tag y.d.irq (errEnding 0x01 0 0 0 none)) u).ctx d) = π (u.ctx d) :=
    BesideEvents.foldl (π := fun u : State => π (u.ctx d)) (fun u y => State.complete_ctx π hw ht hi u ..) l u
  unfold State.faultRecords
  dsimp only
  rw [hfold]
  split
  · rfl
  · split
    · exact State.complete_ctx π hw ht hi ..
    · exact State.complete_ctx π hw ht hi ..

/-! ### Doorbells (R291, R294, R300, R301, R304, R305) -/

theorem doorbell_of_ringsAt {s : State} {p c : Nat} (h : RingsAt s p c) (k : Ctx → Out) : doorbell s p c k = k (s.ctx c) := by
  obtain ⟨hreach, hc, hfree, hport⟩ := h
  exact doorbell_of_taken hreach hc (not_or.2 ⟨hfree, not_not.2 hport⟩) k

/-- Settles O31: SQ_TAIL and CQ_HEAD by the state of their context and the counts that they write. -/
theorem doorbellsComplete : Obligations.DoorbellsComplete := by
  have hsq (p c : Nat) (v : W32) (s : State) : exec (.sqTail p c v) s = execSqTail p c v s := rfl
  have hcq (p c : Nat) (v : W32) (s : State) : exec (.cqHead p c v) s = execCqHead p c v s := rfl
  have hawake {s : State} {c : Nat} (hst : (s.ctx c).st = .ready ∨ (s.ctx c).st = .active) : ¬((s.ctx c).st = .halted ∨ (s.ctx c).st = .resetting) := by
    rcases hst with h | h <;> rw [h] <;> decide
  refine ⟨fun p c v s h hv => ?_, fun p c v s h hv hst hroom hasked => ?_, fun p c v s h hst => ?_, fun p c v s h hv hst hbad => ?_, fun p c v s h hle => ?_, fun p c v s h hgt => ?_,
    fun p c v s hreach hc hdrop => ⟨?_, ?_⟩⟩
  · rw [hsq, execSqTail, doorbell_of_ringsAt h]
    exact if_pos hv
  · rw [hsq, execSqTail, doorbell_of_ringsAt h, if_neg hv, if_neg (hawake hst), if_neg (by omega)]
    rfl
  · rw [hsq, execSqTail, doorbell_of_ringsAt h, if_pos hst]
    split
    · next hv => exact goesTo_ok ⟨by rw [hv], fun _ _ => rfl, rfl⟩
    · exact goesTo_ok ⟨by rw [State.modCtx_ctx, if_pos rfl], fun d hd => by rw [State.modCtx_ctx, if_neg hd], rfl⟩
  · rw [hsq, execSqTail, doorbell_of_ringsAt h, if_neg hv, if_neg (hawake hst), if_pos hbad]
    rfl
  · rw [hcq, execCqHead, doorbell_of_ringsAt h]
    dsimp only
    rw [if_neg (not_lt.2 hle)]
    exact goesTo_ok ⟨by rw [State.modCtx_ctx, if_pos rfl], fun d hd => by rw [State.modCtx_ctx, if_neg hd], rfl⟩
  · rw [hcq, execCqHead, doorbell_of_ringsAt h]
    dsimp only
    rw [if_pos hgt]
    rfl
  · rw [hsq, execSqTail, doorbell_of_dropsBell hreach hc hdrop]
    rfl
  · rw [hcq, execCqHead, doorbell_of_dropsBell hreach hc hdrop]
    rfl

/-! ### Vectors and the event ring (R285, R292, R327, R330) -/

theorem msixUnmask_goesTo {p vec : Nat} (v : W32) {s : State} (hp : p < 4) (hreach : s.reach p = true) (hvec : vec < 2048) :
    let e := tget {} (s.port p).msix vec
    let sends := e.pend = true ∧ bitOf v 0 = false ∧ (s.port p).fmask = false ∧ (s.port p).mute = false
    GoesTo (exec (.msixUnmask p vec v) s) fun u => (∀ k, k ≠ vec → tget {} (u.port p).msix k = tget {} (s.port p).msix k) ∧
      (tget {} (u.port p).msix vec).mask = bitOf v 0 ∧ ((tget {} (u.port p).msix vec).pend = true ↔ e.pend = true ∧ ¬ sends) ∧
      (sends → u.host.out = s.host.out ++ [.msix p (e.addrHi.toNat * 2 ^ 32 + e.addrLo.toNat) e.data (s.port p).ecrcGen]) ∧ (¬ sends → u.host.out = s.host.out) ∧ Only [.host] s u := by
  intro e sends
  have hexec : exec (.msixUnmask p vec v) s = execMsixUnmask p vec v s := rfl
  rw [hexec, execMsixUnmask, onPort, if_pos hp, when_, if_pos (by simp [hreach, hvec])]
  dsimp only
  have hsends : (e.pend && !bitOf v 0 && !(s.port p).fmask && !(s.port p).mute) = true ↔ sends := by simp [sends, and_assoc]
  have he : tget {} (s.port p).msix vec = e := rfl
  rw [he]
  clear_value e sends
  have hport (d : Bool) : ((s.modPort p fun x => { x with msix := tput {} x.msix vec { e with mask := bitOf v 0, pend := d } }).port p).msix = tput {} (s.port p).msix vec { e with mask := bitOf v 0, pend := d } := by
    rw [State.modPort_port, if_pos rfl]
  have hother (d : Bool) {k : Nat} (hk : k ≠ vec) : tget {} (tput {} (s.port p).msix vec { e with mask := bitOf v 0, pend := d }) k = tget ({} : MsixEnt) (s.port p).msix k :=
    (tget_tput ..).trans (if_neg hk)
  have hself (d : Bool) : tget {} (tput {} (s.port p).msix vec { e with mask := bitOf v 0, pend := d }) vec = { e with mask := bitOf v 0, pend := d } := (tget_tput ..).trans (if_pos rfl)
  by_cases hs : sends
  · rw [if_pos (hsends.2 hs), hsends.2 hs]
    refine goesTo_ok ⟨fun k hk => ?_, ?_, ?_, fun _ => rfl, fun hn => absurd hs hn, rfl⟩
    · exact (congrArg (tget {} · k) (hport _)).trans (hother _ hk)
    · exact congrArg MsixEnt.mask ((congrArg (tget {} · vec) (hport _)).trans (hself _))
    · refine (Iff.of_eq (congrArg (· = true) (congrArg MsixEnt.pend ((congrArg (tget {} · vec) (hport _)).trans (hself _))))).trans ?_
      simp [hs]
  · have hns : (e.pend && !bitOf v 0 && !(s.port p).fmask && !(s.port p).mute) = false := Bool.eq_false_iff.2 fun h => hs (hsends.1 h)
    rw [if_neg (fun h => hs (hsends.1 h)), hns]
    refine goesTo_ok ⟨fun k hk => ?_, ?_, ?_, fun h => absurd h hs, fun _ => rfl, rfl⟩
    · exact (congrArg (tget {} · k) (hport _)).trans (hother _ hk)
    · exact congrArg MsixEnt.mask ((congrArg (tget {} · vec) (hport _)).trans (hself _))
    · refine (Iff.of_eq (congrArg (· = true) (congrArg MsixEnt.pend ((congrArg (tget {} · vec) (hport _)).trans (hself _))))).trans ?_
      simp [hs]

/-- Settles O32: a vector's mask, and the registers of the event ring. -/
theorem vectorsAndEventRingComplete : Obligations.VectorsAndEventRingComplete := by
  refine ⟨fun p vec v s => msixUnmask_goesTo v, fun p v s hreach => ?_, fun v s h hen hoff => ?_⟩
  · have hexec : exec (.evtHead p v) s = execEvtHead p v s := rfl
    rw [hexec, execEvtHead, when_, if_pos hreach]
    exact goesTo_ok ⟨rfl, fun _ => rfl, fun _ => rfl, rfl⟩
  · have hexec : exec (.evtCfg 0 v) s = execEvtCfg 0 v s := rfl
    rw [hexec, execEvtCfg, gated0_of_managed h]
    refine goesTo_ok ⟨?_, fun _ => rfl, rfl⟩
    rw [State.modHost_host]
    exact (if_pos ⟨hen, hoff⟩).trans (by rw [hen])

/-! ### Commands of contexts (R294 to R298) -/

theorem gated_of_managed {s : State} {p : Nat} (h : Managed s p) (off : Nat) (k : Out) : gated s p off k = k := by
  obtain ⟨hreach, hsession⟩ := h
  rw [gated, hreach, hsession]
  rfl
theorem State.ctxCmd_port (s : State) (p e : Nat) : (s.ctxCmd p e).port p = { s.port p with err := e != 0, ecode := e } := by
  rw [State.ctxCmd, State.modPort_port, if_pos rfl]

theorem ctxSel_goesTo {p : Nat} (v : W32) {s : State} (h : Managed s p) : GoesTo (exec (.ctxSel p v) s) fun u =>
    (u.port p).ctxSel = bitsOf v 11 0 ∧ (u.port p).stage = (s.ctx (bitsOf v 11 0)).cfg ∧ (∀ q, q ≠ p → u.port q = s.port q) ∧ (∀ c, u.ctx c = s.ctx c) ∧ Only [.host] s u := by
  have hexec : exec (.ctxSel p v) s = execCtxSel p v s := rfl
  rw [hexec, execCtxSel, gated_of_managed h]
  refine goesTo_ok ⟨?_, ?_, fun q hq => ?_, fun _ => rfl, rfl⟩
  · rw [State.modPort_port, if_pos rfl]
  · rw [State.modPort_port, if_pos rfl]
  · rw [State.modPort_port, if_neg hq]
theorem configure_goesTo {p : Nat} {s : State} (h : Managed s p) (hcode : s.configureCode (s.port p).ctxSel (s.port p).stage = 0) : GoesTo (exec (.configure p) s) fun u =>
    u.ctx (s.port p).ctxSel = { st := .ready, epoch := (s.ctx (s.port p).ctxSel).epoch, cfg := (s.port p).stage } ∧ (∀ c, c ≠ (s.port p).ctxSel → u.ctx c = s.ctx c) ∧
    (u.port p).err = false ∧ (u.port p).ecode = 0 ∧ Only [.host] s u := by
  have hexec : exec (.configure p) s = execConfigure p s := rfl
  rw [hexec, execConfigure, gated_of_managed h]
  dsimp only
  rw [if_pos hcode]
  refine goesTo_ok ⟨?_, fun c hc => ?_, ?_, ?_, rfl⟩
  · rw [State.ctxCmd, State.modPort_ctx, State.modCtx_ctx, if_pos rfl]
    rfl
  · rw [State.ctxCmd, State.modPort_ctx, State.modCtx_ctx, if_neg hc]
  · rw [State.ctxCmd_port]
    rfl
  · rw [State.ctxCmd_port]
theorem configure_refused {p : Nat} {s : State} (h : Managed s p) (hcode : s.configureCode (s.port p).ctxSel (s.port p).stage ≠ 0) : GoesTo (exec (.configure p) s) fun u =>
    (∀ c, u.ctx c = s.ctx c) ∧ (u.port p).err = true ∧ (u.port p).ecode = s.configureCode (s.port p).ctxSel (s.port p).stage ∧ Only [.host] s u := by
  have hexec : exec (.configure p) s = execConfigure p s := rfl
  rw [hexec, execConfigure, gated_of_managed h]
  dsimp only
  rw [if_neg hcode]
  refine goesTo_ok ⟨fun _ => rfl, ?_, ?_, rfl⟩
  · rw [State.ctxCmd_port]
    exact bne_iff_ne.2 hcode
  · rw [State.ctxCmd_port]
theorem restartDone_goesTo {c : Nat} {s : State} (hc : c < 3072) (hst : (s.ctx c).st = .resetting) (hwarm : (s.ctx c).byWarm = false) (hsv : s.svRuns = true) :
    GoesTo (exec (.restartDone c) s) fun u => (u.ctx c).st = .ready ∧ (u.ctx c).epoch = (if (s.ctx c).epochDue then ((s.ctx c).epoch + 1) % 16 else (s.ctx c).epoch) ∧
      (u.ctx c).sqHead = 0 ∧ (u.ctx c).sqTail = 0 ∧ (u.ctx c).cqTail = 0 ∧ (u.ctx c).cqHead = 0 ∧ (u.ctx c).cfg = (s.ctx c).cfg ∧ (∀ d, d ≠ c → u.ctx d = s.ctx d) ∧ u.tiles = s.tiles := by
  have hexec : exec (.restartDone c) s = execRestartDone c s := rfl
  have hself (f : Ctx → Ctx) (code d0 d1 : Nat) : ((s.modCtx c f).raiseCtx code c d0 d1).ctx c = f (s.ctx c) := by
    rw [State.raiseCtx, State.raise_ctx, State.modCtx_ctx, if_pos rfl]
  rw [hexec, execRestartDone, onCtx, if_pos hc, when_, if_pos (by simp [hst, hwarm, hsv]), State.restartDone]
  refine goesTo_ok ⟨?_, ?_, ?_, ?_, ?_, ?_, ?_, fun d hd => ?_, State.raise_tiles ..⟩
  case refine_8 => rw [State.raiseCtx, State.raise_ctx, State.modCtx_ctx, if_neg hd]
  all_goals rw [hself]

/-! ### Faults of a context (R319 to R321) -/

/-- What the end of a fault leaves of its context: all but its descriptors in flight and the counts of its completions. -/
theorem State.faultEnds_ctx {α : Type} (π : Ctx → α) (hw : ∀ x v, π { x with wdogAt := v } = π x) (ht : ∀ x v, π { x with cqTail := v } = π x) (hi : ∀ x v, π { x with irqSent := v } = π x)
    (hl : ∀ x v, π { x with inflight := v } = π x) (s : State) (c : Nat) (n : Option W32) (e : Ending) (code d0 d1 : Nat) :
    π ((((((s.quiet c).faultRecords c n e).modCtx c fun x => { x with inflight := [] }).copiesGo).raiseCtx code c d0 d1).ctx c) = π (s.ctx c) := by
  rw [State.raiseCtx, State.raise_ctx, State.ctx_of_desks (State.copiesGo_desks _) π (fun x => hl x []), State.modCtx_ctx, if_pos rfl, hl, State.faultRecords_ctx π hw ht hi]
  exact State.ctx_of_desks (State.quiet_desks ..) π (fun x => hl x []) _

theorem contextFault_goesTo {i : Nat} {f : FaultNote} {s : State} (hf : lget? s.host.faults i = some f) (hfirst : ∀ g ∈ s.host.faults.take i, g.ctx ≠ f.ctx)
    (hst : (s.ctx f.ctx).st = .ready ∨ (s.ctx f.ctx).st = .active) : GoesTo (exec (.contextFault i) s) fun u => (u.ctx f.ctx).st = .halted ∧ (u.ctx f.ctx).cause = f.cause ∧
      (u.ctx f.ctx).epoch = (s.ctx f.ctx).epoch ∧ (u.ctx f.ctx).inflight = [] ∧ (u.ctx f.ctx).ready = [] := by
  have hexec : exec (.contextFault i) s = execContextFault i s := rfl
  rw [hexec, execContextFault, hf]
  dsimp only
  have hawake : ((s.ctx f.ctx).st == .ready || (s.ctx f.ctx).st == .active) = true := by simpa using hst
  rw [if_neg (by simpa using hfirst), when_]
  refine goesTo_of_eq (if_pos hawake) ?_
  refine ⟨?_, ?_, ?_, ?_, ?_⟩
  case refine_4 =>
    rw [State.raiseCtx, State.raise_ctx]
    refine State.inflight_of_desks (State.copiesGo_desks _) ?_
    rw [State.modCtx_ctx, if_pos rfl]
  all_goals refine (State.faultEnds_ctx _ (fun _ _ => rfl) (fun _ _ => rfl) (fun _ _ => rfl) (fun _ _ => rfl) ..).trans ?_
  all_goals rw [State.modCtx_ctx, if_pos rfl]
  rfl

/-- Settles O35: the commands, restarts, faults and the watchdog of contexts. -/
theorem contextsComplete : Obligations.ContextsComplete := by
  have hrel (p : Nat) (s : State) : exec (.release p) s = execRelease p s := rfl
  have hhalt (p : Nat) (s : State) : exec (.halt p) s = execHalt p s := rfl
  have hrestart (p c : Nat) (b : Bool) (s : State) : exec (.restart p c b) s = execRestart p c b s := rfl
  refine ⟨fun p v s => ctxSel_goesTo v, fun p s => configure_goesTo, fun p s => configure_refused, fun p s h hst => ?_, fun p s h hready hhalted => ?_, fun p s h hready hactive => ?_,
    fun p c s hreach hready hactive hhalted => ?_, fun p c s h hst => ?_, fun p c s hreach hst => ?_, fun c s => restartDone_goesTo, fun p s h hst => ?_, fun i f s => contextFault_goesTo,
    fun c x l s hc hl hst hw hdue => ?_⟩
  · rw [hrel, execRelease, gated_of_managed h]
    exact if_pos hst
  · rw [hrel, execRelease, gated_of_managed h]
    exact if_neg (not_or.2 ⟨hready, hhalted⟩)
  · rw [hhalt, execHalt, gated_of_managed h]
    exact if_neg (not_or.2 ⟨hready, hactive⟩)
  · rw [hrestart, execRestart]
    simp [hreach, hready, hactive, hhalted]
    rfl
  · rw [hrestart, execRestart, if_pos rfl, doorbell_of_ringsAt h, when_, if_pos (by simpa [or_assoc] using hst)]
    rfl
  · rw [hrestart, execRestart]
    dsimp only
    rw [if_neg (by decide), if_neg (by rw [hreach]; decide), if_pos (by simpa [or_assoc] using hst)]
    rfl
  · rw [hhalt, execHalt, gated_of_managed h]
    exact if_pos hst
  · have hexec : exec (.stepWatchdog c) s = execStepWatchdog c s := rfl
    rw [hexec, execStepWatchdog, onCtx, if_pos hc, hl]
    dsimp only
    rw [when_, if_pos (by simp [hst, hw, hdue])]
    rfl

end Sys2Proof.Machine
end

section
/-! PROOFS. Partitions (R331 to R337, R389; O36). -/

namespace Sys2Proof.Machine

open Sys2Proof.Safety (Blk Only GoesTo Served)

/-! ### PRT_CTL (R333) -/

theorem prtGate_of_served {s : State} {p : Nat} (hp : p < 16) (h : Served s) (code : Part → Nat) (k : State → Out) :
    prtGate s 0 p code k = if code (s.partn p) = 0 then k (s.prtCmd p 0) else ok (s.prtCmd p (code (s.partn p))) := by
  obtain ⟨hm, hsv⟩ := h
  rw [prtGate, onPart, if_pos hp, gated0_of_managed hm, when_, if_pos hsv]
theorem State.prtCmd_partn (s : State) (p e q : Nat) : (s.prtCmd p e).partn q = if q = p then { s.partn p with err := e != 0, ecode := e } else s.partn q := s.modPart_partn p q _
theorem State.prtCmd_only (s : State) (p e : Nat) : Only [.parts] s (s.prtCmd p e) := rfl

/-- A command whose check fails has no effect but ERR and its ECODE (R333). -/
theorem prtGate_refused {s : State} {p : Nat} (hp : p < 16) (h : Served s) {code : Part → Nat} (hcode : code (s.partn p) ≠ 0) (k : State → Out) :
    GoesTo (prtGate s 0 p code k) fun u => u.partn p = { s.partn p with err := true, ecode := code (s.partn p) } ∧ (∀ q, q ≠ p → u.partn q = s.partn q) ∧ Only [.parts] s u := by
  rw [prtGate_of_served hp h, if_neg hcode]
  refine goesTo_ok ⟨?_, fun q hq => ?_, s.prtCmd_only p _⟩
  · rw [State.prtCmd_partn, if_pos rfl, bne_iff_ne.2 hcode]
  · rw [State.prtCmd_partn, if_neg hq]

/-! ### What resets and their ends leave of the partitions -/

theorem State.tagClear_partn {α : Type} (π : Part → α) (hπ : ∀ x t, π { x with tag := 0, occAt := t } = π x) (s : State) (p q : Nat) : π ((s.tagClear p).partn q) = π (s.partn q) := by
  have hsites : Only [.sites] s ((s.partSites p).foldl (fun s i => s.modSite i fun x => { x with ctl := { x.ctl with sampSum := 0, sampN := 0 } }) s) := only_of_outside (by intros; simp)
  rw [State.tagClear, State.modPart_partn]
  split
  · next h => rw [hπ, partn_of_only hsites (by decide), h]
  · rw [partn_of_only hsites (by decide)]
/-- A warm reset of a partition makes it RESETTING and notes the sites that it waits for (R334, R389). -/
theorem State.warmReset_partn {α : Type} (π : Part → α) (hπ : ∀ x t, π { x with tag := 0, occAt := t } = π x) (s : State) (p : Nat) :
    π ((s.warmReset p).partn p) = π { s.partn p with st := .resetting, warming := s.warmSites p } := by
  rw [State.warmReset]
  dsimp only
  rw [State.tagClear_partn π hπ]
  rw [partn_of_only (s := s.modPart p fun q => { q with st := .resetting, warming := s.warmSites p }) (bs := [.freeN, .tiles, .sites, .fab, .host, .rick, .spi]) (only_of_outside (by intros; simp)) (by decide),
    State.modPart_partn, if_pos rfl]
theorem State.promise_partn (s : State) (p : Nat) : s.promise.partn p = s.partn p := partn_of_only s.promise_only (by decide) p

theorem define_goesTo {p : Nat} {s : State} (hp : p < 16) (h : Served s) (hcode : s.defineCode p (s.partn p) = 0) : GoesTo (exec (.define 0 p) s) fun u =>
    (u.partn p).st = .resetting ∧ (u.partn p).cur = (s.partn p).stage ∧ (u.partn p).err = false ∧ (u.partn p).ecode = 0 ∧ (u.partn p).gstaged = (s.partn p).stage.guarded := by
  have hexec : exec (.define 0 p) s = execDefine 0 p s := rfl
  rw [hexec, execDefine, prtGate_of_served hp h, if_pos hcode]
  have hstage : ((s.prtCmd p 0).partn p).stage = (s.partn p).stage := by rw [State.prtCmd_partn, if_pos rfl]
  dsimp only
  rw [hstage]
  generalize hs1 : ((s.prtCmd p 0).profClear p).modPart p _ = s1
  have hpart1 : s1.partn p = { s.partn p with err := false, ecode := 0, cur := (s.partn p).stage, gstaged := (s.partn p).stage.guarded, deleting := false } := by
    rw [← hs1, State.modPart_partn, if_pos rfl, partn_of_only (s := s.prtCmd p 0) (bs := [.cap]) (only_of_outside (by intros; simp)) (by decide), State.prtCmd_partn, if_pos rfl]
    rfl
  generalize hs2 : List.foldl _ s1 _ = s2
  have hpart2 : s2.partn p = s1.partn p := by
    rw [← hs2]
    exact partn_of_only (bs := [.sites, .clk]) (only_of_outside (by intros; simp)) (by decide) p
  have hends {α : Type} (π : Part → α) (hπ : ∀ x t, π { x with tag := 0, occAt := t } = π x) (hw : ∀ (x : Part) w, π { x with st := .resetting, warming := w } = π { x with st := .resetting })
      (hh : ∀ (x : Part) l, π { x with st := .resetting, home := l } = π { x with st := .resetting }) :
      π ((((s2.modPart p fun q => { q with home := s2.homeTable p }).warmReset p).promise).partn p) = π { s1.partn p with st := .resetting } := by
    rw [State.promise_partn, State.warmReset_partn π hπ, State.modPart_partn, if_pos rfl, hw, hpart2]
    exact hh (s1.partn p) (s2.homeTable p)
  refine goesTo_ok ⟨?_, ?_, ?_, ?_, ?_⟩
  · exact hends Part.st (fun _ _ => rfl) (fun _ _ => rfl) (fun _ _ => rfl)
  · exact (hends Part.cur (fun _ _ => rfl) (fun _ _ => rfl) (fun _ _ => rfl)).trans (by rw [hpart1])
  · exact (hends Part.err (fun _ _ => rfl) (fun _ _ => rfl) (fun _ _ => rfl)).trans (by rw [hpart1])
  · exact (hends Part.ecode (fun _ _ => rfl) (fun _ _ => rfl) (fun _ _ => rfl)).trans (by rw [hpart1])
  · exact (hends Part.gstaged (fun _ _ => rfl) (fun _ _ => rfl) (fun _ _ => rfl)).trans (by rw [hpart1])

theorem prtUpdate_goesTo {p : Nat} {s : State} (hp : p < 16) (h : Served s) (hcode : s.changeCode p (s.partn p) = 0) : GoesTo (exec (.prtUpdate 0 p) s) fun u =>
    u.partn p = { s.partn p with
      err := false, ecode := 0, gstaged := (s.partn p).stage.guarded
      cur := { (s.partn p).cur with rto := (s.partn p).stage.rto, rickbar := (s.partn p).stage.rickbar, mask := (s.partn p).stage.mask } } ∧
    (∀ q, q ≠ p → u.partn q = s.partn q) ∧ Only [.parts] s u := by
  have hexec : exec (.prtUpdate 0 p) s = execPrtUpdate 0 p s := rfl
  rw [hexec, execPrtUpdate, prtGate_of_served hp h, if_pos hcode]
  refine goesTo_ok ⟨?_, fun q hq => ?_, rfl⟩
  · rw [State.modPart_partn, if_pos rfl, State.prtCmd_partn, if_pos rfl]
    rfl
  · rw [State.modPart_partn, if_neg hq, State.prtCmd_partn, if_neg hq]

theorem warmResetDone_goesTo {p : Nat} (found suspects : List BadUnit) {s : State} (hp : p < 16) (hst : (s.partn p).st = .resetting) (hdel : (s.partn p).deleting = false) (hsv : s.svRuns = true)
    (hrails : s.warmRails p = true) : GoesTo (exec (.warmResetDone p found suspects) s) fun u => (u.partn p).st = .defined ∧ (u.partn p).cur.guarded = (s.partn p).gstaged := by
  have hexec : exec (.warmResetDone p found suspects) s = execWarmResetDone p found suspects s := rfl
  rw [hexec, execWarmResetDone, onPart, if_pos hp, when_, if_pos (by simp [hst, hdel, hsv, hrails])]
  dsimp only
  generalize hs1 : State.findings _ _ _ _ _ _ = s1
  have hg : (s1.partn p).gstaged = (s.partn p).gstaged := by
    rw [← hs1, partn_of_only (s := s) (bs := [.tiles, .sites, .fab, .clk, .host, .spi, .hlt]) (only_of_outside (by intros; simp)) (by decide)]
  generalize hs2 : (s1.modPart p _) = s2
  have hpart : (s2.partn p).st = .defined ∧ (s2.partn p).cur.guarded = (s.partn p).gstaged := by
    rw [← hs2, State.modPart_partn, if_pos rfl]
    exact ⟨rfl, hg⟩
  have hrest : Only [.host, .spi] s2 (s2.host.ctxs.foldl (fun s e => if e.2.st == .resetting && e.2.byWarm && e.2.cfg.part == p then s.restartDone e.1 else s) s2) := only_of_outside (by intros; simp)
  refine goesTo_ok ?_
  rw [State.promise_partn, partn_of_only hrest (by decide)]
  exact hpart

/-! ### The end of a DELETE (R337) -/

/-- What a step of a DELETE's end does to the sites: the site that it names belongs to no partition, and no site joins one. -/
def State.leaves (s : State) (i : Nat) : State := ((s.invalidateSlice i).modSite i fun x => { x with part := none, clk := { x.clk with paceLim := 15 } }).relimit i
theorem State.leaves_part (s : State) (i j : Nat) : ((s.leaves i).site j).part = if j = i then none else (s.site j).part := by
  rw [State.leaves, State.relimit_field (fun x => x.part) (fun _ _ _ _ => rfl), State.modSite_site]
  split
  · rfl
  · next h => rw [State.invalidateSlice, State.modSite_site, if_neg h]
theorem State.leaves_foldl_part (l : List Nat) (s : State) (j : Nat) : ((l.foldl State.leaves s).site j).part = if j ∈ l then none else (s.site j).part := by
  induction l generalizing s with
  | nil => simp
  | cons i l ih =>
    rw [List.foldl_cons, ih, State.leaves_part]
    by_cases hj : j = i <;> simp [hj]
theorem State.leaves_foldl_only (l : List Nat) (s : State) : Only [.sites, .clk] s (l.foldl State.leaves s) := only_of_outside (by intros; simp [State.leaves])

theorem deleteDone_goesTo {p : Nat} {s : State} (hp : p < 16) (hst : (s.partn p).st = .resetting) (hdel : (s.partn p).deleting = true) (hsv : s.svRuns = true) (hrails : s.warmRails p = true) :
    GoesTo (exec (.deleteDone p) s) fun u => (u.partn p).st = .undefined ∧ (u.partn p).deleting = false ∧ (u.partn p).home = [] ∧ (u.partn p).cur = (s.partn p).cur ∧
      ∀ i, i ∈ s.partSites p → (u.site i).part = none := by
  have hexec : exec (.deleteDone p) s = execDeleteDone p s := rfl
  rw [hexec, execDeleteDone, onPart, if_pos hp, when_, if_pos (by simp [hst, hdel, hsv, hrails])]
  dsimp only
  generalize hs1 : List.foldl State.warmEnd _ _ = s1
  have hpart1 : s1.partn p = s.partn p := by
    rw [← hs1]
    exact partn_of_only (bs := [.tiles, .sites, .clk]) (only_of_outside (by intros; simp)) (by decide) p
  have hpart : (((s.partSites p).foldl State.leaves s1).modPart p fun q => { q with st := .undefined, deleting := false, warming := [], home := [], engaged := false }).partn p =
      { s.partn p with st := .undefined, deleting := false, warming := [], home := [], engaged := false } := by
    rw [State.modPart_partn, if_pos rfl, partn_of_only (s1.leaves_foldl_only _) (by decide), hpart1]
  refine goesTo_of_eq (u := (((s.partSites p).foldl State.leaves s1).modPart p fun q => { q with st := .undefined, deleting := false, warming := [], home := [], engaged := false }).promise) rfl ?_
  rw [State.promise_partn, hpart]
  refine ⟨rfl, rfl, rfl, rfl, fun i hi => ?_⟩
  rw [State.promise_site, State.modPart_site, State.leaves_foldl_part, if_pos hi]

/-- Settles O36: the commands of PRT_CTL and the ends of resets and DELETEs. -/
theorem partitionsComplete : Obligations.PartitionsComplete := by
  have hdefine (p : Nat) (s : State) : exec (.define 0 p) s = execDefine 0 p s := rfl
  have hwarm (p : Nat) (s : State) : exec (.warmReset 0 p) s = execWarmReset 0 p s := rfl
  have hdelete (p : Nat) (s : State) : exec (.delete 0 p) s = execDelete 0 p s := rfl
  refine ⟨fun p s => define_goesTo, fun p s hp h hcode => ?_, fun p s hp h hcode => ?_, fun p s hp h hcode => ?_, fun p s hp h hcode => ?_, fun p s hp h hcode => ?_, fun p s => prtUpdate_goesTo,
    fun p found suspects s => warmResetDone_goesTo found suspects, fun p s => deleteDone_goesTo⟩
  · rw [hdefine, execDefine]
    exact prtGate_refused hp h hcode _
  · rw [hwarm, execWarmReset, prtGate_of_served hp h, if_pos hcode]
    rfl
  · rw [hwarm, execWarmReset]
    exact prtGate_refused hp h hcode _
  · rw [hdelete, execDelete, prtGate_of_served hp h, if_pos hcode]
    rfl
  · rw [hdelete, execDelete]
    exact prtGate_refused hp h hcode _

end Sys2Proof.Machine
end

section
/-! PROOFS. Cascade ports, and the rick's commands (R346 to R359; O37, O38). -/

namespace Sys2Proof.Machine

open Sys2Proof.Safety (Blk Only GoesTo Managed Served)

/-! ### One port of the cascade -/

section
variable (s : State) (n : Nat) (f : CasPort → CasPort)
theorem State.modCas_self : (s.modCas n f).cas n = f (s.cas n) := (s.modCas_cas n n f).trans (if_pos rfl)
theorem State.modCas_other {m : Nat} (h : m ≠ n) : (s.modCas n f).cas m = s.cas m := (s.modCas_cas n m f).trans (if_neg h)
theorem State.modCas_only : Only [.rick] s (s.modCas n f) := rfl
end
theorem onCas_of {s : State} {n : Nat} (hn : n < 32) (f : CasPort → Out) : onCas s n f = f (s.cas n) := if_pos hn
theorem State.recompute_cas (s : State) (n : Nat) : s.recompute.cas n = s.cas n := by
  unfold State.recompute
  split <;> rfl
theorem State.recompute_of_master {s : State} (h : s.rick.master = true) : s.recompute = s.modRick fun r => { r with pubs := r.pubs + 1 } := if_pos h
theorem State.recompute_only (s : State) : Only [.rick] s s.recompute := only_of_outside (by intros; simp)

/-! ### Codewords and their replay (R349, R350) -/

/-- What a good codeword acknowledges at its port (R349). -/
def State.casAcked (s : State) (n : Nat) (cw : Codeword) : State :=
  s.modCas n fun x => { x with replay := ackReplay cw.ack x.replay, since := if (ackReplay cw.ack x.replay).length < x.replay.length then s.time else x.since }
theorem State.casAcked_cas (s : State) (n : Nat) (cw : Codeword) : (s.casAcked n cw).cas n =
    { s.cas n with replay := ackReplay cw.ack (s.cas n).replay, since := if (ackReplay cw.ack (s.cas n).replay).length < (s.cas n).replay.length then s.time else (s.cas n).since } :=
  State.modCas_self ..
theorem exec_cascadeCodeword_good {n : Nat} {cw : Codeword} {s : State} (hn : n < 32) (hup : (s.cas n).st = 2) (hgood : cw.good = true) :
    exec (.cascadeCodeword n cw) s = .next (
      let u := if cw.cseq = (s.cas n).lastSeq + 1 then cw.slots.foldl (fun s x => s.casFlit n x) ((s.casAcked n cw).modCas n fun x => { x with lastSeq := cw.cseq, sendNak := false }) else s.casAcked n cw
      if cw.nak then u.casResend n else u) := by
  have hexec : exec (.cascadeCodeword n cw) s = execCascadeCodeword n cw s := rfl
  rw [hexec, execCascadeCodeword, onCas_of hn, when_, if_pos (by rw [hup]; decide), if_neg (by rw [hgood]; decide)]
  rfl
theorem State.casFlit_idle_foldl (s : State) (n k : Nat) : (List.replicate k CwSlot.idle).foldl (fun s x => s.casFlit n x) s = s := by
  induction k with
  | zero => rfl
  | succ k ih => exact ih

theorem replayTimeout_goesTo {n : Nat} {w : Sent} {l : List Sent} {s : State} (hn : n < 32) (hup : (s.cas n).st = 2) (hbuf : (s.cas n).replay = w :: l) (hdue : (s.cas n).since + 2 * us ≤ s.time)
    (hfew : w.resends < 8) : GoesTo (exec (.replayTimeout n) s) fun u =>
      (u.cas n).st = 2 ∧ (u.cas n).since = s.time ∧ (u.cas n).replay.length = l.length + 1 ∧ (∀ m, m ≠ n → u.cas m = s.cas m) ∧ Only [.rick] s u := by
  have hexec : exec (.replayTimeout n) s = execReplayTimeout n s := rfl
  rw [hexec, execReplayTimeout, onCas_of hn, when_, if_pos (by simp [hup, hbuf, hdue]), State.casResend, hbuf]
  dsimp only
  rw [if_neg (not_le.2 hfew)]
  refine goesTo_ok ⟨?_, ?_, ?_, fun m hm => State.modCas_other _ _ _ hm, rfl⟩
  · rw [State.modCas_self, hup]
  · rw [State.modCas_self]
  · rw [State.modCas_self, hbuf, List.length_map, List.length_cons]

/-! ### Ports that come up, and CAS_PCFG (R348, R352, R353) -/

theorem cascadePortUp_goesTo {n : Nat} {q : CasPartner} {s : State} (hn : n < 32) (hen : (s.cas n).en = true) (hst : (s.cas n).st ≠ 2) (hconf : s.rick.conflict = false) (hpow : s.pwr.powered = true)
    (hstage : Stage_trains s.spi.stage = true) (hself : s.rick.master = true → q.panel = 0 → q.serial = Config.serial) :
    GoesTo (exec (.cascadePortUp n q) s) fun u => (u.cas n).st = 2 ∧ (u.cas n).width = max (s.cas n).maxw q.width ∧ (u.cas n).rate = max (s.cas n).maxr q.rate ∧
      (u.cas n).ppanel = q.panel ∧ (∀ m, m ≠ n → u.cas m = s.cas m) := by
  have hexec : exec (.cascadePortUp n q) s = execCascadePortUp n q s := rfl
  rw [hexec, execCascadePortUp, onCas_of hn, when_, if_pos (by simp [hen, hst, hconf, hpow, hstage])]
  dsimp only
  generalize hs1 : (s.modCas n _) = s1
  have hself1 : s1.cas n = { s.cas n with
      st := 2, width := max (s.cas n).maxw q.width, rate := max (s.cas n).maxr q.rate, fec := max (s.cas n).maxr q.rate != 0 && (s.cas n).detok && q.detok, spare := q.spare,
      ppanel := q.panel, pport := q.port, pserial := q.serial, since := s.time, downSeen := false } := by
    rw [← hs1, State.modCas_self]
  have hother1 {m : Nat} (hm : m ≠ n) : s1.cas m = s.cas m := by rw [← hs1, State.modCas_other _ _ _ hm]
  have hmaster1 : s1.rick.master = s.rick.master := by rw [← hs1]; rfl
  generalize hs2 : (if (s.cas n).st = 0 ∨ (s.cas n).downSeen = true then s1.raiseEdge 0x0201 (casEdge n) n 0 else s1) = s2
  have hrick2 : s2.rick = s1.rick := by
    rw [← hs2]
    split
    · exact State.raise_rick ..
    · rfl
  have hcas (m : Nat) : s2.recompute.cas m = s1.cas m := (s2.recompute_cas m).trans (congrArg (fun r : Rick => tget ({} : CasPort) r.ports m) hrick2)
  have hmaster : s2.recompute.rick.master = s.rick.master := by
    refine Eq.trans ?_ ((congrArg Rick.master hrick2).trans hmaster1)
    unfold State.recompute
    split <;> rfl
  have hno : ¬(s2.recompute.rick.master = true ∧ q.panel = 0 ∧ q.serial ≠ Config.serial) := by
    rw [hmaster]
    exact fun ⟨h, hp, hs⟩ => hs (hself h hp)
  refine goesTo_of_eq (if_neg hno) ⟨?_, ?_, ?_, ?_, fun m hm => (hcas m).trans (hother1 hm)⟩
  all_goals rw [hcas, hself1]

theorem exec_casPcfg {n : Nat} (v : W32) {s : State} (hn : n < 32) (h : Managed s 0) : exec (.casPcfg 0 n v) s = .next (s.casCfg n v) := by
  have hexec : exec (.casPcfg 0 n v) s = execCasPcfg 0 n v s := rfl
  rw [hexec, execCasPcfg, onCas_of hn, gated0_of_managed h]
  rfl
theorem casPcfg_enables {n : Nat} {v : W32} {s : State} (hn : n < 32) (h : Managed s 0) (hen : bitOf v 31 = true) (hconf : s.rick.conflict = false) : GoesTo (exec (.casPcfg 0 n v) s) fun u =>
    u.cas n = { s.cas n with en := true, maxw := bitsOf v 30 29, maxr := bitsOf v 28 27, detok := bitOf v 26, st := 1 } ∧ (∀ m, m ≠ n → u.cas m = s.cas m) ∧ Only [.rick] s u := by
  rw [exec_casPcfg v hn h, State.casCfg]
  dsimp only
  rw [if_neg (by rw [show (s.modCas n _).rick.conflict = false from hconf]; decide), if_pos hen]
  refine goesTo_ok ⟨?_, fun m hm => ?_, rfl⟩
  · rw [State.modCas_self, State.modCas_self, hen]
  · rw [State.modCas_other _ _ _ hm, State.modCas_other _ _ _ hm]
theorem casCfg_not_enabled {n : Nat} {v : W32} {s : State} (h : bitOf v 31 = false ∨ s.rick.conflict = true) :
    s.casCfg n v = (let u := s.modCas n fun x => { x with en := bitOf v 31, maxw := bitsOf v 30 29, maxr := bitsOf v 28 27, detok := bitOf v 26 }
      if u.rick.conflict then u else if (s.cas n).st = 2 then u.casDown n fun _ => true else u.modCas n fun x => { x with st := 0 }) := by
  rw [State.casCfg]
  dsimp only
  have hkeep (f : CasPort → CasPort) : (s.modCas n f).rick.conflict = s.rick.conflict := rfl
  rw [hkeep]
  rcases h with h | h
  · rw [h, if_neg (show ¬(false = true) by decide)]
    simp only [beq_iff_eq]
  · rw [h, if_pos rfl, if_pos rfl]

/-- Settles O37: codewords, replay and events of cascade ports, and CAS_PCFG. -/
theorem cascadePortsComplete : Obligations.CascadePortsComplete := by
  refine ⟨fun n cw s hn hup hbad => ?_, fun n cw s hn hup hgood => exec_cascadeCodeword_good hn hup hgood, fun n cw s hn hup hgood hnak hseq => ?_, fun n k cw s hn hup hgood hnak hseq hidle => ?_,
    fun n w l s => replayTimeout_goesTo, fun n w l s hn hup hbuf hdue hmany => ?_, fun n d s hn hup => ?_, fun n q s => cascadePortUp_goesTo, fun n v s => casPcfg_enables, fun n v s hn h hv => ?_⟩
  · have hexec : exec (.cascadeCodeword n cw) s = execCascadeCodeword n cw s := rfl
    rw [hexec, execCascadeCodeword, onCas_of hn, when_, if_pos (by rw [hup]; decide), if_pos (by rw [hbad]; decide)]
    exact goesTo_ok ⟨State.modCas_self .., fun m hm => State.modCas_other _ _ _ hm, rfl⟩
  · rw [exec_cascadeCodeword_good hn hup hgood, if_neg hseq, hnak]
    refine goesTo_ok ⟨?_, ?_, fun m hm => State.modCas_other _ _ _ hm, rfl⟩
    · exact congrArg CasPort.replay (s.casAcked_cas n cw)
    · exact (congrArg CasPort.lastSeq (s.casAcked_cas n cw) :)
  · rw [exec_cascadeCodeword_good hn hup hgood, if_pos hseq, hnak, hidle, State.casFlit_idle_foldl]
    refine goesTo_ok ⟨?_, ?_, ?_, rfl⟩
    · exact (congrArg CasPort.replay (State.modCas_self ..)).trans (congrArg CasPort.replay (State.modCas_self ..))
    · exact congrArg CasPort.lastSeq (State.modCas_self ..)
    · exact congrArg CasPort.sendNak (State.modCas_self ..)
  · have hexec : exec (.replayTimeout n) s = execReplayTimeout n s := rfl
    rw [hexec, execReplayTimeout, onCas_of hn, when_, if_pos (by simp [hup, hbuf, hdue]), State.casResend, hbuf]
    dsimp only
    rw [if_pos hmany]
    rfl
  · have hexec : exec (.cascadePortDown n d) s = execCascadePortDown n d s := rfl
    rw [hexec, execCascadePortDown, onCas_of hn, when_, if_pos (by rw [hup]; decide)]
    rfl
  · intro u
    rw [exec_casPcfg v hn h, casCfg_not_enabled hv]

/-! ### CAS_CTL (R354, R359) -/

/-- A command of CAS_CTL through port 0 while none runs: the master carries it out, another panel records the error (R354). -/
theorem casCtl_of_served {s : State} (h : Served s) (hidle : s.rick.busy = false) (k : State → Out) :
    casCtl s 0 none k = if s.rick.master then k (s.modRick fun r => { r with err := false, busy := true }) else ok (s.modRick fun r => { r with err := true }) := by
  obtain ⟨hm, hsv⟩ := h
  unfold casCtl
  rw [gated0_of_managed hm, when_, if_pos (by rw [hsv, hidle]; rfl)]
theorem casCtl_word_of_served {s : State} (h : Served s) (hidle : s.rick.busy = false) (w : W32) (k : State → Out) :
    casCtl s 0 (some w) k = if s.rick.master then k ((s.modRick fun r => { r with context := bitsOf w 27 16 }).modRick fun r => { r with err := false, busy := true })
      else ok ((s.modRick fun r => { r with context := bitsOf w 27 16 }).modRick fun r => { r with err := true }) := by
  obtain ⟨hm, hsv⟩ := h
  unfold casCtl
  rw [gated0_of_managed hm, when_, if_pos (by rw [hsv, hidle]; rfl)]
  rfl

theorem rickAnnounce_goesTo {q via : Nat} {sn : W64} {ps : List W64} {s : State} (hmaster : s.rick.master = true) (hpos : 0 < q) (hq : q < 64) (hvia : via < 32) (hup : (s.cas via).st = 2)
    (hfree : (s.rick.admitted.find? fun m => m.1 == q) = none) : GoesTo (exec (.rickAnnounce q sn ⟨via, ps⟩) s) fun u =>
      u.rick.admitted = s.rick.admitted.filter (fun m => m.1 != q) ++ [(q, sn)] ∧ u.rick.pubs = s.rick.pubs + 1 ∧ (∀ n, u.cas n = s.cas n) ∧ Only [.rick] s u := by
  have hexec : exec (.rickAnnounce q sn ⟨via, ps⟩) s = execRickAnnounce q sn ⟨via, ps⟩ s := rfl
  have htold : (((s.modRick fun r => r.told sn ps).rick.admitted).find? fun m => m.1 == q) = none := hfree
  rw [hexec, execRickAnnounce, when_, if_pos (by simp [hmaster, hq, hvia, hup]), if_neg (by omega)]
  dsimp only
  rw [htold]
  exact goesTo_of_eq (congrArg ok (State.recompute_of_master hmaster)) ⟨rfl, rfl, fun _ => rfl, rfl⟩

theorem rickRoutes_goesTo {g : Nat} {s : State} (hsv : s.svRuns = true) (hconf : s.rick.conflict = false) (hg : 0 < g) (hnew : s.rick.master = true → g = s.rick.pubs) :
    GoesTo (exec (.rickRoutes g) s) fun u => u.rick.gen = g ∧ u.rick.inrick = !s.rick.master ∧ u.rick.publishing = false ∧ (s.rick.publishing = true → u.rick.busy = false) ∧
      (∀ q, q ∈ u.rick.routed ↔ q < 64 ∧ q ≠ s.rick.panel ∧ (Config.rickRoute g q).getLsbD 12 = true) ∧ Only [.rick] s u := by
  have hexec : exec (.rickRoutes g) s = execRickRoutes g s := rfl
  have htakes : (!s.rick.master || g == s.rick.pubs) = true := by
    cases hm : s.rick.master
    · rfl
    · simpa [hm] using hnew hm
  rw [hexec, execRickRoutes, when_, if_pos (by simp only [hsv, hconf, hg, htakes]; decide)]
  refine goesTo_ok ⟨rfl, rfl, rfl, fun hp => ?_, fun q => ?_, rfl⟩
  · simp [hp]
  · simp [mem_rangeFrom]

/-! ### RRESTART (R359) -/

theorem State.restart_st {s : State} {c : Nat} : ((s.restart c).ctx c).st = .resetting := by
  rw [State.restart]
  refine (State.ctx_of_desks (State.copiesGo_desks _) Ctx.st (fun _ => rfl) c).trans ?_
  rw [State.modCtx_ctx, if_pos rfl]
/-- A restart leaves all of the rick but who waits for its barriers. -/
theorem State.restart_rick {α : Type} (π : Rick → α) (hπ : ∀ r l, π { r with waiting := l } = π r) (s : State) (c : Nat) : π (s.restart c).rick = π s.rick := by
  rw [State.restart, rick_of_only (bs := [.tiles, .sites, .fab, .host, .spi]) (only_of_outside (by intros; exact State.copiesGo_outside _)) (by decide)]
  refine (hπ (s.quiet c).rick _).trans (congrArg π ?_)
  exact rick_of_only (bs := [.tiles, .sites, .fab, .host, .spi]) (only_of_outside (by intros; simp)) (by decide)

theorem State.rickRestart_goes (s : State) (c : Nat) : (s.rickRestart c).rick.busy = s.rick.busy ∧ (s.rickRestart c).rick.context = s.rick.context ∧
    (((s.ctx c).st = .ready ∨ (s.ctx c).st = .active ∨ (s.ctx c).st = .halted) → c < 3072 → ((s.rickRestart c).ctx c).st = .resetting) := by
  rw [State.rickRestart]
  by_cases hgo : c < 3072 ∧ ((s.ctx c).st = .ready ∨ (s.ctx c).st = .active ∨ (s.ctx c).st = .halted)
  · rw [if_pos hgo, State.restart_rick Rick.busy (fun _ _ => rfl), State.restart_rick Rick.context (fun _ _ => rfl)]
    exact ⟨rfl, rfl, fun _ _ => State.restart_st⟩
  · rw [if_neg hgo]
    exact ⟨rfl, rfl, fun hst hc => absurd ⟨hc, hst⟩ hgo⟩

theorem rrestart_goesTo {v : W32} {s : State} (h : Served s) (hidle : s.rick.busy = false) (hmaster : s.rick.master = true) : GoesTo (exec (.rrestart 0 v) s) fun u =>
    u.rick.busy = true ∧ u.rick.context = bitsOf v 27 16 ∧
    (((s.ctx (bitsOf v 27 16)).st = .ready ∨ (s.ctx (bitsOf v 27 16)).st = .active ∨ (s.ctx (bitsOf v 27 16)).st = .halted) → bitsOf v 27 16 < 3072 →
      (u.ctx (bitsOf v 27 16)).st = .resetting) := by
  have hexec : exec (.rrestart 0 v) s = execRrestart 0 v s := rfl
  rw [hexec, execRrestart, if_neg (by decide), casCtl_word_of_served h hidle]
  obtain ⟨hbusy, hctx, hst⟩ := State.rickRestart_goes ((s.modRick fun r => { r with context := bitsOf v 27 16 }).modRick fun r => { r with err := false, busy := true }) (bitsOf v 27 16)
  exact goesTo_of_eq (if_pos hmaster) ⟨hbusy, hctx, hst⟩

/-- Settles O38: admission to the rick, its routes, and the commands of CAS_CTL. -/
theorem rickCommandsComplete : Obligations.RickCommandsComplete := by
  have hpublish (s : State) : exec (.publish 0) s = execPublish 0 s := rfl
  have hrrestart (p : Nat) (v : W32) (s : State) : exec (.rrestart p v) s = execRrestart p v s := rfl
  refine ⟨fun q via sn ps s => rickAnnounce_goesTo, fun s h hidle hmaster => ?_, fun s h hidle hmaster => ?_, fun v s h hidle hmaster => ?_, fun g s => rickRoutes_goesTo, fun v s => rrestart_goesTo,
    fun v s hin hmaster hconf => ?_, fun s hbusy hpub hctx => ?_⟩
  · rw [hpublish, execPublish, casCtl_of_served h hidle]
    exact goesTo_of_eq ((if_pos hmaster).trans (congrArg ok (State.recompute_of_master hmaster))) ⟨rfl, rfl⟩
  · rw [hpublish, execPublish, casCtl_of_served h hidle]
    rw [if_neg (by rw [hmaster]; decide)]
    exact goesTo_ok ⟨rfl, rfl⟩
  · rw [hrrestart, execRrestart, if_neg (by decide), casCtl_word_of_served h hidle]
    exact goesTo_of_eq (if_neg (Bool.eq_false_iff.1 hmaster)) ⟨rfl, rfl⟩
  · rw [hrrestart, execRrestart, if_pos rfl, when_, if_pos (by rw [hin, hmaster, hconf]; rfl)]
    rfl
  · have hexec : exec .rrestartDone s = execRrestartDone s := rfl
    rw [hexec, execRrestartDone, when_, if_pos (by simp [hbusy, hpub, hctx])]
    exact goesTo_ok ⟨rfl, rfl⟩

end Sys2Proof.Machine
end

section
/-! PROOFS. Scrubbers, DDR channels, patrols, regions and thresholds (R121, R122, R253 to R257, R275 to R282; O27). -/

namespace Sys2Proof.Machine

open Sys2Proof.Safety (Blk Only GoesTo Managed)

/-! ### Scrubbers (R253 to R257) -/

theorem Tile.upset_clean (T : Tile) (w : Nat) : T.upset .clean w = T := rfl
theorem Tile.scrubOn_scrubAt (T : Tile) : T.scrubOn.scrubAt = if T.scrubAt + 1 = 28672 then 0 else T.scrubAt + 1 := by
  unfold Tile.scrubOn
  split <;> rfl
theorem Tile.scrubOn_field {α : Type} (π : Tile → α) (hπ : ∀ T a p, π { T with scrubAt := a, scrubPass := p } = π T) (T : Tile) : π T.scrubOn = π T := by
  unfold Tile.scrubOn
  split
  · exact hπ T 0 (T.scrubPass + 1)
  · exact hπ T (T.scrubAt + 1) T.scrubPass

theorem scrubAccess_goes {t w : Nat} {found : MemErr} {s : State} (ht : t < 32768) (hoff : (s.tileSt t).st ≠ .off) (hdark : (s.tileSt t).st ≠ .dark) :
    exec (.scrubAccess t found w) s = (let d := s.modTile t fun T => T.upset found w
      when_ (s.tileSt t).scrubEn d <| ok ((d.tile t).scrubBad.foldl (fun u x => u.sramUe t x) (d.modTile t fun T => (T.meet fun x => x / 8 == T.scrubAt).scrubOn))) := by
  have hexec : exec (.scrubAccess t found w) s = execScrubAccess t found w s := rfl
  rw [hexec, execScrubAccess, onTile, if_pos ht]
  exact if_neg (not_or.2 ⟨hoff, hdark⟩)
/-- An access of a scrubber that is on, where the words that it reads hold no uncorrectable error. -/
theorem scrubAccess_of_no_bad {t w : Nat} {found : MemErr} {s : State} (ht : t < 32768) (hen : (s.tileSt t).scrubEn = true) (hoff : (s.tileSt t).st ≠ .off) (hdark : (s.tileSt t).st ≠ .dark)
    (hbad : ((s.tile t).upset found w).scrubBad = []) :
    exec (.scrubAccess t found w) s = .next ((s.modTile t fun T => T.upset found w).modTile t fun T => (T.meet fun x => x / 8 == T.scrubAt).scrubOn) := by
  rw [scrubAccess_goes ht hoff hdark]
  dsimp only
  rw [when_, if_pos hen, State.modTile_tile, if_pos rfl, hbad]
  rfl

theorem scrubAccess_clean {t w : Nat} {s : State} (ht : t < 32768) (hen : (s.tileSt t).scrubEn = true) (hoff : (s.tileSt t).st ≠ .off) (hdark : (s.tileSt t).st ≠ .dark) (hbad : (s.tile t).scrubBad = []) :
    GoesTo (exec (.scrubAccess t .clean w) s) fun u =>
      (u.tile t).flips = (s.tile t).flips.filter (fun x => !(x / 8 == (s.tile t).scrubAt)) ∧
      (u.tile t).scrubAt = (if (s.tile t).scrubAt + 1 = 28672 then 0 else (s.tile t).scrubAt + 1) ∧ (u.tile t).sram = (s.tile t).sram ∧ (∀ n, n ≠ t → u.tile n = s.tile n) := by
  refine goesTo_of_eq (scrubAccess_of_no_bad ht hen hoff hdark hbad) ⟨?_, ?_, ?_, fun n hn => ?_⟩
  · rw [State.modTile_tile, if_pos rfl, State.modTile_tile, if_pos rfl]
    exact Tile.scrubOn_field Tile.flips (fun _ _ _ => rfl) _
  · rw [State.modTile_tile, if_pos rfl, State.modTile_tile, if_pos rfl, Tile.scrubOn_scrubAt]
    rfl
  · rw [State.modTile_tile, if_pos rfl, State.modTile_tile, if_pos rfl]
    exact Tile.scrubOn_field Tile.sram (fun _ _ _ => rfl) _
  · rw [State.modTile_tile, if_neg hn, State.modTile_tile, if_neg hn]

/-- A single-bit error that comes in at a good word waits there for the next read (R253). -/
theorem Tile.upset_corrected {T : Tile} {w : Nat} (hw : w < 229376) (hsram : T.badSram.contains w = false) (hscr : T.badScr.contains (w - scrWord0) = false) (hflips : T.flips = []) :
    T.upset .corrected w = { T with flips := [w] } := by
  unfold Tile.upset
  dsimp only
  rw [if_neg, hflips, List.nil_append]
  rw [hflips, hsram, hscr, ite_self]
  simp
  omega
theorem scrubAccess_corrected {t w : Nat} {s : State} (ht : t < 32768) (hen : (s.tileSt t).scrubEn = true) (hoff : (s.tileSt t).st ≠ .off) (hdark : (s.tileSt t).st ≠ .dark) (hbad : (s.tile t).scrubBad = [])
    (hflips : (s.tile t).flips = []) (hat : w / 8 = (s.tile t).scrubAt) (hw : w < 229376) (hsram : (s.tile t).badSram.contains w = false) (hscr : (s.tile t).badScr.contains (w - scrWord0) = false) :
    GoesTo (exec (.scrubAccess t .corrected w) s) fun u => (u.tile t).flips = [] ∧ (u.tile t).sram = (s.tile t).sram ∧
      (u.tile t).sramCorr = (s.tile t).sramCorr + (if w < scrWord0 then 1 else 0) ∧ (u.tile t).scrCorr = (s.tile t).scrCorr + (if w < scrWord0 then 0 else 1) := by
  have hup := Tile.upset_corrected hw hsram hscr hflips
  have hmeet : ({ s.tile t with flips := [w] } : Tile).meet (fun x => x / 8 == (s.tile t).scrubAt) =
      { s.tile t with flips := [], sramCorr := (s.tile t).sramCorr + (if w < scrWord0 then 1 else 0), scrCorr := (s.tile t).scrCorr + (if w < scrWord0 then 0 else 1) } := by
    unfold Tile.meet
    by_cases hlow : w < scrWord0 <;> simp [hat, hlow]
  refine goesTo_of_eq (scrubAccess_of_no_bad ht hen hoff hdark (by rw [hup]; exact hbad)) ?_
  rw [State.modTile_tile, if_pos rfl, State.modTile_tile, if_pos rfl, hup]
  refine ⟨?_, ?_, ?_, ?_⟩
  · exact (Tile.scrubOn_field Tile.flips (fun _ _ _ => rfl) _).trans (congrArg Tile.flips hmeet :)
  · exact (Tile.scrubOn_field Tile.sram (fun _ _ _ => rfl) _).trans (congrArg Tile.sram hmeet :)
  · exact (Tile.scrubOn_field Tile.sramCorr (fun _ _ _ => rfl) _).trans (congrArg Tile.sramCorr hmeet :)
  · exact (Tile.scrubOn_field Tile.scrCorr (fun _ _ _ => rfl) _).trans (congrArg Tile.scrCorr hmeet :)

/-! ### DDR channels and their patrols (R275, R280 to R282) -/

theorem State.modChan_self (s : State) (c : Nat) (f : Chan → Chan) : (s.modChan c f).chan c = f (s.chan c) := (s.modChan_chan c c f).trans (if_pos rfl)
theorem State.modChan_other (s : State) {c d : Nat} (f : Chan → Chan) (h : d ≠ c) : (s.modChan c f).chan d = s.chan d := (s.modChan_chan c d f).trans (if_neg h)
theorem State.promise_chan (s : State) (c : Nat) : s.promise.chan c = s.chan c := chan_of_only s.promise_only (by decide) c
theorem State.learn_chan (s : State) (k : Nat) (l : List W64) (c : Nat) : (s.learn k l).chan c = s.chan c := chan_of_only (bs := [.spi]) (only_of_outside (by intros; simp)) (by decide) c

theorem ddrChannelDown_goesTo {ch : Nat} {s : State} (hch : ch < 32) (hup : (s.chan ch).st = 2) : GoesTo (exec (.ddrChannelDown ch) s) fun u =>
    (u.chan ch).st = 1 ∧ (u.chan ch).failed = true ∧ (∀ c, c ≠ ch → u.chan c = s.chan c) := by
  have hexec : exec (.ddrChannelDown ch) s = execDdrChannelDown ch s := rfl
  rw [hexec, execDdrChannelDown, when_, if_pos (decide_eq_true hch), State.channelFails, if_neg (not_not.2 hup), State.raiseEdge]
  refine goesTo_ok ⟨?_, ?_, fun c hc => ?_⟩
  · rw [State.promise_chan, State.raise_chan, State.modChan_self]
  · rw [State.promise_chan, State.raise_chan, State.modChan_self]
  · rw [State.promise_chan, State.raise_chan, State.modChan_other _ _ hc]

/-- A recorded row changes nothing of its channel but its rows (R282). -/
theorem State.recordRow_chan {α : Type} (π : Chan → α) (hπ : ∀ x l, π { x with rows := l } = π x) (s : State) (ch b : Nat) : π ((s.recordRow ch b).chan ch) = π (s.chan ch) := by
  unfold State.recordRow
  dsimp only
  split
  · rfl
  · rw [State.learn_chan, State.modChan_self, hπ]
theorem State.recordRow_chan_other (s : State) {ch c : Nat} (b : Nat) (h : c ≠ ch) : (s.recordRow ch b).chan c = s.chan c := by
  unfold State.recordRow
  dsimp only
  split
  · rfl
  · rw [State.learn_chan, State.modChan_other _ _ h]
theorem State.ddrCe_chan {α : Type} (π : Chan → α) (hπ : ∀ x l, π { x with rows := l } = π x) (hlog : ∀ x r l, π { x with rowCe := r, ceLog := l } = π x) (s : State) (ch b : Nat) :
    π ((s.ddrCe ch b).chan ch) = π { s.chan ch with flips := (s.chan ch).flips.filter (· != b), ce := satAdd (s.chan ch).ce 1 } := by
  unfold State.ddrCe
  dsimp only
  split
  · rw [State.recordRow_chan π hπ, State.modChan_self]
    exact hlog { s.chan ch with flips := (s.chan ch).flips.filter (· != b), ce := satAdd (s.chan ch).ce 1 } _ _
  · rw [State.modChan_self]
    exact hlog { s.chan ch with flips := (s.chan ch).flips.filter (· != b), ce := satAdd (s.chan ch).ce 1 } _ _
theorem State.ddrCe_chan_other (s : State) {ch c : Nat} (b : Nat) (h : c ≠ ch) : (s.ddrCe ch b).chan c = s.chan c := by
  unfold State.ddrCe
  dsimp only
  split
  · rw [State.recordRow_chan_other _ _ h, State.modChan_other _ _ h]
    rfl
  · rw [State.modChan_other _ _ h]
    rfl
theorem State.ddrUe_chan {α : Type} (π : Chan → α) (hπ : ∀ x l, π { x with rows := l } = π x) (s : State) (ch b : Nat) :
    π ((s.ddrUe ch b).chan ch) = π { s.chan ch with ue := satAdd (s.chan ch).ue 1, ueaddr := b * 64 } := by
  rw [State.ddrUe, State.raiseEdge, State.raise_chan, State.recordRow_chan π hπ, State.modChan_self]
theorem State.ddrUe_chan_other (s : State) {ch c : Nat} (b : Nat) (h : c ≠ ch) : (s.ddrUe ch b).chan c = s.chan c := by
  rw [State.ddrUe, State.raiseEdge, State.raise_chan, State.recordRow_chan_other _ _ h, State.modChan_other _ _ h]

theorem Chan.upset_clean_foldl (l : List Nat) (c : Chan) : l.foldl (fun c b => c.upset .clean b) c = c := by
  induction l with
  | nil => rfl
  | cons b l ih => exact ih
theorem State.modChan_id (s : State) (ch : Nat) (f : Chan → Chan) (h : f (s.chan ch) = s.chan ch) (c : Nat) : (s.modChan ch f).chan c = s.chan c := by
  rw [State.modChan_chan]
  split
  · next hc => rw [h, hc]
  · rfl
theorem filter_eq_nil_of_not_contains {l : List Nat} {a : Nat} (h : l.contains a = false) : l.filter (fun x => x == a) = [] := by
  rw [List.filter_eq_nil_iff]
  intro x hx hxa
  rw [eq_of_beq hxa] at hx
  rw [List.contains_iff_mem.2 hx] at h
  exact absurd h (by decide)

/-- A patrol read of an up channel, after what has come in (R280, R281). -/
theorem exec_patrolRead {ch b n : Nat} {found : MemErr} {s : State} (hch : ch < 32) (hup : (s.chan ch).st = 2) (hon : s.patrolCode ≠ 0) (hmore : (s.chan ch).patrolAt + 1 < (s.chan ch).bursts) :
    exec (.patrolRead ch b found n) s = ok (
      let at_ := (s.chan ch).patrolAt
      let s1 := (s.modChan ch fun c => (rangeFrom b n).foldl (fun c b => c.upset found b) c).meetDdr ch fun x => x == at_
      let s2 := if (s1.chan ch).bad.contains at_ then s1.ddrUe ch at_ else s1
      s2.modChan ch fun c => if at_ + 1 < c.bursts then { c with patrolAt := at_ + 1 } else { c with patrolAt := 0, patrols := c.patrols + 1, rowCe := [] }) := by
  have hexec : exec (.patrolRead ch b found n) s = execPatrolRead ch b found n s := rfl
  rw [hexec, execPatrolRead]
  dsimp only
  rw [if_neg (not_or.2 ⟨not_le.2 hch, not_not.2 hup⟩)]
  exact if_neg (not_or.2 ⟨hon, Nat.pos_iff_ne_zero.1 (Nat.lt_of_le_of_lt (Nat.zero_le _) hmore)⟩)
/-- Where nothing has come in, and the burst holds no error that a read would correct. -/
theorem patrolRead_clean {ch b n : Nat} {s : State} (hch : ch < 32) (hup : (s.chan ch).st = 2) (hon : s.patrolCode ≠ 0) (hmore : (s.chan ch).patrolAt + 1 < (s.chan ch).bursts)
    (hflips : (s.chan ch).flips.contains (s.chan ch).patrolAt = false) :
    GoesTo (exec (.patrolRead ch b .clean n) s) fun u => ∃ s1 : State, (∀ c, s1.chan c = s.chan c) ∧
      u = (if (s.chan ch).bad.contains (s.chan ch).patrolAt then s1.ddrUe ch (s.chan ch).patrolAt else s1).modChan ch fun c =>
        if (s.chan ch).patrolAt + 1 < c.bursts then { c with patrolAt := (s.chan ch).patrolAt + 1 } else { c with patrolAt := 0, patrols := c.patrols + 1, rowCe := [] } := by
  refine goesTo_of_eq (exec_patrolRead hch hup hon hmore) ?_
  dsimp only
  have hid := State.modChan_id s ch (fun c => (rangeFrom b n).foldl (fun c b => c.upset .clean b) c) (Chan.upset_clean_foldl _ _)
  generalize (s.modChan ch fun c => (rangeFrom b n).foldl (fun c b => c.upset .clean b) c) = s1 at hid ⊢
  have hmeet : s1.meetDdr ch (fun x => x == (s.chan ch).patrolAt) = s1 := by
    rw [State.meetDdr, hid, filter_eq_nil_of_not_contains hflips]
    rfl
  rw [hmeet, hid]
  exact ⟨s1, hid, rfl⟩

theorem patrolRead_good {ch b n : Nat} {s : State} (hch : ch < 32) (hup : (s.chan ch).st = 2) (hon : s.patrolCode ≠ 0) (hmore : (s.chan ch).patrolAt + 1 < (s.chan ch).bursts)
    (hbad : (s.chan ch).bad.contains (s.chan ch).patrolAt = false) (hflips : (s.chan ch).flips.contains (s.chan ch).patrolAt = false) :
    GoesTo (exec (.patrolRead ch b .clean n) s) fun u => u.chan ch = { s.chan ch with patrolAt := (s.chan ch).patrolAt + 1 } ∧ ∀ c, c ≠ ch → u.chan c = s.chan c := by
  obtain ⟨u, hu, s1, hs1, rfl⟩ := patrolRead_clean (b := b) (n := n) hch hup hon hmore hflips
  refine ⟨_, hu, ?_, fun c hc => ?_⟩
  · rw [hbad, if_neg Bool.false_ne_true, State.modChan_self, hs1, if_pos hmore]
  · rw [hbad, if_neg Bool.false_ne_true, State.modChan_other _ _ hc, hs1]
theorem patrolRead_bad {ch b n : Nat} {s : State} (hch : ch < 32) (hup : (s.chan ch).st = 2) (hon : s.patrolCode ≠ 0) (hmore : (s.chan ch).patrolAt + 1 < (s.chan ch).bursts)
    (hbad : (s.chan ch).bad.contains (s.chan ch).patrolAt = true) (hflips : (s.chan ch).flips.contains (s.chan ch).patrolAt = false) :
    GoesTo (exec (.patrolRead ch b .clean n) s) fun u => (u.chan ch).ue = satAdd (s.chan ch).ue 1 ∧ (u.chan ch).ueaddr = (s.chan ch).patrolAt * 64 ∧ (u.chan ch).bad = (s.chan ch).bad ∧
      (u.chan ch).patrolAt = (s.chan ch).patrolAt + 1 ∧ ∀ c, c ≠ ch → u.chan c = s.chan c := by
  obtain ⟨u, hu, s1, hs1, rfl⟩ := patrolRead_clean (b := b) (n := n) hch hup hon hmore hflips
  rw [if_pos hbad] at hu
  have hbursts : ((s1.ddrUe ch (s.chan ch).patrolAt).chan ch).bursts = (s.chan ch).bursts := by
    rw [State.ddrUe_chan Chan.bursts (fun _ _ => rfl), hs1]
    rfl
  have hself : ((s1.ddrUe ch (s.chan ch).patrolAt).modChan ch fun c =>
      if (s.chan ch).patrolAt + 1 < c.bursts then { c with patrolAt := (s.chan ch).patrolAt + 1 } else { c with patrolAt := 0, patrols := c.patrols + 1, rowCe := [] }).chan ch =
      { (s1.ddrUe ch (s.chan ch).patrolAt).chan ch with patrolAt := (s.chan ch).patrolAt + 1 } := by
    rw [State.modChan_self, if_pos (by rw [hbursts]; exact hmore)]
  refine ⟨_, hu, ?_, ?_, ?_, ?_, fun c hc => ?_⟩
  case refine_5 => rw [State.modChan_other _ _ hc, State.ddrUe_chan_other _ _ hc, hs1]
  all_goals rw [hself]
  · exact (State.ddrUe_chan Chan.ue (fun _ _ => rfl) ..).trans (by rw [hs1])
  · exact State.ddrUe_chan Chan.ueaddr (fun _ _ => rfl) ..
  · exact (State.ddrUe_chan Chan.bad (fun _ _ => rfl) ..).trans (by rw [hs1])

theorem patrolRead_corrected {ch : Nat} {s : State} (hch : ch < 32) (hup : (s.chan ch).st = 2) (hon : s.patrolCode ≠ 0) (hmore : (s.chan ch).patrolAt + 1 < (s.chan ch).bursts)
    (hbad : (s.chan ch).bad.contains (s.chan ch).patrolAt = false) (hflips : (s.chan ch).flips = []) :
    GoesTo (exec (.patrolRead ch (s.chan ch).patrolAt .corrected 1) s) fun u => (u.chan ch).ce = satAdd (s.chan ch).ce 1 ∧ (u.chan ch).flips = [] ∧
      (u.chan ch).patrolAt = (s.chan ch).patrolAt + 1 ∧ (u.chan ch).dram = (s.chan ch).dram ∧ (u.chan ch).ue = (s.chan ch).ue ∧ ∀ c, c ≠ ch → u.chan c = s.chan c := by
  refine goesTo_of_eq (exec_patrolRead hch hup hon hmore) ?_
  dsimp only
  generalize hat : (s.chan ch).patrolAt = a at hmore hbad ⊢
  have hcome : (rangeFrom a 1).foldl (fun c b => c.upset .corrected b) (s.chan ch) = { s.chan ch with flips := [a] } := by
    refine (if_neg ?_).trans (by rw [hflips]; rfl)
    rw [hbad, hflips]
    simp
    omega
  generalize hs1 : (s.modChan ch fun c => (rangeFrom a 1).foldl (fun c b => c.upset .corrected b) c) = s1
  have hself1 : s1.chan ch = { s.chan ch with flips := [a] } := by rw [← hs1, State.modChan_self, hcome]
  have hother1 {c : Nat} (hc : c ≠ ch) : s1.chan c = s.chan c := by rw [← hs1, State.modChan_other _ _ hc]
  have hmeet : s1.meetDdr ch (fun x => x == a) = s1.ddrCe ch a := by
    rw [State.meetDdr, hself1]
    simp
  rw [hmeet]
  have hkept {α : Type} (π : Chan → α) (hπ : ∀ x l, π { x with rows := l } = π x) (hlog : ∀ x r l, π { x with rowCe := r, ceLog := l } = π x) :
      π ((s1.ddrCe ch a).chan ch) = π { s.chan ch with flips := [], ce := satAdd (s.chan ch).ce 1 } := by
    rw [State.ddrCe_chan π hπ hlog, hself1]
    simp
  have hgood : ((s1.ddrCe ch a).chan ch).bad.contains a = false := by
    rw [hkept Chan.bad (fun _ _ => rfl) (fun _ _ _ => rfl)]
    exact hbad
  rw [hgood, if_neg Bool.false_ne_true]
  have hself : ((s1.ddrCe ch a).modChan ch fun c => if a + 1 < c.bursts then { c with patrolAt := a + 1 } else { c with patrolAt := 0, patrols := c.patrols + 1, rowCe := [] }).chan ch =
      { (s1.ddrCe ch a).chan ch with patrolAt := a + 1 } := by
    rw [State.modChan_self, if_pos (by rw [hkept Chan.bursts (fun _ _ => rfl) (fun _ _ _ => rfl)]; exact hmore)]
  refine ⟨?_, ?_, ?_, ?_, ?_, fun c hc => ?_⟩
  case refine_6 => rw [State.modChan_other _ _ hc, State.ddrCe_chan_other _ _ hc, hother1 hc]
  all_goals rw [hself]
  · exact hkept Chan.ce (fun _ _ => rfl) (fun _ _ _ => rfl)
  · exact hkept Chan.flips (fun _ _ => rfl) (fun _ _ _ => rfl)
  · exact hkept Chan.dram (fun _ _ => rfl) (fun _ _ _ => rfl)
  · exact hkept Chan.ue (fun _ _ => rfl) (fun _ _ _ => rfl)

/-! ### DDR regions and the thresholds of BEV (R121, R122, R279) -/

theorem exec_ddrRegionCommit {p : Nat} {s : State} (hp : p < 16) (h : Managed s 0) : exec (.ddrRegionCommit 0 p) s = .next (s.regionCommit p) := by
  have hexec : exec (.ddrRegionCommit 0 p) s = execDdrRegionCommit 0 p s := rfl
  rw [hexec, execDdrRegionCommit, onPart, if_pos hp, gated0_of_managed h]
  rfl
theorem ddrRegionCommit_taken {p : Nat} {s : State} (hp : p < 16) (h : Managed s 0) (hok : (s.partn p).ddr.stage.size = 0 ∨ s.regionCheck p (s.partn p).ddr.stage = 0) :
    GoesTo (exec (.ddrRegionCommit 0 p) s) fun u => (u.partn p).ddr.cur = (if (s.partn p).ddr.stage.size = 0 then {} else (s.partn p).ddr.stage) ∧
      (u.partn p).ddr.err = false ∧ (u.partn p).ddr.ecode = 0 ∧ (∀ q, q ≠ p → u.partn q = s.partn q) ∧ u.tiles = s.tiles := by
  have hcode : (if (s.partn p).ddr.stage.size = 0 then 0 else s.regionCheck p (s.partn p).ddr.stage) = 0 := by
    rcases hok with hz | hc
    · exact if_pos hz
    · rw [hc, ite_self]
  have hslices : Only [.sites] s (s.invalidatePart p) := only_of_outside (by intros; simp)
  rw [exec_ddrRegionCommit hp h, State.regionCommit]
  dsimp only
  rw [if_pos hcode]
  refine goesTo_ok ⟨?_, ?_, ?_, fun q hq => ?_, ?_⟩
  · rw [State.modPart_partn, if_pos rfl]
  · rw [State.modPart_partn, if_pos rfl]
  · rw [State.modPart_partn, if_pos rfl]
  · rw [State.modPart_partn, if_neg hq, partn_of_only hslices (by decide)]
  · exact (tiles_of_only hslices (by decide) : (s.invalidatePart p).tiles = s.tiles)
theorem ddrRegionCommit_refused {p : Nat} {s : State} (hp : p < 16) (h : Managed s 0) (hsize : (s.partn p).ddr.stage.size ≠ 0) (hcode : s.regionCheck p (s.partn p).ddr.stage ≠ 0) :
    GoesTo (exec (.ddrRegionCommit 0 p) s) fun u => (u.partn p).ddr.cur = (s.partn p).ddr.cur ∧ (u.partn p).ddr.err = true ∧
      (u.partn p).ddr.ecode = s.regionCheck p (s.partn p).ddr.stage ∧ Only [.parts] s u := by
  rw [exec_ddrRegionCommit hp h, State.regionCommit]
  dsimp only
  rw [if_neg hsize, if_neg hcode]
  refine goesTo_ok ⟨?_, ?_, ?_, rfl⟩
  all_goals rw [State.modPart_partn, if_pos rfl]

theorem exec_prtBevWrite {k : Nat} (v : W32) {s : State} (hk : k < 8) (h : Managed s 0) : exec (.prtBevWrite 0 k v) s = .next (s.bevWrite k v) := by
  have hexec : exec (.prtBevWrite 0 k v) s = execPrtBevWrite 0 k v s := rfl
  rw [hexec, execPrtBevWrite, if_neg (not_le.2 hk), gated0_of_managed h]
  rfl

/-- Settles O27: scrubbers, DDR channels, patrols, regions and thresholds. -/
theorem memoriesComplete : Obligations.MemoriesComplete := by
  refine ⟨fun t w found s ht hoff hdark => ?_, fun t w s => scrubAccess_clean, fun t w s => scrubAccess_corrected, fun ch s hch => ?_, fun ch s => ddrChannelDown_goesTo, fun ch b n s => patrolRead_good,
    fun ch s => patrolRead_corrected, fun ch b n s => patrolRead_bad, fun p s => ddrRegionCommit_taken, fun p s => ddrRegionCommit_refused, fun k v s hk h => ?_, fun v s h => ?_⟩
  · rw [scrubAccess_goes ht hoff hdark]
    exact ⟨fun hen => if_neg (Bool.eq_false_iff.1 hen), fun hen => if_pos hen⟩
  · have hexec : exec (.ddrChannelDown ch) s = execDdrChannelDown ch s := rfl
    rw [hexec, execDdrChannelDown, when_, if_pos (decide_eq_true hch)]
    rfl
  · rw [exec_prtBevWrite v (Nat.lt_succ_of_lt hk) h, State.bevWrite, if_pos hk]
    exact goesTo_ok ⟨rfl, rfl, rfl⟩
  · rw [exec_prtBevWrite v (by decide) h, State.bevWrite, if_neg (by decide), if_pos rfl]
    exact goesTo_ok ⟨rfl, rfl, rfl⟩

end Sys2Proof.Machine
end

section
/-! PROOFS. Routers, links, trackers, base dies and republishing (R208 to R244; O26). -/

namespace Sys2Proof.Machine

open Sys2Proof.Safety (Blk Only GoesTo Served HltFree)

/-! ### Flights by their number -/

theorem lget?_lset {α : Type} (v : α) : ∀ (l : List α) (k j : Nat), k < l.length → lget? (lset l k v) j = if j = k then some v else lget? l j
  | _ :: _, 0, 0, _ => rfl
  | _ :: _, 0, _ + 1, _ => rfl
  | _ :: _, _ + 1, 0, _ => rfl
  | _ :: xs, k + 1, j + 1, h => by
    rw [lset, lget?, lget?_lset v xs k j (Nat.lt_of_succ_lt_succ h), lget?]
    simp
theorem lt_length_of_lget? {α : Type} : ∀ {l : List α} {k : Nat} {v : α}, lget? l k = some v → k < l.length
  | _ :: _, 0, _, _ => Nat.succ_pos _
  | _ :: _, _ + 1, _, h => Nat.succ_lt_succ (lt_length_of_lget? h)
theorem State.setFlight_flight {s : State} {i : Nat} {f : Flight} (h : s.flight i = some f) (g : Flight) (j : Nat) : (s.setFlight i g).flight j = if j = i then some g else s.flight j :=
  lget?_lset g s.fab.flights i j (lt_length_of_lget? h)
theorem onFlight_of {s : State} {i : Nat} {f : Flight} (h : s.flight i = some f) (k : Flight → Out) : onFlight s i k = k f := by
  rw [onFlight, h]

/-! ### Hops (R230 to R237) -/

theorem State.mayswitch_of_published {s : State} (h : s.fab.republishing = false) (p : Nat) : s.mayswitch p = s := by
  unfold State.mayswitch
  rw [h]
  rfl
theorem exec_routerHop {i p row pos : Nat} {f : Flight} {env : HopEnv} {s : State} (hf : s.flight i = some f) (hat : f.place = .router p row pos) (hpar : env.parityBad = false) (hhops : f.pkt.hops < 1023) :
    exec (.routerHop i env) s = ok (s.hopMove i f p row pos env.starved) := by
  have hexec : exec (.routerHop i env) s = execRouterHop i env s := rfl
  rw [hexec, execRouterHop, onFlight_of hf, hat]
  dsimp only
  rw [if_neg (by rw [hpar]; decide), if_neg (not_le.2 hhops)]
theorem exec_routerHop_loops {i p row pos : Nat} {f : Flight} {env : HopEnv} {s : State} (hf : s.flight i = some f) (hat : f.place = .router p row pos) (hpar : env.parityBad = false) (hhops : 1023 ≤ f.pkt.hops) :
    let loop : Ev := { code := 0x0203, part := (s.site p).part.getD 0, kind := 2, source := s.siteSource p, d0 := pktWord0 f.pkt, d1 := f.pkt.dest.toNat }
    exec (.routerHop i env) s = .next (((s.dropFlight i).modCnt p fun c => { c with shop := satAdd c.shop 1 }).raise2 loop { loop with cont := true, d0 := f.pkt.src.toNat, d1 := 0 }) := by
  intro loop
  have hexec : exec (.routerHop i env) s = execRouterHop i env s := rfl
  have hpart : (((s.dropFlight i).modCnt p fun c => { c with shop := satAdd c.shop 1 }).site p).part = (s.site p).part := by
    rw [State.modCnt_site, if_pos rfl]
    rfl
  rw [hexec, execRouterHop, onFlight_of hf, hat]
  dsimp only
  rw [if_neg (by rw [hpar]; decide), if_pos hhops, hpart]
  rfl
theorem routerHop_moves {i p row pos : Nat} {f : Flight} {starved : Bool} {s : State} (hf : s.flight i = some f) (hpub : s.fab.republishing = false) {link : Option LinkId} {to_ : Place} {esc : Bool}
    (hplan : s.hopPlan f p row pos starved = .go link to_ esc) :
    let f1 := { f with pkt := { f.pkt with hops := f.pkt.hops + 1 } }
    (s.granted f p row pos link = true → let u := s.hopMove i f p row pos starved
      u.flight i = some { f1 with place := to_, escape := esc, via := link.orElse fun _ => f.via } ∧ (∀ j, j ≠ i → u.flight j = s.flight j) ∧ u.sites = s.sites ∧ u.tiles = s.tiles) ∧
    (s.granted f p row pos link = false → s.hopMove i f p row pos starved = s) := by
  intro f1
  unfold State.hopMove
  dsimp only
  rw [State.mayswitch_of_published hpub, hplan]
  dsimp only
  refine ⟨fun hg => ?_, fun hg => if_neg (Bool.eq_false_iff.1 hg)⟩
  rw [if_pos hg]
  exact ⟨(State.setFlight_flight hf _ i).trans (if_pos rfl), fun j hj => (State.setFlight_flight hf _ j).trans (if_neg hj), rfl, rfl⟩

/-! ### Links (R208, R241, R242) -/

theorem exec_flitRefused {l : LinkId} {i k : Nat} {f : Flight} {crc : W16} {d : List Nat} {s : State} (hf : s.flight i = some f) (hl : linkExists l = true) (hup : s.linkDown l = false) (hheads : s.heads f l = true)
    (hk : k < Packet_flits f.pkt) : exec (.flitRefused l ⟨i, k, crc, d⟩) s =
      (let n := match s.fab.refused.find? fun r => r.of l f.pkt k with
        | some r => r.n
        | none => 0
      if crc = crc16 (flitBytes f.pkt k) then ok (s.modFab fun b => { b with refused := s.fab.refused.filter fun r => r.link != l })
      else if 8 ≤ n then ok (s.linkFails l i k d)
      else ok (s.modFab fun b => { b with refused := (s.fab.refused.filter fun r => r.link != l) ++ [{ link := l, src := f.pkt.src, ctx := f.pkt.ctx, seq := f.pkt.seq, flit := k, n := n + 1 }] })) := by
  have hexec : exec (.flitRefused l ⟨i, k, crc, d⟩) s = execFlitRefused l ⟨i, k, crc, d⟩ s := rfl
  rw [hexec, execFlitRefused, onFlight_of hf]
  dsimp only
  rw [if_neg (by simp [hl, hup, hheads, hk])] <;> rfl
theorem State.doubtful_down (l : LinkId) : ∀ (ds : List (Nat × Crossed)) (s : State), (s.doubtful l ds).fab.down = s.fab.down
  | [], _ => rfl
  | (i, c) :: r, s => by
    have ih := State.doubtful_down l r s
    unfold State.doubtful
    dsimp only
    split
    · exact ih
    · split
      · exact ih
      · exact ih
      · exact ih
theorem State.linkFails_down (s : State) (l : LinkId) (i k : Nat) (d : List Nat) : (s.linkFails l i k d).fab.down = s.fab.down ++ [linkRouter l] := by
  unfold State.linkFails
  dsimp only
  rw [State.raiseSite, State.raise_fab]
  exact congrArg (· ++ [linkRouter l]) (State.doubtful_down ..)

theorem exec_linkUp {l : LinkId} {fails : List Nat} {s : State} (hl : linkExists l = true) (hdown : s.linkDown l = true) (hdead : s.fab.dead.any (sameLink l) = false) :
    exec (.linkUp ⟨l, fails⟩) s = if passes l fails then
        ok (((s.spares l fails).modFab fun f => { f with down := f.down.filter fun m => !sameLink l m }).raiseSite 0x0201 (linkRouter l).site (linkWord l) 0)
      else if linkKind l = 0 then ok (s.modFab fun f => { f with dead := f.dead ++ [linkRouter l] })
      else ok s := by
  have hexec : exec (.linkUp ⟨l, fails⟩) s = execLinkUp ⟨l, fails⟩ s := rfl
  rw [hexec, execLinkUp]
  dsimp only
  rw [hl, hdown, hdead]
  rfl
theorem seamRetrain_goesTo {l : LinkId} {fails : List Nat} {s : State} (hl : linkExists l = true) (hkind : linkKind l = 1) (hup : s.linkDown l = false) (hpass : passes l fails = true) :
    GoesTo (exec (.seamRetrain l fails) s) fun u => u.fab.flights = s.fab.flights ∧ u.fab.down = s.fab.down ∧ (linkRouter l, fails) ∈ u.fab.wires ∧ Only [.fab] s u := by
  have hexec : exec (.seamRetrain l fails) s = execSeamRetrain l fails s := rfl
  rw [hexec, execSeamRetrain, if_pos (by rw [hl, hkind, hup, hpass]; rfl)]
  exact goesTo_ok ⟨rfl, rfl, List.mem_append_right _ (List.mem_singleton.2 rfl), rfl⟩

/-! ### Trackers (R227, R228) -/

theorem Tile.trkError_field {α : Type} (π : Tile → α) (hld : ∀ T l, π { T with ld := l } = π T) (hctr : ∀ T l, π { T with ctrs := l } = π T) (hcore : ∀ T l, π { T with cores := l } = π T)
    (T : Tile) (k status : Nat) : π (T.trkError k status) = π T := by
  unfold Tile.trkError
  dsimp only
  split
  · exact hld T T.ld.gotErr
  · exact (hcore (T.bump (T.trk k).ctr 1) _).trans (hctr T _)
theorem Tile.trkError_core {T : Tile} {k : Nat} (h : (T.trk k).loader = false) (status : Nat) :
    (T.trkError k status).ctr (T.trk k).ctr = { T.ctr (T.trk k).ctr with value := (T.ctr (T.trk k).ctr).value + 1 } ∧ (∀ j, j ≠ (T.trk k).ctr → (T.trkError k status).ctr j = T.ctr j) ∧
      (T.trkError k status).core (T.trk k).core = (T.core (T.trk k).core).gerr status := by
  unfold Tile.trkError
  rw [if_neg (by rw [h]; decide)]
  refine ⟨?_, fun j hj => ?_, ?_⟩
  · exact (T.setCtr_ctr _ _ _).trans (if_pos rfl)
  · exact (T.setCtr_ctr _ _ _).trans (if_neg hj)
  · exact ((T.bump (T.trk k).ctr 1).modCore_core _ _ _).trans (if_pos rfl)
theorem Tile.trkError_loader {T : Tile} {k : Nat} (h : (T.trk k).loader = true) (status : Nat) : T.trkError k status = { T with ld := { T.ld with readErr := true } } := by
  unfold Tile.trkError
  rw [if_pos h]
  rfl

theorem trackerTimeout_goesTo {t k : Nat} {s : State} (ht : t < 32768) (hk : k < 32) (hlive : ((s.tile t).trk k).st = .live) (hpark : s.parksTile t = false)
    (hdue : ((s.tile t).trk k).since + s.rtoNs ((s.tile t).trk k).part ≤ s.time) :
    let x := (s.tile t).trk k
    GoesTo (exec (.trackerTimeout t k) s) fun u => (u.tile t).trk k = { x with st := .ended, since := s.time } ∧ (∀ j, j ≠ k → (u.tile t).trk j = (s.tile t).trk j) ∧
      (u.tile t).fabTimeout = (s.tile t).fabTimeout + 1 ∧ (u.tile t).sram = (s.tile t).sram ∧ (∀ n, n ≠ t → u.tile n = s.tile n) ∧
      (x.loader = false → ((u.tile t).ctr x.ctr).value = ((s.tile t).ctr x.ctr).value + 1 ∧ u.core t x.core = (s.core t x.core).gerr stTimeout) ∧
      (x.loader = true → (u.tile t).ld = { (s.tile t).ld with readErr := true }) := by
  intro x
  have hexec : exec (.trackerTimeout t k) s = execTrackerTimeout t k s := rfl
  rw [hexec, execTrackerTimeout, onTile, if_pos ht]
  dsimp only
  rw [if_pos ⟨hk, hlive, hpark, hdue⟩]
  have htrks (j : Nat) : ((s.tile t).trkError k stTimeout).trk j = (s.tile t).trk j :=
    Tile.trkError_field (fun T => T.trk j) (fun _ _ => rfl) (fun _ _ => rfl) (fun _ _ => rfl) ..
  refine goesTo_ok ⟨?_, fun j hj => ?_, ?_, ?_, fun n hn => ?_, fun hl => ⟨?_, ?_⟩, fun hl => ?_⟩
  case refine_5 => rw [State.modTile_tile, if_neg hn]
  case refine_7 =>
    rw [State.core, State.modTile_tile, if_pos rfl]
    exact (Tile.trkError_core hl stTimeout).2.2
  all_goals rw [State.modTile_tile, if_pos rfl]
  · exact ((((s.tile t).trkError k stTimeout).setTrk_trk k k { x with st := .ended, since := s.time }).trans (if_pos rfl) :)
  · exact (((((s.tile t).trkError k stTimeout).setTrk_trk k j { x with st := .ended, since := s.time }).trans (if_neg hj)).trans (htrks j) :)
  · exact Tile.trkError_field Tile.sram (fun _ _ => rfl) (fun _ _ => rfl) (fun _ _ => rfl) ..
  · exact (congrArg Ctr.value (Tile.trkError_core hl stTimeout).1 :)
  · exact (congrArg Tile.ld (Tile.trkError_loader hl stTimeout) :)

theorem State.loaderAsk_of_idle {s : State} {t : Nat} (h : (s.tile t).ld.cur = none) (fuel : Nat) : s.loaderAsk t fuel = s := by
  cases fuel with
  | zero => rfl
  | succ fuel =>
    unfold State.loaderAsk
    dsimp only
    rw [h]
theorem exec_trackerReuse {t k : Nat} {s : State} (ht : t < 32768) (hend : ((s.tile t).trk k).st = .ended) (hdue : ((s.tile t).trk k).since + 4 * s.rtoNs ((s.tile t).trk k).part ≤ s.time) :
    exec (.trackerReuse t k) s = .next ((s.modTile t fun T => T.setTrk k {}).loaderAsk t 17) := by
  have hexec : exec (.trackerReuse t k) s = execTrackerReuse t k s := rfl
  rw [hexec, execTrackerReuse, onTile, if_pos ht]
  exact if_pos ⟨hend, hdue⟩

/-! ### Republishing (R234) -/

theorem hltGate_none_of_free {s : State} (h : HltFree s) (k : State → Out) : hltGate s 0 none k = k (s.modHlt fun h => { h with err := false, ecode := 0 }) := by
  obtain ⟨⟨⟨hreach, hses⟩, hsv⟩, hbusy⟩ := h
  unfold hltGate
  simp [hreach, hses, hsv, hbusy]
/-- What a publication's begin sends over the service lane is no more than a packet of its own (R235). -/
theorem State.svcSend_frame (s : State) : s.svcSend.hlt = s.hlt ∧ s.svcSend.fab.republishing = s.fab.republishing ∧ s.svcSend.fab.gen = s.fab.gen ∧ s.svcSend.sites = s.sites ∧ s.svcSend.tiles = s.tiles := by
  unfold State.svcSend
  dsimp only
  split <;> exact ⟨rfl, rfl, rfl, rfl, rfl⟩
theorem republish_goesTo {s : State} (h : HltFree s) : GoesTo (exec (.republish 0) s) fun u =>
    u.hlt.busy = true ∧ u.fab.republishing = true ∧ u.fab.gen = s.fab.gen + 1 ∧ u.sites = s.sites ∧ u.tiles = s.tiles := by
  have hexec : exec (.republish 0) s = execRepublish 0 s := rfl
  rw [hexec, execRepublish, hltGate_none_of_free h]
  refine goesTo_ok ?_
  obtain ⟨hhlt, hrep, hgen, hsites, htiles⟩ := State.svcSend_frame
    ((((s.modHlt fun h => { h with err := false, ecode := 0 }).modHlt fun h => { h with busy := true }).newTables).modFab fun f => { f with republishing := true })
  exact ⟨congrArg Hlt.busy hhlt, hrep, hgen, hsites, htiles⟩

/-- Every home table is computed anew (R234). -/
def State.homesIn (s : State) : State :=
  allParts.foldl (fun s q =>
    if (s.partn q).st = .undefined then s
    else
      let h := s.homeTable q
      if h = (s.partn q).home then s else (s.invalidatePart q).modPart q fun x => { x with home := h }) s
/-- The newest tables reach site `p`, where it is not DARK (R234). -/
def State.tableIn (s : State) (p : Nat) : State :=
  if (s.site p).st = .dark ∨ (s.site p).routeGen = s.fab.gen then s else s.modSite p fun x => { x with routeGen := s.fab.gen, badRoutes := [] }
theorem State.tablesIn_eq (s : State) : s.tablesIn = (rangeFrom 0 272).foldl State.tableIn s.homesIn := rfl
theorem State.invalidateSlice_st (s : State) (p q : Nat) : ((s.invalidateSlice p).site q).st = (s.site q).st := by
  rw [State.invalidateSlice, State.modSite_site]
  split
  · next h => rw [h]
  · rfl
theorem State.invalidatePart_st (s : State) (q p : Nat) : ((s.invalidatePart q).site p).st = (s.site p).st :=
  BesideEvents.foldl (π := fun s : State => (s.site p).st) (fun s i => s.invalidateSlice_st i p) _ s
theorem State.homesIn_st (s : State) (p : Nat) : (s.homesIn.site p).st = (s.site p).st := by
  refine BesideEvents.foldl (π := fun s : State => (s.site p).st) (fun s q => ?_) _ s
  split
  · rfl
  · dsimp only
    split
    · rfl
    · exact s.invalidatePart_st q p
theorem State.homesIn_only (s : State) : Only [.sites, .parts] s s.homesIn := only_of_outside (by intros; simp [State.homesIn])
theorem State.tableIn_only (s : State) (p : Nat) : Only [.sites] s (s.tableIn p) := only_of_outside (by intros; simp [State.tableIn])
theorem State.tableIn_st (s : State) (p q : Nat) : ((s.tableIn p).site q).st = (s.site q).st := by
  unfold State.tableIn
  split
  · rfl
  · rw [State.modSite_site]
    split
    · next h => rw [h]
    · rfl
theorem State.tableIn_routeGen (s : State) (p q : Nat) : ((s.tableIn p).site q).routeGen = if q = p ∧ (s.site p).st ≠ .dark then s.fab.gen else (s.site q).routeGen := by
  unfold State.tableIn
  by_cases hd : (s.site p).st = .dark
  · rw [if_pos (.inl hd), if_neg (fun h => h.2 hd)]
  · by_cases hg : (s.site p).routeGen = s.fab.gen
    · rw [if_pos (.inr hg)]
      split
      · next h => rw [h.1, hg]
      · rfl
    · rw [if_neg (not_or.2 ⟨hd, hg⟩), State.modSite_site]
      by_cases hq : q = p <;> simp [hq, hd]
/-- A site that is not DARK and that the newest tables have reached, or reach now, holds them. -/
theorem State.tableIn_foldl_routeGen (l : List Nat) (s : State) {p : Nat} (hdark : (s.site p).st ≠ .dark) (h : p ∈ l ∨ (s.site p).routeGen = s.fab.gen) :
    ((l.foldl State.tableIn s).site p).routeGen = s.fab.gen := by
  induction l generalizing s with
  | nil => simpa using h
  | cons q l ih =>
    have hgen : (s.tableIn q).fab.gen = s.fab.gen := congrArg Fabric.gen (fab_of_only (s.tableIn_only q) (by decide))
    rw [List.foldl_cons, ← hgen]
    refine ih _ (by rw [s.tableIn_st]; exact hdark) ?_
    rw [s.tableIn_routeGen, hgen]
    rcases h with h | h
    · rcases List.mem_cons.1 h with h | h
      · exact .inr (if_pos ⟨h, by rw [← h]; exact hdark⟩)
      · exact .inl h
    · refine .inr ?_
      split
      · rfl
      · exact h
theorem State.tablesIn_only (s : State) : Only [.sites, .parts] s s.tablesIn := only_of_outside (by intros; simp)
theorem State.tablesIn_routeGen {s : State} {p : Nat} (hp : p < 272) (hdark : (s.site p).st ≠ .dark) : (s.tablesIn.site p).routeGen = s.fab.gen := by
  rw [State.tablesIn_eq, State.tableIn_foldl_routeGen _ _ (by rw [s.homesIn_st]; exact hdark) (.inl (mem_rangeFrom.2 ⟨Nat.zero_le _, by omega⟩))]
  exact congrArg Fabric.gen (fab_of_only s.homesIn_only (by decide))

/-- Settles O26: routers, links, trackers, base dies and republishing. -/
theorem routersAndLinksComplete : Obligations.RoutersAndLinksComplete := by
  refine ⟨fun i p row pos f env s hf hat hpar => ?_, fun p idx s hp => ?_, fun l i k f crc d s hf hl hup hheads hk => ?_, fun l fails s hl hdown hdead => ?_, fun l fails s => seamRetrain_goesTo,
    fun t k s => trackerTimeout_goesTo, fun t k s ht hend hdue => ?_, fun p s hp => ?_, fun s => republish_goesTo, fun s hrep hsv => ?_⟩
  · intro f1 loop
    refine ⟨fun hhops hpub => ⟨fun link to_ esc hplan hg => ?_, fun link to_ esc hplan hg => ?_, fun hplan => ?_, fun hplan => ?_, fun hplan => ?_⟩, exec_routerHop_loops hf hat hpar⟩
    · exact goesTo_of_eq (exec_routerHop hf hat hpar hhops) ((routerHop_moves hf hpub hplan).1 hg)
    · exact (exec_routerHop hf hat hpar hhops).trans (congrArg ok ((routerHop_moves hf hpub hplan).2 hg))
    all_goals
      rw [exec_routerHop hf hat hpar hhops, State.hopMove]
      dsimp only
      rw [State.mayswitch_of_published hpub, hplan]
      rfl
  · have hexec : exec (.routeEntryRewrite p idx) s = execRouteEntryRewrite p idx s := rfl
    rw [hexec, execRouteEntryRewrite, onSite, if_pos hp]
    exact ⟨fun hbad => if_pos hbad, fun hgood hidx hgen => (if_neg (Bool.eq_false_iff.1 hgood)).trans (if_pos ⟨hidx, hgen⟩)⟩
  · intro failed
    rw [exec_flitRefused hf hl hup hheads hk]
    exact ⟨fun hcrc hfew => (if_neg hcrc).trans (if_neg (not_le.2 hfew)), fun hcrc hmany => ⟨(if_neg hcrc).trans (if_pos hmany), s.linkFails_down ..⟩, fun hcrc => if_pos hcrc⟩
  · rw [exec_linkUp hl hdown hdead]
    exact ⟨fun hp => if_pos hp, fun hp hk => (if_neg (Bool.eq_false_iff.1 hp)).trans (if_pos hk), fun hp hk => (if_neg (Bool.eq_false_iff.1 hp)).trans (if_neg hk)⟩
  · refine ⟨exec_trackerReuse ht hend hdue, fun hidle => ?_⟩
    rw [exec_trackerReuse ht hend hdue, State.loaderAsk_of_idle]
    rw [State.modTile_tile, if_pos rfl]
    exact hidle
  · have hexec : exec (.baseDieFault p) s = execBaseDieFault p s := rfl
    rw [hexec, execBaseDieFault, onSite, if_pos hp, State.promise_site]
    exact ⟨rfl, (s.darken_self p).1⟩
  · have hexec : exec .republishDone s = execRepublishDone s := rfl
    have hgen : s.tablesIn.fab.gen = s.fab.gen := congrArg Fabric.gen (fab_of_only s.tablesIn_only (by decide))
    have hroutes (p : Nat) (hp : p < 272) (hdark : (s.site p).st ≠ .dark) : (s.tablesIn.site p).routeGen = s.fab.gen := State.tablesIn_routeGen hp hdark
    rw [hexec, execRepublishDone, if_pos (by rw [hrep, hsv]; rfl)]
    dsimp only
    generalize s.tablesIn = u at hgen hroutes ⊢
    exact ⟨rfl, hgen, rfl, rfl, hroutes⟩

end Sys2Proof.Machine
end

section
/-! PROOFS. Packets at tiles, control ports and edge dies: writes, list ports and owners (R157 to R162, R217, R270 to R283, R325; O22, O23, O24). -/

namespace Sys2Proof.Machine

open Sys2Proof.Safety (Blk Only GoesTo AtTile toldAt)

/-! ### What a request meets before it is served -/

theorem State.tell_fab (s : State) (ep c : Nat) : (s.tell ep c).fab = s.fab := fab_of_only (s.tell_only ep c) (by decide)
theorem State.dropFlight_flights (s : State) (i : Nat) : (s.dropFlight i).fab.flights = ldel s.fab.flights i := rfl
theorem toldAt_fab (s : State) (f : Flight) (t : Nat) : (toldAt s f t).fab = s.fab := State.tell_fab ..
theorem toldAt_dropFlight_flights (s : State) (f : Flight) (t i : Nat) : ((toldAt s f t).dropFlight i).fab.flights = ldel s.fab.flights i := by
  rw [State.dropFlight_flights, toldAt_fab]
theorem toldAt_dropFlight_tile (s : State) (f : Flight) (t i n : Nat) : ((toldAt s f t).dropFlight i).tile n = s.tile n := toldAt_tile s f t n

/-- A request that has arrived at a tile which serves it is served, once its endpoint has been told of a restart (R222). -/
theorem atTile_of {s : State} {i t : Nat} {f : Flight} (h : AtTile s i f t) (k : State → Out) : atTile s i f t k = k (toldAt s f t) := by
  obtain ⟨-, -, harr, hfate⟩ := h
  have htell : s.tell (s.tilePhys t) f.pkt.ctx = toldAt s f t := rfl
  rw [atTile, harr]
  dsimp only
  rw [htell, hfate]
  rfl
theorem writeAt_of {s : State} {i t kind : Nat} {f : Flight} (h : AtTile s i f t) (hop : f.pkt.opc = .write) (hkind : writeKind (s.tile t).guarded f.pkt = kind) :
    writeAt i kind s = ok ((toldAt s f t).writeTile i f t) := by
  obtain ⟨hflight, hgoal, -, -⟩ := id h
  rw [writeAt, onFlight_of hflight, hgoal]
  dsimp only
  rw [if_pos ⟨hop, hkind⟩, atTile_of h]

/-! ### Bytes that land (R217, R254) -/

/-- With no uncorrectable word that the bytes cover in part, they land as they are. -/
theorem guardBytes_of_partBad_nil {bad : List Nat} {a n : Nat} (h : partBad bad a n = []) (m : Mem) :
    ∀ (bs : List Byte) (j : Nat), j + bs.length = n → guardBytes m bad a (a + n) (a + j) bs = bs
  | [], _, _ => rfl
  | b :: bs, j, hj => by
    rw [List.length_cons] at hj
    have ih := guardBytes_of_partBad_nil h m bs (j + 1) (by omega)
    have hb : (bad.contains ((a + j) / 8) && !decide (a ≤ (a + j) / 8 * 8 ∧ (a + j) / 8 * 8 + 8 ≤ a + n)) = false := by
      rw [Bool.eq_false_iff]
      intro hbad
      rw [Bool.and_eq_true, List.contains_iff_mem, Bool.not_eq_true', decide_eq_false_iff_not] at hbad
      have hmem : (a + j) / 8 ∈ partBad bad a n := by
        rw [partBad, List.mem_filter, Bool.and_eq_true, decide_eq_true_eq, Bool.not_eq_true', decide_eq_false_iff_not]
        exact ⟨hbad.1, ⟨Nat.div_le_div_right (by omega), Nat.div_le_div_right (by omega)⟩, hbad.2⟩
      rw [h] at hmem
      exact List.not_mem_nil hmem
    rw [guardBytes, hb, if_neg Bool.false_ne_true]
    exact congrArg (b :: ·) ih
theorem State.sramUes_nil (s : State) (t : Nat) : s.sramUes t [] = s := rfl
theorem State.sramStore_of_none_held {s : State} {t : Nat} (h : (s.tile t).recsHeld = []) (a : Nat) (bs : List Byte) : s.sramStore t a bs = s.setTile t ((s.tile t).sramPut a bs) := by
  unfold State.sramStore
  dsimp only
  rw [h]
  rfl
/-- Bytes that land in tile SRAM beside no uncorrectable word and no predict record in use. -/
theorem State.landSram_of_good {s : State} {t a : Nat} {bs : List Byte} (hbad : partBad (s.tile t).badSram a bs.length = []) (hrec : (s.tile t).recsHeld = []) :
    s.landSram t a bs = (s.setTile t ((s.tile t).sramPut a bs)).modTile t fun T => T.hitResv (0x1000000 + a) bs.length := by
  have hguard : guardBytes (s.tile t).sram (s.tile t).badSram a (a + bs.length) a bs = bs := guardBytes_of_partBad_nil hbad _ bs 0 (Nat.zero_add _)
  unfold State.landSram
  dsimp only
  rw [hbad, hguard, State.sramStore_of_none_held hrec, State.sramUes_nil]
/-- The same in scratch. -/
theorem State.landScr_of_good {s : State} {t a : Nat} {bs : List Byte} (hbad : partBad (s.tile t).badScr a bs.length = []) :
    s.landScr t a bs = s.setTile t (((s.tile t).scrPut a bs).hitResv a bs.length) := by
  have hguard : guardBytes (s.tile t).scr (s.tile t).badScr a (a + bs.length) a bs = bs := guardBytes_of_partBad_nil hbad _ bs 0 (Nat.zero_add _)
  unfold State.landScr
  dsimp only
  rw [hbad, hguard, State.sramUes_nil]

/-! ### Parts of a tile that bytes leave alone -/

/-- The tile's counters, list ports, trackers, registers and state: all but its memories and what goes with them. -/
def Tile.besideMem (T : Tile) : Tile :=
  { T with sram := [], scr := [], scrCopy := [], badSram := [], badScr := [], flips := [], sramCorr := 0, scrCorr := 0, merge := [], eng := {}, cores := [] }
section
variable (T : Tile) (a n : Nat) (bs : List Byte)
theorem Tile.overwrite_besideMem : (T.overwrite a n).besideMem = T.besideMem := rfl
theorem Tile.sramPut_besideMem : (T.sramPut a bs).besideMem = T.besideMem := rfl
theorem Tile.withScr_besideMem (m m' : Mem) (l : List Nat) : ({ T with scr := m, scrCopy := m', badScr := l } : Tile).besideMem = T.besideMem := rfl
theorem Tile.scrPut_besideMem : (T.scrPut a bs).besideMem = T.besideMem := by
  unfold Tile.scrPut
  dsimp only
  split
  · refine (Tile.withScr_besideMem _ _ _ _).trans ?_
    rw [Tile.overwrite_besideMem, Tile.overwrite_besideMem]
  · refine (Tile.withScr_besideMem _ _ _ _).trans ?_
    rw [Tile.overwrite_besideMem]
theorem Tile.hitResv_besideMem : (T.hitResv a n).besideMem = T.besideMem := rfl
theorem Tile.sramPut_sram : (T.sramPut a bs).sram = memPutList T.sram a bs := rfl
theorem Tile.sramPut_scr : (T.sramPut a bs).scr = T.scr := rfl
theorem Tile.scrPut_scr : (T.scrPut a bs).scr = memPutList T.scr a bs := rfl
theorem Tile.scrPut_sram : (T.scrPut a bs).sram = T.sram := by
  unfold Tile.scrPut
  dsimp only
  split <;> rfl
end

/-- What a run of bytes written leaves of a memory, and where it stands. -/
theorem memPutList_reads (m : Mem) (a : Nat) (bs : List Byte) :
    memGetList (memPutList m a bs) a bs.length = bs ∧ ∀ j, j < a ∨ a + bs.length ≤ j → memGet (memPutList m a bs) j = memGet m j :=
  ⟨memGetList_memPutList .., fun j hj => memGet_memPutList_other _ _ _ j hj⟩

/-! ### WRITE and CNT (R217) -/

theorem Tile.land_ctr (T : Tile) (k j : Nat) (last : Bool) (total : W32) :
    (T.land_ k last total).ctr j = if j = k then { value := (T.ctr k).value + 1, target := if last then total else (T.ctr k).target } else T.ctr j := Tile.setCtr_ctr ..

theorem exec_write_sram {s : State} {i t : Nat} {f : Flight} (h : AtTile s i f t) (hop : f.pkt.opc = .write) (hspace : aSpace f.pkt.dest = 0) (hin : aOff f.pkt.dest + f.pkt.payload.length ≤ sramSize) :
    exec (.write i) s = .next ((((toldAt s f t).dropFlight i).landSram t (aOff f.pkt.dest) f.pkt.payload).modTile t fun T => T.land_ f.pkt.dctr f.pkt.last f.pkt.total) := by
  have hkind : writeKind (s.tile t).guarded f.pkt = 0 := by rw [writeKind, if_neg (by rw [hspace]; decide)]
  refine (writeAt_of h hop hkind).trans ?_
  unfold State.writeTile
  dsimp only
  rw [if_pos hspace, if_pos hin]
  rfl
theorem exec_write_scratch {s : State} {i t : Nat} {f : Flight} (h : AtTile s i f t) (hop : f.pkt.opc = .write) (hspace : aSpace f.pkt.dest = 1)
    (hwin : windowOf (s.tile t).guarded (aOff f.pkt.dest) f.pkt.payload.length = .scratch) :
    exec (.write i) s = .next ((((toldAt s f t).dropFlight i).landScr t (aOff f.pkt.dest) f.pkt.payload).modTile t fun T => T.land_ f.pkt.dctr f.pkt.last f.pkt.total) := by
  have hkind : writeKind (s.tile t).guarded f.pkt = 0 := by rw [writeKind, if_pos hspace, hwin]
  refine (writeAt_of h hop hkind).trans ?_
  unfold State.writeTile State.ctlWrite
  dsimp only
  rw [if_neg (by rw [hspace]; decide), toldAt_dropFlight_tile, toldAt_tile, hwin]
  rfl
theorem write_lands {s : State} {i t : Nat} {f : Flight} (h : AtTile s i f t) (hop : f.pkt.opc = .write) (hspace : aSpace f.pkt.dest = 0) (hin : aOff f.pkt.dest + f.pkt.payload.length ≤ sramSize)
    (hbad : partBad (s.tile t).badSram (aOff f.pkt.dest) f.pkt.payload.length = []) (hrec : (s.tile t).recsHeld = []) :
    GoesTo (exec (.write i) s) fun u =>
      memGetList (u.tile t).sram (aOff f.pkt.dest) f.pkt.payload.length = f.pkt.payload ∧
      (∀ a, a < aOff f.pkt.dest ∨ aOff f.pkt.dest + f.pkt.payload.length ≤ a → memGet (u.tile t).sram a = memGet (s.tile t).sram a) ∧
      (u.tile t).ctr f.pkt.dctr = { value := ((s.tile t).ctr f.pkt.dctr).value + 1, target := if f.pkt.last then f.pkt.total else ((s.tile t).ctr f.pkt.dctr).target } ∧
      (∀ k, k ≠ f.pkt.dctr → (u.tile t).ctr k = (s.tile t).ctr k) ∧
      (u.tile t).scr = (s.tile t).scr ∧ (∀ n, n ≠ t → u.tile n = s.tile n) ∧ u.fab.flights = ldel s.fab.flights i := by
  have htile := toldAt_dropFlight_tile s f t i
  refine goesTo_of_eq (exec_write_sram h hop hspace hin) ?_
  rw [State.landSram_of_good (by rw [htile]; exact hbad) (by rw [htile]; exact hrec), htile]
  refine ⟨?_, fun a ha => ?_, ?_, fun k hk => ?_, ?_, fun n hn => ?_, toldAt_dropFlight_flights s f t i⟩
  case refine_6 => rw [State.modTile_tile, if_neg hn, State.modTile_tile, if_neg hn, State.setTile_tile, if_neg hn, htile]
  all_goals rw [State.modTile_tile, if_pos rfl, State.modTile_tile, if_pos rfl, State.setTile_tile, if_pos rfl]
  · exact (memPutList_reads ..).1
  · exact (memPutList_reads ..).2 a ha
  · exact (Tile.land_ctr ..).trans (if_pos rfl)
  · exact (Tile.land_ctr ..).trans (if_neg hk)
  · rfl
theorem cnt_lands {s : State} {i t : Nat} {f : Flight} (h : AtTile s i f t) (hop : f.pkt.opc = .cnt) (hspace : aSpace f.pkt.dest = 1) :
    GoesTo (exec (.cnt i) s) fun u =>
      (u.tile t).ctr f.pkt.dctr = { value := ((s.tile t).ctr f.pkt.dctr).value + 1, target := if f.pkt.last then f.pkt.total else ((s.tile t).ctr f.pkt.dctr).target } ∧
      (∀ k, k ≠ f.pkt.dctr → (u.tile t).ctr k = (s.tile t).ctr k) ∧
      (u.tile t).sram = (s.tile t).sram ∧ (u.tile t).scr = (s.tile t).scr ∧ (∀ n, n ≠ t → u.tile n = s.tile n) ∧ u.fab.flights = ldel s.fab.flights i := by
  obtain ⟨hflight, hgoal, -, -⟩ := id h
  have hexec : exec (.cnt i) s = execCnt i s := rfl
  have htile := toldAt_dropFlight_tile s f t i
  rw [hexec, execCnt, onFlight_of hflight, hgoal]
  dsimp only
  rw [if_pos hop, atTile_of h, if_pos hspace]
  refine goesTo_ok ⟨?_, fun k hk => ?_, ?_, ?_, fun n hn => ?_, toldAt_dropFlight_flights s f t i⟩
  case refine_5 => rw [State.modTile_tile, if_neg hn, htile]
  all_goals rw [State.modTile_tile, if_pos rfl, htile]
  · exact (Tile.land_ctr ..).trans (if_pos rfl)
  · exact (Tile.land_ctr ..).trans (if_neg hk)
  · rfl
  · rfl

/-- Settles O22: WRITE and CNT land at a tile which serves them. -/
theorem writesLand : Obligations.WritesLand :=
  ⟨fun _ _ _ _ => exec_write_sram, fun _ _ _ _ => exec_write_scratch, fun _ _ _ _ => write_lands, fun _ _ _ _ => cnt_lands⟩

/-! ### List ports (R157 to R162) -/

theorem exec_listAppend {s : State} {i t p : Nat} {f : Flight} (h : AtTile s i f t) (hop : f.pkt.opc = .write) (hspace : aSpace f.pkt.dest = 1)
    (hwin : windowOf (s.tile t).guarded (aOff f.pkt.dest) f.pkt.payload.length = .append p) :
    exec (.listAppend i) s = .next (((toldAt s f t).dropFlight i).listWrote t p ((s.tile t).listAppend p f.pkt.payload) (f.pkt.payload.length % 8 != 0)) := by
  have hkind : writeKind (s.tile t).guarded f.pkt = 1 := by rw [writeKind, if_pos hspace, hwin]
  refine (writeAt_of h hop hkind).trans ?_
  unfold State.writeTile State.ctlWrite
  dsimp only
  rw [if_neg (by rw [hspace]; decide), toldAt_dropFlight_tile, toldAt_tile, hwin]
  rfl
theorem exec_listClose {s : State} {i t p : Nat} {f : Flight} (h : AtTile s i f t) (hop : f.pkt.opc = .write) (hspace : aSpace f.pkt.dest = 1)
    (hwin : windowOf (s.tile t).guarded (aOff f.pkt.dest) f.pkt.payload.length = .close p) :
    exec (.listClose i) s = .next (((toldAt s f t).dropFlight i).listWrote t p ((s.tile t).listClose p (leWord f.pkt.payload)) (decide (2 ^ 32 ≤ leWord f.pkt.payload))) := by
  have hkind : writeKind (s.tile t).guarded f.pkt = 2 := by rw [writeKind, if_pos hspace, hwin]
  refine (writeAt_of h hop hkind).trans ?_
  unfold State.writeTile State.ctlWrite
  dsimp only
  rw [if_neg (by rw [hspace]; decide), toldAt_dropFlight_tile, toldAt_tile, hwin]
  rfl
theorem exec_listArm {s : State} {i t : Nat} {f : Flight} (h : AtTile s i f t) (hop : f.pkt.opc = .write) (hspace : aSpace f.pkt.dest = 1)
    (hwin : windowOf (s.tile t).guarded (aOff f.pkt.dest) f.pkt.payload.length = .regs) (harms : armsList (aOff f.pkt.dest) f.pkt.payload = true) :
    exec (.listArm i) s = .next ((((toldAt s f t).dropFlight i).setTile t ((s.tile t).regsWrite (aOff f.pkt.dest) (f.pkt.payload.length / 4 + 1) f.pkt.payload)).modTile t
      fun T => T.land_ f.pkt.dctr f.pkt.last f.pkt.total) := by
  have hkind : writeKind (s.tile t).guarded f.pkt = 3 := by
    rw [writeKind, if_pos hspace, hwin]
    exact if_pos harms
  refine (writeAt_of h hop hkind).trans ?_
  unfold State.writeTile State.ctlWrite
  dsimp only
  rw [if_neg (by rw [hspace]; decide), toldAt_dropFlight_tile, toldAt_tile, hwin]
  rfl

theorem Tile.setList_self (T : Tile) (p : Nat) (x : ListPort) : (T.setList p x).list p = x := (T.setList_list p p x).trans (if_pos rfl)
/-- An entry of an armed port with room goes to BASE + 8 × ACC, and ACC rises (R158). -/
theorem Tile.listEntry_room {T : Tile} {p : Nat} {e : List Byte} (hcap : (T.list p).acc.toNat < (T.list p).cap) (hin : (T.list p).base + 8 * (T.list p).acc.toNat < sramSize) :
    T.listEntry p e = (((T.sramPut ((T.list p).base + 8 * (T.list p).acc.toNat) e).hitResv (0x1000000 + ((T.list p).base + 8 * (T.list p).acc.toNat)) e.length).setList p
      { T.list p with acc := (T.list p).acc + 1 }).bump (T.list p).actr 1 := by
  unfold Tile.listEntry
  dsimp only
  rw [if_pos hcap, if_pos hin]
theorem Tile.listCheck_of_open {T : Tile} {p : Nat} (h : (T.list p).closes < (T.list p).nsrc) : T.listCheck p = T := by
  unfold Tile.listCheck
  exact if_neg fun hc => absurd hc.1 (Nat.ne_of_lt h)
theorem Tile.listAppend_one {T : Tile} {p : Nat} {bs : List Byte} (hlen : bs.length = 8) (hen : (T.list p).en = true) (hclosed : (T.list p).closed = false) (hcap : (T.list p).acc.toNat < (T.list p).cap)
    (hin : (T.list p).base + 8 * (T.list p).acc.toNat < sramSize) (hopen : (T.list p).closes < (T.list p).nsrc) : T.listAppend p bs = { tile := T.listEntry p bs, drop := false } := by
  have hlist : (T.listEntry p bs).list p = { T.list p with acc := (T.list p).acc + 1 } := by
    rw [Tile.listEntry_room hcap hin]
    exact Tile.setList_self _ p { T.list p with acc := (T.list p).acc + 1 }
  unfold Tile.listAppend
  rw [hlen, show 8 / 8 = 1 from rfl]
  unfold ListHit.entries
  dsimp only
  rw [if_neg (by rw [hen, hclosed]; decide), List.take_of_length_le (Nat.le_of_eq hlen), Tile.listCheck_of_open (by rw [hlist]; exact hopen)]
  rfl

theorem listAppend_enters {s : State} {i t p : Nat} {f : Flight} (h : AtTile s i f t) (hop : f.pkt.opc = .write) (hspace : aSpace f.pkt.dest = 1)
    (hwin : windowOf (s.tile t).guarded (aOff f.pkt.dest) f.pkt.payload.length = .append p) (hlen : f.pkt.payload.length = 8) :
    let l := (s.tile t).list p
    l.en = true → l.closed = false → l.excess = false → l.acc.toNat < l.cap → l.base + 8 * l.acc.toNat + 8 ≤ sramSize → l.closes < l.nsrc →
    GoesTo (exec (.listAppend i) s) fun u =>
      memGetList (u.tile t).sram (l.base + 8 * l.acc.toNat) 8 = f.pkt.payload ∧ (u.tile t).list p = { l with acc := l.acc + 1 } ∧
      (∀ a, a < l.base + 8 * l.acc.toNat ∨ l.base + 8 * l.acc.toNat + 8 ≤ a → memGet (u.tile t).sram a = memGet (s.tile t).sram a) ∧
      (∀ n, n ≠ t → u.tile n = s.tile n) ∧ u.fab.flights = ldel s.fab.flights i := by
  intro l hen hclosed hexc hcap hin hopen
  have hin' : l.base + 8 * l.acc.toNat < sramSize := by omega
  have hlist : ((s.tile t).listEntry p f.pkt.payload).list p = { l with acc := l.acc + 1 } := by
    rw [Tile.listEntry_room hcap hin']
    exact Tile.setList_self _ p { l with acc := l.acc + 1 }
  have hsram : ((s.tile t).listEntry p f.pkt.payload).sram = memPutList (s.tile t).sram (l.base + 8 * l.acc.toNat) f.pkt.payload := by
    rw [Tile.listEntry_room hcap hin']
    rfl
  have hreads := memPutList_reads (s.tile t).sram (l.base + 8 * l.acc.toNat) f.pkt.payload
  rw [hlen] at hreads
  refine goesTo_of_eq (exec_listAppend h hop hspace hwin) ?_
  rw [Tile.listAppend_one hlen hen hclosed hcap hin' hopen, State.listWrote, State.listHit]
  dsimp only
  rw [if_neg Bool.false_ne_true, hlist, if_neg (by rw [hlen, show ({ l with acc := l.acc + 1 } : ListPort).excess = false from hexc]; decide)]
  refine ⟨?_, ?_, fun a ha => ?_, fun n hn => ?_, toldAt_dropFlight_flights s f t i⟩
  · rw [State.setTile_tile, if_pos rfl, hsram]
    exact hreads.1
  · rw [State.setTile_tile, if_pos rfl, hlist]
  · rw [State.setTile_tile, if_pos rfl, hsram]
    exact hreads.2 a ha
  · rw [State.setTile_tile, if_neg hn, toldAt_dropFlight_tile]

/-- Settles O23: appends, closes and arms of list ports. -/
theorem listWritesComplete : Obligations.ListWritesComplete := by
  unfold Obligations.ListWritesComplete
  intro goes
  exact ⟨fun _ _ _ _ _ ⟨h, hop, hspace, hwin⟩ => exec_listAppend h hop hspace hwin, fun _ _ _ _ _ ⟨h, hop, hspace, hwin⟩ => exec_listClose h hop hspace hwin,
    fun _ _ _ _ ⟨h, hop, hspace, hwin⟩ => exec_listArm h hop hspace hwin, fun _ _ _ _ _ ⟨h, hop, hspace, hwin⟩ hlen => listAppend_enters h hop hspace hwin hlen⟩

/-! ### Owners (R217, R270 to R283, R325) -/

theorem exec_read_tile {s : State} {i t : Nat} {f : Flight} (joins : Bool) (h : AtTile s i f t) (hop : f.pkt.opc = .read) : exec (.read i joins) s = .next ((toldAt s f t).readTile i f t joins) := by
  obtain ⟨hflight, hgoal, -, -⟩ := id h
  have hexec : exec (.read i joins) s = execRead i joins s := rfl
  rw [hexec, execRead, onFlight_of hflight, if_neg (not_not.2 hop), hgoal]
  exact atTile_of h _
theorem read_answers {s : State} {i t : Nat} {f : Flight} (joins : Bool) (h : AtTile s i f t) (hop : f.pkt.opc = .read) (hspace : aSpace f.pkt.dest = 0) (hin : aOff f.pkt.dest + f.pkt.len ≤ sramSize)
    (hgood : allBad (s.tile t).badSram (aOff f.pkt.dest) f.pkt.len = []) : GoesTo (exec (.read i joins) s) fun u =>
      (∃ g, u.fab.flights = ldel s.fab.flights i ++ [g] ∧ g.pkt.opc = .rdata ∧ g.pkt.dest = f.pkt.src ∧ g.pkt.seq = f.pkt.seq ∧
        g.pkt.payload = memGetList (s.tile t).sram (aOff f.pkt.dest) f.pkt.len) ∧
      (u.tile t).sram = (s.tile t).sram ∧ (∀ n, n ≠ t → u.tile n = s.tile n) := by
  refine goesTo_of_eq (exec_read_tile joins h hop) ?_
  unfold State.readTile
  dsimp only
  rw [if_pos hspace, if_neg (not_lt.2 hin), toldAt_tile, hgood]
  dsimp only
  refine ⟨⟨_, congrArg (· ++ [_]) (toldAt_dropFlight_flights s f t i), rfl, rfl, rfl, rfl⟩, ?_, fun n hn => ?_⟩
  · have hself (u : State) (g : Tile → Tile) (h' : Place) (q : Opc) (st : Nat) (bs : List Byte) : (((u.modTile t g).respond f h' q st bs).tile t) = g (u.tile t) := (State.modTile_tile ..).trans (if_pos rfl)
    rw [hself, toldAt_dropFlight_tile]
    dsimp only
    split <;> rfl
  · have hother (u : State) (g : Tile → Tile) (h' : Place) (q : Opc) (st : Nat) (bs : List Byte) : (((u.modTile t g).respond f h' q st bs).tile n) = u.tile n := (State.modTile_tile ..).trans (if_neg hn)
    rw [hother, toldAt_dropFlight_tile]
theorem read_beyond {s : State} {i t : Nat} {f : Flight} (joins : Bool) (h : AtTile s i f t) (hop : f.pkt.opc = .read) (hspace : aSpace f.pkt.dest = 0) (hout : sramSize < aOff f.pkt.dest + f.pkt.len) :
    GoesTo (exec (.read i joins) s) fun u => (∃ g, u.fab.flights = ldel s.fab.flights i ++ [g] ∧ g.pkt.opc = .rerr ∧ g.pkt.status = 1 ∧ g.pkt.dest = f.pkt.src) ∧
      (u.tile t).fabBadaddr = (s.tile t).fabBadaddr + 1 := by
  refine goesTo_of_eq (exec_read_tile joins h hop) ?_
  unfold State.readTile
  dsimp only
  rw [if_pos hspace, if_pos hout]
  unfold State.tileBad
  dsimp only
  rw [if_pos hop]
  refine ⟨⟨_, congrArg (· ++ [_]) (toldAt_dropFlight_flights s f t i), rfl, rfl, rfl⟩, ?_⟩
  have hself (u : State) (g : Tile → Tile) (h' : Place) (q : Opc) (st : Nat) (bs : List Byte) : ((((u.modTile t g).dropFlight i).respond f h' q st bs).tile t) = g (u.tile t) := (State.modTile_tile ..).trans (if_pos rfl)
  rw [hself, toldAt_tile]

/-- A request that has arrived at a site's control port, with partition and epoch in order (R222, R225). -/
theorem atControl_of {s : State} {i S : Nat} {f : Flight} (harr : f.arrived (s.phys S) = true) (hpart : (s.site (s.phys S)).part = some f.pkt.spart)
    (hepoch : (s.tell (s.phys S) f.pkt.ctx).staleCtx (s.phys S) f.pkt.ctx f.pkt.epoch = false) (k : Nat → State → Out) : atControl s i f S k = k (s.phys S) (s.tell (s.phys S) f.pkt.ctx) := by
  rw [atControl]
  dsimp only
  rw [if_neg (by rw [harr]; decide), if_neg (not_not.2 hpart), if_neg (Bool.eq_false_iff.1 hepoch)]
/-- A request at an edge die: a slice's fill carries no epoch of its own (R222). -/
theorem atEdge_of {s : State} {i e : Nat} {f : Flight} (hplace : f.place = .edge e) (hpanel : aPanel f.pkt.dest = s.rick.panel) (k : State → Out) :
    (f.fill.isSome = true → atEdge s i f e k = k s) ∧
    (f.fill = none → (s.tell (edgeEp e) f.pkt.ctx).staleCtx (edgeEp e) f.pkt.ctx f.pkt.epoch = false → atEdge s i f e k = k (s.tell (edgeEp e) f.pkt.ctx)) := by
  rw [atEdge, if_neg (not_or.2 ⟨not_not.2 hplace, not_not.2 hpanel⟩)]
  refine ⟨fun hfill => if_pos hfill, fun hfill hepoch => ?_⟩
  rw [hfill]
  exact (if_neg (Bool.eq_false_iff.1 hepoch))

/-- Settles O24: owners answer READs and take WRITEs. -/
theorem ownersAnswer : Obligations.OwnersAnswer := by
  unfold Obligations.OwnersAnswer
  intro atEdge_ ofEdge atPort
  have hread (i : Nat) (joins : Bool) (s : State) : exec (.read i joins) s = execRead i joins s := rfl
  have hwrite (i : Nat) (s : State) : exec (.writeToOwner i) s = execWriteToOwner i s := rfl
  refine ⟨fun _ _ _ joins _ => exec_read_tile joins, fun _ _ _ joins _ => read_answers joins, fun _ _ _ joins _ => read_beyond joins, fun i S f joins bs s d h hop hbs => ?_, fun i S f joins s d h hop hbs => ?_,
    fun i e f joins s h hop => ?_, fun i S f s d h hop => ?_, fun i e f s h hop => ?_⟩
  · obtain ⟨hflight, hgoal, harr, hpart, rfl, hepoch⟩ := h
    rw [hread, execRead, onFlight_of hflight, if_neg (not_not.2 hop), hgoal]
    dsimp only
    rw [atControl_of harr hpart hepoch, hbs]
    rfl
  · obtain ⟨hflight, hgoal, harr, hpart, rfl, hepoch⟩ := h
    rw [hread, execRead, onFlight_of hflight, if_neg (not_not.2 hop), hgoal]
    dsimp only
    rw [atControl_of harr hpart hepoch, hbs]
    rfl
  · obtain ⟨hflight, hgoal, hplace, hpanel⟩ := h
    rw [hread, execRead, onFlight_of hflight, if_neg (not_not.2 hop), hgoal]
    exact atEdge_of hplace hpanel _
  · obtain ⟨hflight, hgoal, harr, hpart, rfl, hepoch⟩ := h
    rw [hwrite, execWriteToOwner, onFlight_of hflight, if_neg (not_not.2 hop), hgoal]
    exact atControl_of harr hpart hepoch _
  · obtain ⟨hflight, hgoal, hplace, hpanel⟩ := h
    rw [hwrite, execWriteToOwner, onFlight_of hflight, if_neg (not_not.2 hop), hgoal]
    exact atEdge_of hplace hpanel _

end Sys2Proof.Machine
end

section
/-! PROOFS. Responses land at the requesting tile or edge die (R189, R205, R217, R223, R226, R311, R323, R532; O25). -/

namespace Sys2Proof.Machine

open Sys2Proof.Safety (Blk Only GoesTo RespAt)

/-! ### What a response meets (R226) -/

/-- A response that has arrived at a tile whose clock runs, in its partition, acts on the state without its packet. -/
theorem respAtTile_of {s : State} {i t : Nat} {f : Flight} (h : RespAt s i f t) (k : State → Out) : respAtTile s i f t k = k (s.dropFlight i) := by
  obtain ⟨-, -, harr, hpark, hpart⟩ := h
  rw [respAtTile, if_neg (by rw [harr]; decide), if_neg (by rw [hpark]; decide), if_neg (not_not.2 hpart)]
theorem exec_rdata_tile {s : State} {i t : Nat} {f : Flight} (h : RespAt s i f t) (hop : f.pkt.opc = .rdata) : exec (.rdata i) s = ok ((s.dropFlight i).rdataTile t f.pkt) := by
  obtain ⟨hflight, hgoal, -⟩ := id h
  have hexec : exec (.rdata i) s = execRdata i s := rfl
  rw [hexec, execRdata, onFlight_of hflight, if_neg (not_not.2 hop), hgoal]
  exact respAtTile_of h _

/-! ### Parts of a tile that bytes leave alone, by name -/

section
variable {T U : Tile} (h : U.besideMem = T.besideMem)
include h
theorem Tile.ctr_of_besideMem (j : Nat) : U.ctr j = T.ctr j := (congrArg (Tile.ctr · j) h :)
theorem Tile.trk_of_besideMem (j : Nat) : U.trk j = T.trk j := (congrArg (Tile.trk · j) h :)
theorem Tile.ld_of_besideMem : U.ld = T.ld := (congrArg Tile.ld h :)
end
theorem Tile.hitResv_sram (T : Tile) (a n : Nat) : (T.hitResv a n).sram = T.sram := rfl
theorem Tile.hitResv_scr (T : Tile) (a n : Nat) : (T.hitResv a n).scr = T.scr := rfl
theorem Tile.bump_ctr (T : Tile) (k j : Nat) : (T.bump k 1).ctr j = if j = k then { T.ctr k with value := (T.ctr k).value + 1 } else T.ctr j := T.setCtr_ctr k j _
theorem Tile.setTrk_self (T : Tile) (k : Nat) (x : Trk) : (T.setTrk k x).trk k = x := (T.setTrk_trk k k x).trans (if_pos rfl)

/-! ### RDATA (R189, R217) -/

/-- Bytes have landed in tile `t`, which is `T` now: no other tile and nothing of the fabric has changed. -/
def Lands (s : State) (t : Nat) (T : Tile) (u : State) : Prop := u.tile t = T ∧ (∀ n, n ≠ t → u.tile n = s.tile n) ∧ u.fab = s.fab
/-- RDATA for a live tracker of a core, with no load running, lands its bytes and counts. -/
theorem State.rdataTile_live {s : State} {t k : Nat} {p : Packet} (hm : (s.tile t).match_ p = some k) (hlive : ((s.tile t).trk k).st = .live) (hcore : ((s.tile t).trk k).loader = false)
    (hidle : ∀ u : State, u = ((s.modTile t fun T => T.setTrk k {}).landLocal t ((s.tile t).trk k).local_ p.payload).bump t ((s.tile t).trk k).ctr 1 → (u.tile t).ld.cur = none) :
    s.rdataTile t p = ((s.modTile t fun T => T.setTrk k {}).landLocal t ((s.tile t).trk k).local_ p.payload).bump t ((s.tile t).trk k).ctr 1 := by
  unfold State.rdataTile
  rw [hm]
  dsimp only
  rw [if_neg (by rw [hlive]; decide), if_neg (by rw [hcore]; decide)]
  exact State.loaderAsk_of_idle (hidle _ rfl) 17

theorem rdata_lands {s : State} {i t k : Nat} {f : Flight} (h : RespAt s i f t) (hop : f.pkt.opc = .rdata) (hm : (s.tile t).match_ f.pkt = some k) (hlive : ((s.tile t).trk k).st = .live)
    (hidle : (s.tile t).ld.cur = none) (hcore : ((s.tile t).trk k).loader = false) {U : Tile} (hbeside : U.besideMem = ((s.tile t).setTrk k {}).besideMem)
    (hland : Lands ((s.dropFlight i).modTile t fun T => T.setTrk k {}) t U (((s.dropFlight i).modTile t fun T => T.setTrk k {}).landLocal t ((s.tile t).trk k).local_ f.pkt.payload)) :
    GoesTo (exec (.rdata i) s) fun u => (u.tile t).sram = U.sram ∧ (u.tile t).scr = U.scr ∧ (u.tile t).trk k = {} ∧
      ((u.tile t).ctr ((s.tile t).trk k).ctr = { (s.tile t).ctr ((s.tile t).trk k).ctr with value := ((s.tile t).ctr ((s.tile t).trk k).ctr).value + 1 } ∧
        ∀ j, j ≠ ((s.tile t).trk k).ctr → (u.tile t).ctr j = (s.tile t).ctr j) ∧
      (∀ n, n ≠ t → u.tile n = s.tile n) ∧ u.fab.flights = ldel s.fab.flights i := by
  obtain ⟨hself, hother, hfab⟩ := hland
  have hctr (j : Nat) : U.ctr j = (s.tile t).ctr j := Tile.ctr_of_besideMem hbeside j
  have hbump (v : State) (c : Nat) : (v.bump t c 1).tile t = (v.tile t).bump c 1 := (State.modTile_tile ..).trans (if_pos rfl)
  refine goesTo_of_eq ((exec_rdata_tile h hop).trans (congrArg ok (State.rdataTile_live (s := s.dropFlight i) hm hlive hcore fun u hu => ?_))) ⟨?_, ?_, ?_, ⟨?_, fun j hj => ?_⟩, fun n hn => ?_, ?_⟩
  · rw [hu, hbump]
    exact (congrArg (fun T : Tile => T.ld.cur) hself).trans ((congrArg Loader.cur (Tile.ld_of_besideMem hbeside)).trans hidle)
  case refine_7 => exact (State.modTile_tile ..).trans ((if_neg hn).trans ((hother n hn).trans ((State.modTile_tile ..).trans (if_neg hn))))
  case refine_8 => exact (congrArg Fabric.flights hfab :)
  all_goals rw [hbump]
  · exact (congrArg Tile.sram hself :)
  · exact (congrArg Tile.scr hself :)
  · exact (congrArg (Tile.trk · k) hself).trans ((Tile.trk_of_besideMem hbeside k).trans (Tile.setTrk_self ..))
  · refine ((Tile.bump_ctr _ _ _).trans (if_pos rfl)).trans ?_
    exact congrArg (fun c : Ctr => { c with value := c.value + 1 }) ((congrArg (Tile.ctr · ((s.tile t).trk k).ctr) hself).trans (hctr _))
  · exact ((Tile.bump_ctr _ _ _).trans (if_neg hj)).trans ((congrArg (Tile.ctr · j) hself).trans (hctr j))

theorem State.landSram_lands {s : State} {t a : Nat} {bs : List Byte} (hbad : partBad (s.tile t).badSram a bs.length = []) (hrec : (s.tile t).recsHeld = []) :
    Lands s t (((s.tile t).sramPut a bs).hitResv (0x1000000 + a) bs.length) (s.landSram t a bs) := by
  rw [State.landSram_of_good hbad hrec]
  refine ⟨?_, fun n hn => ?_, rfl⟩
  · rw [State.modTile_tile, if_pos rfl, State.setTile_tile, if_pos rfl]
  · rw [State.modTile_tile, if_neg hn, State.setTile_tile, if_neg hn]
theorem State.landScr_lands {s : State} {t a : Nat} {bs : List Byte} (hbad : partBad (s.tile t).badScr a bs.length = []) : Lands s t (((s.tile t).scrPut a bs).hitResv a bs.length) (s.landScr t a bs) := by
  rw [State.landScr_of_good hbad]
  exact ⟨(State.setTile_tile ..).trans (if_pos rfl), fun n hn => (State.setTile_tile ..).trans (if_neg hn), rfl⟩

theorem rdata_sram {s : State} {i t k : Nat} {f : Flight} (h : RespAt s i f t) (hop : f.pkt.opc = .rdata) (hm : (s.tile t).match_ f.pkt = some k) (hlive : ((s.tile t).trk k).st = .live)
    (hidle : (s.tile t).ld.cur = none) (hcore : ((s.tile t).trk k).loader = false) (hlocal : 0x1000000 ≤ ((s.tile t).trk k).local_)
    (hbad : partBad (s.tile t).badSram (((s.tile t).trk k).local_ - 0x1000000) f.pkt.payload.length = []) (hrec : (s.tile t).recsHeld = []) :
    GoesTo (exec (.rdata i) s) fun u => (u.tile t).sram = memPutList (s.tile t).sram (((s.tile t).trk k).local_ - 0x1000000) f.pkt.payload ∧ (u.tile t).scr = (s.tile t).scr ∧ (u.tile t).trk k = {} ∧
      ((u.tile t).ctr ((s.tile t).trk k).ctr = { (s.tile t).ctr ((s.tile t).trk k).ctr with value := ((s.tile t).ctr ((s.tile t).trk k).ctr).value + 1 } ∧
        ∀ j, j ≠ ((s.tile t).trk k).ctr → (u.tile t).ctr j = (s.tile t).ctr j) ∧
      (∀ n, n ≠ t → u.tile n = s.tile n) ∧ u.fab.flights = ldel s.fab.flights i := by
  have htile : ((s.dropFlight i).modTile t fun T => T.setTrk k {}).tile t = (s.tile t).setTrk k {} := (State.modTile_tile ..).trans (if_pos rfl)
  have hlands := State.landSram_lands (s := (s.dropFlight i).modTile t fun T => T.setTrk k {}) (t := t) (a := ((s.tile t).trk k).local_ - 0x1000000) (bs := f.pkt.payload)
    (by rw [htile]; exact hbad) (by rw [htile]; exact hrec)
  rw [htile] at hlands
  obtain ⟨u, hu, hsram, hscr, hrest⟩ := rdata_lands h hop hm hlive hidle hcore
    (U := (((s.tile t).setTrk k {}).sramPut (((s.tile t).trk k).local_ - 0x1000000) f.pkt.payload).hitResv (0x1000000 + (((s.tile t).trk k).local_ - 0x1000000)) f.pkt.payload.length)
    ((Tile.hitResv_besideMem ..).trans (Tile.sramPut_besideMem ..)) (by rw [State.landLocal, if_pos hlocal]; exact hlands)
  exact ⟨u, hu, hsram.trans ((Tile.hitResv_sram ..).trans (Tile.sramPut_sram ..)), hscr.trans ((Tile.hitResv_scr ..).trans (Tile.sramPut_scr ..)), hrest⟩
theorem rdata_scratch {s : State} {i t k : Nat} {f : Flight} (h : RespAt s i f t) (hop : f.pkt.opc = .rdata) (hm : (s.tile t).match_ f.pkt = some k) (hlive : ((s.tile t).trk k).st = .live)
    (hidle : (s.tile t).ld.cur = none) (hcore : ((s.tile t).trk k).loader = false) (hlocal : ((s.tile t).trk k).local_ < 0x1000000)
    (hbad : partBad (s.tile t).badScr ((s.tile t).trk k).local_ f.pkt.payload.length = []) :
    GoesTo (exec (.rdata i) s) fun u => (u.tile t).sram = (s.tile t).sram ∧ (u.tile t).scr = memPutList (s.tile t).scr ((s.tile t).trk k).local_ f.pkt.payload ∧ (u.tile t).trk k = {} ∧
      ((u.tile t).ctr ((s.tile t).trk k).ctr = { (s.tile t).ctr ((s.tile t).trk k).ctr with value := ((s.tile t).ctr ((s.tile t).trk k).ctr).value + 1 } ∧
        ∀ j, j ≠ ((s.tile t).trk k).ctr → (u.tile t).ctr j = (s.tile t).ctr j) ∧
      (∀ n, n ≠ t → u.tile n = s.tile n) ∧ u.fab.flights = ldel s.fab.flights i := by
  have htile : ((s.dropFlight i).modTile t fun T => T.setTrk k {}).tile t = (s.tile t).setTrk k {} := (State.modTile_tile ..).trans (if_pos rfl)
  have hlands := State.landScr_lands (s := (s.dropFlight i).modTile t fun T => T.setTrk k {}) (t := t) (a := ((s.tile t).trk k).local_) (bs := f.pkt.payload) (by rw [htile]; exact hbad)
  rw [htile] at hlands
  obtain ⟨u, hu, hsram, hscr, hrest⟩ := rdata_lands h hop hm hlive hidle hcore (U := (((s.tile t).setTrk k {}).scrPut ((s.tile t).trk k).local_ f.pkt.payload).hitResv ((s.tile t).trk k).local_ f.pkt.payload.length)
    ((Tile.hitResv_besideMem ..).trans (Tile.scrPut_besideMem ..)) (by rw [State.landLocal, if_neg (not_le.2 hlocal)]; exact hlands)
  exact ⟨u, hu, hsram.trans ((Tile.hitResv_sram ..).trans (Tile.scrPut_sram ..)), hscr.trans ((Tile.hitResv_scr ..).trans (Tile.scrPut_scr ..)), hrest⟩

/-! ### RERR, and responses that match no tracker (R189, R205, R217, R226) -/

theorem exec_rerr_tile {s : State} {i t k : Nat} {f : Flight} (h : RespAt s i f t) (hop : f.pkt.opc = .rerr) (hm : (s.tile t).match_ f.pkt = some k) (hlive : ((s.tile t).trk k).st = .live)
    (hidle : (s.tile t).ld.cur = none) : exec (.rerr i) s = ok ((s.dropFlight i).modTile t fun T => (T.trkError k f.pkt.status.toNat).setTrk k {}) := by
  obtain ⟨hflight, hgoal, -⟩ := id h
  have hexec : exec (.rerr i) s = execRerr i s := rfl
  have hm' : ((s.dropFlight i).tile t).match_ f.pkt = some k := hm
  have hlive' : (((s.dropFlight i).tile t).trk k).st = .live := hlive
  rw [hexec, execRerr, onFlight_of hflight, if_neg (not_not.2 hop), hgoal]
  dsimp only
  rw [respAtTile_of h, hm']
  dsimp only
  rw [if_neg (by rw [hlive']; decide), State.loaderAsk_of_idle]
  rw [State.modTile_tile, if_pos rfl]
  refine Eq.trans ?_ hidle
  show ((s.tile t).trkError k f.pkt.status.toNat).ld.cur = (s.tile t).ld.cur
  unfold Tile.trkError
  dsimp only
  split <;> rfl
theorem rerr_goesTo {s : State} {i t k : Nat} {f : Flight} (h : RespAt s i f t) (hop : f.pkt.opc = .rerr) (hm : (s.tile t).match_ f.pkt = some k) (hlive : ((s.tile t).trk k).st = .live)
    (hidle : (s.tile t).ld.cur = none) : GoesTo (exec (.rerr i) s) fun u =>
      (u.tile t).trk k = {} ∧ (∀ j, j ≠ k → (u.tile t).trk j = (s.tile t).trk j) ∧ (u.tile t).sram = (s.tile t).sram ∧ (u.tile t).scr = (s.tile t).scr ∧
      ((∀ n, n ≠ t → u.tile n = s.tile n) ∧ u.fab.flights = ldel s.fab.flights i) ∧
      (((s.tile t).trk k).loader = false → ((u.tile t).ctr ((s.tile t).trk k).ctr = { (s.tile t).ctr ((s.tile t).trk k).ctr with value := ((s.tile t).ctr ((s.tile t).trk k).ctr).value + 1 } ∧
        ∀ j, j ≠ ((s.tile t).trk k).ctr → (u.tile t).ctr j = (s.tile t).ctr j) ∧ u.core t ((s.tile t).trk k).core = (s.core t ((s.tile t).trk k).core).gerr f.pkt.status.toNat) ∧
      (((s.tile t).trk k).loader = true → (u.tile t).ld = { (s.tile t).ld with readErr := true } ∧ (u.tile t).ctrs = (s.tile t).ctrs) := by
  rw [exec_rerr_tile h hop hm hlive hidle]
  have htile : ((s.dropFlight i).modTile t fun T => (T.trkError k f.pkt.status.toNat).setTrk k {}).tile t = ((s.tile t).trkError k f.pkt.status.toNat).setTrk k {} := (State.modTile_tile ..).trans (if_pos rfl)
  have htrks (j : Nat) : ((s.tile t).trkError k f.pkt.status.toNat).trk j = (s.tile t).trk j :=
    Tile.trkError_field (fun T => T.trk j) (fun _ _ => rfl) (fun _ _ => rfl) (fun _ _ => rfl) ..
  refine goesTo_ok ⟨?_, fun j hj => ?_, ?_, ?_, ⟨fun n hn => (State.modTile_tile ..).trans (if_neg hn), rfl⟩, fun hl => ?_, fun hl => ?_⟩
  · rw [htile, Tile.setTrk_self]
  · rw [htile, Tile.setTrk_trk, if_neg hj, htrks]
  · rw [htile]
    exact Tile.trkError_field Tile.sram (fun _ _ => rfl) (fun _ _ => rfl) (fun _ _ => rfl) ..
  · rw [htile]
    exact Tile.trkError_field Tile.scr (fun _ _ => rfl) (fun _ _ => rfl) (fun _ _ => rfl) ..
  · obtain ⟨hself, hother, hgerr⟩ := Tile.trkError_core hl f.pkt.status.toNat
    rw [State.core, htile]
    exact ⟨⟨hself, hother⟩, hgerr⟩
  · rw [htile, Tile.trkError_loader hl]
    exact ⟨rfl, rfl⟩

/-- A response that matches no tracker is counted and no more (R226). -/
theorem State.lateResponse_frame (s : State) (t : Nat) (p : Packet) : ((s.lateResponse t p).tile t).sram = (s.tile t).sram ∧ ((s.lateResponse t p).tile t).scr = (s.tile t).scr ∧
    ((s.lateResponse t p).tile t).trks = (s.tile t).trks ∧ ((s.lateResponse t p).tile t).ctrs = (s.tile t).ctrs ∧ (∀ n, n ≠ t → (s.lateResponse t p).tile n = s.tile n) ∧
    (s.lateResponse t p).fab = s.fab := by
  unfold State.lateResponse
  refine ⟨?_, ?_, ?_, ?_, fun n hn => (State.modTile_tile ..).trans (if_neg hn), rfl⟩
  all_goals
    rw [State.modTile_tile, if_pos rfl]
    split <;> rfl
theorem late_goesTo {s : State} {i t : Nat} {f : Flight} (h : RespAt s i f t) (hop : f.pkt.opc = .rdata ∨ f.pkt.opc = .rerr) (hm : (s.tile t).match_ f.pkt = none) :
    GoesTo (exec (if f.pkt.opc = .rdata then .rdata i else .rerr i) s) fun u =>
      (u.tile t).sram = (s.tile t).sram ∧ (u.tile t).scr = (s.tile t).scr ∧ (u.tile t).trks = (s.tile t).trks ∧ (u.tile t).ctrs = (s.tile t).ctrs ∧
      (∀ n, n ≠ t → u.tile n = s.tile n) ∧ u.fab.flights = ldel s.fab.flights i := by
  have hm' : ((s.dropFlight i).tile t).match_ f.pkt = none := hm
  have hlate : exec (if f.pkt.opc = .rdata then .rdata i else .rerr i) s = ok ((s.dropFlight i).lateResponse t f.pkt) := by
    rcases hop with hop | hop
    · rw [if_pos hop, exec_rdata_tile h hop, State.rdataTile, hm']
    · obtain ⟨hflight, hgoal, -⟩ := id h
      have hexec : exec (.rerr i) s = execRerr i s := rfl
      rw [if_neg (by rw [hop]; decide), hexec, execRerr, onFlight_of hflight, if_neg (not_not.2 hop), hgoal]
      dsimp only
      rw [respAtTile_of h, hm']
  obtain ⟨hsram, hscr, htrks, hctrs, hother, hfab⟩ := (s.dropFlight i).lateResponse_frame t f.pkt
  exact goesTo_of_eq hlate ⟨hsram, hscr, htrks, hctrs, hother, congrArg Fabric.flights hfab⟩

/-! ### WACK (R217, R223) -/

theorem State.tell_dropFlight (s : State) (i ep c : Nat) : (s.dropFlight i).tell ep c = (s.tell ep c).dropFlight i := by
  have hctx : (s.dropFlight i).ctx c = s.ctx c := rfl
  have hn : (s.dropFlight i).freeN = s.freeN := rfl
  unfold State.tell
  dsimp only
  rw [hctx, hn]
  split
  · split <;> rfl
  · rfl
theorem State.tell_tile (s : State) (ep c n : Nat) : (s.tell ep c).tile n = s.tile n := tile_of_only (s.tell_only ep c) (by decide) n
theorem exec_wack_tile {s : State} {i t : Nat} {f : Flight} (h : RespAt s i f t) (hop : f.pkt.opc = .wack) : exec (.wack i) s =
    if (s.tell (s.tilePhys t) f.pkt.ctx).staleCtx (s.tilePhys t) f.pkt.ctx f.pkt.epoch then ok (((s.tell (s.tilePhys t) f.pkt.ctx).dropFlight i).modTile t fun T => { T with fabStale := T.fabStale + 1 })
    else ok (((s.tell (s.tilePhys t) f.pkt.ctx).dropFlight i).modTile t fun T =>
      if f.pkt.status = 0 then T.land_ f.pkt.dctr f.pkt.last f.pkt.total else coreGerr (T.land_ f.pkt.dctr f.pkt.last f.pkt.total) (bitsOf f.pkt.dest 6 5) f.pkt.status.toNat) := by
  obtain ⟨hflight, hgoal, -⟩ := id h
  have hexec : exec (.wack i) s = execWack i s := rfl
  have hphys : (s.dropFlight i).tilePhys t = s.tilePhys t := rfl
  have hphys' : ((s.tell (s.tilePhys t) f.pkt.ctx).dropFlight i).tilePhys t = s.tilePhys t := State.tell_tilePhys ..
  have hstale : ((s.tell (s.tilePhys t) f.pkt.ctx).dropFlight i).staleCtx (s.tilePhys t) f.pkt.ctx f.pkt.epoch = (s.tell (s.tilePhys t) f.pkt.ctx).staleCtx (s.tilePhys t) f.pkt.ctx f.pkt.epoch := rfl
  rw [hexec, execWack, onFlight_of hflight]
  dsimp only
  rw [if_neg (not_not.2 hop), hgoal]
  dsimp only
  rw [respAtTile_of h, hphys, State.tell_dropFlight, hphys', hstale]
theorem wack_counts {s : State} {i t : Nat} {f : Flight} (h : RespAt s i f t) (hop : f.pkt.opc = .wack) (hfresh : (s.tell (s.tilePhys t) f.pkt.ctx).staleCtx (s.tilePhys t) f.pkt.ctx f.pkt.epoch = false) :
    GoesTo (exec (.wack i) s) fun u =>
      (u.tile t).ctr f.pkt.dctr = { value := ((s.tile t).ctr f.pkt.dctr).value + 1, target := if f.pkt.last then f.pkt.total else ((s.tile t).ctr f.pkt.dctr).target } ∧
      (∀ j, j ≠ f.pkt.dctr → (u.tile t).ctr j = (s.tile t).ctr j) ∧
      u.core t (bitsOf f.pkt.dest 6 5) = (if f.pkt.status = 0 then s.core t (bitsOf f.pkt.dest 6 5) else (s.core t (bitsOf f.pkt.dest 6 5)).gerr f.pkt.status.toNat) ∧
      (u.tile t).sram = (s.tile t).sram ∧ (u.tile t).scr = (s.tile t).scr ∧ (∀ n, n ≠ t → u.tile n = s.tile n) ∧ u.fab.flights = ldel s.fab.flights i := by
  have hbase (n : Nat) : ((s.tell (s.tilePhys t) f.pkt.ctx).dropFlight i).tile n = s.tile n := State.tell_tile ..
  have hland (j : Nat) : (if f.pkt.status = 0 then (s.tile t).land_ f.pkt.dctr f.pkt.last f.pkt.total else coreGerr ((s.tile t).land_ f.pkt.dctr f.pkt.last f.pkt.total) (bitsOf f.pkt.dest 6 5) f.pkt.status.toNat).ctr j =
      ((s.tile t).land_ f.pkt.dctr f.pkt.last f.pkt.total).ctr j := by
    split <;> rfl
  rw [exec_wack_tile h hop, if_neg (Bool.eq_false_iff.1 hfresh)]
  refine goesTo_ok ⟨?_, fun j hj => ?_, ?_, ?_, ?_, fun n hn => ?_, ?_⟩
  case refine_7 => exact congrArg (fun x : Fabric => ldel x.flights i) (State.tell_fab ..)
  case refine_6 => rw [State.modTile_tile, if_neg hn, hbase]
  case refine_3 =>
    rw [State.core, State.modTile_tile, if_pos rfl, hbase]
    split
    · rfl
    · exact (Tile.modCore_core ..).trans (if_pos rfl)
  all_goals rw [State.modTile_tile, if_pos rfl, hbase]
  · rw [hland, Tile.land_ctr, if_pos rfl]
  · rw [hland, Tile.land_ctr, if_neg hj]
  · split <;> rfl
  · split <;> rfl

/-! ### Responses at an edge die (R311, R323, R532) -/

theorem exec_response_edge {s : State} {i e : Nat} {f : Flight} (hflight : s.flight i = some f) (hgoal : f.goal = .edge e) (hplace : f.place = .edge e) (hpanel : aPanel f.pkt.dest = s.rick.panel) :
    (f.pkt.opc = .rdata → exec (.rdata i) s = .next ((s.dropFlight i).edgeResponse e f.pkt)) ∧
    (f.pkt.opc = .rerr → exec (.rerr i) s = .next ((s.dropFlight i).edgeResponse e f.pkt)) ∧
    (f.pkt.opc = .wack → bitsOf f.pkt.dest 15 0 = 0xFFFF → exec (.wack i) s = .next ((s.dropFlight i).modDbg fun d => { d with busy := false, status := f.pkt.status })) ∧
    (f.pkt.opc = .wack → bitsOf f.pkt.dest 15 0 ≠ 0xFFFF → (s.tell (edgeEp e) f.pkt.ctx).staleCtx (edgeEp e) f.pkt.ctx f.pkt.epoch = false →
      exec (.wack i) s = .next (((s.dropFlight i).tell (edgeEp e) f.pkt.ctx).copyWack (bitsOf f.pkt.dest 15 0 - 0x8000) f.pkt.seq f.pkt.status.toNat)) := by
  have hrdata : exec (.rdata i) s = execRdata i s := rfl
  have hrerr : exec (.rerr i) s = execRerr i s := rfl
  have hwack : exec (.wack i) s = execWack i s := rfl
  refine ⟨fun hop => ?_, fun hop => ?_, fun hop htag => ?_, fun hop htag hfresh => ?_⟩
  · rw [hrdata, execRdata, onFlight_of hflight, if_neg (not_not.2 hop), hgoal]
    exact if_pos ⟨hplace, hpanel⟩
  · rw [hrerr, execRerr, onFlight_of hflight, if_neg (not_not.2 hop), hgoal]
    exact if_pos ⟨hplace, hpanel⟩
  · rw [hwack, execWack, onFlight_of hflight]
    dsimp only
    rw [if_neg (not_not.2 hop), hgoal]
    exact (if_pos ⟨hplace, hpanel⟩).trans (if_pos htag)
  · have hstale : ((s.dropFlight i).tell (edgeEp e) f.pkt.ctx).staleCtx (edgeEp e) f.pkt.ctx f.pkt.epoch = false := by
      rw [State.tell_dropFlight]
      exact hfresh
    rw [hwack, execWack, onFlight_of hflight]
    dsimp only
    rw [if_neg (not_not.2 hop), hgoal]
    dsimp only
    rw [if_pos ⟨hplace, hpanel⟩, if_neg htag, if_neg (Bool.eq_false_iff.1 hstale)]
    rfl

/-- Settles O25: RDATA, RERR and WACK land at the tile or the edge die that asked. -/
theorem responsesLand : Obligations.ResponsesLand := by
  unfold Obligations.ResponsesLand
  intro rest counts live atEdge_
  refine ⟨fun i t k f s h hop hlive hcore => ?_, fun i t k f s h hop ⟨hm, hlive, hidle⟩ => rerr_goesTo h hop hm hlive hidle, fun i t f s h hop hm => late_goesTo h hop hm, fun i t f s h hop => ?_,
    fun i e f s ⟨hflight, hgoal, hplace, hpanel⟩ => exec_response_edge hflight hgoal hplace hpanel⟩
  · obtain ⟨hm, hst, hidle⟩ := hlive
    intro x n
    refine ⟨fun hlocal hbad hrec => ?_, fun hlocal hbad => ?_⟩
    · obtain ⟨u, hu, hsram, hscr, htrk, hcounts, hrest⟩ := rdata_sram h hop hm hst hidle hcore hlocal hbad hrec
      obtain ⟨hread, hother⟩ := memPutList_reads (s.tile t).sram (x.local_ - 0x1000000) f.pkt.payload
      rw [← hsram] at hread hother
      exact ⟨u, hu, hread, hother, hscr, htrk, hcounts, hrest⟩
    · obtain ⟨u, hu, hsram, hscr, htrk, hcounts, hrest⟩ := rdata_scratch h hop hm hst hidle hcore hlocal hbad
      obtain ⟨hread, hother⟩ := memPutList_reads (s.tile t).scr x.local_ f.pkt.payload
      rw [← hscr] at hread hother
      exact ⟨u, hu, hread, hother, hsram, htrk, hcounts, hrest⟩
  · intro told
    refine ⟨fun hfresh => wack_counts h hop hfresh, fun hstale => ?_⟩
    have hbase (n : Nat) : ((s.tell (s.tilePhys t) f.pkt.ctx).dropFlight i).tile n = s.tile n := State.tell_tile ..
    rw [exec_wack_tile h hop, if_pos hstale]
    refine goesTo_ok ⟨?_, fun n hn => ?_, congrArg (fun x : Fabric => ldel x.flights i) (State.tell_fab ..)⟩
    · rw [State.modTile_tile, if_pos rfl, hbase]
    · rw [State.modTile_tile, if_neg hn, hbase]

end Sys2Proof.Machine
end

section
/-! PROOFS. Memory slices, host ports and host reads (R249, R264 to R271, R285 to R288, R439; O28, O29, O30). -/

namespace Sys2Proof.Machine

open Sys2Proof.Safety (Blk Only GoesTo AtSlice Maintains)

/-! ### Slices (R249, R264, R265) -/

theorem atSlice_of {s : State} {i p : Nat} {f : Flight} (h : AtSlice s i f p) (k : Nat → State → Out) : atSlice s i f k = k p (s.tell p f.pkt.ctx) := by
  obtain ⟨-, hgoal, harr, hfill, hpart, hfresh⟩ := h
  rw [atSlice, hgoal]
  dsimp only
  rw [harr, hfill, if_neg (by decide), if_neg (fun hne => hne hpart), if_neg (Bool.eq_false_iff.1 hfresh)]
theorem State.tell_site (s : State) (ep c p : Nat) : (s.tell ep c).site p = s.site p := site_of_only (s.tell_only ep c) (by decide) p
theorem Cache.touch_corr (c : Cache) (line way : Nat) : (c.touch line way).corr = c.corr := rfl
theorem Cache.hit_corr (c : Cache) (x : CLine) (joined : Bool) : (c.hit x joined).corr = c.corr := by
  unfold Cache.hit
  split <;> rfl

theorem exec_cacheRead {s : State} {i p : Nat} {joins : Bool} {err : MemErr} {f : Flight} (h : AtSlice s i f p) (hop : f.pkt.opc = .read) :
    exec (.cacheRead i joins err) s = execCacheRead i joins err s ∧ s.flight i = some f ∧ ¬ f.pkt.opc ≠ .read ∧
      (s.tell p f.pkt.ctx).site p = s.site p :=
  ⟨rfl, h.1, fun hne => hne hop, State.tell_site ..⟩
theorem exec_cacheRead_hit {s : State} {i p : Nat} (joins : Bool) {f : Flight} {x : CLine} (h : AtSlice s i f p) (hop : f.pkt.opc = .read)
    (hline : (s.site p).cache.find (f.pkt.dest.toNat / 256) = some x) :
    exec (.cacheRead i joins .clean) s = .next ((((s.tell p f.pkt.ctx).dropFlight i).modSite p fun y => { y with cache := y.cache.hit x (joins && x.fresh) }).respond f
      (.router p 0 0) .rdata 0 (memGetList x.bytes (f.pkt.dest.toNat % 256) f.pkt.len)) := by
  obtain ⟨hexec, hflight, hread, hsite⟩ := exec_cacheRead (joins := joins) (err := .clean) h hop
  rw [hexec, execCacheRead, onFlight_of hflight, if_neg hread, atSlice_of h]
  dsimp only
  rw [hsite, hline]
  dsimp only
  rw [if_neg (by simp)]
  refine congrArg (fun c => ok ((((s.tell p f.pkt.ctx).dropFlight i).modSite p c).respond f (.router p 0 0) .rdata 0 _)) (funext fun y => ?_)
  rw [if_neg (by simp), ← Cache.hit_corr y.cache x (joins && x.fresh)]
theorem exec_cacheRead_miss {s : State} {i p : Nat} (joins : Bool) (err : MemErr) {f : Flight} (h : AtSlice s i f p) (hop : f.pkt.opc = .read)
    (hline : (s.site p).cache.find (f.pkt.dest.toNat / 256) = none) :
    exec (.cacheRead i joins err) s = .next ((s.tell p f.pkt.ctx).cacheMiss i f p (f.pkt.dest.toNat / 256)) := by
  obtain ⟨hexec, hflight, hread, hsite⟩ := exec_cacheRead (joins := joins) (err := err) h hop
  rw [hexec, execCacheRead, onFlight_of hflight, if_neg hread, atSlice_of h]
  dsimp only
  rw [hsite, hline]
  rfl
theorem exec_cacheWrite {s : State} {i p : Nat} {f : Flight} {d : State} (h : AtSlice s i f p) (hop : f.pkt.opc = .write)
    (hd : (s.tell p f.pkt.ctx).modSite p (fun x => { x with cache := x.cache.write f.pkt.dest.toNat f.pkt.payload }) = d) :
    (∀ e, d.lineOwner f.pkt.spart f.pkt.dest = some e →
      exec (.cacheWrite i) s = .next (d.setFlight i { f with goal := .edge e, place := .router p 0 0, via := none, thru := some p })) ∧
    (d.lineOwner f.pkt.spart f.pkt.dest = none → exec (.cacheWrite i) s = .next ((d.dropFlight i).respond f (.router p 0 0) .wack stBadAddress [])) := by
  have hexec : exec (.cacheWrite i) s = execCacheWrite i s := rfl
  rw [hexec, execCacheWrite, onFlight_of h.1, if_neg (fun hne => hne hop), atSlice_of h]
  dsimp only
  rw [hd]
  refine ⟨fun e he => ?_, fun he => ?_⟩
  · rw [he]
    rfl
  · rw [he]
    rfl

/-- A fill that returns to its slice meets its buffer: what follows is told by the response's kind (R265). -/
theorem exec_cacheFillReturn {s d : State} {i p line q : Nat} {f : Flight} {x : Fill} (hflight : s.flight i = some f) (hgoal : f.goal = .slice p) (hfill : f.fill = some (q, line))
    (harr : f.arrived p = true) (hresp : Opc_isReq f.pkt.opc = false) (hbuf : ((s.site p).cache.fills.find? fun x => x.line == line) = some x)
    (hd : (s.dropFlight i).modSite p (fun y => { y with cache := { y.cache with fills := y.cache.fills.filter fun z => z.line != line } }) = d) :
    (f.pkt.opc = .rdata → exec (.cacheFillReturn i) s = .next (x.joined.foldl (fun u r =>
        u.respond { pkt := r, goal := .slice p, place := .dest p, escape := false, fill := none } (.router p 0 0) .rdata 0 (memGetList (x.data f.pkt.payload) (r.dest.toNat % 256) r.len))
      (if x.dropped then d else d.modSite p fun y => { y with cache := y.cache.install line (x.data f.pkt.payload) }))) ∧
    (f.pkt.opc ≠ .rdata → exec (.cacheFillReturn i) s = .next (x.joined.foldl (fun u r =>
        u.respond { pkt := r, goal := .slice p, place := .dest p, escape := false, fill := none } (.router p 0 0) .rerr f.pkt.status.toNat []) d)) := by
  have hexec : exec (.cacheFillReturn i) s = execCacheFillReturn i s := rfl
  have hbuf' : (((s.dropFlight i).site p).cache.fills.find? fun x => x.line == line) = some x := hbuf
  rw [hexec, execCacheFillReturn, onFlight_of hflight, hgoal, hfill]
  dsimp only
  rw [harr, hresp, if_neg (by decide), hbuf']
  dsimp only
  rw [hd]
  refine ⟨fun ho => ?_, fun ho => ?_⟩
  · rw [if_pos ho]
    rfl
  · rw [if_neg ho]
    rfl

/-! ### Maintenance (R269 to R271) -/

theorem maintain_of {s : State} {p : Nat} {q : Packet} {op : Nat → Bool} (hit : Packet → Nat → Bool) (h : Maintains s p q) (hop : op (mOp q) = true) :
    maintain p op hit s = .next ((s.modSite p fun x => { x with cache := { x.cache with
         mq := x.cache.mq.drop 1, lines := x.cache.lines.filter (fun l => !hit q l.line), fills := x.cache.fills.map (fun f => if hit q f.line then { f with dropped := true } else f),
         inval := x.cache.inval + BitVec.ofNat 32 (x.cache.lines.filter fun l => hit q l.line).length } }).respond
       { pkt := q, goal := .nowhere, place := .dest p, escape := false, fill := none } (.router p 0 0) .wack 0 []) := by
  obtain ⟨hp, ⟨l, hmq⟩, hst⟩ := h
  have hrest : (s.site p).cache.mq.drop 1 = l := by rw [hmq]; rfl
  rw [maintain, onSite, if_pos hp, hmq]
  dsimp only
  rw [if_neg (not_or.2 ⟨hst, by rw [hop]; decide⟩)]
  unfold State.modSite
  dsimp only
  rw [hrest]
  rfl

/-- Settles O28: with the packet at its slice each command looks the line up once, and each branch of the model is one clause. -/
theorem slicesComplete : Obligations.SlicesComplete := by
  unfold Obligations.SlicesComplete
  refine ⟨fun i p joins f x s => exec_cacheRead_hit joins, fun i p joins err f s => exec_cacheRead_miss joins err, fun i p f s h hop => exec_cacheWrite h hop rfl,
    fun i p line q f x s hflight hgoal hfill harr hresp hbuf => exec_cacheFillReturn hflight hgoal hfill harr hresp hbuf rfl, ?_⟩
  refine ⟨fun p q s h hop => ?_, fun p q s h hop => ?_, fun p q s h hop => ?_, fun p q s h hop => ?_⟩
  · exact maintain_of (op := fun o => o == 1) (fun q l => l == mLine q) h (by rw [hop]; rfl)
  · exact maintain_of (op := fun o => o == 2) (fun q l => decide (mLine q ≤ l ∧ l < mLine q + mLines q)) h (by rw [hop]; rfl)
  · exact maintain_of (op := fun o => o == 3) (fun _ _ => true) h (by rw [hop]; rfl)
  · refine maintain_of (op := fun o => o == 0 || decide (3 < o)) (fun _ _ => false) h ?_
    rw [Bool.or_eq_true, beq_iff_eq, decide_eq_true_eq]
    exact hop

/-! ### Host ports (R286, R287) -/

/-- The link comes up in the widest width, then the fastest rate, that both sides share (R286). -/
theorem linkMode_best_iff {m : LinkMode} {w g : Nat} :
    LinkMode_best m = some (w, g) ↔ [16, 8, 4, 2, 1].find? m.widths.contains = some w ∧ [320, 160, 80, 50, 25].find? m.rates.contains = some g := by
  rw [LinkMode_best]
  cases [16, 8, 4, 2, 1].find? m.widths.contains <;> cases [320, 160, 80, 50, 25].find? m.rates.contains <;> simp
/-- The first of a falling list that a test takes is the greatest that it takes. -/
theorem le_of_find?_of_pairwise {l : List Nat} {f : Nat → Bool} {w : Nat} (hl : l.Pairwise (· ≥ ·)) (hw : l.find? f = some w) : ∀ v ∈ l, f v = true → v ≤ w := by
  obtain ⟨-, as, bs, hsplit, hnone⟩ := List.find?_eq_some_iff_append.1 hw
  subst hsplit
  intro v hv hfv
  rcases List.mem_append.1 hv with has | hbs
  · exact absurd hfv (by simpa using hnone v has)
  · rcases List.mem_cons.1 hbs with rfl | hbs
    · exact Nat.le_refl _
    · exact List.rel_of_pairwise_cons (List.pairwise_append.1 hl).2.1 hbs
theorem linkMode_best_greatest {m : LinkMode} {w g : Nat} (h : LinkMode_best m = some (w, g)) : w ∈ [16, 8, 4, 2, 1] ∧ g ∈ [320, 160, 80, 50, 25] ∧ w ∈ m.widths ∧ g ∈ m.rates ∧
    (∀ v, v ∈ [16, 8, 4, 2, 1] → v ∈ m.widths → v ≤ w) ∧ ∀ h, h ∈ [320, 160, 80, 50, 25] → h ∈ m.rates → h ≤ g := by
  obtain ⟨hw, hg⟩ := linkMode_best_iff.1 h
  exact ⟨List.mem_of_find?_eq_some hw, List.mem_of_find?_eq_some hg, List.contains_iff_mem.1 (List.find?_some hw :), List.contains_iff_mem.1 (List.find?_some hg :),
    fun v hv hm => le_of_find?_of_pairwise (by decide) hw v hv (List.contains_iff_mem.2 hm), fun v hv hm => le_of_find?_of_pairwise (by decide) hg v hv (List.contains_iff_mem.2 hm)⟩

theorem exec_portUp {s : State} {p w g : Nat} {m : LinkMode} (hp : p < 4) (hdown : (s.port p).downSeen = true) (hwidth : (s.port p).width ≠ 0)
    (hmode : (if (s.port p).cutLink = true then LinkMode_best m else some ((s.port p).width, (s.port p).gts10)) = some (w, g)) :
    let s' := s.modPort p fun x => { x with link := true, width := w, gts10 := g, cutLink := false, cutFlr := false, cutBme := false, downSeen := false }
    exec (.portUp p m) s = .next (s'.raisePort 0x0015 p (s'.port p).linkStatus 0) := by
  have hexec : exec (.portUp p m) s = execPortUp p m s := rfl
  rw [hexec, execPortUp, onPort, if_pos hp]
  dsimp only
  rw [when_, if_pos (by simp [hdown, hwidth]), hmode]
  rfl
theorem perstRelease_goesTo {s : State} {p w g : Nat} {m : LinkMode} (hp : p < 4) (hlink : (s.port p).link = false) (hwidth : (s.port p).width = 0) (hpow : s.pwr.powered = true)
    (hstage : (s.inRecovery = false ∧ s.spi.stage ≠ .failed) ∨ p = 0) (hm : LinkMode_best m = some (w, g)) :
    GoesTo (exec (.perstRelease p m) s) fun u => (u.port p).link = true ∧ (u.port p).width = w ∧ (u.port p).gts10 = g ∧ (∀ q, q ≠ p → u.port q = s.port q) ∧
      (∀ c, u.ctx c = s.ctx c) ∧ Only [.host] s u := by
  have hexec : exec (.perstRelease p m) s = execPerstRelease p m s := rfl
  have hgo : (!(s.port p).link && (s.port p).width == 0 && s.pwr.powered && !((s.inRecovery || s.spi.stage == .failed) && p != 0)) = true := by
    rcases hstage with ⟨hrec, hfail⟩ | rfl
    · simp [hlink, hwidth, hpow, hrec, hfail]
    · simp [hlink, hwidth, hpow]
  rw [hexec, execPerstRelease, onPort, if_pos hp, when_, if_pos hgo, hm]
  refine goesTo_ok ⟨?_, ?_, ?_, fun q hq => ?_, fun c => rfl, only_of_outside (by intros; simp)⟩
  · rw [State.modPort_port, if_pos rfl]
  · rw [State.modPort_port, if_pos rfl]
  · rw [State.modPort_port, if_pos rfl]
  · rw [State.modPort_port, if_neg hq]

/-- Settles O29: each command tests its port once, and the mode of a link is the first of two falling lists that both sides support. -/
theorem portsComplete : Obligations.PortsComplete := by
  unfold Obligations.PortsComplete
  refine ⟨fun p s hp hlink hcut => ?_, fun p w g m s hp hdown hwidth hmode => exec_portUp hp hdown hwidth ?_, fun p s hp hcfg => ?_, fun p s hp hcfg hbme => ?_,
    fun p w g m s => perstRelease_goesTo, fun m w g => linkMode_best_greatest⟩
  · have hexec : exec (.portDown p) s = execPortDown p s := rfl
    rw [hexec, execPortDown, onPort, if_pos hp, when_, if_pos (by simp [hlink, hcut])]
    rfl
  · split at hmode
    case isTrue hcut => rw [if_pos hcut, hmode]
    case isFalse hcut => rw [if_neg hcut, hmode.1, hmode.2]
  · have hexec : exec (.functionLevelReset p) s = execFunctionLevelReset p s := rfl
    rw [hexec, execFunctionLevelReset, onPort, if_pos hp, when_, if_pos (by simp [hcfg])]
    rfl
  · have hexec : exec (.busMasterDisable p) s = execBusMasterDisable p s := rfl
    rw [hexec, execBusMasterDisable, onPort, if_pos hp, when_, if_pos (by simp [hcfg, hbme])]
    rfl

/-! ### Host reads (R285, R301, R311, R316, R325) -/

section
variable {s : State} {id : Nat} {r : HostRead} {res : HostResult} {bs : List Byte}

/-- A completion with its bytes is taken as such and notes nothing in AER: it is good, or its ECRC is not checked (R285). -/
theorem takes_of_brings (h : res = .data bs ∨ (res = .badEcrc bs ∧ (s.port r.port).ecrcChk = false)) :
    s.noteAer r.port res = s ∧ (s.port r.port).takes res = some (.data bs) := by
  rcases h with rfl | ⟨rfl, hchk⟩
  · exact ⟨rfl, rfl⟩
  · exact ⟨if_neg (Bool.eq_false_iff.1 hchk), if_neg (Bool.eq_false_iff.1 hchk)⟩
theorem takes_of_fails (h : res = .ur ∨ res = .ca ∨ res = .poisoned) (s : State) : ((s.noteAer r.port res).port r.port).takes res = some res ∧ (s.port r.port).takes res = some res := by
  rcases h with rfl | rfl | rfl <;> exact ⟨rfl, rfl⟩
theorem takes_badEcrc (h : (s.port r.port).ecrcChk = true) (bs : List Byte) :
    s.noteAer r.port (.badEcrc bs) = s.aer r.port aerEcrc ∧ (s.port r.port).takes (.badEcrc bs) = none ∧ ((s.aer r.port aerEcrc).port r.port).takes (.badEcrc bs) = none := by
  refine ⟨if_pos h, if_pos h, if_pos ?_⟩
  rw [State.aer, State.modPort_port, if_pos rfl]
  exact h
theorem State.dropRead_readOf (s : State) (id : Nat) : (s.dropRead id).readOf id = none := by
  have hreads : (s.dropRead id).host.reads = s.host.reads.filter fun r => r.id != id := rfl
  rw [State.readOf, hreads, List.find?_eq_none]
  intro x hx
  have hne := (List.mem_filter.1 hx).2
  simpa using hne
theorem exec_hostCompletionTimeout (h : s.readOf id = some r) (hoff : (s.port r.port).ctoOff = false) (hlate : r.since + ctoNs (s.port r.port).cto ≤ s.time) :
    exec (.hostCompletionTimeout id) s = .next ((((s.dropRead id).aer r.port aerTimeout).hostFail r 2 0).copiesAsk (portEdge r.port)) := by
  have hexec : exec (.hostCompletionTimeout id) s = execHostCompletionTimeout id s := rfl
  rw [hexec, execHostCompletionTimeout, h]
  dsimp only
  rw [when_, if_pos (by simp [hoff, hlate])]
  rfl

/-- A completion of a descriptor fetch makes its descriptors ready (R301). -/
theorem descriptorFetch_goesTo {c count : Nat} {first : W32} (h : s.readOf id = some r) (hfor : r.for_ = .fetch c first count)
    (hbrings : res = .data bs ∨ (res = .badEcrc bs ∧ (s.port r.port).ecrcChk = false)) (hst : (s.ctx c).st = .ready ∨ (s.ctx c).st = .active) :
    GoesTo (exec (.descriptorFetch id res) s) fun u =>
      u.ctx c = { s.ctx c with ready := (s.ctx c).ready ++ descsOf first bs count, sqHead := (s.ctx c).sqHead + BitVec.ofNat 32 count } ∧
      (∀ d, d ≠ c → u.ctx d = s.ctx d) ∧ u.readOf id = none ∧ Only [.host] s u := by
  have hexec : exec (.descriptorFetch id res) s = execDescriptorFetch id res s := rfl
  obtain ⟨hnote, htakes⟩ := takes_of_brings hbrings
  have hctx (d : Nat) : (s.dropRead id).ctx d = s.ctx d := rfl
  rw [hexec, execDescriptorFetch, h]
  dsimp only
  rw [hfor]
  dsimp only
  rw [hnote, htakes]
  dsimp only
  rw [when_, hctx, if_pos (by simpa using hst)]
  refine goesTo_ok ⟨?_, fun d hd => ?_, s.dropRead_readOf id, only_of_outside (by intros; simp [State.dropRead])⟩
  · rw [State.modCtx_ctx, if_pos rfl, hctx]
  · rw [State.modCtx_ctx, if_neg hd, hctx]
theorem exec_descriptorFetch_fails {c count : Nat} {first : W32} (h : s.readOf id = some r) (hfor : r.for_ = .fetch c first count) (hfails : res = .ur ∨ res = .ca ∨ res = .poisoned) :
    exec (.descriptorFetch id res) s = .next (((s.noteAer r.port res).dropRead id).hostFail r 3 (hostDetail res)) := by
  have hexec : exec (.descriptorFetch id res) s = execDescriptorFetch id res s := rfl
  obtain ⟨htakes, -⟩ := takes_of_fails (r := r) hfails s
  rw [hexec, execDescriptorFetch, h]
  dsimp only
  rw [hfor]
  dsimp only
  rw [htakes]
  rcases hfails with rfl | rfl | rfl <;> rfl
theorem exec_badEcrc (h : s.readOf id = some r) (hchk : (s.port r.port).ecrcChk = true) (bs : List Byte) :
    ((∃ c first count, r.for_ = .fetch c first count) → exec (.descriptorFetch id (.badEcrc bs)) s = .next (s.aer r.port aerEcrc)) ∧
    ((∀ c first count, r.for_ ≠ .fetch c first count) → exec (.hostReadCompletion id (.badEcrc bs)) s = .next (s.aer r.port aerEcrc)) := by
  have hfetch : exec (.descriptorFetch id (.badEcrc bs)) s = execDescriptorFetch id (.badEcrc bs) s := rfl
  have hread : exec (.hostReadCompletion id (.badEcrc bs)) s = execHostReadCompletion id (.badEcrc bs) s := rfl
  obtain ⟨hnote, htakes, htakes'⟩ := takes_badEcrc hchk bs
  refine ⟨fun ⟨c, first, count, hfor⟩ => ?_, fun hfor => ?_⟩
  · rw [hfetch, execDescriptorFetch, h]
    dsimp only
    rw [hfor]
    dsimp only
    rw [hnote, htakes']
    rfl
  · rw [hread, execHostReadCompletion, h]
    dsimp only
    rw [htakes, hnote]
    cases hf : r.for_ with
    | fetch c f n => exact absurd hf (hfor c f n)
    | copy => rfl
    | tileRead => rfl
    | flush => rfl
    | image => rfl

/-- A completion that is no descriptor fetch brings its bytes to what asked for them (R311, R316, R325, R460). -/
theorem exec_hostReadCompletion_brings (h : s.readOf id = some r) (hbrings : res = .data bs ∨ (res = .badEcrc bs ∧ (s.port r.port).ecrcChk = false)) :
    (∀ c n at_, r.for_ = .copy c n at_ → exec (.hostReadCompletion id res) s = .next (((s.dropRead id).copyGot c n at_ (bs.take r.len)).copiesAsk (portEdge r.port))) ∧
    (∀ q fill, r.for_ = .tileRead q fill → exec (.hostReadCompletion id res) s = .next ((s.dropRead id).respond { pkt := q, goal := .nowhere, place := .edge (portEdge r.port), escape := false, fill }
      (.edge (portEdge r.port)) .rdata 0 (bs.take r.len))) ∧
    (∀ c n, r.for_ = .flush c n → exec (.hostReadCompletion id res) s = .next ((s.dropRead id).flushBack c n)) ∧
    (∀ at_, r.for_ = .image at_ → exec (.hostReadCompletion id res) s = .next ((s.dropRead id).updateGot at_ (bs.take r.len))) := by
  have hexec : exec (.hostReadCompletion id res) s = execHostReadCompletion id res s := rfl
  obtain ⟨-, htakes⟩ := takes_of_brings hbrings
  rw [hexec, execHostReadCompletion, h]
  dsimp only
  rw [htakes]
  refine ⟨fun c n at_ hfor => ?_, fun q fill hfor => ?_, fun c n hfor => ?_, fun at_ hfor => ?_⟩ <;> (rw [hfor]; rfl)
theorem exec_hostReadCompletion_fails (h : s.readOf id = some r) (hfor : ∀ c f n, r.for_ ≠ .fetch c f n) (hfails : res = .ur ∨ res = .ca ∨ res = .poisoned) :
    exec (.hostReadCompletion id res) s = .next ((((s.noteAer r.port res).dropRead id).hostFail r 3 (hostDetail res)).copiesAsk (portEdge r.port)) := by
  have hexec : exec (.hostReadCompletion id res) s = execHostReadCompletion id res s := rfl
  obtain ⟨-, htakes⟩ := takes_of_fails (r := r) hfails s
  rw [hexec, execHostReadCompletion, h]
  dsimp only
  rw [htakes]
  generalize hr : r.for_ = k at hfor
  cases k with
  | fetch c f n => exact absurd rfl (hfor c f n)
  | copy => rcases hfails with rfl | rfl | rfl <;> rfl
  | tileRead => rcases hfails with rfl | rfl | rfl <;> rfl
  | flush => rcases hfails with rfl | rfl | rfl <;> rfl
  | image => rcases hfails with rfl | rfl | rfl <;> rfl
end
theorem exec_edgeTrackerTimeout {s : State} {pe k : Nat} {x : ETrk} (hpe : pe < 2) (h : lget? (s.etrks pe) k = some x) (hended : x.ended = false) (hlate : x.since + s.rtoNs x.part ≤ s.time) :
    exec (.edgeTrackerTimeout pe k) s = .next (((s.setEtrks pe (lset (s.etrks pe) k { x with ended := true, since := s.time })).edgeFail x stTimeout).copiesAsk pe) := by
  have hexec : exec (.edgeTrackerTimeout pe k) s = execEdgeTrackerTimeout pe k s := rfl
  rw [hexec, execEdgeTrackerTimeout, if_neg (Nat.not_le.2 hpe), h]
  dsimp only
  rw [when_, if_pos (by simp [hended, hlate])]
  rfl

/-- Settles O30: a completion is taken with its bytes, with its failure or not at all, and each kind of read then has its own end. -/
theorem hostReadsComplete : Obligations.HostReadsComplete := by
  unfold Obligations.HostReadsComplete
  intro brings fails
  refine ⟨fun id r s => exec_hostCompletionTimeout, fun id c count first bs res r s => descriptorFetch_goesTo, fun id c count first res r s => exec_descriptorFetch_fails,
    fun id bs r s h hchk => exec_badEcrc h hchk bs, fun id c at_ n bs res r s h hfor hbrings => (exec_hostReadCompletion_brings h hbrings).1 c n at_ hfor,
    fun id q fill bs res r s h hfor hbrings => (exec_hostReadCompletion_brings h hbrings).2.1 q fill hfor,
    fun id c n bs res r s h hfor hbrings => (exec_hostReadCompletion_brings h hbrings).2.2.1 c n hfor,
    fun id at_ bs res r s h hfor hbrings => (exec_hostReadCompletion_brings h hbrings).2.2.2 at_ hfor,
    fun id res r s => exec_hostReadCompletion_fails, fun pe k x s => exec_edgeTrackerTimeout⟩
end Sys2Proof.Machine
end

section
/-! PROOFS. Descriptors start and complete (R132, R166, R302 to R316, R361, R414; O33, O34). -/

namespace Sys2Proof.Machine

open Sys2Proof.Safety (Blk Only GoesTo Starts started)

/-! ### A descriptor that starts (R304, R306) -/

theorem Desc.reservedBad_of {d : Desc} (h : d.reservedBad = false) : (decide (d.opc ≤ 10) && d.reservedBad) = false := by rw [h, Bool.and_false]
theorem starting_of {s : State} {c k : Nat} {d : Desc} {is : Nat → Bool} (h : Starts s c d k) (his : is k = true) (prog : Prog) (cont : State → Desc → Out) :
    starting s c is prog cont = cont (started s c d prog) d := by
  obtain ⟨hc, hnext, hmay, hturn, hopc⟩ := h
  rw [starting, onCtx, if_pos hc, hnext]
  dsimp only
  rw [if_neg (by rw [hopc, his, hmay, hturn]; decide)]
  rfl
theorem State.wildDesc_only (s : State) (c : Nat) (bad : Bool) : Only [.freeN, .tiles, .chans] s (s.wildDesc c bad) := by
  unfold State.wildDesc
  split
  · exact only_of_outside (by intros; simp)
  · exact Only.refl s
theorem started_only (s : State) (c : Nat) (d : Desc) (prog : Prog) : Only [.freeN, .tiles, .chans, .host] s (started s c d prog) := by
  unfold started State.wildDesc
  refine only_of_outside (by intros; dsimp only; split <;> simp)
theorem started_time (s : State) (c : Nat) (d : Desc) (prog : Prog) : (started s c d prog).time = s.time := time_of_only (started_only s c d prog) (by decide)
theorem started_rick (s : State) (c : Nat) (d : Desc) (prog : Prog) : (started s c d prog).rick = s.rick := rick_of_only (started_only s c d prog) (by decide)

/-! ### Short descriptors (R132, R302 to R308, R316, R414) -/

theorem exec_fence {s : State} {c : Nat} {d : Desc} (h : Starts s c d 8) : exec (.fence c) s = execFence c s ∧
    ∀ cont, starting s c (· == 8) (.fence 0) cont = cont (started s c d (.fence 0)) d :=
  ⟨rfl, starting_of h rfl (.fence 0)⟩
theorem exec_fence_short {s : State} {c : Nat} {d : Desc} (h : Starts s c d 8) (hshort : bitOf (d.w 1) 0 = false ∨ ((started s c d (.fence 0)).ctx c).ports4 = []) :
    exec (.fence c) s = .next (((started s c d (.fence 0)).modCtx c fun x => { x with ports4 := [] }).endDesc c d.n (okEnding 0)) := by
  obtain ⟨hexec, hstart⟩ := exec_fence h
  rw [hexec, execFence, hstart]
  refine (if_neg fun hlong => ?_).trans rfl
  rcases hshort with hbit | hports
  · exact Bool.eq_false_iff.1 hbit hlong.1
  · exact hlong.2 hports
theorem exec_fence_long {s : State} {c : Nat} {d : Desc} (h : Starts s c d 8) (hflush : bitOf (d.w 1) 0 = true) (hports : ((started s c d (.fence 0)).ctx c).ports4 ≠ []) :
    exec (.fence c) s = .next (((started s c d (.fence 0)).ctx c).ports4.foldl (fun u p =>
        if (u.port p).mute then u.endDesc c d.n (errEnding 0x03 0 0x11 0 none) else u.issueRead p ((started s c d (.fence 0)).ctx c).cfg.cqBase 16 (.flush c d.n))
      (((started s c d (.fence 0)).modCtx c fun x => { x with ports4 := [] }).modDesc c d.n fun y => { y with prog := .fence ((started s c d (.fence 0)).ctx c).ports4.length })) := by
  obtain ⟨hexec, hstart⟩ := exec_fence h
  rw [hexec, execFence, hstart]
  exact (if_pos ⟨hflush, hports⟩).trans rfl
theorem exec_descriptorComplete {s : State} {c n : Nat} {x : InFl} {e : Ending} (hc : c < 3072) (hx : s.desc c (BitVec.ofNat 32 n) = some x) (hfin : x.fin = some e)
    (hst : (s.ctx c).st = .active) (hok : e.status = 0) :
    let s' := s.complete c x.d.n x.d.tag x.d.irq e
    let l := (s'.ctx c).inflight.filter fun y => y.d.n != x.d.n
    exec (.descriptorComplete c n) s = .next (s'.modCtx c fun y =>
      { y with inflight := l, st := if l.isEmpty && y.ready.isEmpty && y.sqTail == y.sqHead then .ready else y.st }) := by
  obtain ⟨d, prog, fin⟩ := x
  obtain rfl : fin = some e := hfin
  have hexec : exec (.descriptorComplete c n) s = execDescriptorComplete c n s := rfl
  rw [hexec, execDescriptorComplete, onCtx, if_pos hc, hx]
  dsimp only
  rw [when_, if_pos (by simp [hst, hok])]
  rfl

/-- Settles O33: the next descriptor starts, and each opcode then has its own few lines. -/
theorem shortDescriptorsComplete : Obligations.ShortDescriptorsComplete := by
  unfold Obligations.ShortDescriptorsComplete
  refine ⟨fun c d s h => ?nop, fun c k d s h hk => ?reserved,
    fun c d s h => ?phase, fun c d s => exec_fence_short, fun c d s h hflush => exec_fence_long h hflush,
    fun c d s h => ?predict, fun c d s h => ?mark, fun c n x e s => exec_descriptorComplete⟩
  case nop =>
    have hexec : exec (.nopDescriptor c) s = execNopDescriptor c s := rfl
    rw [hexec, execNopDescriptor, starting_of h rfl]
    rfl
  case reserved =>
    have hexec : exec (.reservedOpcode c) s = execReservedOpcode c s := rfl
    rw [hexec, execReservedOpcode, starting_of h (decide_eq_true hk)]
    rfl
  case phase =>
    have hexec : exec (.phase c) s = execPhase c s := rfl
    rw [hexec, execPhase, starting_of h rfl]
    rfl
  case predict =>
    have hexec : exec (.predict c) s = execPredict c s := rfl
    rw [hexec, execPredict, starting_of h rfl]
    rfl
  case mark =>
    have hexec : exec (.mark c) s = execMark c s := rfl
    rw [hexec, execMark, starting_of h rfl, started_time]
    rfl

/-! ### Long descriptors (R166, R309 to R316, R361) -/

theorem exec_copy {s : State} {c : Nat} {d : Desc} (h : Starts s c d 1) :
    let own (a : W64) : Bool := aPanel a == s.rick.panel
    let src := aSpace d.copySrc
    let dst := aSpace d.copyDst
    let bad : Bool := !own d.copySrc || !own d.copyDst || !(src == 0 || src == 3 || src == 4) || !(dst == 0 || dst == 3 || dst == 4) || d.copyLen % 8 != 0 || d.copyLen == 0
    let u := (started s c d (.copy 0 0 0 [] [] [])).wildDesc c bad
    let w := (u.win (aWin d.copyDst)).port
    (dst ≠ 4 → exec (.copy c) s = .next (u.copyStep c d.n)) ∧
    (dst = 4 → exec (.copy c) s = .next ((u.modCtx c fun x => if x.ports4.contains w then x else { x with ports4 := x.ports4 ++ [w] }).copyStep c d.n)) := by
  have hexec : exec (.copy c) s = execCopy c s := rfl
  rw [hexec, execCopy, starting_of h rfl, started_rick]
  dsimp only
  refine ⟨fun hdst => ?_, fun hdst => ?_⟩
  · rw [if_neg hdst]
    rfl
  · rw [if_pos hdst]
    rfl
theorem exec_launch {s : State} {c : Nat} {d : Desc} (h : Starts s c d 2) :
    let s' := started s c d (.launch true 0 0 [] [] 0 [])
    let x := s'.ctx c
    let u := s'.wildDesc c (bitOf (d.w 2) 0 || !regionIn (d.w 2))
    (bitOf (d.w 3) 63 = false → exec (.launch c) s = .next (u.sendStarts c d.n d x.mode x.audn x.theta)) ∧
    (bitOf (d.w 3) 63 = true → exec (.launch c) s = .next (u.edgeRead (u.peOf c) c
      (u.ctrAddr (tileAt (bitsOf (d.w 3) 62 55) (bitsOf (d.w 3) 54 48)) (bitsOf (d.w 3) 47 42)) 8 (.gate d.n x.mode x.audn x.theta))) := by
  have hexec : exec (.launch c) s = execLaunch c s := rfl
  rw [hexec, execLaunch, starting_of h rfl]
  dsimp only
  exact ⟨fun hgate => (if_neg (Bool.eq_false_iff.1 hgate)).trans rfl, fun hgate => (if_pos hgate).trans rfl⟩
theorem exec_load {s : State} {c : Nat} {d : Desc} (h : Starts s c d 3) :
    let s' := started s c d .plain
    let x := s'.ctx c
    let u := s'.wildDesc c (!regionIn (d.w 2) || loadBad (loadReqOf x c d 0))
    let w := u.modFab fun f => { f with loads := f.loads ++ (regionTiles (d.w 2)).map (loadReqOf x c d) }
    exec (.load c) s = .next ((w.modDesc c d.n fun y => { y with prog := .load (regionTiles (d.w 2)).length 0 0 0 [] [] }).loadCheck c d.n) := by
  have hexec : exec (.load c) s = execLoad c s := rfl
  rw [hexec, execLoad, starting_of h rfl]
  rfl

/-- A descriptor without a reserved field that is not 0 leaves nothing free at its start. -/
theorem started_of_reserved {s : State} {c : Nat} {d : Desc} (prog : Prog) (h : d.reservedBad = false) : Only [.host] s (started s c d prog) ∧
    ∀ t, loadReqOf ((started s c d prog).ctx c) c d t = loadReqOf (s.ctx c) c d t := by
  unfold started State.wildDesc
  dsimp only
  rw [Desc.reservedBad_of h, if_neg Bool.false_ne_true]
  refine ⟨only_of_outside (by intros; simp), fun t => ?_⟩
  change loadReqOf ((s.setCtx c _).ctx c) c d t = _
  rw [State.setCtx_ctx, if_pos rfl]
  rfl
theorem find?_modInfl {f : InFl → InFl} (hf : ∀ x, (f x).d = x.d) (n : W32) (l : List InFl) : (modInfl f n l).find? (fun x => decide (x.d.n = n)) = (l.find? fun x => decide (x.d.n = n)).map f := by
  induction l with
  | nil => rfl
  | cons x r ih =>
    rw [modInfl]
    by_cases hx : x.d.n = n
    · rw [if_pos hx, List.find?_cons_of_pos (by simp [hf, hx]), List.find?_cons_of_pos (by simp [hx])]
      rfl
    · rw [if_neg hx, List.find?_cons_of_neg (by simp [hx]), List.find?_cons_of_neg (by simp [hx]), ih]
theorem State.modDesc_desc (s : State) (c : Nat) (n : W32) {f : InFl → InFl} (hf : ∀ x, (f x).d = x.d) : (s.modDesc c n f).desc c n = (s.desc c n).map f := by
  unfold State.desc State.modDesc
  rw [State.modCtx_ctx, if_pos rfl]
  exact find?_modInfl hf n _
/-- Of a descriptor that ends well, contexts alone learn. -/
theorem State.endDesc_ok_only (s : State) (c : Nat) (n : W32) {e : Ending} (he : e.status = 0) : Only [.host] s (s.endDesc c n e) := by
  unfold State.endDesc
  split
  · exact Only.refl s
  · split
    · exact Only.refl s
    · exact only_of_outside (by intros; simp)
/-- A LOAD that has only asked, of however many tiles, tells contexts alone. -/
theorem State.loadAsks_only (s : State) (c : Nat) (n : W32) (k : Nat) : Only [.host] s ((s.modDesc c n fun y => { y with prog := .load k 0 0 0 [] [] }).loadCheck c n) := by
  have hmod : Only [.host] s (s.modDesc c n fun y => { y with prog := .load k 0 0 0 [] [] }) := only_of_outside (by intros; simp)
  have hdesc := s.modDesc_desc c n (f := fun y => { y with prog := .load k 0 0 0 [] [] }) fun _ => rfl
  unfold State.loadCheck
  rw [hdesc]
  cases s.desc c n with
  | none => exact hmod
  | some x =>
    dsimp only [Option.map_some]
    split
    · exact hmod
    · exact Only.trans hmod (State.endDesc_ok_only _ c n rfl)
theorem load_goesTo {s : State} {c : Nat} {d : Desc} (h : Starts s c d 3) (hin : regionIn (d.w 2) = true) (hres : d.reservedBad = false) (hbad : loadBad (loadReqOf (s.ctx c) c d 0) = false) :
    GoesTo (exec (.load c) s) fun u => u.fab.loads = s.fab.loads ++ (regionTiles (d.w 2)).map (loadReqOf (s.ctx c) c d) ∧ u.tiles = s.tiles ∧ u.fab.flights = s.fab.flights := by
  obtain ⟨hstarted, hreq⟩ := started_of_reserved (c := c) (s := s) .plain hres
  have hfun : loadReqOf ((started s c d .plain).ctx c) c d = loadReqOf (s.ctx c) c d := funext hreq
  refine goesTo_of_eq (exec_load h) ?_
  rw [hfun, hbad, hin]
  generalize started s c d .plain = s' at hstarted
  have hfab : s'.fab = s.fab := fab_of_only hstarted (by decide)
  have htiles : s'.tiles = s.tiles := tiles_of_only hstarted (by decide)
  rw [fab_of_only (State.loadAsks_only _ c d.n _) (by decide), tiles_of_only (State.loadAsks_only _ c d.n _) (by decide), ← hfab, ← htiles]
  exact ⟨rfl, rfl, rfl⟩
theorem exec_wait {s : State} {c : Nat} {d : Desc} (h : Starts s c d 4) :
    let u := started s c d (.wait true 0)
    exec (.wait c) s = .next (u.edgeRead (u.peOf c) c (u.waitAddr d) 8 (.wait d.n)) := by
  have hexec : exec (.wait c) s = execWait c s := rfl
  rw [hexec, execWait, starting_of h rfl]
  rfl
theorem exec_waitPoll {s : State} {c n since : Nat} {x : InFl} (hc : c < 3072) (hx : s.desc c (BitVec.ofNat 32 n) = some x) (hprog : x.prog = .wait false since) (hfin : x.fin = none)
    (hst : (s.ctx c).st = .active) (hlate : since + us ≤ s.time) :
    exec (.waitPoll c n) s = .next ((s.modDesc c x.d.n fun y => { y with prog := .wait true since }).edgeRead (s.peOf c) c (s.waitAddr x.d) 8 (.wait x.d.n)) := by
  obtain ⟨d, prog, fin⟩ := x
  obtain rfl : prog = .wait false since := hprog
  obtain rfl : fin = none := hfin
  have hexec : exec (.waitPoll c n) s = execWaitPoll c n s := rfl
  rw [hexec, execWaitPoll, onCtx, if_pos hc, hx]
  dsimp only
  rw [when_, if_pos (by simp [hst, hlate])]
  rfl
theorem exec_signal {s : State} {c : Nat} {d : Desc} (h : Starts s c d 5) :
    let s' := started s c d .plain
    let strays := (regionTiles (d.w 1)).any fun t => (s'.tileSt t).part != some (s'.ctx c).cfg.part
    let u := (regionTiles (d.w 1)).foldl (fun s t => s.sendCnt c d t) (s'.wildDesc c (!regionIn (d.w 1)))
    (strays = false → exec (.signal c) s = .next (u.endDesc c d.n (okEnding (regionTiles (d.w 1)).length))) ∧
    (strays = true → exec (.signal c) s = .next u) := by
  have hexec : exec (.signal c) s = execSignal c s := rfl
  rw [hexec, execSignal, starting_of h rfl]
  dsimp only
  exact ⟨fun hstray => congrArg ok (if_neg (Bool.eq_false_iff.1 hstray)), fun hstray => congrArg ok (if_pos hstray)⟩
theorem exec_barrier {s : State} {c : Nat} {d : Desc} (h : Starts s c d 7) :
    let id := bitsOf (d.w 1) 37 32
    let count := bitsOf (d.w 1) 31 0
    let u := (started s c d .barrier).wildDesc c (count == 0)
    let w := u.modRick fun r => { r with waiting := tmod [] r.waiting id fun l => l ++ [(c, d.n)] }
    (bitOf (d.w 1) 63 = false → exec (.barrier c) s = .next (u.partArrive c d id count)) ∧
    (bitOf (d.w 1) 63 = true → (u.partn (u.ctx c).cfg.part).cur.rickbar = true → u.rick.master = true → exec (.barrier c) s = .next (w.rickArrive w.rick.panel id count)) ∧
    (bitOf (d.w 1) 63 = true → (u.partn (u.ctx c).cfg.part).cur.rickbar = true → u.rick.master = false → u.rick.inrick = true → exec (.barrier c) s = .next w) ∧
    (bitOf (d.w 1) 63 = true → ((u.partn (u.ctx c).cfg.part).cur.rickbar = false ∨ (u.rick.master = false ∧ u.rick.inrick = false)) →
      exec (.barrier c) s = .next (u.endDesc c d.n (errEnding 0x04 0 stNoRoute 0 none))) := by
  have hexec : exec (.barrier c) s = execBarrier c s := rfl
  rw [hexec, execBarrier, starting_of h rfl]
  dsimp only
  generalize (started s c d .barrier).wildDesc c (bitsOf (d.w 1) 31 0 == 0) = u
  refine ⟨fun hown => (if_neg (Bool.eq_false_iff.1 hown)).trans rfl, fun hrick hbar hmaster => ?_, fun hrick hbar hmaster hin => ?_, fun hrick hnone => ?_⟩
  · have hgoes : ¬ ((u.partn (u.ctx c).cfg.part).cur.rickbar = false ∨ (u.rick.master = false ∧ u.rick.inrick = false)) := by simp [hbar, hmaster]
    exact (if_pos hrick).trans ((if_neg hgoes).trans (if_pos hmaster))
  · have hgoes : ¬ ((u.partn (u.ctx c).cfg.part).cur.rickbar = false ∨ (u.rick.master = false ∧ u.rick.inrick = false)) := by simp [hbar, hin]
    exact (if_pos hrick).trans ((if_neg hgoes).trans (if_neg (Bool.eq_false_iff.1 hmaster)))
  · exact (if_pos hrick).trans (if_pos hnone)

/-- Settles O34: the next descriptor starts, a driver error of its fields leaves the partition free, and each opcode then does its part. -/
theorem longDescriptorsComplete : Obligations.LongDescriptorsComplete := by
  unfold Obligations.LongDescriptorsComplete
  exact ⟨fun c d s => exec_copy, fun c d s => exec_launch, fun c d s => exec_load, fun c d s => load_goesTo, fun c d s h => exec_wait h, fun c n since x s => exec_waitPoll,
    fun c d s => exec_signal, fun c d s => exec_barrier⟩
end Sys2Proof.Machine
end

section
/-! PROOFS. The matrix engine's parts: what runs in its units, what bytes that land leave of it, and how a command ends (R43 to R79). -/

namespace Sys2Proof.Machine

open Sys2Proof.Safety (Blk Only GoesTo)

/-! ### What bytes that land in tile SRAM leave of the engine (R52) -/

/-- A running command but for the words that it reads and that have changed. -/
def Running.sansHits (r : Running) : Running := { r with hits := [] }
/-- An engine but for the changed words of its commands. -/
def Engine.sansHits (e : Engine) : Engine :=
  { e with loader := e.loader.map Running.sansHits, array := e.array.map Running.sansHits, packer := e.packer.map Running.sansHits }
theorem Engine.sansHits_unit (e : Engine) (u : EngUnit) : e.sansHits.unit u = (e.unit u).map Running.sansHits := by cases u <;> rfl
theorem Engine.touched_sansHits (e : Engine) (m : Mem) (a n : Nat) : (e.touched m a n).sansHits = e.sansHits := by
  have hmap (l : List Running) : (l.map (Running.touched m a n)).map Running.sansHits = l.map Running.sansHits := by
    rw [List.map_map]
    rfl
  unfold Engine.touched Engine.sansHits
  dsimp only
  rw [hmap, hmap, hmap]
/-- What does not look at changed words is the same in engines that differ in them alone. -/
theorem Engine.field_of_sansHits {α : Type} (π : Engine → α) (hπ : ∀ e, π e.sansHits = π e) {e e' : Engine} (h : e.sansHits = e'.sansHits) : π e = π e' := by
  rw [← hπ e, h, hπ]
theorem Engine.unitCmds_of_sansHits {e e' : Engine} (h : e.sansHits = e'.sansHits) (u : EngUnit) : (e.unit u).map (·.cmd) = (e'.unit u).map (·.cmd) := by
  have hu : (e.unit u).map Running.sansHits = (e'.unit u).map Running.sansHits := by rw [← e.sansHits_unit, ← e'.sansHits_unit, h]
  have hcmds := congrArg (List.map fun r : Running => r.cmd) hu
  rw [List.map_map, List.map_map] at hcmds
  exact hcmds
theorem Engine.packs_of_sansHits {e e' : Engine} (h : e.sansHits = e'.sansHits) :
    e.packer.map (fun r => (r.cmd, r.block, r.mask)) = e'.packer.map (fun r => (r.cmd, r.block, r.mask)) := by
  have hu : e.packer.map Running.sansHits = e'.packer.map Running.sansHits := congrArg Engine.packer h
  have hpacks := congrArg (List.map fun r : Running => (r.cmd, r.block, r.mask)) hu
  rw [List.map_map, List.map_map] at hpacks
  exact hpacks

section
variable (T : Tile) (a n : Nat) (bs : List Byte) (free : Nat → Bool)
theorem Tile.sramPut_eng : (T.sramPut a bs).eng.sansHits = T.eng.sansHits := Engine.touched_sansHits ..
theorem Tile.putFree_eq : T.putFree a bs free n = (wordsOf a bs.length).foldl (fun t w =>
    if !free w || Config.freeBool (n + w - a / 8) then t.sramPut (max a (8 * w)) ((bs.drop (max a (8 * w) - a)).take (8 * w + 8 - max a (8 * w))) else t) (T.hitResv (0x1000000 + a) bs.length) := rfl
/-- What a write of any bytes leaves of a tile, a write of which each word may come later leaves too. -/
theorem Tile.putFree_field {α : Type} (π : Tile → α) (hput : ∀ T a bs, π (Tile.sramPut T a bs) = π T) (hhit : ∀ T a n, π (Tile.hitResv T a n) = π T) : π (T.putFree a bs free n) = π T := by
  rw [Tile.putFree_eq]
  refine (List.foldlRecOn (motive := fun x : Tile => π x = π (T.hitResv (0x1000000 + a) bs.length)) _ _ rfl fun x hx w _ => ?_).trans (hhit ..)
  split
  · exact (hput ..).trans hx
  · exact hx
theorem Tile.putFree_eng : (T.putFree a bs free n).eng.sansHits = T.eng.sansHits := T.putFree_field a n bs free (fun T => T.eng.sansHits) Tile.sramPut_eng fun _ _ _ => rfl
theorem Tile.putFree_besideMem : (T.putFree a bs free n).besideMem = T.besideMem := T.putFree_field a n bs free Tile.besideMem Tile.sramPut_besideMem Tile.hitResv_besideMem
theorem Tile.putFree_mem_outside {j : Nat} (hj : j < a ∨ a + bs.length ≤ j) : memGet (T.putFree a bs free n).sram j = memGet T.sram j := by
  rw [Tile.putFree_eq]
  refine (List.foldlRecOn (motive := fun x : Tile => memGet x.sram j = memGet T.sram j) _ _ rfl fun x hx w _ => ?_)
  split
  · refine (memGet_memPutList_other _ _ _ j ?_).trans hx
    rw [List.length_take, List.length_drop]
    omega
  · exact hx
end

theorem lget_drop (d : Byte) : ∀ (k : Nat) (l : List Byte) (i : Nat), lget d (l.drop k) i = lget d l (k + i)
  | 0, l, i => by rw [List.drop_zero, Nat.zero_add]
  | _ + 1, [], _ => rfl
  | k + 1, x :: l, i => by
    rw [List.drop_succ_cons, lget_drop d k l i, Nat.add_right_comm]
    rfl
theorem lget_take (d : Byte) : ∀ (n : Nat) (l : List Byte) (i : Nat), i < n → lget d (l.take n) i = lget d l i
  | _ + 1, [], _, _ => rfl
  | _ + 1, _ :: _, 0, _ => rfl
  | n + 1, _ :: l, i + 1, h => lget_take d n l i (Nat.lt_of_succ_lt_succ h)
theorem lget_take_drop {d : Byte} {l : List Byte} {k n i : Nat} (h : i < n) : lget d ((l.drop k).take n) i = lget d l (k + i) := (lget_take d n _ i h).trans (lget_drop d k l i)
/-- A byte of a run of bytes that land word by word, once its word has landed. -/
theorem memGet_foldl_words {a : Nat} {bs : List Byte} {i : Nat} (hi : i < bs.length) (l : List Nat) (T : Tile) (h : (a + i) / 8 ∈ l ∨ memGet T.sram (a + i) = lget 0 bs i) :
    memGet (l.foldl (fun t w => t.sramPut (max a (8 * w)) ((bs.drop (max a (8 * w) - a)).take (8 * w + 8 - max a (8 * w)))) T).sram (a + i) = lget 0 bs i := by
  induction l generalizing T with
  | nil => exact h.resolve_left List.not_mem_nil
  | cons w l ih =>
    rw [List.foldl_cons]
    apply ih
    by_cases hw : (a + i) / 8 = w
    · refine .inr ?_
      obtain ⟨k, hk⟩ : ∃ k, a + i = max a (8 * w) + k := ⟨a + i - max a (8 * w), by omega⟩
      have hlen : k < ((bs.drop (max a (8 * w) - a)).take (8 * w + 8 - max a (8 * w))).length := by
        rw [List.length_take, List.length_drop]
        omega
      have hidx : max a (8 * w) - a + k = i := by omega
      rw [hk]
      refine (memGet_memPutList _ _ _ k hlen).trans ?_
      rw [lget_take_drop (by rw [List.length_take] at hlen; omega), hidx]
    · rcases h with hmem | hval
      · exact .inl ((List.mem_cons.1 hmem).resolve_left hw)
      · refine .inr ((memGet_memPutList_other _ _ _ _ ?_).trans hval)
        rw [List.length_take, List.length_drop]
        omega
theorem mem_wordsOf {a n i : Nat} (hi : i < n) : (a + i) / 8 ∈ wordsOf a n := by
  rw [wordsOf, if_neg (by omega), mem_rangeFrom]
  omega
theorem memGetList_of_bytes : ∀ (bs : List Byte) (m : Mem) (a : Nat), (∀ i, i < bs.length → memGet m (a + i) = lget 0 bs i) → memGetList m a bs.length = bs
  | [], _, _, _ => rfl
  | b :: bs, m, a, h => by
    have hb : memGet m a = b := h 0 (Nat.succ_pos _)
    have hrest := memGetList_of_bytes bs m (a + 1) fun i hi => by
      rw [Nat.add_assoc, Nat.add_comm 1 i]
      exact h (i + 1) (Nat.succ_lt_succ hi)
    rw [List.length_cons, memGetList, hb, hrest]
/-- With no word that is free, the bytes stand there. -/
theorem Tile.putFree_reads (T : Tile) (a n : Nat) (bs : List Byte) {free : Nat → Bool} (hfree : ∀ w, free w = false) : memGetList (T.putFree a bs free n).sram a bs.length = bs := by
  refine memGetList_of_bytes bs _ a fun i hi => ?_
  rw [Tile.putFree_eq]
  simp only [hfree, Bool.not_false, Bool.true_or, if_true]
  exact memGet_foldl_words hi _ _ (.inl (mem_wordsOf hi))

/-! ### What an end of a command leaves of the engine (R43, R48, R59, R79) -/

section
variable (r : Running) (fate : Fare) (m : Mem) (n : Nat) (e : Engine)

/-- The counts of an end are counts of passes, paths and corrections alone (R79). -/
theorem Running.counted_eq : ∃ sp dp busy dead corr, r.counted fate m n e = { e with spath := sp, dpath := dp, busycyc := busy, deadpass := dead, corrected := corr } := by
  unfold Running.counted Engine.countPath
  cases r.path with
  | none => exact ⟨_, _, _, _, _, rfl⟩
  | some b => cases b <;> exact ⟨_, _, _, _, _, rfl⟩
theorem Running.counted_runs (hbad : r.bad = false) : (r.counted .runs m n e).busycyc = e.busycyc + BitVec.ofNat 32 (r.passes m).1 ∧
    (r.counted .runs m n e).corrected = e.corrected + BitVec.ofNat 32 (r.struck m).corrected := by
  unfold Running.counted
  dsimp only
  rw [hbad]
  exact ⟨rfl, rfl⟩
/-- The results of a command are its panel or its rows (R43, R48, R59). -/
theorem Running.results_eq : ∃ acc cls s0 s1, r.results fate m n e = { e with acc := acc, cls := cls, slot0 := s0, slot1 := s1 } := by
  unfold Running.results
  split
  · unfold Engine.setSlot
    split <;> exact ⟨_, _, _, _, rfl⟩
  · split <;> exact ⟨_, _, _, _, rfl⟩
  · split <;> exact ⟨_, _, _, _, rfl⟩
  · exact ⟨_, _, _, _, rfl⟩
  · exact ⟨_, _, _, _, rfl⟩
theorem Running.results_load (hop : r.cmd.op = 1) (hbad : r.bad = false) : r.results fate m n e = e.setSlot r.cmd.slot { loadPanel m r.cmd with loaded := true } := by
  rw [Running.results, hop, hbad]
  rfl
theorem Running.results_mma {cl : RateClass} (hop : r.cmd.op = 2) (hbad : r.bad = false) (hcl : r.cls? m = some cl) :
    r.results .runs m n e = mmaRun e m r.cmd r.panel cl r.rows r.cols r.hw.upset n := by
  rw [Running.results, hop, hbad, hcl]
  rfl
theorem Running.results_zero (hop : r.cmd.op = 4) : r.results fate m n e = zeroRows e r.cmd.rows := by
  rw [Running.results, hop]
  rfl
theorem Running.results_store (hop : r.cmd.op = 3) (hbad : r.bad = false) : r.results fate m n e = if r.cmd.keepacc then e else zeroRows e r.cmd.rows := by
  rw [Running.results, hop, hbad]
  simp
/-- An MMA reads of the engine its rows and their classes alone (R46, R48). -/
theorem mmaRun_congr {e e' : Engine} (hacc : e.acc = e'.acc) (hcls : e.cls = e'.cls) (m : Mem) (c : EngCmd) (sl : Slot) (cl : RateClass) (k : Nat) (w : W64) (up : Option BlockUpset) (n : Nat) :
    (mmaRun e m c sl cl k w up n).acc = (mmaRun e' m c sl cl k w up n).acc ∧ (mmaRun e m c sl cl k w up n).cls = (mmaRun e' m c sl cl k w up n).cls := by
  unfold mmaRun
  dsimp only
  rw [hacc, hcls]
  exact ⟨rfl, rfl⟩
theorem Engine.setSlot_slotOf (b : Bool) (x : Slot) : (e.setSlot b x).slotOf b = x ∧ (e.setSlot b x).slotOf (!b) = e.slotOf (!b) ∧ (e.setSlot b x).acc = e.acc := by
  cases b <;> exact ⟨rfl, rfl, rfl⟩
theorem Engine.setUnit_unit (u w : EngUnit) (l : List Running) : (e.setUnit u l).unit w = if w = u then l else e.unit w := by cases u <;> cases w <;> rfl
end

/-! ### The words that a unit reads (R253, R254) -/

/-- What an engine works on in its tile: its own state, tile SRAM and the counters. -/
def Tile.bench (T : Tile) : Engine × Mem × Tbl Ctr := (T.eng, T.sram, T.ctrs)
section
variable (s : State) (t : Nat)
theorem State.noteLost_tile (n : Nat) : (s.noteLost t).tile n = s.tile n := tile_of_only (bs := [.host]) (only_of_outside (by intros; simp)) (by decide) n
theorem State.modTile_bench {f : Tile → Tile} (hf : ∀ T, (f T).bench = T.bench) (n : Nat) : ((s.modTile n f).tile t).bench = (s.tile t).bench := by
  rw [State.modTile_tile]
  split
  · next h => rw [h, hf]
  · rfl
theorem State.fence_bench (n : Nat) : ((s.fence n).tile t).bench = (s.tile t).bench := by
  unfold State.fence
  refine (State.modTile_bench _ t ?_ n).trans ?_
  · exact fun _ => rfl
  · exact congrArg Tile.bench (s.noteLost_tile n t)
theorem State.candidate_bench (n by_ : Nat) : ((s.candidate n by_).tile t).bench = (s.tile t).bench := by
  unfold State.candidate
  split
  · rfl
  · split
    · refine (State.modTile_bench _ t (by exact fun _ => rfl) n).trans ((State.fence_bench _ t n).trans ?_)
      rw [State.raiseTile_tile]
      exact State.modTile_bench _ t (by exact fun _ => rfl) n
    · extract_lets s1 s2
      have h2 : (s2.tile t).bench = (s.tile t).bench := by
        rw [State.raiseTile_tile]
        exact State.modTile_bench _ t (by exact fun _ => rfl) n
      split
      · exact (State.modTile_bench _ t (by exact fun _ => rfl) n).trans ((State.fence_bench _ t n).trans h2)
      · exact h2
theorem State.scoreCheck_bench (n : Nat) : ((s.scoreCheck n).tile t).bench = (s.tile t).bench := by
  unfold State.scoreCheck
  split
  · exact State.modTile_bench s t (by exact fun _ => rfl) n
  · extract_lets T s1
    have h1 : (s1.tile t).bench = (s.tile t).bench := by
      unfold s1
      split
      · rw [State.raiseTile_tile]
        exact State.modTile_bench s t (by exact fun _ => rfl) n
      · rfl
    split
    · exact (State.candidate_bench s1 t n 1).trans h1
    · exact h1
theorem State.penalise_bench (n kind : Nat) : ((s.penalise n kind).tile t).bench = (s.tile t).bench := by
  unfold State.penalise
  refine (State.scoreCheck_bench _ t n).trans ?_
  exact State.modTile_bench _ t (by exact fun _ => rfl) n
theorem State.sramUe_bench (w : Nat) : ((s.sramUe t w).tile t).bench = (s.tile t).bench := by
  unfold State.sramUe
  extract_lets T known s1
  have h1 : (s1.tile t).bench = (s.tile t).bench := by
    unfold s1
    rw [State.setTile_tile, if_pos rfl]
    rfl
  split
  · exact h1
  · refine (State.penalise_bench _ t t 2).trans ?_
    rw [State.raiseTile_tile]
    exact h1
theorem State.unitReads_bench (f : Nat → Bool) : ((s.unitReads t f).tile t).bench = (s.tile t).bench := by
  unfold State.unitReads State.sramUes
  refine (List.foldlRecOn (motive := fun u : State => (u.tile t).bench = ((s.modTile t fun T => T.meet f).tile t).bench) _ _ rfl fun u hu w _ => (u.sramUe_bench t w).trans hu).trans ?_
  exact State.modTile_bench s t (by exact fun _ => rfl) t
/-- What the engine's fault tells the host and the service die touches nothing that an engine works on. -/
theorem State.noteHalt_tile (k n : Nat) : (s.noteHalt t k).tile n = s.tile n := by
  have htiles : (s.noteHalt t k).tiles = s.tiles := by
    unfold State.noteHalt
    refine List.foldlRecOn (motive := fun u : State => u.tiles = s.tiles) _ _ rfl fun u hu p _ => ?_
    split
    · split
      · exact (u.endDesc_tiles ..).trans hu
      · exact hu
    · exact hu
  exact congrArg (tget {} · n) htiles
theorem State.timingDetect_tile (p n : Nat) : (s.timingDetect p).tile n = s.tile n := tile_of_only (bs := [.sites, .host, .spi]) (only_of_outside (by intros; simp)) (by decide) n
theorem State.engHalt_bench (u : EngUnit) (c : EngCmd) (k : EngCause) : ((s.engHalt t u c k).tile t).bench = ((s.tile t).eng.haltOn u c k, (s.tile t).sram, (s.tile t).ctrs) := by
  unfold State.engHalt
  extract_lets s1 s2 s3 s4
  have h1 : (s1.tile t).bench = ((s.tile t).eng.haltOn u c k, (s.tile t).sram, (s.tile t).ctrs) := by
    unfold s1
    rw [State.modTile_tile, if_pos rfl]
    rfl
  have h2 : (s2.tile t).bench = (s1.tile t).bench := congrArg Tile.bench (State.raiseTile_tile ..)
  have h3 : (s3.tile t).bench = (s2.tile t).bench := by
    unfold s3
    split
    · rfl
    · exact State.penalise_bench ..
  have h4 : (s4.tile t).bench = (s3.tile t).bench := by
    unfold s4
    split
    · exact congrArg Tile.bench (State.timingDetect_tile ..)
    · rfl
  rw [State.noteHalt_tile, h4, h3, h2, h1]
end
end Sys2Proof.Machine
end

section
/-! PROOFS. Engine commands retire, halt and clear (R43, R48, R50 to R53, R59, R60, R73 to R79; O21). -/

namespace Sys2Proof.Machine

open Sys2Proof.Safety (Blk Only GoesTo)

/-! ### The end of a command in its tile -/

/-- An engine without the oldest command of a unit. -/
def Engine.popped (e : Engine) (u : EngUnit) : Engine := e.setUnit u ((e.unit u).drop 1)
/-- A tile after the bytes of a command that ends: those of a STORE's block and mask word. -/
def Tile.landed (T : Tile) (u : EngUnit) (r : Running) (n : Nat) : Tile :=
  if r.cmd.op = 3 then (T.modEng fun e => e.popped u).storeEnds r.cmd r.block r.mask r.hits n else T.modEng fun e => e.popped u
/-- The engine of that tile with the command's results and counts. -/
def Running.leaves (r : Running) (fate : Fare) (m : Mem) (n : Nat) (e : Engine) : Engine := r.counted fate m n (r.results fate m (n + 4) { e with retired := e.retired + 1 })
/-- A tile in which a command, no driver error, has ended. -/
def Tile.ended (T : Tile) (u : EngUnit) (r : Running) (fate : Fare) (m : Mem) (n : Nat) : Tile :=
  let T' := (T.landed u r (n + 16400)).modEng (r.leaves fate m n)
  if r.cmd.den then T'.bump r.cmd.dctr 1 else T'
theorem State.engRetires_of_good {r : Running} (hbad : r.bad = false) (s : State) (t : Nat) (u : EngUnit) (fate : Fare) (m : Mem) :
    s.engRetires t u r fate m = (s.modTile t fun T => T.ended u r fate m s.freeN).spendN (16410 + r.block.length) := by
  unfold State.engRetires Tile.ended Tile.landed Running.leaves Engine.popped
  simp only [hbad, and_true, Bool.false_eq_true, if_false]

section
variable (T : Tile) (u : EngUnit) (r : Running) (fate : Fare) (m : Mem) (n : Nat)

theorem Tile.landed_other (h : r.cmd.op ≠ 3) : T.landed u r n = T.modEng fun e => e.popped u := if_neg h
theorem Tile.landed_store (h : r.cmd.op = 3) : T.landed u r n = (T.modEng fun e => e.popped u).storeEnds r.cmd r.block r.mask r.hits n := if_pos h
theorem Tile.storeEnds_field {α : Type} (π : Tile → α) (hput : ∀ T a n bs free, π (Tile.putFree T a bs free n) = π T) (c : EngCmd) (bs : List Byte) (mask : Option W64) (hits : List Nat) :
    π (T.storeEnds c bs mask hits n) = π T := by
  unfold Tile.storeEnds
  cases mask with
  | none => exact hput ..
  | some w => exact (hput ..).trans (hput ..)
theorem Tile.landed_eng : (T.landed u r n).eng.sansHits = (T.eng.popped u).sansHits := by
  unfold Tile.landed
  split
  · exact Tile.storeEnds_field _ n (fun T => T.eng.sansHits) Tile.putFree_eng ..
  · rfl
theorem Tile.landed_besideMem : (T.landed u r n).besideMem = T.besideMem := by
  unfold Tile.landed
  split
  · exact Tile.storeEnds_field _ n Tile.besideMem Tile.putFree_besideMem ..
  · rfl
theorem Tile.ended_ctr (k : Nat) : (T.ended u r fate m n).ctr k = if r.cmd.den = true ∧ k = r.cmd.dctr then { T.ctr k with value := (T.ctr k).value + 1 } else T.ctr k := by
  have hctr (k : Nat) : ((T.landed u r (n + 16400)).modEng (r.leaves fate m n)).ctr k = T.ctr k := ctr_of_besideMem (T.landed_besideMem u r (n + 16400)) k
  unfold Tile.ended
  dsimp only
  cases hden : r.cmd.den with
  | false => simp [hctr]
  | true =>
    rw [if_pos rfl, Tile.bump_ctr, hctr]
    by_cases hk : k = r.cmd.dctr
    · subst hk
      simp
    · simp [hk, hctr]
theorem Tile.ended_eng : (T.ended u r fate m n).eng = r.leaves fate m n (T.landed u r (n + 16400)).eng := by
  unfold Tile.ended
  dsimp only
  split <;> rfl
theorem Tile.ended_sram : (T.ended u r fate m n).sram = (T.landed u r (n + 16400)).sram := by
  unfold Tile.ended
  dsimp only
  split <;> rfl
theorem Tile.ended_sram_other (h : r.cmd.op ≠ 3) : (T.ended u r fate m n).sram = T.sram := by
  rw [Tile.ended_sram, T.landed_other u r _ h]
  rfl
/-- A STORE's block stands where nothing has written its words since it began (R59). -/
theorem Tile.ended_sram_store (h : r.cmd.op = 3) (hmask : r.mask = none) (hhits : r.hits = []) : memGetList (T.ended u r fate m n).sram r.cmd.hdr r.block.length = r.block ∧
    ∀ a, a < r.cmd.hdr ∨ r.cmd.hdr + r.block.length ≤ a → memGet (T.ended u r fate m n).sram a = memGet T.sram a := by
  rw [Tile.ended_sram, T.landed_store u r _ h, hmask, hhits]
  exact ⟨Tile.putFree_reads _ _ _ _ fun _ => rfl, fun a ha => Tile.putFree_mem_outside _ _ _ _ _ ha⟩

/-- What an end's results and counts leave of an engine (R43, R48, R79). -/
theorem Running.leaves_eq (e : Engine) : ∃ acc cls s0 s1 sp dp busy dead corr, r.leaves fate m n e =
    { e with acc := acc, cls := cls, slot0 := s0, slot1 := s1, spath := sp, dpath := dp, busycyc := busy, deadpass := dead, corrected := corr, retired := e.retired + 1 } := by
  unfold Running.leaves
  obtain ⟨acc, cls, s0, s1, hres⟩ := r.results_eq fate m (n + 4) { e with retired := e.retired + 1 }
  obtain ⟨sp, dp, busy, dead, corr, hcnt⟩ := r.counted_eq fate m n { { e with retired := e.retired + 1 } with acc := acc, cls := cls, slot0 := s0, slot1 := s1 }
  rw [hres, hcnt]
  exact ⟨acc, cls, s0, s1, sp, dp, busy, dead, corr, rfl⟩
theorem Running.leaves_frame (e : Engine) : (∀ u, (r.leaves fate m n e).unit u = e.unit u) ∧ (r.leaves fate m n e).queue = e.queue ∧ (r.leaves fate m n e).retired = e.retired + 1 := by
  obtain ⟨acc, cls, s0, s1, sp, dp, busy, dead, corr, heq⟩ := r.leaves_eq fate m n e
  rw [heq]
  exact ⟨fun u => by cases u <;> rfl, rfl, rfl⟩
/-- What the counts of an end do not touch. -/
theorem Running.leaves_field {α : Type} (π : Engine → α) (hπ : ∀ e sp dp busy dead corr, π { e with spath := sp, dpath := dp, busycyc := busy, deadpass := dead, corrected := corr } = π e)
    (e : Engine) : π (r.leaves fate m n e) = π (r.results fate m (n + 4) { e with retired := e.retired + 1 }) := by
  obtain ⟨sp, dp, busy, dead, corr, hcnt⟩ := r.counted_eq fate m n (r.results fate m (n + 4) { e with retired := e.retired + 1 })
  rw [Running.leaves, hcnt, hπ]
theorem Running.leaves_counts (hbad : r.bad = false) (e : Engine) : (r.leaves .runs m n e).busycyc = e.busycyc + BitVec.ofNat 32 (r.passes m).1 ∧
    (r.leaves .runs m n e).corrected = e.corrected + BitVec.ofNat 32 (r.struck m).corrected := by
  obtain ⟨acc, cls, s0, s1, hres⟩ := r.results_eq .runs m (n + 4) { e with retired := e.retired + 1 }
  obtain ⟨hbusy, hcorr⟩ := r.counted_runs m n (r.results .runs m (n + 4) { e with retired := e.retired + 1 }) hbad
  rw [Running.leaves, hbusy, hcorr, hres]
  exact ⟨rfl, rfl⟩
end

theorem State.spendN_tile (s : State) (k n : Nat) : (s.spendN k).tile n = s.tile n := rfl

/-! ### ENGINE_RETIRE (R50, R53, R73 to R77) -/

/-- How a command that stands oldest in its unit fares, and what it reads. -/
theorem exec_engineRetire {s : State} {t : Nat} {u : EngUnit} {r0 r : Running} {l : List Running} {m : Mem} {ws : List Nat} (ht : t < 32768) (hruns : s.runs t = true)
    (hunit : (s.tile t).eng.unit u = r0 :: l) (hws : (s.tile t).eng.unsure r0 = ws) (hm : freeWords (s.tile t).sram s.freeN ws = m) (hr : r0.readsBad m = r) :
    let s' := (s.unitReads t (r.reads m)).spendN ws.length
    (r.fares (s.tile t).eng.retryEn m (s.tile t).badSram = .runs → exec (.engineRetire t u) s = .next (s'.engRetires t u r .runs m)) ∧
    (∀ k, r.fares (s.tile t).eng.retryEn m (s.tile t).badSram = .retried k → exec (.engineRetire t u) s = .next ((s'.engRetires t u r (.retried k) m).engRetried t r.cmd k)) ∧
    (∀ k, r.fares (s.tile t).eng.retryEn m (s.tile t).badSram = .halts k → r.bad = false → (s.tile t).eng.halt = false →
      exec (.engineRetire t u) s = .next ((((s'.modTile t fun T => T.modEng fun e => r.counted (.halts k) m s'.freeN e).spendN 4)).engHalt t u r.cmd k)) := by
  have hexec : exec (.engineRetire t u) s = execEngineRetire t u s := rfl
  rw [hexec, execEngineRetire, onTile, if_pos ht, hunit]
  dsimp only
  rw [when_, if_pos hruns, hws, hm, hr]
  generalize (s.unitReads t (r.reads m)).spendN ws.length = s'
  refine ⟨fun hf => ?_, fun k hf => ?_, fun k hf hbad hhalt => ?_⟩
  · rw [hf]
    rfl
  · rw [hf]
    rfl
  · rw [hf]
    dsimp only
    rw [hbad, hhalt, if_neg Bool.false_ne_true, if_neg Bool.false_ne_true]
    rfl

/-- A command that no fault strikes ends (R50, R53): its tile is that of `Tile.ended`, on what its unit has read. -/
theorem engineRetire_runs {s : State} {t : Nat} {u : EngUnit} {r0 r : Running} {l : List Running} {m : Mem} {ws : List Nat} (ht : t < 32768) (hruns : s.runs t = true)
    (hunit : (s.tile t).eng.unit u = r0 :: l) (hws : (s.tile t).eng.unsure r0 = ws) (hm : freeWords (s.tile t).sram s.freeN ws = m) (hr : r0.readsBad m = r) (hbad : r.bad = false)
    (hfate : r.fares (s.tile t).eng.retryEn m (s.tile t).badSram = .runs) :
    GoesTo (exec (.engineRetire t u) s) fun v => (∃ (T : Tile) (n : Nat), T.bench = (s.tile t).bench ∧ v.tile t = T.ended u r .runs m n) ∧
      ∀ n, n ≠ t → v.tile n = ((s.unitReads t (r.reads m)).spendN ws.length).tile n := by
  obtain ⟨hexec, -, -⟩ := exec_engineRetire ht hruns hunit hws hm hr
  have hbench : (((s.unitReads t (r.reads m)).spendN ws.length).tile t).bench = (s.tile t).bench := s.unitReads_bench t (r.reads m)
  refine goesTo_of_eq ((hexec hfate).trans (congrArg Host.Outcome.next (State.engRetires_of_good hbad ..))) ?_
  generalize (s.unitReads t (r.reads m)).spendN ws.length = s' at hbench
  refine ⟨⟨s'.tile t, s'.freeN, hbench, ?_⟩, fun n hn => ?_⟩
  · rw [State.spendN_tile, State.modTile_tile, if_pos rfl]
  · rw [State.spendN_tile, State.modTile_tile, if_neg hn]

section
variable {T T0 : Tile} {u : EngUnit} {r : Running} {l : List Running} {r0 : Running} (hT : T.bench = T0.bench) (hunit : T0.eng.unit u = r0 :: l) (hbad : r.bad = false) (m : Mem) (n : Nat)
include hT

theorem Tile.bench_parts : T.eng = T0.eng ∧ T.sram = T0.sram ∧ ∀ k, T.ctr k = T0.ctr k := by
  obtain ⟨heng, hsram, hctrs⟩ : T.eng = T0.eng ∧ T.sram = T0.sram ∧ T.ctrs = T0.ctrs := by simpa [Tile.bench] using hT
  exact ⟨heng, hsram, fun k => by rw [Tile.ctr, Tile.ctr, hctrs]⟩
theorem Tile.landed_field {α : Type} (π : Engine → α) (hπ : ∀ e, π e.sansHits = π e) (n : Nat) : π (T.landed u r n).eng = π (T0.eng.popped u) := by
  obtain ⟨heng, -, -⟩ := Tile.bench_parts hT
  have hland := T.landed_eng u r n
  rw [heng] at hland
  exact Engine.field_of_sansHits π hπ hland
theorem Tile.ended_eng_other (hop : r.cmd.op ≠ 3) (fate : Fare) : (T.ended u r fate m n).eng = r.leaves fate m n (T0.eng.popped u) := by
  obtain ⟨heng, -, -⟩ := Tile.bench_parts hT
  rw [Tile.ended_eng, T.landed_other u r _ hop, ← heng]
  rfl
include hunit
/-- The units of an engine in which a command that no fault strikes has ended, and its counts (R50, R53, R79). -/
theorem Tile.ended_units : ((T.ended u r .runs m n).eng.unit u).map (·.cmd) = l.map (·.cmd) ∧ (r.cmd.op ≠ 3 → (T.ended u r .runs m n).eng.unit u = l) := by
  have hpop : (T0.eng.popped u).unit u = l := by rw [Engine.popped, Engine.setUnit_unit, if_pos rfl, hunit, List.drop_one, List.tail_cons]
  obtain ⟨hleft, -, -⟩ := r.leaves_frame .runs m n (T.landed u r (n + 16400)).eng
  refine ⟨?_, fun hop => ?_⟩
  · obtain ⟨heng, -, -⟩ := Tile.bench_parts hT
    have hland := T.landed_eng u r (n + 16400)
    rw [heng] at hland
    rw [Tile.ended_eng, hleft, Engine.unitCmds_of_sansHits hland, hpop]
  · obtain ⟨hleft', -, -⟩ := r.leaves_frame .runs m n (T0.eng.popped u)
    rw [Tile.ended_eng_other hT m n hop, hleft', hpop]
omit hunit in
include hbad in
theorem Tile.ended_counts : (T.ended u r .runs m n).eng.retired = T0.eng.retired + 1 ∧ (T.ended u r .runs m n).eng.queue = T0.eng.queue ∧
    (T.ended u r .runs m n).eng.busycyc = T0.eng.busycyc + BitVec.ofNat 32 (r.passes m).1 ∧
    (T.ended u r .runs m n).eng.corrected = T0.eng.corrected + BitVec.ofNat 32 (r.struck m).corrected ∧
    (∀ k, (T.ended u r .runs m n).ctr k = if r.cmd.den = true ∧ k = r.cmd.dctr then { T0.ctr k with value := (T0.ctr k).value + 1 } else T0.ctr k) := by
  obtain ⟨-, -, hctr⟩ := Tile.bench_parts hT
  obtain ⟨-, hqueue, hretired⟩ := r.leaves_frame .runs m n (T.landed u r (n + 16400)).eng
  obtain ⟨hbusy, hcorr⟩ := r.leaves_counts m n hbad (T.landed u r (n + 16400)).eng
  have hpop {α : Type} (π : Engine → α) (hπ : ∀ e, π e.sansHits = π e) (hset : ∀ e l, π (Engine.setUnit e u l) = π e) : π (T.landed u r (n + 16400)).eng = π T0.eng :=
    (Tile.landed_field hT π hπ _).trans (hset ..)
  rw [Tile.ended_eng, hqueue, hretired, hbusy, hcorr, hpop Engine.queue (fun _ => rfl) (by cases u <;> exact fun _ _ => rfl), hpop Engine.retired (fun _ => rfl) (by cases u <;> exact fun _ _ => rfl),
    hpop Engine.busycyc (fun _ => rfl) (by cases u <;> exact fun _ _ => rfl), hpop Engine.corrected (fun _ => rfl) (by cases u <;> exact fun _ _ => rfl)]
  refine ⟨rfl, rfl, rfl, rfl, fun k => ?_⟩
  rw [Tile.ended_ctr, hctr]
end

section
variable {T T0 : Tile} {u : EngUnit} {r : Running} (hT : T.bench = T0.bench) (hbad : r.bad = false) (m : Mem) (n : Nat)
include hT
theorem Tile.ended_zero (hop : r.cmd.op = 4) : (T.ended u r .runs m n).eng.acc = (zeroRows T0.eng r.cmd.rows).acc := by
  rw [Tile.ended_eng_other hT m n (by rw [hop]; decide), r.leaves_field .runs m n Engine.acc fun _ _ _ _ _ _ => rfl, r.results_zero _ _ _ _ hop]
  cases u <;> rfl
include hbad
/-- The slots and rows of an engine in which a LOADW has ended (R43). -/
theorem Tile.ended_load (hop : r.cmd.op = 1) : (T.ended u r .runs m n).eng.slotOf r.cmd.slot = { loadPanel m r.cmd with loaded := true } ∧
    (T.ended u r .runs m n).eng.slotOf (!r.cmd.slot) = T0.eng.slotOf (!r.cmd.slot) ∧ (T.ended u r .runs m n).eng.acc = T0.eng.acc := by
  have heng := Tile.ended_eng_other (u := u) hT m n (by rw [hop]; decide : r.cmd.op ≠ 3) .runs
  obtain ⟨hself, hother, hacc⟩ := Engine.setSlot_slotOf { T0.eng.popped u with retired := (T0.eng.popped u).retired + 1 } r.cmd.slot { loadPanel m r.cmd with loaded := true }
  rw [← r.results_load .runs m (n + 4) _ hop hbad] at hself hother hacc
  refine ⟨?_, ?_, ?_⟩
  · rw [heng, r.leaves_field .runs m n (fun e => e.slotOf r.cmd.slot) fun _ _ _ _ _ _ => rfl, hself]
  · rw [heng, r.leaves_field .runs m n (fun e => e.slotOf (!r.cmd.slot)) fun _ _ _ _ _ _ => rfl, hother]
    cases u <;> rfl
  · rw [heng, r.leaves_field .runs m n Engine.acc fun _ _ _ _ _ _ => rfl, hacc]
    cases u <;> rfl
/-- The rows and classes of one in which an MMA has ended (R46, R48). -/
theorem Tile.ended_mma {cl : RateClass} (hop : r.cmd.op = 2) (hcl : r.cls? m = some cl) : ∃ k, (T.ended u r .runs m n).eng.acc = (mmaRun T0.eng m r.cmd r.panel cl r.rows r.cols r.hw.upset k).acc ∧
    (T.ended u r .runs m n).eng.cls = (mmaRun T0.eng m r.cmd r.panel cl r.rows r.cols r.hw.upset k).cls := by
  have heng := Tile.ended_eng_other (u := u) hT m n (by rw [hop]; decide : r.cmd.op ≠ 3) .runs
  have hacc : (T0.eng.popped u).acc = T0.eng.acc := by cases u <;> rfl
  have hcls : (T0.eng.popped u).cls = T0.eng.cls := by cases u <;> rfl
  obtain ⟨hsums, hclasses⟩ := mmaRun_congr (e := { T0.eng.popped u with retired := (T0.eng.popped u).retired + 1 }) hacc hcls m r.cmd r.panel cl r.rows r.cols r.hw.upset (n + 4)
  rw [← r.results_mma m (n + 4) _ hop hbad hcl] at hsums hclasses
  exact ⟨n + 4, by rw [heng, r.leaves_field .runs m n Engine.acc fun _ _ _ _ _ _ => rfl, hsums],
    by rw [heng, r.leaves_field .runs m n Engine.cls fun _ _ _ _ _ _ => rfl, hclasses]⟩
/-- The rows of one in which a STORE has ended (R59). -/
theorem Tile.ended_store (hop : r.cmd.op = 3) : (T.ended u r .runs m n).eng.acc = (if r.cmd.keepacc then T0.eng.acc else (zeroRows T0.eng r.cmd.rows).acc) := by
  have hacc : (T.landed u r (n + 16400)).eng.acc = T0.eng.acc := (Tile.landed_field hT Engine.acc (fun _ => rfl) _).trans (by cases u <;> rfl)
  rw [Tile.ended_eng, r.leaves_field .runs m n Engine.acc fun _ _ _ _ _ _ => rfl, r.results_store _ _ _ _ hop hbad]
  split
  · exact hacc
  · exact (congrArg (fun a : Tbl W32 => a.filter fun w => !r.cmd.rows.contains (w.1 / 64)) hacc :)
end

/-! ### What a fault leaves (R77) -/

theorem Engine.haltOn_parts (e : Engine) (u : EngUnit) (c : EngCmd) (k : EngCause) : (e.haltOn u c k).halt = true ∧ (e.haltOn u c k).cause = some k ∧
    (e.haltOn u c k).ftag = BitVec.ofNat 8 c.tag ∧ (e.haltOn u c k).queue = [] ∧ (e.haltOn u c k).unit u = [] ∧
    (e.haltOn u c k).discard = e.discard + BitVec.ofNat 32 (e.queue.length + ((e.unit u).drop 1).length) ∧ (e.haltOn u c k).retired = e.retired ∧
    ∀ w, w ≠ u → (e.haltOn u c k).unit w = e.unit w := by
  have hunit (w : EngUnit) : (e.haltOn u c k).unit w = (e.setUnit u []).unit w := by cases w <;> rfl
  refine ⟨rfl, rfl, rfl, rfl, ?_, rfl, by cases u <;> rfl, fun w hw => ?_⟩
  · rw [hunit, Engine.setUnit_unit, if_pos rfl]
  · rw [hunit, Engine.setUnit_unit, if_neg hw]
theorem Running.counted_frame (r : Running) (fate : Fare) (m : Mem) (n : Nat) (e : Engine) : (r.counted fate m n e).queue = e.queue ∧ (r.counted fate m n e).discard = e.discard ∧
    (r.counted fate m n e).retired = e.retired ∧ ∀ w, (r.counted fate m n e).unit w = e.unit w := by
  obtain ⟨sp, dp, busy, dead, corr, hcnt⟩ := r.counted_eq fate m n e
  rw [hcnt]
  exact ⟨rfl, rfl, rfl, fun w => by cases w <;> rfl⟩
theorem engineRetire_halts {s : State} {t : Nat} {u : EngUnit} {r0 r : Running} {l : List Running} {m : Mem} {ws : List Nat} {k : EngCause} (ht : t < 32768) (hruns : s.runs t = true)
    (hunit : (s.tile t).eng.unit u = r0 :: l) (hws : (s.tile t).eng.unsure r0 = ws) (hm : freeWords (s.tile t).sram s.freeN ws = m) (hr : r0.readsBad m = r) (hbad : r.bad = false)
    (hfate : r.fares (s.tile t).eng.retryEn m (s.tile t).badSram = .halts k) (hhalt : (s.tile t).eng.halt = false) :
    GoesTo (exec (.engineRetire t u) s) fun v =>
      (v.tile t).eng.halt = true ∧ (v.tile t).eng.cause = some k ∧ (v.tile t).eng.ftag = BitVec.ofNat 8 r.cmd.tag ∧ (v.tile t).eng.queue = [] ∧ (v.tile t).eng.unit u = [] ∧
      (v.tile t).eng.discard = (s.tile t).eng.discard + BitVec.ofNat 32 ((s.tile t).eng.queue.length + l.length) ∧ (v.tile t).eng.retired = (s.tile t).eng.retired ∧
      (∀ w, w ≠ u → (v.tile t).eng.unit w = (s.tile t).eng.unit w) ∧ (v.tile t).sram = (s.tile t).sram ∧ (v.tile t).ctrs = (s.tile t).ctrs := by
  obtain ⟨-, -, hexec⟩ := exec_engineRetire ht hruns hunit hws hm hr
  have hbench : (((s.unitReads t (r.reads m)).spendN ws.length).tile t).bench = (s.tile t).bench := s.unitReads_bench t (r.reads m)
  refine goesTo_of_eq (hexec k hfate hbad hhalt) ?_
  generalize (s.unitReads t (r.reads m)).spendN ws.length = s' at hbench
  have hv := State.engHalt_bench ((s'.modTile t fun T => T.modEng fun e => r.counted (.halts k) m s'.freeN e).spendN 4) t u r.cmd k
  rw [State.spendN_tile, State.modTile_tile, if_pos rfl] at hv
  generalize ((s'.modTile t fun T => T.modEng fun e => r.counted (.halts k) m s'.freeN e).spendN 4).engHalt t u r.cmd k = v at hv
  obtain ⟨heng, hsram, hctrs⟩ : (s'.tile t).eng = (s.tile t).eng ∧ (s'.tile t).sram = (s.tile t).sram ∧ (s'.tile t).ctrs = (s.tile t).ctrs := by simpa [Tile.bench] using hbench
  obtain ⟨hveng, hvsram, hvctrs⟩ : (v.tile t).eng = (r.counted (.halts k) m s'.freeN (s'.tile t).eng).haltOn u r.cmd k ∧ (v.tile t).sram = (s'.tile t).sram ∧ (v.tile t).ctrs = (s'.tile t).ctrs := by
    simpa [Tile.bench, Tile.modEng, Tile.setEng] using hv
  obtain ⟨hqueue, hdiscard, hretired, hunits⟩ := r.counted_frame (.halts k) m s'.freeN (s'.tile t).eng
  obtain ⟨h1, h2, h3, h4, h5, h6, h7, h8⟩ := Engine.haltOn_parts (r.counted (.halts k) m s'.freeN (s'.tile t).eng) u r.cmd k
  rw [hveng, hvsram, hvctrs]
  refine ⟨h1, h2, h3, h4, h5, ?_, ?_, fun w hw => ?_, hsram, hctrs⟩
  · rw [h6, hdiscard, hqueue, hunits, heng, hunit]
    rfl
  · rw [h7, hretired, heng]
  · rw [h8 w hw, hunits, heng]

/-- CLEAR leaves the halt with nothing loaded and nothing queued (R78). -/
theorem Engine.clear_of_halt {e : Engine} (h : e.halt = true) : e.clear.halt = false ∧ e.clear.cause = none ∧ e.clear.queue = [] ∧ e.clear.acc = [] ∧ e.clear.slot0.loaded = false ∧ e.clear.slot1.loaded = false := by
  rw [Engine.clear, if_pos h]
  exact ⟨rfl, rfl, rfl, rfl, rfl, rfl⟩

/-- Settles O21: a command's end is a function of its tile, `Tile.ended`, whose parts are read one by one; a fault's halt is that of `Engine.haltOn`. -/
theorem engineEndsComplete : Obligations.EngineEndsComplete := by
  unfold Obligations.EngineEndsComplete
  refine ⟨fun t u r0 l s ht hruns hunit => ?_, fun t s ht hruns => ?_, fun e h => Engine.clear_of_halt h, fun e h => if_neg (Bool.eq_false_iff.1 h)⟩
  · dsimp only
    generalize hws : (s.tile t).eng.unsure r0 = ws
    generalize hm : freeWords (s.tile t).sram s.freeN ws = m
    generalize hr : r0.readsBad m = r
    obtain ⟨-, hretried, -⟩ := exec_engineRetire ht hruns hunit hws hm hr
    refine ⟨fun hbad hfate => ?_, fun k hfate => by rw [hfate]; exact hretried k hfate, fun k hbad hfate hhalt => engineRetire_halts ht hruns hunit hws hm hr hbad hfate hhalt⟩
    obtain ⟨v, hv, ⟨T', n, hT, hvt⟩, hother⟩ := engineRetire_runs ht hruns hunit hws hm hr hbad hfate
    obtain ⟨hcmds, hleft⟩ := Tile.ended_units hT hunit (r := r) m n
    obtain ⟨hretired, hqueue, hbusy, hcorr, hctr⟩ := Tile.ended_counts (u := u) hT hbad m n
    obtain ⟨-, hsram, -⟩ := Tile.bench_parts hT
    refine ⟨v, hv, ?_⟩
    dsimp only
    rw [hvt]
    refine ⟨hcmds, hleft, hretired, hqueue, hother, hbusy, hcorr, hctr, fun hop => ?_, fun hop => (Tile.ended_load hT hbad m n hop).1, fun cl hop hcl => ?_, fun hop => Tile.ended_zero hT m n hop,
      fun hop hmask hhits => ?_⟩
    · exact (T'.ended_sram_other u r .runs m n hop).trans hsram
    · obtain ⟨k, hacc, -⟩ := Tile.ended_mma (u := u) hT hbad m n hop hcl
      exact ⟨k, hacc⟩
    · obtain ⟨hblock, hrest⟩ := T'.ended_sram_store u r .runs m n hop hmask hhits
      exact ⟨hblock, fun a ha => (hrest a ha).trans (congrArg (memGet · a) hsram)⟩
  · have hexec : exec (.engCtrlClear t) s = execEngCtrlClear t s := rfl
    rw [hexec, execEngCtrlClear, onTile, if_pos ht, when_, if_pos hruns]
    rfl
end Sys2Proof.Machine
end

section
/-! PROOFS. Engine commands dispatch, run alone in the engine, and retire (R43 to R75; O19, O20). -/

namespace Sys2Proof.Machine

open Sys2Proof.Safety (Blk Only GoesTo Heads)

/-! ### Dispatch (R50, R51, R54) -/

theorem headCmd_of {s : State} {t n : Nat} {st : Stream} {c : EngCmd} {op : Nat → Bool} (h : Heads s t st c n) (hop : op n = true) : headCmd s t (s.tile t) st op = some c := by
  obtain ⟨-, hruns, hhalt, ⟨l, hqueue⟩, hmay, hcop⟩ := h
  rw [headCmd, hqueue]
  dsimp only
  rw [if_pos (by rw [hruns, hhalt, hcop, hop, hmay]; rfl)]
theorem Tile.skip_parts (T : Tile) (c : EngCmd) :
    (T.skip c).eng = { T.eng with queue := T.eng.queue.drop 1, retired := T.eng.retired + 1, skipped := T.eng.skipped + 1 } ∧
    (∀ k, (T.skip c).ctr k = if c.gsig = true ∧ c.den = true ∧ k = c.dctr then { T.ctr k with value := (T.ctr k).value + 1 } else T.ctr k) ∧ (T.skip c).sram = T.sram := by
  unfold Tile.skip
  dsimp only
  by_cases hsig : (c.gsig && c.den) = true
  · obtain ⟨hg, hd⟩ := Bool.and_eq_true_iff.1 hsig
    rw [if_pos hsig]
    refine ⟨rfl, fun k => (Tile.bump_ctr _ _ _).trans ?_, rfl⟩
    by_cases hk : k = c.dctr
    · rw [if_pos hk, if_pos ⟨hg, hd, hk⟩, hk]
      rfl
    · rw [if_neg hk, if_neg fun h => hk h.2.2]
      rfl
  · rw [if_neg hsig]
    exact ⟨rfl, fun k => (if_neg fun h => hsig (Bool.and_eq_true_iff.2 ⟨h.1, h.2.1⟩)).symm, rfl⟩
/-- A command that its gate skips leaves the queue, retires and is counted, and nothing else is done (R54). -/
theorem skip_goesTo {s : State} {t : Nat} {c : EngCmd} {o : Out} (ho : o = .next (s.setTile t ((s.tile t).skip c))) : GoesTo o fun u =>
    (u.tile t).eng = { (s.tile t).eng with queue := (s.tile t).eng.queue.drop 1, retired := (s.tile t).eng.retired + 1, skipped := (s.tile t).eng.skipped + 1 } ∧
    (∀ k, (u.tile t).ctr k = if c.gsig = true ∧ c.den = true ∧ k = c.dctr then { (s.tile t).ctr k with value := ((s.tile t).ctr k).value + 1 } else (s.tile t).ctr k) ∧
    (u.tile t).sram = (s.tile t).sram ∧ ∀ n, n ≠ t → u.tile n = s.tile n := by
  obtain ⟨heng, hctr, hsram⟩ := (s.tile t).skip_parts c
  refine goesTo_of_eq ho ?_
  rw [State.setTile_tile, if_pos rfl]
  exact ⟨heng, hctr, hsram, fun n hn => (State.setTile_tile ..).trans (if_neg hn)⟩

/-! ### A command that runs alone (R50, R73) -/

theorem Running.struck_first {r : Running} (m : Mem) (hfirst : r.hw.first = none) (hup : r.cmd.op = 2 → r.hw.upset = none) : (r.struck m).first = none := by
  have hfit : (fitHw r.hw r.cmd.op (r.decodes m)).first = none := by
    unfold fitHw
    dsimp only
    rw [hfirst]
    rfl
  have hfitUp : (fitHw r.hw r.cmd.op (r.decodes m)).upset = r.hw.upset := rfl
  unfold Running.struck
  dsimp only
  split
  · next hop _ =>
    rw [hfitUp, hup hop]
    exact hfit
  · exact hfit
theorem Running.fares_runs {r : Running} {retryEn : Bool} {m : Mem} {bad : List Nat} (hbad : r.bad = false) (hfirst : r.hw.first = none) (hup : r.cmd.op = 2 → r.hw.upset = none)
    (hfinds : r.finds m bad = none) : r.fares retryEn m bad = .runs := by
  rw [Running.fares, if_neg (Bool.eq_false_iff.1 hbad), fare, r.struck_first m hfirst hup, hfinds]
  rfl
theorem State.runs_congr {s u : State} {t : Nat} (hsite : u.tileSt t = s.tileSt t) (hst : (u.tile t).st = (s.tile t).st) (hres : (u.tile t).resetting = (s.tile t).resetting) :
    u.runs t = s.runs t := by
  unfold State.runs
  rw [hsite, hst, hres]

/-- No unit of the engine holds a command. -/
def Tile.engIdle (T : Tile) : Prop := T.eng.loader = [] ∧ T.eng.array = [] ∧ T.eng.packer = []
theorem Tile.placed_unit {T : Tile} (h : T.engIdle) (u : EngUnit) (r : Running) : (T.placed u r).eng.unit u = [r] := by
  obtain ⟨hl, ha, hp⟩ := h
  have hu : (Engine.unit { T.eng with queue := T.eng.queue.drop 1 } u) = [] := by
    cases u
    · exact hl
    · exact ha
    · exact hp
  change ((Engine.setUnit _ u (Engine.unit { T.eng with queue := T.eng.queue.drop 1 } u ++ [r])).unit u) = [r]
  rw [Engine.setUnit_unit, if_pos rfl, hu, List.nil_append]
theorem Tile.placed_unsure {T : Tile} (h : T.engIdle) {u : EngUnit} (hu : u ≠ .packer) {r : Running} (hhits : r.hits = []) : (T.placed u r).eng.unsure r = [] := by
  have hp : (T.placed u r).eng.packer = [] := by
    obtain ⟨-, -, hp⟩ := h
    cases u
    · exact hp
    · exact hp
    · exact absurd rfl hu
  rw [Engine.unsure, hhits, hp]
  rfl

/-- A command that runs alone and meets no fault ends as `Tile.ended` says, on tile SRAM as it stands (R50, R52). -/
theorem engineRetire_alone {s : State} {T : Tile} {t : Nat} {u : EngUnit} {r : Running} (ht : t < 32768) (hruns : s.runs t = true) (hidle : T.engIdle) (hu : u ≠ .packer) (hhits : r.hits = [])
    (hplaced : (s.tile t).eng = (T.placed u r).eng) (hbad : r.readsBad (s.tile t).sram = r) (hnot : r.bad = false) (hfirst : r.hw.first = none) (hup : r.cmd.op = 2 → r.hw.upset = none)
    (hfinds : r.finds (s.tile t).sram (s.tile t).badSram = none) :
    GoesTo (exec (.engineRetire t u) s) fun v => ∃ (T' : Tile) (n : Nat), T'.bench = (s.tile t).bench ∧ v.tile t = T'.ended u r .runs (s.tile t).sram n := by
  have hunit : (s.tile t).eng.unit u = [r] := by rw [hplaced, Tile.placed_unit hidle]
  have hws : (s.tile t).eng.unsure r = [] := by rw [hplaced, Tile.placed_unsure hidle hu hhits]
  obtain ⟨v, hv, hended, -⟩ := engineRetire_runs ht hruns hunit hws rfl hbad hnot (Running.fares_runs hnot hfirst hup hfinds)
  exact ⟨v, hv, hended⟩
theorem Tile.placed_parts (T : Tile) (u : EngUnit) (r : Running) : (T.placed u r).sram = T.sram ∧ (T.placed u r).badSram = T.badSram ∧ (T.placed u r).eng.acc = T.eng.acc ∧
    (T.placed u r).eng.cls = T.eng.cls ∧ (T.placed u r).eng.retired = T.eng.retired ∧ (∀ b, (T.placed u r).eng.slotOf b = T.eng.slotOf b) ∧
    (T.placed u r).st = T.st ∧ (T.placed u r).resetting = T.resetting := by
  cases u <;> exact ⟨rfl, rfl, rfl, rfl, rfl, fun _ => rfl, rfl, rfl⟩

/-! ### LOADW (R43, R58, R62) -/

theorem exec_loadw {s : State} {t : Nat} {c : EngCmd} {hw : EngHw} (h : Heads s t hw.stream c 1) : exec (.loadw t hw) s =
    if loadwFieldsBad c then .next (s.badCmd t .loader c hw none) else if gateSkips (s.tile t) c then .next (s.setTile t ((s.tile t).skip c))
    else if loadwBad (s.tile t).sram c then .next (s.badCmd t .loader c hw none) else .next (s.setTile t ((s.tile t).placed .loader { cmd := c, hw })) := by
  have hexec : exec (.loadw t hw) s = execLoadw t hw s := rfl
  rw [hexec, execLoadw, onTile, if_pos h.1, headCmd_of h rfl]
  rfl
theorem setTile_placed {s : State} {t : Nat} (u : EngUnit) (r : Running) (hruns : s.runs t = true) :
    (s.setTile t ((s.tile t).placed u r)).tile t = (s.tile t).placed u r ∧ (s.setTile t ((s.tile t).placed u r)).runs t = true := by
  have hself : (s.setTile t ((s.tile t).placed u r)).tile t = (s.tile t).placed u r := (State.setTile_tile ..).trans (if_pos rfl)
  obtain ⟨-, -, -, -, -, -, hst, hres⟩ := (s.tile t).placed_parts u r
  have hsame : (s.setTile t ((s.tile t).placed u r)).runs t = s.runs t := State.runs_congr rfl (by rw [hself, hst]) (by rw [hself, hres])
  exact ⟨hself, hsame.trans hruns⟩
theorem loadw_retires {s : State} {t : Nat} {c : EngCmd} {hw : EngHw} (h : Heads s t hw.stream c 1) (hidle : (s.tile t).engIdle) (hfirst : hw.first = none)
    (hblock : loadwBad (s.tile t).sram c = false) (hcause : loadwCause (s.tile t).sram (s.tile t).badSram c (loadPanel (s.tile t).sram c) = none) :
    GoesTo (exec (.engineRetire t .loader) (s.setTile t ((s.tile t).placed .loader { cmd := c, hw }))) fun v =>
      (v.tile t).eng.slotOf c.slot = { loadPanel (s.tile t).sram c with loaded := true } ∧ (v.tile t).eng.slotOf (!c.slot) = (s.tile t).eng.slotOf (!c.slot) ∧
      (v.tile t).eng.acc = (s.tile t).eng.acc ∧ (v.tile t).eng.retired = (s.tile t).eng.retired + 1 ∧ (v.tile t).sram = (s.tile t).sram := by
  obtain ⟨ht, hruns, -, -, -, hop⟩ := h
  obtain ⟨hself, hruns'⟩ := setTile_placed .loader { cmd := c, hw } hruns
  obtain ⟨hsram, hbads, hacc, -, hret, hslot, -, -⟩ := (s.tile t).placed_parts .loader { cmd := c, hw }
  have hbad : Running.readsBad { cmd := c, hw } (s.tile t).sram = { cmd := c, hw } := by simp [Running.readsBad, hblock, hop]
  have hfinds : Running.finds { cmd := c, hw } (s.tile t).sram (s.tile t).badSram = none := by
    rw [Running.finds, hop]
    exact hcause
  generalize s.setTile t ((s.tile t).placed .loader { cmd := c, hw }) = s1 at hself hruns'
  rw [← hsram] at hbad hfinds
  rw [← hbads] at hfinds
  rw [← hself] at hbad hfinds
  obtain ⟨v, hv, T, n, hT, hvt⟩ := engineRetire_alone ht hruns' hidle (by decide) rfl (congrArg Tile.eng hself) hbad rfl hfirst (fun h2 => absurd (hop.symm.trans h2) (by decide)) hfinds
  obtain ⟨hload, hkept, hrows⟩ := Tile.ended_load (u := .loader) (r := { cmd := c, hw }) hT rfl (s1.tile t).sram n hop
  obtain ⟨hretired, -⟩ := Tile.ended_counts (u := .loader) (r := { cmd := c, hw }) hT rfl (s1.tile t).sram n
  obtain ⟨-, hmem, -⟩ := Tile.bench_parts hT
  refine ⟨v, hv, ?_⟩
  dsimp only
  rw [hvt, hload, hkept, hrows, hretired, T.ended_sram_other _ _ _ _ _ (by rw [hop]; decide), hmem, hself, hsram, hacc, hret]
  exact ⟨rfl, hslot _, rfl, rfl, rfl⟩

/-! ### ZERO and NOP (R48, R60) -/

theorem exec_zero {s : State} {t : Nat} {c : EngCmd} {hw : EngHw} (h : Heads s t hw.stream c 4) : exec (.zero t hw) s =
    if gateSkips (s.tile t) c then .next (s.setTile t ((s.tile t).skip c)) else .next (s.setTile t ((s.tile t).placed .array { cmd := c, hw })) := by
  have hexec : exec (.zero t hw) s = execZero t hw s := rfl
  rw [hexec, execZero, onTile, if_pos h.1, headCmd_of h rfl]
  rfl
theorem tget_filter {α : Type} (d : α) (keep : Nat → Bool) (k : Nat) : ∀ m : Tbl α, tget d (m.filter fun w => keep w.1) k = if keep k then tget d m k else d
  | [] => by simp
  | (k', v) :: m => by
    have ih := tget_filter d keep k m
    rw [List.filter_cons]
    by_cases hk : k = k'
    · subst hk
      cases hkeep : keep k with
      | true => simp [tget]
      | false => simp [ih, hkeep]
    · cases hkeep : keep k' with
      | true => simp [tget, hk, ih]
      | false => simp [tget, hk, ih]
/-- ZERO makes the words of its rows 0 and leaves every other row's (R60). -/
theorem zeroRows_acc (e : Engine) (rows : List Nat) {r n : Nat} (hn : n < 64) :
    tget (0 : W32) (zeroRows e rows).acc (r * 64 + n) = if r ∈ rows then 0 else tget (0 : W32) e.acc (r * 64 + n) := by
  have hrow : (r * 64 + n) / 64 = r := by omega
  refine (tget_filter 0 (fun k => !rows.contains (k / 64)) (r * 64 + n) e.acc).trans ?_
  rw [hrow]
  by_cases hmem : r ∈ rows <;> simp [hmem]
theorem zero_retires {s : State} {t : Nat} {c : EngCmd} {hw : EngHw} (h : Heads s t hw.stream c 4) (hidle : (s.tile t).engIdle) (hfirst : hw.first = none) :
    GoesTo (exec (.engineRetire t .array) (s.setTile t ((s.tile t).placed .array { cmd := c, hw }))) fun v =>
      (∀ r n, r ∈ c.rows → n < 64 → tget (0 : W32) (v.tile t).eng.acc (r * 64 + n) = 0) ∧
      (∀ r n, r ∉ c.rows → n < 64 → tget (0 : W32) (v.tile t).eng.acc (r * 64 + n) = tget (0 : W32) (s.tile t).eng.acc (r * 64 + n)) ∧
      (v.tile t).eng.retired = (s.tile t).eng.retired + 1 ∧ (v.tile t).sram = (s.tile t).sram := by
  obtain ⟨ht, hruns, -, -, -, hop⟩ := h
  obtain ⟨hself, hruns'⟩ := setTile_placed .array { cmd := c, hw } hruns
  obtain ⟨hsram, -, hacc, -, hret, -, -, -⟩ := (s.tile t).placed_parts .array { cmd := c, hw }
  generalize s.setTile t ((s.tile t).placed .array { cmd := c, hw }) = s1 at hself hruns'
  have hbad : Running.readsBad { cmd := c, hw } (s1.tile t).sram = { cmd := c, hw } := by simp [Running.readsBad, hop]
  have hfinds : Running.finds { cmd := c, hw } (s1.tile t).sram (s1.tile t).badSram = none := by
    rw [Running.finds, hop]
    rfl
  obtain ⟨v, hv, T, n, hT, hvt⟩ := engineRetire_alone ht hruns' hidle (by decide) rfl (congrArg Tile.eng hself) hbad rfl hfirst (fun h2 => absurd (hop.symm.trans h2) (by decide)) hfinds
  have hzero := Tile.ended_zero (u := .array) (r := { cmd := c, hw }) hT (s1.tile t).sram n hop
  obtain ⟨hretired, -⟩ := Tile.ended_counts (u := .array) (r := { cmd := c, hw }) hT rfl (s1.tile t).sram n
  obtain ⟨-, hmem, -⟩ := Tile.bench_parts hT
  refine ⟨v, hv, ?_⟩
  dsimp only
  rw [hvt, hzero, hretired, T.ended_sram_other _ _ _ _ _ (by rw [hop]; decide), hmem, hself, hsram, hret]
  refine ⟨fun r n hr hn => ?_, fun r n hr hn => ?_, rfl, rfl⟩
  · rw [zeroRows_acc _ _ hn, if_pos hr]
  · rw [zeroRows_acc _ _ hn, if_neg hr, hacc]
theorem exec_nop {s : State} {t : Nat} {c : EngCmd} (h : Heads s t .waits c 0) : exec (.nop t) s =
    if gateSkips (s.tile t) c then .next (s.setTile t ((s.tile t).skip c))
    else .next (s.setTile t (if c.den then ((s.tile t).modEng fun e => { e with queue := e.queue.drop 1, retired := e.retired + 1 }).bump c.dctr 1
      else (s.tile t).modEng fun e => { e with queue := e.queue.drop 1, retired := e.retired + 1 })) := by
  have hexec : exec (.nop t) s = execNop t s := rfl
  rw [hexec, execNop, onTile, if_pos h.1, headCmd_of h rfl]
  rfl
theorem nop_goesTo {s : State} {t : Nat} {c : EngCmd} (h : Heads s t .waits c 0) (hgate : gateSkips (s.tile t) c = false) : GoesTo (exec (.nop t) s) fun u =>
    (u.tile t).eng = { (s.tile t).eng with queue := (s.tile t).eng.queue.drop 1, retired := (s.tile t).eng.retired + 1 } ∧ (u.tile t).sram = (s.tile t).sram ∧
    (∀ k, (u.tile t).ctr k = if c.den = true ∧ k = c.dctr then { (s.tile t).ctr k with value := ((s.tile t).ctr k).value + 1 } else (s.tile t).ctr k) ∧
    ∀ n, n ≠ t → u.tile n = s.tile n := by
  refine goesTo_of_eq ((exec_nop h).trans (if_neg (Bool.eq_false_iff.1 hgate))) ?_
  rw [State.setTile_tile, if_pos rfl]
  cases hden : c.den with
  | false => exact ⟨rfl, rfl, fun k => by simp [Tile.ctr, Tile.modEng, Tile.setEng], fun n hn => (State.setTile_tile ..).trans (if_neg hn)⟩
  | true =>
    refine ⟨rfl, rfl, fun k => (Tile.bump_ctr _ _ _).trans ?_, fun n hn => (State.setTile_tile ..).trans (if_neg hn)⟩
    by_cases hk : k = c.dctr
    · rw [if_pos hk, if_pos ⟨rfl, hk⟩, hk]
      rfl
    · rw [if_neg hk, if_neg fun h => hk h.2]
      rfl

/-- Settles O19: the head dispatches by the branches of its command, and alone in the engine it retires as `Tile.ended` says. -/
theorem engineLoadsComplete : Obligations.EngineLoadsComplete := by
  unfold Obligations.EngineLoadsComplete
  intro skipped quiet
  refine ⟨fun t c hw s h => ?_, fun t c hw s h => ?_, fun t c s h => ?_⟩
  · rw [exec_loadw h]
    refine ⟨fun hbad => if_pos hbad, fun hgood hgate => ?_, fun hgood hgate hblock => ?_, fun hgood hgate hblock => ⟨?_, fun hidle hfirst hcause => loadw_retires h hidle hfirst hblock hcause⟩⟩
    · exact skip_goesTo ((if_neg (Bool.eq_false_iff.1 hgood)).trans (if_pos hgate))
    · exact (if_neg (Bool.eq_false_iff.1 hgood)).trans ((if_neg (Bool.eq_false_iff.1 hgate)).trans (if_pos hblock))
    · exact (if_neg (Bool.eq_false_iff.1 hgood)).trans ((if_neg (Bool.eq_false_iff.1 hgate)).trans (if_neg (Bool.eq_false_iff.1 hblock)))
  · rw [exec_zero h]
    exact ⟨fun hgate => skip_goesTo (if_pos hgate), fun hgate => ⟨if_neg (Bool.eq_false_iff.1 hgate), fun hidle hfirst => zero_retires h hidle hfirst⟩⟩
  · exact ⟨fun hgate => skip_goesTo ((exec_nop h).trans (if_pos hgate)), nop_goesTo h⟩
end Sys2Proof.Machine
end

section
/-! PROOFS. MMA and STORE dispatch and retire; the clinker check (R43 to R48, R55, R59, R69 to R75, R120; O20). -/

namespace Sys2Proof.Machine

open Sys2Proof.Safety (Blk Only GoesTo Heads)

/-! ### The clinker check (R72, R75) -/

/-- The clinker check sees the changes that 21 does not divide. -/
theorem clinker_eq_false_iff (x d : Int) : clinker x (x + d) = false ↔ (21 : Int) ∣ d := by
  unfold clinker residues
  rw [bne_eq_false_iff_eq, Prod.mk.injEq]
  omega
theorem three_not_dvd_two_pow (j : Nat) : ¬ (3 : Int) ∣ 2 ^ j := by
  induction j with
  | zero => decide
  | succ j ih =>
    rw [pow_succ]
    omega
theorem clinker_of_not_dvd {d : Int} (h : ¬ (3 : Int) ∣ d) (x : Int) : clinker x (x + d) = true := by
  refine Bool.eq_true_of_not_eq_false fun hfalse => h ?_
  have h21 := (clinker_eq_false_iff x d).1 hfalse
  omega
/-- Every plus or minus power of two is seen. -/
theorem clinker_two_pow (x : Int) (j : Nat) : clinker x (x + 2 ^ j) = true ∧ clinker x (x - 2 ^ j) = true := by
  have hpow := three_not_dvd_two_pow j
  refine ⟨clinker_of_not_dvd hpow x, ?_⟩
  rw [Int.sub_eq_add_neg]
  exact clinker_of_not_dvd (fun h => hpow ((Int.dvd_neg).1 h)) x

/-! ### Reads that meet no uncorrectable word -/

theorem State.unitReads_of_good {s : State} {t : Nat} {f : Nat → Bool} (h : (s.tile t).badSram.any f = false) : s.unitReads t f = s.modTile t fun T => T.meet f := by
  have hbad : ((s.modTile t fun T => T.meet f).tile t).badSram = (s.tile t).badSram := by
    rw [State.modTile_tile, if_pos rfl]
    rfl
  have hnil : (s.tile t).badSram.filter f = [] := List.filter_eq_nil_iff.2 fun w hw hf => by
    rw [List.any_eq_true.2 ⟨w, hw, hf⟩] at h
    exact absurd h (by decide)
  unfold State.unitReads
  dsimp only
  rw [hbad, hnil]
  rfl

/-! ### MMA (R43, R46, R55, R120) -/

/-- An MMA that a good block and a loaded panel meet enters the array with its effective M. -/
def mmaRuns (s : State) (t : Nat) (c : EngCmd) (hw : EngHw) : Running :=
  { cmd := c, hw, rows := if c.mrows then min ((s.tile t).ctr c.gctr).value.toNat (c.mm1 + 1) else c.mm1 + 1, cols := BitVec.allOnes 64, panel := (s.tile t).eng.slotOf c.slot,
    path := pathOf s.bev s.bevMode (readHdr (s.tile t).sram c.hdr) }
theorem exec_mma {s : State} {t : Nat} {c : EngCmd} {hw : EngHw} (h : Heads s t hw.stream c 2) :
    (mmaFieldsBad c = true → exec (.mma t hw) s = .next (s.badMma t c hw)) ∧
    (mmaFieldsBad c = false → gateSkips (s.tile t) c = true → exec (.mma t hw) s = .next (s.setTile t ((s.tile t).skip c))) ∧
    (mmaFieldsBad c = false → gateSkips (s.tile t) c = false → mmaBad ((s.tile t).eng.slotOf c.slot) (s.tile t).sram c = true → exec (.mma t hw) s = .next (s.badMma t c hw)) ∧
    (mmaFieldsBad c = false → gateSkips (s.tile t) c = false → mmaBad ((s.tile t).eng.slotOf c.slot) (s.tile t).sram c = false → c.pred = false →
      exec (.mma t hw) s = .next ((s.modTile t fun T => T.meet fun _ => false).modTile t fun T => T.placed .array (mmaRuns s t c hw))) := by
  have hexec : exec (.mma t hw) s = execMma t hw s := rfl
  obtain ⟨ht, -, -, -, -, hop⟩ := id h
  have hop2 : ¬ c.op ≠ 2 := fun hne => hne hop
  rw [hexec, execMma, onTile, if_pos ht, headCmd_of h rfl]
  dsimp only
  rw [if_neg hop2]
  refine ⟨fun hbad => if_pos hbad, fun hgood hgate => ?_, fun hgood hgate hblock => ?_, fun hgood hgate hblock hpred => ?_⟩
  · rw [if_neg (Bool.eq_false_iff.1 hgood), if_pos hgate]
    rfl
  · rw [if_neg (Bool.eq_false_iff.1 hgood), if_neg (Bool.eq_false_iff.1 hgate), if_pos (by rw [hblock]; rfl)]
    rfl
  · have hany : (s.tile t).badSram.any (fun _ => false) = false := List.any_eq_false.2 fun _ _ => Bool.false_ne_true
    rw [if_neg (Bool.eq_false_iff.1 hgood), if_neg (Bool.eq_false_iff.1 hgate), hblock, hpred]
    simp only [Bool.false_and, Bool.or_false, Bool.false_eq_true, if_false, hany, State.unitReads_of_good hany]
    rfl
/-- The MMA in the array, and its retirement where it runs alone and meets no fault (R43, R46, R48). -/
theorem mma_goesTo {s : State} {t : Nat} {c : EngCmd} {hw : EngHw} (h : Heads s t hw.stream c 2) (hgood : mmaFieldsBad c = false) (hgate : gateSkips (s.tile t) c = false)
    (hblock : mmaBad ((s.tile t).eng.slotOf c.slot) (s.tile t).sram c = false) (hpred : c.pred = false) :
    GoesTo (exec (.mma t hw) s) fun u => (u.tile t).eng = (s.tile t).eng.place .array (mmaRuns s t c hw) ∧ (u.tile t).sram = (s.tile t).sram ∧ (∀ n, n ≠ t → u.tile n = s.tile n) ∧
      ∀ cl, rateClass (readHdr (s.tile t).sram c.hdr).etype ((s.tile t).eng.slotOf c.slot).etype ((s.tile t).eng.slotOf c.slot).fmt = some cl → (s.tile t).engIdle → hw.first = none →
        hw.upset = none → mmaCause (s.tile t).sram (s.tile t).badSram c ((s.tile t).eng.slotOf c.slot) (mmaRuns s t c hw).rows true = none →
        GoesTo (exec (.engineRetire t .array) u) fun v =>
          (∃ n, (v.tile t).eng.acc = (mmaRun (s.tile t).eng (s.tile t).sram c ((s.tile t).eng.slotOf c.slot) cl (mmaRuns s t c hw).rows (BitVec.allOnes 64) none n).acc ∧
            (v.tile t).eng.cls = (mmaRun (s.tile t).eng (s.tile t).sram c ((s.tile t).eng.slotOf c.slot) cl (mmaRuns s t c hw).rows (BitVec.allOnes 64) none n).cls) ∧
          (v.tile t).eng.retired = (s.tile t).eng.retired + 1 ∧ (v.tile t).sram = (s.tile t).sram := by
  obtain ⟨ht, hruns, -, -, -, hop⟩ := id h
  obtain ⟨-, -, -, hexec⟩ := exec_mma h
  refine goesTo_of_eq (hexec hgood hgate hblock hpred) ?_
  have hself : (((s.modTile t fun T => T.meet fun _ => false).modTile t fun T => T.placed .array (mmaRuns s t c hw)).tile t) = ((s.tile t).meet fun _ => false).placed .array (mmaRuns s t c hw) := by
    rw [State.modTile_tile, if_pos rfl, State.modTile_tile, if_pos rfl]
  have hother (n : Nat) (hn : n ≠ t) : (((s.modTile t fun T => T.meet fun _ => false).modTile t fun T => T.placed .array (mmaRuns s t c hw)).tile n) = s.tile n := by
    rw [State.modTile_tile, if_neg hn, State.modTile_tile, if_neg hn]
  have hsame : (((s.modTile t fun T => T.meet fun _ => false).modTile t fun T => T.placed .array (mmaRuns s t c hw)).runs t) = s.runs t :=
    State.runs_congr rfl (by rw [hself]; rfl) (by rw [hself]; rfl)
  generalize (s.modTile t fun T => T.meet fun _ => false).modTile t (fun T => T.placed .array (mmaRuns s t c hw)) = u at hself hother hsame
  have heng : (u.tile t).eng = ((s.tile t).placed .array (mmaRuns s t c hw)).eng := by rw [hself]; rfl
  have hsram : (u.tile t).sram = (s.tile t).sram := by rw [hself]; rfl
  have hbads : (u.tile t).badSram = (s.tile t).badSram := by rw [hself]; rfl
  refine ⟨heng, hsram, hother, fun cl hcl hidle hfirst hup hcause => ?_⟩
  have hbad : (mmaRuns s t c hw).readsBad (u.tile t).sram = mmaRuns s t c hw := by simp [Running.readsBad, mmaRuns, hsram, hblock, hop]
  have hfinds : (mmaRuns s t c hw).finds (u.tile t).sram (u.tile t).badSram = none := by
    have hcmd : (mmaRuns s t c hw).cmd.op = 2 := hop
    have hstreams : mmaStreams (mmaRuns s t c hw).cmd (mmaRuns s t c hw).cols = true := by simp [mmaStreams, mmaRuns, hpred]
    rw [Running.finds, hcmd, hsram, hbads, hstreams]
    exact hcause
  have hcls : (mmaRuns s t c hw).cls? (u.tile t).sram = some cl := by
    rw [hsram]
    exact hcl
  obtain ⟨v, hv, T, n, hT, hvt⟩ := engineRetire_alone ht (hsame.trans hruns) hidle (by decide) rfl heng hbad rfl hfirst (fun _ => hup) hfinds
  obtain ⟨k, hacc, hclasses⟩ := Tile.ended_mma (u := .array) hT rfl (u.tile t).sram n hop hcls
  obtain ⟨hretired, -⟩ := Tile.ended_counts (u := .array) (r := mmaRuns s t c hw) hT rfl (u.tile t).sram n
  obtain ⟨-, hmem, -⟩ := Tile.bench_parts hT
  obtain ⟨-, -, hpacc, hpcls, hpret, -, -, -⟩ := (s.tile t).placed_parts .array (mmaRuns s t c hw)
  rw [← heng] at hpacc hpcls hpret
  obtain ⟨hsums, hrowCls⟩ := mmaRun_congr hpacc hpcls (u.tile t).sram c ((s.tile t).eng.slotOf c.slot) cl (mmaRuns s t c hw).rows (BitVec.allOnes 64) none k
  have hnone : (mmaRuns s t c hw).hw.upset = none := hup
  rw [hnone] at hacc hclasses
  refine ⟨v, hv, ⟨k, ?_, ?_⟩, ?_, ?_⟩
  · rw [hvt, ← hsram]
    exact hacc.trans hsums
  · rw [hvt, ← hsram]
    exact hclasses.trans hrowCls
  · rw [hvt, hretired, hpret]
  · rw [hvt, T.ended_sram_other _ _ _ _ _ (by rw [show (mmaRuns s t c hw).cmd.op = 2 from hop]; decide), hmem, hsram]

/-! ### STORE (R59, R69, R70) -/

/-- A STORE that fits enters the packer with its block and its mask word. -/
def storeRuns (T : Tile) (c : EngCmd) (hw : EngHw) : Running :=
  { cmd := c, hw, block := storeBlock T.eng c, mask := if c.maskout then some (storeMask (readRec T.sram c.maskptr) c (observedMask T.eng c)) else none }
/-- The state in which it has: its reads met, each word of its block and mask old or new (R52). -/
def storeDispatched (s : State) (t : Nat) (c : EngCmd) (hw : EngHw) : State :=
  ((s.modTile t fun T => T.meet (storeReads (s.tile t).sram c (storeBlock (s.tile t).eng c).length)).modTile t fun T =>
    (T.storeBegins c (storeBlock (s.tile t).eng c) (storeRuns (s.tile t) c hw).mask s.freeN).placed .packer (storeRuns (s.tile t) c hw)).spendN ((storeBlock (s.tile t).eng c).length + 9)
theorem storeRecBad_of_reads {m : Mem} {bad : List Nat} {c : EngCmd} {n : Nat} (h : bad.any (storeReads m c n) = false) : storeRecBad m bad c = false := by
  refine Bool.eq_false_iff.2 fun hbad => ?_
  unfold storeRecBad at hbad
  dsimp only at hbad
  rw [Bool.and_eq_true, List.any_eq_true] at hbad
  obtain ⟨hmask, w, hw, hin⟩ := hbad
  refine (List.any_eq_false.1 h) w hw ?_
  unfold storeReads
  dsimp only
  rw [Bool.or_eq_true]
  exact .inr (Bool.and_eq_true_iff.2 ⟨hmask, hin⟩)
theorem exec_store {s : State} {t : Nat} {c : EngCmd} {hw : EngHw} (h : Heads s t hw.stream c 3) :
    (storeFieldsBad c = true → exec (.store t hw) s = .next (s.badCmd t .packer c hw none)) ∧
    (storeFieldsBad c = false → gateSkips (s.tile t) c = true → exec (.store t hw) s = .next (s.setTile t ((s.tile t).skip c))) ∧
    (storeFieldsBad c = false → gateSkips (s.tile t) c = false → c.hdr + (storeBlock (s.tile t).eng c).length ≤ sramSize →
      (c.maskout = true → c.maskptr % 32 = 0 → (readRec (s.tile t).sram c.maskptr).resv = false) →
      (s.tile t).badSram.any (storeReads (s.tile t).sram c (storeBlock (s.tile t).eng c).length) = false →
      exec (.store t hw) s = .next (storeDispatched s t c hw)) := by
  have hexec : exec (.store t hw) s = execStore t hw s := rfl
  rw [hexec, execStore, onTile, if_pos h.1, headCmd_of h rfl]
  dsimp only
  refine ⟨fun hbad => if_pos hbad, fun hgood hgate => ?_, fun hgood hgate hfit hresv hreads => ?_⟩
  · rw [if_neg (Bool.eq_false_iff.1 hgood), if_pos hgate]
    rfl
  · have hok : ¬ (decide (sramSize < c.hdr + (storeBlock (s.tile t).eng c).length) || (c.maskout && c.maskptr % 32 == 0 && (readRec (s.tile t).sram c.maskptr).resv)) = true := by
      rw [Bool.or_eq_true, decide_eq_true_eq, Bool.and_eq_true, Bool.and_eq_true, beq_iff_eq]
      rintro (hbig | ⟨⟨hmask, hptr⟩, hr⟩)
      · omega
      · rw [hresv hmask hptr] at hr
        exact Bool.false_ne_true hr
    have hmask : (if c.maskout = true ∧ storeRecBad (s.tile t).sram (s.tile t).badSram c = false then some (storeMask (readRec (s.tile t).sram c.maskptr) c (observedMask (s.tile t).eng c)) else none) =
        (storeRuns (s.tile t) c hw).mask := by
      rw [storeRecBad_of_reads hreads]
      simp [storeRuns]
    rw [if_neg (Bool.eq_false_iff.1 hgood), if_neg (Bool.eq_false_iff.1 hgate), if_neg hok, hmask, hreads, if_neg Bool.false_ne_true, State.unitReads_of_good hreads]
    rfl
theorem Tile.storeBegins_field {α : Type} (π : Tile → α) (hput : ∀ T a bs, π (Tile.sramPut T a bs) = π T) (hhit : ∀ T a n, π (Tile.hitResv T a n) = π T)
    (hopen : ∀ T l, π { T with opened := l } = π T) (T : Tile) (c : EngCmd) (bs : List Byte) (mask : Option W64) (n : Nat) : π (T.storeBegins c bs mask n) = π T := by
  have hfree (T : Tile) (a n : Nat) (bs : List Byte) (free : Nat → Bool) : π (T.putFree a bs free n) = π T := T.putFree_field a n bs free π hput hhit
  unfold Tile.storeBegins
  dsimp only
  split
  · exact hfree ..
  · split
    · exact hfree ..
    · split
      · exact (hput ..).trans ((hopen ..).trans ((hfree ..).trans (hfree ..)))
      · exact (hfree ..).trans (hfree ..)
theorem Tile.storeBegins_eng (T : Tile) (c : EngCmd) (bs : List Byte) (mask : Option W64) (n : Nat) : (T.storeBegins c bs mask n).eng.sansHits = T.eng.sansHits :=
  Tile.storeBegins_field (fun T => T.eng.sansHits) Tile.sramPut_eng (fun _ _ _ => rfl) (fun _ _ => rfl) T c bs mask n
theorem Tile.engIdle_of_sansHits {T T' : Tile} (h : T'.eng.sansHits = T.eng.sansHits) (hidle : T.engIdle) : T'.engIdle := by
  obtain ⟨hl, ha, hp⟩ := hidle
  have hnil {l l' : List Running} (hmap : l'.map Running.sansHits = l.map Running.sansHits) (hl : l = []) : l' = [] := by
    rw [hl] at hmap
    exact List.map_eq_nil_iff.1 hmap
  exact ⟨hnil (congrArg Engine.loader h :) hl, hnil (congrArg Engine.array h :) ha, hnil (congrArg Engine.packer h :) hp⟩
theorem zeroRows_acc_congr {e e' : Engine} (h : e.acc = e'.acc) (rows : List Nat) : (zeroRows e rows).acc = (zeroRows e' rows).acc := by
  unfold zeroRows
  dsimp only
  rw [h]
theorem Tile.storeBegins_mem (T : Tile) (c : EngCmd) (bs : List Byte) (n : Nat) {j : Nat} (hj : j < c.hdr ∨ c.hdr + bs.length ≤ j) : memGet (T.storeBegins c bs none n).sram j = memGet T.sram j :=
  T.putFree_mem_outside c.hdr n bs _ hj
/-- The tile of a STORE that has dispatched (R52, R59). -/
theorem storeDispatched_self (s : State) (t : Nat) (c : EngCmd) (hw : EngHw) : ∃ T : Tile, T.eng.sansHits = (s.tile t).eng.sansHits ∧
    (T.st = (s.tile t).st ∧ T.resetting = (s.tile t).resetting) ∧
    (c.maskout = false → ∀ a, a < c.hdr ∨ c.hdr + (storeBlock (s.tile t).eng c).length ≤ a → memGet T.sram a = memGet (s.tile t).sram a) ∧
    (storeDispatched s t c hw).tile t = T.placed .packer (storeRuns (s.tile t) c hw) := by
  have hself : (storeDispatched s t c hw).tile t =
      ((((s.tile t).meet (storeReads (s.tile t).sram c (storeBlock (s.tile t).eng c).length)).storeBegins c (storeBlock (s.tile t).eng c) (storeRuns (s.tile t) c hw).mask s.freeN).placed .packer
        (storeRuns (s.tile t) c hw)) := by
    rw [storeDispatched, State.spendN_tile, State.modTile_tile, if_pos rfl, State.modTile_tile, if_pos rfl]
  refine ⟨_, ?_, ?_, fun hnone a ha => ?_, hself⟩
  · exact (Tile.storeBegins_eng ..).trans rfl
  · have hfield := Tile.storeBegins_field (fun T => (T.st, T.resetting)) (fun _ _ _ => rfl) (fun _ _ _ => rfl) (fun _ _ => rfl)
      ((s.tile t).meet (storeReads (s.tile t).sram c (storeBlock (s.tile t).eng c).length)) c (storeBlock (s.tile t).eng c) (storeRuns (s.tile t) c hw).mask s.freeN
    exact Prod.mk.inj hfield
  · have hmask : (storeRuns (s.tile t) c hw).mask = none := if_neg (Bool.eq_false_iff.1 hnone)
    rw [hmask, Tile.storeBegins_mem _ _ _ _ ha]
    rfl
theorem storeDispatched_other (s : State) (t : Nat) (c : EngCmd) (hw : EngHw) (n : Nat) (hn : n ≠ t) : (storeDispatched s t c hw).tile n = s.tile n := by
  rw [storeDispatched, State.spendN_tile, State.modTile_tile, if_neg hn, State.modTile_tile, if_neg hn]
/-- The STORE in the packer, and its retirement where it runs alone, writes no mask and meets no fault (R59, R69, R70). -/
theorem store_goesTo {s : State} {t : Nat} {c : EngCmd} {hw : EngHw} (h : Heads s t hw.stream c 3) (hgood : storeFieldsBad c = false) (hgate : gateSkips (s.tile t) c = false)
    (hfit : c.hdr + (storeBlock (s.tile t).eng c).length ≤ sramSize) (hresv : c.maskout = true → c.maskptr % 32 = 0 → (readRec (s.tile t).sram c.maskptr).resv = false)
    (hreads : (s.tile t).badSram.any (storeReads (s.tile t).sram c (storeBlock (s.tile t).eng c).length) = false) :
    GoesTo (exec (.store t hw) s) fun u =>
      (u.tile t).eng.packer.map (fun r => (r.cmd, r.block, r.mask)) = (s.tile t).eng.packer.map (fun r => (r.cmd, r.block, r.mask)) ++ [(c, storeBlock (s.tile t).eng c, (storeRuns (s.tile t) c hw).mask)] ∧
      (u.tile t).eng.queue = (s.tile t).eng.queue.drop 1 ∧ (u.tile t).eng.acc = (s.tile t).eng.acc ∧ (∀ n, n ≠ t → u.tile n = s.tile n) ∧
      (c.maskout = false → (∀ a, a < c.hdr ∨ c.hdr + (storeBlock (s.tile t).eng c).length ≤ a → memGet (u.tile t).sram a = memGet (s.tile t).sram a) ∧
        ((s.tile t).engIdle → hw.first = none → GoesTo (exec (.engineRetire t .packer) u) fun v =>
          memGetList (v.tile t).sram c.hdr (storeBlock (s.tile t).eng c).length = storeBlock (s.tile t).eng c ∧
          (∀ a, a < c.hdr ∨ c.hdr + (storeBlock (s.tile t).eng c).length ≤ a → memGet (v.tile t).sram a = memGet (s.tile t).sram a) ∧
          (v.tile t).eng.acc = (if c.keepacc then (s.tile t).eng.acc else (zeroRows (s.tile t).eng c.rows).acc) ∧ (v.tile t).eng.retired = (s.tile t).eng.retired + 1)) := by
  obtain ⟨ht, hruns, -, -, -, hop⟩ := id h
  obtain ⟨-, -, hexec⟩ := exec_store h
  obtain ⟨T, heng, hstres, hmem, hself⟩ := storeDispatched_self s t c hw
  have hother := storeDispatched_other s t c hw
  have hsame : (storeDispatched s t c hw).runs t = s.runs t := State.runs_congr rfl (by rw [hself]; exact hstres.1) (by rw [hself]; exact hstres.2)
  refine goesTo_of_eq (hexec hgood hgate hfit hresv hreads) ?_
  generalize storeDispatched s t c hw = u at hself hother hsame
  have hacc : T.eng.acc = (s.tile t).eng.acc := Engine.field_of_sansHits Engine.acc (fun _ => rfl) heng
  have hret : T.eng.retired = (s.tile t).eng.retired := Engine.field_of_sansHits Engine.retired (fun _ => rfl) heng
  refine ⟨?_, ?_, by rw [hself]; exact hacc, hother, fun hnone => ⟨fun a ha => by rw [hself]; exact hmem hnone a ha, fun hidle hfirst => ?_⟩⟩
  · rw [hself, ← Engine.packs_of_sansHits heng]
    exact List.map_append ..
  · rw [hself]
    exact congrArg (List.drop 1) (Engine.field_of_sansHits Engine.queue (fun _ => rfl) heng)
  · have hunit : (u.tile t).eng.unit .packer = [storeRuns (s.tile t) c hw] := by rw [hself, Tile.placed_unit (Tile.engIdle_of_sansHits heng hidle)]
    have hmask : (storeRuns (s.tile t) c hw).mask = none := if_neg (Bool.eq_false_iff.1 hnone)
    have hcmd : (storeRuns (s.tile t) c hw).cmd.op = 3 := hop
    have hbad (m : Mem) : (storeRuns (s.tile t) c hw).readsBad m = storeRuns (s.tile t) c hw := by simp [Running.readsBad, storeRuns, hop]
    have hfinds (m : Mem) (bad : List Nat) : (storeRuns (s.tile t) c hw).finds m bad = none := by
      rw [Running.finds, hcmd]
      rfl
    obtain ⟨v, hv, ⟨T', n, hT, hvt⟩, -⟩ := engineRetire_runs ht (hsame.trans hruns) hunit rfl rfl (hbad _) rfl (Running.fares_runs rfl hfirst (fun h2 => absurd (hcmd.symm.trans h2) (by decide)) (hfinds _ _))
    generalize freeWords (u.tile t).sram u.freeN ((u.tile t).eng.unsure (storeRuns (s.tile t) c hw)) = m at hvt
    obtain ⟨hblock, hrest⟩ := T'.ended_sram_store .packer (storeRuns (s.tile t) c hw) .runs m n hcmd hmask rfl
    have hrows := Tile.ended_store (u := .packer) (r := storeRuns (s.tile t) c hw) hT rfl m n hcmd
    obtain ⟨hretired, -⟩ := Tile.ended_counts (u := .packer) (r := storeRuns (s.tile t) c hw) hT rfl m n
    obtain ⟨-, hsram, -⟩ := Tile.bench_parts hT
    refine ⟨v, hv, ?_⟩
    dsimp only
    rw [hvt, hretired, hrows]
    refine ⟨hblock, fun a ha => (hrest a ha).trans ?_, ?_, ?_⟩
    · rw [hsram, hself]
      exact hmem hnone a ha
    · rw [hself]
      exact if_congr Iff.rfl hacc (zeroRows_acc_congr hacc c.rows)
    · rw [hself]
      exact congrArg (· + 1) hret

/-- Settles O20: the head dispatches by the branches of its command; alone in the engine an MMA and a STORE retire as `Tile.ended` says; and 21 divides no power of two. -/
theorem engineComputesComplete : Obligations.EngineComputesComplete := by
  unfold Obligations.EngineComputesComplete
  intro skipped quiet
  refine ⟨fun t c hw s h => ?_, fun t c hw s h => ?_, clinker_eq_false_iff, clinker_two_pow⟩
  · obtain ⟨hfields, hskip, hblock, -⟩ := exec_mma h
    refine ⟨hfields, fun hgood hgate => ?_, fun hgood hgate => ⟨hblock hgood hgate, fun hgoodBlock hpred => mma_goesTo h hgood hgate hgoodBlock hpred⟩⟩
    obtain ⟨u, hu, heng, -, hsram, hother⟩ := skip_goesTo (hskip hgood hgate)
    exact ⟨u, hu, heng, hsram, hother⟩
  · obtain ⟨hfields, hskip, -⟩ := exec_store h
    refine ⟨hfields, fun hgood hgate => ?_, fun hgood hgate => fun hfit hresv hreads => store_goesTo h hgood hgate hfit hresv hreads⟩
    obtain ⟨u, hu, heng, -, hsram, hother⟩ := skip_goesTo (hskip hgood hgate)
    exact ⟨u, hu, heng, hsram, hother⟩
end Sys2Proof.Machine
end

section
/-! PROOFS. Ordinary instructions of the cores: each completes, and the results of the integer ones, of loads and of stores (R167 to R178, R200; O11). -/

namespace Sys2Proof.Machine

open Sys2Proof.Safety (Blk Only GoesTo)

/-! ### Every ordinary instruction completes (R167 to R176) -/

/-- A meaning ends in a next state. -/
def Completes (o : Out) : Prop := ∃ u, o = .next u
section
variable (s : State) (t c w len : Nat)
theorem Completes.ok (s : State) : Completes (ok s) := ⟨s, rfl⟩
theorem Completes.ite {p : Prop} [Decidable p] {a b : Out} (ha : Completes a) (hb : Completes b) : Completes (if p then a else b) := by
  split
  · exact ha
  · exact hb
theorem fin_completes (f : Core → Core) : Completes (fin s t c len f) := ⟨_, rfl⟩
theorem illegal_completes : Completes (illegal s t c w) := ⟨_, rfl⟩
theorem coreLoad_completes (a n : Nat) {k : State → Nat → Out} (hk : ∀ s v, Completes (k s v)) : Completes (coreLoad s t c a n k) := by
  unfold coreLoad
  split
  · exact hk _ _
  · exact .ok _
theorem coreStore_completes (a n v : Nat) {k : State → Out} (hk : ∀ s, Completes (k s)) : Completes (coreStore s t c a n v k) := by
  unfold coreStore
  dsimp only
  split
  · exact .ok _
  · split
    · exact .ok _
    · split
      · exact .ok _
      · split
        · exact .ok _
        · exact hk _
    · split
      · exact .ok _
      · exact hk _
    · split
      · exact .ok _
      · exact hk _
    · split
      · exact .ok _
      · exact hk _
theorem rvAmo_completes : Completes (rvAmo s t c w len) := by
  unfold rvAmo
  dsimp only
  generalize (if iF3 w = 2 then 4 else 8) = n
  split
  · exact illegal_completes ..
  split
  · split
    · exact illegal_completes ..
    split
    · exact .ok _
    · exact coreLoad_completes _ _ _ _ _ fun _ _ => fin_completes ..
  split
  · split
    · exact .ok _
    split
    · exact .ok _
    split
    · split
      · exact coreStore_completes _ _ _ _ _ _ fun _ => fin_completes ..
      · exact fin_completes ..
    · exact fin_completes ..
  split
  · exact illegal_completes ..
  split
  · exact .ok _
  split
  · exact .ok _
  · exact coreLoad_completes _ _ _ _ _ fun _ _ => coreStore_completes _ _ _ _ _ _ fun _ => fin_completes ..
theorem vAccess_completes (m : VMem) (isLoad : Bool) : Completes (vAccess s t c len m isLoad) := by
  unfold vAccess
  dsimp only
  split
  · exact fin_completes ..
  · split
    · exact fin_completes ..
    · exact .ok _
theorem rvVecMem_completes (isLoad : Bool) : Completes (rvVecMem s t c w len isLoad) := by
  unfold rvVecMem
  dsimp only
  split
  · exact illegal_completes ..
  split
  · exact illegal_completes ..
  split
  · split
    · exact vAccess_completes ..
    · exact illegal_completes ..
  split
  · exact illegal_completes ..
  split
  · split
    · exact vAccess_completes ..
    · exact illegal_completes ..
  exact .ite (vAccess_completes ..) (illegal_completes ..)
theorem rvFma_completes : Completes (rvFma s t c w len) := by
  unfold rvFma
  dsimp only
  split
  · exact illegal_completes ..
  · split
    · exact illegal_completes ..
    · exact fin_completes ..
theorem rvFp_completes : Completes (rvFp s t c w len) := by
  unfold rvFp
  dsimp only
  repeat' split
  all_goals exact ⟨_, rfl⟩
theorem rvVec_completes : Completes (rvVec s t c w len) := by
  unfold rvVec
  dsimp only
  repeat' split
  all_goals exact ⟨_, rfl⟩
theorem rvCsr_completes : Completes (rvCsr s t c w len) := by
  unfold rvCsr
  dsimp only
  generalize (if w / 2 ^ 20 = 0xC00 then s.passCycles t c else s) = s'
  repeat' split
  all_goals exact ⟨_, rfl⟩
theorem rvExec_completes : Completes (rvExec s t c w len) := by
  unfold rvExec
  dsimp only
  split
  case h_6 =>
    split
    · exact coreLoad_completes _ _ _ _ _ fun _ _ => fin_completes ..
    · exact illegal_completes ..
  case h_7 =>
    split
    · exact coreStore_completes _ _ _ _ _ _ fun _ => fin_completes ..
    · exact illegal_completes ..
  case h_13 => exact rvAmo_completes ..
  case h_14 =>
    split
    · exact coreLoad_completes _ _ _ _ _ fun _ _ => fin_completes ..
    · exact rvVecMem_completes ..
  case h_15 =>
    split
    · exact coreStore_completes _ _ _ _ _ _ fun _ => fin_completes ..
    · exact rvVecMem_completes ..
  case h_16 => exact rvFma_completes ..
  case h_17 => exact rvFma_completes ..
  case h_18 => exact rvFma_completes ..
  case h_19 => exact rvFma_completes ..
  case h_20 => exact rvFp_completes ..
  case h_21 => exact rvVec_completes ..
  case h_22 =>
    split
    · repeat' split
      all_goals exact ⟨_, rfl⟩
    · split
      · exact illegal_completes ..
      · exact rvCsr_completes ..
  all_goals
    repeat' split
    all_goals exact ⟨_, rfl⟩
end
theorem rvInstruction_completes {t : Nat} (c : Nat) (m : Bool) (s : State) (ht : t < 32768) : Completes (exec (.rvInstruction t c m) s) := by
  have hexec : exec (.rvInstruction t c m) s = execRvInstruction t c m s := rfl
  rw [hexec, execRvInstruction, onTile, if_pos ht]
  split
  · exact .ok _
  split
  · exact .ok _
  split
  · exact .ok _
  · split
    · exact .ok _
    · exact rvExec_completes ..
end Sys2Proof.Machine
end

section
/-! PROOFS. Results of the integer instructions, of loads and of stores (R167 to R178, R200; O11). -/

namespace Sys2Proof.Machine

open Sys2Proof.Safety (Blk Only GoesTo)

/-! ### What each opcode does (R167 to R176) -/

section
variable {s : State} {t c w len : Nat}

theorem rvExec_lui (h : iOp w = 0x37) : rvExec s t c w len = fin s t c len fun k => k.setX (iRd w) (immU w) := by
  rw [rvExec, h]
  rfl
theorem rvExec_auipc (h : iOp w = 0x17) : rvExec s t c w len = fin s t c len fun k => k.setX (iRd w) ((s.core t c).pc + immU w) := by
  rw [rvExec, h]
  rfl
theorem rvExec_jal (h : iOp w = 0x6F) : rvExec s t c w len = ok (s.modCore t c fun k => (k.setX (iRd w) (k.pc + u64 len)).next (k.pc + immJ w)) := by
  rw [rvExec, h]
  rfl
theorem rvExec_jalr (h : iOp w = 0x67) (hf3 : iF3 w = 0) : rvExec s t c w len =
    ok (s.modCore t c fun k => (k.setX (iRd w) (k.pc + u64 len)).next (((s.core t c).getX (iRs1 w) + immI w) &&& ~~~1#64)) := by
  rw [rvExec, h]
  exact if_pos hf3
theorem rvExec_branch {b : Bool} (h : iOp w = 0x63) (hb : branchTaken (iF3 w) ((s.core t c).getX (iRs1 w)) ((s.core t c).getX (iRs2 w)) = some b) :
    rvExec s t c w len = ok (s.modCore t c fun k => k.next (if b then k.pc + immB w else k.pc + u64 len)) := by
  rw [rvExec, h, hb]
  rfl
theorem rvExec_opImm (h : iOp w = 0x13) (h1 : iF3 w ≠ 1) (h5 : iF3 w ≠ 5) :
    rvExec s t c w len = fin s t c len fun k => k.setX (iRd w) (alu (iF3 w) false ((s.core t c).getX (iRs1 w)) (immI w)) := by
  rw [rvExec, h]
  exact (if_neg h1).trans (if_neg h5)
theorem rvExec_slli (h : iOp w = 0x13) (hf3 : iF3 w = 1) (hi : w / 2 ^ 26 = 0) :
    rvExec s t c w len = fin s t c len fun k => k.setX (iRd w) (alu 1 false ((s.core t c).getX (iRs1 w)) (u64 (w / 2 ^ 20 % 64))) := by
  rw [rvExec, h]
  exact (if_pos hf3).trans (if_pos hi)
theorem rvExec_srli (h : iOp w = 0x13) (hf3 : iF3 w = 5) (hi : w / 2 ^ 26 = 0) :
    rvExec s t c w len = fin s t c len fun k => k.setX (iRd w) (alu 5 false ((s.core t c).getX (iRs1 w)) (u64 (w / 2 ^ 20 % 64))) := by
  rw [rvExec, h]
  exact (if_neg (by rw [hf3]; decide)).trans ((if_pos hf3).trans (if_pos hi))
theorem rvExec_srai (h : iOp w = 0x13) (hf3 : iF3 w = 5) (hi : w / 2 ^ 26 = 16) :
    rvExec s t c w len = fin s t c len fun k => k.setX (iRd w) (alu 5 true ((s.core t c).getX (iRs1 w)) (u64 (w / 2 ^ 20 % 64))) := by
  rw [rvExec, h]
  exact (if_neg (by rw [hf3]; decide)).trans ((if_pos hf3).trans ((if_neg (by rw [hi]; decide)).trans (if_pos hi)))
theorem rvExec_op (h : iOp w = 0x33) (hf7 : iF7 w = 0) :
    rvExec s t c w len = fin s t c len fun k => k.setX (iRd w) (alu (iF3 w) false ((s.core t c).getX (iRs1 w)) ((s.core t c).getX (iRs2 w))) := by
  rw [rvExec, h]
  exact if_pos hf7
theorem rvExec_opAlt (h : iOp w = 0x33) (hf7 : iF7 w = 0x20) (hf3 : iF3 w = 0 ∨ iF3 w = 5) :
    rvExec s t c w len = fin s t c len fun k => k.setX (iRd w) (alu (iF3 w) true ((s.core t c).getX (iRs1 w)) ((s.core t c).getX (iRs2 w))) := by
  rw [rvExec, h]
  exact (if_neg (by rw [hf7]; decide)).trans (if_pos ⟨hf7, hf3⟩)
theorem rvExec_mulDiv (h : iOp w = 0x33) (hf7 : iF7 w = 1) :
    rvExec s t c w len = fin s t c len fun k => k.setX (iRd w) (u64 (mulDiv (iF3 w) 64 ((s.core t c).getX (iRs1 w)).toNat ((s.core t c).getX (iRs2 w)).toNat)) := by
  rw [rvExec, h]
  exact (if_neg (by rw [hf7]; decide)).trans ((if_neg fun h20 => absurd (hf7.symm.trans h20.1) (by decide)).trans (if_pos hf7))
theorem rvExec_addiw (h : iOp w = 0x1B) (hf3 : iF3 w = 0) :
    rvExec s t c w len = fin s t c len fun k => k.setX (iRd w) ((aluW 0 false ((s.core t c).getX (iRs1 w)) (immI w)).getD 0) := by
  rw [rvExec, h]
  exact if_pos hf3
theorem rvExec_opW {v : W64} (h : iOp w = 0x3B) (hf7 : iF7 w = 0 ∨ (iF7 w = 0x20 ∧ (iF3 w = 0 ∨ iF3 w = 5)))
    (hv : aluW (iF3 w) (iF7 w == 0x20) ((s.core t c).getX (iRs1 w)) ((s.core t c).getX (iRs2 w)) = some v) : rvExec s t c w len = fin s t c len fun k => k.setX (iRd w) v := by
  rw [rvExec, h]
  dsimp only
  rw [if_pos hf7, hv]
  rfl
theorem rvExec_fence (h : iOp w = 0x0F) (hf3 : iF3 w ≤ 1) : rvExec s t c w len = fin s t c len id := by
  rw [rvExec, h]
  exact if_pos hf3
theorem rvExec_wfi : rvExec s t c 0x10500073 len = fin s t c len id := rfl
theorem rvExec_ecall : rvExec s t c 0x73 len = ok (s.trap t c 8 0) := rfl
theorem rvExec_ebreak : rvExec s t c 0x100073 len = ok (s.trap t c 3 (s.core t c).pc) := rfl
theorem rvExec_load {n : Nat} {sg : Bool} (h : iOp w = 0x03) (hkind : loadKind (iF3 w) = some (n, sg)) :
    rvExec s t c w len = coreLoad s t c (ea (s.core t c) (iRs1 w) (immI w)) n fun s v => fin s t c len fun k => k.setX (iRd w) (if sg then sext (8 * n) v else u64 v) := by
  rw [rvExec, h, hkind]
  rfl
theorem rvExec_store (h : iOp w = 0x23) (hf3 : iF3 w ≤ 3) : rvExec s t c w len =
    coreStore s t c (ea (s.core t c) (iRs1 w) (immS w)) (2 ^ iF3 w) (((s.core t c).getX (iRs2 w)).toNat % 2 ^ (8 * 2 ^ iF3 w)) fun s => fin s t c len id := by
  rw [rvExec, h]
  exact if_pos hf3
end

/-! ### What an ordinary instruction leaves of its core -/

theorem Core.setX_next (k : Core) (r : Nat) (v pc : W64) : (k.setX r v).next pc = { k.setX r v with pc := pc, instret := k.instret + 1 } := by
  unfold Core.setX
  split <;> rfl
/-- What is done to a core turns on that core alone. -/
theorem State.modCore_congr {s : State} {t c : Nat} {f g : Core → Core} (h : f (s.core t c) = g (s.core t c)) : s.modCore t c f = s.modCore t c g := by
  have htile : (s.tile t).modCore c f = (s.tile t).modCore c g := congrArg ((s.tile t).setCore c) h
  exact congrArg (s.setTile t) htile
theorem fin_setX (s : State) (t c len rd : Nat) (v : W64) : fin s t c len (fun k => k.setX rd v) =
    .next (s.modCore t c fun k => { k.setX rd v with pc := (s.core t c).pc + u64 len, instret := k.instret + 1 }) :=
  congrArg Host.Outcome.next (State.modCore_congr (Core.setX_next ..))
theorem isExit_of_op {k : Core} {w : Nat} (h : iOp w ≠ 0x73) : isExit k w = false := by
  have hw : (w == 0x73) = false := beq_eq_false_iff_ne.2 fun hw => h (by rw [hw]; rfl)
  rw [isExit, hw, Bool.false_and]
theorem exec_rvInstruction {s : State} {t c w len : Nat} (ht : t < 32768) (hruns : coreRuns s t c = true) (hfetch : (s.tile t).fetch c = .ins w len) (hxt : xtOf w = none)
    (hexit : isExit (s.core t c) w = false) : exec (.rvInstruction t c false) s = rvExec (s.fetched t c len) t c w len := by
  have hexec : exec (.rvInstruction t c false) s = execRvInstruction t c false s := rfl
  have hcore : (s.tile t).core c = s.core t c := rfl
  rw [hexec, execRvInstruction, onTile, if_pos ht, Bool.false_and, if_neg Bool.false_ne_true, hruns, if_neg (by decide), hfetch]
  dsimp only
  rw [hxt, hcore, hexit, if_neg (by decide)]

/-! ### The values of multiplication, division and the W forms -/

theorem u64_toNat_mod (n : Nat) : (u64 (n % 64)).toNat % 64 = n % 64 := by
  rw [u64, BitVec.toNat_ofNat]
  omega
theorem toSigned_toNat (x : W64) : toSigned 64 x.toNat = x.toInt := by
  have hx : x.toNat % 2 ^ 64 = x.toNat := Nat.mod_eq_of_lt x.isLt
  rw [toSigned, hx, BitVec.toInt_eq_toNat_cond]
  have hlt := x.isLt
  split <;> split <;> omega
theorem u64_wrapInt (z : Int) : u64 (wrapInt 64 z) = BitVec.ofInt 64 z := by
  apply BitVec.eq_of_toNat_eq
  rw [u64, wrapInt, BitVec.toNat_ofNat, BitVec.toNat_ofInt]
  omega
theorem mulDiv_mul (x y : W64) : u64 (mulDiv 0 64 x.toNat y.toNat) = x * y := by
  apply BitVec.eq_of_toNat_eq
  rw [u64, mulDiv, BitVec.toNat_ofNat, BitVec.toNat_mul, Nat.mod_mod]
theorem toNat_eq_zero_iff (y : W64) : y.toNat = 0 ↔ y = 0 := ⟨fun h => BitVec.eq_of_toNat_eq h, fun h => by rw [h]; rfl⟩
theorem u64_toNat (x : W64) : u64 x.toNat = x := (BitVec.ofNat_toNat 64 x).trans (BitVec.setWidth_eq x)
theorem mulDiv_div (x y : W64) : u64 (mulDiv 4 64 x.toNat y.toNat) = if y = 0 then BitVec.allOnes 64 else BitVec.ofInt 64 (Int.tdiv x.toInt y.toInt) := by
  simp only [mulDiv, toSigned_toNat, toNat_eq_zero_iff]
  split
  · rfl
  · exact u64_wrapInt _
theorem mulDiv_divu (x y : W64) : u64 (mulDiv 5 64 x.toNat y.toNat) = if y = 0 then BitVec.allOnes 64 else x / y := by
  simp only [mulDiv, toNat_eq_zero_iff]
  split
  · rfl
  · exact u64_toNat (x / y)
theorem mulDiv_rem (x y : W64) : u64 (mulDiv 6 64 x.toNat y.toNat) = if y = 0 then x else BitVec.ofInt 64 (Int.tmod x.toInt y.toInt) := by
  simp only [mulDiv, toSigned_toNat, toNat_eq_zero_iff]
  split
  · exact u64_toNat x
  · exact u64_wrapInt _
theorem mulDiv_remu (x y : W64) : u64 (mulDiv 7 64 x.toNat y.toNat) = x % y := by
  simp only [mulDiv]
  split
  · next h =>
    rw [(toNat_eq_zero_iff y).1 h]
    exact (u64_toNat x).trans BitVec.umod_zero.symm
  · exact u64_toNat (x % y)
theorem setWidth_sub (x y : W64) : (x - y).setWidth 32 = x.setWidth 32 - y.setWidth 32 := by
  apply BitVec.eq_of_toNat_eq
  simp only [BitVec.toNat_setWidth, BitVec.toNat_sub]
  omega
theorem aluW_add (x y : W64) : aluW 0 false x y = some (((x + y).setWidth 32).signExtend 64) := by
  rw [BitVec.setWidth_add x y (by decide)]
  rfl
theorem aluW_sub (x y : W64) : aluW 0 true x y = some (((x - y).setWidth 32).signExtend 64) := by
  rw [setWidth_sub]
  rfl
theorem branchTaken_eq (x y : W64) : branchTaken 4 x y = some (x.slt y) ∧ branchTaken 5 x y = some (!x.slt y) ∧ branchTaken 6 x y = some (x.ult y) ∧ branchTaken 7 x y = some (!x.ult y) := by
  refine ⟨rfl, ?_, rfl, ?_⟩
  · rw [BitVec.slt, ← decide_not]
    exact congrArg some (decide_eq_decide.2 Int.not_lt.symm)
  · rw [BitVec.ult, ← decide_not]
    exact congrArg some (decide_eq_decide.2 Nat.not_lt.symm)
theorem alu_slt (x y : W64) : alu 2 false x y = if x.slt y then 1 else 0 := by
  rw [BitVec.slt]
  simp only [decide_eq_true_eq]
  rfl
theorem alu_sltu (x y : W64) : alu 3 false x y = if x.ult y then 1 else 0 := by
  rw [BitVec.ult]
  simp only [decide_eq_true_eq]
  rfl
theorem alu_shift (x : W64) (n : Nat) : alu 1 false x (u64 (n % 64)) = x <<< (n % 64) ∧ alu 5 false x (u64 (n % 64)) = x >>> (n % 64) ∧
    alu 5 true x (u64 (n % 64)) = x.sshiftRight (n % 64) := by
  refine ⟨?_, ?_, ?_⟩ <;> simp only [alu, u64_toNat_mod] <;> rfl

/-! ### Loads and stores (R170, R178, R200) -/

section
variable {s : State} {t c a n : Nat}

theorem coreLoad_misaligned (k : State → Nat → Out) (h : a % n ≠ 0) : coreLoad s t c a n k = .next (s.trap t c 4 (u64 a)) := by
  rw [coreLoad, Tile.rdMem, if_pos h]
  rfl
theorem coreLoad_differs (k : State → Nat → Out) (h : a % n = 0) (hbad : (s.tile t).badAt a = false) (hzone : zoneOf (s.tile t).guarded a = .scratch) (hpair : (s.tile t).pairDiffers a n = true) :
    coreLoad s t c a n k = .next (s.trap t c 24 0) := by
  rw [coreLoad, Tile.rdMem, if_neg (fun hne => hne h), hzone]
  dsimp only
  rw [hbad, hpair]
  rfl
theorem coreLoad_scratch (k : State → Nat → Out) (h : a % n = 0) (hbad : (s.tile t).badAt a = false) (hzone : zoneOf (s.tile t).guarded a = .scratch) (hpair : (s.tile t).pairDiffers a n = false) :
    coreLoad s t c a n k = k (s.modTile t fun T => T.meetLocal a n) (memWord (s.tile t).scr a n) := by
  rw [coreLoad, Tile.rdMem, if_neg (fun hne => hne h), hzone]
  dsimp only
  rw [hbad, hpair]
  rfl
theorem coreLoad_sram (k : State → Nat → Out) (h : a % n = 0) (hbad : (s.tile t).badAt a = false) (hzone : zoneOf (s.tile t).guarded a = .sram) :
    coreLoad s t c a n k = k (s.modTile t fun T => T.meetLocal a n) (memWord (s.tile t).sram (a - 0x1000000) n) := by
  rw [coreLoad, Tile.rdMem, if_neg (fun hne => hne h), hzone]
  dsimp only
  rw [hbad]
  rfl
theorem coreStore_misaligned (v : Nat) (k : State → Out) (h : a % n ≠ 0) : coreStore s t c a n v k = .next (s.trap t c 6 (u64 a)) := by
  rw [coreStore]
  exact if_pos h
theorem coreStore_scratch (v : Nat) (k : State → Out) (h : a % n = 0) (hbad : (s.tile t).badAt a = false) (hzone : zoneOf (s.tile t).guarded a = .scratch) (hcopy : (s.tile t).badCopy a = false) :
    coreStore s t c a n v k = k (s.setTile t (((s.tile t).scrPut a (leBytes n v)).breakResv c a n)) := by
  rw [coreStore, if_neg (fun hne => hne h), hzone, hbad, hcopy, if_neg (fun hx => Bool.false_ne_true hx.2), if_neg (fun hx => Bool.false_ne_true hx.2)]
theorem coreStore_sram (v : Nat) (k : State → Out) (h : a % n = 0) (hbad : (s.tile t).badAt a = false) (hzone : zoneOf (s.tile t).guarded a = .sram) :
    coreStore s t c a n v k = k ((s.sramStore t (a - 0x1000000) (leBytes n v)).modTile t fun T => T.breakResv c a n) := by
  rw [coreStore, if_neg (fun hne => hne h), hzone, hbad]
  exact if_neg fun hx => Bool.false_ne_true hx.2
end
/-- What a change of another core's reservation leaves of a core. -/
theorem tget_map_field {α β : Type} (d : α) (π : α → β) {g : Nat → α → α} (hg : ∀ k v, π (g k v) = π v) (j : Nat) : ∀ m : Tbl α, π (tget d (m.map fun e => (e.1, g e.1 e.2)) j) = π (tget d m j)
  | [] => rfl
  | (k, v) :: m => by
    rw [List.map_cons, tget, tget]
    split
    · exact hg k v
    · exact tget_map_field d π hg j m
theorem Tile.breakResv_core {β : Type} (π : Core → β) (hπ : ∀ k r, π { k with resv := r } = π k) (T : Tile) (c a n j : Nat) : π ((T.breakResv c a n).core j) = π (T.core j) := by
  refine tget_map_field {} π (g := fun e k => match k.resv with
    | some (b, m) => if e ≠ c ∧ b < a + n ∧ a < b + m then { k with resv := none } else k
    | none => k) (fun e k => ?_) j T.cores
  split
  · split
    · exact hπ ..
    · rfl
  · rfl
theorem Tile.scrPut_core (T : Tile) (a : Nat) (bs : List Byte) (j : Nat) : (T.scrPut a bs).core j = T.core j := by
  unfold Tile.scrPut
  dsimp only
  split <;> rfl
theorem sext_full (v : Nat) : sext 64 v = u64 v := by
  apply BitVec.eq_of_toNat_eq
  rw [sext, u64, toSigned, BitVec.toNat_ofInt, BitVec.toNat_ofNat]
  split <;> omega
theorem fin_setX_run (s : State) (t c len rd : Nat) (v : W64) : fin s t c len (fun k => k.setX rd v) =
    .next (s.modCore t c fun k => { k.setX rd v with pc := k.pc + u64 len, instret := k.instret + 1 }) :=
  congrArg (fun f => Host.Outcome.next (s.modCore t c f)) (funext fun k => Core.setX_next k rd v (k.pc + u64 len))
/-- A store to scratch puts its bytes there, and the core goes on (R170). -/
theorem fin_store_scratch (s : State) (t c len a n : Nat) (bs : List Byte) : GoesTo (fin (s.setTile t (((s.tile t).scrPut a bs).breakResv c a n)) t c len id) fun u =>
    memGetList (u.tile t).scr a bs.length = bs ∧ (∀ j, j < a ∨ a + bs.length ≤ j → memGet (u.tile t).scr j = memGet (s.tile t).scr j) ∧ (u.tile t).sram = (s.tile t).sram ∧
    (u.core t c).pc = (s.core t c).pc + u64 len ∧ (∀ r, (u.core t c).getX r = (s.core t c).getX r) ∧ ∀ j, j ≠ t → u.tile j = s.tile j := by
  have hself : (s.setTile t (((s.tile t).scrPut a bs).breakResv c a n)).tile t = ((s.tile t).scrPut a bs).breakResv c a n := (State.setTile_tile ..).trans (if_pos rfl)
  have hscr : (((s.tile t).scrPut a bs).breakResv c a n).scr = memPutList (s.tile t).scr a bs := Tile.scrPut_scr ..
  have hsram : (((s.tile t).scrPut a bs).breakResv c a n).sram = (s.tile t).sram := Tile.scrPut_sram ..
  have hcore {β : Type} (π : Core → β) (hπ : ∀ k r, π { k with resv := r } = π k) : π ((s.setTile t (((s.tile t).scrPut a bs).breakResv c a n)).core t c) = π (s.core t c) := by
    rw [State.core, hself, Tile.breakResv_core π hπ, Tile.scrPut_core]
    rfl
  have hother (j : Nat) (hj : j ≠ t) : (s.setTile t (((s.tile t).scrPut a bs).breakResv c a n)).tile j = s.tile j := (State.setTile_tile ..).trans (if_neg hj)
  obtain ⟨hput, hrest⟩ := memPutList_reads (s.tile t).scr a bs
  generalize s.setTile t (((s.tile t).scrPut a bs).breakResv c a n) = s1 at hself hcore hother
  have htile : ((s1.modCore t c fun k => k.next (k.pc + u64 len)).tile t) = (s1.tile t).modCore c fun k => k.next (k.pc + u64 len) := State.modCore_tile_self ..
  have hmem : ((s1.modCore t c fun k => k.next (k.pc + u64 len)).tile t).scr = memPutList (s.tile t).scr a bs ∧ ((s1.modCore t c fun k => k.next (k.pc + u64 len)).tile t).sram = (s.tile t).sram := by
    rw [htile]
    exact ⟨(congrArg Tile.scr hself).trans hscr, (congrArg Tile.sram hself).trans hsram⟩
  obtain ⟨hmscr, hmsram⟩ := hmem
  refine goesTo_ok ⟨?_, fun j hj => ?_, hmsram, ?_, fun r => ?_, fun j hj => (State.modCore_tile_other s1 t c _ hj).trans (hother j hj)⟩
  · exact (congrArg (memGetList · a bs.length) hmscr).trans hput
  · exact (congrArg (memGet · j) hmscr).trans (hrest j hj)
  · exact (congrArg Core.pc (State.modCore_core_self ..)).trans (congrArg (· + u64 len) (hcore Core.pc fun _ _ => rfl))
  · exact (congrArg (Core.getX · r) (State.modCore_core_self ..)).trans (hcore (fun k => k.getX r) fun _ _ => rfl)

/-! ### The obligation -/

section
variable {s : State} {t c w len : Nat}

theorem exec_rv_load {n : Nat} {sg : Bool} (f : Nat → W64) (ht : t < 32768) (hruns : coreRuns s t c = true) (hfetch : (s.tile t).fetch c = .ins w len) (hxt : xtOf w = none) (hop : iOp w = 0x03)
    (hkind : loadKind (iF3 w) = some (n, sg)) (hf : ∀ v, (if sg then sext (8 * n) v else u64 v) = f v) :
    exec (.rvInstruction t c false) s = coreLoad (s.fetched t c len) t c ((s.core t c).getX (iRs1 w) + immI w).toNat n fun s v => fin s t c len fun k => k.setX (iRd w) (f v) := by
  have hcore : (s.fetched t c len).core t c = s.core t c := s.fetched_core ..
  rw [exec_rvInstruction ht hruns hfetch hxt (isExit_of_op (by rw [hop]; decide)), rvExec_load hop hkind, hcore]
  simp only [hf]
  rfl
/-- A load of `n` bytes (R170, R178, R200). -/
theorem rv_loads {n : Nat} {sg : Bool} (f : Nat → W64) (ht : t < 32768) (hruns : coreRuns s t c = true) (hfetch : (s.tile t).fetch c = .ins w len) (hxt : xtOf w = none) (hop : iOp w = 0x03)
    (hkind : loadKind (iF3 w) = some (n, sg)) (hf : ∀ v, (if sg then sext (8 * n) v else u64 v) = f v) :
    let la := ((s.core t c).getX (iRs1 w) + immI w).toNat
    let T := (s.fetched t c len).tile t
    (la % n ≠ 0 → exec (.rvInstruction t c false) s = .next ((s.fetched t c len).trap t c 4 (u64 la))) ∧
    (la % n = 0 → T.badAt la = false →
      (zoneOf T.guarded la = .scratch → T.pairDiffers la n = true → exec (.rvInstruction t c false) s = .next ((s.fetched t c len).trap t c 24 0)) ∧
      (zoneOf T.guarded la = .scratch → T.pairDiffers la n = false → exec (.rvInstruction t c false) s = .next (((s.fetched t c len).modTile t fun T => T.meetLocal la n).modCore t c
        fun k => { k.setX (iRd w) (f (memWord T.scr la n)) with pc := k.pc + u64 len, instret := k.instret + 1 })) ∧
      (zoneOf T.guarded la = .sram → exec (.rvInstruction t c false) s = .next (((s.fetched t c len).modTile t fun T => T.meetLocal la n).modCore t c
        fun k => { k.setX (iRd w) (f (memWord T.sram (la - 0x1000000) n)) with pc := k.pc + u64 len, instret := k.instret + 1 }))) := by
  rw [exec_rv_load f ht hruns hfetch hxt hop hkind hf]
  exact ⟨fun hmis => coreLoad_misaligned _ hmis, fun hal hbad => ⟨fun hzone hpair => coreLoad_differs _ hal hbad hzone hpair,
    fun hzone hpair => (coreLoad_scratch _ hal hbad hzone hpair).trans (fin_setX_run ..), fun hzone => (coreLoad_sram _ hal hbad hzone).trans (fin_setX_run ..)⟩⟩
theorem exec_rv_store {n : Nat} (ht : t < 32768) (hruns : coreRuns s t c = true) (hfetch : (s.tile t).fetch c = .ins w len) (hxt : xtOf w = none) (hop : iOp w = 0x23)
    (hf3 : iF3 w ≤ 3) (hn : 2 ^ iF3 w = n) : exec (.rvInstruction t c false) s =
      coreStore (s.fetched t c len) t c ((s.core t c).getX (iRs1 w) + immS w).toNat n (((s.core t c).getX (iRs2 w)).toNat % 2 ^ (8 * n)) fun s => fin s t c len id := by
  have hcore : (s.fetched t c len).core t c = s.core t c := s.fetched_core ..
  rw [exec_rvInstruction ht hruns hfetch hxt (isExit_of_op (by rw [hop]; decide)), rvExec_store hop hf3, hcore, hn]
  rfl
/-- A store of `n` bytes (R170, R178, R200). -/
theorem rv_stores {n : Nat} (ht : t < 32768) (hruns : coreRuns s t c = true) (hfetch : (s.tile t).fetch c = .ins w len) (hxt : xtOf w = none) (hop : iOp w = 0x23)
    (hf3 : iF3 w ≤ 3) (hn : 2 ^ iF3 w = n) :
    let sa := ((s.core t c).getX (iRs1 w) + immS w).toNat
    let T := (s.fetched t c len).tile t
    let bs := leBytes n (((s.core t c).getX (iRs2 w)).toNat % 2 ^ (8 * n))
    (sa % n ≠ 0 → exec (.rvInstruction t c false) s = .next ((s.fetched t c len).trap t c 6 (u64 sa))) ∧
    (sa % n = 0 → T.badAt sa = false →
      (zoneOf T.guarded sa = .scratch → T.badCopy sa = false → GoesTo (exec (.rvInstruction t c false) s) fun u =>
        memGetList (u.tile t).scr sa n = bs ∧ (∀ a, a < sa ∨ sa + n ≤ a → memGet (u.tile t).scr a = memGet T.scr a) ∧ (u.tile t).sram = T.sram ∧
        (u.core t c).pc = (s.core t c).pc + u64 len ∧ (∀ r, (u.core t c).getX r = (s.core t c).getX r) ∧ (∀ n, n ≠ t → u.tile n = s.tile n)) ∧
      (zoneOf T.guarded sa = .sram → exec (.rvInstruction t c false) s = .next ((((s.fetched t c len).sramStore t (sa - 0x1000000) bs).modTile t
        fun T => T.breakResv c sa n).modCore t c fun k => { k with pc := k.pc + u64 len, instret := k.instret + 1 }))) := by
  rw [exec_rv_store ht hruns hfetch hxt hop hf3 hn]
  intro sa T bs
  have hlen : bs.length = n := length_leBytes ..
  refine ⟨fun hmis => coreStore_misaligned _ _ hmis, fun hal hbad => ⟨fun hzone hcopy => ?_, fun hzone => coreStore_sram _ _ hal hbad hzone⟩⟩
  rw [coreStore_scratch _ _ hal hbad hzone hcopy]
  obtain ⟨u, hu, hput, hrest, hsram, hpc, hx, hother⟩ := fin_store_scratch (s.fetched t c len) t c len sa n bs
  rw [hlen] at hput hrest
  have hcore : (s.fetched t c len).core t c = s.core t c := s.fetched_core ..
  rw [hcore] at hpc hx
  exact ⟨u, hu, hput, hrest, hsram, hpc, hx, fun j hj => (hother j hj).trans (s.fetched_tile_other t c len hj)⟩
end

/-- Settles O11: every branch of the instruction's meaning is a next state, and each opcode's branch gives the result that the statement names. -/
theorem rvInstructionsComplete : Obligations.RvInstructionsComplete := by
  unfold Obligations.RvInstructionsComplete
  refine ⟨⟨fun t c m s ht _ => rvInstruction_completes c m s ht, fun t c w len s ht hruns hfetch hxt hexit => ?_⟩, fun t c w len s ht hruns hfetch hxt => ?_⟩
  · have hrun := exec_rvInstruction ht hruns hfetch hxt hexit
    have hcore : (s.fetched t c len).core t c = s.core t c := s.fetched_core ..
    intro k x1 x2 goes puts jumps I sh low
    have hput {v v' : W64} (h : rvExec (s.fetched t c len) t c w len = fin (s.fetched t c len) t c len fun k => k.setX (iRd w) v) (hv : v = v') : puts v' := by
      subst hv
      have hfin := fin_setX (s.fetched t c len) t c len (iRd w) v
      rw [hcore] at hfin
      exact hrun.trans (h.trans hfin)
    have hjump {b : Bool} (hop : iOp w = 0x63) (hb : branchTaken (iF3 w) x1 x2 = some b) : jumps b := by
      have hbr : branchTaken (iF3 w) (((s.fetched t c len).core t c).getX (iRs1 w)) (((s.fetched t c len).core t c).getX (iRs2 w)) = some b := by rw [hcore]; exact hb
      exact hrun.trans ((rvExec_branch hop hbr).trans rfl)
    have hgoes {v pc : W64} {f : Core → Core} (h : rvExec (s.fetched t c len) t c w len = ok ((s.fetched t c len).modCore t c f)) (hf : f k = (k.setX (iRd w) v).next pc) : goes v pc :=
      hrun.trans (h.trans (congrArg Host.Outcome.next (State.modCore_congr (by rw [hcore]; exact hf.trans (Core.setX_next ..)))))
    have himm {f3 : Nat} {v : W64} (hop : iOp w = 0x13) (h3 : iF3 w = f3) (h1 : f3 ≠ 1) (h5 : f3 ≠ 5) (hv : alu f3 false x1 I = v) : puts v := by
      subst h3
      exact hput (rvExec_opImm hop h1 h5) (by rw [hcore]; exact hv)
    have halu {f3 : Nat} {v : W64} (hop : iOp w = 0x33) (h7 : iF7 w = 0) (h3 : iF3 w = f3) (hv : alu f3 false x1 x2 = v) : puts v := hput (rvExec_op hop h7) (by rw [hcore, h3]; exact hv)
    have hmul {f3 : Nat} {v : W64} (hop : iOp w = 0x33) (h7 : iF7 w = 1) (h3 : iF3 w = f3) (hv : u64 (mulDiv f3 64 x1.toNat x2.toNat) = v) : puts v :=
      hput (rvExec_mulDiv hop h7) (by rw [hcore, h3]; exact hv)
    obtain ⟨hblt, hbge, hbltu, hbgeu⟩ := branchTaken_eq x1 x2
    obtain ⟨hsll, hsrl, hsra⟩ := alu_shift x1 (w / 2 ^ 20)
    refine ⟨fun hop => hput (rvExec_lui hop) rfl, fun hop => hput (rvExec_auipc hop) (by rw [hcore]), fun hop => hgoes (rvExec_jal hop) rfl,
      fun hop h3 => hgoes (rvExec_jalr hop h3) (by rw [hcore]), fun hop => ?branch, fun hop => ?opImm, fun hop h7 => ?op, fun hop h7 => ?opAlt, fun hop h7 => ?mulDiv,
      fun hop h3 => hput (rvExec_addiw hop h3) ?addiw, fun hop h3 => ⟨fun h7 => ?addw, fun h7 => ?subw⟩, ?still, fun hw => ?ecall, fun hw => ?ebreak⟩
    case branch =>
      exact ⟨fun h3 => hjump hop (by rw [h3]; rfl), fun h3 => hjump hop (by rw [h3]; rfl), fun h3 => hjump hop (by rw [h3]; exact hblt), fun h3 => hjump hop (by rw [h3]; exact hbge),
        fun h3 => hjump hop (by rw [h3]; exact hbltu), fun h3 => hjump hop (by rw [h3]; exact hbgeu)⟩
    case opImm =>
      exact ⟨fun h3 => himm hop h3 (by decide) (by decide) rfl, fun h3 => himm hop h3 (by decide) (by decide) (alu_slt ..), fun h3 => himm hop h3 (by decide) (by decide) (alu_sltu ..),
        fun h3 => himm hop h3 (by decide) (by decide) rfl, fun h3 => himm hop h3 (by decide) (by decide) rfl, fun h3 => himm hop h3 (by decide) (by decide) rfl,
        fun h3 hi => hput (rvExec_slli hop h3 hi) (by rw [hcore]; exact hsll), fun h3 hi => hput (rvExec_srli hop h3 hi) (by rw [hcore]; exact hsrl),
        fun h3 hi => hput (rvExec_srai hop h3 hi) (by rw [hcore]; exact hsra)⟩
    case op =>
      exact ⟨fun h3 => halu hop h7 h3 rfl, fun h3 => halu hop h7 h3 rfl, fun h3 => halu hop h7 h3 (alu_slt ..), fun h3 => halu hop h7 h3 (alu_sltu ..), fun h3 => halu hop h7 h3 rfl,
        fun h3 => halu hop h7 h3 rfl, fun h3 => halu hop h7 h3 rfl, fun h3 => halu hop h7 h3 rfl⟩
    case opAlt =>
      exact ⟨fun h3 => hput (rvExec_opAlt hop h7 (.inl h3)) (by rw [hcore, h3]; rfl), fun h3 => hput (rvExec_opAlt hop h7 (.inr h3)) (by rw [hcore, h3]; rfl)⟩
    case mulDiv =>
      exact ⟨fun h3 => hmul hop h7 h3 (mulDiv_mul ..), fun h3 => hmul hop h7 h3 rfl, fun h3 => hmul hop h7 h3 (mulDiv_div ..), fun h3 => hmul hop h7 h3 (mulDiv_divu ..),
        fun h3 => hmul hop h7 h3 (mulDiv_rem ..), fun h3 => hmul hop h7 h3 (mulDiv_remu ..)⟩
    case addiw =>
      rw [hcore, aluW_add]
      rfl
    case addw => exact hput (rvExec_opW hop (.inl h7) (by rw [hcore, h7, h3]; exact aluW_add ..)) rfl
    case subw => exact hput (rvExec_opW hop (.inr ⟨h7, .inl h3⟩) (by rw [hcore, h7, h3]; exact aluW_sub ..)) rfl
    case still =>
      rintro (⟨hop, h3⟩ | rfl)
      · exact hrun.trans ((rvExec_fence hop h3).trans rfl)
      · exact hrun.trans (rvExec_wfi.trans rfl)
    case ecall =>
      subst hw
      exact hrun.trans rvExec_ecall
    case ebreak =>
      subst hw
      rw [hrun, rvExec_ebreak, hcore]
      rfl
  · intro k la sa T loads stores
    refine ⟨fun hop => ⟨fun h3 => ?_, fun h3 => ?_, fun h3 => ?_, fun h3 => ?_, fun h3 => ?_, fun h3 => ?_, fun h3 => ?_⟩, fun hop => ⟨fun h3 => ?_, fun h3 => ?_, fun h3 => ?_, fun h3 => ?_⟩⟩
    · exact rv_loads (sext 8) ht hruns hfetch hxt hop (n := 1) (sg := true) (by rw [h3]; rfl) fun _ => rfl
    · exact rv_loads (sext 16) ht hruns hfetch hxt hop (n := 2) (sg := true) (by rw [h3]; rfl) fun _ => rfl
    · exact rv_loads (sext 32) ht hruns hfetch hxt hop (n := 4) (sg := true) (by rw [h3]; rfl) fun _ => rfl
    · exact rv_loads u64 ht hruns hfetch hxt hop (n := 8) (sg := true) (by rw [h3]; rfl) sext_full
    · exact rv_loads u64 ht hruns hfetch hxt hop (n := 1) (sg := false) (by rw [h3]; rfl) fun _ => rfl
    · exact rv_loads u64 ht hruns hfetch hxt hop (n := 2) (sg := false) (by rw [h3]; rfl) fun _ => rfl
    · exact rv_loads u64 ht hruns hfetch hxt hop (n := 4) (sg := false) (by rw [h3]; rfl) fun _ => rfl
    · exact rv_stores ht hruns hfetch hxt hop (by omega) (n := 1) (by rw [h3]; rfl)
    · exact rv_stores ht hruns hfetch hxt hop (by omega) (n := 2) (by rw [h3]; rfl)
    · exact rv_stores ht hruns hfetch hxt hop (by omega) (n := 4) (by rw [h3]; rfl)
    · exact rv_stores ht hruns hfetch hxt hop (by omega) (n := 8) (by rw [h3]; rfl)
end Sys2Proof.Machine
end
